-- ==== Sys2Proof/Word.lean ====
section
/-! DEFINITION. The word type and the sparse table that holds every indexed piece of state: plain data in one canonical form (keys strictly rising, no entry equal to what an unlisted key reads as). -/

namespace Sys2Proof

/-- A register word (R3). -/
abbrev Word := BitVec 32

/-- A sparse table from keys to values, in canonical form: keys strictly rising, no entry equal to the default. -/
abbrev Tbl (α : Type) := List (Nat × α)

/-- What a table holds at a key; an unlisted key holds its default. -/
def Tbl.get {α : Type} (d : Nat → α) : Tbl α → Nat → α
  | [], k => d k
  | (j, v) :: t, k => if j = k then v else Tbl.get d t k

/-- Put an entry, keeping the keys rising (the value is not the default). -/
def Tbl.put {α : Type} : Tbl α → Nat → α → Tbl α
  | [], k, v => [(k, v)]
  | (j, w) :: t, k, v =>
    if k < j then (k, v) :: (j, w) :: t
    else if k = j then (k, v) :: t
    else (j, w) :: Tbl.put t k v

/-- Drop an entry. -/
def Tbl.del {α : Type} : Tbl α → Nat → Tbl α
  | [], _ => []
  | (j, w) :: t, k => if j = k then Tbl.del t k else (j, w) :: Tbl.del t k

/-- Write a key: the default is held by no entry. -/
def Tbl.set {α : Type} [DecidableEq α] (d : Nat → α) (t : Tbl α) (k : Nat) (v : α) : Tbl α :=
  if v = d k then t.del k else t.put k v

/-- Every key is above `k`, rising. -/
def Tbl.above {α : Type} : Nat → Tbl α → Bool
  | _, [] => true
  | k, (j, _) :: t => decide (k < j) && Tbl.above j t

/-- The keys rise strictly. -/
def Tbl.rising {α : Type} : Tbl α → Bool
  | [] => true
  | (j, _) :: t => Tbl.above j t

/-- No entry is equal to the default. -/
def Tbl.lean {α : Type} [DecidableEq α] (d : Nat → α) (t : Tbl α) : Bool :=
  t.all fun e => decide (e.2 ≠ d e.1)

/-- The canonical form. -/
def Tbl.wf {α : Type} [DecidableEq α] (d : Nat → α) (t : Tbl α) : Bool :=
  t.rising && Tbl.lean d t

end Sys2Proof
end

