-- ==== Sys2Proof/Syntax.lean ====
section
/-! DEFINITION. The commands of the block: one constructor for each row of the opcode table, with the row's operands. A command that a host or the steward sends names its sender; an event of the block's surroundings carries what was measured. -/

namespace Sys2Proof

/-- Where a register access comes from: the two HSP ports and the steward (R487). -/
inductive Port where
  | spi | eth | steward
  deriving DecidableEq, Repr

/-- The sender of a register access: its port and its session (0 for the steward). -/
structure Who where
  port : Port
  sess : BitVec 16
  deriving DecidableEq, Repr

/-- An axis context, 0 to 255 (R34). -/
abbrev Axis := BitVec 8
/-- A unit, U0 to U31 (R11). -/
abbrev UnitNo := BitVec 5

/-- A source slot of the angle unit (R50). -/
inductive Slot where
  | s0 | s1 | s2
  deriving DecidableEq, Repr

/-- The slot's number. -/
def Slot.n : Slot → Nat
  | .s0 => 0 | .s1 => 1 | .s2 => 2

/-- The switches of an axis (R158). -/
inductive Switch where
  | home | plim | nlim
  deriving DecidableEq, Repr

/-- The parallel fetches of format M (Table 5.5): FX, FY, the address registers, the post-modify codes and the destinations. -/
structure Fetch where
  fx : Bool
  fy : Bool
  xa : Bool
  ya : Bool
  xm : BitVec 2
  ym : BitVec 2
  dx : BitVec 3
  dy : BitVec 3
  deriving DecidableEq, Repr

/-- The address of LD and ST (format L): absolute, or an address register with a post-modify code. -/
inductive Ea where
  | abs (a : BitVec 12)
  | ind (n md : BitVec 2)
  deriving DecidableEq, Repr

/-- The count of RPT: COUNT - 1, or a register. -/
inductive RptN where
  | imm (c : BitVec 10)
  | reg (d : BitVec 3)
  deriving DecidableEq, Repr

/-- The count of LOOP. -/
inductive LoopN where
  | imm (c : BitVec 12)
  | reg (d : BitVec 3)
  deriving DecidableEq, Repr


/-- The network ports, by number p of R313. -/
inductive NetPort where
  | seg0a | seg0b | seg1a | seg1b | mir
  deriving DecidableEq, Repr

/-- The port's number. -/
def NetPort.n : NetPort → Nat
  | .seg0a => 0 | .seg0b => 1 | .seg1a => 2 | .seg1b => 3 | .mir => 4

/-- The first test of R299 that a received frame fails. -/
inductive RxFail where
  | codeViol | short | crc | tagOrMac | len | unknown
  deriving DecidableEq, Repr

/-- A frame that has passed the tests of R299: its port, the header fields of Table 8.5, its LEN payload bytes, and the instants of its first and last bit in 2^-8 ns after the start of the present basic cycle. -/
structure Rx where
  port : NetPort
  ver : BitVec 4
  src : BitVec 8
  dirn : Bool
  req : Bool
  alert : Bool
  pay : List (BitVec 8)
  first : Nat
  last : Nat
  deriving DecidableEq, Repr

/-- The data set of an IEEE 1588 clock as an Announce message carries it (R355). -/
structure PtpDs where
  prio1 : BitVec 8
  cls : BitVec 8
  acc : BitVec 8
  var : BitVec 16
  prio2 : BitVec 8
  ident : BitVec 64
  steps : BitVec 16
  deriving DecidableEq, Repr

/-- IEEE 1588 messages (R355): the times they carry in ns, their correctionField in 2^-16 ns, and the requesting port's identity. -/
inductive PtpMsg where
  | announce (ds : PtpDs)
  | sync (seq : BitVec 16) (twoStep : Bool) (t1 : BitVec 64) (corr : BitVec 64)
  | followUp (seq : BitVec 16) (t1 : BitVec 64) (corr : BitVec 64)
  | delayReq (who : BitVec 80) (seq : BitVec 16) (corr : BitVec 64)
  | delayResp (seq : BitVec 16) (t4 : BitVec 64) (corr : BitVec 64)
  | pdelayReq (who : BitVec 80) (seq : BitVec 16) (corr : BitVec 64)
  | pdelayResp (seq : BitVec 16) (t2 : BitVec 64) (corr : BitVec 64)
  | pdelayFollow (seq : BitVec 16) (t3 : BitVec 64) (corr : BitVec 64)
  deriving DecidableEq, Repr

/-- The mirror header of a MIRROR frame (Table 10.2), with the sender's address. -/
structure MirHdr where
  src : BitVec 8
  mseq : BitVec 16
  fidx : BitVec 16
  deriving DecidableEq, Repr

/-- The generator record of a TILE frame (R372): position, velocity, acceleration and gear remainder, shift offset and the offset its plan leads to, mode, move queue. -/
structure GenRec where
  p : Int
  v : Int
  a : Int
  rem : Int
  sh : Int
  shTo : Int
  mode : BitVec 3
  queue : List Int
  deriving DecidableEq, Repr

/-- A mirrored change (Table 10.3): RSEQ, KIND, EFF_CYC and its data bytes. -/
structure MirRec where
  rseq : Word
  kind : BitVec 8
  eff : BitVec 16
  data : List (BitVec 8)
  deriving DecidableEq, Repr

/-- The angle block of a COMMIT (Table 10.2). -/
structure MirAngle where
  key : BitVec 64
  frac : BitVec 16
  trust : BitVec 8
  hold : Bool
  speed : BitVec 48
  vm : BitVec 48
  deriving DecidableEq, Repr

/-! ### The flash and the image (chapter 12)

The spec states the boot header, the directory and the commit record byte by byte, and of the sections only what they hold; the flash is held as these contents, each CRC as its verdict. -/

/-- An axis context as the image and the migrations place it (R12, R19, R34, R82). -/
structure Ctx where
  /-- the loaded image uses this context (R533; reset false) -/
  used : Bool := false
  /-- class: 0 A, 1 B, 2 C (Table 1.4; DESIGN CHOICE 2 while unused) -/
  cls : Nat := 2
  /-- law set of the class (Table 3.1; DESIGN CHOICE 5 while unused) -/
  lawSet : Nat := 5
  /-- home region (R19) -/
  region : Nat := 0
  /-- slot of the region's tile area, which the head assigns (R493) -/
  slot : Nat := 0
  /-- reserved unit a class A context is bound to (R68) -/
  unit : Nat := 0
  /-- class period is 2^plog basic cycles (Table 1.4) -/
  plog : Nat := 0
  /-- phase of the round in which samples fall due -/
  phase : Nat := 0
  /-- samples are released by feedback rather than by phase (R84) -/
  relFb : Bool := false
  /-- the axis has a measured position (R84) -/
  hasPos : Bool := false
  /-- segment and node of a remote axis, with its axis index on the node -/
  node : Option (Nat × Nat × Nat) := none
  /-- first bridge channel of a local axis (R258, Table 3.3 BIND) -/
  bridge : Option Nat := none
  /-- command train that carries the axis (R323) -/
  train : Nat := 0
  /-- PWM period of the node, in 4 ns units (R109) -/
  nodePeriod : Nat := 0
  /-- local encoder of an axis fed by ENC0 to ENC3 -/
  enc : Option Nat := none
  /-- ΣΔ channels of the phase currents and of the bus voltage of a local class A axis (R272) -/
  sd : List Nat := []
  sdBus : Option Nat := none
  /-- the other context of an L-G pair (R17, R112) -/
  partner : Option Nat := none
  /-- recipe bank the context's law tile was taken from (Table 3.3 BIND) -/
  recipe : Nat := 0
  deriving DecidableEq, Repr

/-- An entry of the image's node list (Table 12.4). -/
structure NodeEnt where
  seg : Nat
  pos : Nat
  ntype : Nat
  addr : Nat
  deriving DecidableEq, Repr

/-- A schedule generation as Halom Studio validated it, for this head's position: the table and poll words of each segment, the version of each port's own hop, the channels marked compact, those whose every hop is HN2, the round trip to each node in ns, and each node's extract. -/
structure SchedGen where
  sgen : Nat := 0
  tables : List (Nat × List Word) := []
  polls : List (Nat × List Word) := []
  hop : List (Nat × Nat) := []
  compact : List Nat := []
  hn2 : List Nat := []
  rtt : List (Nat × Nat) := []
  extract : List (Nat × List (BitVec 8)) := []
  deriving DecidableEq, Repr

/-- A cam of a recipe: its number, whether it is cyclic, its STROKE and its points X, Y, LAW with MATCH (R167, R168). -/
structure CamRec where
  id : Nat
  cyclic : Bool
  stroke : Int
  pts : List (Nat × Int × Word)
  deriving DecidableEq, Repr

/-- The content of a RECIPE section: law tiles by axis, register values, cams (R184). -/
structure Recipe where
  laws : List (Nat × List Word) := []
  regs : List (Nat × Word) := []
  cams : List CamRec := []
  deriving DecidableEq, Repr

/-- The safety section in NVM: its register words, the signature stored with them, salt and password hash (R415 to R417). -/
structure SafeSec where
  words : List (Nat × Word)
  sig : Word
  salt : List (BitVec 8)
  hash : List (BitVec 8)
  deriving DecidableEq, Repr

/-- A lane task of a LANE section: its descriptor slot and words, and the words of its code and data by offset in the unit page. -/
structure LaneTask where
  slot : Nat
  a : Word
  b : Word
  words : List (Nat × Word)
  /-- the first check of Table 6.4 it fails, none where it passes all -/
  bad : Bool := false
  /-- SPAN of the image check, and whether a span is unbounded (R244) -/
  span : Nat := 0
  unbounded : Bool := false
  deriving DecidableEq, Repr

/-- What a section holds (Table 12.4). -/
inductive Body where
  /-- address and value pairs, axis contexts, used segments, bank of each group, initial MODE of each axis -/
  | system (regs : List (Nat × Word)) (ctxs : List (Nat × Ctx)) (used : List Nat) (banks modes : List (Nat × Nat))
  | nodes (l : List NodeEnt)
  /-- a schedule table set, with the master ranks it configures -/
  | sched (x : SchedGen) (ranks : List Nat)
  | poll (ws : List Word)
  | lane (ts : List LaneTask)
  | recipe (bank : Nat) (r : Recipe)
  | safety (x : SafeSec)
  /-- law tiles by axis and register values saved in service -/
  | tune (laws : List (Nat × List Word)) (regs : List (Nat × Word))
  /-- the ROM version it names, and whether its signature verifies (R430) -/
  | patch (rom : Nat) (sigOk : Bool)
  | sig (key rs : List (BitVec 8))
  | label
  | other
  deriving DecidableEq, Repr

/-- A section with its directory entry (Table 12.3); `crcOk`: its bytes match the entry's CRC. -/
structure Section where
  typ : Nat
  idx : Nat
  optional : Bool := false
  len : Nat := 0
  crcOk : Bool := true
  body : Body
  deriving DecidableEq, Repr

/-- A commit record whose MAGIC and CRC match (Table 12.2). -/
structure CommitRec where
  igen : Nat
  ilen : Nat := 0
  from' : Nat := 0
  signed : Bool := false
  saved : Bool := false
  deriving DecidableEq, Repr

/-- A slot: its commit record, its directory (`dirOk`: MAGIC and DIR_CRC match), its sections, and the SHA-256 that R429 signs. -/
structure SlotImg where
  commit : Option CommitRec := none
  /-- a job on it has been cut short (R444) -/
  torn : Bool := false
  dirOk : Bool := false
  fmt : Nat := 0
  tuneOk : Bool := false
  digest : List (BitVec 8) := []
  secs : List Section := []
  deriving DecidableEq, Repr

/-- A boot header copy whose MAGIC and CRC match (Table 12.1). -/
structure BootHdr where
  mode : Nat
  clk : Nat
  slotA : Nat
  slotB : Nat
  slotSize : Nat
  logOfs : Nat
  logSize : Nat
  nodeWait : Nat
  portEn : Nat
  tmo : Nat
  deriving DecidableEq, Repr

/-- The NOR flash: what its SFDP allows (the protocols by their code in Table 12.1, the clock in MHz), the first matching boot header, and the slots. -/
structure Flash where
  sfdp : Option (List Nat × Nat) := none
  hdr : Option BootHdr := none
  a : SlotImg := {}
  b : SlotImg := {}
  deriving DecidableEq, Repr

/-- Where an HSP message comes from and its header (Table 13.2): the port, on Ethernet the sender's IPv4 address and UDP port, whether its CRC and its LEN match what was received, MT, VER, SESSION and TAG. -/
structure HspHdr where
  eth : Bool
  ip : Word := 0
  udp : BitVec 16 := 0
  crcOk : Bool := true
  lenOk : Bool := true
  mt : BitVec 8 := 1
  ver : BitVec 8
  sess : BitVec 16
  tag : BitVec 16
  deriving DecidableEq, Repr

/-- An ICMP echo request: the sender's MAC and IPv4 address, identifier, sequence number and data. -/
structure Echo where
  mac : BitVec 48
  ip : Word
  ident : BitVec 16
  seq : BitVec 16
  data : List (BitVec 8)
  deriving DecidableEq, Repr


/-- The commands (spec/opcode_table.json), one constructor a row: those with operands first, so that compiled code can build every command. -/
inductive Instr where
  /-- REGISTER_WRITE (R9). -/
  | registerWrite (w : Who) (a v : Word)
  /-- READ_CLEAR (R490). -/
  | readClear (p : Port) (a : Word)
  /-- LATCHED_READ (R488). -/
  | latchedRead (p : Port) (a : Word)
  /-- STAGED_WRITE (R489). -/
  | stagedWrite (w : Who) (a v : Word)
  /-- DATA_LINK_KEEP_ALIVE (R26). -/
  | dataLinkKeepAlive (okS okC : Bool)
  /-- DATA_LINK_TRANSFER (R26). -/
  | dataLinkTransfer (toS ok : Bool)
  /-- STEWARD_WATCHDOG (R442). -/
  | stewardWatchdog (pc : BitVec 16)
  /-- REGION_CTRL_WRITE (R47). -/
  | regionCtrlWrite (w : Who) (g : BitVec 2) (v : Word)
  /-- CLOCK_SWITCH (R22). -/
  | clockSwitch (g : BitVec 2)
  /-- RESERVATION_APPLY (R47). -/
  | reservationApply (g : BitVec 2) (hi : Bool)
  /-- THERMAL_MEASURE (R24). -/
  | thermalMeasure (t0 t1 t2 t3 : BitVec 8)
  /-- QUARANTINE (R48). -/
  | quarantine (w : Who) (g : BitVec 2)
  /-- RELOAD (R449). -/
  | reload (w : Who) (g : BitVec 2)
  /-- RELOAD_TEST_DONE (R450). -/
  | reloadTestDone (g : BitVec 2) (bad : Option (BitVec 8))
  /-- SOURCE_DISTRUSTED (R54). -/
  | sourceDistrusted (n : Slot)
  /-- NET_SOURCE_LOST (R53). -/
  | netSourceLost (n : Slot)
  /-- RESUME (R57). -/
  | resume (w : Who)
  /-- RETRUST (R58). -/
  | retrust (w : Who) (m : BitVec 3)
  /-- AUTO_RETRUST (R58). -/
  | autoRetrust (n : Slot)
  /-- DL_INSERT (R62). -/
  | dlInsert (w : Who) (l : BitVec 2)
  /-- DL_CANCEL (R66). -/
  | dlCancel (w : Who) (l : BitVec 2)
  /-- DL_OP_DONE (R61). -/
  | dlOpDone (p : Port) (ns : Nat)
  /-- BP_STALL (R72). -/
  | bpStall (n : Nat)
  /-- OVERRUN (R70). -/
  | overrun (n : Axis)
  /-- DISPATCH (R67). -/
  | dispatch (u : UnitNo) (ns : Nat)
  /-- LANE_YIELD (R69). -/
  | laneYield (u : UnitNo) (ns : Nat)
  /-- LAW_TASK_COMPLETE (R102). -/
  | lawTaskComplete (u : UnitNo) (ns : Nat)
  /-- SATUR (R124). -/
  | satur (n : Axis)
  /-- HOLD_TIMEOUT (R125). -/
  | holdTimeout (n : Axis)
  /-- LAW_TILE_REBUILD (R129). -/
  | lawTileRebuild (n : Axis)
  /-- MODE_WRITE (R116). -/
  | modeWrite (w : Who) (n : Axis) (v : Word)
  /-- SNAP (R123). -/
  | snap (w : Who) (n : Axis)
  /-- SR (R118). -/
  | sr (w : Who) (n : Axis)
  /-- RST (R113). -/
  | rst (w : Who) (n : Axis)
  /-- FCLR (R128). -/
  | fclr (w : Who) (n : Axis)
  /-- SPRING_RAMP_HANDOVER (R120). -/
  | springRampHandover (n : Axis)
  /-- LAW_TUB_COMMIT (R122). -/
  | lawTubCommit (w : Who) (n : Axis) (bl : Bool)
  /-- MOVE_INSERT_ABS (R141). -/
  | moveInsertAbs (w : Who) (n : Axis)
  /-- MOVE_INSERT_REL (R141). -/
  | moveInsertRel (w : Who) (n : Axis)
  /-- FLUSH (R142). -/
  | flush (w : Who) (n : Axis)
  /-- STOP (R147). -/
  | stop (w : Who) (n : Axis) (fl : Bool)
  /-- QSTOP (R148). -/
  | qstop (w : Who) (n : Axis)
  /-- GEAR (R164). -/
  | gear (w : Who) (n : Axis)
  /-- CAM (R175). -/
  | cam (w : Who) (n : Axis) (rel : Bool)
  /-- HOME (R159). -/
  | home (w : Who) (n : Axis)
  /-- SETPOS (R160). -/
  | setpos (w : Who) (n : Axis)
  /-- SHCLR (R179). -/
  | shclr (w : Who) (n : Axis)
  /-- LIMIT_CHANGE (R145). -/
  | limitChange (n : Axis)
  /-- GEAR_RATIO_WRITE (R165). -/
  | gearRatioWrite (w : Who) (n : Axis) (v : Word)
  /-- VIRTUAL_LIMIT_WRITE (R153). -/
  | virtualLimitWrite (w : Who) (n : Axis) (v : Word)
  /-- SWITCH_EDGE_RAW (R162). -/
  | switchEdgeRaw (n : Axis)
  /-- SWITCH_DEBOUNCED (R158). -/
  | switchDebounced (n : Axis) (sw : Switch) (level : Bool) (dt span : Nat)
  /-- INDEX_PULSE (R273). -/
  | indexPulse (k : BitVec 2)
  /-- CAM_TILE_VERIFY (R173). -/
  | camTileVerify (n : Axis) (t : BitVec 11)
  /-- CAM_TILE_REBUILD (R174). -/
  | camTileRebuild (t : BitVec 11)
  /-- SHIFT_REQUEST (R177). -/
  | shiftRequest (w : Who) (n : Axis) (v : Word)
  /-- CO_REQUEST (R181). -/
  | coRequest (w : Who) (g : BitVec 4) (v : Word)
  /-- CO_CANCEL (R187). -/
  | coCancel (w : Who) (g : BitVec 4)
  /-- CO_STAGED (R182). -/
  | coStaged (g : BitVec 4)
  /-- NOP (R202). -/
  | nop (u : UnitNo)
  /-- LDI (R202). -/
  | ldi (u : UnitNo) (d : BitVec 3) (imm : BitVec 16)
  /-- LDIH (R219). -/
  | ldih (u : UnitNo) (d : BitVec 3) (imm : BitVec 16)
  /-- MOV (R202). -/
  | mov (u : UnitNo) (d a : BitVec 3)
  /-- LD (R199). -/
  | ld (u : UnitNo) (d : BitVec 3) (y w : Bool) (ea : Ea)
  /-- ST (R199). -/
  | st (u : UnitNo) (a : BitVec 3) (y w : Bool) (ea : Ea)
  /-- MTS (R202). -/
  | mts (u : UnitNo) (spec : BitVec 5) (a : BitVec 3)
  /-- MFS (R202). -/
  | mfs (u : UnitNo) (d : BitVec 3) (spec : BitVec 5)
  /-- ADD (R196). -/
  | add (u : UnitNo) (d a b : BitVec 3)
  /-- SUB (R196). -/
  | sub (u : UnitNo) (d a b : BitVec 3)
  /-- ADDI (R196). -/
  | addi (u : UnitNo) (d a : BitVec 3) (imm : BitVec 16)
  /-- AND (R197). -/
  | land (u : UnitNo) (d a b : BitVec 3)
  /-- OR (R197). -/
  | lor (u : UnitNo) (d a b : BitVec 3)
  /-- XOR (R197). -/
  | lxor (u : UnitNo) (d a b : BitVec 3)
  /-- ANDI (R197). -/
  | andi (u : UnitNo) (d a : BitVec 3) (imm : BitVec 16)
  /-- ORI (R197). -/
  | ori (u : UnitNo) (d a : BitVec 3) (imm : BitVec 16)
  /-- XORI (R197). -/
  | xori (u : UnitNo) (d a : BitVec 3) (imm : BitVec 16)
  /-- SHL (R197). -/
  | shl (u : UnitNo) (d a : BitVec 3) (n : BitVec 5)
  /-- SHR (R197). -/
  | shr (u : UnitNo) (d a : BitVec 3) (n : BitVec 5)
  /-- SRA (R197). -/
  | sra (u : UnitNo) (d a : BitVec 3) (n : BitVec 5)
  /-- CMP (R196). -/
  | cmp (u : UnitNo) (a b : BitVec 3)
  /-- NEG (R196). -/
  | neg (u : UnitNo) (d a : BitVec 3)
  /-- ABS (R196). -/
  | abs (u : UnitNo) (d a : BitVec 3)
  /-- NOT (R197). -/
  | lnot (u : UnitNo) (d a : BitVec 3)
  /-- MIN (R197). -/
  | min (u : UnitNo) (d a b : BitVec 3)
  /-- MAX (R197). -/
  | max (u : UnitNo) (d a b : BitVec 3)
  /-- NRM (R206). -/
  | nrm (u : UnitNo) (d : BitVec 3)
  /-- QSTEP (R205). -/
  | qstep (u : UnitNo) (d a : BitVec 3)
  /-- MAC (R203). -/
  | mac (u : UnitNo) (f : Fetch) (a b : BitVec 3) (ua ub hb : Bool)
  /-- MSU (R203). -/
  | msu (u : UnitNo) (f : Fetch) (a b : BitVec 3) (ua ub hb : Bool)
  /-- MPY (R203). -/
  | mpy (u : UnitNo) (f : Fetch) (a b : BitVec 3) (ua ub hb : Bool)
  /-- FETCH (R203). -/
  | fetch (u : UnitNo) (f : Fetch)
  /-- ACS (R204). -/
  | acs (u : UnitNo) (d a b c : BitVec 3) (neg mx fx xa : Bool) (xm : BitVec 2) (dx : BitVec 3)
  /-- CLRA (R207). -/
  | clra (u : UnitNo)
  /-- ADDA (R207). -/
  | adda (u : UnitNo) (a : BitVec 3)
  /-- SUBA (R207). -/
  | suba (u : UnitNo) (a : BitVec 3)
  /-- NEGA (R207). -/
  | nega (u : UnitNo)
  /-- ABSA (R207). -/
  | absa (u : UnitNo)
  /-- SHLA (R207). -/
  | shla (u : UnitNo) (n : BitVec 5)
  /-- SHRA (R207). -/
  | shra (u : UnitNo) (n : BitVec 5)
  /-- MVA_H (R198). -/
  | mvaH (u : UnitNo) (d : BitVec 3)
  /-- MVA_T (R198). -/
  | mvaT (u : UnitNo) (d : BitVec 3)
  /-- MVA_L (R198). -/
  | mvaL (u : UnitNo) (d : BitVec 3)
  /-- BR (R208). -/
  | br (u : UnitNo) (c : BitVec 4) (t : BitVec 13)
  /-- CALL (R208). -/
  | call (u : UnitNo) (c : BitVec 4) (t : BitVec 13)
  /-- RET (R208). -/
  | ret (u : UnitNo) (c : BitVec 4)
  /-- RPT (R210). -/
  | rpt (u : UnitNo) (n : RptN)
  /-- LOOP (R211). -/
  | loop (u : UnitNo) (n : LoopN) (e : BitVec 13)
  /-- IN (R215). -/
  | portIn (u : UnitNo) (d : BitVec 3) (p : BitVec 6)
  /-- OUT (R215). -/
  | portOut (u : UnitNo) (p : BitVec 6) (a : BitVec 3)
  /-- POST_ENTRY (R214). -/
  | postEntry (u : UnitNo) (l : BitVec 2)
  /-- POST_SHIFT (R214). -/
  | postShift (u : UnitNo)
  /-- POST_RELEASE (R214). -/
  | postRelease (u : UnitNo)
  /-- END (R229). -/
  | laneEnd (u : UnitNo)
  /-- LAGOON_REQUEST (R217). -/
  | lagoonRequest (w : Who) (u : UnitNo) (v : Word)
  /-- LAGOON_APPLY (R217). -/
  | lagoonApply (u : UnitNo)
  /-- REARM (R238). -/
  | rearm (w : Who) (u : UnitNo) (k : BitVec 3)
  /-- HOLDOFF_MAX_APPLY (R243). -/
  | holdoffMaxApply (u : UnitNo)
  /-- LANE_CAPTURE (R237). -/
  | laneCapture (u : UnitNo) (k : BitVec 3) (dt span : Nat)
  /-- BRIDGE_RELOAD (R254). -/
  | bridgeReload (m : BitVec 3)
  /-- BRIDGE_EDGE (R252). -/
  | bridgeEdge (c : BitVec 5) (rise : Bool)
  /-- DEAD_TIME_END (R253). -/
  | deadTimeEnd (c : BitVec 5)
  /-- SYNC_POINT (R260). -/
  | syncPoint (m : BitVec 3) (count : BitVec 16)
  /-- COMMIT (R255). -/
  | commit (w : Who) (m : BitVec 3)
  /-- EDGE_PROGRAMME_LAND (R256). -/
  | edgeProgrammeLand (n : Axis)
  /-- SINC3_OUTPUT (R270). -/
  | sinc3Output (j : BitVec 4) (bits : List Bool)
  /-- SD_FLT (R271). -/
  | sdFlt (j : BitVec 4)
  /-- LOCAL_SAMPLE (R272). -/
  | localSample (n : Axis) (ia ib vb : List Bool) (ns : Nat)
  /-- ENC_EDGE (R273). -/
  | encEdge (k : BitVec 2) (a b : Bool)
  /-- SSI_FRAME_END (R275). -/
  | ssiFrameEnd (k : BitVec 2) (data : BitVec 40) (err low : Bool)
  /-- ENC_FLT_CLEAR (R276). -/
  | encFltClear (w : Who) (k : BitVec 2)
  /-- STILL_WATER_START (R278). -/
  | stillWaterStart (n : Axis)
  /-- TO_APPLY (R283). -/
  | toApply (w : Who) (k : BitVec 5)
  /-- TO_EDGE (R280). -/
  | toEdge (k : BitVec 5)
  /-- STEP_PULSE (R284). -/
  | stepPulse (k : BitVec 5)
  /-- LINK_START (R290). -/
  | linkStart (p : NetPort)
  /-- LINK_SYNC (R290). -/
  | linkSync (p : NetPort)
  /-- LINK_SYNC_TIMEOUT (R290). -/
  | linkSyncTimeout (p : NetPort)
  /-- LINK_FRAME_TX (R290). -/
  | linkFrameTx (p : NetPort)
  /-- LINK_RX (R290). -/
  | linkRx (p : NetPort) (maxver flg : BitVec 8) (etype : BitVec 16) (serial : Word) (portid : BitVec 8)
  /-- LINK_ADV_TIMEOUT (R290). -/
  | linkAdvTimeout (p : NetPort)
  /-- LINK_RATE_SWITCH (R290). -/
  | linkRateSwitch (p : NetPort)
  /-- LINK_FALLBACK (R291). -/
  | linkFallback (p : NetPort)
  /-- LINK_LOST (R291). -/
  | linkLost (p : NetPort)
  /-- RETRY (R291). -/
  | retry (w : Who) (p : NetPort)
  /-- FRAME_RX_INVALID (R299). -/
  | frameRxInvalid (p : NetPort) (f : RxFail)
  /-- REF_RX (R347). -/
  | refRx (r : Rx)
  /-- FEEDBACK_RX (R305). -/
  | feedbackRx (r : Rx)
  /-- TRAIN_RX (R366). -/
  | trainRx (r : Rx)
  /-- DIRECT_RX (R366). -/
  | directRx (r : Rx)
  /-- SVC_RX (R327). -/
  | svcRx (r : Rx)
  /-- ENUM_RX (R334). -/
  | enumRx (r : Rx)
  /-- DELAY_RX (R348). -/
  | delayRx (p : NetPort) (op seq : BitVec 8) (t1 t2 t3 : BitVec 64) (at' answer : Nat)
  /-- DELAY_REQUEST (R348). -/
  | delayRequest (p : NetPort) (at' : Nat)
  /-- DELAY_TIMEOUT (R348). -/
  | delayTimeout (p : NetPort)
  /-- FEEDBACK_WINDOW_END (R330). -/
  | feedbackWindowEnd (g : Bool) (k : BitVec 10)
  /-- FBMISS (R331). -/
  | fbmiss (n : Axis)
  /-- REF_TX (R345). -/
  | refTx (g : Bool) (dep : BitVec 10)
  /-- TRAIN_TX (R323). -/
  | trainTx (g : Bool) (k : BitVec 10)
  /-- DIRECT_TX (R324). -/
  | directTx (n : Axis) (at' : Nat)
  /-- ARB_WINDOW (R326). -/
  | arbWindow (g : Bool) (k : BitVec 10)
  /-- POLL_TIMEOUT (R327). -/
  | pollTimeout (g : Bool) (at' : Nat)
  /-- SEGMENT_START (R333). -/
  | segmentStart (w : Who) (g : Bool)
  /-- LINKS_TIMEOUT (R333). -/
  | linksTimeout (g : Bool)
  /-- DELAY_STATE_END (R333). -/
  | delayStateEnd (g : Bool)
  /-- DISCOVER_ROUND (R334). -/
  | discoverRound (g : Bool)
  /-- SYNC_END (R337). -/
  | syncEnd (g : Bool)
  /-- SYNC_NODE_TIMEOUT (R337). -/
  | syncNodeTimeout (n : BitVec 7)
  /-- NODE_LOST (R338). -/
  | nodeLost (n : BitVec 7)
  /-- REDISC (R339). -/
  | redisc (w : Who)
  /-- NODE_ADOPTED (R339). -/
  | nodeAdopted (n : BitVec 7)
  /-- SWITCH (R322). -/
  | switch (w : Who)
  /-- PTP_MESSAGE_RX (R355). -/
  | ptpMessageRx (domain : BitVec 8) (m : PtpMsg) (at' : Nat)
  /-- PTP_SYNC_TX (R355). -/
  | ptpSyncTx (at' : Nat)
  /-- LEAD_STOP (R359). -/
  | leadStop (noTick : Bool)
  /-- PARTNER_QUIET (R360). -/
  | partnerQuiet (mir : Bool)
  /-- MIRROR_DIGEST_RX (R367). -/
  | mirrorDigestRx (h : MirHdr) (es : List (BitVec 8 × BitVec 8 × Word))
  /-- MIRROR_TILE_RX (R370). -/
  | mirrorTileRx (h : MirHdr) (ax reason : BitVec 8) (scyc : BitVec 16) (tile : List Word) (gen : GenRec)
  /-- MIRROR_RECORD_RX (R377). -/
  | mirrorRecordRx (h : MirHdr) (r : MirRec)
  /-- MIRROR_COMMIT_RX (R374). -/
  | mirrorCommitRx (h : MirHdr) (nfr : BitVec 16) (crcOk : Bool) (level : BitVec 8) (lkey : Word) (ang : MirAngle)
  /-- MIRROR_KEEP_RX (R375). -/
  | mirrorKeepRx (h : MirHdr)
  /-- MIRROR_ACK_RX (R377). -/
  | mirrorAckRx (h : MirHdr) (pstate : BitVec 8) (rseq lkey : Word) (level : BitVec 8) (reqs : List (BitVec 8))
  /-- COMPARE_TIMEOUT (R366). -/
  | compareTimeout (n : Axis)
  /-- SWITCHOVER (R388). -/
  | switchover (w : Who)
  /-- RESYNC (R386). -/
  | resync (w : Who)
  /-- CLR_FAULT (R369). -/
  | clrFault (w : Who)
  /-- SAFETY_INPUT_EDGE (R395). -/
  | safetyInputEdge (k : BitVec 4) (lineB level : Bool) (dur : BitVec 16)
  /-- DISC_TIMEOUT (R396). -/
  | discTimeout (chB : Bool) (k : BitVec 4)
  /-- ACK_PULSE (R399). -/
  | ackPulse (n : BitVec 3) (ms : Nat)
  /-- ACK_STUCK (R399). -/
  | ackStuck (n : BitVec 3)
  /-- ACK_WITHDRAW (R400). -/
  | ackWithdraw (chB : Bool) (z : BitVec 3)
  /-- EDM_CHANGE (R401). -/
  | edmChange (z : BitVec 3) (level : Bool)
  /-- EDM_TIMEOUT (R401). -/
  | edmTimeout (chB : Bool) (z : BitVec 3)
  /-- CROSS_FRAME_TX (R393). -/
  | crossFrameTx (chB : Bool)
  /-- CROSS_FRAME_RX (R393). -/
  | crossFrameRx (toB crcOk : Bool)
  /-- CROSS_LINK_LOST (R393). -/
  | crossLinkLost (chB : Bool)
  /-- XCOMP (R404). -/
  | xcomp (z : BitVec 3)
  /-- DARK_PULSE_START (R406). -/
  | darkPulseStart (chB : Bool) (z : BitVec 3)
  /-- DARK_PULSE_END (R406). -/
  | darkPulseEnd (chB : Bool) (z : BitVec 3)
  /-- DARK_PULSE_READBACK (R406). -/
  | darkPulseReadback (chB : Bool) (z : BitVec 3) (after level : Bool)
  /-- OUTTEST_TIMEOUT (R405). -/
  | outtestTimeout (chB : Bool) (z : BitVec 3)
  /-- STANDSTILL (R410). -/
  | standstill (z : BitVec 3)
  /-- SS1_TIMEOUT (R411). -/
  | ss1Timeout (chB : Bool) (z : BitVec 3)
  /-- ZONE_FAULT_CLEARED (R403). -/
  | zoneFaultCleared (z : BitVec 3)
  /-- DEVICE_FAULT (R394). -/
  | deviceFault (chB : Bool) (code : BitVec 4)
  /-- SAFE_COMMIT (R418). -/
  | safeCommit (w : Who)
  /-- SAFE_CONFIRM (R418). -/
  | safeConfirm (w : Who)
  /-- SAFE_DISCARD (R418). -/
  | safeDiscard (w : Who)
  /-- SAFE_CLOSE (R417). -/
  | safeClose (w : Who)
  /-- SAFETY_WRITE_DONE (R418). -/
  | safetyWriteDone (ok : Bool)
  /-- POR (R441). -/
  | por (rank : Bool) (test : BitVec 2)
  /-- VCORE_FAULT (R510). -/
  | vcoreFault (rank : Bool) (test : BitVec 2)
  /-- RST_N (R504). -/
  | rstN (ns : Nat)
  /-- START_UP (R431). -/
  | startUp (prog : Option Flash) (bad : BitVec 4) (torn : List Nat)
  /-- BOOT_RETRY (R437). -/
  | bootRetry (w : Who)
  /-- SAVE (R443). -/
  | save (w : Who)
  /-- ABORT (R466). -/
  | abort (w : Who)
  /-- ERASE (R443). -/
  | erase (w : Who)
  /-- IMG_JOB_DONE (R443). -/
  | imgJobDone (nvmOk : Bool) (img : SlotImg)
  /-- LOAD (R448). -/
  | load (w : Who) (bank : BitVec 3) (sec : BitVec 4)
  /-- CLEAR (R448). -/
  | clear (w : Who) (bank : BitVec 3)
  /-- THERMAL_RECOVER (R510). -/
  | thermalRecover (rank : Bool) (test : BitVec 2)
  /-- SPI_PUT (R454). -/
  | spiPut (cmd : BitVec 8) (bytes : List (BitVec 8))
  /-- SPI_GET (R454). -/
  | spiGet (n : Nat)
  /-- SPI_RESET (R453). -/
  | spiReset (b0 b1 b2 : BitVec 8)
  /-- HRST_N (R504). -/
  | hrstN (ns : Nat)
  /-- PORT_RESET_FRAME (R456). -/
  | portResetFrame (pay : Word)
  /-- HELLO (R459). -/
  | hello (h : HspHdr) (vmin vmax : BitVec 8)
  /-- OPEN (R460). -/
  | hspOpen (h : HspHdr) (role : BitVec 8) (pw : List (BitVec 8))
  /-- CLOSE (R460). -/
  | close (h : HspHdr)
  /-- READ (R484). -/
  | read (h : HspHdr) (a : Word) (count : BitVec 16)
  /-- WRITE (R465). -/
  | write (h : HspHdr) (a : Word) (count : BitVec 16) (ws : List Word)
  /-- LOG_READ (R475). -/
  | logRead (h : HspHdr) (from' : Word) (n : BitVec 8)
  /-- IMG_BEGIN (R466). -/
  | imgBegin (h : HspHdr) (len : Word)
  /-- IMG_DATA (R466). -/
  | imgData (h : HspHdr) (ofs : Word) (data : List (BitVec 8))
  /-- IMG_END (R466). -/
  | imgEnd (h : HspHdr)
  /-- SUBSCRIBE (R467). -/
  | subscribe (h : HspHdr) (qmask diag : BitVec 8)
  /-- ARP_REQUEST (R455). -/
  | arpRequest (mac : BitVec 48) (spa tpa : Word)
  /-- ICMP_ECHO (R455). -/
  | icmpEcho (e : Echo)
  /-- BLK_LOCK_WRITE (R462). -/
  | blkLockWrite (w : Who) (v : Word)
  /-- FAULT_INJECT (R481). -/
  | faultInject (w : Who) (v : Word)
  /-- ACK_RISING_EDGE (R399). -/
  | ackRisingEdge (n : BitVec 3)
  /-- READBACK_LOW_WHILE_ON (R405). -/
  | readbackLowWhileOn (chB : Bool) (z : BitVec 3)
  /-- SD_FLT_END (R271). -/
  | sdFltEnd (j : BitVec 4)
  /-- RGMII_IN_BAND_STATUS (R455). -/
  | rgmiiInBandStatus (up : Bool) (speed : BitVec 2) (full : Bool)
  /-- PTP_DELAY_REQUEST (R355). -/
  | ptpDelayRequest (at' : Nat)
  /-- DATA_LINK_LOST_S (R27). -/
  | dataLinkLostS
  /-- DATA_LINK_LOST_C (R27). -/
  | dataLinkLostC
  /-- QUAR_WINDOW_END (R36). -/
  | quarWindowEnd
  /-- MIGRATE_CONTEXT (R41). -/
  | migrateContext
  /-- SCHEDULER_TICK (R60). -/
  | schedulerTick
  /-- ANGLE_HOLD (R56). -/
  | angleHold
  /-- SOURCE_RESTART (R532). -/
  | sourceRestart
  /-- STATS_PUBLISH (R75). -/
  | statsPublish
  /-- SNAP_COPY (R123). -/
  | snapCopy
  /-- LAW_TILE_INSTALL (R122). -/
  | lawTileInstall
  /-- SETPOINT_COMPUTE (R136). -/
  | setpointCompute
  /-- SHADOW_WRITE_LAND (R254). -/
  | shadowWriteLand
  /-- DEBUG_HALT (R261). -/
  | debugHalt
  /-- DEBUG_RESUME (R261). -/
  | debugResume
  /-- MIR_RETRY (R293). -/
  | mirRetry
  /-- LISTEN_END (R354). -/
  | listenEnd
  /-- REDISCOVER (R339). -/
  | rediscover
  /-- SCHED_SWITCH_APPLY (R322). -/
  | schedSwitchApply
  /-- TIME_WRAP (R342). -/
  | timeWrap
  /-- ERA_UPDATE (R342). -/
  | eraUpdate
  /-- REF_WINDOW_MISS (R353). -/
  | refWindowMiss
  /-- REF_BACKUP_START (R353). -/
  | refBackupStart
  /-- LEAD_TOGGLE (R359). -/
  | leadToggle
  /-- LEAD_IN_EDGE (R360). -/
  | leadInEdge
  /-- LEAD_WAIT_END (R363). -/
  | leadWaitEnd
  /-- TAKEOVER (R381). -/
  | takeover
  /-- MIRROR_TRANSFER (R371). -/
  | mirrorTransfer
  /-- MIRROR_KEEP_TX (R372). -/
  | mirrorKeepTx
  /-- MIRROR_ACK_TX (R372). -/
  | mirrorAckTx
  /-- RECORD_APPLY (R377). -/
  | recordApply
  /-- MIRROR_LINK_DOWN (R375). -/
  | mirrorLinkDown
  /-- SWITCHOVER_RELEASE (R388). -/
  | switchoverRelease
  /-- RESYNC_COMPLETE (R386). -/
  | resyncComplete
  /-- PROVING_COMPLETE (R387). -/
  | provingComplete
  /-- SESSION_TIMEOUT (R417). -/
  | sessionTimeout
  /-- LOCKOUT_END (R417). -/
  | lockoutEnd
  /-- NODE_WAIT_EXPIRY (R433). -/
  | nodeWaitExpiry
  /-- BOOT_TIMEOUT (R435). -/
  | bootTimeout
  /-- TORN_SLOT_ERASE (R444). -/
  | tornSlotErase
  /-- LOG_PERSIST (R446). -/
  | logPersist
  /-- RECIPE_LOAD_DONE (R448). -/
  | recipeLoadDone
  /-- THERMAL_SHUTDOWN (R510). -/
  | thermalShutdown
  /-- SPI_STATUS (R453). -/
  | spiStatus
  /-- IMG_DATA_TIMEOUT (R466). -/
  | imgDataTimeout
  /-- JTAG_UNLOCK (R480). -/
  | jtagUnlock
  /-- FTM_WAIT_TIMEOUT (R480). -/
  | ftmWaitTimeout
  deriving DecidableEq, Repr

end Sys2Proof
end

