-- ==== Sys2Proof/Machine/Arith.lean ====
section
/-! DEFINITION. Arithmetic every chapter shares: rounding half-up, saturation, serial-number order (R6), CRC-32C (R99), SHA-256 (R417), the integer square root (R95), cosine and sine (R94). -/

namespace Sys2Proof.Machine

/-- Round the exact quotient n / d half-up to an integer (d > 0). -/
def rhu (n d : Int) : Int := (2 * n + d).fdiv (2 * d)

/-- Clamp to a range. -/
def clampI (x lo hi : Int) : Int := if x < lo then lo else if hi < x then hi else x

/-- The signed value of an n-bit pattern. -/
def sx (n x : Nat) : Int :=
  let y := x % 2 ^ n
  if 2 ^ (n - 1) ≤ y then (y : Int) - 2 ^ n else y

/-- The n-bit pattern of an integer. -/
def ux (n : Nat) (x : Int) : Nat := (x % ((2 ^ n : Nat) : Int)).toNat

/-- Saturate to n bits signed; the flag says whether it saturated. -/
def satF (n : Nat) (x : Int) : Int × Bool :=
  let h : Int := 2 ^ (n - 1)
  if x < -h then (-h, true) else if h - 1 < x then (h - 1, true) else (x, false)

/-- Saturate to n bits signed. -/
def sat (n : Nat) (x : Int) : Int := (satF n x).1

/-- The distance from `b` to `a` modulo 2^n. -/
def dist (n a b : Nat) : Nat := (a + (2 ^ n - b % 2 ^ n)) % 2 ^ n

/-- `a` is later than `b` by serial-number arithmetic (R6). -/
def later (n a b : Nat) : Bool := decide (0 < dist n a b) && decide (dist n a b < 2 ^ (n - 1))

/-- The serial difference `a - b` as a signed value. -/
def sdiff (n a b : Nat) : Int := sx n (dist n a b)

/-- One step of the reflected CRC-32C (R99), polynomial 0x1EDC6F41 reflected 0x82F63B78. -/
def crcBit (c : BitVec 32) : BitVec 32 :=
  if c.getLsbD 0 then (c >>> 1) ^^^ 0x82F63B78#32 else c >>> 1

/-- CRC-32C over one byte. -/
def crcByte (c : BitVec 32) (b : BitVec 8) : BitVec 32 :=
  let c := c ^^^ b.zeroExtend 32
  crcBit (crcBit (crcBit (crcBit (crcBit (crcBit (crcBit (crcBit c)))))))

/-- CRC-32C of bytes: initial value and final XOR 0xFFFFFFFF (R99). -/
def crc32c (bs : List (BitVec 8)) : BitVec 32 := bs.foldl crcByte 0xFFFFFFFF#32 ^^^ 0xFFFFFFFF#32

/-- The bytes of a word, least significant first (R4, R99). -/
def leBytes (w : Word) : List (BitVec 8) :=
  [w.extractLsb' 0 8, w.extractLsb' 8 8, w.extractLsb' 16 8, w.extractLsb' 24 8]

/-- The bytes of a word, most significant first (R4, R457). -/
def beBytes (w : Word) : List (BitVec 8) := (leBytes w).reverse

/-- CRC-32C of words, each least significant byte first (R99). -/
def crcWords (ws : List Word) : Word := crc32c (ws.flatMap leBytes)

/-- The value of bytes, most significant first. -/
def beVal (bs : List (BitVec 8)) : Nat := bs.foldl (fun a b => a * 256 + b.toNat) 0

/-- n bytes of a value, most significant first. -/
def beOf (n v : Nat) : List (BitVec 8) :=
  (List.range n).map fun i => BitVec.ofNat 8 (v / 256 ^ (n - 1 - i))

/-- The greatest integer whose square does not exceed `n`, by halving with fuel. -/
def isqrtGo : Nat → Nat → Nat → Nat → Nat
  | 0, _, lo, _ => lo
  | f + 1, n, lo, hi =>
    let m := (lo + hi) / 2
    if hi ≤ lo + 1 then lo
    else if m * m ≤ n then isqrtGo f n m hi else isqrtGo f n lo m

/-- Integer square root (R95). -/
def isqrt (n : Nat) : Nat := isqrtGo (n.log2 + 3) n 0 (2 ^ (n.log2 / 2 + 1))

/-- π × 2^64, rounded. -/
def piQ64 : Nat := 57952155664616982739

/-- The nested alternating series 1 - y/(m(m+1))·(1 - y/((m+2)(m+3))·(…)) in Q64, `y` = x². -/
def trigSer (y : Int) : Nat → Int → Int
  | 0, _ => 2 ^ 64
  | k + 1, m => 2 ^ 64 - (y * trigSer y k (m + 2)).fdiv (2 ^ 64 * (m * (m + 1)))

/-- Cosine and sine of a u32 angle with 2^32 counts per turn, rounded to Q1.31 (R94 before its tolerance). -/
def cosSinExact (t : Nat) : Int × Int :=
  let r := t % 2 ^ 30
  let x : Int := ((r * piQ64 / 2 ^ 31 : Nat) : Int)
  let y := (x * x).fdiv (2 ^ 64)
  let c := rhu (trigSer y 14 1) (2 ^ 33)
  let s := rhu ((x * trigSer y 14 2).fdiv (2 ^ 64)) (2 ^ 33)
  match t / 2 ^ 30 % 4 with
  | 0 => (c, s)
  | 1 => (-s, c)
  | 2 => (-c, -s)
  | _ => (s, -c)

/-- SHA-256 round constants. -/
def shaK : List Nat :=
  [0x428a2f98, 0x71374491, 0xb5c0fbcf, 0xe9b5dba5, 0x3956c25b, 0x59f111f1, 0x923f82a4, 0xab1c5ed5, 0xd807aa98, 0x12835b01, 0x243185be, 0x550c7dc3, 0x72be5d74, 0x80deb1fe, 0x9bdc06a7, 0xc19bf174] ++
  [0xe49b69c1, 0xefbe4786, 0xfc19dc6, 0x240ca1cc, 0x2de92c6f, 0x4a7484aa, 0x5cb0a9dc, 0x76f988da, 0x983e5152, 0xa831c66d, 0xb00327c8, 0xbf597fc7, 0xc6e00bf3, 0xd5a79147, 0x6ca6351, 0x14292967] ++
  [0x27b70a85, 0x2e1b2138, 0x4d2c6dfc, 0x53380d13, 0x650a7354, 0x766a0abb, 0x81c2c92e, 0x92722c85, 0xa2bfe8a1, 0xa81a664b, 0xc24b8b70, 0xc76c51a3, 0xd192e819, 0xd6990624, 0xf40e3585, 0x106aa070] ++
  [0x19a4c116, 0x1e376c08, 0x2748774c, 0x34b0bcb5, 0x391c0cb3, 0x4ed8aa4a, 0x5b9cca4f, 0x682e6ff3, 0x748f82ee, 0x78a5636f, 0x84c87814, 0x8cc70208, 0x90befffa, 0xa4506ceb, 0xbef9a3f7, 0xc67178f2]

/-- Rotate right. -/
def shaRotr (x : Word) (n : Nat) : Word := x.rotateRight n

/-- The message schedule, newest word first, extended by `n` words. -/
def shaExt : Nat → List Word → List Word
  | 0, w => w
  | n + 1, w =>
    let a := w.getD 1 0
    let b := w.getD 14 0
    let s0 := shaRotr b 7 ^^^ shaRotr b 18 ^^^ (b >>> 3)
    let s1 := shaRotr a 17 ^^^ shaRotr a 19 ^^^ (a >>> 10)
    shaExt n ((w.getD 15 0 + s0 + w.getD 6 0 + s1) :: w)

/-- One round over the eight working variables. -/
def shaRound (v : List Word) (kw : Word) : List Word :=
  match v with
  | [a, b, c, d, e, f, g, h] =>
    let t1 := h + (shaRotr e 6 ^^^ shaRotr e 11 ^^^ shaRotr e 25) + ((e &&& f) ^^^ (~~~e &&& g)) + kw
    let t2 := (shaRotr a 2 ^^^ shaRotr a 13 ^^^ shaRotr a 22) + ((a &&& b) ^^^ (a &&& c) ^^^ (b &&& c))
    [t1 + t2, a, b, c, d + t1, e, f, g]
  | _ => v

/-- One 64-byte block. -/
def shaBlock (h : List Word) (blk : List (BitVec 8)) : List Word :=
  let w16 := (List.range 16).map fun i => BitVec.ofNat 32 (beVal ((blk.drop (4 * i)).take 4))
  let w := (shaExt 48 w16.reverse).reverse
  let r := (w.zip shaK).foldl (fun v p => shaRound v (p.1 + BitVec.ofNat 32 p.2)) h
  List.zipWith (fun a b => a + b) h r

/-- SHA-256 of bytes (R417, R429), the digest as 32 bytes. -/
def sha256 (bs : List (BitVec 8)) : List (BitVec 8) :=
  let n := bs.length
  let m := bs ++ [0x80#8] ++ List.replicate ((119 - n % 64) % 64) 0#8 ++ beOf 8 (8 * n)
  let h0 : List Word := [0x6a09e667, 0xbb67ae85, 0x3c6ef372, 0xa54ff53a, 0x510e527f, 0x9b05688c, 0x1f83d9ab, 0x5be0cd19]
  let blocks := (List.range (m.length / 64)).map fun i => (m.drop (64 * i)).take 64
  (blocks.foldl shaBlock h0).flatMap beBytes

end Sys2Proof.Machine
end

