-- ==== Sys2Proof/Config.lean ====
section
/-! DEFINITION. What an implementation fixes and the spec does not state: fuse and ROM values (R496, R497), and the free values, each an opaque constant nothing can evaluate. -/

namespace Sys2Proof.Config

/-- Metal step of the revision, DEV_REV.STEP (R497: fuse). -/
opaque devStep : BitVec 8
/-- Serial number, DEV_SERIAL (R497: fuse). -/
opaque serial : Word
/-- Steward ROM version (R497: fixed). -/
opaque romSteward : BitVec 16
/-- Safety ROM version (R497: fixed). -/
opaque romSafety : BitVec 16
/-- OTP_STATE.AUTH_REQ (R429: fuse). -/
opaque authReq : Bool
/-- OTP_STATE.KEY_SET (R497: fuse). -/
opaque keySet : Bool
/-- KEY_HASH word i (R429: fuse). -/
opaque keyHash : Nat → Word
/-- MAC address bytes 0 and 1 (R497: fuse). -/
opaque macHi : BitVec 16
/-- MAC address bytes 2 to 5 (R497: fuse). -/
opaque macLo : Word
/-- The words of a region's own core voltage target in mV above 0.72 V (R20: set adaptively, no value stated); the argument is the free-value counter. -/
opaque vcoreTarget : Nat → BitVec 8
/-- The error in LSB of one cosine or sine of R94 (the spec bounds it by 4 LSB and states no more), by the angle. -/
opaque trigErr : Nat → Nat
/-- The error in LSB of one generated cam value of R172 where the spec gives only a bound, by the free-value counter. -/
opaque camErr : Nat → Nat
/-- The live key over the CRC of the live control content (R386: the order of the content is not stated). -/
opaque liveKey : Word → Word
/-- The host part of the link-local IPv4 address of the management port (R455, RFC 3927). -/
opaque linkLocal : BitVec 16
/-- A word the spec leaves open, by the free-value counter. -/
opaque freeWord : Nat → Word
/-- A choice the spec leaves open, by the free-value counter. -/
opaque freeBool : Nat → Bool
/-- Whether an ECDSA P-256 signature verifies, by public key, SHA-256 digest and signature (R429; the standard, not the spec, gives the function). -/
opaque ecdsaOk : List (BitVec 8) → List (BitVec 8) → List (BitVec 8) → Bool

end Sys2Proof.Config
end

