-- ==== Sys2Proof/Machine/RegMap.lean ====
section
/-! DEFINITION. The register map: the address of every register of Table 14.6 (R499), its fields with access code and reset value, from the field maps the table names. Keyed by the register's name; an indexed register takes its indices, each within its range. -/

namespace Sys2Proof.Machine.R

/-- A field: the bit range [hi:lo] of a register (R3). -/
structure Fld where
  hi : Nat
  lo : Nat
  deriving DecidableEq, Repr

/-- Access codes of Table 0.2 (R7); `rwm` is lane memory, written under R191. -/
inductive Acc where
  | ro | rw | wo | w1c | rc | rwl | rws | rwm
  deriving DecidableEq, Repr

/-- One row of a field map. -/
structure Row where
  hi : Nat
  lo : Nat
  acc : Acc
  reset : Nat
  deriving DecidableEq, Repr

/-- A register with its base address, its index dimensions (stride, count) and its field map. -/
structure Cls where
  base : Nat
  dims : List (Nat × Nat)
  rows : List Row
  deriving DecidableEq, Repr

/-- DEV_ID (R497). -/
def DEV_ID : Nat := 0x0
/-- DEV_REV (R497). -/
def DEV_REV : Nat := 0x4
def DEV_REV_REV : Fld := ⟨15, 8⟩
def DEV_REV_STEP : Fld := ⟨7, 0⟩
/-- COMPAT (R497). -/
def COMPAT : Nat := 0x8
def COMPAT_MAXLEVEL : Fld := ⟨15, 8⟩
def COMPAT_LEVEL : Fld := ⟨7, 0⟩
/-- DEV_SERIAL (R497). -/
def DEV_SERIAL : Nat := 0xc
/-- ROM_VER (R497). -/
def ROM_VER : Nat := 0x10
def ROM_VER_STEWARD : Fld := ⟨31, 16⟩
def ROM_VER_SAFETY : Fld := ⟨15, 0⟩
/-- PATCH_STATE (R497). -/
def PATCH_STATE : Nat := 0x14
def PATCH_STATE_SKIPPED : Fld := ⟨15, 8⟩
def PATCH_STATE_APPLIED : Fld := ⟨7, 0⟩
/-- OTP_STATE (R497). -/
def OTP_STATE : Nat := 0x18
def OTP_STATE_AUTH_REQ : Fld := ⟨1, 1⟩
def OTP_STATE_KEY_SET : Fld := ⟨0, 0⟩
/-- KEY_HASH (R497). -/
def KEY_HASH (i : Nat) : Nat := 0x20 + 0x4 * (i % 8)
/-- MAC_HI (R497). -/
def MAC_HI : Nat := 0x40
def MAC_HI_MAC : Fld := ⟨15, 0⟩
/-- MAC_LO (R497). -/
def MAC_LO : Nat := 0x44
/-- INTF_VER (R497). -/
def INTF_VER : Nat := 0x48
def INTF_VER_HSP_MAX : Fld := ⟨31, 24⟩
def INTF_VER_HSP_MIN : Fld := ⟨23, 16⟩
def INTF_VER_NET_MAX : Fld := ⟨15, 8⟩
/-- SYS_CTRL (R452). -/
def SYS_CTRL : Nat := 0x10000
def SYS_CTRL_AUTO_RELOAD : Fld := ⟨0, 0⟩
/-- SYS_CMD (R452). -/
def SYS_CMD : Nat := 0x10004
def SYS_CMD_BOOT_RETRY : Fld := ⟨31, 31⟩
def SYS_CMD_KEY : Fld := ⟨15, 0⟩
/-- BOOT_STATUS (R452). -/
def BOOT_STATUS : Nat := 0x10008
def BOOT_STATUS_PHASE : Fld := ⟨31, 28⟩
def BOOT_STATUS_BOOT_CNT : Fld := ⟨27, 25⟩
def BOOT_STATUS_MINIMAL : Fld := ⟨24, 24⟩
def BOOT_STATUS_BOOT_OK : Fld := ⟨23, 23⟩
def BOOT_STATUS_SLOT : Fld := ⟨22, 22⟩
def BOOT_STATUS_FALLBACK : Fld := ⟨21, 21⟩
def BOOT_STATUS_SIGNED : Fld := ⟨20, 20⟩
def BOOT_STATUS_TUNE_IGN : Fld := ⟨19, 19⟩
def BOOT_STATUS_NVM_MODE : Fld := ⟨18, 16⟩
def BOOT_STATUS_NVM_CLK : Fld := ⟨15, 8⟩
/-- BOOT_CAUSE (R452). -/
def BOOT_CAUSE : Nat := 0x1000c
def BOOT_CAUSE_CAUSE : Fld := ⟨31, 24⟩
def BOOT_CAUSE_DETAIL : Fld := ⟨15, 0⟩
/-- BOOT_HIST (R452). -/
def BOOT_HIST (i : Nat) : Nat := 0x10010 + 0x4 * (i % 4)
/-- BOOT_TIME (R452). -/
def BOOT_TIME : Nat := 0x10020
def BOOT_TIME_INSTALLED : Fld := ⟨31, 16⟩
def BOOT_TIME_RUN : Fld := ⟨15, 0⟩
/-- IMG_IGEN (R452). -/
def IMG_IGEN : Nat := 0x10040
/-- IMG_FMT (R452). -/
def IMG_FMT : Nat := 0x10044
def IMG_FMT_IMAGE : Fld := ⟨31, 16⟩
def IMG_FMT_MAX : Fld := ⟨15, 0⟩
/-- IMG_CMD (R452). -/
def IMG_CMD : Nat := 0x10048
def IMG_CMD_OP : Fld := ⟨31, 30⟩
/-- IMG_JOB (R452). -/
def IMG_JOB : Nat := 0x1004c
def IMG_JOB_BUSY : Fld := ⟨31, 31⟩
def IMG_JOB_JOB : Fld := ⟨30, 28⟩
def IMG_JOB_RESULT : Fld := ⟨27, 24⟩
def IMG_JOB_PROGRESS : Fld := ⟨6, 0⟩
/-- IMG_SLOTS (R452). -/
def IMG_SLOTS : Nat := 0x10050
def IMG_SLOTS_TORN_B : Fld := ⟨3, 3⟩
def IMG_SLOTS_TORN_A : Fld := ⟨2, 2⟩
def IMG_SLOTS_VALID_B : Fld := ⟨1, 1⟩
def IMG_SLOTS_VALID_A : Fld := ⟨0, 0⟩
/-- IMG_FREE_IGEN (R452). -/
def IMG_FREE_IGEN : Nat := 0x10054
/-- LOG_NVM (R452). -/
def LOG_NVM : Nat := 0x10060
def LOG_NVM_PENDING : Fld := ⟨31, 16⟩
def LOG_NVM_TORN : Fld := ⟨15, 0⟩
/-- RCP_CMD (R452). -/
def RCP_CMD : Nat := 0x10080
def RCP_CMD_OP : Fld := ⟨31, 30⟩
def RCP_CMD_BANK : Fld := ⟨10, 8⟩
def RCP_CMD_SECTION : Fld := ⟨3, 0⟩
/-- RCP_STATUS (R452). -/
def RCP_STATUS : Nat := 0x10084
def RCP_STATUS_DONE : Fld := ⟨31, 31⟩
def RCP_STATUS_RESULT : Fld := ⟨27, 24⟩
def RCP_STATUS_BANKS : Fld := ⟨15, 0⟩
/-- RCP_BANK (R452). -/
def RCP_BANK (i : Nat) : Nat := 0x100a0 + 0x4 * (i % 8)
def RCP_BANK_SECTION : Fld := ⟨31, 28⟩
def RCP_BANK_LENGTH : Fld := ⟨18, 0⟩
/-- REGION_CTRL (R46). -/
def REGION_CTRL (i : Nat) : Nat := 0x10400 + 0x10 * (i % 4)
def REGION_CTRL_QUAR_THRESH : Fld := ⟨23, 16⟩
def REGION_CTRL_MIGRATE_OK : Fld := ⟨3, 3⟩
def REGION_CTRL_ECON_REQ : Fld := ⟨2, 2⟩
def REGION_CTRL_RESV_HI : Fld := ⟨1, 1⟩
def REGION_CTRL_RESV_LO : Fld := ⟨0, 0⟩
/-- REGION_STATUS (R46). -/
def REGION_STATUS (i : Nat) : Nat := 0x10404 + 0x10 * (i % 4)
def REGION_STATUS_VCORE : Fld := ⟨31, 24⟩
def REGION_STATUS_TJ : Fld := ⟨23, 16⟩
def REGION_STATUS_CONTEXTS : Fld := ⟨14, 8⟩
def REGION_STATUS_NEIGH_DT : Fld := ⟨7, 7⟩
def REGION_STATUS_VCLAMP : Fld := ⟨6, 6⟩
def REGION_STATUS_CLK_ECON : Fld := ⟨5, 5⟩
def REGION_STATUS_STATE : Fld := ⟨2, 0⟩
/-- REGION_TILE_ERR (R46). -/
def REGION_TILE_ERR (i : Nat) : Nat := 0x10408 + 0x10 * (i % 4)
def REGION_TILE_ERR_TOTAL : Fld := ⟨31, 16⟩
def REGION_TILE_ERR_WINDOW : Fld := ⟨15, 0⟩
/-- REGION_CMD (R46). -/
def REGION_CMD (i : Nat) : Nat := 0x1040c + 0x10 * (i % 4)
def REGION_CMD_RELOAD : Fld := ⟨1, 1⟩
def REGION_CMD_QUARANTINE : Fld := ⟨0, 0⟩
/-- SCH_CTRL (R80). -/
def SCH_CTRL : Nat := 0x20000
def SCH_CTRL_OVR_LIMIT : Fld := ⟨19, 16⟩
def SCH_CTRL_STATS_EN : Fld := ⟨8, 8⟩
def SCH_CTRL_DL_KIND : Fld := ⟨3, 0⟩
/-- SCH_STATUS (R80). -/
def SCH_STATUS : Nat := 0x20004
def SCH_STATUS_STATS_SEQ : Fld := ⟨31, 16⟩
def SCH_STATUS_BP_STALL : Fld := ⟨8, 8⟩
def SCH_STATUS_LATE : Fld := ⟨7, 7⟩
def SCH_STATUS_OVR : Fld := ⟨6, 6⟩
def SCH_STATUS_LAT_GUAR : Fld := ⟨4, 4⟩
def SCH_STATUS_COND_DEBUG : Fld := ⟨3, 3⟩
def SCH_STATUS_COND_THERMAL : Fld := ⟨2, 2⟩
def SCH_STATUS_COND_SCHED : Fld := ⟨1, 1⟩
def SCH_STATUS_COND_HOLDOFF : Fld := ⟨0, 0⟩
/-- TICK_COUNT (R80). -/
def TICK_COUNT : Nat := 0x20008
/-- TA_MON (R80). -/
def TA_MON : Nat := 0x2000c
def TA_MON_TA_MAX : Fld := ⟨31, 16⟩
def TA_MON_TA_VIOL : Fld := ⟨15, 0⟩
/-- INS_KEY_LO (R80). -/
def INS_KEY_LO : Nat := 0x20040
/-- INS_KEY_HI (R80). -/
def INS_KEY_HI : Nat := 0x20044
/-- INS_ACT (R80). -/
def INS_ACT : Nat := 0x20048
/-- INS_PAY (R80). -/
def INS_PAY : Nat := 0x2004c
/-- INS_CMD (R80). -/
def INS_CMD : Nat := 0x20050
def INS_CMD_OP : Fld := ⟨31, 30⟩
def INS_CMD_LIST : Fld := ⟨1, 0⟩
/-- INS_RESULT (R80). -/
def INS_RESULT : Nat := 0x20054
def INS_RESULT_DONE : Fld := ⟨31, 31⟩
def INS_RESULT_CODE : Fld := ⟨2, 0⟩
/-- DL_DEPTH (R80). -/
def DL_DEPTH (i : Nat) : Nat := 0x20100 + 0x4 * (i % 4)
def DL_DEPTH_MAX : Fld := ⟨31, 16⟩
def DL_DEPTH_MEAN : Fld := ⟨15, 0⟩
/-- WAIT (R80). -/
def WAIT (i : Nat) : Nat := 0x20110 + 0x4 * (i % 4)
def WAIT_MAX : Fld := ⟨31, 16⟩
def WAIT_MEAN : Fld := ⟨15, 0⟩
/-- RL_DEPTH (R80). -/
def RL_DEPTH (i j : Nat) : Nat := 0x20200 + 0x10 * (i % 4) + 0x4 * (j % 4)
def RL_DEPTH_MAX : Fld := ⟨31, 16⟩
def RL_DEPTH_MEAN : Fld := ⟨15, 0⟩
/-- UNIT_LOAD (R80). -/
def UNIT_LOAD (i : Nat) : Nat := 0x20400 + 0x4 * (i % 32)
def UNIT_LOAD_CLKCHG : Fld := ⟨17, 17⟩
def UNIT_LOAD_ECON : Fld := ⟨16, 16⟩
def UNIT_LOAD_LOAD : Fld := ⟨15, 0⟩
/-- MA_CTRL (R80). -/
def MA_CTRL : Nat := 0x30000
def MA_CTRL_DISC_CYCLES : Fld := ⟨31, 24⟩
def MA_CTRL_NET_HOLD : Fld := ⟨17, 16⟩
def MA_CTRL_AUTO_RETRUST : Fld := ⟨4, 4⟩
def MA_CTRL_PRIMARY : Fld := ⟨3, 2⟩
def MA_CTRL_NSRC : Fld := ⟨1, 0⟩
/-- MA_STATUS (R80). -/
def MA_STATUS : Nat := 0x30004
def MA_STATUS_HOLD : Fld := ⟨15, 15⟩
def MA_STATUS_DISC : Fld := ⟨14, 14⟩
def MA_STATUS_LOST : Fld := ⟨13, 13⟩
def MA_STATUS_TRUST2 : Fld := ⟨5, 4⟩
def MA_STATUS_TRUST1 : Fld := ⟨3, 2⟩
def MA_STATUS_TRUST0 : Fld := ⟨1, 0⟩
/-- MA_CMD (R80). -/
def MA_CMD : Nat := 0x30008
def MA_CMD_RESUME : Fld := ⟨3, 3⟩
def MA_CMD_RETRUST : Fld := ⟨2, 0⟩
/-- MA_ANGLE (R80). -/
def MA_ANGLE : Nat := 0x30010
/-- MA_CYCLE (R80). -/
def MA_CYCLE : Nat := 0x30014
/-- MA_FRAC (R80). -/
def MA_FRAC : Nat := 0x30018
def MA_FRAC_FRAC : Fld := ⟨15, 0⟩
/-- MA_SPEED_LO (R80). -/
def MA_SPEED_LO : Nat := 0x3001c
/-- MA_SPEED_HI (R80). -/
def MA_SPEED_HI : Nat := 0x30020
/-- MA_DISC_LIM (R80). -/
def MA_DISC_LIM : Nat := 0x30024
/-- MA_CYCLE_INIT (R80). -/
def MA_CYCLE_INIT : Nat := 0x30028
/-- MA_SRC_CFG (R80). -/
def MA_SRC_CFG (i : Nat) : Nat := 0x30040 + 0x10 * (i % 3)
def MA_SRC_CFG_NODE : Fld := ⟨23, 16⟩
def MA_SRC_CFG_SIGNAL : Fld := ⟨15, 8⟩
def MA_SRC_CFG_ENC : Fld := ⟨5, 4⟩
def MA_SRC_CFG_DIR : Fld := ⟨3, 3⟩
def MA_SRC_CFG_TYPE : Fld := ⟨2, 0⟩
/-- MA_SRC_NUM (R80). -/
def MA_SRC_NUM (i : Nat) : Nat := 0x30044 + 0x10 * (i % 3)
/-- MA_SRC_DEN (R80). -/
def MA_SRC_DEN (i : Nat) : Nat := 0x30048 + 0x10 * (i % 3)
/-- MA_SRC_OFS (R80). -/
def MA_SRC_OFS (i : Nat) : Nat := 0x3004c + 0x10 * (i % 3)
/-- VM_TARGET_LO (R80). -/
def VM_TARGET_LO : Nat := 0x30080
/-- VM_TARGET_HI (R80). -/
def VM_TARGET_HI : Nat := 0x30084
def VM_TARGET_HI_HI : Fld := ⟨15, 0⟩
/-- VM_ACCEL_LO (R80). -/
def VM_ACCEL_LO : Nat := 0x30088
/-- VM_ACCEL_HI (R80). -/
def VM_ACCEL_HI : Nat := 0x3008c
def VM_ACCEL_HI_HI : Fld := ⟨15, 0⟩
/-- VM_SPEED_LO (R80). -/
def VM_SPEED_LO : Nat := 0x30090
/-- VM_SPEED_HI (R80). -/
def VM_SPEED_HI : Nat := 0x30094
def VM_SPEED_HI_HI : Fld := ⟨15, 0⟩
/-- TIME_NS (R357). -/
def TIME_NS : Nat := 0x40000
/-- TIME_ERA (R357). -/
def TIME_ERA : Nat := 0x40004
/-- TIME_INC_LO (R357). -/
def TIME_INC_LO : Nat := 0x40008
/-- TIME_INC_HI (R357). -/
def TIME_INC_HI : Nat := 0x4000c
def TIME_INC_HI_INT : Fld := ⟨7, 0⟩
/-- TIME_ADJ (R357). -/
def TIME_ADJ : Nat := 0x40010
/-- TIME_CTRL (R357). -/
def TIME_CTRL : Nat := 0x40014
def TIME_CTRL_STEP_NS : Fld := ⟨31, 24⟩
def TIME_CTRL_KI_SH : Fld := ⟨20, 16⟩
def TIME_CTRL_KP_SH : Fld := ⟨12, 8⟩
/-- TIME_STATUS (R357). -/
def TIME_STATUS : Nat := 0x40018
def TIME_STATUS_ROLE : Fld := ⟨29, 28⟩
def TIME_STATUS_MRANK : Fld := ⟨25, 24⟩
def TIME_STATUS_WRAP_PEND : Fld := ⟨17, 16⟩
def TIME_STATUS_LOCK : Fld := ⟨8, 8⟩
def TIME_STATUS_TAKEN : Fld := ⟨4, 4⟩
def TIME_STATUS_YIELD : Fld := ⟨3, 3⟩
def TIME_STATUS_RANKDUP : Fld := ⟨2, 2⟩
def TIME_STATUS_REFMISS : Fld := ⟨1, 1⟩
def TIME_STATUS_STEP : Fld := ⟨0, 0⟩
/-- TIME_OFS (R357). -/
def TIME_OFS : Nat := 0x4001c
/-- TIME_MSERIAL (R357). -/
def TIME_MSERIAL : Nat := 0x40020
/-- TIME_CYC (R357). -/
def TIME_CYC : Nat := 0x40024
def TIME_CYC_ROUND : Fld := ⟨21, 16⟩
def TIME_CYC_CYC : Fld := ⟨15, 0⟩
/-- REF_MISS_CNT (R357). -/
def REF_MISS_CNT : Nat := 0x40028
/-- PTP_CTRL (R357). -/
def PTP_CTRL : Nat := 0x40040
def PTP_CTRL_DOMAIN : Fld := ⟨31, 24⟩
def PTP_CTRL_SLEW_PPM : Fld := ⟨23, 16⟩
def PTP_CTRL_SYNC_LOG : Fld := ⟨15, 12⟩
def PTP_CTRL_FOLLOW : Fld := ⟨7, 7⟩
def PTP_CTRL_P2P : Fld := ⟨6, 6⟩
def PTP_CTRL_L2 : Fld := ⟨5, 5⟩
def PTP_CTRL_MODE : Fld := ⟨2, 1⟩
def PTP_CTRL_EN : Fld := ⟨0, 0⟩
/-- PTP_STATUS (R357). -/
def PTP_STATUS : Nat := 0x40044
def PTP_STATUS_PSTATE : Fld := ⟨7, 5⟩
def PTP_STATUS_FAR : Fld := ⟨1, 1⟩
def PTP_STATUS_PLOCK : Fld := ⟨0, 0⟩
/-- PTP_OFS (R357). -/
def PTP_OFS : Nat := 0x40048
/-- NET_CTRL (R313). -/
def NET_CTRL : Nat := 0x80000
def NET_CTRL_ETYPE : Fld := ⟨31, 16⟩
/-- NET_ID (R313). -/
def NET_ID : Nat := 0x80004
def NET_ID_HADDR : Fld := ⟨7, 0⟩
/-- NET_CFG (R357). -/
def NET_CFG : Nat := 0x80008
def NET_CFG_FBM_N : Fld := ⟨31, 28⟩
def NET_CFG_SYNC_MUL : Fld := ⟨27, 24⟩
def NET_CFG_RESP_TO : Fld := ⟨15, 8⟩
def NET_CFG_RLOG : Fld := ⟨6, 4⟩
def NET_CFG_TB : Fld := ⟨2, 0⟩
/-- NET_STATE (R357). -/
def NET_STATE : Nat := 0x8000c
def NET_STATE_SVC_ONLY : Fld := ⟨8, 8⟩
def NET_STATE_STATE1 : Fld := ⟨7, 4⟩
def NET_STATE_STATE0 : Fld := ⟨3, 0⟩
/-- NET_CMD (R357). -/
def NET_CMD : Nat := 0x80010
def NET_CMD_SWITCH : Fld := ⟨8, 8⟩
def NET_CMD_REDISC : Fld := ⟨2, 2⟩
def NET_CMD_START1 : Fld := ⟨1, 1⟩
def NET_CMD_START0 : Fld := ⟨0, 0⟩
/-- NET_SGEN (R357). -/
def NET_SGEN : Nat := 0x80014
def NET_SGEN_NEXT : Fld := ⟨31, 16⟩
def NET_SGEN_ACTIVE : Fld := ⟨15, 0⟩
/-- NET_STATUS (R357). -/
def NET_STATUS : Nat := 0x80018
def NET_STATUS_ADOPT : Fld := ⟨7, 7⟩
def NET_STATUS_ALIEN : Fld := ⟨6, 6⟩
def NET_STATUS_LOST : Fld := ⟨5, 5⟩
def NET_STATUS_POLLTO : Fld := ⟨4, 4⟩
def NET_STATUS_SLOTOUT : Fld := ⟨3, 3⟩
def NET_STATUS_SLOTWARN : Fld := ⟨2, 2⟩
def NET_STATUS_SYNC_LATE : Fld := ⟨1, 1⟩
/-- PORT_CTRL (R313). -/
def PORT_CTRL (i : Nat) : Nat := 0x80100 + 0x40 * (i % 5)
def PORT_CTRL_MAXVER : Fld := ⟨5, 4⟩
def PORT_CTRL_EN : Fld := ⟨0, 0⟩
/-- PORT_STATUS (R313). -/
def PORT_STATUS (i : Nat) : Nat := 0x80104 + 0x40 * (i % 5)
def PORT_STATUS_STATE : Fld := ⟨15, 12⟩
def PORT_STATUS_VER : Fld := ⟨9, 8⟩
def PORT_STATUS_COMPACT : Fld := ⟨7, 7⟩
def PORT_STATUS_PMAXVER : Fld := ⟨5, 4⟩
def PORT_STATUS_FALLBACK : Fld := ⟨3, 3⟩
def PORT_STATUS_LINKDROP : Fld := ⟨2, 2⟩
def PORT_STATUS_CODEERR : Fld := ⟨1, 1⟩
/-- PORT_PARTNER (R313). -/
def PORT_PARTNER (i : Nat) : Nat := 0x80108 + 0x40 * (i % 5)
/-- PORT_CMD (R313). -/
def PORT_CMD (i : Nat) : Nat := 0x8010c + 0x40 * (i % 5)
def PORT_CMD_RETRY : Fld := ⟨0, 0⟩
/-- FIRST (R313). -/
def FIRST (i : Nat) : Nat := 0x80110 + 0x40 * (i % 5)
/-- LATER (R313). -/
def LATER (i : Nat) : Nat := 0x80114 + 0x40 * (i % 5)
/-- MISMATCH_CNT (R313). -/
def MISMATCH_CNT (i : Nat) : Nat := 0x80118 + 0x40 * (i % 5)
/-- RX_CRC (R313). -/
def RX_CRC (i : Nat) : Nat := 0x8011c + 0x40 * (i % 5)
/-- RX_LEN (R313). -/
def RX_LEN (i : Nat) : Nat := 0x80120 + 0x40 * (i % 5)
/-- RX_UNK (R313). -/
def RX_UNK (i : Nat) : Nat := 0x80124 + 0x40 * (i % 5)
/-- CODE_VIOL (R313). -/
def CODE_VIOL (i : Nat) : Nat := 0x80128 + 0x40 * (i % 5)
/-- TX_FRAMES (R313). -/
def TX_FRAMES (i : Nat) : Nat := 0x8012c + 0x40 * (i % 5)
/-- DROPS (R313). -/
def DROPS (i : Nat) : Nat := 0x80130 + 0x40 * (i % 5)
/-- PORT_DELAY (R357). -/
def PORT_DELAY (i : Nat) : Nat := 0x80300 + 0x4 * (i % 4)
/-- NODE_CH (R313). -/
def NODE_CH (i : Nat) : Nat := 0x81000 + 0x4 * (i % 128)
def NODE_CH_A_MISS : Fld := ⟨31, 16⟩
def NODE_CH_B_MISS : Fld := ⟨15, 0⟩
/-- NODE_INFO (R357). -/
def NODE_INFO (i : Nat) : Nat := 0x81200 + 0x4 * (i % 128)
def NODE_INFO_POS : Fld := ⟨31, 24⟩
def NODE_INFO_SEG : Fld := ⟨23, 23⟩
def NODE_INFO_STATE : Fld := ⟨18, 16⟩
def NODE_INFO_NTYPE : Fld := ⟨15, 0⟩
/-- NODE_SLOT (R357). -/
def NODE_SLOT (i : Nat) : Nat := 0x81400 + 0x4 * (i % 128)
def NODE_SLOT_DEV_MAX : Fld := ⟨31, 16⟩
def NODE_SLOT_DEV_LAST : Fld := ⟨15, 0⟩
/-- NODE_CNT (R357). -/
def NODE_CNT (i : Nat) : Nat := 0x81600 + 0x4 * (i % 128)
def NODE_CNT_POLL_TO : Fld := ⟨31, 24⟩
def NODE_CNT_OUT : Fld := ⟨23, 12⟩
def NODE_CNT_WARN : Fld := ⟨11, 0⟩
/-- SCHED_TABLE (R317). -/
def SCHED_TABLE (i j : Nat) : Nat := 0x84000 + 0x4000 * (i % 2) + 0x4 * (j % 4096)
/-- POLL_TABLE (R325). -/
def POLL_TABLE (i j : Nat) : Nat := 0x8c000 + 0x400 * (i % 2) + 0x4 * (j % 256)
def POLL_TABLE_VALID : Fld := ⟨31, 31⟩
def POLL_TABLE_NODE : Fld := ⟨23, 16⟩
def POLL_TABLE_GRANT : Fld := ⟨10, 0⟩
/-- LAW_TILE (R97). -/
def LAW_TILE (i j : Nat) : Nat := 0x100000 + 0x200 * (i % 256) + 0x4 * (j % 64)
/-- STATE_TILE (R101). -/
def STATE_TILE (i j : Nat) : Nat := 0x100100 + 0x200 * (i % 256) + 0x4 * (j % 64)
/-- AX_CTRL (R130). -/
def AX_CTRL (i : Nat) : Nat := 0x120000 + 0x20 * (i % 256)
def AX_CTRL_SAT_LIM : Fld := ⟨23, 16⟩
def AX_CTRL_HOLD_N : Fld := ⟨7, 4⟩
def AX_CTRL_MODE : Fld := ⟨1, 0⟩
/-- AX_STATUS (R130). -/
def AX_STATUS (i : Nat) : Nat := 0x120004 + 0x20 * (i % 256)
def AX_STATUS_FAULT : Fld := ⟨31, 24⟩
def AX_STATUS_REACT : Fld := ⟨23, 21⟩
def AX_STATUS_REBUILT : Fld := ⟨20, 20⟩
def AX_STATUS_SRC : Fld := ⟨19, 17⟩
def AX_STATUS_INIT : Fld := ⟨16, 16⟩
def AX_STATUS_WARM : Fld := ⟨15, 15⟩
def AX_STATUS_BUMP : Fld := ⟨14, 14⟩
def AX_STATUS_SAT_EP : Fld := ⟨11, 11⟩
def AX_STATUS_SAT_P : Fld := ⟨10, 10⟩
def AX_STATUS_SAT_V : Fld := ⟨9, 9⟩
def AX_STATUS_SAT_I : Fld := ⟨8, 8⟩
def AX_STATUS_FE : Fld := ⟨7, 7⟩
/-- AX_FAULT (R130). -/
def AX_FAULT (i : Nat) : Nat := 0x120008 + 0x20 * (i % 256)
def AX_FAULT_LAST : Fld := ⟨31, 24⟩
def AX_FAULT_COUNT : Fld := ⟨23, 16⟩
def AX_FAULT_SEEN : Fld := ⟨9, 0⟩
/-- AX_FREACT (R130). -/
def AX_FREACT (i : Nat) : Nat := 0x12000c + 0x20 * (i % 256)
def AX_FREACT_R_STATE : Fld := ⟨14, 12⟩
def AX_FREACT_R_POWER : Fld := ⟨11, 9⟩
def AX_FREACT_R_CTRL : Fld := ⟨8, 6⟩
def AX_FREACT_R_FB : Fld := ⟨5, 3⟩
/-- AX_MAN_OUT (R130). -/
def AX_MAN_OUT (i : Nat) : Nat := 0x120010 + 0x20 * (i % 256)
/-- AX_FE_LIM (R130). -/
def AX_FE_LIM (i : Nat) : Nat := 0x120014 + 0x20 * (i % 256)
/-- AX_SAT_CNT (R130). -/
def AX_SAT_CNT (i : Nat) : Nat := 0x120018 + 0x20 * (i % 256)
def AX_SAT_CNT_V : Fld := ⟨31, 16⟩
def AX_SAT_CNT_P : Fld := ⟨15, 0⟩
/-- AX_CMD (R130). -/
def AX_CMD (i : Nat) : Nat := 0x12001c + 0x20 * (i % 256)
def AX_CMD_SNAP : Fld := ⟨3, 3⟩
def AX_CMD_SR : Fld := ⟨2, 2⟩
def AX_CMD_RST : Fld := ⟨1, 1⟩
def AX_CMD_FCLR : Fld := ⟨0, 0⟩
/-- LAW_TUB (R130). -/
def LAW_TUB (i : Nat) : Nat := 0x122000 + 0x4 * (i % 64)
/-- LAW_TUB_CMD (R130). -/
def LAW_TUB_CMD : Nat := 0x122100
def LAW_TUB_CMD_GO : Fld := ⟨31, 31⟩
def LAW_TUB_CMD_BL : Fld := ⟨8, 8⟩
def LAW_TUB_CMD_AXIS : Fld := ⟨7, 0⟩
/-- LAW_TUB_STATUS (R130). -/
def LAW_TUB_STATUS : Nat := 0x122104
def LAW_TUB_STATUS_BUSY : Fld := ⟨31, 31⟩
def LAW_TUB_STATUS_RESULT : Fld := ⟨2, 0⟩
/-- LAW_SNAP_STATUS (R130). -/
def LAW_SNAP_STATUS : Nat := 0x122108
def LAW_SNAP_STATUS_DONE : Fld := ⟨31, 31⟩
def LAW_SNAP_STATUS_AXIS : Fld := ⟨7, 0⟩
/-- LAW_LIB_ID (R130). -/
def LAW_LIB_ID : Nat := 0x12210c
/-- LAW_SNAP_LAW (R130). -/
def LAW_SNAP_LAW (i : Nat) : Nat := 0x122200 + 0x4 * (i % 64)
/-- LAW_SNAP_STATE (R130). -/
def LAW_SNAP_STATE (i : Nat) : Nat := 0x122300 + 0x4 * (i % 64)
/-- PF_CTRL (R188). -/
def PF_CTRL (i : Nat) : Nat := 0x200000 + 0x100 * (i % 256)
def PF_CTRL_SH_SCALE : Fld := ⟨31, 24⟩
def PF_CTRL_GROUP : Fld := ⟨19, 16⟩
def PF_CTRL_MASTER_AX : Fld := ⟨15, 8⟩
def PF_CTRL_LIM_EN : Fld := ⟨2, 2⟩
def PF_CTRL_GM_SRC : Fld := ⟨1, 1⟩
/-- PF_STATUS (R188). -/
def PF_STATUS (i : Nat) : Nat := 0x200004 + 0x100 * (i % 256)
def PF_STATUS_MODE : Fld := ⟨31, 28⟩
def PF_STATUS_EVT : Fld := ⟨27, 24⟩
def PF_STATUS_POS_VALID : Fld := ⟨20, 20⟩
def PF_STATUS_REVQ : Fld := ⟨19, 19⟩
def PF_STATUS_QDEPTH : Fld := ⟨18, 16⟩
def PF_STATUS_LIMITED : Fld := ⟨15, 15⟩
def PF_STATUS_DEFER : Fld := ⟨14, 14⟩
def PF_STATUS_VLIM_HIT : Fld := ⟨13, 13⟩
def PF_STATUS_MHOLD : Fld := ⟨12, 12⟩
def PF_STATUS_CTILE : Fld := ⟨11, 11⟩
def PF_STATUS_CAM_END : Fld := ⟨10, 10⟩
def PF_STATUS_SH_ACT : Fld := ⟨9, 9⟩
def PF_STATUS_SUSPECT : Fld := ⟨8, 8⟩
/-- PF_V_LIM (R188). -/
def PF_V_LIM (i j : Nat) : Nat := 0x200008 + 0x100 * (i % 256) + 0x4 * (j % 2)
/-- PF_A_LIM (R188). -/
def PF_A_LIM (i j : Nat) : Nat := 0x200010 + 0x100 * (i % 256) + 0x4 * (j % 2)
/-- PF_D_LIM (R188). -/
def PF_D_LIM (i j : Nat) : Nat := 0x200018 + 0x100 * (i % 256) + 0x4 * (j % 2)
/-- PF_J_LIM (R188). -/
def PF_J_LIM (i j : Nat) : Nat := 0x200020 + 0x100 * (i % 256) + 0x4 * (j % 2)
/-- PF_QS_DEC (R188). -/
def PF_QS_DEC (i j : Nat) : Nat := 0x200028 + 0x100 * (i % 256) + 0x4 * (j % 2)
/-- PF_MIN (R188). -/
def PF_MIN (i j : Nat) : Nat := 0x200030 + 0x100 * (i % 256) + 0x4 * (j % 2)
/-- PF_MAX (R188). -/
def PF_MAX (i j : Nat) : Nat := 0x200038 + 0x100 * (i % 256) + 0x4 * (j % 2)
/-- PF_MV_TGT (R188). -/
def PF_MV_TGT (i j : Nat) : Nat := 0x200040 + 0x100 * (i % 256) + 0x4 * (j % 2)
/-- PF_MV_CMD (R188). -/
def PF_MV_CMD (i : Nat) : Nat := 0x200048 + 0x100 * (i % 256)
def PF_MV_CMD_OP : Fld := ⟨31, 30⟩
/-- PF_RESULT (R188). -/
def PF_RESULT (i : Nat) : Nat := 0x20004c + 0x100 * (i % 256)
def PF_RESULT_DONE : Fld := ⟨31, 31⟩
def PF_RESULT_CODE : Fld := ⟨3, 0⟩
/-- PF_STOP_POS (R188). -/
def PF_STOP_POS (i j : Nat) : Nat := 0x200050 + 0x100 * (i % 256) + 0x4 * (j % 2)
/-- PF_POS (R188). -/
def PF_POS (i j : Nat) : Nat := 0x200058 + 0x100 * (i % 256) + 0x4 * (j % 2)
/-- PF_VEL (R188). -/
def PF_VEL (i j : Nat) : Nat := 0x200060 + 0x100 * (i % 256) + 0x4 * (j % 2)
/-- PF_GEAR_NUM (R188). -/
def PF_GEAR_NUM (i : Nat) : Nat := 0x200068 + 0x100 * (i % 256)
/-- PF_GEAR_DEN (R188). -/
def PF_GEAR_DEN (i : Nat) : Nat := 0x20006c + 0x100 * (i % 256)
/-- PF_CAM (R188). -/
def PF_CAM (i : Nat) : Nat := 0x200070 + 0x100 * (i % 256)
def PF_CAM_CAM_ID : Fld := ⟨7, 0⟩
/-- PF_CAM_PHASE (R188). -/
def PF_CAM_PHASE (i : Nat) : Nat := 0x200074 + 0x100 * (i % 256)
/-- PF_SH (R188). -/
def PF_SH (i j : Nat) : Nat := 0x200078 + 0x100 * (i % 256) + 0x4 * (j % 2)
/-- PF_HOME_CFG (R188). -/
def PF_HOME_CFG (i : Nat) : Nat := 0x200080 + 0x100 * (i % 256)
def PF_HOME_CFG_METHOD : Fld := ⟨31, 28⟩
def PF_HOME_CFG_DIR : Fld := ⟨27, 27⟩
def PF_HOME_CFG_IDX : Fld := ⟨26, 26⟩
def PF_HOME_CFG_STRICT : Fld := ⟨25, 25⟩
def PF_HOME_CFG_HOME_CHAT : Fld := ⟨23, 16⟩
def PF_HOME_CFG_DEB : Fld := ⟨6, 0⟩
/-- PF_SW_SRC (R188). -/
def PF_SW_SRC (i : Nat) : Nat := 0x200084 + 0x100 * (i % 256)
def PF_SW_SRC_HOME_SRC : Fld := ⟨31, 24⟩
def PF_SW_SRC_PLIM_SRC : Fld := ⟨23, 16⟩
def PF_SW_SRC_NLIM_SRC : Fld := ⟨15, 8⟩
def PF_SW_SRC_HPOL : Fld := ⟨7, 7⟩
def PF_SW_SRC_PPOL : Fld := ⟨6, 6⟩
def PF_SW_SRC_NPOL : Fld := ⟨5, 5⟩
/-- PF_HOME_POS (R188). -/
def PF_HOME_POS (i j : Nat) : Nat := 0x200088 + 0x100 * (i % 256) + 0x4 * (j % 2)
/-- PF_HOME_VFAST (R188). -/
def PF_HOME_VFAST (i j : Nat) : Nat := 0x200090 + 0x100 * (i % 256) + 0x4 * (j % 2)
/-- PF_HOME_VSLOW (R188). -/
def PF_HOME_VSLOW (i j : Nat) : Nat := 0x200098 + 0x100 * (i % 256) + 0x4 * (j % 2)
/-- PF_HOME_SPAN (R188). -/
def PF_HOME_SPAN (i j : Nat) : Nat := 0x2000a0 + 0x100 * (i % 256) + 0x4 * (j % 2)
/-- PF_HOME_STATUS (R188). -/
def PF_HOME_STATUS (i : Nat) : Nat := 0x2000a8 + 0x100 * (i % 256)
def PF_HOME_STATUS_STATE : Fld := ⟨31, 28⟩
def PF_HOME_STATUS_CAUSE : Fld := ⟨27, 24⟩
def PF_HOME_STATUS_EDGES : Fld := ⟨23, 16⟩
def PF_HOME_STATUS_HOMED : Fld := ⟨0, 0⟩
/-- PF_CMD (R188). -/
def PF_CMD (i : Nat) : Nat := 0x2000ac + 0x100 * (i % 256)
def PF_CMD_OP : Fld := ⟨31, 28⟩
def PF_CMD_REL : Fld := ⟨1, 1⟩
def PF_CMD_FLUSH : Fld := ⟨0, 0⟩
/-- CAM_INFO (R188). -/
def CAM_INFO (i : Nat) : Nat := 0x210000 + 0x10 * (i % 256)
def CAM_INFO_VALID : Fld := ⟨31, 31⟩
def CAM_INFO_CYCLIC : Fld := ⟨30, 30⟩
def CAM_INFO_RECIPE : Fld := ⟨29, 27⟩
def CAM_INFO_POINTS_M1 : Fld := ⟨24, 11⟩
def CAM_INFO_FIRST : Fld := ⟨10, 0⟩
/-- CAM_STROKE_LO (R188). -/
def CAM_STROKE_LO (i : Nat) : Nat := 0x210004 + 0x10 * (i % 256)
/-- CAM_STROKE_HI (R188). -/
def CAM_STROKE_HI (i : Nat) : Nat := 0x210008 + 0x10 * (i % 256)
/-- TILE_CRC (R188). -/
def TILE_CRC (i : Nat) : Nat := 0x211000 + 0x8 * (i % 1536)
/-- TILE_INFO (R188). -/
def TILE_INFO (i : Nat) : Nat := 0x211004 + 0x8 * (i % 1536)
def TILE_INFO_USED : Fld := ⟨31, 31⟩
def TILE_INFO_STAGED : Fld := ⟨30, 30⟩
def TILE_INFO_CAM : Fld := ⟨28, 21⟩
def TILE_INFO_NEXT : Fld := ⟨20, 10⟩
def TILE_INFO_POINTS : Fld := ⟨8, 0⟩
/-- CO_CYCLE (R188). -/
def CO_CYCLE (i : Nat) : Nat := 0x214000 + 0x20 * (i % 16)
/-- CO_ANGLE (R188). -/
def CO_ANGLE (i : Nat) : Nat := 0x214004 + 0x20 * (i % 16)
/-- CO_LEN (R188). -/
def CO_LEN (i : Nat) : Nat := 0x214008 + 0x20 * (i % 16)
/-- CO_CTRL (R188). -/
def CO_CTRL (i : Nat) : Nat := 0x21400c + 0x20 * (i % 16)
def CO_CTRL_OP : Fld := ⟨31, 30⟩
def CO_CTRL_RECIPE : Fld := ⟨6, 4⟩
def CO_CTRL_LIST : Fld := ⟨1, 0⟩
/-- CO_STATUS (R188). -/
def CO_STATUS (i : Nat) : Nat := 0x214010 + 0x20 * (i % 16)
def CO_STATUS_STATE : Fld := ⟨31, 28⟩
def CO_STATUS_RESULT : Fld := ⟨27, 24⟩
def CO_STATUS_ACTIVE : Fld := ⟨23, 21⟩
/-- CO_GEN (R188). -/
def CO_GEN : Nat := 0x214200
def CO_GEN_GEN : Fld := ⟨15, 0⟩
/-- BR_CTRL (R285). -/
def BR_CTRL (i : Nat) : Nat := 0x300000 + 0x100 * (i % 8)
def BR_CTRL_ZONE : Fld := ⟨31, 28⟩
def BR_CTRL_SDIV : Fld := ⟨21, 16⟩
def BR_CTRL_LAW : Fld := ⟨4, 4⟩
def BR_CTRL_CMODE : Fld := ⟨3, 3⟩
def BR_CTRL_SYNC_EN : Fld := ⟨2, 2⟩
def BR_CTRL_EN : Fld := ⟨0, 0⟩
/-- BR_PERIOD (R285). -/
def BR_PERIOD (i : Nat) : Nat := 0x300004 + 0x100 * (i % 8)
def BR_PERIOD_ACTIVE : Fld := ⟨31, 16⟩
def BR_PERIOD_PERIOD : Fld := ⟨15, 0⟩
/-- BR_SYNC_OFS (R285). -/
def BR_SYNC_OFS (i : Nat) : Nat := 0x300008 + 0x100 * (i % 8)
def BR_SYNC_OFS_SYNC_OFS : Fld := ⟨15, 0⟩
/-- BR_CMD (R285). -/
def BR_CMD (i : Nat) : Nat := 0x30000c + 0x100 * (i % 8)
def BR_CMD_COMMIT : Fld := ⟨0, 0⟩
/-- BR_STATUS (R285). -/
def BR_STATUS (i : Nat) : Nat := 0x300010 + 0x100 * (i % 8)
def BR_STATUS_COUNT : Fld := ⟨31, 16⟩
def BR_STATUS_FROZEN : Fld := ⟨7, 7⟩
def BR_STATUS_FORCED : Fld := ⟨6, 6⟩
def BR_STATUS_SYNC_CUT : Fld := ⟨3, 3⟩
def BR_STATUS_PEND : Fld := ⟨2, 2⟩
def BR_STATUS_RUN : Fld := ⟨0, 0⟩
/-- BR_SMP (R285). -/
def BR_SMP (i : Nat) : Nat := 0x300014 + 0x100 * (i % 8)
def BR_SMP_SMP : Fld := ⟨15, 0⟩
/-- BR_RISE (R285). -/
def BR_RISE (i j : Nat) : Nat := 0x300020 + 0x100 * (i % 8) + 0x10 * (j % 3)
def BR_RISE_RISE : Fld := ⟨21, 0⟩
/-- BR_FALL (R285). -/
def BR_FALL (i j : Nat) : Nat := 0x300024 + 0x100 * (i % 8) + 0x10 * (j % 3)
def BR_FALL_FALL : Fld := ⟨21, 0⟩
/-- BR_DT (R285). -/
def BR_DT (i j : Nat) : Nat := 0x300028 + 0x100 * (i % 8) + 0x10 * (j % 3)
def BR_DT_DT : Fld := ⟨13, 0⟩
/-- BR_CH (R285). -/
def BR_CH (i j : Nat) : Nat := 0x30002c + 0x100 * (i % 8) + 0x10 * (j % 3)
def BR_CH_HC : Fld := ⟨9, 9⟩
def BR_CH_ACT : Fld := ⟨8, 8⟩
def BR_CH_HONLY : Fld := ⟨2, 2⟩
def BR_CH_OFF : Fld := ⟨1, 1⟩
/-- SW_CTRL (R285). -/
def SW_CTRL (i : Nat) : Nat := 0x301000 + 0x4 * (i % 256)
def SW_CTRL_SW_ACT : Fld := ⟨31, 31⟩
def SW_CTRL_LEVEL : Fld := ⟨24, 16⟩
def SW_CTRL_EN : Fld := ⟨12, 12⟩
def SW_CTRL_DELAY : Fld := ⟨9, 0⟩
/-- TO_CFG (R285). -/
def TO_CFG (i : Nat) : Nat := 0x310000 + 0x100 * (i % 32)
def TO_CFG_ZONE : Fld := ⟨31, 28⟩
def TO_CFG_MODE : Fld := ⟨3, 2⟩
def TO_CFG_POL : Fld := ⟨0, 0⟩
/-- TO_PEN (R285). -/
def TO_PEN (i : Nat) : Nat := 0x310004 + 0x100 * (i % 32)
def TO_PEN_PEN : Fld := ⟨15, 0⟩
/-- TO_ADV (R285). -/
def TO_ADV (i : Nat) : Nat := 0x310008 + 0x100 * (i % 32)
def TO_ADV_ADV_OFF : Fld := ⟨31, 16⟩
def TO_ADV_ADV_ON : Fld := ⟨15, 0⟩
/-- TO_CMD (R285). -/
def TO_CMD (i : Nat) : Nat := 0x31000c + 0x100 * (i % 32)
def TO_CMD_APPLY : Fld := ⟨0, 0⟩
/-- TO_STATUS (R285). -/
def TO_STATUS (i : Nat) : Nat := 0x310010 + 0x100 * (i % 32)
def TO_STATUS_REFUSED : Fld := ⟨8, 8⟩
def TO_STATUS_LVL : Fld := ⟨7, 7⟩
def TO_STATUS_FORCED : Fld := ⟨6, 6⟩
def TO_STATUS_APPLY_PEND : Fld := ⟨5, 5⟩
def TO_STATUS_LATE : Fld := ⟨4, 4⟩
def TO_STATUS_STEPLAG : Fld := ⟨3, 3⟩
/-- TO_STEP (R285). -/
def TO_STEP (i : Nat) : Nat := 0x310014 + 0x100 * (i % 32)
def TO_STEP_AXIS : Fld := ⟨31, 24⟩
def TO_STEP_STEP_W : Fld := ⟨15, 8⟩
def TO_STEP_DIR_SU : Fld := ⟨7, 0⟩
/-- TO_ON (R285). -/
def TO_ON (i j : Nat) : Nat := 0x310040 + 0x100 * (i % 32) + 0x8 * (j % 16)
/-- TO_OFF (R285). -/
def TO_OFF (i j : Nat) : Nat := 0x310044 + 0x100 * (i % 32) + 0x8 * (j % 16)
/-- TO_GCTRL (R285). -/
def TO_GCTRL : Nat := 0x312000
def TO_GCTRL_TLIST : Fld := ⟨5, 4⟩
def TO_GCTRL_ALIST : Fld := ⟨1, 0⟩
/-- ENC_CTRL (R285). -/
def ENC_CTRL (i : Nat) : Nat := 0x320000 + 0x40 * (i % 4)
def ENC_CTRL_SSI_BITS : Fld := ⟨31, 24⟩
def ENC_CTRL_GRAY : Fld := ⟨23, 23⟩
def ENC_CTRL_ERRB : Fld := ⟨22, 22⟩
def ENC_CTRL_FILT : Fld := ⟨19, 16⟩
def ENC_CTRL_ZGATE : Fld := ⟨3, 3⟩
def ENC_CTRL_DIR : Fld := ⟨2, 2⟩
def ENC_CTRL_MODE : Fld := ⟨1, 0⟩
/-- ENC_SSIDIV (R285). -/
def ENC_SSIDIV (i : Nat) : Nat := 0x320004 + 0x40 * (i % 4)
def ENC_SSIDIV_DIV : Fld := ⟨11, 0⟩
/-- ENC_COUNT (R285). -/
def ENC_COUNT (i : Nat) : Nat := 0x320008 + 0x40 * (i % 4)
/-- ENC_INDEX (R285). -/
def ENC_INDEX (i : Nat) : Nat := 0x32000c + 0x40 * (i % 4)
/-- ENC_STATUS (R285). -/
def ENC_STATUS (i : Nat) : Nat := 0x320010 + 0x40 * (i % 4)
def ENC_STATUS_VALID : Fld := ⟨4, 4⟩
def ENC_STATUS_IDX : Fld := ⟨3, 3⟩
def ENC_STATUS_SSIERR : Fld := ⟨2, 2⟩
def ENC_STATUS_QERR : Fld := ⟨1, 1⟩
def ENC_STATUS_FLT : Fld := ⟨0, 0⟩
/-- SD_CLK (R285). -/
def SD_CLK : Nat := 0x320400
def SD_CLK_CKEN1 : Fld := ⟨31, 31⟩
def SD_CLK_DIV1 : Fld := ⟨30, 24⟩
def SD_CLK_CKEN0 : Fld := ⟨15, 15⟩
def SD_CLK_DIV0 : Fld := ⟨14, 8⟩
/-- SD_CTRL (R285). -/
def SD_CTRL (i : Nat) : Nat := 0x320500 + 0x10 * (i % 16)
def SD_CTRL_DLY : Fld := ⟨10, 8⟩
def SD_CTRL_OSR : Fld := ⟨6, 4⟩
def SD_CTRL_CKSEL : Fld := ⟨1, 1⟩
def SD_CTRL_EN : Fld := ⟨0, 0⟩
/-- SD_DATA (R285). -/
def SD_DATA (i : Nat) : Nat := 0x320504 + 0x10 * (i % 16)
/-- SD_STATUS (R285). -/
def SD_STATUS (i : Nat) : Nat := 0x320508 + 0x10 * (i % 16)
def SD_STATUS_FLT : Fld := ⟨1, 1⟩
def SD_STATUS_SDFLT : Fld := ⟨0, 0⟩
/-- PMEM (R190). -/
def PMEM (i j : Nat) : Nat := 0x400000 + 0x8000 * (i % 32) + 0x4 * (j % 4096)
/-- XMEM (R190). -/
def XMEM (i j : Nat) : Nat := 0x404000 + 0x8000 * (i % 32) + 0x4 * (j % 1024)
/-- YMEM (R190). -/
def YMEM (i j : Nat) : Nat := 0x405000 + 0x8000 * (i % 32) + 0x4 * (j % 1024)
/-- LANE_CTRL (R222). -/
def LANE_CTRL (i : Nat) : Nat := 0x407000 + 0x8000 * (i % 32)
def LANE_CTRL_LAGOON : Fld := ⟨0, 0⟩
/-- LANE_STATUS (R222). -/
def LANE_STATUS (i : Nat) : Nat := 0x407004 + 0x8000 * (i % 32)
def LANE_STATUS_JOINED : Fld := ⟨15, 15⟩
def LANE_STATUS_BUSY : Fld := ⟨14, 14⟩
def LANE_STATUS_TASK : Fld := ⟨7, 0⟩
/-- LANE_FLAGS (R222). -/
def LANE_FLAGS (i : Nat) : Nat := 0x407008 + 0x8000 * (i % 32)
def LANE_FLAGS_FAULT : Fld := ⟨4, 4⟩
def LANE_FLAGS_RCLAMP : Fld := ⟨3, 3⟩
def LANE_FLAGS_CIRC_RELOC : Fld := ⟨2, 2⟩
def LANE_FLAGS_G : Fld := ⟨1, 1⟩
def LANE_FLAGS_V40 : Fld := ⟨0, 0⟩
/-- LANE_FAULT (R222). -/
def LANE_FAULT (i : Nat) : Nat := 0x40700c + 0x8000 * (i % 32)
def LANE_FAULT_CAUSE : Fld := ⟨31, 28⟩
def LANE_FAULT_TASK : Fld := ⟨23, 16⟩
def LANE_FAULT_PC : Fld := ⟨12, 0⟩
/-- LT_DESC_A (R249). -/
def LT_DESC_A (i j : Nat) : Nat := 0x407040 + 0x8000 * (i % 32) + 0x8 * (j % 8)
def LT_DESC_A_TASK : Fld := ⟨31, 24⟩
def LT_DESC_A_VALID : Fld := ⟨23, 23⟩
def LT_DESC_A_MN64 : Fld := ⟨22, 22⟩
def LT_DESC_A_HIGH : Fld := ⟨21, 21⟩
def LT_DESC_A_SATM0 : Fld := ⟨20, 20⟩
def LT_DESC_A_FRAC0 : Fld := ⟨19, 19⟩
def LT_DESC_A_AXREL : Fld := ⟨18, 18⟩
def LT_DESC_A_ENTRY : Fld := ⟨12, 0⟩
/-- LT_DESC_B (R249). -/
def LT_DESC_B (i j : Nat) : Nat := 0x407044 + 0x8000 * (i % 32) + 0x8 * (j % 8)
def LT_DESC_B_AXIS : Fld := ⟨31, 24⟩
def LT_DESC_B_AXV : Fld := ⟨23, 23⟩
def LT_DESC_B_CAPT : Fld := ⟨19, 16⟩
def LT_DESC_B_CAPV : Fld := ⟨15, 15⟩
/-- LT_STAT (R249). -/
def LT_STAT (i j : Nat) : Nat := 0x407080 + 0x8000 * (i % 32) + 0x4 * (j % 8)
def LT_STAT_PENDING : Fld := ⟨31, 31⟩
def LT_STAT_RUN : Fld := ⟨30, 30⟩
def LT_STAT_SUSP : Fld := ⟨29, 29⟩
def LT_STAT_FAILED : Fld := ⟨28, 28⟩
def LT_STAT_UNBOUNDED : Fld := ⟨27, 27⟩
def LT_STAT_CAPOVF : Fld := ⟨26, 26⟩
def LT_STAT_LOVR : Fld := ⟨25, 25⟩
def LT_STAT_OVR_CNT : Fld := ⟨23, 16⟩
def LT_STAT_SPAN : Fld := ⟨15, 0⟩
/-- HOLDOFF_MAX (R249). -/
def HOLDOFF_MAX (i : Nat) : Nat := 0x4070a0 + 0x8000 * (i % 32)
def HOLDOFF_MAX_BOUND : Fld := ⟨7, 0⟩
/-- LANE_PRE (R249). -/
def LANE_PRE (i : Nat) : Nat := 0x4070a4 + 0x8000 * (i % 32)
def LANE_PRE_HOLDOFF : Fld := ⟨31, 16⟩
def LANE_PRE_SUSP : Fld := ⟨15, 0⟩
/-- LT_CMD (R249). -/
def LT_CMD (i : Nat) : Nat := 0x4070a8 + 0x8000 * (i % 32)
def LT_CMD_REARM : Fld := ⟨31, 31⟩
def LT_CMD_SLOT : Fld := ⟨2, 0⟩
/-- LANE_MBOX (R249). -/
def LANE_MBOX (i j : Nat) : Nat := 0x4070c0 + 0x8000 * (i % 32) + 0x4 * (j % 8)
def LANE_MBOX_WORD : Fld := ⟨15, 0⟩
/-- LANE_PARAM (R249). -/
def LANE_PARAM (i j : Nat) : Nat := 0x4070e0 + 0x8000 * (i % 32) + 0x4 * (j % 8)
def LANE_PARAM_WORD : Fld := ⟨15, 0⟩
/-- SNAP_PC (R222). -/
def SNAP_PC (i : Nat) : Nat := 0x407100 + 0x8000 * (i % 32)
def SNAP_PC_PC : Fld := ⟨28, 16⟩
def SNAP_PC_LSTAT : Fld := ⟨15, 0⟩
/-- SNAP_D (R222). -/
def SNAP_D (i j : Nat) : Nat := 0x407104 + 0x8000 * (i % 32) + 0x4 * (j % 4)
/-- SNAP_A (R222). -/
def SNAP_A (i j : Nat) : Nat := 0x407114 + 0x8000 * (i % 32) + 0x4 * (j % 2)
def SNAP_A_HI : Fld := ⟨27, 16⟩
def SNAP_A_LO : Fld := ⟨11, 0⟩
/-- SNAP_M (R222). -/
def SNAP_M (i j : Nat) : Nat := 0x40711c + 0x8000 * (i % 32) + 0x4 * (j % 2)
def SNAP_M_HI : Fld := ⟨27, 16⟩
def SNAP_M_LO : Fld := ⟨11, 0⟩
/-- SNAP_B (R222). -/
def SNAP_B (i j : Nat) : Nat := 0x407124 + 0x8000 * (i % 32) + 0x4 * (j % 2)
def SNAP_B_HI : Fld := ⟨27, 16⟩
def SNAP_B_LO : Fld := ⟨11, 0⟩
/-- SNAP_L (R222). -/
def SNAP_L (i j : Nat) : Nat := 0x40712c + 0x8000 * (i % 32) + 0x4 * (j % 2)
def SNAP_L_HI : Fld := ⟨27, 16⟩
def SNAP_L_LO : Fld := ⟨11, 0⟩
/-- SNAP_ACC_LO (R222). -/
def SNAP_ACC_LO (i : Nat) : Nat := 0x407134 + 0x8000 * (i % 32)
/-- SNAP_ACC_HI (R222). -/
def SNAP_ACC_HI (i : Nat) : Nat := 0x407138 + 0x8000 * (i % 32)
def SNAP_ACC_HI_HI : Fld := ⟨23, 0⟩
/-- SNAP_TR (R222). -/
def SNAP_TR (i : Nat) : Nat := 0x40713c + 0x8000 * (i % 32)
/-- PAIR_CTRL (R389). -/
def PAIR_CTRL : Nat := 0x500000
def PAIR_CTRL_LEAD_WAIT : Fld := ⟨31, 24⟩
def PAIR_CTRL_DIV_LIM : Fld := ⟨23, 16⟩
def PAIR_CTRL_MIR_TO : Fld := ⟨15, 12⟩
def PAIR_CTRL_TILE_MAX : Fld := ⟨11, 8⟩
def PAIR_CTRL_PAIR_EN : Fld := ⟨0, 0⟩
/-- PAIR_MIRSTART (R389). -/
def PAIR_MIRSTART : Nat := 0x500004
def PAIR_MIRSTART_MIR_START : Fld := ⟨17, 0⟩
/-- PAIR_STATUS (R389). -/
def PAIR_STATUS : Nat := 0x500008
def PAIR_STATUS_STATE : Fld := ⟨31, 28⟩
def PAIR_STATUS_LEAD : Fld := ⟨27, 27⟩
def PAIR_STATUS_QUIET : Fld := ⟨26, 26⟩
def PAIR_STATUS_MIR_UP : Fld := ⟨25, 25⟩
def PAIR_STATUS_STRAP : Fld := ⟨24, 24⟩
def PAIR_STATUS_KEYDIFF : Fld := ⟨11, 11⟩
def PAIR_STATUS_STRAPDUP : Fld := ⟨10, 10⟩
def PAIR_STATUS_LEAD_FLT : Fld := ⟨9, 9⟩
def PAIR_STATUS_LATE_REC : Fld := ⟨8, 8⟩
def PAIR_STATUS_MIR_DOWN : Fld := ⟨7, 7⟩
def PAIR_STATUS_SB_FAULT : Fld := ⟨6, 6⟩
def PAIR_STATUS_DIVERGE : Fld := ⟨5, 5⟩
def PAIR_STATUS_TAKE_UNVER : Fld := ⟨4, 4⟩
def PAIR_STATUS_TAKEN : Fld := ⟨3, 3⟩
def PAIR_STATUS_DROP : Fld := ⟨2, 2⟩
/-- PAIR_CMD (R389). -/
def PAIR_CMD : Nat := 0x50000c
def PAIR_CMD_SWITCHOVER : Fld := ⟨31, 31⟩
def PAIR_CMD_RESYNC : Fld := ⟨1, 1⟩
def PAIR_CMD_CLR_FAULT : Fld := ⟨0, 0⟩
/-- PAIR_CLEAN (R389). -/
def PAIR_CLEAN : Nat := 0x500010
def PAIR_CLEAN_CLEAN : Fld := ⟨15, 0⟩
/-- PAIR_CNT (R389). -/
def PAIR_CNT : Nat := 0x500014
def PAIR_CNT_DIVERGE : Fld := ⟨31, 16⟩
def PAIR_CNT_EXCUSED : Fld := ⟨15, 0⟩
/-- PAIR_DIVAX (R389). -/
def PAIR_DIVAX : Nat := 0x500018
def PAIR_DIVAX_CYC : Fld := ⟨31, 16⟩
def PAIR_DIVAX_AXIS : Fld := ⟨7, 0⟩
/-- PAIR_MSEQ (R389). -/
def PAIR_MSEQ : Nat := 0x50001c
def PAIR_MSEQ_MSEQ : Fld := ⟨15, 0⟩
/-- PAIR_RSEQ (R389). -/
def PAIR_RSEQ : Nat := 0x500020
/-- PAIR_PSERIAL (R389). -/
def PAIR_PSERIAL : Nat := 0x500024
/-- PAIR_LKEY (R389). -/
def PAIR_LKEY : Nat := 0x500028
/-- PAIR_PLKEY (R389). -/
def PAIR_PLKEY : Nat := 0x50002c
/-- PAIR_TAKE (R389). -/
def PAIR_TAKE : Nat := 0x500030
def PAIR_TAKE_COUNT : Fld := ⟨31, 16⟩
def PAIR_TAKE_CYC : Fld := ⟨15, 0⟩
/-- SAFE_STATUS (R422). -/
def SAFE_STATUS : Nat := 0x600000
def SAFE_STATUS_STATE : Fld := ⟨31, 30⟩
def SAFE_STATUS_FCAUSE : Fld := ⟨27, 24⟩
def SAFE_STATUS_FCH : Fld := ⟨23, 23⟩
def SAFE_STATUS_SESSION : Fld := ⟨22, 22⟩
def SAFE_STATUS_STAGED : Fld := ⟨21, 21⟩
def SAFE_STATUS_LOCKOUT : Fld := ⟨20, 20⟩
def SAFE_STATUS_PERMIT : Fld := ⟨15, 8⟩
def SAFE_STATUS_ZFLT : Fld := ⟨7, 0⟩
/-- SAFE_SIG (R422). -/
def SAFE_SIG : Nat := 0x600004
/-- SAFE_SIG_NEW (R422). -/
def SAFE_SIG_NEW : Nat := 0x600008
/-- SAFE_CONFIRM (R422). -/
def SAFE_CONFIRM : Nat := 0x60000c
/-- SAFE_CMD (R422). -/
def SAFE_CMD : Nat := 0x600010
def SAFE_CMD_OP : Fld := ⟨31, 30⟩
def SAFE_CMD_CLOSE : Fld := ⟨0, 0⟩
/-- SAFE_RESULT (R422). -/
def SAFE_RESULT : Nat := 0x600014
def SAFE_RESULT_DONE : Fld := ⟨31, 31⟩
def SAFE_RESULT_CODE : Fld := ⟨3, 0⟩
/-- SAFE_PWCNT (R422). -/
def SAFE_PWCNT : Nat := 0x600018
def SAFE_PWCNT_LOCK_S : Fld := ⟨31, 16⟩
def SAFE_PWCNT_FAILS : Fld := ⟨15, 0⟩
/-- SAFE_XERR (R422). -/
def SAFE_XERR : Nat := 0x60001c
def SAFE_XERR_XCRC : Fld := ⟨31, 16⟩
def SAFE_XERR_XSEQ : Fld := ⟨15, 0⟩
/-- SLOG_SEQ (R422). -/
def SLOG_SEQ : Nat := 0x600020
/-- SZ_CFG (R422). -/
def SZ_CFG (i : Nat) : Nat := 0x600100 + 0x20 * (i % 8)
def SZ_CFG_EN : Fld := ⟨31, 31⟩
def SZ_CFG_SS1 : Fld := ⟨30, 30⟩
def SZ_CFG_ARST : Fld := ⟨29, 29⟩
def SZ_CFG_EDM_EN : Fld := ⟨28, 28⟩
def SZ_CFG_TP_EN : Fld := ⟨27, 27⟩
def SZ_CFG_ACK : Fld := ⟨26, 24⟩
/-- SZ_TIME (R422). -/
def SZ_TIME (i : Nat) : Nat := 0x600104 + 0x20 * (i % 8)
def SZ_TIME_SS1_T : Fld := ⟨31, 16⟩
def SZ_TIME_EDM_WIN : Fld := ⟨15, 8⟩
/-- SZ_TP (R422). -/
def SZ_TP (i : Nat) : Nat := 0x600108 + 0x20 * (i % 8)
def SZ_TP_TP_PER : Fld := ⟨31, 16⟩
def SZ_TP_TP_W : Fld := ⟨7, 0⟩
/-- SZ_STILL (R422). -/
def SZ_STILL (i : Nat) : Nat := 0x60010c + 0x20 * (i % 8)
def SZ_STILL_SS_PTOL : Fld := ⟨15, 0⟩
/-- SZ_STATUS (R422). -/
def SZ_STATUS (i : Nat) : Nat := 0x600110 + 0x20 * (i % 8)
def SZ_STATUS_STATEA : Fld := ⟨31, 28⟩
def SZ_STATUS_STATEB : Fld := ⟨27, 24⟩
def SZ_STATUS_ZCAUSE : Fld := ⟨23, 20⟩
def SZ_STATUS_SS1END : Fld := ⟨19, 18⟩
def SZ_STATUS_LA : Fld := ⟨17, 17⟩
def SZ_STATUS_LB : Fld := ⟨16, 16⟩
def SZ_STATUS_RBA : Fld := ⟨15, 15⟩
def SZ_STATUS_RBB : Fld := ⟨14, 14⟩
def SZ_STATUS_EDM : Fld := ⟨13, 13⟩
def SZ_STATUS_ACKREJ : Fld := ⟨12, 12⟩
def SZ_STATUS_ACKSTUCK : Fld := ⟨11, 11⟩
/-- SZ_CNT (R422). -/
def SZ_CNT (i : Nat) : Nat := 0x600114 + 0x20 * (i % 8)
def SZ_CNT_DEMANDS : Fld := ⟨31, 16⟩
def SZ_CNT_ZFAULTS : Fld := ⟨15, 0⟩
/-- SI_CFG (R422). -/
def SI_CFG (i : Nat) : Nat := 0x600400 + 0x10 * (i % 16)
def SI_CFG_EN : Fld := ⟨31, 31⟩
def SI_CFG_ANTI : Fld := ⟨30, 30⟩
def SI_CFG_STEST : Fld := ⟨29, 29⟩
def SI_CFG_IFILT : Fld := ⟨27, 24⟩
def SI_CFG_ZMASK : Fld := ⟨23, 16⟩
def SI_CFG_DISC_T : Fld := ⟨12, 0⟩
/-- SI_STATUS (R422). -/
def SI_STATUS (i : Nat) : Nat := 0x600404 + 0x10 * (i % 16)
def SI_STATUS_LA : Fld := ⟨31, 31⟩
def SI_STATUS_LB : Fld := ⟨30, 30⟩
def SI_STATUS_DEMAND : Fld := ⟨29, 29⟩
def SI_STATUS_DISC : Fld := ⟨28, 28⟩
def SI_STATUS_STDONE : Fld := ⟨27, 27⟩
def SI_STATUS_DISC_LAST : Fld := ⟨15, 0⟩
/-- SZ_AX (R422). -/
def SZ_AX (i : Nat) : Nat := 0x600800 + 0x4 * (i % 256)
def SZ_AX_ZONE : Fld := ⟨3, 0⟩
/-- SLOG (R422). -/
def SLOG (i j : Nat) : Nat := 0x602000 + 0x40 * (i % 64) + 0x4 * (j % 16)
/-- HOST_CFG (R482). -/
def HOST_CFG : Nat := 0x700000
def HOST_CFG_SAFE_EN_ETH : Fld := ⟨9, 9⟩
def HOST_CFG_SAFE_EN_SPI : Fld := ⟨8, 8⟩
def HOST_CFG_ROLEMAX_ETH : Fld := ⟨7, 4⟩
def HOST_CFG_ROLEMAX_SPI : Fld := ⟨3, 0⟩
/-- HOST_STATUS (R482). -/
def HOST_STATUS : Nat := 0x700004
def HOST_STATUS_VER_ETH : Fld := ⟨23, 22⟩
def HOST_STATUS_PEER : Fld := ⟨21, 21⟩
def HOST_STATUS_SESS_ETH : Fld := ⟨20, 18⟩
def HOST_STATUS_VER_SPI : Fld := ⟨17, 16⟩
def HOST_STATUS_SESS_SPI : Fld := ⟨15, 13⟩
/-- HOST_ERR (R482). -/
def HOST_ERR : Nat := 0x700008
def HOST_ERR_FRAMING : Fld := ⟨31, 24⟩
def HOST_ERR_CRC_ERR : Fld := ⟨23, 16⟩
def HOST_ERR_BADMSG : Fld := ⟨15, 8⟩
def HOST_ERR_STALE : Fld := ⟨7, 0⟩
/-- HOST_FOREIGN (R482). -/
def HOST_FOREIGN : Nat := 0x70000c
/-- ETH_IP (R482). -/
def ETH_IP : Nat := 0x700010
/-- ETH_MASK (R482). -/
def ETH_MASK : Nat := 0x700014
/-- ETH_GW (R482). -/
def ETH_GW : Nat := 0x700018
/-- BLK_LOCK (R482). -/
def BLK_LOCK : Nat := 0x700020
def BLK_LOCK_LOCK_SESS : Fld := ⟨31, 16⟩
def BLK_LOCK_OPEN : Fld := ⟨15, 0⟩
/-- IRQ_PEND (R482). -/
def IRQ_PEND : Nat := 0x700030
def IRQ_PEND_LINES : Fld := ⟨14, 0⟩
/-- LOG_HEAD (R482). -/
def LOG_HEAD : Nat := 0x700040
/-- LOG_LOST (R482). -/
def LOG_LOST : Nat := 0x700044
/-- LOG_SEL (R482). -/
def LOG_SEL : Nat := 0x700048
/-- LOG_REC (R482). -/
def LOG_REC (i : Nat) : Nat := 0x700050 + 0x4 * (i % 10)
/-- TEST_STATUS (R482). -/
def TEST_STATUS : Nat := 0x700100
def TEST_STATUS_FTM : Fld := ⟨2, 2⟩
def TEST_STATUS_FTM_REQ : Fld := ⟨1, 1⟩
def TEST_STATUS_UNLOCKED : Fld := ⟨0, 0⟩
/-- FI_CMD (R482). -/
def FI_CMD : Nat := 0x700104
def FI_CMD_TARGET : Fld := ⟨31, 28⟩
def FI_CMD_INDEX : Fld := ⟨27, 16⟩
def FI_CMD_COUNT : Fld := ⟨15, 8⟩
def FI_CMD_GO : Fld := ⟨0, 0⟩
/-- FI_STATUS (R482). -/
def FI_STATUS : Nat := 0x700108
def FI_STATUS_ARMED : Fld := ⟨0, 0⟩
/-- DIAG_STATUS (R482). -/
def DIAG_STATUS (i : Nat) : Nat := 0x701000 + 0x100 * (i % 15)
def DIAG_STATUS_LAST : Fld := ⟨31, 24⟩
def DIAG_STATUS_SEEN_FAULT : Fld := ⟨2, 2⟩
def DIAG_STATUS_SEEN_WARN : Fld := ⟨1, 1⟩
def DIAG_STATUS_SEEN_INFO : Fld := ⟨0, 0⟩
/-- DIAG_IEN (R482). -/
def DIAG_IEN (i : Nat) : Nat := 0x701004 + 0x100 * (i % 15)
def DIAG_IEN_SEDMIN : Fld := ⟨5, 4⟩
def DIAG_IEN_RESP_IEN : Fld := ⟨3, 3⟩
def DIAG_IEN_IEN_FAULT : Fld := ⟨2, 2⟩
def DIAG_IEN_IEN_WARN : Fld := ⟨1, 1⟩
def DIAG_IEN_IEN_INFO : Fld := ⟨0, 0⟩
/-- SED (R482). -/
def SED (i j k : Nat) : Nat := 0x701010 + 0x100 * (i % 15) + 0x10 * (j % 8) + 0x4 * (k % 4)

/-- The registers of block 0 (Table 14.1). -/
def block0 : List Cls :=
  [ ⟨0x0, [], [⟨31, 0, .ro, 0x5a540256⟩]⟩,
    ⟨0x4, [], [⟨15, 8, .ro, 2⟩, ⟨7, 0, .ro, 0⟩]⟩,
    ⟨0x8, [], [⟨15, 8, .ro, 2⟩, ⟨7, 0, .ro, 2⟩]⟩,
    ⟨0xc, [], [⟨31, 0, .ro, 0⟩]⟩,
    ⟨0x10, [], [⟨31, 16, .ro, 0⟩, ⟨15, 0, .ro, 0⟩]⟩,
    ⟨0x14, [], [⟨15, 8, .ro, 0⟩, ⟨7, 0, .ro, 0⟩]⟩,
    ⟨0x18, [], [⟨1, 1, .ro, 0⟩, ⟨0, 0, .ro, 0⟩]⟩,
    ⟨0x20, [(0x4, 8)], [⟨31, 0, .ro, 0⟩]⟩,
    ⟨0x40, [], [⟨15, 0, .ro, 0⟩]⟩,
    ⟨0x44, [], [⟨31, 0, .ro, 0⟩]⟩,
    ⟨0x48, [], [⟨31, 24, .ro, 2⟩, ⟨23, 16, .ro, 1⟩, ⟨15, 8, .ro, 2⟩]⟩ ]

/-- The registers of block 1 (Table 14.1). -/
def block1 : List Cls :=
  [ ⟨0x10000, [], [⟨0, 0, .rwl, 0⟩]⟩,
    ⟨0x10004, [], [⟨31, 31, .wo, 0⟩, ⟨15, 0, .wo, 0⟩]⟩,
    ⟨0x10008, [], [⟨31, 28, .ro, 1⟩, ⟨27, 25, .ro, 0⟩, ⟨24, 24, .ro, 0⟩, ⟨23, 23, .ro, 0⟩, ⟨22, 22, .ro, 0⟩, ⟨21, 21, .ro, 0⟩, ⟨20, 20, .ro, 0⟩, ⟨19, 19, .ro, 0⟩, ⟨18, 16, .ro, 0⟩, ⟨15, 8, .ro, 0⟩]⟩,
    ⟨0x1000c, [], [⟨31, 24, .ro, 1⟩, ⟨15, 0, .ro, 0⟩]⟩,
    ⟨0x10010, [(0x4, 4)], [⟨31, 0, .ro, 0⟩]⟩,
    ⟨0x10020, [], [⟨31, 16, .ro, 0⟩, ⟨15, 0, .ro, 0⟩]⟩,
    ⟨0x10040, [], [⟨31, 0, .ro, 0⟩]⟩,
    ⟨0x10044, [], [⟨31, 16, .ro, 0⟩, ⟨15, 0, .ro, 0x103⟩]⟩,
    ⟨0x10048, [], [⟨31, 30, .wo, 0⟩]⟩,
    ⟨0x1004c, [], [⟨31, 31, .ro, 0⟩, ⟨30, 28, .ro, 0⟩, ⟨27, 24, .ro, 0⟩, ⟨6, 0, .ro, 0⟩]⟩,
    ⟨0x10050, [], [⟨3, 3, .ro, 0⟩, ⟨2, 2, .ro, 0⟩, ⟨1, 1, .ro, 0⟩, ⟨0, 0, .ro, 0⟩]⟩,
    ⟨0x10054, [], [⟨31, 0, .ro, 0⟩]⟩,
    ⟨0x10060, [], [⟨31, 16, .ro, 0⟩, ⟨15, 0, .ro, 0⟩]⟩,
    ⟨0x10080, [], [⟨31, 30, .wo, 0⟩, ⟨10, 8, .wo, 0⟩, ⟨3, 0, .wo, 0⟩]⟩,
    ⟨0x10084, [], [⟨31, 31, .ro, 0⟩, ⟨27, 24, .ro, 0⟩, ⟨15, 0, .ro, 0⟩]⟩,
    ⟨0x100a0, [(0x4, 8)], [⟨31, 28, .ro, 0⟩, ⟨18, 0, .ro, 0⟩]⟩,
    ⟨0x10400, [(0x10, 4)], [⟨23, 16, .rwl, 4⟩, ⟨3, 3, .rwl, 1⟩, ⟨2, 2, .rwl, 0⟩, ⟨1, 1, .rwl, 0⟩, ⟨0, 0, .rwl, 0⟩]⟩,
    ⟨0x10404, [(0x10, 4)], [⟨31, 24, .ro, 0⟩, ⟨23, 16, .ro, 0⟩, ⟨14, 8, .ro, 0⟩, ⟨7, 7, .ro, 0⟩, ⟨6, 6, .ro, 0⟩, ⟨5, 5, .ro, 0⟩, ⟨2, 0, .ro, 0⟩]⟩,
    ⟨0x10408, [(0x10, 4)], [⟨31, 16, .ro, 0⟩, ⟨15, 0, .ro, 0⟩]⟩,
    ⟨0x1040c, [(0x10, 4)], [⟨1, 1, .wo, 0⟩, ⟨0, 0, .wo, 0⟩]⟩ ]

/-- The registers of block 2 (Table 14.1). -/
def block2 : List Cls :=
  [ ⟨0x20000, [], [⟨19, 16, .rwl, 3⟩, ⟨8, 8, .rw, 1⟩, ⟨3, 0, .rwl, 0⟩]⟩,
    ⟨0x20004, [], [⟨31, 16, .ro, 0⟩, ⟨8, 8, .w1c, 0⟩, ⟨7, 7, .w1c, 0⟩, ⟨6, 6, .w1c, 0⟩, ⟨4, 4, .ro, 0⟩, ⟨3, 3, .ro, 0⟩, ⟨2, 2, .ro, 0⟩, ⟨1, 1, .ro, 1⟩, ⟨0, 0, .ro, 0⟩]⟩,
    ⟨0x20008, [], [⟨31, 0, .ro, 0⟩]⟩,
    ⟨0x2000c, [], [⟨31, 16, .rc, 0⟩, ⟨15, 0, .ro, 0⟩]⟩,
    ⟨0x20040, [], [⟨31, 0, .rw, 0⟩]⟩,
    ⟨0x20044, [], [⟨31, 0, .rw, 0⟩]⟩,
    ⟨0x20048, [], [⟨31, 0, .rw, 0⟩]⟩,
    ⟨0x2004c, [], [⟨31, 0, .rw, 0⟩]⟩,
    ⟨0x20050, [], [⟨31, 30, .wo, 0⟩, ⟨1, 0, .wo, 0⟩]⟩,
    ⟨0x20054, [], [⟨31, 31, .ro, 0⟩, ⟨2, 0, .ro, 0⟩]⟩,
    ⟨0x20100, [(0x4, 4)], [⟨31, 16, .ro, 0⟩, ⟨15, 0, .ro, 0⟩]⟩,
    ⟨0x20110, [(0x4, 4)], [⟨31, 16, .ro, 0⟩, ⟨15, 0, .ro, 0⟩]⟩,
    ⟨0x20200, [(0x10, 4), (0x4, 4)], [⟨31, 16, .ro, 0⟩, ⟨15, 0, .ro, 0⟩]⟩,
    ⟨0x20400, [(0x4, 32)], [⟨17, 17, .ro, 0⟩, ⟨16, 16, .ro, 0⟩, ⟨15, 0, .ro, 0⟩]⟩ ]

/-- The registers of block 3 (Table 14.1). -/
def block3 : List Cls :=
  [ ⟨0x30000, [], [⟨31, 24, .rwl, 4⟩, ⟨17, 16, .rwl, 1⟩, ⟨4, 4, .rwl, 0⟩, ⟨3, 2, .rwl, 0⟩, ⟨1, 0, .rwl, 0⟩]⟩,
    ⟨0x30004, [], [⟨15, 15, .ro, 0⟩, ⟨14, 14, .w1c, 0⟩, ⟨13, 13, .w1c, 0⟩, ⟨5, 4, .ro, 3⟩, ⟨3, 2, .ro, 3⟩, ⟨1, 0, .ro, 3⟩]⟩,
    ⟨0x30008, [], [⟨3, 3, .wo, 0⟩, ⟨2, 0, .wo, 0⟩]⟩,
    ⟨0x30010, [], [⟨31, 0, .ro, 0⟩]⟩,
    ⟨0x30014, [], [⟨31, 0, .ro, 0⟩]⟩,
    ⟨0x30018, [], [⟨15, 0, .ro, 0⟩]⟩,
    ⟨0x3001c, [], [⟨31, 0, .ro, 0⟩]⟩,
    ⟨0x30020, [], [⟨31, 0, .ro, 0⟩]⟩,
    ⟨0x30024, [], [⟨31, 0, .rwl, 0x800000⟩]⟩,
    ⟨0x30028, [], [⟨31, 0, .rwl, 0⟩]⟩,
    ⟨0x30040, [(0x10, 3)], [⟨23, 16, .rwl, 0⟩, ⟨15, 8, .rwl, 0⟩, ⟨5, 4, .rwl, 0⟩, ⟨3, 3, .rwl, 0⟩, ⟨2, 0, .rwl, 0⟩]⟩,
    ⟨0x30044, [(0x10, 3)], [⟨31, 0, .rwl, 1⟩]⟩,
    ⟨0x30048, [(0x10, 3)], [⟨31, 0, .rwl, 1⟩]⟩,
    ⟨0x3004c, [(0x10, 3)], [⟨31, 0, .rwl, 0⟩]⟩,
    ⟨0x30080, [], [⟨31, 0, .rw, 0⟩]⟩,
    ⟨0x30084, [], [⟨15, 0, .rw, 0⟩]⟩,
    ⟨0x30088, [], [⟨31, 0, .rwl, 0⟩]⟩,
    ⟨0x3008c, [], [⟨15, 0, .rwl, 0⟩]⟩,
    ⟨0x30090, [], [⟨31, 0, .ro, 0⟩]⟩,
    ⟨0x30094, [], [⟨15, 0, .ro, 0⟩]⟩ ]

/-- The registers of block 4 (Table 14.1). -/
def block4 : List Cls :=
  [ ⟨0x40000, [], [⟨31, 0, .ro, 0⟩]⟩,
    ⟨0x40004, [], [⟨31, 0, .ro, 0⟩]⟩,
    ⟨0x40008, [], [⟨31, 0, .rwl, 0⟩]⟩,
    ⟨0x4000c, [], [⟨7, 0, .rwl, 4⟩]⟩,
    ⟨0x40010, [], [⟨31, 0, .ro, 0⟩]⟩,
    ⟨0x40014, [], [⟨31, 24, .rwl, 0xa⟩, ⟨20, 16, .rwl, 0x14⟩, ⟨12, 8, .rwl, 0xe⟩]⟩,
    ⟨0x40018, [], [⟨29, 28, .ro, 0⟩, ⟨25, 24, .ro, 0⟩, ⟨17, 16, .ro, 0⟩, ⟨8, 8, .ro, 0⟩, ⟨4, 4, .w1c, 0⟩, ⟨3, 3, .w1c, 0⟩, ⟨2, 2, .w1c, 0⟩, ⟨1, 1, .w1c, 0⟩, ⟨0, 0, .w1c, 0⟩]⟩,
    ⟨0x4001c, [], [⟨31, 0, .ro, 0⟩]⟩,
    ⟨0x40020, [], [⟨31, 0, .ro, 0⟩]⟩,
    ⟨0x40024, [], [⟨21, 16, .ro, 0⟩, ⟨15, 0, .ro, 0⟩]⟩,
    ⟨0x40028, [], [⟨31, 0, .ro, 0⟩]⟩,
    ⟨0x40040, [], [⟨31, 24, .rwl, 0⟩, ⟨23, 16, .rwl, 0xa⟩, ⟨15, 12, .rwl, 0⟩, ⟨7, 7, .rwl, 0⟩, ⟨6, 6, .rwl, 0⟩, ⟨5, 5, .rwl, 0⟩, ⟨2, 1, .rwl, 0⟩, ⟨0, 0, .rwl, 0⟩]⟩,
    ⟨0x40044, [], [⟨7, 5, .ro, 0⟩, ⟨1, 1, .w1c, 0⟩, ⟨0, 0, .ro, 0⟩]⟩,
    ⟨0x40048, [], [⟨31, 0, .ro, 0⟩]⟩ ]

/-- The registers of block 5 (Table 14.1). -/
def block5 : List Cls :=
  [ ⟨0x80000, [], [⟨31, 16, .rwl, 0x88b5⟩]⟩,
    ⟨0x80004, [], [⟨7, 0, .ro, 0⟩]⟩,
    ⟨0x80008, [], [⟨31, 28, .rwl, 3⟩, ⟨27, 24, .rwl, 1⟩, ⟨15, 8, .rwl, 0x14⟩, ⟨6, 4, .rwl, 0⟩, ⟨2, 0, .rwl, 0⟩]⟩,
    ⟨0x8000c, [], [⟨8, 8, .ro, 0⟩, ⟨7, 4, .ro, 0⟩, ⟨3, 0, .ro, 0⟩]⟩,
    ⟨0x80010, [], [⟨8, 8, .wo, 0⟩, ⟨2, 2, .wo, 0⟩, ⟨1, 1, .wo, 0⟩, ⟨0, 0, .wo, 0⟩]⟩,
    ⟨0x80014, [], [⟨31, 16, .ro, 0⟩, ⟨15, 0, .ro, 0⟩]⟩,
    ⟨0x80018, [], [⟨7, 7, .w1c, 0⟩, ⟨6, 6, .w1c, 0⟩, ⟨5, 5, .w1c, 0⟩, ⟨4, 4, .w1c, 0⟩, ⟨3, 3, .w1c, 0⟩, ⟨2, 2, .w1c, 0⟩, ⟨1, 1, .w1c, 0⟩]⟩,
    ⟨0x80100, [(0x40, 5)], [⟨5, 4, .rwl, 2⟩, ⟨0, 0, .rwl, 0⟩]⟩,
    ⟨0x80104, [(0x40, 5)], [⟨15, 12, .ro, 0⟩, ⟨9, 8, .ro, 0⟩, ⟨7, 7, .ro, 0⟩, ⟨5, 4, .ro, 0⟩, ⟨3, 3, .w1c, 0⟩, ⟨2, 2, .w1c, 0⟩, ⟨1, 1, .w1c, 0⟩]⟩,
    ⟨0x80108, [(0x40, 5)], [⟨31, 0, .ro, 0⟩]⟩,
    ⟨0x8010c, [(0x40, 5)], [⟨0, 0, .wo, 0⟩]⟩,
    ⟨0x80110, [(0x40, 5)], [⟨31, 0, .ro, 0⟩]⟩,
    ⟨0x80114, [(0x40, 5)], [⟨31, 0, .ro, 0⟩]⟩,
    ⟨0x80118, [(0x40, 5)], [⟨31, 0, .ro, 0⟩]⟩,
    ⟨0x8011c, [(0x40, 5)], [⟨31, 0, .ro, 0⟩]⟩,
    ⟨0x80120, [(0x40, 5)], [⟨31, 0, .ro, 0⟩]⟩,
    ⟨0x80124, [(0x40, 5)], [⟨31, 0, .ro, 0⟩]⟩,
    ⟨0x80128, [(0x40, 5)], [⟨31, 0, .ro, 0⟩]⟩,
    ⟨0x8012c, [(0x40, 5)], [⟨31, 0, .ro, 0⟩]⟩,
    ⟨0x80130, [(0x40, 5)], [⟨31, 0, .ro, 0⟩]⟩,
    ⟨0x80300, [(0x4, 4)], [⟨31, 0, .ro, 0⟩]⟩,
    ⟨0x81000, [(0x4, 128)], [⟨31, 16, .ro, 0⟩, ⟨15, 0, .ro, 0⟩]⟩,
    ⟨0x81200, [(0x4, 128)], [⟨31, 24, .ro, 0⟩, ⟨23, 23, .ro, 0⟩, ⟨18, 16, .ro, 0⟩, ⟨15, 0, .ro, 0⟩]⟩,
    ⟨0x81400, [(0x4, 128)], [⟨31, 16, .rc, 0⟩, ⟨15, 0, .ro, 0⟩]⟩,
    ⟨0x81600, [(0x4, 128)], [⟨31, 24, .ro, 0⟩, ⟨23, 12, .ro, 0⟩, ⟨11, 0, .ro, 0⟩]⟩,
    ⟨0x84000, [(0x4000, 2), (0x4, 4096)], [⟨31, 0, .ro, 0⟩]⟩,
    ⟨0x8c000, [(0x400, 2), (0x4, 256)], [⟨31, 31, .ro, 0⟩, ⟨23, 16, .ro, 0⟩, ⟨10, 0, .ro, 0⟩]⟩ ]

/-- The registers of block 6 (Table 14.1). -/
def block6 : List Cls :=
  [ ⟨0x100000, [(0x200, 256), (0x4, 64)], [⟨31, 0, .ro, 0⟩]⟩,
    ⟨0x100100, [(0x200, 256), (0x4, 64)], [⟨31, 0, .ro, 0⟩]⟩,
    ⟨0x120000, [(0x20, 256)], [⟨23, 16, .rwl, 0⟩, ⟨7, 4, .rwl, 4⟩, ⟨1, 0, .rw, 0⟩]⟩,
    ⟨0x120004, [(0x20, 256)], [⟨31, 24, .ro, 0⟩, ⟨23, 21, .ro, 0⟩, ⟨20, 20, .w1c, 0⟩, ⟨19, 17, .ro, 0⟩, ⟨16, 16, .ro, 0⟩, ⟨15, 15, .ro, 0⟩, ⟨14, 14, .w1c, 0⟩, ⟨11, 11, .w1c, 0⟩, ⟨10, 10, .w1c, 0⟩, ⟨9, 9, .w1c, 0⟩, ⟨8, 8, .w1c, 0⟩, ⟨7, 7, .w1c, 0⟩]⟩,
    ⟨0x120008, [(0x20, 256)], [⟨31, 24, .ro, 0⟩, ⟨23, 16, .ro, 0⟩, ⟨9, 0, .w1c, 0⟩]⟩,
    ⟨0x12000c, [(0x20, 256)], [⟨14, 12, .rwl, 2⟩, ⟨11, 9, .rwl, 3⟩, ⟨8, 6, .rwl, 2⟩, ⟨5, 3, .rwl, 4⟩]⟩,
    ⟨0x120010, [(0x20, 256)], [⟨31, 0, .rw, 0⟩]⟩,
    ⟨0x120014, [(0x20, 256)], [⟨31, 0, .rwl, 0⟩]⟩,
    ⟨0x120018, [(0x20, 256)], [⟨31, 16, .rc, 0⟩, ⟨15, 0, .rc, 0⟩]⟩,
    ⟨0x12001c, [(0x20, 256)], [⟨3, 3, .wo, 0⟩, ⟨2, 2, .wo, 0⟩, ⟨1, 1, .wo, 0⟩, ⟨0, 0, .wo, 0⟩]⟩,
    ⟨0x122000, [(0x4, 64)], [⟨31, 0, .rwl, 0⟩]⟩,
    ⟨0x122100, [], [⟨31, 31, .wo, 0⟩, ⟨8, 8, .wo, 0⟩, ⟨7, 0, .wo, 0⟩]⟩,
    ⟨0x122104, [], [⟨31, 31, .ro, 0⟩, ⟨2, 0, .ro, 0⟩]⟩,
    ⟨0x122108, [], [⟨31, 31, .ro, 0⟩, ⟨7, 0, .ro, 0⟩]⟩,
    ⟨0x12210c, [], [⟨31, 0, .ro, 0x10002⟩]⟩,
    ⟨0x122200, [(0x4, 64)], [⟨31, 0, .ro, 0⟩]⟩,
    ⟨0x122300, [(0x4, 64)], [⟨31, 0, .ro, 0⟩]⟩ ]

/-- The registers of block 7 (Table 14.1). -/
def block7 : List Cls :=
  [ ⟨0x200000, [(0x100, 256)], [⟨31, 24, .rwl, 0x40⟩, ⟨19, 16, .rwl, 0⟩, ⟨15, 8, .rwl, 0⟩, ⟨2, 2, .rwl, 0⟩, ⟨1, 1, .rwl, 0⟩]⟩,
    ⟨0x200004, [(0x100, 256)], [⟨31, 28, .ro, 0⟩, ⟨27, 24, .ro, 0⟩, ⟨20, 20, .ro, 0⟩, ⟨19, 19, .ro, 0⟩, ⟨18, 16, .ro, 0⟩, ⟨15, 15, .w1c, 0⟩, ⟨14, 14, .w1c, 0⟩, ⟨13, 13, .w1c, 0⟩, ⟨12, 12, .w1c, 0⟩, ⟨11, 11, .w1c, 0⟩, ⟨10, 10, .w1c, 0⟩, ⟨9, 9, .ro, 0⟩, ⟨8, 8, .w1c, 0⟩]⟩,
    ⟨0x200008, [(0x100, 256), (0x4, 2)], [⟨31, 0, .rwl, 0⟩]⟩,
    ⟨0x200010, [(0x100, 256), (0x4, 2)], [⟨31, 0, .rwl, 0⟩]⟩,
    ⟨0x200018, [(0x100, 256), (0x4, 2)], [⟨31, 0, .rwl, 0⟩]⟩,
    ⟨0x200020, [(0x100, 256), (0x4, 2)], [⟨31, 0, .rwl, 0⟩]⟩,
    ⟨0x200028, [(0x100, 256), (0x4, 2)], [⟨31, 0, .rwl, 0⟩]⟩,
    ⟨0x200030, [(0x100, 256), (0x4, 2)], [⟨31, 0, .rwl, 0⟩]⟩,
    ⟨0x200038, [(0x100, 256), (0x4, 2)], [⟨31, 0, .rwl, 0⟩]⟩,
    ⟨0x200040, [(0x100, 256), (0x4, 2)], [⟨31, 0, .rw, 0⟩]⟩,
    ⟨0x200048, [(0x100, 256)], [⟨31, 30, .wo, 0⟩]⟩,
    ⟨0x20004c, [(0x100, 256)], [⟨31, 31, .ro, 0⟩, ⟨3, 0, .ro, 0⟩]⟩,
    ⟨0x200050, [(0x100, 256), (0x4, 2)], [⟨31, 0, .ro, 0⟩]⟩,
    ⟨0x200058, [(0x100, 256), (0x4, 2)], [⟨31, 0, .ro, 0⟩]⟩,
    ⟨0x200060, [(0x100, 256), (0x4, 2)], [⟨31, 0, .ro, 0⟩]⟩,
    ⟨0x200068, [(0x100, 256)], [⟨31, 0, .rw, 1⟩]⟩,
    ⟨0x20006c, [(0x100, 256)], [⟨31, 0, .rw, 1⟩]⟩,
    ⟨0x200070, [(0x100, 256)], [⟨7, 0, .rw, 0⟩]⟩,
    ⟨0x200074, [(0x100, 256)], [⟨31, 0, .rw, 0⟩]⟩,
    ⟨0x200078, [(0x100, 256), (0x4, 2)], [⟨31, 0, .wo, 0⟩]⟩,
    ⟨0x200080, [(0x100, 256)], [⟨31, 28, .rwl, 0⟩, ⟨27, 27, .rwl, 0⟩, ⟨26, 26, .rwl, 0⟩, ⟨25, 25, .rwl, 0⟩, ⟨23, 16, .rwl, 0⟩, ⟨6, 0, .rwl, 0xa⟩]⟩,
    ⟨0x200084, [(0x100, 256)], [⟨31, 24, .rwl, 0x7f⟩, ⟨23, 16, .rwl, 0x7f⟩, ⟨15, 8, .rwl, 0x7f⟩, ⟨7, 7, .rwl, 0⟩, ⟨6, 6, .rwl, 0⟩, ⟨5, 5, .rwl, 0⟩]⟩,
    ⟨0x200088, [(0x100, 256), (0x4, 2)], [⟨31, 0, .rwl, 0⟩]⟩,
    ⟨0x200090, [(0x100, 256), (0x4, 2)], [⟨31, 0, .rwl, 0⟩]⟩,
    ⟨0x200098, [(0x100, 256), (0x4, 2)], [⟨31, 0, .rwl, 0⟩]⟩,
    ⟨0x2000a0, [(0x100, 256), (0x4, 2)], [⟨31, 0, .rwl, 0⟩]⟩,
    ⟨0x2000a8, [(0x100, 256)], [⟨31, 28, .ro, 0⟩, ⟨27, 24, .ro, 0⟩, ⟨23, 16, .ro, 0⟩, ⟨0, 0, .ro, 0⟩]⟩,
    ⟨0x2000ac, [(0x100, 256)], [⟨31, 28, .wo, 0⟩, ⟨1, 1, .wo, 0⟩, ⟨0, 0, .wo, 0⟩]⟩,
    ⟨0x210000, [(0x10, 256)], [⟨31, 31, .ro, 0⟩, ⟨30, 30, .ro, 0⟩, ⟨29, 27, .ro, 0⟩, ⟨24, 11, .ro, 0⟩, ⟨10, 0, .ro, 0⟩]⟩,
    ⟨0x210004, [(0x10, 256)], [⟨31, 0, .ro, 0⟩]⟩,
    ⟨0x210008, [(0x10, 256)], [⟨31, 0, .ro, 0⟩]⟩,
    ⟨0x211000, [(0x8, 1536)], [⟨31, 0, .ro, 0⟩]⟩,
    ⟨0x211004, [(0x8, 1536)], [⟨31, 31, .ro, 0⟩, ⟨30, 30, .ro, 0⟩, ⟨28, 21, .ro, 0⟩, ⟨20, 10, .ro, 0⟩, ⟨8, 0, .ro, 0⟩]⟩,
    ⟨0x214000, [(0x20, 16)], [⟨31, 0, .rw, 0⟩]⟩,
    ⟨0x214004, [(0x20, 16)], [⟨31, 0, .rw, 0⟩]⟩,
    ⟨0x214008, [(0x20, 16)], [⟨31, 0, .rw, 0⟩]⟩,
    ⟨0x21400c, [(0x20, 16)], [⟨31, 30, .wo, 0⟩, ⟨6, 4, .wo, 0⟩, ⟨1, 0, .wo, 0⟩]⟩,
    ⟨0x214010, [(0x20, 16)], [⟨31, 28, .ro, 0⟩, ⟨27, 24, .ro, 0⟩, ⟨23, 21, .ro, 0⟩]⟩,
    ⟨0x214200, [], [⟨15, 0, .ro, 0⟩]⟩ ]

/-- The registers of block 8 (Table 14.1). -/
def block8 : List Cls :=
  [ ⟨0x300000, [(0x100, 8)], [⟨31, 28, .rwl, 0xf⟩, ⟨21, 16, .rwl, 0⟩, ⟨4, 4, .ro, 0⟩, ⟨3, 3, .rwl, 0⟩, ⟨2, 2, .rwl, 0⟩, ⟨0, 0, .rwl, 0⟩]⟩,
    ⟨0x300004, [(0x100, 8)], [⟨31, 16, .ro, 0x100⟩, ⟨15, 0, .rw, 0x100⟩]⟩,
    ⟨0x300008, [(0x100, 8)], [⟨15, 0, .rwl, 0⟩]⟩,
    ⟨0x30000c, [(0x100, 8)], [⟨0, 0, .wo, 0⟩]⟩,
    ⟨0x300010, [(0x100, 8)], [⟨31, 16, .ro, 0⟩, ⟨7, 7, .ro, 0⟩, ⟨6, 6, .ro, 0⟩, ⟨3, 3, .w1c, 0⟩, ⟨2, 2, .ro, 0⟩, ⟨0, 0, .ro, 0⟩]⟩,
    ⟨0x300014, [(0x100, 8)], [⟨15, 0, .rwl, 0⟩]⟩,
    ⟨0x300020, [(0x100, 8), (0x10, 3)], [⟨21, 0, .rw, 0x3fffff⟩]⟩,
    ⟨0x300024, [(0x100, 8), (0x10, 3)], [⟨21, 0, .rw, 0x3fffff⟩]⟩,
    ⟨0x300028, [(0x100, 8), (0x10, 3)], [⟨13, 0, .rwl, 0⟩]⟩,
    ⟨0x30002c, [(0x100, 8), (0x10, 3)], [⟨9, 9, .ro, 0⟩, ⟨8, 8, .ro, 0⟩, ⟨2, 2, .rwl, 0⟩, ⟨1, 1, .rw, 1⟩]⟩,
    ⟨0x301000, [(0x4, 256)], [⟨31, 31, .ro, 0⟩, ⟨24, 16, .rwl, 0x100⟩, ⟨12, 12, .rwl, 0⟩, ⟨9, 0, .rwl, 0x32⟩]⟩ ]

/-- The registers of block 9 (Table 14.1). -/
def block9 : List Cls :=
  [ ⟨0x310000, [(0x100, 32)], [⟨31, 28, .rwl, 0xf⟩, ⟨3, 2, .rwl, 0⟩, ⟨0, 0, .rwl, 0⟩]⟩,
    ⟨0x310004, [(0x100, 32)], [⟨15, 0, .rw, 0⟩]⟩,
    ⟨0x310008, [(0x100, 32)], [⟨31, 16, .rw, 0⟩, ⟨15, 0, .rw, 0⟩]⟩,
    ⟨0x31000c, [(0x100, 32)], [⟨0, 0, .wo, 0⟩]⟩,
    ⟨0x310010, [(0x100, 32)], [⟨8, 8, .w1c, 0⟩, ⟨7, 7, .ro, 0⟩, ⟨6, 6, .ro, 0⟩, ⟨5, 5, .ro, 0⟩, ⟨4, 4, .w1c, 0⟩, ⟨3, 3, .w1c, 0⟩]⟩,
    ⟨0x310014, [(0x100, 32)], [⟨31, 24, .rwl, 0⟩, ⟨15, 8, .rwl, 0xa⟩, ⟨7, 0, .rwl, 0xa⟩]⟩,
    ⟨0x310040, [(0x100, 32), (0x8, 16)], [⟨31, 0, .rw, 0⟩]⟩,
    ⟨0x310044, [(0x100, 32), (0x8, 16)], [⟨31, 0, .rw, 0⟩]⟩,
    ⟨0x312000, [], [⟨5, 4, .rwl, 0⟩, ⟨1, 0, .rwl, 0⟩]⟩ ]

/-- The registers of block 10 (Table 14.1). -/
def block10 : List Cls :=
  [ ⟨0x320000, [(0x40, 4)], [⟨31, 24, .rwl, 0x18⟩, ⟨23, 23, .rwl, 0⟩, ⟨22, 22, .rwl, 0⟩, ⟨19, 16, .rwl, 1⟩, ⟨3, 3, .rwl, 0⟩, ⟨2, 2, .rwl, 0⟩, ⟨1, 0, .rwl, 0⟩]⟩,
    ⟨0x320004, [(0x40, 4)], [⟨11, 0, .rwl, 0x1f4⟩]⟩,
    ⟨0x320008, [(0x40, 4)], [⟨31, 0, .ro, 0⟩]⟩,
    ⟨0x32000c, [(0x40, 4)], [⟨31, 0, .ro, 0⟩]⟩,
    ⟨0x320010, [(0x40, 4)], [⟨4, 4, .ro, 0⟩, ⟨3, 3, .w1c, 0⟩, ⟨2, 2, .w1c, 0⟩, ⟨1, 1, .w1c, 0⟩, ⟨0, 0, .w1c, 0⟩]⟩,
    ⟨0x320400, [], [⟨31, 31, .rwl, 0⟩, ⟨30, 24, .rwl, 0xa⟩, ⟨15, 15, .rwl, 0⟩, ⟨14, 8, .rwl, 0xa⟩]⟩,
    ⟨0x320500, [(0x10, 16)], [⟨10, 8, .rwl, 0⟩, ⟨6, 4, .rwl, 2⟩, ⟨1, 1, .rwl, 0⟩, ⟨0, 0, .rwl, 0⟩]⟩,
    ⟨0x320504, [(0x10, 16)], [⟨31, 0, .ro, 0⟩]⟩,
    ⟨0x320508, [(0x10, 16)], [⟨1, 1, .ro, 0⟩, ⟨0, 0, .w1c, 0⟩]⟩ ]

/-- The registers of block 11 (Table 14.1). -/
def block11 : List Cls :=
  [ ⟨0x400000, [(0x8000, 32), (0x4, 4096)], [⟨31, 0, .rwm, 0⟩]⟩,
    ⟨0x404000, [(0x8000, 32), (0x4, 1024)], [⟨31, 0, .rwm, 0⟩]⟩,
    ⟨0x405000, [(0x8000, 32), (0x4, 1024)], [⟨31, 0, .rwm, 0⟩]⟩,
    ⟨0x407000, [(0x8000, 32)], [⟨0, 0, .rwl, 0⟩]⟩,
    ⟨0x407004, [(0x8000, 32)], [⟨15, 15, .ro, 0⟩, ⟨14, 14, .ro, 0⟩, ⟨7, 0, .ro, 0⟩]⟩,
    ⟨0x407008, [(0x8000, 32)], [⟨4, 4, .w1c, 0⟩, ⟨3, 3, .w1c, 0⟩, ⟨2, 2, .w1c, 0⟩, ⟨1, 1, .w1c, 0⟩, ⟨0, 0, .w1c, 0⟩]⟩,
    ⟨0x40700c, [(0x8000, 32)], [⟨31, 28, .ro, 0⟩, ⟨23, 16, .ro, 0⟩, ⟨12, 0, .ro, 0⟩]⟩,
    ⟨0x407040, [(0x8000, 32), (0x8, 8)], [⟨31, 24, .rwl, 0⟩, ⟨23, 23, .rwl, 0⟩, ⟨22, 22, .rwl, 0⟩, ⟨21, 21, .rwl, 0⟩, ⟨20, 20, .rwl, 0⟩, ⟨19, 19, .rwl, 0⟩, ⟨18, 18, .rwl, 0⟩, ⟨12, 0, .rwl, 0⟩]⟩,
    ⟨0x407044, [(0x8000, 32), (0x8, 8)], [⟨31, 24, .rwl, 0⟩, ⟨23, 23, .rwl, 0⟩, ⟨19, 16, .rwl, 0⟩, ⟨15, 15, .rwl, 0⟩]⟩,
    ⟨0x407080, [(0x8000, 32), (0x4, 8)], [⟨31, 31, .ro, 0⟩, ⟨30, 30, .ro, 0⟩, ⟨29, 29, .ro, 0⟩, ⟨28, 28, .ro, 0⟩, ⟨27, 27, .ro, 0⟩, ⟨26, 26, .w1c, 0⟩, ⟨25, 25, .w1c, 0⟩, ⟨23, 16, .rc, 0⟩, ⟨15, 0, .ro, 0⟩]⟩,
    ⟨0x4070a0, [(0x8000, 32)], [⟨7, 0, .rwl, 0x40⟩]⟩,
    ⟨0x4070a4, [(0x8000, 32)], [⟨31, 16, .rc, 0⟩, ⟨15, 0, .rc, 0⟩]⟩,
    ⟨0x4070a8, [(0x8000, 32)], [⟨31, 31, .wo, 0⟩, ⟨2, 0, .wo, 0⟩]⟩,
    ⟨0x4070c0, [(0x8000, 32), (0x4, 8)], [⟨15, 0, .ro, 0⟩]⟩,
    ⟨0x4070e0, [(0x8000, 32), (0x4, 8)], [⟨15, 0, .rw, 0⟩]⟩,
    ⟨0x407100, [(0x8000, 32)], [⟨28, 16, .ro, 0⟩, ⟨15, 0, .ro, 0⟩]⟩,
    ⟨0x407104, [(0x8000, 32), (0x4, 4)], [⟨31, 0, .ro, 0⟩]⟩,
    ⟨0x407114, [(0x8000, 32), (0x4, 2)], [⟨27, 16, .ro, 0⟩, ⟨11, 0, .ro, 0⟩]⟩,
    ⟨0x40711c, [(0x8000, 32), (0x4, 2)], [⟨27, 16, .ro, 0⟩, ⟨11, 0, .ro, 0⟩]⟩,
    ⟨0x407124, [(0x8000, 32), (0x4, 2)], [⟨27, 16, .ro, 0⟩, ⟨11, 0, .ro, 0⟩]⟩,
    ⟨0x40712c, [(0x8000, 32), (0x4, 2)], [⟨27, 16, .ro, 0⟩, ⟨11, 0, .ro, 0⟩]⟩,
    ⟨0x407134, [(0x8000, 32)], [⟨31, 0, .ro, 0⟩]⟩,
    ⟨0x407138, [(0x8000, 32)], [⟨23, 0, .ro, 0⟩]⟩,
    ⟨0x40713c, [(0x8000, 32)], [⟨31, 0, .ro, 0⟩]⟩ ]

/-- The registers of block 12 (Table 14.1). -/
def block12 : List Cls :=
  [ ⟨0x500000, [], [⟨31, 24, .rwl, 0x14⟩, ⟨23, 16, .rwl, 4⟩, ⟨15, 12, .rwl, 4⟩, ⟨11, 8, .rwl, 8⟩, ⟨0, 0, .rwl, 0⟩]⟩,
    ⟨0x500004, [], [⟨17, 0, .rwl, 0⟩]⟩,
    ⟨0x500008, [], [⟨31, 28, .ro, 0⟩, ⟨27, 27, .ro, 0⟩, ⟨26, 26, .ro, 0⟩, ⟨25, 25, .ro, 0⟩, ⟨24, 24, .ro, 0⟩, ⟨11, 11, .w1c, 0⟩, ⟨10, 10, .w1c, 0⟩, ⟨9, 9, .w1c, 0⟩, ⟨8, 8, .w1c, 0⟩, ⟨7, 7, .w1c, 0⟩, ⟨6, 6, .w1c, 0⟩, ⟨5, 5, .w1c, 0⟩, ⟨4, 4, .w1c, 0⟩, ⟨3, 3, .w1c, 0⟩, ⟨2, 2, .w1c, 0⟩]⟩,
    ⟨0x50000c, [], [⟨31, 31, .wo, 0⟩, ⟨1, 1, .wo, 0⟩, ⟨0, 0, .wo, 0⟩]⟩,
    ⟨0x500010, [], [⟨15, 0, .ro, 0⟩]⟩,
    ⟨0x500014, [], [⟨31, 16, .ro, 0⟩, ⟨15, 0, .ro, 0⟩]⟩,
    ⟨0x500018, [], [⟨31, 16, .ro, 0⟩, ⟨7, 0, .ro, 0⟩]⟩,
    ⟨0x50001c, [], [⟨15, 0, .ro, 0⟩]⟩,
    ⟨0x500020, [], [⟨31, 0, .ro, 0⟩]⟩,
    ⟨0x500024, [], [⟨31, 0, .ro, 0⟩]⟩,
    ⟨0x500028, [], [⟨31, 0, .ro, 0⟩]⟩,
    ⟨0x50002c, [], [⟨31, 0, .ro, 0⟩]⟩,
    ⟨0x500030, [], [⟨31, 16, .ro, 0⟩, ⟨15, 0, .ro, 0⟩]⟩ ]

/-- The registers of block 13 (Table 14.1). -/
def block13 : List Cls :=
  [ ⟨0x600000, [], [⟨31, 30, .ro, 0⟩, ⟨27, 24, .ro, 0⟩, ⟨23, 23, .ro, 0⟩, ⟨22, 22, .ro, 0⟩, ⟨21, 21, .ro, 0⟩, ⟨20, 20, .ro, 0⟩, ⟨15, 8, .ro, 0⟩, ⟨7, 0, .ro, 0⟩]⟩,
    ⟨0x600004, [], [⟨31, 0, .ro, 0⟩]⟩,
    ⟨0x600008, [], [⟨31, 0, .ro, 0⟩]⟩,
    ⟨0x60000c, [], [⟨31, 0, .rws, 0⟩]⟩,
    ⟨0x600010, [], [⟨31, 30, .wo, 0⟩, ⟨0, 0, .wo, 0⟩]⟩,
    ⟨0x600014, [], [⟨31, 31, .ro, 0⟩, ⟨3, 0, .ro, 0⟩]⟩,
    ⟨0x600018, [], [⟨31, 16, .ro, 0⟩, ⟨15, 0, .ro, 0⟩]⟩,
    ⟨0x60001c, [], [⟨31, 16, .ro, 0⟩, ⟨15, 0, .ro, 0⟩]⟩,
    ⟨0x600020, [], [⟨31, 0, .ro, 0⟩]⟩,
    ⟨0x600100, [(0x20, 8)], [⟨31, 31, .rws, 0⟩, ⟨30, 30, .rws, 0⟩, ⟨29, 29, .rws, 0⟩, ⟨28, 28, .rws, 1⟩, ⟨27, 27, .rws, 1⟩, ⟨26, 24, .rws, 0⟩]⟩,
    ⟨0x600104, [(0x20, 8)], [⟨31, 16, .rws, 0x64⟩, ⟨15, 8, .rws, 0x32⟩]⟩,
    ⟨0x600108, [(0x20, 8)], [⟨31, 16, .rws, 0xc8⟩, ⟨7, 0, .rws, 0x1e⟩]⟩,
    ⟨0x60010c, [(0x20, 8)], [⟨15, 0, .rws, 4⟩]⟩,
    ⟨0x600110, [(0x20, 8)], [⟨31, 28, .ro, 0⟩, ⟨27, 24, .ro, 0⟩, ⟨23, 20, .ro, 0⟩, ⟨19, 18, .ro, 0⟩, ⟨17, 17, .ro, 0⟩, ⟨16, 16, .ro, 0⟩, ⟨15, 15, .ro, 0⟩, ⟨14, 14, .ro, 0⟩, ⟨13, 13, .ro, 0⟩, ⟨12, 12, .w1c, 0⟩, ⟨11, 11, .w1c, 0⟩]⟩,
    ⟨0x600114, [(0x20, 8)], [⟨31, 16, .ro, 0⟩, ⟨15, 0, .ro, 0⟩]⟩,
    ⟨0x600400, [(0x10, 16)], [⟨31, 31, .rws, 0⟩, ⟨30, 30, .rws, 0⟩, ⟨29, 29, .rws, 1⟩, ⟨27, 24, .rws, 2⟩, ⟨23, 16, .rws, 0⟩, ⟨12, 0, .rws, 0x64⟩]⟩,
    ⟨0x600404, [(0x10, 16)], [⟨31, 31, .ro, 0⟩, ⟨30, 30, .ro, 0⟩, ⟨29, 29, .ro, 0⟩, ⟨28, 28, .ro, 0⟩, ⟨27, 27, .ro, 0⟩, ⟨15, 0, .ro, 0⟩]⟩,
    ⟨0x600800, [(0x4, 256)], [⟨3, 0, .rws, 0xf⟩]⟩,
    ⟨0x602000, [(0x40, 64), (0x4, 16)], [⟨31, 0, .ro, 0⟩]⟩ ]

/-- The registers of block 14 (Table 14.1). -/
def block14 : List Cls :=
  [ ⟨0x700000, [], [⟨9, 9, .rwl, 1⟩, ⟨8, 8, .rwl, 1⟩, ⟨7, 4, .rwl, 3⟩, ⟨3, 0, .rwl, 3⟩]⟩,
    ⟨0x700004, [], [⟨23, 22, .ro, 0⟩, ⟨21, 21, .ro, 0⟩, ⟨20, 18, .ro, 0⟩, ⟨17, 16, .ro, 0⟩, ⟨15, 13, .ro, 0⟩]⟩,
    ⟨0x700008, [], [⟨31, 24, .ro, 0⟩, ⟨23, 16, .ro, 0⟩, ⟨15, 8, .ro, 0⟩, ⟨7, 0, .ro, 0⟩]⟩,
    ⟨0x70000c, [], [⟨31, 0, .ro, 0⟩]⟩,
    ⟨0x700010, [], [⟨31, 0, .rwl, 0⟩]⟩,
    ⟨0x700014, [], [⟨31, 0, .rwl, 0⟩]⟩,
    ⟨0x700018, [], [⟨31, 0, .rwl, 0⟩]⟩,
    ⟨0x700020, [], [⟨31, 16, .ro, 0⟩, ⟨15, 0, .rw, 0⟩]⟩,
    ⟨0x700030, [], [⟨14, 0, .ro, 0⟩]⟩,
    ⟨0x700040, [], [⟨31, 0, .ro, 0⟩]⟩,
    ⟨0x700044, [], [⟨31, 0, .ro, 0⟩]⟩,
    ⟨0x700048, [], [⟨31, 0, .rw, 0⟩]⟩,
    ⟨0x700050, [(0x4, 10)], [⟨31, 0, .ro, 0⟩]⟩,
    ⟨0x700100, [], [⟨2, 2, .ro, 0⟩, ⟨1, 1, .ro, 0⟩, ⟨0, 0, .ro, 0⟩]⟩,
    ⟨0x700104, [], [⟨31, 28, .wo, 0⟩, ⟨27, 16, .wo, 0⟩, ⟨15, 8, .wo, 0⟩, ⟨0, 0, .wo, 0⟩]⟩,
    ⟨0x700108, [], [⟨0, 0, .ro, 0⟩]⟩,
    ⟨0x701000, [(0x100, 15)], [⟨31, 24, .ro, 0⟩, ⟨2, 2, .w1c, 0⟩, ⟨1, 1, .w1c, 0⟩, ⟨0, 0, .w1c, 0⟩]⟩,
    ⟨0x701004, [(0x100, 15)], [⟨5, 4, .rw, 0⟩, ⟨3, 3, .rw, 0⟩, ⟨2, 2, .rw, 1⟩, ⟨1, 1, .rw, 0⟩, ⟨0, 0, .rw, 0⟩]⟩,
    ⟨0x701010, [(0x100, 15), (0x10, 8), (0x4, 4)], [⟨31, 0, .ro, 0⟩]⟩ ]

end Sys2Proof.Machine.R
end

