-- ==== Sys2Proof/Machine/State.lean ====
section
/-! DEFINITION. The state of the block as plain data: the register words by address, and beside them every piece of state the spec gives the head that no register shows. -/

namespace Sys2Proof.Machine

/-- What the last accepted feedback of an axis carried (R84). -/
structure Fb where
  /-- position in Q40.24, after re-basing (R160) -/
  pos : Int := 0
  /-- position of the sample before it, and the time of both, for interpolation (R158) -/
  posPrev : Int := 0
  /-- re-basing offset added to every feedback value (R160) -/
  ofs : Int := 0
  /-- values V1 to V4 of the record in Q1.31: the currents or torque, the bus voltage and the reserve (Table 8.9) -/
  v1 : Int := 0
  v2 : Int := 0
  v3 : Int := 0
  v4 : Int := 0
  /-- a position, and a bus voltage, have been received -/
  got : Bool := false
  /-- STO or not ENABLED: torque is off (Table 3.8) -/
  torqueOff : Bool := false
  /-- raw 32-bit position of the last accepted record (R301) -/
  raw : Nat := 0
  /-- consecutive samples missing (R331) -/
  miss : Nat := 0
  /-- position of a missing sample (R330) -/
  sub : Option Int := none
  /-- the absolute position is valid (R159 ABS) -/
  absOk : Bool := true
  deriving DecidableEq, Repr

/-- A region's hidden state (chapter 1). -/
structure Region where
  /-- own target of the core voltage, before the neighbour clamp (R23; free value) -/
  target : Nat := 0
  /-- a clock change is due at the next basic-cycle start (R22): the wanted clock, true economy -/
  wantEcon : Bool := false
  /-- reservation bits in force, low and high cluster (R47; reset 0) -/
  resvLo : Bool := false
  resvHi : Bool := false
  /-- lane tasks that no unit could take (R43) -/
  lanesOut : List Nat := []
  /-- contexts that no region could take (R42) -/
  unplaced : List Nat := []
  /-- contexts still to be moved, in the order of R39 -/
  moving : List Nat := []
  deriving DecidableEq, Repr

/-- The die-to-die data link and the core of the package (R26 to R28). -/
structure CoreSt where
  /-- ns since die S, and die C, last received a valid transfer (R26) -/
  sinceS : Nat := 0
  sinceC : Nat := 0
  /-- repeats of failed transfers (R26) -/
  repeats : Nat := 0
  /-- declared lost by die S, by die C: outputs held off until POR or RST_N (R27) -/
  lostS : Bool := false
  lostC : Bool := false
  /-- VCORE is held at 0.88 V (R507) -/
  boost : Bool := false
  /-- axis contexts by number -/
  ctx : Tbl Ctx := []
  /-- last feedback by axis -/
  fb : Tbl Fb := []
  /-- regions by number -/
  region : Tbl Region := []
  /-- TJ has been measured since reset (R24) -/
  measured : Bool := false
  deriving DecidableEq, Repr

/-- A source slot of the angle unit (R50 to R54, R532). Keys and speeds are in 2^-16 angle counts, a key modulo 2^80. -/
structure Src where
  /-- key with its fraction -/
  key : Nat := 0
  /-- last count the source was converted at -/
  cnt : Nat := 0
  /-- remainder of the division by DEN (R52) -/
  rem : Nat := 0
  /-- speed of the last tick (R50) -/
  speed : Int := 0
  /-- consecutive ticks SUSPECT (R54) -/
  susp : Nat := 0
  /-- consecutive ticks in agreement with the reference (R58) -/
  agree : Nat := 0
  /-- consecutive ticks of zero speed (R57) -/
  zero : Nat := 0
  /-- consecutive ticks a network source has been extrapolated (R53) -/
  extrap : Nat := 0
  /-- a frame with the source's value has arrived: its count and its sample time in ns (R53) -/
  frame : Option (Nat × Nat) := none
  /-- key measured at the last frame (R53) -/
  meas : Nat := 0
  /-- a frame has been taken since the start -/
  seen : Bool := false
  /-- sample time of the last frame taken -/
  when : Nat := 0
  /-- restart at the next tick (R532) -/
  restart : Bool := false
  deriving DecidableEq, Repr

/-- The machine angle unit. -/
structure AngSt where
  /-- voted angle key with its fraction, in 2^-16 counts modulo 2^80 (R49) -/
  key : Nat := 0
  /-- voted speed, Q32.16 (R50) -/
  speed : Int := 0
  /-- speed of the virtual master, Q32.16 (R59) -/
  vm : Int := 0
  /-- source slots -/
  src : Tbl Src := []
  /-- consecutive ticks two usable sources have differed (Table 2.1) -/
  differ : Nat := 0
  /-- the angle unit has run its first tick (R51) -/
  run : Bool := false
  /-- it has run since reset: the initial values of R51 are taken -/
  ever : Bool := false
  /-- a RESUME has been accepted and acts at the next tick (R57) -/
  resume : Bool := false
  deriving DecidableEq, Repr

/-- A delay-list entry (Table 2.2). -/
structure DEnt where
  key : Nat
  act : Word
  pay : Word
  /-- the entry released late waits for offset 0 (R65) -/
  late : Bool := false
  deriving DecidableEq, Repr

/-- Producers of delay-list entries (Table 2.4, R477). -/
inductive Prod where
  | profile | timed | step | changeover | post | steward
  deriving DecidableEq, Repr

/-- An insertion of an internal producer held back by a full list (R71). -/
structure Held where
  prod : Prod
  obj : Nat
  list : Nat
  ent : DEnt
  ticks : Nat := 0
  deriving DecidableEq, Repr

/-- A ready-list entry: an axis context, or a background lane task with its two data words (R67). -/
structure REnt where
  id : Nat
  rel : Nat
  d0 : Word := 0
  d1 : Word := 0
  deriving DecidableEq, Repr

/-- The operation of a port's insertion registers under way (R61). -/
structure InsOp where
  ins : Bool
  list : Nat
  ent : DEnt
  deriving DecidableEq, Repr

/-- The inputs of the second context of an L-G pair (R112). -/
structure LawSnd where
  axis : Nat
  pMeas : Int
  pSet : Int
  vSet : Int
  aSet : Int
  v1 : Int
  torqueOff : Bool
  off : Bool := false
  deriving DecidableEq, Repr

/-- The inputs a law task has taken at dispatch (R84). -/
structure LawIn where
  axis : Nat
  rel : Nat
  pMeas : Int
  pSet : Int
  vSet : Int
  aSet : Int
  v1 : Int
  v2 : Int
  vbus : Int
  torqueOff : Bool
  /-- P_f of R109 and the still-water scale of R111 -/
  pf : Nat
  sw : Int
  /-- the axis was in OFF, or a TORQUE_OFF reaction latched, at dispatch (R116) -/
  off : Bool := false
  /-- the second context of an L-G pair -/
  second : Option LawSnd := none
  deriving DecidableEq, Repr

/-- What a unit runs (R11). -/
inductive Job where
  | law (i : LawIn)
  | lane (task : Nat)
  deriving DecidableEq, Repr

/-- A unit as the scheduler sees it. -/
structure UnitSt where
  job : Option Job := none
  /-- ns on network time at which the job began -/
  since : Nat := 0
  /-- busy ns in this statistics window (R74) -/
  busy : Nat := 0
  /-- the window holds the first basic cycle after a clock change (R76) -/
  clkchg : Bool := false
  /-- the unit ran the economy clock in this window -/
  econ : Bool := false
  /-- a waiting release has asked the unit to yield (R69) -/
  yield : Bool := false
  deriving DecidableEq, Repr

/-- Running statistics of one quantity: maximum, sum and number of samples (R74). -/
structure Stat where
  max : Nat := 0
  sum : Nat := 0
  n : Nat := 0
  deriving DecidableEq, Repr

/-- The hardware scheduler. -/
structure SchSt where
  /-- the first tick has occurred (R60) -/
  started : Bool := false
  /-- delay lists DL0 to DL3 -/
  dl : Tbl (List DEnt) := []
  /-- insertion under way by port number -/
  ins : Tbl (Option InsOp) := []
  /-- entries placed in the current basic cycle with their offset, to be carried out (R65) -/
  placed : List (DEnt × Nat) := []
  /-- producers held back, in the order they were first held back -/
  held : List Held := []
  /-- ready lists by 4 × region + class (3 background) -/
  ready : Tbl (List REnt) := []
  /-- units by number -/
  unit : Tbl UnitSt := []
  /-- consecutive overruns of a context, and whether its present release has counted one (R70) -/
  ovr : Tbl Nat := []
  ovrHere : Tbl Bool := []
  /-- depth statistics of the delay lists, of the ready lists, and waiting times by class -/
  dlStat : Tbl Stat := []
  rlStat : Tbl Stat := []
  waitStat : Tbl Stat := []
  /-- number of the last 128 ns instant of network time at which the depths were sampled (R74) -/
  sampled : Nat := 0
  /-- the statistics of this window have been published (R75) -/
  published : Bool := false
  deriving DecidableEq, Repr

/-- The law engine's hidden state of an axis context (chapter 3). -/
structure AxLaw where
  /-- causes whose condition is present, bit c - 1 for cause c (R124, R128) -/
  causes : Nat := 0
  /-- a spring ramp starts at the next sample (R118) -/
  srStart : Bool := false
  /-- a spring ramp runs (R118) -/
  srOn : Bool := false
  /-- the next sample carries a commit with BL set: u_hold are the last outputs (R123) -/
  bl : Bool := false
  /-- the last mode was MANUAL: the transfer presets the integrators (R119) -/
  fromMan : Bool := false
  /-- output in force: reference or q voltage in Q1.31, the compares of the edges, and the position set-point (R82) -/
  outU : Int := 0
  outE : List Nat := []
  outP : Int := 0
  outV : Int := 0
  /-- an edge programme of a local axis on its way to die S: its compares, none for the off state (R256, R257) -/
  prog : Option (List Nat) := none
  /-- the last law task released its outputs (R102) -/
  fresh : Bool := false
  /-- outputs held off (R116) -/
  off : Bool := true
  /-- the last law task that ended held the outputs off by R116 -/
  idle : Bool := true
  /-- p_set and p_meas of the last sample -/
  pSet : Int := 0
  pMeas : Int := 0
  /-- consecutive samples within the position tolerance of a safety zone (R410) -/
  still : Nat := 0
  stillPos : Int := 0
  deriving DecidableEq, Repr

/-- The law engine. -/
structure LawSt where
  ax : Tbl AxLaw := []
  /-- law tiles of the resident recipe store by axis (R122, R129) -/
  store : Tbl (List Word) := []
  /-- an accepted commit waiting to be installed: axis and BL (R122) -/
  tub : Option (Nat × Bool × Who) := none
  /-- axis of a requested snapshot (R123) -/
  snap : Option Nat := none
  deriving DecidableEq, Repr

/-- A piece of a planned profile: its jerk in 2^-80 counts/s³ and its duration in 2^-80 s (Table 4.2). -/
structure Seg where
  jerk : Int
  dur : Int
  deriving DecidableEq, Repr

/-- A planned profile from a state, evaluated exactly at each sample (R140). -/
structure Plan where
  /-- start velocity and acceleration in 2^-80 counts/s, counts/s² -/
  v0 : Int
  a0 : Int
  segs : List Seg
  /-- start and end position, Q40.24 -/
  p0 : Int
  target : Int
  /-- ns since the start -/
  t : Nat := 0
  /-- the time in 2^-80 s at which deceleration (J3) begins (Table 4.3) -/
  tDec : Int := 0
  /-- after its segments the motion goes on at the last velocity (the searches of homing) -/
  run : Bool := false
  deriving DecidableEq, Repr

/-- The offset planner of registration shifts (R178). -/
structure Shift where
  /-- offset and its velocity and acceleration, per sample Q40.24 -/
  o : Int := 0
  v : Int := 0
  a : Int := 0
  plan : Option Plan := none
  /-- distance requested since the last tick (R177) -/
  req : Int := 0
  deriving DecidableEq, Repr

/-- The limit tracker (R151). -/
structure Track where
  o : Int
  w : Int
  aTot : Int
  run : Nat := 0
  deriving DecidableEq, Repr

/-- The transition segment of a changeover (R185): trigger key and length, the boundary values y, L·s, L²·c of the old cam at K and of the new cam at K + L in 2^-88 counts, the new cam and its offset. -/
structure Trans where
  key : Nat
  len : Nat
  y0 : Int
  s0 : Int
  c0 : Int
  y1 : Int
  s1 : Int
  c1 : Int
  camId : Nat
  ofs : Int
  deriving DecidableEq, Repr

/-- Coupling of an axis in GEAR or CAM. -/
structure Couple where
  /-- last master key (2^-16 counts modulo 2^80, or Q40.24) and whether one has been taken -/
  last : Option Int := none
  /-- remainder, previous quotient and demand of the gear (R163) -/
  rem : Int := 0
  qPrev : Int := 0
  pd : Int := 0
  vd : Int := 0
  ad : Int := 0
  /-- cam coupled, its added offset (STROKE multiples and the relative offset) (R175) -/
  camId : Nat := 0
  ofs : Int := 0
  /-- last x of the cam with its fraction, and the engage awaits its first demand -/
  x : Nat := 0
  fresh : Bool := true
  rel : Bool := false
  /-- transition of a changeover: R185 -/
  trans : Option Trans := none
  deriving DecidableEq, Repr

/-- A command waiting for the first tick after its write (R136). -/
inductive GReq where
  | stop (flush : Bool)
  | quick
  | gear
  | cam (rel : Bool)
  | home
  deriving DecidableEq, Repr

/-- A generator (R132). -/
structure Gen where
  p : Int := 0
  v : Int := 0
  a : Int := 0
  /-- per-sample values handed to the law engine -/
  pOut : Int := 0
  vOut : Int := 0
  aOut : Int := 0
  /-- those computed for the sample of the next basic cycle (R136) -/
  next : Option (Int × Int × Int) := none
  /-- targets of the queue, entry 0 the active move (R141) -/
  queue : List Int := []
  plan : Option Plan := none
  /-- a quick stop runs (R148) -/
  quick : Bool := false
  /-- commands and limit changes waiting for the next tick (R136, R143) -/
  req : Option GReq := none
  limDirty : Bool := false
  /-- requests and limit changes written before the last tick act now (R136) -/
  ripe : Bool := false
  /-- gear ratio in force, and one that applies from the next tick (R165) -/
  num : Int := 1
  den : Nat := 1
  ratio : Option (Int × Nat) := none
  /-- limits the active plan runs with: V, A, D, J (R145, R146) -/
  lims : List Nat := []
  cpl : Option Couple := none
  trk : Option Track := none
  shift : Shift := {}
  /-- homing: position at the start, edge latched at the reference point, index awaited (R157 to R162) -/
  homeStart : Int := 0
  homeRef : Option Int := none
  /-- debounced levels of the home, positive and negative limit switches -/
  sw : Nat := 0
  deriving DecidableEq, Repr

/-- A changeover slot (R180 to R187). -/
structure CoSlot where
  recipe : Nat := 0
  list : Nat := 0
  /-- trigger key (cycle:angle) and transition length -/
  key : Nat := 0
  len : Nat := 0
  /-- tiles staged for it -/
  tiles : List Nat := []
  deriving DecidableEq, Repr

/-- The profile and cam engine. -/
structure MotSt where
  gen : Tbl Gen := []
  /-- the set-points of the next basic cycle have been computed (R136) -/
  computed : Bool := false
  co : Tbl CoSlot := []
  /-- tiles verified for an axis's window, newest first (R173) -/
  win : Tbl (List Nat) := []
  deriving DecidableEq, Repr

/-- The lane registers a HIGH task's shadow bank saves (Table 5.1, R241). -/
structure LaneRegs where
  /-- D0 to D7; in a Lagoon pair W0 to W7 (R218) -/
  d : List Nat := [0, 0, 0, 0, 0, 0, 0, 0]
  /-- ACC, 40 bits signed; in a Lagoon pair JACC, 56 bits -/
  acc : Int := 0
  tr : Word := 0
  a : List Nat := [0, 0, 0, 0]
  m : List Int := [0, 0, 0, 0]
  b : List Nat := [0, 0, 0, 0]
  l : List Nat := [0, 0, 0, 0]
  /-- LSTAT (Table 5.3) -/
  stat : BitVec 16 := 0
  pc : Nat := 0
  /-- return stack, newest first -/
  stk : List Nat := []
  /-- loop levels 0 and 1 are active -/
  act0 : Bool := false
  act1 : Bool := false
  deriving DecidableEq, Repr

/-- Values as they stood before one of the last issues, for the result distances of Table 6.2. -/
structure LaneHist where
  d : List Nat
  late : Option (Nat × Nat)
  acc : Int
  stat : BitVec 16
  deriving DecidableEq, Repr

/-- Where execution goes after the delay slots (R208, R229). -/
inductive After where
  | jump (pc : Nat)
  | fin
  deriving DecidableEq, Repr

/-- A signal lane (chapters 5 and 6). -/
structure Lane where
  r : LaneRegs := {}
  lc0 : Nat := 0
  ls0 : Nat := 0
  le0 : Nat := 0
  lc1 : Nat := 0
  ls1 : Nat := 0
  le1 : Nat := 0
  /-- issues of the next instruction still to come under RPT (R230) -/
  rpt : Option Nat := none
  /-- delay slots still to issue, and what follows them (R228) -/
  slots : Option (Nat × After) := none
  /-- before the last issue, and the two before it (R225) -/
  hist : List LaneHist := []
  /-- the last issue was QSTEP or NRM: its Dd and the value before (Table 6.2) -/
  late : Option (Nat × Nat) := none
  /-- the last issue was an MTS: its SPEC and the value before (Table 6.2, R226) -/
  mts : Option (Nat × Int) := none
  /-- V40 and G settings of the last two issues, not yet committed, newest first (R226) -/
  stick : List (Bool × Bool) := []
  /-- descriptor slot of the task in the registers, and its release time -/
  cur : Option Nat := none
  rel : Nat := 0
  /-- that task is suspended by a law task (R240) -/
  susp : Bool := false
  /-- the LOW task in the shadow bank: slot, release time, registers (R241) -/
  shadow : Option (Nat × Nat × LaneRegs) := none
  /-- issues since the task was last given the lane -/
  issued : Nat := 0
  /-- issues counted when a yield was asked for (R242) -/
  asked : Option Nat := none
  /-- the last issue was at LE and another iteration starts (R245) -/
  again : Bool := false
  /-- capture FIFO by descriptor slot, oldest first (R237) -/
  cap : Tbl (List Nat) := []
  /-- 64-bit values latched by IN of port 0 and of port 4 (R237) -/
  lat0 : Nat := 0
  lat4 : Nat := 0
  /-- HOLDOFF_MAX in force (R243; reset 0x40) -/
  holdoff : Nat := 0x40
  deriving DecidableEq, Repr


/-- A bridge channel on die S (R250 to R257). -/
structure Chan where
  /-- active compares (R254; the shadows are BR_RISE and BR_FALL) -/
  rise : Nat := 0x3FFFFF
  fall : Nat := 0x3FFFFF
  /-- levels of the pins BRnH and BRnL -/
  pinH : Bool := false
  pinL : Bool := false
  /-- a turn-on delayed by the dead time: of BRnH (true) or BRnL (R253) -/
  dead : Option Bool := none
  deriving DecidableEq, Repr

/-- A timed-output edge inserted in a delay list (R280): its raw cycle:angle, its key and the speed at its insertion. -/
structure TEdge where
  raw : Nat
  key : Nat
  spd : Int
  deriving DecidableEq, Repr

/-- A timed output (R279 to R284). -/
structure TOut where
  /-- enabled pairs in force, ON and OFF angle (R279, R283) -/
  pairs : List (Nat × Nat) := []
  /-- a table that takes over from a machine cycle on (R283) -/
  next : Option (Nat × List (Nat × Nat)) := none
  /-- next ON and next OFF inserted (R280) -/
  on : Option TEdge := none
  off : Option TEdge := none
  /-- edges placed: time on the network clock in ns, and whether it is an ON edge -/
  placed : List (Nat × Bool) := []
  /-- steps placed: start in ns and direction (R284) -/
  steps : List (Nat × Bool) := []
  /-- steps carried into the next sample, signed (R284) -/
  carry : Int := 0
  /-- start and width in ns of the last step pulse, and the number of pulses -/
  pulse : Nat × Nat := (0, 0)
  pulses : Nat := 0
  /-- set-point of the last sample of the step axis -/
  p0 : Option Int := none
  /-- level of the DIR pin of a pair -/
  dir : Bool := false
  deriving DecidableEq, Repr

/-- An encoder interface (R273 to R276). -/
structure EncSt where
  /-- present count, u32 -/
  cnt : Nat := 0
  /-- accepted levels of A and B -/
  a : Bool := false
  b : Bool := false
  /-- last good SSI value, consecutive good frames, and a frame is running -/
  ssi : Option Nat := none
  good : Nat := 0
  busy : Bool := false
  deriving DecidableEq, Repr

/-- Still-water reduction of an axis (R278). -/
structure Still where
  sw : Int := 2147483647
  /-- standstill samples so far -/
  n : Nat := 0
  /-- the ramp begins at the next sample -/
  armed : Bool := false
  /-- sample of the ramp, and sw at its start -/
  k : Nat := 0
  sw0 : Int := 2147483647
  deriving DecidableEq, Repr

/-- The outputs and inputs of die S and the input blocks (chapter 7). -/
structure EdgeSt where
  chan : Tbl Chan := []
  /-- modules that wait for their first sync point (R259) -/
  wait : List Nat := []
  /-- register words on the data link on their way to die S, oldest first (R254) -/
  fly : List (Nat × Word) := []
  /-- debug holds the counters and every pin (R261) -/
  frozen : Bool := false
  out : Tbl TOut := []
  enc : Tbl EncSt := []
  still : Tbl Still := []
  deriving DecidableEq, Repr


/-- A frame the head has sent: its form and its octets from the destination address, or from the Halom header of a compact frame, to the check field. -/
structure TxFrame where
  compact : Bool
  bytes : List (BitVec 8)
  deriving DecidableEq, Repr

/-- The bring-up of a link and its delay measurement (R290, R348). -/
structure LinkSt where
  /-- MAXVER, SERIAL and PORTID of the last LINK frame, and how many in a row were equal -/
  last : Option (Nat × Nat × Nat) := none
  eq : Nat := 0
  /-- a LINK frame with SW = 1 has been received; frames sent with SW = 1 -/
  swRx : Bool := false
  swTx : Nat := 0
  /-- MIR waits 10 ms after a failed bring-up (R293) -/
  hold : Bool := false
  /-- EtherType of line frames since this bring-up (R295) -/
  etype : Nat := 0x88B5
  /-- a DELAY exchange under way: its SEQ and T1 in 2^-8 ns; the last SEQ -/
  dreq : Option (Nat × Int) := none
  dseq : Nat := 0
  /-- delays of the last 16 exchanges, newest first, in 2^-9 ns -/
  dels : List Int := []
  /-- the frame sent last -/
  tx : Option TxFrame := none
  deriving DecidableEq, Repr

/-- A first copy that the later copy of the other channel is compared with (R304 to R306). -/
structure Copy where
  typ : Nat
  src : Nat
  key : List (BitVec 8)
  chB : Bool
  hdr : Nat
  pay : List (BitVec 8)
  /-- the instant it became valid, in 2^-8 ns of network time -/
  t : Int
  deriving DecidableEq, Repr

/-- A frame that waits for an arbitrating window (R326): its type and payload. -/
structure Turn where
  typ : Nat
  pay : List (BitVec 8)
  deriving DecidableEq, Repr

/-- A node (R326 to R339). -/
structure NodeSt where
  serial : Nat := 0
  maxver : Nat := 0
  fwver : Nat := 0
  fwd : Nat := 0
  nax : Nat := 0
  nin : Nat := 0
  /-- REQ of the latest valid feedback frame -/
  req : Bool := false
  /-- node inputs of the last frame used -/
  inp : List (BitVec 8) := []
  /-- copies that have arrived in the present slot on A and on B; one inside its window has been used -/
  onA : Bool := false
  onB : Bool := false
  used : Bool := false
  /-- axes whose record was refused in this slot (R301) -/
  bad : List Nat := []
  /-- consecutive FEEDBACK slots without a frame (R338) -/
  miss : Nat := 0
  /-- consecutive basic cycles with feedback inside the windows (R337, R339) -/
  run : Nat := 0
  /-- downloads that have failed, and the acknowledgement of the present and of the next generation (R335, R322) -/
  fails : Nat := 0
  acked : Bool := false
  ackNext : Bool := false
  deriving DecidableEq, Repr

/-- A segment (R326, R333 to R339). -/
structure SegSt where
  /-- basic cycles in SYNC -/
  sync : Nat := 0
  /-- answers of the running DISCOVER round: position, SERIAL, NTYPE, SRC; those of the round before -/
  disc : List (Nat × Nat × Nat × Nat) := []
  prev : Option (List (Nat × Nat × Nat × Nat)) := none
  /-- an unlisted node is present (R335) -/
  alien : Bool := false
  /-- a link has come up since the last round (R339) -/
  linkUp : Bool := false
  /-- end of the arbitrating window being served, in ns after the basic-cycle start -/
  window : Option Nat := none
  /-- frames that wait for a window -/
  todo : List Turn := []
  /-- the poll-table entry after the last one served; the next PSEQ; the poll under way: entry, node -/
  next : Nat := 0
  pseq : Nat := 0
  poll : Option (Nat × Nat) := none
  /-- the service answer received last -/
  svc : List (BitVec 8) := []
  /-- copies whose later copy may still arrive -/
  copies : List Copy := []
  deriving DecidableEq, Repr

/-- The command of an axis: its CYC, CTL and record or descriptor bytes (R366, Table 8.14). -/
structure Cmd where
  cyc : Nat
  ctl : Nat
  body : List (BitVec 8)
  deriving DecidableEq, Repr

/-- The network side of an axis context (R323, R324). -/
structure AxNet where
  /-- SEQ of its last descriptor (Table 7.6) -/
  seq : Nat := 0
  /-- CYC and instant (2^-8 ns of network time) of the feedback that released the present sample; it was missing -/
  rel : Option (Nat × Int × Bool) := none
  /-- the present sample's law task has ended, and its command has not left -/
  done : Bool := false
  /-- the command of the last sample whose law task has ended has not left -/
  unsent : Bool := false
  /-- the last command -/
  cmd : Option Cmd := none
  deriving DecidableEq, Repr

/-- The network engine (chapters 8 and 9). -/
structure NetSt where
  link : Tbl LinkSt := []
  seg : Tbl SegSt := []
  node : Tbl NodeSt := []
  ax : Tbl AxNet := []
  /-- node list of the image; master ranks the schedule configures (R351); segments it uses -/
  nodes : List NodeEnt := []
  ranks : List Nat := []
  used : List Nat := []
  /-- the schedule in force, none before an image loads it, and the next generation (R322) -/
  gen : Option SchedGen := none
  next : Option SchedGen := none
  /-- the switch is armed -/
  armed : Bool := false
  deriving DecidableEq, Repr

/-- The IEEE 1588 ordinary clock (R355). -/
structure PtpSt where
  /-- best foreign master -/
  best : Option PtpDs := none
  /-- a two-step Sync that waits for its Follow_Up: sequence, local receipt in ns -/
  sync : Option (Nat × Int) := none
  /-- origin and receipt of the last Sync, in 2^-16 ns -/
  t12 : Option (Int × Int) := none
  /-- a delay request under way: sequence and local transmission; a peer answer that waits for its follow-up: t2, t4 -/
  req : Option (Nat × Int) := none
  peer : Option (Int × Int) := none
  reqSeq : Nat := 0
  syncSeq : Nat := 0
  /-- path delay in 2^-16 ns -/
  delay : Int := 0
  /-- consecutive Syncs within 1 µs -/
  near : Nat := 0
  /-- the message sent last, from its first header byte -/
  tx : List (BitVec 8) := []
  deriving DecidableEq, Repr

/-- The time unit (chapter 9). -/
structure TimeSt where
  /-- network time in ns, TIME_ERA plus WRAP_PEND in bits [63:32] and TIME_NS below (R341, R342), as of the last event that carries a time -/
  ns : Nat := 0
  /-- network time at which the present basic cycle began (R315) -/
  start : Nat := 0
  /-- start and CYC of the next basic cycle when the grid is newly set (R354) -/
  grid : Option (Nat × Nat) := none
  /-- the increment in force, Q8.32 ns (R341, R349) -/
  inc : Nat := 4 * 2 ^ 32
  /-- integral of the servo (R349) -/
  integ : Int := 0
  /-- consecutive REFs within, and above, 20 ns (R349) -/
  near : Nat := 0
  far : Nat := 0
  /-- consecutive basic cycles in which no REF arrived (R353) -/
  missed : Nat := 0
  /-- the management port's clock -/
  ptp : PtpSt := {}
  deriving DecidableEq, Repr

/-- What a head keeps of an axis's last sample for the pair (R367 to R370). -/
structure Shadow where
  cyc : Nat := 0
  w63 : Word := 0
  miss : Bool := false
  /-- a sample has run -/
  ran : Bool := false
  /-- the next sample is the first after a tile was installed (R369) -/
  fresh : Bool := false
  /-- inputs and set-point of the sample -/
  keep : Option LawIn := none
  deriving DecidableEq, Repr

/-- A frame of a mirror transfer as it was sent (Table 10.2). -/
inductive MirFrame where
  | digest (es : List (Nat × Nat × Word))
  | tile (ax reason scyc : Nat) (tile : List Word) (gen : GenRec)
  | record (r : MirRec)
  | commit (nfr level : Nat) (lkey : Word) (ang : MirAngle)
  | keep
  | ack (mseq pstate : Nat) (rseq lkey : Word) (level : Nat) (reqs : List Nat)
  deriving DecidableEq, Repr

/-- A record of the active head: applied once at its EFF_CYC, sent until an ACK covers it (R376 to R378). The port tells where its insertion and staged words lie. -/
structure OutRec where
  r : MirRec
  port : Port
  placed : Bool := false
  applied : Bool := false
  deriving DecidableEq, Repr

/-- A transfer under reception (R374). -/
structure MirRx where
  mseq : Nat
  frames : Nat := 0
  tiles : List (Nat × Nat × Nat × List Word × GenRec) := []
  recs : List MirRec := []
  deriving DecidableEq, Repr

/-- The redundancy block (chapter 10). -/
structure PairSt where
  /-- die C requests the lead (R359) -/
  req : Bool := false
  /-- level of LEAD_OUT -/
  out : Bool := false
  /-- an edge has arrived on LEAD_IN within the gap time (R360) -/
  edge : Bool := false
  /-- a rank 1 head waits LEAD_WAIT (R363) -/
  wait : Bool := false
  /-- a MIRROR frame of the partner has arrived -/
  heard : Bool := false
  /-- partner: strap of the address in its frames, PAIR_STATE, COMPAT.LEVEL -/
  pstrap : Option Bool := none
  pstate : Nat := 0
  plevel : Nat := 0
  shadow : Tbl Shadow := []
  /-- commands of the active head that wait for their own: axis, CYC, CTL, compared bytes (R366) -/
  expect : List (Nat × Nat × Nat × List (BitVec 8)) := []
  /-- divergences in this statistics window; compares and divergences in this basic cycle (R369, R387) -/
  divWin : Nat := 0
  cmp : Nat := 0
  div : Nat := 0
  /-- axes to request in the next ACK (R370), and axes requested by the partner, oldest first (R373) -/
  want : List Nat := []
  asked : List Nat := []
  /-- next context of the rotation -/
  rot : Nat := 0
  /-- axes whose tile goes with REASON 3, and with REASON 2 (R379, R386) -/
  changedC : List Nat := []
  copy : List Nat := []
  /-- axes installed in this RESYNC -/
  got : List Nat := []
  /-- last RSEQ given, records of this head, records held until their EFF_CYC -/
  rseq : Nat := 0
  recs : List OutRec := []
  held : List MirRec := []
  rx : Option MirRx := none
  /-- angle block to compare at the tick of a CYC, and one to load at the next tick (R374) -/
  ang : Option (Nat × MirAngle) := none
  load : Option MirAngle := none
  /-- basic cycles since the last transfer accepted or ACK received (R375) -/
  since : Nat := 0
  /-- a transfer has been accepted, which MSEQ then follows -/
  began : Bool := false
  /-- SWITCHOVER has been accepted (R388) -/
  swo : Bool := false
  /-- the frames sent last on MIR -/
  sent : List MirFrame := []
  deriving DecidableEq, Repr

/-- What one channel holds of a zone (chapter 11). -/
structure ZoneCh where
  /-- the channel vetoes the other channel's line (R392) -/
  veto : Bool := false
  /-- its line is in a dark pulse; a pulse waits for line A's (R406); the readback of the pulse is discarded (R407) -/
  dark : Bool := false
  heldPulse : Bool := false
  discard : Bool := false
  /-- the zone was READY at the rising edge; an acknowledge has been accepted (R399, R400) -/
  ready : Bool := false
  acc : Bool := false
  /-- standstill and timeout notices (R410, R411) -/
  still : Bool := false
  timeout : Bool := false
  /-- zone faults held, bit c for cause c (Table 11.4) -/
  faults : Nat := 0
  deriving DecidableEq, Repr

/-- What both channels share of a zone. -/
structure ZoneSt where
  a : ZoneCh := {}
  b : ZoneCh := {}
  /-- a demand is present; the zone entered OFF through one (R403) -/
  dem : Bool := false
  byDem : Bool := false
  /-- level EDMz must reach within the EDM window (R401) -/
  edmDue : Option Bool := none
  deriving DecidableEq, Repr

/-- A cross frame: its sequence number, zone states, acceptances, notices, zone faults, device fault and signature (R393). -/
structure XFrame where
  seq : Nat := 0
  states : List Nat := []
  acc : List Bool := []
  still : List Bool := []
  timeout : List Bool := []
  faults : List Nat := []
  dev : Nat := 0
  sig : Word := 0
  /-- corrupted on its way by a fault injection (R481, Table 13.10) -/
  bad : Bool := false
  deriving DecidableEq, Repr

/-- A safety log record (Table 11.8). -/
structure SafeRec where
  seq : Nat
  time : Nat
  port : Nat
  role : Nat
  session : Nat
  object : Nat
  oldCrc : Word
  newCrc : Word
  result : Nat
  sigOld : Word
  sigNew : Word
  deriving DecidableEq, Repr

/-- The safety block. -/
structure SafetySt where
  zone : Tbl ZoneSt := []
  /-- inputs whose lines have shown their demand levels together since the last reset (R398) -/
  shown : List Nat := []
  /-- the frame each channel sent last, and the sequence number each received last; channel A, then B -/
  sentA : XFrame := {}
  sentB : XFrame := {}
  rxA : Nat := 0
  rxB : Nat := 0
  /-- device fault each channel knows -/
  devA : Nat := 0
  devB : Nat := 0
  /-- staged words of the session (R417), and the port and number of the session -/
  staged : Tbl (Option Word) := []
  sess : Option (Port × Nat) := none
  /-- the words a CONFIRM changes, while it waits for the NVM write, with its port and session (R418) -/
  confirm : Option (List (Nat × Word) × Port × Nat) := none
  /-- consecutive failed passwords, and the network time at which a lockout ends (R417) -/
  fails : Nat := 0
  lockEnd : Nat := 0
  /-- the safety section in NVM -/
  sec : Option SafeSec := none
  /-- the last 1,024 records in NVM, oldest first (R419) -/
  log : List SafeRec := []
  deriving DecidableEq, Repr

/-- Start-up, image and reset state (chapter 12). -/
structure BootSt where
  flash : Flash := {}
  /-- register values of the installed image: what the steward rewrites after a reset (R496) -/
  img : List (Nat × Word) := []
  /-- MODE the SYSTEM section gives each axis, and the axes that wait for their zone to enter AUTO (R434) -/
  modes : List (Nat × Nat) := []
  autoWait : List Nat := []
  /-- resident recipe banks (R447), and the RECIPE section a bank in LOADING is loaded from -/
  bank : Tbl Recipe := []
  load : Option (Nat × Nat) := none
  /-- a loaded bank that travels to the standby: bank, section, number of its last record (R448) -/
  travel : Option (Nat × Nat × Nat) := none
  /-- lane tasks in place: unit, task (R43) -/
  lanes : List (Nat × LaneTask) := []
  /-- a cause of a failed start stands in BOOT_CAUSE (R440) -/
  recorded : Bool := false
  /-- straps TEST1, TEST0 as sampled at POR (R503); the start waits for a JTAG unlock, with the regions that will fail their test (R480) -/
  test : BitVec 2 := 0
  ftmWait : Option (BitVec 4 × List Nat) := none
  /-- reset is held by a thermal shutdown (R510) -/
  held : Bool := false
  /-- an IMG_END waits for the job to end: port, session, TAG (R466) -/
  ended : Option (Nat × Nat × Nat) := none
  deriving DecidableEq, Repr

/-- A change-log record (Table 13.7). -/
structure LogRec where
  seq : Nat
  sub : Nat
  head : Nat
  origin : Nat
  kind : Nat
  time : Nat
  session : Nat
  result : Nat
  object : Nat
  oldCrc : Word
  newCrc : Word
  detail : Nat
  deriving DecidableEq, Repr

/-- An HSP session (R460). -/
structure Session where
  num : Nat
  port : Port
  role : Nat
  /-- next expected TAG (R463) -/
  exp : Nat
  /-- event queues and line changes subscribed to (R467) -/
  qmask : Nat := 0
  diag : Bool := false
  /-- event sequence (R467) -/
  evSeq : Nat := 0
  deriving DecidableEq, Repr

/-- A request that has been received and not yet executed (R463, R464). -/
structure Req where
  sess : Nat
  tag : Nat
  op : Nat
  pay : List (BitVec 8)
  deriving DecidableEq, Repr

/-- A message the head has sent or waits to send, with the event queue it came from. -/
structure Msg where
  bytes : List (BitVec 8)
  queue : Option Nat := none
  deriving DecidableEq, Repr

/-- A host port's protocol state (R456 to R469). -/
structure HPort where
  /-- bound peer of the Ethernet port: IPv4 address and UDP port (R456) -/
  peer : Option (Word × BitVec 16) := none
  /-- EXP of SESSION 0, none before a HELLO (R463) -/
  exp0 : Option Nat := none
  /-- stored responses: session, TAG, message (R463) -/
  stored : List (Nat × Nat × List (BitVec 8)) := []
  /-- requests waiting for a predecessor (R463), at most 8 (R464) -/
  queue : List Req := []
  /-- a WRITE executed, its response waiting for an ACK: session, TAG, the record number to be covered, the message (R465) -/
  wait : Option (Nat × Nat × Nat × List (BitVec 8)) := none
  /-- waiting messages, oldest first (SPI), or the messages sent (Ethernet, the last one) -/
  out : List Msg := []
  deriving DecidableEq, Repr

/-- The image write job over HSP (R466). -/
structure ImgRx where
  sess : Nat
  port : Port
  len : Nat
  got : Nat
  deriving DecidableEq, Repr

/-- The host block, the change log and the diagnostics. -/
structure HostSt where
  /-- ports by number: 0 SPI target, 1 management Ethernet -/
  port : Tbl HPort := []
  sessions : List Session := []
  /-- last session number given (R460) -/
  lastSess : Nat := 0
  /-- latched words of a port, key port × 2^32 + address (R488) -/
  latch : Tbl Word := []
  /-- low words written and not yet applied, same key (R489) -/
  staged : Tbl (Option Word) := []
  /-- insertion registers of a port, key port × 8 + word (R489) -/
  insReg : Tbl Word := []
  /-- SRAM ring of the change log, oldest first, at most 4,096 (R474) -/
  log : List LogRec := []
  /-- NVM ring of the change log, oldest first (R445) -/
  nvm : List LogRec := []
  /-- records under merging, one a session at most, oldest first (R472) -/
  merge : List LogRec := []
  /-- last SEQ and SUB given (R473) -/
  seq : Nat := 0
  sub : Nat := 0
  /-- records lost and not yet reported (R474) -/
  lost : Nat := 0
  /-- armed fault injection: target, index, occurrences left (R481) -/
  fi : Option (Nat × Nat × Nat) := none
  /-- image job over HSP (R466) -/
  img : Option ImgRx := none
  /-- bytes HSDO carried in the last SPI transaction (R453) -/
  spiOut : List (BitVec 8) := []
  /-- frame the management port sent last: ARP and echo answers (R455) -/
  ethTx : List (BitVec 8) := []
  /-- in-band status of RGMII: link, speed in Mb/s, full duplex (R455) -/
  rgmii : Bool × Nat × Bool := (false, 0, false)
  /-- the model's own record of the last register access: status code of Table 13.4 and the value read -/
  acc : Nat × Word := (0, 0)
  deriving DecidableEq, Repr

/-- Why the block stops: no rule of the spec stops it, so no command raises a fault. -/
inductive Fault where
  deriving DecidableEq, Repr

/-- Why a command has no meaning. -/
inductive Refusal where
  /-- The command is not modelled; raised by its arm of exec alone. Safe: nothing happens. -/
  | notModelled (mnemonic : String)
  deriving DecidableEq, Repr

/-- The state of the block. -/
structure State where
  /-- register and memory words by byte address; an unlisted address holds its reset value (R495, R499) -/
  regs : Tbl Word
  core : CoreSt
  ang : AngSt
  sch : SchSt
  law : LawSt
  mot : MotSt
  /-- signal lanes by unit -/
  lane : Tbl Lane
  edge : EdgeSt
  net : NetSt
  time : TimeSt
  pair : PairSt
  safe : SafetySt
  boot : BootSt
  host : HostSt
  /-- the model's own counter of free values taken (no state of the spec) -/
  freeCtr : Nat
  /-- commands waiting, first in, first out -/
  pending : List Instr
  deriving DecidableEq, Repr

/-- The block right after the release of power-on reset (R441, R495). -/
def State.reset : State :=
  { regs := [], core := {}, ang := {}, sch := {}, law := {}, mot := {}, lane := [], edge := {}, net := {}, time := {}, pair := {}, safe := {}, boot := {}, host := {},
    freeCtr := 0, pending := [] }

end Sys2Proof.Machine
end

