-- ==== Sys2Proof/Machine/Ops.lean ====
section
/-! DEFINITION. The named operations every family uses: register words and their fields, the indexed tables, free values, sediment queues (R476 to R478), the change log (R470 to R474) and the judgement of a register write (R7 to R10, R461, R462, R485, R491, R492). -/

namespace Sys2Proof.Machine
open R

/-! ### Addresses and register words -/

/-- The block an address lies in (Table 14.1); 15 outside the block ranges. -/
def blockNo (a : Nat) : Nat :=
  let p := a / 0x10000
  if p < 4 then p
  else if p < 8 then 4
  else if p < 0x10 then 5
  else if p < 0x20 then 6
  else if p < 0x30 then 7
  else if p = 0x30 then 8
  else if p = 0x31 then 9
  else if p < 0x40 then 10
  else if p < 0x50 then 11
  else if p < 0x60 then 12
  else if p < 0x70 then 13
  else if p < 0x100 then 14
  else 15

/-- The base address of a block (Table 13.8). -/
def blockBase (b : Nat) : Nat :=
  [0x0, 0x10000, 0x20000, 0x30000, 0x40000, 0x80000, 0x100000, 0x200000, 0x300000, 0x310000, 0x320000,
   0x400000, 0x500000, 0x600000, 0x700000].getD b 0

/-- The registers of a block. -/
def blockCls (b : Nat) : List Cls :=
  match b with
  | 0 => block0 | 1 => block1 | 2 => block2 | 3 => block3 | 4 => block4 | 5 => block5 | 6 => block6
  | 7 => block7 | 8 => block8 | 9 => block9 | 10 => block10 | 11 => block11 | 12 => block12
  | 13 => block13 | 14 => block14 | _ => []

/-- An offset is one of the index combinations of a register. -/
def dimsHit : List (Nat × Nat) → Nat → Bool
  | [], o => o == 0
  | (st, c) :: ds, o => decide (o / st < c) && dimsHit ds (o % st)

/-- An address is one of a register's. -/
def clsHit (c : Cls) (a : Nat) : Bool := decide (c.base ≤ a) && dimsHit c.dims (a - c.base)

/-- The register at an address, if the map holds one (R485, R499). -/
def findCls (a : Nat) : Option Cls := (blockCls (blockNo a)).find? fun c => clsHit c a

/-- The bits of a row. -/
def rowMask (r : Row) : Nat := (2 ^ (r.hi - r.lo + 1) - 1) * 2 ^ r.lo

/-- The reset value of the word at an address: that of its field map, else 0. -/
def regReset (a : Nat) : Word :=
  match findCls a with
  | none => 0
  | some c => BitVec.ofNat 32 (c.rows.foldl (fun n r => n + r.reset * 2 ^ r.lo) 0)

/-- The stored word at an address. -/
def rd (s : State) (a : Nat) : Word := Tbl.get regReset s.regs a

/-- Store a word. -/
def wr (s : State) (a : Nat) (v : Word) : State := { s with regs := Tbl.set regReset s.regs a v }

/-- A stored word as a number. -/
def rdN (s : State) (a : Nat) : Nat := (rd s a).toNat

/-- Store a number, modulo 2^32. -/
def wrN (s : State) (a v : Nat) : State := wr s a (BitVec.ofNat 32 v)

/-- The field of a word. -/
def fieldOf (w : Word) (f : Fld) : Nat := w.toNat / 2 ^ f.lo % 2 ^ (f.hi - f.lo + 1)

/-- A word with one field replaced. -/
def withField (w : Word) (f : Fld) (v : Nat) : Word :=
  let m := 2 ^ (f.hi - f.lo + 1)
  BitVec.ofNat 32 (w.toNat - fieldOf w f * 2 ^ f.lo + v % m * 2 ^ f.lo)

/-- Read a field. -/
def fget (s : State) (a : Nat) (f : Fld) : Nat := fieldOf (rd s a) f

/-- Write a field. -/
def fset (s : State) (a : Nat) (f : Fld) (v : Nat) : State := wr s a (withField (rd s a) f v)

/-- A one-bit field is set. -/
def fbit (s : State) (a : Nat) (f : Fld) : Bool := fget s a f == 1

/-- Write a one-bit field. -/
def fput (s : State) (a : Nat) (f : Fld) (b : Bool) : State := fset s a f b.toNat

/-- Add to a field, saturating at its maximum. -/
def fincSat (s : State) (a : Nat) (f : Fld) : State :=
  let m := 2 ^ (f.hi - f.lo + 1) - 1
  fset s a f (min m (fget s a f + 1))

/-- Add 1 to a field, wrapping. -/
def fincWrap (s : State) (a : Nat) (f : Fld) : State := fset s a f (fget s a f + 1)

/-- A 64-bit register pair, low word at `reg 0`. -/
def rd64 (s : State) (reg : Nat → Nat) : Nat := rdN s (reg 0) + rdN s (reg 1) * 2 ^ 32

/-- Write a 64-bit register pair from an integer. -/
def wr64 (s : State) (reg : Nat → Nat) (v : Int) : State :=
  let u := ux 64 v
  wrN (wrN s (reg 0) u) (reg 1) (u / 2 ^ 32)

/-- n words from an address. -/
def rdWords (s : State) (a n : Nat) : List Word := (List.range n).map fun i => rd s (a + 4 * i)

/-- Write words from an address upwards. -/
def wrWords (s : State) : Nat → List Word → State
  | _, [] => s
  | a, w :: ws => wrWords (wr s a w) (a + 4) ws

/-- Write listed words, those with an address from `a` below `b`. -/
def wrRange (a b : Nat) (l : List (Nat × Word)) (s : State) : State :=
  l.foldl (fun s e => if a ≤ e.1 && e.1 < b then wr s e.1 e.2 else s) s

/-- Write an indexed register's words from an index upwards. -/
def wrAll (reg : Nat → Nat) : Nat → List Word → State → State
  | _, [], s => s
  | i, w :: ws, s => wrAll reg (i + 1) ws (wr s (reg i) w)

/-! ### Indexed hidden state -/

/-- A table whose unlisted keys hold one default. -/
def tget {α : Type} (d : α) (t : Tbl α) (k : Nat) : α := Tbl.get (fun _ => d) t k

/-- Write such a table. -/
def tset {α : Type} [DecidableEq α] (d : α) (t : Tbl α) (k : Nat) (v : α) : Tbl α := Tbl.set (fun _ => d) t k v

/-- The keys a table lists, rising. -/
def tkeys {α : Type} (t : Tbl α) : List Nat := t.map (·.1)

def State.ctx (s : State) (n : Nat) : Ctx := tget {} s.core.ctx n
def State.setCtx (s : State) (n : Nat) (c : Ctx) : State := { s with core.ctx := tset {} s.core.ctx n c }
def State.fb (s : State) (n : Nat) : Fb := tget {} s.core.fb n
def State.setFb (s : State) (n : Nat) (c : Fb) : State := { s with core.fb := tset {} s.core.fb n c }
def State.region (s : State) (g : Nat) : Region := tget {} s.core.region g
def State.setRegion (s : State) (g : Nat) (r : Region) : State := { s with core.region := tset {} s.core.region g r }
def State.src (s : State) (n : Nat) : Src := tget {} s.ang.src n
def State.setSrc (s : State) (n : Nat) (r : Src) : State := { s with ang.src := tset {} s.ang.src n r }
def State.dl (s : State) (n : Nat) : List DEnt := tget [] s.sch.dl n
def State.setDl (s : State) (n : Nat) (l : List DEnt) : State := { s with sch.dl := tset [] s.sch.dl n l }
def State.ready (s : State) (g c : Nat) : List REnt := tget [] s.sch.ready (4 * g + c)
def State.setReady (s : State) (g c : Nat) (l : List REnt) : State :=
  { s with sch.ready := tset [] s.sch.ready (4 * g + c) l }
def State.unit (s : State) (u : Nat) : UnitSt := tget {} s.sch.unit u
def State.setUnit (s : State) (u : Nat) (x : UnitSt) : State := { s with sch.unit := tset {} s.sch.unit u x }
def State.axl (s : State) (n : Nat) : AxLaw := tget {} s.law.ax n
def State.setAxl (s : State) (n : Nat) (x : AxLaw) : State := { s with law.ax := tset {} s.law.ax n x }
def State.gen (s : State) (n : Nat) : Gen := tget {} s.mot.gen n
def State.setGen (s : State) (n : Nat) (x : Gen) : State := { s with mot.gen := tset {} s.mot.gen n x }
def State.co (s : State) (n : Nat) : CoSlot := tget {} s.mot.co n
def State.setCo (s : State) (n : Nat) (x : CoSlot) : State := { s with mot.co := tset {} s.mot.co n x }
def State.link (s : State) (p : Nat) : LinkSt := tget {} s.net.link p
def State.setLink (s : State) (p : Nat) (x : LinkSt) : State := { s with net.link := tset {} s.net.link p x }
def State.seg (s : State) (g : Nat) : SegSt := tget {} s.net.seg g
def State.setSeg (s : State) (g : Nat) (x : SegSt) : State := { s with net.seg := tset {} s.net.seg g x }
def State.node (s : State) (n : Nat) : NodeSt := tget {} s.net.node n
def State.setNode (s : State) (n : Nat) (x : NodeSt) : State := { s with net.node := tset {} s.net.node n x }
def State.axn (s : State) (n : Nat) : AxNet := tget {} s.net.ax n
def State.setAxn (s : State) (n : Nat) (x : AxNet) : State := { s with net.ax := tset {} s.net.ax n x }
def State.hport (s : State) (p : Nat) : HPort := tget {} s.host.port p
def State.setHport (s : State) (p : Nat) (x : HPort) : State := { s with host.port := tset {} s.host.port p x }

/-- The axis contexts the image uses, in ascending number. -/
def usedAxes (s : State) : List Nat := (tkeys s.core.ctx).filter fun n => (s.ctx n).used

/-- Apply a state change for each of a list of numbers, in order. -/
def eachN (l : List Nat) (f : Nat → State → State) (s : State) : State := l.foldl (fun t n => f n t) s

/-! ### Free values -/

/-- Take the next free word: nothing constrains it. -/
def takeFree (s : State) : Word × State := (Config.freeWord s.freeCtr, { s with freeCtr := s.freeCtr + 1 })

/-- Take the next free choice. -/
def takeFreeBool (s : State) : Bool × State := (Config.freeBool s.freeCtr, { s with freeCtr := s.freeCtr + 1 })

/-! ### Time and network identity -/

/-- The basic cycle in ns by the code of Table 8.7 (Table 0.3). -/
def tbOf (code : Nat) : Nat := 15625 * 2 ^ min code 4

/-- T_b in ns. -/
def tb (s : State) : Nat := tbOf (fget s NET_CFG NET_CFG_TB)

/-- `k` equal samples join a statistic. -/
def Stat.addN (x : Stat) (k v : Nat) : Stat := { max := Nat.max x.max v, sum := x.sum + k * v, n := x.n + k }

/-- A suspended lane task waits at the front of its background list (R69). -/
def suspended (s : State) (g : Nat) : Nat := ((List.range 8).filter fun i => (tget {} s.lane (8 * g + i)).susp).length

/-- The depths stand as they are for `k` sampling instants. -/
def addDepths (k : Nat) (s : State) : State :=
  let s := eachN [0, 1, 2, 3] (fun l s =>
    { s with sch.dlStat := tset {} s.sch.dlStat l ((tget {} s.sch.dlStat l).addN k (s.dl l).length) }) s
  eachN (List.range 16) (fun i s =>
    let d := (s.ready (i / 4) (i % 4)).length + (if i % 4 = 3 then suspended s (i / 4) else 0)
    { s with sch.rlStat := tset {} s.sch.rlStat i ((tget {} s.sch.rlStat i).addN k d) }) s

/-- The depths are sampled every 128 ns up to an instant (R74). -/
def sampleDepths (ns : Nat) (s : State) : State :=
  let k := ns / 128 - s.sch.sampled
  let s := if k = 0 || !s.sch.started then s else addDepths k s
  { s with sch.sampled := ns / 128 }

/-- Network time reaches an instant: each wrap of TIME_NS on the way increments WRAP_PEND, a 2-bit count (R341, R342). -/
def setNow (ns : Nat) (s : State) : State :=
  if ns ≤ s.time.ns then s
  else
    let s := sampleDepths ns s
    let p := fget s TIME_STATUS TIME_STATUS_WRAP_PEND + (ns / 2 ^ 32 - s.time.ns / 2 ^ 32)
    fset { s with time.ns := (ns - p / 4 * 4 * 2 ^ 32) % 2 ^ 64 } TIME_STATUS TIME_STATUS_WRAP_PEND p

/-- An instant given in 2^-8 ns after the start of the present basic cycle, in 2^-8 ns of network time. -/
def instant (s : State) (ofs : Nat) : Int := s.time.start * 256 + ofs

/-- Network time reaches an instant of the present basic cycle. -/
def reachAt (ofs : Nat) (s : State) : State := setNow (s.time.start + ofs / 256) s

/-- The transmit enable of R360: LEAD_OUT toggles and the partner is quiet. -/
def txEnable (s : State) : Bool := fbit s PAIR_STATUS PAIR_STATUS_LEAD && fbit s PAIR_STATUS PAIR_STATUS_QUIET

/-- The head behaves as revision A (R498, R527). -/
def levelOne (s : State) : Bool := fget s COMPAT COMPAT_LEVEL == 1

/-- The head's address (R503: 0xF0 plus RANK). -/
def haddr (s : State) : Nat := fget s NET_ID NET_ID_HADDR

/-! ### HSP messages and block lines (R457, R467, R478, R479) -/

/-- The port numbers of Table 13.7. -/
def portCode : Port → Nat
  | .spi => 0 | .eth => 1 | .steward => 2

/-- An HSP message (Table 13.2): the CRC covers all before it. -/
def hspMsg (ver mt sess tag op status : Nat) (pay : List (BitVec 8)) : List (BitVec 8) :=
  let m := beOf 1 ver ++ beOf 1 mt ++ beOf 2 (16 + pay.length) ++ beOf 2 sess ++ beOf 2 tag ++ beOf 2 op ++ beOf 1 status ++
    beOf 1 0 ++ pay
  m ++ beBytes (crc32c m)

/-- The version negotiated on a port; 0 none (R459). -/
def hspVer (s : State) (p : Nat) : Nat := fget s HOST_STATUS (if p = 0 then HOST_STATUS_VER_SPI else HOST_STATUS_VER_ETH)

/-- A message goes out: on the SPI target it waits for GET, on the Ethernet port it is sent (R453, R455). -/
def sendMsg (p : Nat) (m : Msg) (s : State) : State :=
  let h := s.hport p
  s.setHport p { h with out := if p = 0 then h.out ++ [m] else [m] }

/-- The line of a block (R478). -/
def lineOf (s : State) (b : Nat) : Bool :=
  fget s (DIAG_STATUS b) ⟨2, 0⟩ &&& fget s (DIAG_IEN b) ⟨2, 0⟩ != 0 ||
  (b == 14 && fbit s (DIAG_IEN 14) DIAG_IEN_RESP_IEN && !(s.hport 0).out.isEmpty)

/-- IRQ_PEND mirrors the lines (R479). -/
def irqPend (s : State) : Nat := (List.range 15).foldl (fun n b => n + (lineOf s b).toNat * 2 ^ b) 0

/-- An event to every version 2 session that takes it (R467); its payload: queue, TAG, key, PAYLOAD and TICK_COUNT. -/
def sendEvent (q : Nat) (takes : Session → Bool) (tag key pay : Nat) (s : State) : State :=
  let body := beOf 1 q ++ beOf 2 tag ++ beOf 8 key ++ beOf 4 pay ++ beOf 4 (rdN s TICK_COUNT)
  s.host.sessions.foldl (fun s x =>
    let p := portCode x.port
    if takes x && hspVer s p == 2 then
      let s := { s with host.sessions := s.host.sessions.map fun y => if y.num = x.num then { y with evSeq := (y.evSeq + 1) % 65536 } else y }
      sendMsg p { bytes := hspMsg 2 3 x.num x.evSeq 0x40 0 body, queue := some (x.num * 256 + q) } s
    else s) s

/-- IRQ_PEND has changed: the event of queue 0xFF (R467); its other fields are not stated. -/
def sendLineEvent (s : State) : State :=
  if s.host.sessions.any (·.diag) then
    let k := s.freeCtr
    sendEvent 0xFF (·.diag) (Config.freeWord k).toNat ((Config.freeWord (k + 1)).toNat + (Config.freeWord (k + 2)).toNat * 2 ^ 32)
      (Config.freeWord (k + 3)).toNat { s with freeCtr := k + 4 }
  else s

/-- A change of state with the event of a change of block b's line. -/
def withLine (b : Nat) (f : State → State) (s : State) : State :=
  let t := f s
  if lineOf s b == lineOf t b then t else sendLineEvent t

/-! ### Sediment queues -/

def sevInfo : Nat := 0
def sevWarn : Nat := 1
def sevFault : Nat := 2

/-- The SEEN flag of a severity (Table 13.12). -/
def seenFld (sev : Nat) : Fld := ⟨sev, sev⟩

/-- Store an entry in a block's sediment queue (R476). -/
def storeEntry (b sev code ctx : Nat) (s : State) : State :=
  let s := fset s (DIAG_STATUS b) (seenFld sev) 1
  if sev < min (fget s (DIAG_IEN b) DIAG_IEN_SEDMIN) 2 then s
  else
    let e := (fget s (DIAG_STATUS b) DIAG_STATUS_LAST + 1) % 256
    let i := e % 8
    let s := wrN s (SED b i 0) s.time.ns
    let s := wrN s (SED b i 1) (s.time.ns / 2 ^ 32)
    let s := wrN s (SED b i 2) (code % 0x10000 * 0x10000 + sev * 0x1000 + e)
    let s := wrN s (SED b i 3) ctx
    fset s (DIAG_STATUS b) DIAG_STATUS_LAST e

/-- Record an entry in a block's sediment queue (R476, R478); its line may rise. -/
def sediment (b sev code ctx : Nat) (s : State) : State := withLine b (storeEntry b sev code ctx) s

/-- A request refused or ignored by a block rule that names no code (R477, code 0x0004). -/
def sedRule (a : Nat) (s : State) : State := sediment (blockNo a) sevInfo 0x0004 a s

/-- A write ignored while busy (Table 13.9, code 0x0002). -/
def sedBusy (a : Nat) (s : State) : State := sediment (blockNo a) sevInfo 0x0002 a s

/-- Set a W1C bit; its onset is a status event with its object (R477). -/
def w1cSet (a : Nat) (f : Fld) (obj : Nat) (s : State) : State :=
  if fget s a f = 1 then s
  else
    let b := blockNo a
    sediment b sevWarn (0x1000 + f.lo) ((a - blockBase b) % 0x10000 * 0x10000 + obj % 0x10000) (fset s a f 1)

/-! ### Causes of Table 12.7 -/

/-- Record a cause of Table 12.7 in the sediment queue of the system control block (R438). -/
def cause (code detail : Nat) (s : State) : State :=
  sediment 1 (if code ≤ 4 then sevInfo else sevFault) (0x0100 + code) detail s

/-! ### The change log -/

/-- This head is the standby of a pair (PAIR_STATUS.STATE codes STANDBY and SYNC, Table 10.5). -/
def isStandby (s : State) : Bool :=
  fbit s PAIR_CTRL PAIR_CTRL_PAIR_EN && fget s PAIR_STATUS PAIR_STATUS_LEAD != 1

/-- The mirror link of a head pair is down (R122, R181). -/
def mirrorDown (s : State) : Bool :=
  fbit s PAIR_CTRL PAIR_CTRL_PAIR_EN && !fbit s PAIR_STATUS PAIR_STATUS_MIR_UP

/-- This head is active in a pair and the mirror link is up: accepted changes become records (R376). -/
def mirroring (s : State) : Bool :=
  fbit s PAIR_CTRL PAIR_CTRL_PAIR_EN && fget s PAIR_STATUS PAIR_STATUS_STATE == 2 && fbit s PAIR_STATUS PAIR_STATUS_MIR_UP

/-- The mirrored blocks of Table 10.3. -/
def mirroredAddr (a : Nat) : Bool := (0x20000 ≤ a && a < 0x40000) || (0x100000 ≤ a && a < 0x500000)

/-- Turn a change into a record (R376). -/
def addRec (kind : Nat) (port : Port) (data : List (BitVec 8)) (s : State) : State :=
  let q := (s.pair.rseq + 1) % 2 ^ 32
  { s with pair.rseq := q,
           pair.recs := s.pair.recs ++ [{ r := { rseq := BitVec.ofNat 32 q, kind := BitVec.ofNat 8 kind, eff := 0, data := data }, port := port }] }

/-- The 40 bytes of a change-log record, least significant byte first (Table 13.7). -/
def logBytes (r : LogRec) : List (BitVec 8) :=
  let le (n v : Nat) := (beOf n v).reverse
  le 4 r.seq ++ le 1 r.sub ++ le 1 r.head ++ le 1 r.origin ++ le 1 r.kind ++ le 4 (r.time / 2 ^ 32) ++ le 4 r.time ++
    le 2 r.session ++ le 1 r.result ++ le 1 0 ++ le 4 r.object ++ leBytes r.oldCrc ++ leBytes r.newCrc ++ le 4 r.detail ++ le 4 0

/-- Append a record to the SRAM ring, numbered as R473 sets out; beyond the ring's room it is lost (R474). -/
def logPush (r : LogRec) (s : State) : State :=
  let pend := fget s LOG_NVM LOG_NVM_PENDING
  if 4096 ≤ pend then
    wrN { s with host.lost := s.host.lost + 1 } LOG_LOST (rdN s LOG_LOST + 1)
  else
    let seq := if isStandby s then s.host.seq else (s.host.seq + 1) % 2 ^ 32
    let sub := if isStandby s then min 255 (s.host.sub + 1) else 0
    let r := { r with seq := seq, sub := sub, head := haddr s }
    let ring := s.host.log ++ [r]
    let s := { s with host.log := ring.drop (ring.length - 4096), host.seq := seq, host.sub := sub }
    let s := if mirroring s then addRec 4 .steward (logBytes r) s else s
    wrN (fset s LOG_NVM LOG_NVM_PENDING (pend + 1)) LOG_HEAD seq

/-- The window closes: the records under merging enter the log, in order of their first writes (R472). -/
def logFlush (s : State) : State := s.host.merge.foldl (fun s r => logPush r s) { s with host.merge := [] }

/-- A record of the steward or of the head itself (R470): its kind, result, object and detail. -/
def logSteward (kind result object detail : Nat) (s : State) : State :=
  logPush { seq := 0, sub := 0, head := 0, origin := 0x20, kind := kind, time := s.time.ns, session := 0,
            result := result, object := object, oldCrc := 0, newCrc := 0, detail := detail } s

/-- The session of a sender, when it is open on that port. -/
def sessionOf (s : State) (w : Who) : Option Session :=
  s.host.sessions.find? fun x => x.num == w.sess.toNat && x.port == w.port

/-- The role of a sender: a session's, or 6 for the steward, which has every right. -/
def roleOf (s : State) (w : Who) : Nat :=
  match w.port with
  | .steward => 6
  | _ => match sessionOf s w with
    | some x => x.role
    | none => 0

/-- The change-log record of a register write (R470 to R472): accepted writes of one session to one address merge; a write of another address lets the session's record enter. At LEVEL 0x01 nothing merges (R527). -/
def logWrite (w : Who) (a : Nat) (old new : Word) (status : Nat) (s : State) : State :=
  if a = LOG_SEL || w.port == .steward then s
  else
    let r : LogRec :=
      { seq := 0, sub := 0, head := 0, origin := portCode w.port * 16 + roleOf s w, kind := 1, time := s.time.ns,
        session := w.sess.toNat, result := status, object := a, oldCrc := crcWords [old],
        newCrc := crcWords [new], detail := if status = 0 then 1 else 0 }
    let mine (m : LogRec) : Bool := m.session == r.session && m.origin == r.origin
    match s.host.merge.find? mine with
    | some m =>
      if m.object = a then
        if status ≠ 0 then logPush r s
        else { s with host.merge := s.host.merge.map fun x => if mine x then { m with newCrc := r.newCrc, detail := m.detail + 1 } else x }
      else
        let s := logPush m { s with host.merge := s.host.merge.filter fun x => !mine x }
        if status ≠ 0 || levelOne s then logPush r s else { s with host.merge := s.host.merge ++ [r] }
    | none => if status ≠ 0 || levelOne s then logPush r s else { s with host.merge := s.host.merge ++ [r] }

/-! ### Register writes -/

/-- The bits of a register that a write of `v` would change, among rows with one of the given access codes (R9, R461). -/
def changed (acc : Acc → Bool) (c : Cls) (old v : Word) : Nat :=
  c.rows.foldl (fun n r =>
    if acc r.acc then
      let m := rowMask r
      let o := old.toNat &&& m
      let x := v.toNat &&& m
      n ||| (match r.acc with
        | .w1c => o &&& x
        | .wo => x
        | .ro => 0
        | .rc => 0
        | _ => o ^^^ x)
    else n) 0

/-- The word after an accepted write (R7, R10). -/
def applied (c : Cls) (old v : Word) : Word :=
  BitVec.ofNat 32 (c.rows.foldl (fun n r =>
    let m := rowMask r
    let o := old.toNat &&& m
    let x := v.toNat &&& m
    match r.acc with
    | .rw => n - (n &&& m) + x
    | .rwl => n - (n &&& m) + x
    | .rws => n - (n &&& m) + x
    | .rwm => n - (n &&& m) + x
    | .w1c => n - (o &&& x)
    | _ => n) old.toNat)

/-- The bits of a word an operator may write (Table 13.5). -/
def operatorMask (a : Nat) : Nat :=
  let full := 0xFFFFFFFF
  let co := a - 0x214000
  let ax := a - 0x120000
  let pf := a - 0x200000
  if 0x214000 ≤ a && a < 0x214200 && co % 0x20 < 0x10 then full
  else if a = RCP_CMD || a = MA_CMD || a = VM_TARGET_LO || a = VM_TARGET_HI then full
  else if 0x120000 ≤ a && a < 0x122000 && ax % 0x20 = 0 then 3
  else if 0x120000 ≤ a && a < 0x122000 && ax % 0x20 = 0x1C then full
  else if 0x200000 ≤ a && a < 0x210000 && (pf % 0x100 = 0x40 || pf % 0x100 = 0x44 || pf % 0x100 = 0x48 || pf % 0x100 = 0xAC) then full
  else if a = BLK_LOCK then 0x82
  else 0

/-- The bits of a word a role may write (R461, Table 13.5). -/
def roleMask (s : State) (role a : Nat) : Nat :=
  let full := 0xFFFFFFFF
  let eng := if blockNo a = 13 || a = FI_CMD || 0x1000000 ≤ a then 0 else full
  match role with
  | 2 => operatorMask a
  | 3 => eng
  | 4 => if blockNo a = 13 then full else 0
  | 5 => if fbit s TEST_STATUS TEST_STATUS_FTM && blockNo a ≠ 13 then full else eng
  | 6 => full
  | _ => 0

/-- The lock bit that governs the RWL fields of a block (Table 14.1, R482). -/
def lockBit (b : Nat) : Nat := if b = 14 then 1 else b

/-- The lock of a block is open for a sender (R462, R491); the steward opens locks of its own. -/
def lockOpen (s : State) (w : Who) (b : Nat) : Bool :=
  match w.port with
  | .steward => true
  | _ => (rdN s BLK_LOCK).testBit (lockBit b) && fget s BLK_LOCK BLK_LOCK_LOCK_SESS == w.sess.toNat

/-- The safety session is open and it is the sender's (R417). -/
def safetyOpen (s : State) (w : Who) : Bool :=
  match w.port with
  | .steward => true
  | _ => fbit s SAFE_STATUS SAFE_STATUS_SESSION && roleOf s w == 4

/-- Before BOOT_OK a host may write the host block only; in minimal mode also what R437 allows (R492). -/
def bootAllows (s : State) (w : Who) (a : Nat) : Bool :=
  match w.port with
  | .steward => true
  | _ =>
    if fbit s BOOT_STATUS BOOT_STATUS_BOOT_OK then true
    else if fbit s BOOT_STATUS BOOT_STATUS_MINIMAL then
      blockNo a == 14 || a == SYS_CMD || a == IMG_CMD
    else blockNo a == 14 && a != BLK_LOCK

/-- Command words that take effect only with their block's lock open: REGION_CMD, SYS_CMD, IMG_CMD, RCP_CMD, PORT_CMD, CO_CTRL, PAIR_CMD, LT_CMD, and the SRAM of the lanes (R37, R48, R181, R189, R238, R249, R291, R437, R443, R448). -/
def lockedCmd (a : Nat) : Bool :=
  a == SYS_CMD || a == IMG_CMD || a == RCP_CMD || a == PAIR_CMD ||
    [0, 1, 2, 3].any (fun g => a == REGION_CMD g) || (List.range 5).any (fun p => a == PORT_CMD p) ||
    (List.range 16).any (fun g => a == CO_CTRL g) ||
    (0x400000 ≤ a && a < 0x500000 && ((a - 0x400000) % 0x8000 == 0x70A8 || (a - 0x400000) % 0x8000 < 0x6000))

/-- The word a sender finds at an address: the insertion registers are a port's own (R61). -/
def present (s : State) (w : Who) (a : Nat) : Word :=
  if INS_KEY_LO ≤ a && a < INS_CMD then tget 0 s.host.insReg (8 * portCode w.port + (a - INS_KEY_LO) / 4) else rd s a

/-- The judgement of a register write: role, boot phase, block lock and safety session (R9, R422, R461, R491, R492). -/
def judge (s : State) (w : Who) (a : Nat) (v : Word) : Bool :=
  bootAllows s w a && (!lockedCmd a || lockOpen s w (blockNo a)) &&
  match findCls a with
  | none => roleOf s w != 0 && (a < 0x1000000 || (roleMask s (roleOf s w) a != 0))
  | some c =>
    let old := present s w a
    roleOf s w != 0 &&
    (changed (fun _ => true) c old v &&& (0xFFFFFFFF - roleMask s (roleOf s w) a)) == 0 &&
    (lockOpen s w (blockNo a) || changed (· == .rwl) c old v == 0) &&
    (safetyOpen s w || blockNo a != 13) &&
    !(w.port != .steward && mirroredAddr a && mirrorDown s && fget s PAIR_STATUS PAIR_STATUS_STATE == 2 && changed (· == .rwl) c old v != 0) &&
    !(0x214000 ≤ a && a < 0x214200 && (a - 0x214000) % 0x20 < 0xC && (rdN s BLK_LOCK).testBit 7 && !lockOpen s w 7)

/-- What an accepted write does; `none` where a block rule refuses it as R9 sets out. -/
abbrev Eff := State → Option State

/-- The result of the last access. -/
def setAcc (st : Nat) (v : Word) (s : State) : State := { s with host.acc := (st, v) }

/-- A write refused as R9 sets out: recorded in the block's sediment queue with the code of Table 13.9 and in the change log. -/
def refuseWrite (w : Who) (a : Nat) (v : Word) (code : Nat) (s : State) : State :=
  setAcc 2 0 (logWrite w a (present s w a) v 2 (sediment (min (blockNo a) 14) sevInfo code a s))

/-- An accepted host write takes effect through a record (Table 10.3, R377). The words of the tile update buffer stay local: the commit carries the tile. -/
def recorded (s : State) (w : Who) (a : Nat) : Bool :=
  w.port != .steward && mirroring s && mirroredAddr a && !(0x122000 ≤ a && a < 0x122108)

/-- A register write by a sender, a refusal by lock, role or boot phase coded 0x0001 and one by a block rule 0x0004: judged, then applied whole or refused whole (R9, R465); in a pair an accepted one waits as a record. -/
def gated (w : Who) (a : Nat) (v : Word) (eff : Eff) (s : State) : State :=
  if judge s w a v then
    match eff s with
    | some t => setAcc 0 0 (logWrite w a (present s w a) v 0
        (if recorded s w a then addRec 1 w.port (beOf 4 a ++ beBytes v) s else t))
    | none => refuseWrite w a v 0x0004 s
  else refuseWrite w a v 0x0001 s

/-- The effect of a register without a rule of its own: the fields take the values written (R7). -/
def plainEff (a : Nat) (v : Word) : Eff := fun s =>
  match findCls a with
  | none => some s
  | some c => some (wr s a (applied c (rd s a) v))

end Sys2Proof.Machine
end

