-- ==== Sys2Proof/Machine/AxisOps.lean ====
section
/-! DEFINITION. Operations on axis contexts that several families share: the tiles (R97 to R103), causes and reactions (R124 to R128), entry into the off state (R113, R116, R139), the tile-error counters and the start of a quarantine (R36, R37). -/

namespace Sys2Proof.Machine
open R

/-! ### Tiles -/

/-- Bit i of a word. -/
def wbit (w : Word) (i : Nat) : Bool := w.toNat.testBit i

/-- The 64 words of the law tile. -/
def lawTile (s : State) (n : Nat) : List Word := rdWords s (LAW_TILE n 0) 64

/-- The 64 words of the state tile. -/
def stateTile (s : State) (n : Nat) : List Word := rdWords s (STATE_TILE n 0) 64

/-- A tile's last word is the CRC of the others (R99). -/
def tileOk (t : List Word) : Bool := t.getD 63 0 == crcWords (t.take 63)

/-- A tile with its CRC formed anew (R102). -/
def sealTile (t : List Word) : List Word := t.take 63 ++ [crcWords (t.take 63)]

/-- Replace word i of a list. -/
def setW (t : List Word) (i : Nat) (v : Word) : List Word := t.set i v

/-- Store a state tile with a new CRC. -/
def putState (s : State) (n : Nat) (t : List Word) : State := wrAll (STATE_TILE n) 0 (sealTile t) s

/-- A field of a tile word. -/
def wField (w : Word) (hi lo : Nat) : Nat := fieldOf w ⟨hi, lo⟩

/-- INIT := 0 and WARM := 4 in the state tile, shown in AX_STATUS (R113). -/
def clearInit (n : Nat) (s : State) : State :=
  let t := stateTile s n
  let s := putState s n (setW t 0 (withField (withField (t.getD 0 0) ⟨31, 31⟩ 0) ⟨30, 28⟩ 4))
  fput (fput s (AX_STATUS n) AX_STATUS_INIT false) (AX_STATUS n) AX_STATUS_WARM true

/-! ### Profile events -/

/-- Record an event of the generator, with its W1C flag where it has one (Table 4.13). -/
def pfEvent (n code : Nat) (f : Option Fld) (s : State) : State :=
  let s := fset s (PF_STATUS n) PF_STATUS_EVT code
  match f with
  | some f => w1cSet (PF_STATUS n) f n s
  | none => s

/-- The first two targets of a queue lie in opposite directions, from a position (R150). -/
def reverses (p : Int) : List Int → Bool
  | t0 :: t1 :: _ => decide ((sx 64 (ux 64 (t0 - p))) * (sx 64 (ux 64 (t1 - t0))) < 0)
  | _ => false

/-- The queue of a generator, with QDEPTH and REVQ (R150). -/
def setQueue (n : Nat) (q : List Int) (s : State) : State :=
  let g := s.gen n
  let s := s.setGen n { g with queue := q }
  let s := fset s (PF_STATUS n) PF_STATUS_QDEPTH q.length
  fput s (PF_STATUS n) PF_STATUS_REVQ (reverses g.p q)

/-- The generator mode (Table 4.1). -/
def gmode (s : State) (n : Nat) : Nat := fget s (PF_STATUS n) PF_STATUS_MODE
def setGmode (n m : Nat) (s : State) : State := fset s (PF_STATUS n) PF_STATUS_MODE m

/-- p_gen and the generator velocity as the registers show them (Table 4.12). -/
def showGen (n : Nat) (vel : Int) (s : State) : State :=
  wr64 (wr64 s (PF_POS n) (s.gen n).p) (PF_VEL n) vel

/-- The generator of an axis that is off: IDLE at the measured position, no queue, no coupling (R139). -/
def genOff (n : Nat) (s : State) : State :=
  let g := s.gen n
  let s := s.setGen n { p := (s.axl n).pMeas, pOut := (s.axl n).pMeas, sw := g.sw }
  let s := setQueue n [] (setGmode n 0 s)
  showGen n 0 (fput (fset s (PF_HOME_STATUS n) PF_HOME_STATUS_STATE 0) (PF_STATUS n) PF_STATUS_SH_ACT false)

/-- Rewrite the image values of the registers from `a` up to `b` (R496). -/
def imageRewrite (a b : Nat) (s : State) : State := wrRange a b s.boot.img s

/-- Set the words from `a` to their reset values, then to those of the image (R496). -/
def resetWords (a n : Nat) (s : State) : State :=
  imageRewrite a (a + 4 * n) (eachN (List.range n) (fun i s => wr s (a + 4 * i) (regReset (a + 4 * i))) s)

/-! ### Causes and reactions -/

/-- The reaction an axis's group gives a cause (Table 3.9, R126); LTILE always TORQUE_OFF. -/
def reactionOf (s : State) (n code : Nat) : Nat :=
  let f := AX_FREACT n
  let r := match code with
    | 1 => 4
    | 2 => fget s f AX_FREACT_R_STATE
    | 10 => fget s f AX_FREACT_R_STATE
    | 3 => fget s f AX_FREACT_R_FB
    | 4 => fget s f AX_FREACT_R_FB
    | 8 => fget s f AX_FREACT_R_POWER
    | 9 => fget s f AX_FREACT_R_POWER
    | _ => fget s f AX_FREACT_R_CTRL
  let r := min r 4
  if (code = 3 ∨ code = 4) ∧ (r = 2 ∨ r = 3) ∧ (s.ctx n).cls ≠ 2 then 4 else r

/-- The outputs of an axis go off (Table 3.10, TORQUE_OFF; R116). -/
def outputsOff (n : Nat) (s : State) : State :=
  let x := s.axl n
  s.setAxl n { x with off := true, outU := 0, outE := [], outV := 0, srOn := false, srStart := false,
                      prog := if (s.ctx n).bridge.isSome then some [] else none }

/-- The mode of AX_CTRL: 0 OFF, 1 MANUAL, 2 AUTO. -/
def axMode (s : State) (n : Nat) : Nat := fget s (AX_CTRL n) AX_CTRL_MODE

/-- The source in force (R116, Table 3.14): off, a fault reaction, manual, the spring ramp, or the generator. -/
def srcOf (s : State) (n : Nat) : Nat :=
  if axMode s n = 0 then 0
  else if fget s (AX_STATUS n) AX_STATUS_REACT ≠ 0 then 4
  else if axMode s n = 1 then 1
  else if (s.axl n).srOn || (s.axl n).srStart then 2 else 3

/-- SRC shows the source in force. -/
def showSrc (n : Nat) (s : State) : State := fset s (AX_STATUS n) AX_STATUS_SRC (srcOf s n)

/-- Put a reaction in force when it is more severe than the present one (R125, R127). -/
def react (n code r : Nat) (s : State) : State :=
  if r ≤ fget s (AX_STATUS n) AX_STATUS_REACT then s
  else
    let s := fset (fset s (AX_STATUS n) AX_STATUS_REACT r) (AX_STATUS n) AX_STATUS_FAULT code
    let s := if gmode s n = 5 then
        pfEvent n 7 none (sediment 7 sevWarn 0x0404 n (fset (fset s (PF_HOME_STATUS n) PF_HOME_STATUS_CAUSE 4) (PF_HOME_STATUS n) PF_HOME_STATUS_STATE 7))
      else s
    match r with
    | 4 => showSrc n (genOff n (clearInit n (outputsOff n s)))
    | 1 => showSrc n s
    | _ =>
      let g := s.gen n
      showSrc n (s.setGen n { g with req := some (if r = 3 then .quick else .stop true) })

/-- Raise a cause at its onset (R124): record it and put its reaction in force. -/
def raiseCause (n code : Nat) (s : State) : State :=
  let x := s.axl n
  if x.causes.testBit (code - 1) then s
  else
    let s := s.setAxl n { x with causes := x.causes ||| 2 ^ (code - 1) }
    let s := fincSat (fset s (AX_FAULT n) AX_FAULT_LAST code) (AX_FAULT n) AX_FAULT_COUNT
    let s := w1cSet (AX_FAULT n) ⟨code - 1, code - 1⟩ n s
    let s := sediment 6 sevFault (0x0200 + code) n s
    react n code (reactionOf s n code) s

/-- A cause's condition is no longer found (R128); a HOLD whose causes have all ended ends (Table 3.10). -/
def endCause (n code : Nat) (s : State) : State :=
  let x := s.axl n
  if x.causes.testBit (code - 1) then
    let s := s.setAxl n { x with causes := x.causes - 2 ^ (code - 1) }
    if fget s (AX_STATUS n) AX_STATUS_REACT = 1 && (s.axl n).causes = 0 then
      showSrc n (fset (fset s (AX_STATUS n) AX_STATUS_REACT 0) (AX_STATUS n) AX_STATUS_FAULT 0)
    else s
  else s

/-- Set a cause's condition as a sample found it. -/
def judgeCause (n code : Nat) (found : Bool) (s : State) : State :=
  if found then raiseCause n code s else endCause n code s

/-- The safety zone of an axis context; 8 to 15 none (Table 11.13). -/
def zoneOf (s : State) (n : Nat) : Nat := fget s (SZ_AX n) SZ_AX_ZONE

/-- The axis lies in a zone that is not ON in both channels (R412). -/
def zoneBlocks (s : State) (n : Nat) : Bool :=
  let z := zoneOf s n
  decide (z < 8) && !(fget s (SZ_STATUS z) SZ_STATUS_STATEA == 3 && fget s (SZ_STATUS z) SZ_STATUS_STATEB == 3)

/-- TORQUE_OFF is latched (R116). -/
def torqueOffLatched (s : State) (n : Nat) : Bool := fget s (AX_STATUS n) AX_STATUS_REACT == 4

/-- Set a condition of SCH_STATUS; LAT_GUAR is 1 exactly when all four are 0 (R79). -/
def setCond (f : Fld) (b : Bool) (s : State) : State :=
  let s := fput s SCH_STATUS f b
  fput s SCH_STATUS SCH_STATUS_LAT_GUAR (rdN s SCH_STATUS % 16 == 0)

/-- Entry into mode OFF (R113, R116, R139). -/
def enterOff (n : Nat) (s : State) : State :=
  showSrc n (genOff n (clearInit n (outputsOff n (fset s (AX_CTRL n) AX_CTRL_MODE 0))))

/-! ### Regions -/

/-- The state of a region (Table 1.7). -/
def regState (s : State) (g : Nat) : Nat := fget s (REGION_STATUS g) REGION_STATUS_STATE
def setRegState (g x : Nat) (s : State) : State := fset s (REGION_STATUS g) REGION_STATUS_STATE x

/-- The contexts homed in a region, ascending. -/
def homed (s : State) (g : Nat) : List Nat := (usedAxes s).filter fun n => (s.ctx n).region == g

/-- CONTEXTS of every region shows the contexts homed in it. -/
def showContexts (s : State) : State :=
  eachN [0, 1, 2, 3] (fun g s => fset s (REGION_STATUS g) REGION_STATUS_CONTEXTS (homed s g).length) s

/-- The order of migration: class A, B, C, within a class by axis number (R39). -/
def migOrder (s : State) (g : Nat) : List Nat :=
  let h := homed s g
  h.filter (fun n => (s.ctx n).cls == 0) ++ h.filter (fun n => (s.ctx n).cls == 1) ++
    h.filter (fun n => (s.ctx n).cls == 2)

/-- The region out of service, if any (R37). -/
def outOfService (s : State) : Option Nat := [0, 1, 2, 3].find? fun g => regState s g != 0

/-- Quarantine a region, subject to R37: the first one migrates out, a second is recorded as QUAR_DOUBLE. -/
def startQuarantine (g : Nat) (s : State) : State :=
  match outOfService s with
  | some _ => cause 0x11 g s
  | none =>
    let r := s.region g
    let s := s.setRegion g { r with moving := migOrder s g, unplaced := [] }
    let s := logSteward 5 0 g 0 s
    setRegState g 1 s

/-- Count a tile-check failure of a region, and quarantine it at its threshold (R36). -/
def tileError (g : Nat) (s : State) : State :=
  let s := fincSat (fincSat s (REGION_TILE_ERR g) REGION_TILE_ERR_TOTAL) (REGION_TILE_ERR g) REGION_TILE_ERR_WINDOW
  let th := fget s (REGION_CTRL g) REGION_CTRL_QUAR_THRESH
  if th ≠ 0 && th ≤ fget s (REGION_TILE_ERR g) REGION_TILE_ERR_WINDOW && regState s g = 0 then startQuarantine g s else s

/-! ### Flash jobs -/

/-- A write job starts (R443): BUSY and its kind in IMG_JOB. -/
def startJob (kind : Nat) (s : State) : State := wrN s IMG_JOB (2 ^ 31 + kind * 2 ^ 28 + fget s IMG_JOB IMG_JOB_RESULT * 2 ^ 24)

/-- A write job ends with a result. -/
def endJob (result : Nat) (s : State) : State :=
  let s := fset (fput s IMG_JOB IMG_JOB_BUSY false) IMG_JOB IMG_JOB_RESULT result
  if result = 0 then fset s IMG_JOB IMG_JOB_PROGRESS 100 else s

/-- After BOOT_OK a torn slot is erased as job 5 (R444). -/
def startTornErase (s : State) : State :=
  if (s.boot.flash.a.torn || s.boot.flash.b.torn) && fbit s BOOT_STATUS BOOT_STATUS_BOOT_OK && !fbit s IMG_JOB IMG_JOB_BUSY then startJob 5 s
  else s

/-! ### Axes in a quarantine, fault injection -/

/-- A context still to be moved in a quarantine (R44). -/
def stillToMove (s : State) (n : Nat) : Bool := [0, 1, 2, 3].any fun g => (s.region g).moving.contains n

/-- Fault injection: the next occurrence of a target event is corrupted (R481, Table 13.10). -/
def fiHit (target idx : Nat) (s : State) : Bool × State :=
  match s.host.fi with
  | some (t, i, c) =>
    if t = target && i = idx && 0 < c then
      if c = 1 then (true, fput { s with host.fi := none } FI_STATUS FI_STATUS_ARMED false)
      else (true, { s with host.fi := some (t, i, c - 1) })
    else (false, s)
  | none => (false, s)

end Sys2Proof.Machine
end

