-- ==== Sys2Proof/Machine/Angle.lean ====
section
/-! DEFINITION. The machine angle unit (sections 2.1 to 2.3): sources, voting, trust, hold and the virtual master. Keys and speeds are in 2^-16 angle counts, keys modulo 2^80. -/

namespace Sys2Proof.Machine
open R

/-- Slots that hold configured sources (R55). -/
def slots (s : State) : List Nat := List.range (fget s MA_CTRL MA_CTRL_NSRC)

/-- The primary slot; 0b11 acts as 0 (Table 2.6). -/
def primary (s : State) : Nat := let p := fget s MA_CTRL MA_CTRL_PRIMARY; if p = 3 then 0 else p

/-- TRUSTn: 0 TRUSTED, 1 SUSPECT, 2 DISTRUSTED, 3 LOST (Table 2.7). -/
def trustFld (n : Nat) : Fld := ⟨2 * n + 1, 2 * n⟩
def trust (s : State) (n : Nat) : Nat := fget s MA_STATUS (trustFld n)
def setTrust (n t : Nat) (s : State) : State := fset s MA_STATUS (trustFld n) t

/-- A usable source is configured and TRUSTED or SUSPECT (R54). -/
def usable (s : State) : List Nat := (slots s).filter fun n => decide (trust s n ≤ 1)

/-- Source type; 4 to 7 act as none (Table 2.9). -/
def srcType (s : State) (n : Nat) : Nat :=
  let t := fget s (MA_SRC_CFG n) MA_SRC_CFG_TYPE; if 3 < t then 0 else t

/-- The encoder of a local source, its signal fault and its count with the direction of the slot. -/
def srcEnc (s : State) (n : Nat) : Nat := fget s (MA_SRC_CFG n) MA_SRC_CFG_ENC
def encFault (s : State) (k : Nat) : Bool := fbit s (ENC_STATUS k) ENC_STATUS_FLT

/-- A source can count: no type none, no DEN = 0, no signal fault, a frame arrived (R532). -/
def canCount (s : State) (n : Nat) : Bool :=
  rdN s (MA_SRC_DEN n) != 0 &&
  match srcType s n with
  | 1 => !encFault s (srcEnc s n)
  | 2 => (s.src n).frame.isSome || ((s.src n).seen && (s.src n).extrap == 0)
  | 3 => true
  | _ => false

/-- The present count of a slot's encoder, 32 bits. -/
def srcCount (s : State) (n : Nat) : Nat :=
  match srcType s n with
  | 1 => rdN s (ENC_COUNT (srcEnc s n))
  | 2 => match (s.src n).frame with
    | some (c, _) => c
    | none => (s.src n).cnt
  | _ => 0

/-- The sign DIR gives a count. -/
def srcSign (s : State) (n : Nat) : Int := if fbit s (MA_SRC_CFG n) MA_SRC_CFG_DIR then -1 else 1

/-- angle_src = OFS + count × NUM / DEN in 2^-16 counts (R52). -/
def srcAngle (s : State) (n : Nat) : Int :=
  (rdN s (MA_SRC_OFS n) : Int) * 65536 +
    (srcSign s n * sx 32 (srcCount s n) * rdN s (MA_SRC_NUM n) * 65536).fdiv (max 1 (rdN s (MA_SRC_DEN n)))

def kmod (x : Int) : Nat := ux 80 x

/-- A restarted slot: remainder cleared, count reference taken, key nearest the voted key, or in the initial cycle at the start (R51, R532). -/
def restartSrc (atStart : Bool) (n : Nat) (s : State) : State :=
  let x := s.src n
  let voted : Int := s.ang.key
  let key :=
    if srcType s n = 3 then kmod voted
    else if atStart then (voted.toNat / 2 ^ 48) * 2 ^ 48 + ux 48 (srcAngle s n)
    else kmod (voted + sx 48 (ux 48 (srcAngle s n - voted)))
  let s' := s.setSrc n { key := key, meas := key, cnt := srcCount s n, seen := x.seen, when := (x.frame.map (·.2)).getD x.when }
  let s' := if srcType s n = 3 then { s' with ang.vm := 0 } else s'
  let t := if canCount s n then 0 else 3
  let s' := if t = 3 && trust s n ≠ 3 then w1cSet MA_STATUS MA_STATUS_LOST n s' else s'
  setTrust n t s'

/-- A source becomes LOST (R53, R54). -/
def loseSrc (n : Nat) (s : State) : State :=
  if trust s n = 3 then s else w1cSet MA_STATUS MA_STATUS_LOST n (setTrust n 3 s)

/-- Advance a source by its count difference, carrying the remainder (R52). -/
def advance (s : State) (n : Nat) (x : Src) (cnt : Nat) : Src :=
  let den : Int := max 1 (rdN s (MA_SRC_DEN n))
  let acc := srcSign s n * sdiff 32 cnt x.cnt * rdN s (MA_SRC_NUM n) * 65536 + x.rem
  let q := acc.fdiv den
  { x with key := kmod (x.key + q), rem := (acc - q * den).toNat, cnt := cnt }

/-- The virtual master moves its speed towards the target by at most the step (R59). -/
def vmRamp (s : State) : Int :=
  let tgt := sx 48 (rdN s VM_TARGET_LO + fget s VM_TARGET_HI VM_TARGET_HI_HI * 2 ^ 32)
  let st : Int := rdN s VM_ACCEL_LO + fget s VM_ACCEL_HI VM_ACCEL_HI_HI * 2 ^ 32
  let d := tgt - s.ang.vm
  if d ≤ st ∧ -st ≤ d then tgt else if 0 < d then s.ang.vm + st else s.ang.vm - st

/-- Capture a source at a tick (R50, R53). -/
def capture (n : Nat) (s : State) : State :=
  let x := s.src n
  if x.restart then restartSrc false n s
  else match srcType s n with
  | 1 =>
    if encFault s (srcEnc s n) then loseSrc n (s.setSrc n { x with speed := 0 })
    else if trust s n = 3 && rdN s (MA_SRC_DEN n) = 0 then s
    else
      let y := advance s n x (srcCount s n)
      s.setSrc n { y with speed := sdiff 80 y.key x.key }
  | 2 =>
    match x.frame with
    | some (c, t) =>
      let base : Src := { x with key := x.meas }
      let y := advance s n base c
      let dt : Int := (t : Int) - x.when
      let sp := if dt ≤ 0 then x.speed else rhu (sdiff 80 y.key x.meas * tb s) dt
      let now := kmod (y.key + rhu (sp * ((s.time.ns : Int) - t)) (tb s))
      s.setSrc n { y with key := now, meas := y.key, when := t, speed := sp, extrap := 0, frame := none, seen := true }
    | none =>
      if fget s MA_CTRL MA_CTRL_NET_HOLD + 1 ≤ x.extrap then loseSrc n s
      else s.setSrc n { x with key := kmod (x.key + x.speed), extrap := x.extrap + 1 }
  | 3 =>
    let v := if fbit s MA_STATUS MA_STATUS_HOLD then 0 else vmRamp s
    ({ s with ang.vm := v } : State).setSrc n { x with key := kmod (x.key + v), speed := v }
  | _ => loseSrc n s

/-- The serial difference of two sources' keys. -/
def srcDiff (s : State) (a b : Nat) : Int := sdiff 80 (s.src a).key (s.src b).key

/-- The discrepancy limit in 2^-16 counts. -/
def discLim (s : State) : Int := rdN s MA_DISC_LIM * 65536

/-- Two sources agree within MA_DISC_LIM. -/
def agrees (s : State) (a b : Nat) : Bool :=
  decide (srcDiff s a b ≤ discLim s) && decide (-(discLim s) ≤ srcDiff s a b)

/-- The source whose key is the median of three (R50). -/
def median (s : State) (a b c : Nat) : Nat :=
  let db := srcDiff s b a
  let dc := srcDiff s c a
  if (0 ≤ db ∧ db ≤ dc) ∨ (dc ≤ db ∧ db ≤ 0) then b
  else if (0 ≤ dc ∧ dc ≤ db) ∨ (db ≤ dc ∧ dc ≤ 0) then c
  else a

/-- DISC_CYCLES; 0 acts as 1. -/
def discCycles (s : State) : Nat := max 1 (fget s MA_CTRL MA_CTRL_DISC_CYCLES)

/-- A source that has been SUSPECT for DISC_CYCLES consecutive ticks becomes DISTRUSTED (R54). -/
def distrust (n : Nat) (s : State) : State :=
  if trust s n = 1 && decide (discCycles s ≤ (s.src n).susp) then setTrust n 2 s else s

/-- The references of R54 among the usable sources. -/
def refOf (s : State) (us : List Nat) (n : Nat) : Option Nat :=
  match us with
  | [a, b, c] => some (median s a b c)
  | [a, b] => some (if n = a then b else a)
  | _ => none

/-- SUSPECT and TRUSTED by the reference of R54. -/
def suspect (us : List Nat) (n : Nat) (s : State) : State :=
  match refOf s us n with
  | none => s
  | some r =>
    let x := s.src n
    if agrees s n r then
      setTrust n 0 (s.setSrc n { x with susp := 0 })
    else
      let s' := if trust s n = 0 then w1cSet MA_STATUS MA_STATUS_DISC n (setTrust n 1 s) else s
      s'.setSrc n { x with susp := x.susp + 1 }

/-- A candidate agrees with its reference of R58. -/
def candAgrees (s : State) (n : Nat) : Bool :=
  canCount s n &&
  if fbit s MA_STATUS MA_STATUS_HOLD then
    match (usable s).find? (· != n) with
    | none => true
    | some r => agrees s n r
  else
    let d := sdiff 80 (s.src n).key s.ang.key
    decide (d ≤ discLim s) && decide (-(discLim s) ≤ d)

/-- Automatic retrust after 4,096 consecutive ticks of agreement (R58). -/
def autoRetrustSrc (n : Nat) (s : State) : State :=
  if fbit s MA_CTRL MA_CTRL_AUTO_RETRUST && decide (2 ≤ trust s n) && decide (4096 ≤ (s.src n).agree) then
    setTrust n 0 (s.setSrc n { s.src n with susp := 0, agree := 0 })
  else s

/-- The hold condition of Table 2.1. -/
def holdCond (s : State) : Bool :=
  let us := usable s
  match fget s MA_CTRL MA_CTRL_NSRC, us with
  | 0, _ => false
  | 1, l => l.isEmpty
  | _, [a, b, c] => !(agrees s a b || agrees s a c || agrees s b c)
  | _, [_, _] => decide (discCycles s ≤ s.ang.differ)
  | _, _ => true

/-- The source the angle follows (Table 2.1). -/
def followed (s : State) : Option Nat :=
  match usable s with
  | [a, b, c] => some (median s a b c)
  | [a, b] => some (if b = primary s then b else a)
  | [a] => some a
  | _ => none

/-- The angle holds (R56); the CAM axes and the axes geared to the angle end their coupling at their next set-point (R152). -/
def holdAngle (s : State) : State :=
  if fbit s MA_STATUS MA_STATUS_HOLD then s
  else
    let s := { s with ang.speed := 0, ang.vm := 0, ang.resume := false }
    let s := wrN (wrN s VM_TARGET_LO 0) VM_TARGET_HI 0
    let s := fput s MA_STATUS MA_STATUS_HOLD true
    sediment 3 sevFault 0x0701 (rdN s MA_STATUS) s

/-- Steps 1 and 2 of the tick (R60): capture, vote, update. -/
def angleTick (s : State) : State :=
  if slots s = [] then
    let s := if s.ang.ever then s else { s with ang.key := rdN s MA_CYCLE_INIT * 2 ^ 48, ang.ever := true }
    { s with ang.run := false, ang.speed := 0 }
  else if !s.ang.run then
    -- the first tick at which the unit runs (R51), or the first after NSRC leaves 0 (R532)
    let s := if s.ang.ever then s else { s with ang.key := rdN s MA_CYCLE_INIT * 2 ^ 48 }
    let first := !s.ang.ever
    let s := eachN (slots s) (restartSrc first) s
    let p := primary s
    let s := if first && srcType s p ≠ 3 then { s with ang.key := (s.src p).key } else s
    let s := if first then eachN ((slots s).filter fun n => srcType s n == 3)
        (fun n s => s.setSrc n { s.src n with key := s.ang.key }) s else s
    { s with ang.run := true, ang.ever := true, ang.speed := 0, ang.vm := 0 }
  else
    let s := eachN (slots s) capture s
    let s := eachN (slots s) distrust s
    let us := usable s
    let s := eachN us (suspect us) s
    let s := match usable s with
      | [a, b] => { s with ang.differ := if agrees s a b then 0 else s.ang.differ + 1 }
      | _ => { s with ang.differ := 0 }
    let s := eachN (slots s) (fun n s =>
      let x := s.src n
      s.setSrc n { x with zero := if x.speed = 0 then x.zero + 1 else 0,
                          agree := if 2 ≤ trust s n ∧ candAgrees s n then x.agree + 1 else 0 }) s
    let s := eachN (slots s) autoRetrustSrc s
    let s := if s.ang.resume then fput { s with ang.resume := false } MA_STATUS MA_STATUS_HOLD false else s
    if fbit s MA_STATUS MA_STATUS_HOLD then { s with ang.speed := 0 }
    else if holdCond s then holdAngle s
    else match followed s with
      | some n => { s with ang.key := (s.src n).key, ang.speed := (s.src n).speed }
      | none => s

/-! ### The commands -/

/-- SOURCE_DISTRUSTED (R54). -/
def execSourceDistrusted (n : Slot) (s : State) : Host.Outcome State Fault Refusal := .next (distrust n.n s)

/-- NET_SOURCE_LOST (R53): a network source extrapolated for NET_HOLD + 1 ticks without a frame is LOST. -/
def execNetSourceLost (n : Slot) (s : State) : Host.Outcome State Fault Refusal :=
  .next (if srcType s n.n = 2 && (s.src n.n).frame.isNone &&
      decide (fget s MA_CTRL MA_CTRL_NET_HOLD + 1 ≤ (s.src n.n).extrap) then loseSrc n.n s else s)

/-- ANGLE_HOLD (R56): where Table 2.1 calls for a hold. -/
def execAngleHold (s : State) : Host.Outcome State Fault Refusal :=
  .next (if holdCond s then holdAngle s else s)

/-- The conditions of RESUME (R57). -/
def resumeOk (s : State) : Bool :=
  fbit s MA_STATUS MA_STATUS_HOLD && (slots s).all (fun n => decide (trust s n ≤ 1)) &&
  (slots s).all (fun a => (slots s).all fun b => agrees s a b) &&
  (slots s).all fun n => decide (16 ≤ (s.src n).zero)

/-- RESUME in MA_CMD (R57). -/
def resumeEff (s : State) : State :=
  if resumeOk s then { s with ang.resume := true } else sedRule MA_CMD s

/-- RETRUST of a slot in MA_CMD (R58). -/
def retrustEff (n : Nat) (s : State) : State :=
  if decide (2 ≤ trust s n) && (slots s).contains n && candAgrees s n then
    setTrust n 0 (s.setSrc n { s.src n with susp := 0, agree := 0 })
  else s

/-- A write of MA_CMD (Table 2.8): RETRUST before RESUME. -/
def maCmdEff (v : Word) : Eff := fun s =>
  let s := eachN ([0, 1, 2].filter fun n => wbit v n) retrustEff s
  some (if wbit v 3 then resumeEff s else s)

/-- RESUME. -/
def execResume (w : Who) (s : State) : Host.Outcome State Fault Refusal :=
  .next (gated w MA_CMD 8 (maCmdEff 8) s)

/-- RETRUST. -/
def execRetrust (w : Who) (m : BitVec 3) (s : State) : Host.Outcome State Fault Refusal :=
  .next (gated w MA_CMD (m.zeroExtend 32) (maCmdEff (m.zeroExtend 32)) s)

/-- AUTO_RETRUST (R58). -/
def execAutoRetrust (n : Slot) (s : State) : Host.Outcome State Fault Refusal := .next (autoRetrustSrc n.n s)

/-- SOURCE_RESTART (R532): the configured slots that writes have marked restart. -/
def execSourceRestart (s : State) : Host.Outcome State Fault Refusal :=
  .next (eachN (slots s) (fun n s => if (s.src n).restart then restartSrc false n s else s) s)

end Sys2Proof.Machine
end

