-- ==== Sys2Proof/Machine/DelayList.lean ====
section
/-! DEFINITION. The sorted delay lists (section 2.5) and the producers held back by a full list (section 2.7). -/

namespace Sys2Proof.Machine
open R

/-- The list holds angle keys (DL_KIND, Table 2.11). -/
def angleList (s : State) (l : Nat) : Bool := (fget s SCH_CTRL SCH_CTRL_DL_KIND).testBit l

/-- An angle list can release: the speed is positive and the angle does not hold (R63). -/
def canRelease (s : State) (l : Nat) : Bool :=
  !angleList s l || (decide (0 < s.ang.speed) && !fbit s MA_STATUS MA_STATUS_HOLD && s.ang.run)

/-- The distance of a key from the start of the window of its list, in 2^-16 units modulo 2^80 (R61, R63). -/
def keyDist (s : State) (l key : Nat) : Nat :=
  dist 80 (key % 2 ^ 64 * 65536) (if angleList s l then s.ang.key else s.time.start % 2 ^ 64 * 65536)

/-- A key precedes the window's start; a key exactly 2^63 away counts as preceding (R63). -/
def precedes (s : State) (l key : Nat) : Bool := decide (2 ^ 79 ≤ keyDist s l key)

/-- The length of the window in 2^-16 units (R63). -/
def windowLen (s : State) (l : Nat) : Nat :=
  if angleList s l then s.ang.speed.toNat else tb s * 65536

/-- A key lies in the current window. -/
def inWindow (s : State) (l key : Nat) : Bool :=
  canRelease s l && decide (keyDist s l key < windowLen s l)

/-- The offset from the tick of a due key, a multiple of 4 ns below T_b (R64). -/
def offsetOf (s : State) (l key : Nat) : Nat :=
  if precedes s l key then 0
  else
    let d : Int := keyDist s l key
    let r := if angleList s l then rhu (d * tb s) (4 * max 1 s.ang.speed) else rhu d (4 * 65536)
    4 * min r.toNat ((tb s - 1) / 4)

/-- The fields of word 2 (Table 2.2). -/
def entKind (e : DEnt) : Nat := wField e.act 31 28
def entRepeat (e : DEnt) : Bool := wbit e.act 27
def entTarget (e : DEnt) : Nat := wField e.act 25 16
def entTag (e : DEnt) : Nat := wField e.act 15 0

/-- An insertion that R62 refuses. -/
def insRefused (s : State) (l : Nat) (e : DEnt) : Bool :=
  let k := entKind e
  let t := entTarget e
  !(decide (1 ≤ k) && decide (k ≤ 6)) ||
  (entRepeat e && !angleList s l) ||
  (k == 6 && decide (8 ≤ t)) ||
  (k == 1 && (decide (256 ≤ t) || !(s.ctx t).used)) ||
  keyDist s l e.key == 2 ^ 79

/-- Insert behind every entry whose key is not later (R61). -/
def insSorted (e : DEnt) : List DEnt → List DEnt
  | [] => [e]
  | x :: t => if later 64 x.key e.key then e :: x :: t else x :: insSorted e t

/-- The result codes of INS_RESULT (Table 2.12). -/
def insOk : Nat := 0
def insBusy : Nat := 1
def insLate : Nat := 2
def insNotFound : Nat := 3
def insRef : Nat := 4

/-- LATE of SCH_STATUS (R65). -/
def setLate (l : Nat) (s : State) : State := w1cSet SCH_STATUS SCH_STATUS_LATE l s

/-- An insertion that completes `done` ns after the tick (R62, R65, R71): its result and the state. -/
def insertEnt (l : Nat) (e : DEnt) (done : Nat) (s : State) : Nat × State :=
  if insRefused s l e then (insRef, s)
  else if 1024 ≤ (s.dl l).length then (insBusy, s)
  else if inWindow s l e.key then
    if done + 2000 ≤ offsetOf s l e.key then
      let s := { s with sch.placed := s.sch.placed ++ [(e, offsetOf s l e.key)] }
      let s := if entRepeat e then s.setDl l (insSorted { e with key := (e.key + 2 ^ 32) % 2 ^ 64 } (s.dl l)) else s
      (insOk, s)
    else (insLate, setLate l (s.setDl l (insSorted { e with late := true } (s.dl l))))
  else if precedes s l e.key then
    (insLate, setLate l (s.setDl l (insSorted { e with late := true } (s.dl l))))
  else (insOk, s.setDl l (insSorted e (s.dl l)))

/-- Remove the first entry with a TAG (R66). -/
def cancelEnt (l tag : Nat) (s : State) : Nat × State :=
  match (s.dl l).find? (fun e => entTag e == tag) with
  | none => (insNotFound, s)
  | some e => (insOk, s.setDl l ((s.dl l).erase e))

/-- The code of a producer in CONTEXT (R477). -/
def prodCode : Prod → Nat
  | .profile => 1 | .timed => 2 | .step => 3 | .changeover => 4 | .post => 5 | .steward => 6

/-- The block whose producer it is records the refusal (R62, code 0x0704). -/
def prodRefused (p : Prod) (obj l : Nat) (e : DEnt) (s : State) : State :=
  sediment 2 sevWarn 0x0704 (prodCode p * 2 ^ 24 + entKind e * 2 ^ 20 + l * 2 ^ 16 + obj) s

/-- The time from the tick at which an internal insertion completes: anywhere up to 1.2 µs (R61), a free value. -/
def opTime (s : State) : Nat × State :=
  let (w, s) := takeFree s
  (2 + w.toNat % 1199, s)

/-- A late edge of a timed output sets its LATE (R281). -/
def lateOut (p : Prod) (obj : Nat) (s : State) : State :=
  if p = .timed then w1cSet (TO_STATUS obj) TO_STATUS_LATE obj s else s

/-- An insertion by an internal producer: refused entries are dropped and recorded, a full list holds the producer back (R62, R71). -/
def produce (p : Prod) (obj l : Nat) (e : DEnt) (s : State) : State :=
  let (d, s) := opTime s
  match insertEnt l e d s with
  | (4, s) => prodRefused p obj l e s
  | (1, s) => { s with sch.held := s.sch.held ++ [{ prod := p, obj := obj, list := l, ent := e }] }
  | (2, s) => lateOut p obj s
  | (_, s) => s

/-- Held-back producers retry in the order they were first held back; one that is still held counts a tick (R71, R72). -/
def retryHeld (s : State) : State :=
  s.sch.held.foldl (fun s h =>
    let (d, s) := opTime s
    match insertEnt h.list h.ent d s with
    | (1, s) => { s with sch.held := s.sch.held ++ [{ h with ticks := h.ticks + 1 }] }
    | (4, s) => prodRefused h.prod h.obj h.list h.ent s
    | (2, s) => lateOut h.prod h.obj s
    | (_, s) => s) { s with sch.held := [] }

/-- The insertion registers of a port (R489): key low, key high, action, payload, result. -/
def insReg (s : State) (p i : Nat) : Word := tget 0 s.host.insReg (8 * p + i)
def setInsReg (p i : Nat) (v : Word) (s : State) : State :=
  { s with host.insReg := tset 0 s.host.insReg (8 * p + i) v }

/-- The entry in a port's insertion registers. -/
def insEnt (s : State) (p : Nat) : DEnt :=
  { key := (insReg s p 0).toNat + (insReg s p 1).toNat * 2 ^ 32, act := insReg s p 2, pay := insReg s p 3 }

/-- A write of INS_CMD on a port's copy: the operation starts, INS_RESULT is cleared; a port whose operation runs is ignored (R61, R81). -/
def insCmdEff (p : Nat) (v : Word) : Eff := fun s =>
  let op := wField v 31 30
  if op = 1 || op = 2 then
    match tget none s.sch.ins p with
    | some _ => some (sedBusy INS_CMD s)
    | none => some (setInsReg p 4 0
        { s with sch.ins := tset none s.sch.ins p (some { ins := op == 1, list := wField v 1 0, ent := insEnt s p }) })
  else some s

/-- The operation of a port completes `ns` after the tick: DONE and its result (R61, R66). -/
def opDone (p ns : Nat) (s : State) : State :=
  match tget none s.sch.ins p with
  | none => s
  | some o =>
    let s := { s with sch.ins := tset none s.sch.ins p none }
    let (r, s) := if o.ins then insertEnt o.list o.ent ns s else cancelEnt o.list (entTag o.ent) s
    setInsReg p 4 (BitVec.ofNat 32 (2 ^ 31 + r)) s

/-- DL_INSERT (R62). -/
def execDlInsert (w : Who) (l : BitVec 2) (s : State) : Host.Outcome State Fault Refusal :=
  let v := BitVec.ofNat 32 (2 ^ 30 + l.toNat)
  .next (gated w INS_CMD v (insCmdEff (portCode w.port) v) s)

/-- DL_CANCEL (R66). -/
def execDlCancel (w : Who) (l : BitVec 2) (s : State) : Host.Outcome State Fault Refusal :=
  let v := BitVec.ofNat 32 (2 ^ 31 + l.toNat)
  .next (gated w INS_CMD v (insCmdEff (portCode w.port) v) s)

/-- BP_STALL (R72): the i-th held producer has been held back for more than 64 consecutive ticks. -/
def execBpStall (i : Nat) (s : State) : Host.Outcome State Fault Refusal :=
  .next (match s.sch.held[i]? with
    | some h =>
      if 64 < h.ticks then
        sediment 2 sevWarn 0x0702 (prodCode h.prod * 2 ^ 24 + h.obj) (w1cSet SCH_STATUS SCH_STATUS_BP_STALL 0 s)
      else s
    | none => s)

end Sys2Proof.Machine
end

