-- ==== Sys2Proof/Machine/LawMath.lean ====
section
/-! DEFINITION. The law engine's arithmetic and its laws (sections 3.2 and 3.5 to 3.7), on a law tile and a state tile as lists of 64 words. -/

namespace Sys2Proof.Machine
open R

/-! ### Arithmetic (section 3.2) -/

/-- A signal or an accumulator with its saturation flag. -/
abbrev Sig := Int × Bool

/-- sat32 of a sum (R86). -/
def sat32 (x : Int) : Sig := satF 32 x

/-- The signed 32-bit value of a tile word. -/
def w32 (t : List Word) (i : Nat) : Int := (t.getD i 0).toInt

/-- The signed 64-bit value of two tile words, low word first. -/
def w64 (t : List Word) (i : Nat) : Int := sx 64 ((t.getD i 0).toNat + (t.getD (i + 1) 0).toNat * 2 ^ 32)

/-- Write a signed 32-bit value. -/
def put32 (i : Nat) (v : Int) (t : List Word) : List Word := setW t i (BitVec.ofInt 32 v)

/-- Write a signed 64-bit value, low word first. -/
def put64 (i : Nat) (v : Int) (t : List Word) : List Word :=
  let u := ux 64 v
  setW (setW t i (BitVec.ofNat 32 u)) (i + 1) (BitVec.ofNat 32 (u / 2 ^ 32))

/-- The shift of coefficient k (R98). -/
def shiftOf (l : List Word) (k : Nat) : Int :=
  let i := 6 * k
  let f := (l.getD (48 + i / 32) 0).toNat + (l.getD (49 + i / 32) 0).toNat * 2 ^ 32
  sx 6 (f / 2 ^ (i % 32))

/-- A coefficient: mantissa and shift (R87). -/
def coef (l : List Word) (k : Nat) : Int × Int := (w32 l k, shiftOf l k)

/-- x × 2^s, discarding the bits shifted out below bit 0 (R88). -/
def shl (x s : Int) : Int := if 0 ≤ s then x * 2 ^ s.toNat else x.fdiv (2 ^ (-s).toNat)

/-- x × 2^s rounded half-up. -/
def shlR (x s : Int) : Int := if 0 ≤ s then x * 2 ^ s.toNat else rhu x (2 ^ (-s).toNat)

/-- cv: the effective value rounded half-up to Q1.31 and saturated (R87). -/
def cv (c : Int × Int) : Int := sat 32 (shlR c.1 c.2)

/-- An addition in the 72-bit accumulator (R88). -/
def accAdd (a : Sig) (x : Int) : Sig := let r := satF 72 (a.1 + x); (r.1, a.2 || r.2)

/-- mac(acc, k, x) (R88). -/
def mac (a : Sig) (c : Int × Int) (x : Int) : Sig := accAdd a (shl (c.1 * x * 2) c.2)

/-- mas(acc, x, y): two signals, s = 0 (R88). -/
def mas (a : Sig) (x y : Int) : Sig := accAdd a (x * y * 2)

/-- ext of a signal (R89). -/
def ext (x : Int) : Int := x * 2 ^ 32

/-- rs: round half-up to a signal and saturate (R90). -/
def rs (a : Sig) : Sig := let r := satF 32 ((a.1 + 2 ^ 31).fdiv (2 ^ 32)); (r.1, a.2 || r.2)

/-- conv: Q40.24 to Q1.31 of the full scale 2^F (R91). -/
def conv (d : Int) (f : Nat) : Sig := satF 32 (shlR d (7 - (f : Int)))

/-- clampi: an integrator clamped by its IMAX coefficient (R92). -/
def clampi (c : Int × Int) (x : Int) : Int :=
  let l := max 0 (min (shl (c.1 * 2 ^ 32) c.2) (2 ^ 63 - 1))
  clampI x (-l) l

/-- clamp to ±L, a limit below 0 acting as 0 (R93). -/
def clampS (x lim : Int) : Sig := let l := max 0 lim; let y := clampI x (-l) l; (y, y != x)

/-- The error of cos and sin within ±4 LSB, a free value (R94). -/
def trigErrI (k : Nat) : Int := (Config.trigErr k % 9 : Nat) - 4

/-- cos_sin (R94): within ±4 LSB of the exactly rounded value, +1 as 2^31 - 1. -/
def cosSin (t : Nat) : Int × Int :=
  let (c, s) := cosSinExact (t % 2 ^ 32)
  (sat 32 (c + trigErrI (2 * (t % 2 ^ 32))), sat 32 (s + trigErrI (2 * (t % 2 ^ 32) + 1)))

/-- div: exact quotient rounded half-up to Q1.31 and saturated (R95). -/
def divS (x y : Int) : Sig := satF 32 (rhu (x * 2 ^ 31) y)

/-- The ROM constants of Table 3.2. -/
def kS3 : Int × Int := (1239850262, 0)
def k2S3 : Int × Int := (1239850262, 1)
def kS32 : Int × Int := (1859775393, 0)
def kNS32 : Int × Int := (-1859775393, 0)
def mHalf : Int × Int := (-1073741824, 0)

/-! ### Tile fields (Tables 3.3 to 3.6) -/

def structBit (l : List Word) (i : Nat) : Bool := wbit (l.getD 57 0) i
def lawSetOf (l : List Word) : Nat := wField (l.getD 57 0) 31 28
def formatOf (l : List Word) : Nat := wField (l.getD 57 0) 27 24
def fsp (l : List Word) : Nat := wField (l.getD 58 0) 31 24
def fsv (l : List Word) : Nat := wField (l.getD 58 0) 23 16

/-- Flags and state a sample carries through the law pipe. -/
structure Pipe where
  st : List Word
  satEP : Bool := false
  satP : Bool := false
  satV : Bool := false
  satI : Bool := false
  bump : Bool := false
  /-- u_v or a duty was clamped (Table 3.9 SATUR) -/
  clamped : Bool := false
  deriving DecidableEq, Repr

/-- What presets the integrators of a sample and with which held outputs (R119, R123, Table 3.8). -/
structure Hold where
  uP : Option Int := none
  uV : Option Int := none
  uI : Option (Int × Int) := none
  /-- the biquads are preset to their first input (R114) -/
  first : Bool := false
  deriving DecidableEq, Repr

/-! ### The laws -/

/-- The velocity estimator (R105). -/
def estimator (l : List Word) (pMeas : Int) (x : Pipe) : Pipe :=
  let dp := conv (sx 64 (ux 64 (pMeas - w64 x.st 1))) (fsv l)
  let st := put64 1 pMeas x.st
  let r : Sig :=
    if structBit l 0 then
      let d := sat32 (dp.1 - w32 st 3)
      let v := rs (mac (ext (w32 st 3), false) (coef l 40) d.1)
      (v.1, v.2 || d.2)
    else (dp.1, false)
  { x with st := put32 3 r.1 st, satV := x.satV || dp.2 || r.2 }

/-- An integrator preset so that `other + I` writes u_hold; the flag says the clamp changed it (R119). -/
def preset (imax : Int × Int) (u : Int) (other : Int) : Int × Bool :=
  let i := ext u - other
  let c := clampi imax i
  (c, c != i)

/-- L-P (R105). -/
def lawP (l : List Word) (h : Hold) (pSet vSet aSet pMeas : Int) (x : Pipe) : Pipe :=
  let e := conv (sx 64 (ux 64 (pSet - pMeas))) (fsp l)
  let vs := conv vSet (fsv l)
  let as := conv aSet (fsv l)
  let st := if h.first then put32 5 0 (put32 4 e.1 x.st) else x.st
  let d1 := sat32 (e.1 - w32 st 4)
  let t := rs (mac (0, false) (coef l 2) d1.1)
  let d2 := sat32 (t.1 - w32 st 5)
  let df := rs (mac (ext (w32 st 5), false) (coef l 3) d2.1)
  let st := if structBit l 3 then put32 5 df.1 st else st
  let fD := structBit l 3 && (d1.2 || t.2 || d2.2 || df.2)
  let st := put32 4 e.1 st
  let other := accAdd (mac (0, false) (coef l 0) e.1) (if structBit l 3 then ext (w32 st 5) else 0)
  let other := if structBit l 4 then mac other (coef l 4) vs.1 else other
  let (ip, b) := match h.uP with
    | some u => if structBit l 1 then preset (coef l 9) u other.1 else (0, false)
    | none => (if structBit l 1 then w64 st 6 else 0, false)
  let un := accAdd other ip
  let r := rs un
  let u := clampS r.1 (cv (coef l 10))
  let b := b || (match h.uP with | some v => !structBit l 1 && u.1 != v | none => false)
  let aw := rs (accAdd (ext u.1, false) (-un.1))
  let acc := mac (mac (ip, false) (coef l 1) e.1) (coef l 11) aw.1
  let i' := if structBit l 1 then clampi (coef l 9) acc.1 else 0
  let fI := structBit l 1 && (aw.2 || acc.2)
  let f0 : Sig := if structBit l 5 then mac (0, false) (coef l 5) as.1 else (0, false)
  let fw := rs (mac (0, false) (coef l 8) vs.1)
  let f1 := if structBit l 6 then mac (mac f0 (coef l 6) fw.1) (coef l 7) vs.1 else f0
  let tff := rs f1
  { x with
    st := put32 9 tff.1 (put64 6 i' (put32 8 u.1 st)),
    satEP := x.satEP || e.2,
    satP := x.satP || vs.2 || as.2 || fD || r.2 || u.2 || fI || tff.2,
    bump := x.bump || b }

/-- One biquad at state word `w` with coefficients from `c`, on a signal (R106). -/
def biquad (l : List Word) (first : Bool) (c w : Nat) (v : Sig) (st : List Word) : Sig × List Word :=
  let st := if first then put32 w v.1 (put32 (w + 1) v.1 (put32 (w + 2) v.1 (put32 (w + 3) v.1 st))) else st
  let a := mac (0, false) (coef l c) v.1
  let a := mac a (coef l (c + 1)) (w32 st w)
  let a := mac a (coef l (c + 2)) (w32 st (w + 1))
  let a := mac a (coef l (c + 3)) (w32 st (w + 2))
  let a := mac a (coef l (c + 4)) (w32 st (w + 3))
  let y := rs a
  let st := put32 w v.1 (put32 (w + 1) (w32 st w) st)
  let st := put32 (w + 2) y.1 (put32 (w + 3) (w32 st (w + 2)) st)
  ((y.1, v.2 || y.2), st)

/-- L-V with u_p given (R106). -/
def lawV (l : List Word) (h : Hold) (uP : Int) (x : Pipe) : Pipe :=
  let ev := sat32 (uP - w32 x.st 3)
  let other := mac (0, false) (coef l 12) ev.1
  let other := if structBit l 7 then mac other (coef l 25) (w32 x.st 9) else other
  let (iv, b) := match h.uV with
    | some u => if structBit l 2 then preset (coef l 27) u other.1 else (0, false)
    | none => (if structBit l 2 then w64 x.st 10 else 0, false)
  let r := rs (accAdd other iv)
  let b := b || (match h.uV with | some v => !structBit l 2 && r.1 != v | none => false)
  let (v, st) := if structBit l 8 then biquad l h.first 15 12 r x.st else (r, x.st)
  let (v, st) := if structBit l 9 then biquad l h.first 20 16 v st else (v, st)
  let u := clampS v.1 (cv (coef l 26))
  let d := sat32 (u.1 - v.1)
  let acc := mac (mac (iv, false) (coef l 13) ev.1) (coef l 14) d.1
  let i' := if structBit l 2 then clampi (coef l 27) acc.1 else 0
  { x with
    st := put64 10 i' (put32 20 u.1 st),
    satV := x.satV || ev.2 || v.2 || u.2 || (structBit l 2 && (d.2 || acc.2)),
    clamped := x.clamped || u.2,
    bump := x.bump || b }

/-- edge(x, h): rise and fall of a high-side fraction (R109). -/
def edge (pf : Nat) (h : Int) : List Nat :=
  let h := min h (2 ^ 31 - 1)
  if h ≤ 0 then [pf, pf]
  else
    let r := (rhu (pf * (2 ^ 31 - h)) (2 ^ 32)).toNat
    [r, pf - r]

/-- elec_angle (R110). -/
def elecAngle (l : List Word) (p : Int) : Nat :=
  let poles : Int := wField (l.getD 60 0) 31 24
  let cpr : Int := max 1 (wField (l.getD 60 0) 23 0)
  let m := cpr * 2 ^ 24
  let u := (p * poles) % m
  ux 32 (rhu (u * 2 ^ 32) m)

/-- Write two edge compares per channel from word `w`, in bits [21:0] (Table 3.6). -/
def putEdges (w : Nat) (es : List Nat) (st : List Word) : List Word :=
  (es.zipIdx).foldl (fun t e => setW t (w + e.2) (BitVec.ofNat 32 (e.1 % 2 ^ 22))) st

/-- L-I (R108), vbus above its limit: the compares of the three phases. -/
def lawI (l : List Word) (h : Hold) (uV pMeas ia ib vbus : Int) (pf : Nat) (x : Pipe) : List Nat × Pipe :=
  let z : Sig := (0, false)
  let ibt := rs (mac (mac z kS3 ia) k2S3 ib)
  let (c, s) := cosSin (elecAngle l pMeas + (l.getD 61 0).toNat)
  let id := rs (mas (mas z ia c) ibt.1 s)
  let nia := sat32 (-ia)
  let iq := rs (mas (mas z ibt.1 c) nia.1 s)
  let we := rs (mac z (coef l 41) (w32 x.st 3))
  let ed := sat32 (cv (coef l 36) - id.1)
  let eq := sat32 (uV - iq.1)
  let wq := rs (mas z we.1 iq.1)
  let wd := rs (mas z we.1 id.1)
  let od := mac z (coef l 28) ed.1
  let od := if structBit l 10 then mac od (coef l 32) wq.1 else od
  let oq := mac z (coef l 30) eq.1
  let oq := if structBit l 10 then mac oq (coef l 33) wd.1 else oq
  let oq := if structBit l 11 then mac oq (coef l 34) we.1 else oq
  let en := structBit l 2
  let (idI, bd) := match h.uI with
    | some (u, _) => if en then preset (coef l 37) u od.1 else (0, false)
    | none => (if en then w64 x.st 21 else 0, false)
  let (iqI, bq) := match h.uI with
    | some (_, u) => if en then preset (coef l 37) u oq.1 else (0, false)
    | none => (if en then w64 x.st 23 else 0, false)
  let vdun := accAdd od idI
  let vqun := accAdd oq iqI
  let vl := rs (mac z (coef l 35) vbus)
  let rd' := rs vdun
  let rq' := rs vqun
  let vd := clampS rd'.1 vl.1
  let lq : Int := (isqrt (vl.1 * vl.1 - vd.1 * vd.1).toNat : Nat)
  let vq := clampS rq'.1 lq
  let b := bd || bq || (match h.uI with | some (u, v) => !en && (vd.1 != u || vq.1 != v) | none => false)
  let awd := rs (accAdd (ext vd.1, false) (-vdun.1))
  let awq := rs (accAdd (ext vq.1, false) (-vqun.1))
  let ad := mac (mac (idI, false) (coef l 29) ed.1) (coef l 38) awd.1
  let aq := mac (mac (iqI, false) (coef l 31) eq.1) (coef l 38) awq.1
  let id' := if en then clampi (coef l 37) ad.1 else 0
  let iq' := if en then clampi (coef l 37) aq.1 else 0
  let nvq := sat32 (-vq.1)
  let val := rs (mas (mas z vd.1 c) nvq.1 s)
  let vbt := rs (mas (mas z vd.1 s) vq.1 c)
  let dal := divS val.1 vbus
  let dbt := divS vbt.1 vbus
  let pa := dal.1
  let pb := rs (mac (mac z mHalf dal.1) kS32 dbt.1)
  let pc := rs (mac (mac z mHalf dal.1) kNS32 dbt.1)
  let zs := rhu (-(max (max pa pb.1) pc.1 + min (min pa pb.1) pc.1)) 2
  let ha := sat32 (2 ^ 30 + pa + zs)
  let hb := sat32 (2 ^ 30 + pb.1 + zs)
  let hc := sat32 (2 ^ 30 + pc.1 + zs)
  let es := edge pf ha.1 ++ edge pf hb.1 ++ edge pf hc.1
  let f := [ibt, id, nia, iq, we, ed, eq, vl, rd', rq', vd, vq, nvq, val, vbt, dal, dbt, pb, pc, ha, hb, hc].any (·.2) ||
    (structBit l 10 && (wq.2 || wd.2)) || (en && (awd.2 || awq.2 || ad.2 || aq.2))
  (es, { x with
    st := putEdges 27 es (put32 26 vq.1 (put32 25 vd.1 (put64 23 iq' (put64 21 id' x.st)))),
    satI := x.satI || f, bump := x.bump || b })

/-- L-SV (R111), vbus above its limit: the compares of a+, a−, b+ and b−. -/
def lawSV (l : List Word) (first : Bool) (pSet vSet vbus sw : Int) (pf : Nat) (x : Pipe) : List Nat × Pipe :=
  let z : Sig := (0, false)
  let (c, s) := cosSin (elecAngle l pSet + (l.getD 61 0).toNat)
  let ir := rs (mac z (coef l 3) sw)
  let ia := rs (mas z ir.1 c)
  let ib := rs (mas z ir.1 s)
  let cvv := conv vSet (fsv l)
  let w := rs (mac z (coef l 4) cvv.1)
  let ns := sat32 (-s)
  let ea := rs (mas z w.1 ns.1)
  let eb := rs (mas z w.1 c)
  let st := if first then put32 42 ib.1 (put32 41 ia.1 x.st) else x.st
  let phase (i ip e : Int) : Sig × Bool × List Nat :=
    let di := sat32 (i - ip)
    let a := mac (mac (mac z (coef l 0) i) (coef l 1) di.1) (coef l 2) e
    let v := rs a
    let q := divS v.1 vbus
    let d := clampS q.1 (cv (coef l 5))
    ((d.1, di.2 || v.2 || q.2 || d.2), d.2,
      edge pf (rhu (2 ^ 31 + d.1) 2) ++ edge pf (rhu (2 ^ 31 - d.1) 2))
  let a := phase ia.1 (w32 st 41) ea.1
  let b := phase ib.1 (w32 st 42) eb.1
  let es := a.2.2 ++ b.2.2
  let f := [ir, ia, ib, w, ns, ea, eb, a.1, b.1, cvv].any (·.2)
  (es, { x with
    st := putEdges 44 es (put32 42 ib.1 (put32 41 ia.1 st)),
    satI := x.satI || f, clamped := x.clamped || a.2.1 || b.2.1 })

/-- An enabled biquad's DC gain lies within 2^-16 of 1 (R107), from the effective values over a common 2^-63. -/
def dcGainOk (l : List Word) (c : Nat) : Bool :=
  let ev (k : Nat) : Int := shl ((coef l k).1 * 2 ^ 32) (coef l k).2
  let num := ev c + ev (c + 1) + ev (c + 2)
  let den := 2 ^ 63 - ev (c + 3) - ev (c + 4)
  let d := (num - den) * 65536
  if 0 < den then decide (d ≤ den) && decide (-den ≤ d)
  else if den < 0 then decide (d ≤ -den) && decide (den ≤ d) else false

/-- The checks of a law tile at load and at commit, with the result codes of Table 3.16 (R122). -/
def tileCheck (lawSet : Nat) (l : List Word) : Nat :=
  if !tileOk l then 2
  else if lawSetOf l ≠ lawSet || formatOf l ≠ 2 then 3
  else if (structBit l 8 && !dcGainOk l 15) || (structBit l 9 && !dcGainOk l 20) then 4
  else 0

/-! ### The spring ramp (R118, R120) -/

/-- The per-sample limits of R134: V_MAX, A_MAX, J_MAX, QS_MAX. -/
structure Lims where
  v : Int
  a : Int
  j : Int
  qs : Int
  deriving DecidableEq, Repr

/-- A limit in counts per second to the k, per sample of `ts` ns: rounded half-up, never below 1 LSB unless zero (R134). -/
def perSample (k ts lim : Nat) : Int :=
  if lim = 0 then 0 else max 1 (rhu (lim * ts ^ k) (10 ^ (9 * k)))

/-- clamp_to. -/
def clampTo (x lo hi : Int) : Int := max lo (min x hi)

/-- The product with a spring coefficient, exact and rounded half-up to Q40.24 (R118). -/
def srMul (c : Int × Int) (x : Int) : Int :=
  if 0 ≤ c.2 then rhu (c.1 * x * 2 ^ c.2.toNat) (2 ^ 31) else rhu (c.1 * x) (2 ^ (31 + (-c.2).toNat))

/-- One sample of the ramp equations from (o, w, a_tot): the new (o, w, a, a_tot) (R118). The clamps apply in the order written. -/
def rampStep (k1 k2 : Int × Int) (m : Lims) (vg ag o w aTot : Int) : Int × Int × Int × Int :=
  let a0 := -(srMul k1 o + srMul k2 w)
  let a1 := clampTo (ag + a0) (-m.a) m.a - ag
  let a2 := clampTo (ag + a1) (aTot - m.j) (aTot + m.j) - ag
  let wn := clampTo (vg + w + a2) (-m.v) m.v - vg
  let a3 := wn - w
  (sx 64 (ux 64 (o + wn)), wn, a3, ag + a3)

/-- |o| and |w| lie within SR_TOL × 2^FSP counts (R120). -/
def settled (l : List Word) (o w : Int) : Bool :=
  let tol := srMul (coef l 47) (2 ^ (24 + fsp l))
  decide (o ≤ tol) && decide (-tol ≤ o) && decide (w ≤ tol) && decide (-tol ≤ w)

/-- v_m in counts per sample, Q40.24. -/
def vmCounts (l : List Word) (v : Int) : Int := shlR v ((fsv l : Int) - 7)

end Sys2Proof.Machine
end

