-- ==== Sys2Proof/Machine/Law.lean ====
section
/-! DEFINITION. The law engine (chapter 3): the law task, modes, spring ramp, commits, snapshots, faults. -/

namespace Sys2Proof.Machine
open R

/-- T_s of an axis in ns: its class period (R133). -/
def tsOf (s : State) (n : Nat) : Nat := 2 ^ (s.ctx n).plog * tb s

/-- The per-sample limits of an axis (R134). The limit registers are read as unsigned Q40.24 (Table 4.4 needs values above 2^39). -/
def limsOf (s : State) (n : Nat) : Lims :=
  let ts := tsOf s n
  { v := perSample 1 ts (rd64 s (PF_V_LIM n)),
    a := perSample 2 ts (min (rd64 s (PF_A_LIM n)) (rd64 s (PF_D_LIM n))),
    j := perSample 3 ts (rd64 s (PF_J_LIM n)),
    qs := perSample 2 ts (rd64 s (PF_QS_DEC n)) }

/-- P_f of R109: 64 times the period of the bound bridge module (its shadow, R256) or of the node. -/
def pfOf (s : State) (n : Nat) : Nat :=
  match (s.ctx n).bridge with
  | some c => 64 * max 256 (fget s (BR_PERIOD (c / 3)) BR_PERIOD_PERIOD)
  | none => 64 * (s.ctx n).nodePeriod

/-- A unit is running a law task of an axis. -/
def lawRuns (s : State) (n : Nat) : Bool :=
  s.sch.unit.any fun e => match e.2.job with
    | some (.law i) => i.axis == n || (match i.second with | some x => x.axis == n | none => false)
    | _ => false

/-- The law tile stream of an axis passes its check, unless an injection corrupts it (R100, R481). -/
def checkLaw (n : Nat) (s : State) : Bool × State :=
  let (bad, s) := fiHit 1 n s
  (!bad && tileOk (lawTile s n), s)

/-- The state tile read of an axis passes its check, unless an injection corrupts it (R103, R481). -/
def checkState (n : Nat) (s : State) : Bool × State :=
  let (bad, s) := fiHit 2 n s
  (!bad && tileOk (stateTile s n), s)

/-- A law tile mismatch: outputs withheld, LTILE raised, counted in the home region (R100). -/
def lawMismatch (n : Nat) (s : State) : State := tileError (s.ctx n).region (raiseCause n 1 s)

/-- A state tile mismatch: STILE raised and counted, a tile with INIT = 0 and a valid CRC written back (R103). -/
def stateMismatch (n : Nat) (s : State) : State :=
  tileError (s.ctx n).region (clearInit n (raiseCause n 2 s))

/-- Standstill of a safety zone's axis: consecutive samples within SS_PTOL (R410). -/
def stillSample (n : Nat) (pos : Int) (s : State) : State :=
  let x := s.axl n
  let z := fget s (SZ_AX n) SZ_AX_ZONE
  let d := sx 64 (ux 64 (pos - x.stillPos))
  let tol : Int := fget s (SZ_STILL (min z 7)) SZ_STILL_SS_PTOL * 2 ^ 24
  s.setAxl n { x with still := if (s.fb n).sub.isNone && decide (-tol ≤ d ∧ d ≤ tol) then x.still + 1 else 0, stillPos := pos }

/-- A state tile without a spring ramp: o, w, a and the run of samples within tolerance are 0 (R120). -/
def noRamp (st : List Word) : List Word :=
  put64 33 0 (put64 35 0 (put64 37 0 (setW st 0 (withField (st.getD 0 0) ⟨7, 0⟩ 0))))

/-- The set-point a sample uses: the generator's, the spring ramp's, or the measured value while it tracks in MANUAL (R117, R118). -/
def setPoint (s : State) (n : Nat) (l : List Word) (st : List Word) (pMeas pg vg ag : Int) : Int × Int × Int × List Word × Bool :=
  let x := s.axl n
  let m := limsOf s n
  let ramp (o w aT : Int) (ho : Nat) :=
    let r := rampStep (coef l 45) (coef l 46) m vg ag o w aT
    let run := if settled l r.1 r.2.1 then min 255 (ho + 1) else 0
    let st := put64 39 r.2.2.2 (put64 37 r.2.2.1 (put64 35 r.2.1 (put64 33 r.1 st)))
    let st := setW st 0 (withField (st.getD 0 0) ⟨7, 0⟩ run)
    (sx 64 (ux 64 (pg + r.1)), vg + r.2.1, ag + r.2.2.1, st, true)
  if axMode s n = 1 then
    let o := sx 64 (ux 64 (pMeas - pg))
    let w := vmCounts l (w32 st 3) - vg
    (sx 64 (ux 64 (pg + o)), vg + w, ag, put64 35 w (put64 33 o (noRamp st)), false)
  else if x.srStart then
    ramp (sx 64 (ux 64 (pMeas - pg))) (vmCounts l (w32 st 3) - vg) ag 0
  else if x.srOn && wField (st.getD 0 0) 7 0 < 8 then ramp (w64 st 33) (w64 st 35) (w64 st 39) (wField (st.getD 0 0) 7 0)
  else (pg, vg, ag, noRamp st, false)

/-- The holds of a sample (R117, R119, R123, Table 3.8). -/
def holdsOf (s : State) (n : Nat) (l st : List Word) (first : Bool) (meas : Int) : Hold :=
  let x := s.axl n
  let man := axMode s n == 1
  let mo := (clampS (rd s (AX_MAN_OUT n)).toInt (cv (coef l 26))).1
  let vm := w32 st 3
  { first := first,
    uP := if man || x.fromMan then some vm else if first then some vm else if x.bl then some (w32 st 8) else none,
    uV := if man || x.fromMan then some mo else if first then some meas else if x.bl then some (w32 st 20) else none,
    uI := if first then some (0, 0) else if x.bl then some (w32 st 25, w32 st 26) else none }

/-- A first use presets the history (R114); SAT_RUN starts anew. -/
def presetFirst (pMeas : Int) (st : List Word) : List Word :=
  setW (put32 3 0 (put64 1 pMeas st)) 43 (withField (st.getD 43 0) ⟨31, 16⟩ 0)

/-- Set the sticky flags of a sample in AX_STATUS (Table 3.14). -/
def showFlags (n : Nat) (x : Pipe) (fe : Bool) (s : State) : State :=
  let a := AX_STATUS n
  let one (b : Bool) (f : Fld) (s : State) : State := if b then w1cSet a f n s else s
  one fe AX_STATUS_FE (one x.satI AX_STATUS_SAT_I (one x.satV AX_STATUS_SAT_V (one x.satP AX_STATUS_SAT_P
    (one x.satEP AX_STATUS_SAT_EP (one x.bump AX_STATUS_BUMP s)))))

/-- The end of a sample whose laws have run: write back the state tile, judge FOLLOW and SATUR, release or hold the outputs (R102, R115, R124, R125). -/
def finishSample (n : Nat) (pSet pMeas : Int) (srOn : Bool) (x : Pipe) (u : Int) (es : List Nat) (vSet : Int) (s : State) : State :=
  let w0 := x.st.getD 0 0
  let warm := wField w0 30 28
  let satRun := if x.clamped then min 0xFFFF (wField (x.st.getD 43 0) 31 16 + 1) else 0
  let w0 := withField (withField w0 ⟨31, 31⟩ 1) ⟨30, 28⟩ (warm - 1)
  let sat := x.satEP.toNat * 8 + x.satP.toNat * 4 + x.satV.toNat * 2 + x.satI.toNat
  let w0 := withField w0 ⟨11, 8⟩ sat
  let st := setW (setW x.st 0 w0) 43 (withField (x.st.getD 43 0) ⟨31, 16⟩ satRun)
  let s := putState s n st
  let s := fput (fput s (AX_STATUS n) AX_STATUS_INIT true) (AX_STATUS n) AX_STATUS_WARM (decide (1 < warm))
  let s := if x.satV then fincSat s (AX_SAT_CNT n) AX_SAT_CNT_V else s
  let s := if x.satP then fincSat s (AX_SAT_CNT n) AX_SAT_CNT_P else s
  let lim := rdN s (AX_FE_LIM n)
  let d := sx 64 (ux 64 (pSet - pMeas))
  let fe := warm = 0 && lim ≠ 0 && (decide ((lim : Int) * 2 ^ 24 < d) || decide (d < -((lim : Int) * 2 ^ 24)))
  let s := showFlags n x fe s
  let a := s.axl n
  let s := s.setAxl n { a with pSet := pSet, pMeas := pMeas, srOn := srOn, srStart := false, bl := false, fromMan := false }
  let s := endCause n 1 (endCause n 2 (endCause n 8 s))
  let s := judgeCause n 6 fe s
  let s := if x.clamped then s else endCause n 7 s
  let react := fget s (AX_STATUS n) AX_STATUS_REACT
  let hold := if react = 1 then min 255 (wField (x.st.getD 43 0) 15 8 + 1) else 0
  let s := if react = 4 then s
    else putState s n (setW (stateTile s n) 43 (withField ((stateTile s n).getD 43 0) ⟨15, 8⟩ hold))
  if react = 4 || react = 1 then s
  else
    let a := s.axl n
    let s := s.setAxl n { a with off := false, fresh := true, outU := u, outE := es, outP := pSet, outV := vSet,
                                 prog := if (s.ctx n).bridge.isSome && es ≠ [] then some es else a.prog }
    showSrc n s

/-- UNDERV ends the sample with its outputs withheld (R108, R111). -/
def underV (l : List Word) (k : Nat) (vbus : Int) : Bool := decide (vbus ≤ max (cv (coef l k)) 0)

/-- The q current of the measured phase currents, the measured current of a class A axis (Table 3.8). -/
def measIq (l : List Word) (pMeas ia ib : Int) : Int :=
  let (c, sn) := cosSin (elecAngle l pMeas + (l.getD 61 0).toNat)
  let ibt := rs (mac (mac (0, false) kS3 ia) k2S3 ib)
  (rs (mas (mas (0, false) ibt.1 c) (sat32 (-ia)).1 sn)).1

/-- The laws of one context whose tiles have passed their checks (R82, R105 to R111). -/
def runLaws (i : LawIn) (s : State) : State :=
  let n := i.axis
  let l := lawTile s n
  let st0 := stateTile s n
  let first := !wbit (st0.getD 0 0) 31
  let st := if first then presetFirst i.pMeas st0 else st0
  let (pSet, vSet, aSet, st, srOn) := setPoint s n l st i.pMeas i.pSet i.vSet i.aSet
  let set := lawSetOf l
  if (set = 1 && underV l 39 i.vbus) || (set = 4 && underV l 6 i.vbus) then raiseCause n 8 s
  else if set = 4 then
    let (es, x) := lawSV l first pSet vSet i.vbus i.sw i.pf { st := put64 1 i.pMeas st }
    finishSample n pSet i.pMeas srOn x 0 es vSet s
  else if set = 5 then
    finishSample n pSet i.pMeas srOn { st := put64 1 i.pMeas st } 0 [] vSet s
  else
    let x := estimator l i.pMeas { st := st }
    let meas := if i.torqueOff then 0 else if set = 1 then measIq l i.pMeas i.v1 i.v2 else i.v1
    let h := holdsOf s n l x.st first meas
    let x := lawP l h pSet vSet aSet i.pMeas x
    let x := lawV l h (w32 x.st 8) x
    let man := clampS (rd s (AX_MAN_OUT n)).toInt (cv (coef l 26))
    let (u, x) : Int × Pipe :=
      if axMode s n = 1 then (man.1, { x with st := put32 20 man.1 x.st, satV := x.satV || man.2 }) else (w32 x.st 20, x)
    if set = 1 then
      let (es, x) := lawI l h u i.pMeas i.v1 i.v2 i.vbus i.pf x
      finishSample n pSet i.pMeas srOn x u es vSet s
    else finishSample n pSet i.pMeas srOn x u [] vSet s

/-- L-G on a Lagoon pair (R112): context m with the mean position, n with the difference. -/
def runLG (i : LawIn) (j : LawSnd) (s : State) : State :=
  let m := i.axis
  let n := j.axis
  let pmn := j.pMeas
  let lm := lawTile s m
  let ln := lawTile s n
  let prep (k : Nat) (p : Int) : Bool × List Word :=
    let st := stateTile s k
    let first := !wbit (st.getD 0 0) 31
    (first, if first then presetFirst p st else st)
  let (fm, stm) := prep m i.pMeas
  let (fn, stn) := prep n pmn
  let pc := rhu (i.pMeas + pmn) 2
  let pd := sx 64 (ux 64 (i.pMeas - pmn))
  let (psm, vsm, asm, stm, om) := setPoint s m lm stm pc i.pSet i.vSet i.aSet
  let (psn, vsn, asn, stn, on) := setPoint s n ln stn pd j.pSet j.vSet j.aSet
  let xm := estimator lm i.pMeas { st := stm }
  let xn := estimator ln pmn { st := stn }
  let hm := holdsOf s m lm xm.st fm (if i.torqueOff then 0 else i.v1)
  let hn := holdsOf s n ln xn.st fn (if j.torqueOff then 0 else j.v1)
  let xm := lawP lm hm psm vsm asm pc xm
  let xn := lawP ln hn psn vsn asn pd xn
  let uc := w32 xm.st 8
  let ud := w32 xn.st 8
  let h := rhu ud 2
  let xm := lawV lm hm (sat32 (uc + h)).1 xm
  let xn := lawV ln hn (sat32 (uc - h)).1 xn
  let out (k : Nat) (l : List Word) (x : Pipe) : Int × Pipe :=
    let man := clampS (rd s (AX_MAN_OUT k)).toInt (cv (coef l 26))
    if axMode s k = 1 then (man.1, { x with st := put32 20 man.1 x.st }) else (w32 x.st 20, x)
  let (um, xm) := out m lm xm
  let (un, xn) := out n ln xn
  finishSample n psn pd on xn un [] vsn (finishSample m psm pc om xm um [] vsm s)

/-- The axis only streams and checks its law tile: OFF, or TORQUE_OFF latched (R116). -/
def lawIdle (s : State) (n : Nat) : Bool := axMode s n == 0 || torqueOffLatched s n

/-- A sample of an axis that is off: conditions that are not evaluated count as not found (R128); p_gen follows p_meas (R139). -/
def idleSample (n : Nat) (pMeas : Int) (ok : Bool) (s : State) : State :=
  let s := s.setAxl n { s.axl n with pMeas := pMeas, idle := true, prog := if (s.ctx n).bridge.isSome then some [] else none }
  let s := genOff n s
  let s := endCause n 2 (endCause n 6 (endCause n 7 (endCause n 8 s)))
  if ok then endCause n 1 s else lawMismatch n s

/-- A law task ends (R100, R102, R103, R112). -/
def lawDone (i : LawIn) (s : State) : State :=
  let n := i.axis
  match i.second with
  | none =>
    let (okL, s) := checkLaw n s
    let s := stillSample n (if (s.ctx n).hasPos then i.pMeas else i.pSet) s
    if i.off || lawIdle s n then idleSample n i.pMeas okL s
    else
      let s := s.setAxl n { s.axl n with idle := false }
      let (okS, s) := checkState n s
      let s := if okL then s else lawMismatch n s
      let s := if okS then s else stateMismatch n s
      if okL && okS then runLaws i s else s
  | some j =>
    let m := j.axis
    let (a, s) := checkLaw n s
    let (b, s) := checkLaw m s
    let s := stillSample m j.pMeas (stillSample n i.pMeas s)
    let offN := i.off || lawIdle s n
    let offM := j.off || lawIdle s m
    if offN || offM then
      let s := if offN then idleSample n i.pMeas a s else if a then s else lawMismatch n s
      if offM then idleSample m j.pMeas b s else if b then s else lawMismatch m s
    else
      let s := [n, m].foldl (fun s k => s.setAxl k { s.axl k with idle := false }) s
      let (c, s) := checkState n s
      let (d, s) := checkState m s
      let s := if a then s else raiseCause m 1 (lawMismatch n s)
      let s := if b then s else raiseCause n 1 (lawMismatch m s)
      let s := if c then s else clearInit m (raiseCause m 2 (stateMismatch n s))
      let s := if d then s else clearInit n (raiseCause n 2 (stateMismatch m s))
      if a && b && c && d then runLG i j s else s

/-- A unit ends its job `ns` after the tick: its busy time is counted (R74). -/
def freeUnit (u ns : Nat) (s : State) : State :=
  let x := s.unit u
  s.setUnit u { x with job := none, yield := false, busy := x.busy + (s.time.start + ns - x.since) }

/-- SATUR (R124): clamped for SAT_LIM consecutive samples outside warm-up. -/
def execSatur (n : Axis) (s : State) : Host.Outcome State Fault Refusal :=
  let st := stateTile s n.toNat
  let lim := fget s (AX_CTRL n.toNat) AX_CTRL_SAT_LIM
  .next (if lim ≠ 0 && lim ≤ wField (st.getD 43 0) 31 16 && wField (st.getD 0 0) 30 28 = 0 then raiseCause n.toNat 7 s else s)

/-- HOLD_TIMEOUT (R125): the cause has persisted for HOLD_N samples and the reaction becomes TORQUE_OFF. -/
def execHoldTimeout (n : Axis) (s : State) : Host.Outcome State Fault Refusal :=
  let k := n.toNat
  .next (if fget s (AX_STATUS k) AX_STATUS_REACT = 1 &&
      max 1 (fget s (AX_CTRL k) AX_CTRL_HOLD_N) ≤ wField ((stateTile s k).getD 43 0) 15 8 then
    react k (fget s (AX_STATUS k) AX_STATUS_FAULT) 4 s else s)

/-- Rebuild a failing law tile from the resident recipe store (R129). -/
def rebuildLaw (n : Nat) (s : State) : State :=
  let t := tget [] s.law.store n
  if t ≠ [] && tileCheck (s.ctx n).lawSet t = 0 then
    let s := wrAll (LAW_TILE n) 0 t s
    logSteward 5 0 n 0 (w1cSet (AX_STATUS n) AX_STATUS_REBUILT n s)
  else logSteward 5 2 n 0 (enterOff n s)

/-- LAW_TILE_REBUILD (R129): the steward rebuilds the law tile of an axis whose check fails, between two samples. -/
def execLawTileRebuild (n : Axis) (s : State) : Host.Outcome State Fault Refusal :=
  .next (if (s.axl n.toNat).causes.testBit 0 && !lawRuns s n.toNat then rebuildLaw n.toNat s else s)

/-- A write of AX_CTRL (R116, R117, R118, R128, R533). -/
def axCtrlEff (n : Nat) (v : Word) : Eff := fun s =>
  let new := wField v 1 0
  let old := axMode s n
  let v' := if new = 3 then withField v AX_CTRL_MODE old else v
  let plain (s : State) : State := wr s (AX_CTRL n) (applied { base := 0, dims := [], rows := [⟨23, 16, .rwl, 0⟩, ⟨7, 4, .rwl, 0⟩, ⟨1, 0, .rw, 0⟩] } (rd s (AX_CTRL n)) v')
  if new = 3 || new = old then some (plain s)
  else if new = 0 then some (enterOff n (plain s))
  else if torqueOffLatched s n || !(s.ctx n).used || zoneBlocks s n then none
  else if new = 1 then
    if (s.ctx n).lawSet = 1 || (s.ctx n).lawSet = 2 || (s.ctx n).lawSet = 3 then
      let s := if old = 2 then wr s (AX_MAN_OUT n) ((stateTile s n).getD 20 0) else s
      let s := s.setAxl n { s.axl n with srOn := false, srStart := false }
      some (showSrc n (plain s))
    else none
  else
    let s := s.setAxl n { s.axl n with srStart := true, fromMan := old == 1 }
    some (showSrc n (plain s))

/-- MODE_WRITE (R116). -/
def execModeWrite (w : Who) (n : Axis) (v : Word) (s : State) : Host.Outcome State Fault Refusal :=
  .next (gated w (AX_CTRL n.toNat) v (axCtrlEff n.toNat v) s)

/-- SNAP (R123): DONE is cleared and the copy is due between two samples. -/
def snapEff (n : Nat) (s : State) : State :=
  fput { s with law.snap := some n } LAW_SNAP_STATUS LAW_SNAP_STATUS_DONE false

/-- SR (R118): in AUTO only. -/
def srEff (n : Nat) (s : State) : State :=
  if axMode s n = 2 then
    showSrc n (s.setAxl n { s.axl n with srStart := true })
  else sedRule (AX_CMD n) s

/-- The axis reset (R113, Table 3.15, Table 14.4): OFF, causes and reactions cleared, registers to their reset and image values, a failing law tile rebuilt. -/
def rstEff (n : Nat) (s : State) : State :=
  let s := enterOff n s
  let s := s.setAxl n { s.axl n with causes := 0 }
  let s := { s with sch.ovr := tset 0 s.sch.ovr n 0, sch.ovrHere := tset false s.sch.ovrHere n false }
  let s := resetWords (AX_STATUS n) 2 s
  let s := resetWords (PF_CTRL n) 44 s
  let s := clearInit n (genOff n s)
  let s := if (s.ctx n).node.isSome then s.setFb n { s.fb n with got := false } else s
  if tileOk (lawTile s n) then s else rebuildLaw n s

/-- FCLR (R128). -/
def fclrEff (n : Nat) (s : State) : State :=
  let r := fget s (AX_STATUS n) AX_STATUS_REACT
  let clear (s : State) : State := fset (fset s (AX_STATUS n) AX_STATUS_REACT 0) (AX_STATUS n) AX_STATUS_FAULT 0
  let g := s.gen n
  if (s.axl n).causes ≠ 0 then sedRule (AX_CMD n) s
  else if r = 4 then enterOff n (clear s)
  else if (r = 2 || r = 3) && gmode s n = 0 && g.v = 0 && g.req.isNone then
    let s := clear s
    showSrc n (if axMode s n = 2 then s.setAxl n { s.axl n with srStart := true } else s)
  else sedRule (AX_CMD n) s

/-- A write of AX_CMD (Table 3.15): RST, FCLR, SR, SNAP in this order. -/
def axCmdEff (n : Nat) (v : Word) : Eff := fun s =>
  let s := if wbit v 1 then rstEff n s else s
  let s := if wbit v 0 then fclrEff n s else s
  let s := if wbit v 2 then srEff n s else s
  some (if wbit v 3 then snapEff n s else s)

/-- SNAP. -/
def execSnap (w : Who) (n : Axis) (s : State) : Host.Outcome State Fault Refusal :=
  .next (gated w (AX_CMD n.toNat) 8 (axCmdEff n.toNat 8) s)

/-- SNAP_COPY (R123, R131): between two samples both tiles are copied to the snapshot buffer. -/
def execSnapCopy (s : State) : Host.Outcome State Fault Refusal :=
  .next (match s.law.snap with
    | some n =>
      if lawRuns s n then s
      else
        let s' := wrAll LAW_SNAP_STATE 0 (stateTile s n) (wrAll LAW_SNAP_LAW 0 (lawTile s n) s)
        fput (fset { s' with law.snap := none } LAW_SNAP_STATUS LAW_SNAP_STATUS_AXIS n) LAW_SNAP_STATUS LAW_SNAP_STATUS_DONE true
    | none => s)

/-- SR. -/
def execSr (w : Who) (n : Axis) (s : State) : Host.Outcome State Fault Refusal :=
  .next (gated w (AX_CMD n.toNat) 4 (axCmdEff n.toNat 4) s)

/-- RST. -/
def execRst (w : Who) (n : Axis) (s : State) : Host.Outcome State Fault Refusal :=
  .next (gated w (AX_CMD n.toNat) 2 (axCmdEff n.toNat 2) s)

/-- FCLR. -/
def execFclr (w : Who) (n : Axis) (s : State) : Host.Outcome State Fault Refusal :=
  .next (gated w (AX_CMD n.toNat) 1 (axCmdEff n.toNat 1) s)

/-- SPRING_RAMP_HANDOVER (R120): after 8 samples within tolerance o, w and a are 0 and the source is the generator. -/
def execSpringRampHandover (n : Axis) (s : State) : Host.Outcome State Fault Refusal :=
  let k := n.toNat
  let st := stateTile s k
  .next (if (s.axl k).srOn && 8 ≤ wField (st.getD 0 0) 7 0 then
    let s := putState s k (noRamp st)
    showSrc k (s.setAxl k { s.axl k with srOn := false })
  else s)

/-- Why a commit is refused, with its result code (R122, Table 3.16); 0 accepts. -/
def tubResult (w : Who) (n : Nat) (s : State) : Nat :=
  if !lockOpen s w 6 || !(s.ctx n).used || mirrorDown s then 5
  else if stillToMove s n then 1
  else tileCheck (s.ctx n).lawSet (rdWords s (LAW_TUB 0) 64)

/-- A write of LAW_TUB_CMD (R121, R122). -/
def tubCmdEff (w : Who) (v : Word) : Eff := fun s =>
  if fbit s LAW_TUB_STATUS LAW_TUB_STATUS_BUSY then some (sedBusy LAW_TUB_CMD s)
  else
    let s := wr s LAW_TUB_STATUS 0
    if wbit v 31 then
      let n := wField v 7 0
      let r := tubResult w n s
      if r = 0 then
        let s := if mirroring s then
            addRec 2 w.port (beOf 1 n ++ beOf 1 (wbit v 8).toNat ++ (rdWords s (LAW_TUB 0) 64).flatMap beBytes) s
          else s
        some (fput { s with law.tub := some (n, wbit v 8, w) } LAW_TUB_STATUS LAW_TUB_STATUS_BUSY true)
      else some (fset s LAW_TUB_STATUS LAW_TUB_STATUS_RESULT r)
    else some s

/-- LAW_TUB_COMMIT (R122). -/
def execLawTubCommit (w : Who) (n : Axis) (bl : Bool) (s : State) : Host.Outcome State Fault Refusal :=
  let v := BitVec.ofNat 32 (2 ^ 31 + bl.toNat * 256 + n.toNat)
  .next (gated w LAW_TUB_CMD v (tubCmdEff w v) s)

/-- Put a tile in place of the live one and into the recipe store (R122). -/
def installLaw (n : Nat) (t : List Word) (bl : Bool) (s : State) : State :=
  let s := wrAll (LAW_TILE n) 0 t s
  let s := { s with law.store := tset [] s.law.store n t }
  s.setAxl n { s.axl n with bl := bl }

/-- Between two samples the accepted tile replaces the live one; logged (R122, R131). -/
def installTub (s : State) : State :=
  match s.law.tub with
    | some (n, bl, w) =>
      if lawRuns s n then s
      else
        let old := lawTile s n
        let t := rdWords s (LAW_TUB 0) 64
        let s := installLaw n t bl { s with law.tub := none }
        let s := logPush { seq := 0, sub := 0, head := 0, origin := portCode w.port * 16 + (if w.port = .steward then 0 else roleOf s w), kind := 2,
                           time := s.time.ns, session := w.sess.toNat, result := 0, object := n,
                           oldCrc := crcWords old, newCrc := crcWords t, detail := 0 } s
        wr s LAW_TUB_STATUS 0
    | none => s

/-- LAW_TILE_INSTALL: in a pair the tile waits for the EFF_CYC of its record (R377). -/
def execLawTileInstall (s : State) : Host.Outcome State Fault Refusal :=
  .next (if s.pair.recs.any fun o => o.r.kind == 2#8 && !o.applied then s else installTub s)

end Sys2Proof.Machine
end

