-- ==== Sys2Proof/Machine/Plan.lean ====
section
/-! DEFINITION. Jerk-limited profiles (R140, R144, R147, R155, R178): planning and exact evaluation. Quantities are integers in units of 2^-80 counts, counts/s, counts/s², counts/s³ and seconds. -/

namespace Sys2Proof.Machine
open R

def fx : Int := 2 ^ 80
def fmul (a b : Int) : Int := (a * b).fdiv fx
def fdivq (a b : Int) : Int := if b = 0 then 0 else (a * fx).fdiv b
def fsqrt (a : Int) : Int := (isqrt (a * fx).toNat : Nat)

/-- Position, velocity and acceleration after `t` under constant jerk. -/
def jerkStep (p v a j t : Int) : Int × Int × Int :=
  (p + fmul t (v + (fmul t (a + (fmul t j).fdiv 3)).fdiv 2), v + fmul t (a + (fmul t j).fdiv 2), a + fmul t j)

/-- The state at the end of a list of segments. -/
def segsEnd : List Seg → Int × Int × Int → Int × Int × Int
  | [], x => x
  | s :: t, (p, v, a) => segsEnd t (jerkStep p v a s.jerk s.dur)

/-- The duration of a list of segments. -/
def segsTime (l : List Seg) : Int := l.foldl (fun t s => t + s.dur) 0

/-- The state `t` after the start, at most at the end of the segments; beyond it the last velocity goes on. -/
def segsAt : List Seg → Int → Int × Int × Int → Int × Int × Int
  | [], t, (p, v, _) => (p + fmul v t, v, 0)
  | s :: l, t, (p, v, a) =>
    if t < s.dur then jerkStep p v a s.jerk t else segsAt l (t - s.dur) (jerkStep p v a s.jerk s.dur)

/-- From (v0, a0) up to a velocity v1 at or above the one a straight return of the acceleration to 0 gives. -/
def velUp (v0 a0 v1 lim j : Int) : List Seg :=
  let vz := v0 + fdivq (fmul a0 (if a0 < 0 then -a0 else a0)) (2 * j)
  if lim < a0 then
    [⟨-j, fdivq (a0 - lim) j⟩, ⟨0, fdivq (v1 - vz) lim⟩, ⟨-j, fdivq lim j⟩]
  else
    let ap := fsqrt (max 0 (fmul j (v1 - v0) + (fmul a0 a0).fdiv 2))
    if ap ≤ lim then [⟨j, max 0 (fdivq (ap - a0) j)⟩, ⟨-j, fdivq ap j⟩]
    else
      let dv := fdivq (2 * fmul lim lim - fmul a0 a0) (2 * j)
      [⟨j, fdivq (lim - a0) j⟩, ⟨0, fdivq (v1 - v0 - dv) lim⟩, ⟨-j, fdivq lim j⟩]

/-- The time-optimal change from (v0, a0) to (v1, 0) with positive acceleration within `up` and negative within `dn`; an acceleration beyond its limit is first brought within it at J (R144, R147). -/
def velChange (v0 a0 v1 up dn j : Int) : List Seg :=
  let vz := v0 + fdivq (fmul a0 (if a0 < 0 then -a0 else a0)) (2 * j)
  if vz ≤ v1 then velUp v0 a0 v1 up j
  else (velUp (-v0) (-a0) (-v1) dn j).map fun s => { s with jerk := -s.jerk }

/-- The stop of R147. -/
def stopSegs (v0 a0 d j : Int) : List Seg := velChange v0 a0 0 d d j

/-- Where a stop ends, relative to its start. -/
def stopDist (v0 a0 d j : Int) : Int := (segsEnd (stopSegs v0 a0 d j) (0, v0, a0)).1

/-- The profile over a peak velocity: to vp, a cruise, and to rest. -/
def overPeak (v0 a0 vp up d j cruise : Int) : List Seg × Int :=
  let s1 := velChange v0 a0 vp up d j
  (s1 ++ (if 0 < cruise then [⟨0, cruise⟩] else []) ++ stopSegs vp 0 d j, segsTime s1 + cruise)

/-- How far the profile over a peak velocity travels without a cruise. -/
def peakDist (v0 a0 vp up d j : Int) : Int := (segsEnd (overPeak v0 a0 vp up d j 0).1 (0, v0, a0)).1

/-- The greatest value of [lo, hi] at which `ok` still holds, by halving. -/
def bisect (ok : Int → Bool) : Nat → Int → Int → Int
  | 0, lo, _ => lo
  | f + 1, lo, hi =>
    let m := (lo + hi).fdiv 2
    if ok m then bisect ok f m hi else bisect ok f lo m

/-- Steps of the searches. -/
def fuel : Nat := 150

/-- The smallest deceleration limit whose stop travels at most `dist`. -/
def fitDecel (v0 a0 dist d j : Int) : Int :=
  d - bisect (fun e => decide (stopDist v0 a0 (d - e) j ≤ dist)) fuel 0 (d - 1)

/-- The profile from (v0, a0) to rest `dist` ahead, the stop from the present state being no longer than `dist` (R140, R144): its segments and the time deceleration begins. -/
def reach (v0 a0 dist vl up d j : Int) : List Seg × Int :=
  let vz := max 0 (v0 + fdivq (fmul a0 (if a0 < 0 then -a0 else a0)) (2 * j))
  if vl < vz then
    let f := peakDist v0 a0 vl up d j
    if f ≤ dist then overPeak v0 a0 vl up d j (fdivq (dist - f) vl)
    else (stopSegs v0 a0 (fitDecel v0 a0 dist d j) j, 0)
  else
    let f := peakDist v0 a0 vl up d j
    if f ≤ dist then overPeak v0 a0 vl up d j (fdivq (dist - f) vl)
    else if peakDist v0 a0 vz up d j ≤ dist then
      let vp := bisect (fun v => decide (peakDist v0 a0 v up d j ≤ dist)) fuel vz vl
      let r := dist - peakDist v0 a0 vp up d j
      overPeak v0 a0 vp up d j (fdivq r vp)
    else (stopSegs v0 a0 (fitDecel v0 a0 dist d j) j, 0)

/-- Change the sign of a profile. -/
def flipSegs (neg : Bool) (l : List Seg) : List Seg :=
  if neg then l.map fun s => { s with jerk := -s.jerk } else l

/-- A move or a re-plan to a locked target that never reverses the axis (R140, R144); `none` where it is not feasible. Limits are V, A, D, J. -/
def planMove (p0 target : Int) (v0 a0 : Int) (lims : List Int) : Option Plan :=
  let vl := lims.getD 0 0
  let al := lims.getD 1 0
  let d := lims.getD 2 0
  let j := lims.getD 3 0
  let dist := sx 64 (ux 64 (target - p0)) * 2 ^ 56
  let neg := if dist ≠ 0 then decide (dist < 0) else decide (v0 < 0)
  let σ : Int := if neg then -1 else 1
  let v := σ * v0
  let a := σ * a0
  let vz := v + fdivq (fmul a (if a < 0 then -a else a)) (2 * j)
  if v < 0 || vz < 0 || σ * dist < stopDist v a d j then none
  else
    let (segs, td) := reach v a (σ * dist) vl al d j
    some { v0 := v0, a0 := a0, segs := flipSegs neg segs, p0 := p0, target := target, tDec := td }

/-- The stop of R147 from a state, with its stop point. -/
def planStop (p0 v0 a0 d j : Int) : Plan :=
  let segs := stopSegs v0 a0 d j
  { v0 := v0, a0 := a0, segs := segs, p0 := p0,
    target := sx 64 (ux 64 (p0 + rhu (segsEnd segs (0, v0, a0)).1 (2 ^ 56))) }

/-- A stop that ends exactly on a point ahead, with the deceleration not above D (R155). -/
def planStopOn (p0 target v0 a0 d j : Int) : Plan :=
  let dist := sx 64 (ux 64 (target - p0)) * 2 ^ 56
  let σ : Int := if dist < 0 then -1 else 1
  let v := σ * v0
  let a := σ * a0
  if stopDist v a d j ≤ σ * dist then
    { v0 := v0, a0 := a0, segs := flipSegs (decide (dist < 0)) (stopSegs v a (fitDecel v a (σ * dist) d j) j), p0 := p0, target := target }
  else planStop p0 v0 a0 d j

/-- The offset profile of a registration shift, which may reverse (R178). -/
def planShift (p0 target v0 a0 : Int) (lims : List Int) : Plan :=
  let d := lims.getD 2 0
  let j := lims.getD 3 0
  let dist := sx 64 (ux 64 (target - p0)) * 2 ^ 56
  let neg := decide (dist < stopDist v0 a0 d j)
  let σ : Int := if neg then -1 else 1
  let v := σ * v0
  let a := σ * a0
  let up := if v < 0 then min (lims.getD 1 0) d else lims.getD 1 0
  let (segs, td) := reach v a (σ * dist) (lims.getD 0 0) up d j
  { v0 := v0, a0 := a0, segs := flipSegs neg segs, p0 := p0, target := target, tDec := td }

/-- Motion towards a constant velocity within A, D, J, going on at it (Table 4.6). -/
def planRun (p0 v0 a0 v1 a d j : Int) : Plan :=
  let up := if v0 < 0 then d else a
  let dn := if v0 ≤ 0 then a else d
  { v0 := v0, a0 := a0, segs := velChange v0 a0 v1 up dn j, p0 := p0, target := p0, run := true }

/-- ns as 2^-80 s. -/
def nsFx (t : Nat) : Int := ((t : Int) * fx).fdiv (10 ^ 9)

/-- The set-point a plan gives `ts` ns later: p, per-sample v and a, and whether the plan has ended (R133, R140). -/
def planNext (ts : Nat) (pl : Plan) : Plan × Int × Int × Int × Bool :=
  let pl := { pl with t := pl.t + ts }
  let τ := nsFx pl.t
  if !pl.run && decide (segsTime pl.segs ≤ τ) then (pl, pl.target, 0, 0, true)
  else
    let (p, v, a) := segsAt pl.segs τ (0, pl.v0, pl.a0)
    (pl, sx 64 (ux 64 (pl.p0 + rhu p (2 ^ 56))), rhu (v * ts) (10 ^ 9 * 2 ^ 56), rhu (a * ts * ts) (10 ^ 18 * 2 ^ 56), false)

/-- Per-sample velocity in 2^-80 counts/s. -/
def velFx (ts : Nat) (v : Int) : Int := (v * 10 ^ 9 * 2 ^ 56).fdiv (max 1 ts)
/-- Per-sample acceleration in 2^-80 counts/s². -/
def accFx (ts : Nat) (a : Int) : Int := (a * 10 ^ 18 * 2 ^ 56).fdiv (max 1 ts * max 1 ts)

end Sys2Proof.Machine
end

