-- ==== Sys2Proof/Machine/Cam.lean ====
section
/-! DEFINITION. Cams (section 4.8): tiles, points, segment laws with their derivatives, and the transition quintic (R185). Values are in 2^-88 counts (Q40.24 with 64 further bits). -/

namespace Sys2Proof.Machine
open R

/-- The address of cam tile t in the SRAM of its region (R493). -/
def camTileAddr (t : Nat) : Nat := 0x1000000 + 0x280000 * (t / 384) + t % 384 * 0x1000

/-- The tile that holds a point: the point's place in the chain (R167). -/
def chainTile (s : State) : Nat → Nat → Nat
  | 0, t => t
  | k + 1, t => chainTile s k (fget s (TILE_INFO t) TILE_INFO_NEXT)

/-- First tile, number of points, STROKE and kind of a cam (Table 4.16). -/
def camFirst (s : State) (i : Nat) : Nat := fget s (CAM_INFO i) CAM_INFO_FIRST
def camPts (s : State) (i : Nat) : Nat := fget s (CAM_INFO i) CAM_INFO_POINTS_M1 + 1
def camCyclic (s : State) (i : Nat) : Bool := fbit s (CAM_INFO i) CAM_INFO_CYCLIC
def camStroke (s : State) (i : Nat) : Int := sx 64 (rdN s (CAM_STROKE_LO i) + rdN s (CAM_STROKE_HI i) * 2 ^ 32)

def pointTile (s : State) (i k : Nat) : Nat := chainTile s (k / 256) (camFirst s i)
def pointAddr (s : State) (i k : Nat) : Nat := camTileAddr (pointTile s i k) + 16 * (k % 256)

/-- X, Y and the law word of a point; index N of a cyclic cam is the closing point, and neighbours wrap (R169, R170). -/
def ptX (s : State) (i : Nat) (k : Int) : Int :=
  let n : Int := camPts s i
  (rdN s (pointAddr s i (k % n).toNat) : Int) + k.fdiv n * 2 ^ 32
def ptY (s : State) (i : Nat) (k : Int) : Int :=
  let n : Int := camPts s i
  let a := pointAddr s i (k % n).toNat
  sx 64 (rdN s (a + 4) + rdN s (a + 8) * 2 ^ 32) + k.fdiv n * camStroke s i
def ptLaw (s : State) (i : Nat) (k : Int) : Word :=
  rd s (pointAddr s i (k % (camPts s i : Int)).toNat + 12)

/-- The last point at or below x, by halving over [lo, hi). -/
def findPt (s : State) (i x : Nat) : Nat → Nat → Nat → Nat
  | 0, lo, _ => lo
  | f + 1, lo, hi =>
    let m := (lo + hi) / 2
    if hi ≤ lo + 1 then lo
    else if rdN s (pointAddr s i m) ≤ x then findPt s i x f m hi else findPt s i x f lo m

def q64 : Int := 2 ^ 64
def qm (a b : Int) : Int := (a * b).fdiv q64

/-- Cosine and sine of a fraction of a turn in 2^-64, in Q64. -/
def turnCS (t : Int) : Int × Int :=
  let u := ux 64 t
  let r : Int := ((u % 2 ^ 62 * piQ64 / 2 ^ 63 : Nat) : Int)
  let y := qm r r
  let c := trigSer y 16 1
  let s := qm r (trigSer y 16 2)
  match u / 2 ^ 62 with
  | 0 => (c, s)
  | 1 => (-s, c)
  | 2 => (-c, -s)
  | _ => (s, -c)

def piI : Int := piQ64

/-- f_ms with its first two derivatives (R170), u and results in Q64. -/
def fMsin (u : Int) : Int × Int × Int :=
  let k := (q64 * q64).fdiv (4 * q64 + piI)
  let ends (c0 : Int) : Int × Int × Int :=
    let (c, s) := turnCS (2 * u)
    (qm k (c0 * q64 + qm piI u - s.fdiv 4), qm k (piI - qm piI c), qm k (4 * qm piI (qm piI s)))
  if u < q64 / 8 then ends 0
  else if 7 * (q64 / 8) ≤ u then ends 4
  else
    let (c, s) := turnCS ((q64 + 4 * u).fdiv 6)
    (qm k (2 * q64 + qm piI u - (9 * s).fdiv 4), qm k (piI - 3 * qm piI c), qm k (4 * qm piI (qm piI s)))

/-- The first half of f_mt (R170). -/
def fMtrapLow (u : Int) : Int × Int × Int :=
  let a := (8 * piI * q64).fdiv (piI + 2 * q64)
  let fp := 4 * piI
  let b := (a * q64).fdiv fp
  if u < q64 / 8 then
    let (c, s) := turnCS (2 * u)
    (qm b (u - (s * q64).fdiv fp), qm b (q64 - c), qm a s)
  else
    let f1 := qm b (q64 / 8 - (q64 * q64).fdiv fp)
    if u < 3 * (q64 / 8) then
      let w := u - q64 / 8
      (f1 + qm b w + (qm a (qm w w)).fdiv 2, b + qm a w, a)
    else
      let q := q64 / 4
      let f3 := f1 + qm b q + (qm a (qm q q)).fdiv 2
      let d3 := b + qm a q
      let w := u - 3 * (q64 / 8)
      let (c, s) := turnCS (2 * w)
      (f3 + qm d3 w + (qm b (q64 - c) * q64).fdiv fp, d3 + qm b s, qm a c)

/-- f_mt: the second half mirrors the first. -/
def fMtrap (u : Int) : Int × Int × Int :=
  if u < q64 / 2 then fMtrapLow u
  else let (f, d, e) := fMtrapLow (q64 - u); (q64 - f, d, -e)

/-- A polynomial in u (Q64), coefficients from the constant upwards. -/
def poly (cs : List Int) (u : Int) : Int := cs.foldr (fun c acc => c * q64 + qm u acc) 0

/-- y, dy/du and d²y/du² of a segment, in 2^-88 counts: h, X·s at the ends, u in Q64 (Table 4.9). -/
def segVal (law : Nat) (yi h a b u : Int) : Int × Int × Int :=
  let y0 := yi * q64
  match law with
  | 0 => (y0 + h * u, h * q64, 0)
  | 1 =>
    (y0 + h * poly [0, 0, 3, -2] u + a * poly [0, 1, -2, 1] u + b * poly [0, 0, -1, 1] u,
     h * poly [0, 6, -6] u + a * poly [1, -4, 3] u + b * poly [0, -2, 3] u,
     h * poly [6, -12] u + a * poly [-4, 6] u + b * poly [-2, 6] u)
  | 2 => let (f, d, e) := fMsin u; (y0 + h * f, h * d, h * e)
  | 3 => let (f, d, e) := fMtrap u; (y0 + h * f, h * d, h * e)
  | _ =>
    (y0 + h * poly [0, 0, 0, 10, -15, 6] u + a * poly [0, 1, 0, -6, 8, -3] u + b * poly [0, 0, 0, -4, 7, -3] u,
     h * poly [0, 0, 30, -60, 30] u + a * poly [1, 0, -18, 32, -15] u + b * poly [0, 0, -12, 28, -15] u,
     h * poly [0, 60, -180, 120] u + a * poly [0, -36, 96, -60] u + b * poly [0, -24, 84, -60] u)

/-- The slope of point k of a CSPL segment times X (R170). -/
def csplSlope (s : State) (i : Nat) (k x : Int) : Int :=
  let n : Int := camPts s i
  let lo := if camCyclic s i then k - 1 else max 0 (k - 1)
  let hi := if camCyclic s i then k + 1 else min (n - 1) (k + 1)
  let dx := ptX s i hi - ptX s i lo
  if dx = 0 then 0 else rhu ((ptY s i hi - ptY s i lo) * x) dx

/-- The slope h / X of a neighbouring LIN segment times X of this one, else 0 (R170, MATCH). -/
def linSlope (s : State) (i : Nat) (k x : Int) : Int :=
  let n : Int := camPts s i
  if (!camCyclic s i && (decide (k < 0) || decide (n - 1 ≤ k))) || wField (ptLaw s i k) 31 28 ≠ 0 then 0
  else
    let dx := ptX s i (k + 1) - ptX s i k
    if dx = 0 then 0 else rhu ((ptY s i (k + 1) - ptY s i k) * x) dx

/-- Where a cam stands at x (48 bits: angle with 16 fraction bits): its segment index and, in 2^-88 counts, y, X·dy/dx and X²·d²y/dx², with X; the bound of R172 in LSB. -/
structure CamAt where
  k : Int
  y : Int
  d1 : Int
  d2 : Int
  len : Int
  tol : Nat
  deriving DecidableEq, Repr

def camAt (s : State) (i : Nat) (x48 : Nat) : CamAt :=
  let n := camPts s i
  let xi := x48 / 65536
  let k0 : Nat := findPt s i xi 14 0 n
  let k : Int := k0
  let x0 := ptX s i k
  if !camCyclic s i && (n ≤ k0 + 1 || (xi : Int) < x0) then
    { k := k, y := ptY s i k * q64, d1 := 0, d2 := 0, len := 1, tol := 4 }
  else
    let len := ptX s i (k + 1) - x0
    let h := ptY s i (k + 1) - ptY s i k
    let u := rhu (((x48 : Int) - x0 * 65536) * 2 ^ 32) (max 1 len * 65536) * 2 ^ 32
    let lw := ptLaw s i k
    let law := wField lw 31 28
    let (a, b) : Int × Int :=
      if law = 1 then (csplSlope s i k len, csplSlope s i (k + 1) len)
      else if law = 4 && wbit lw 0 then (linSlope s i (k - 1) len, linSlope s i (k + 1) len)
      else (0, 0)
    let (y, d1, d2) := segVal law (ptY s i k) h a b u
    { k := k, y := y, d1 := d1, d2 := d2, len := max 1 len, tol := 4 + (h.natAbs + a.natAbs + b.natAbs) / 2 ^ 30 }

/-- y(x) delivered within the bound of R172 of the exact value: the error is a free value. -/
def camY (s : State) (i : Nat) (x48 : Nat) : Int :=
  let c := camAt s i x48
  let e : Int := (Config.camErr (i * 2 ^ 48 + x48) % (2 * c.tol - 1) : Nat) - ((c.tol : Int) - 1)
  rhu c.y q64 + e

/-- The tiles whose points the value at x needs. -/
def camNeeds (s : State) (i : Nat) (x48 : Nat) : List Nat :=
  let n := camPts s i
  let k := findPt s i (x48 / 65536) 14 0 n
  let nb (d : Int) : List Nat :=
    let j : Int := (k : Int) + d
    if camCyclic s i then [pointTile s i (j % (n : Int)).toNat]
    else if 0 ≤ j ∧ j < n then [pointTile s i j.toNat] else []
  let law := wField (ptLaw s i k) 31 28
  (nb 0 ++ nb 1 ++ (if law = 1 || law = 4 then nb (-1) ++ nb 2 else [])).eraseDups

/-- The transition of R185 at u (Q64). -/
def transY (t : Trans) (u : Int) : Int :=
  let H := poly [0, 0, 0, 10, -15, 6] u
  let g0 := poly [0, 1, 0, -6, 8, -3] u
  let g1 := poly [0, 0, 0, -4, 7, -3] u
  let p0 := (poly [0, 0, 1, -3, 3, -1] u).fdiv 2
  let p1 := (poly [0, 0, 0, 1, -2, 1] u).fdiv 2
  rhu (t.y0 * (q64 - H) + t.y1 * H + t.s0 * g0 + t.s1 * g1 + t.c0 * p0 + t.c1 * p1) (q64 * q64)

/-- The boundary values of a transition from a cam at x: y, L·s, L²·c in 2^-88 counts. -/
def camBound (s : State) (i x48 : Nat) (ofs : Int) (len : Nat) : Int × Int × Int :=
  let c := camAt s i x48
  (c.y + ofs * q64, (c.d1 * len).fdiv c.len, (c.d2 * len * len).fdiv (c.len * c.len))

end Sys2Proof.Machine
end

