-- ==== Sys2Proof/Machine/Motion.lean ====
section
/-! DEFINITION. The generator of an axis (chapter 4): moves, stops, gearing, cams, shifts, homing, and its commands. -/

namespace Sys2Proof.Machine
open R

/-! ### Limits and state -/

/-- V, A, D, J in 2^-80 units as the registers hold them, unsigned Q40.24 (R133). -/
def limRegs (s : State) (n : Nat) : List Nat :=
  [rd64 s (PF_V_LIM n), rd64 s (PF_A_LIM n), rd64 s (PF_D_LIM n), rd64 s (PF_J_LIM n)]
def limFx (l : List Nat) : List Int := l.map fun x => Int.ofNat x * 2 ^ 56
def limD (s : State) (n : Nat) : Int := (rd64 s (PF_D_LIM n) : Int) * 2 ^ 56
def limJ (s : State) (n : Nat) : Int := (rd64 s (PF_J_LIM n) : Int) * 2 ^ 56

/-- The virtual limits act: LIM_EN and POS_VALID (R153). -/
def bounded (s : State) (n : Nat) : Bool :=
  fbit s (PF_CTRL n) PF_CTRL_LIM_EN && fbit s (PF_STATUS n) PF_STATUS_POS_VALID
def pMin (s : State) (n : Nat) : Int := sx 64 (rd64 s (PF_MIN n))
def pMax (s : State) (n : Nat) : Int := sx 64 (rd64 s (PF_MAX n))
def outside (s : State) (n : Nat) (p : Int) : Bool := bounded s n && (decide (p < pMin s n) || decide (pMax s n < p))

/-- Change a generator. -/
def modGen (n : Nat) (f : Gen → Gen) (s : State) : State := s.setGen n (f (s.gen n))

/-- Coupled: GEAR or CAM. -/
def coupled (s : State) (n : Nat) : Bool := gmode s n == 2 || gmode s n == 3

/-- The coupling ends; the shift reached so far stays in p_gen and the rest is dropped (R179). -/
def endCoupling (n : Nat) (s : State) : State :=
  let s := modGen n (fun g => { g with cpl := none, trk := none, shift := {} }) s
  let s := { s with mot.win := tset [] s.mot.win n [] }
  fput s (PF_STATUS n) PF_STATUS_SH_ACT false

/-- A stop is made as QSTOP while D_LIM or J_LIM is 0 (R149). -/
def noJerkStop (s : State) (n : Nat) : Bool := rd64 s (PF_D_LIM n) == 0 || rd64 s (PF_J_LIM n) == 0

/-- Code 0x0705: a stop made as QSTOP (R149). -/
def substituted (n : Nat) (s : State) : State := sediment 7 sevWarn 0x0705 n s

/-- The plan of a stop from the present state, PF_STOP_POS published (R147); without a jerk limit the quick stop (R149). -/
def stopPlan (n : Nat) (s : State) : State :=
  let g := s.gen n
  let ts := tsOf s n
  if noJerkStop s n then substituted n (modGen n (fun g => { g with plan := none, quick := true }) s)
  else
    let pl := planStop g.p (velFx ts g.v) (accFx ts g.a) (limD s n) (limJ s n)
    wr64 (modGen n (fun g => { g with plan := some pl, quick := false }) s) (PF_STOP_POS n) pl.target

/-- Rest: the next mode after a stop (R147). -/
def afterStop (n : Nat) (s : State) : State :=
  let s := modGen n (fun g => { g with plan := none, quick := false }) s
  setGmode n (if (s.gen n).queue = [] then 0 else 1) s

/-- Homing aborts with a cause of Table 4.7; its stop runs in STOPPING (R161). -/
def homeAbort (n code : Nat) (s : State) : State :=
  let s := fset (fset s (PF_HOME_STATUS n) PF_HOME_STATUS_STATE 7) (PF_HOME_STATUS n) PF_HOME_STATUS_CAUSE code
  pfEvent n 7 none (sediment 7 sevWarn (0x0400 + code) n (fput s (PF_HOME_STATUS n) PF_HOME_STATUS_HOMED false))

/-- A stop begins (R147): entry 0 and the coupling end, the queue is flushed on request. -/
def beginStop (n : Nat) (fl : Bool) (s : State) : State :=
  let s := if gmode s n = 5 then homeAbort n 4 s else s
  let q := (s.gen n).queue
  let q := if fl then [] else if gmode s n = 1 then q.drop 1 else q
  let s := endCoupling n s
  stopPlan n (setQueue n q (setGmode n 4 s))

/-- A quick stop begins (R148). -/
def beginQuick (n : Nat) (s : State) : State :=
  let s := if gmode s n = 5 then homeAbort n 4 s else s
  let s := setQueue n [] (setGmode n 4 (endCoupling n s))
  let s := if rd64 s (PF_QS_DEC n) = 0 then substituted n s else s
  modGen n (fun g => { g with plan := none, quick := true }) s

/-! ### Re-basing (R160) -/

/-- Add Δ to every coordinate of an axis, and to the master reference of the axes geared to it: no difference changes. -/
def rebase (n : Nat) (δ : Int) (s : State) : State :=
  let w (x : Int) : Int := sx 64 (ux 64 (x + δ))
  let f := s.fb n
  let s := s.setFb n { f with pos := w f.pos, posPrev := w f.posPrev, ofs := w f.ofs }
  let x := s.axl n
  let s := s.setAxl n { x with pMeas := w x.pMeas, pSet := w x.pSet, stillPos := w x.stillPos }
  let g := s.gen n
  let s := s.setGen n { g with
    p := w g.p, pOut := w g.pOut, next := g.next.map fun x => (w x.1, x.2),
    plan := g.plan.map fun q => { q with
    p0 := w q.p0, target := w q.target },
    cpl := g.cpl.map fun c => { c with pd := w c.pd, ofs := c.ofs + δ } }
  let s := setQueue n (g.queue.map w) s
  let st := stateTile s n
  let s := putState s n (put64 1 (w (w64 st 1)) st)
  let s := eachN ((tkeys s.mot.gen).filter fun m => gmode s m == 2 && fbit s (PF_CTRL m) PF_CTRL_GM_SRC && fget s (PF_CTRL m) PF_CTRL_MASTER_AX == n)
    (fun m s => modGen m (fun g => { g with cpl := g.cpl.map fun c => { c with last := c.last.map w } }) s) s
  wr64 s (PF_POS n) (s.gen n).p

/-! ### Homing (section 4.6) -/

def homeState (s : State) (n : Nat) : Nat := fget s (PF_HOME_STATUS n) PF_HOME_STATUS_STATE
def setHomeState (n x : Nat) (s : State) : State := fset s (PF_HOME_STATUS n) PF_HOME_STATUS_STATE x
def homeDir (s : State) (n : Nat) : Int := if fbit s (PF_HOME_CFG n) PF_HOME_CFG_DIR then -1 else 1
def homeMethod (s : State) (n : Nat) : Nat := fget s (PF_HOME_CFG n) PF_HOME_CFG_METHOD

/-- The number of a switch: 0 home, 1 positive limit, 2 negative limit. -/
def swNo : Switch → Nat
  | .home => 0 | .plim => 1 | .nlim => 2

/-- The switch a method seeks (R162): the home switch, or the limit switch on the DIR side. -/
def sought (s : State) (n : Nat) : Option Nat :=
  match homeMethod s n with
  | 1 => some (if fbit s (PF_HOME_CFG n) PF_HOME_CFG_DIR then 2 else 1)
  | 2 => some 0
  | _ => none

/-- A switch is active: its debounced level (R158; polarity is taken when the level is accepted). -/
def swActive (s : State) (n k : Nat) : Bool := (s.gen n).sw.testBit k

/-- The source of a switch is none (Table 4.15). -/
def swNone (s : State) (n k : Nat) : Bool :=
  let v := match k with
    | 0 => fget s (PF_SW_SRC n) PF_SW_SRC_HOME_SRC
    | 1 => fget s (PF_SW_SRC n) PF_SW_SRC_PLIM_SRC
    | _ => fget s (PF_SW_SRC n) PF_SW_SRC_NLIM_SRC
  decide (16 ≤ v) && decide (v < 128)

/-- Move at a search velocity, clipped to V_LIM (R159). -/
def homeRun (n : Nat) (dir : Int) (vel : Nat) (s : State) : State :=
  let g := s.gen n
  let ts := tsOf s n
  let v : Int := dir * (min vel (rd64 s (PF_V_LIM n)) : Nat) * 2 ^ 56
  let a : Int := (rd64 s (PF_A_LIM n) : Int) * 2 ^ 56
  modGen n (fun g' => { g' with plan := some (planRun g.p (velFx ts g.v) (accFx ts g.a) v a (limD s n) (limJ s n)), quick := false }) s

def vFast (s : State) (n : Nat) : Nat := rd64 s (PF_HOME_VFAST n)
def vSlow (s : State) (n : Nat) : Nat := rd64 s (PF_HOME_VSLOW n)

/-- The stop of homing: as R147, or QSTOP without a jerk limit (R149). -/
def homeStop (n : Nat) (s : State) : State := stopPlan n s

/-- Homing ends: DONE, IDLE with HOMED and POS_VALID (Table 4.6). -/
def homeDone (n : Nat) (s : State) : State :=
  let s := modGen n (fun g => { g with plan := none, quick := false }) (setHomeState n 6 s)
  let s := fput (fput s (PF_HOME_STATUS n) PF_HOME_STATUS_HOMED true) (PF_STATUS n) PF_STATUS_POS_VALID true
  setGmode n 0 s

/-- The reference point: the coordinates are re-based and the axis stops in them (R160, Table 4.6 LATCH). -/
def homeLatch (n : Nat) (pRef : Int) (s : State) : State :=
  let δ := sx 64 (ux 64 (sx 64 (rd64 s (PF_HOME_POS n)) - pRef))
  homeStop n (rebase n δ (setHomeState n 5 s))

/-- The release edge of the switch sought: to IDXSEEK with IDX, else to the reference point. -/
def homeRelease (n : Nat) (p : Int) (s : State) : State :=
  if fbit s (PF_HOME_CFG n) PF_HOME_CFG_IDX then setHomeState n 4 s else homeLatch n p s

/-- Homing begins (R159, R161). -/
def homeBegin (n : Nat) (s : State) : State :=
  let s := fput (fput s (PF_HOME_STATUS n) PF_HOME_STATUS_HOMED false) (PF_STATUS n) PF_STATUS_POS_VALID false
  let s := fset (fset s (PF_HOME_STATUS n) PF_HOME_STATUS_EDGES 0) (PF_HOME_STATUS n) PF_HOME_STATUS_CAUSE 0
  let s := modGen n (fun g => { g with homeStart := g.p, plan := none, quick := false }) (setGmode n 5 s)
  let idle (s : State) : State := setGmode n 0 s
  match homeMethod s n with
  | 3 => homeRun n (homeDir s n) (vSlow s n) (setHomeState n 1 s)
  | 4 =>
    if (s.fb n).absOk then
      homeDone n (rebase n (sx 64 (ux 64 (sx 64 (rd64 s (PF_HOME_POS n)) - (s.fb n).ofs))) s)
    else idle (homeAbort n 5 s)
  | m =>
    match sought s n with
    | none => idle (homeAbort n 6 s)
    | some k =>
      if swNone s n k || 2 < m then idle (homeAbort n 6 s)
      else if swActive s n k then homeRun n (-(homeDir s n)) (vSlow s n) (setHomeState n 3 s)
      else homeRun n (homeDir s n) (vFast s n) (setHomeState n 1 s)

/-- The stop of an abort: QSTOP for LIM_UNEXP, STOP otherwise (Table 4.7). -/
def homeAbortStop (n code : Nat) (s : State) : State :=
  let s := homeAbort n code s
  let s := setQueue n [] (setGmode n 4 s)
  if code = 1 then beginQuick n s else stopPlan n s

/-- A debounced level of a switch moves the homing state (Table 4.6, R161); `p` is the latched position. -/
def homeSwitch (n k : Nat) (act : Bool) (p : Int) (s : State) : State :=
  if gmode s n ≠ 5 then s
  else
    let hs := homeState s n
    let isSought := sought s n == some k
    if act && !isSought && k ≠ 0 then homeAbortStop n 1 s
    else if !isSought then s
    else if hs = 1 && act then homeStop n (setHomeState n 2 s)
    else if hs = 3 && !act then homeRelease n p s
    else s

/-- An index pulse of the axis's encoder at a position (Table 4.6). -/
def homeIndex (n : Nat) (p : Int) (s : State) : State :=
  if gmode s n = 5 && (homeState s n = 4 || (homeState s n = 1 && homeMethod s n = 3)) then homeLatch n p s else s

/-! ### One sample of the generator (R137) -/

/-- The limits of an active plan change (R144 to R146). -/
def limitChange (n : Nat) (s : State) : State :=
  let g := s.gen n
  let s := modGen n (fun g => { g with limDirty := false }) s
  match gmode s n, g.plan with
  | 1, some pl =>
    let ts := tsOf s n
    let new := limRegs s n
    let second := decide (pl.tDec ≤ nsFx pl.t)
    let idx := [0, 1, 2, 3].filter fun i =>
      let o := g.lims.getD i 0
      let x := new.getD i 0
      x != o && (!second || (decide (2 ≤ i) && decide (x < o)))
    let try' (ls : List Nat) : Option Plan :=
      if ls.any (· == 0) then none else planMove g.p pl.target (velFx ts g.v) (accFx ts g.a) (limFx ls)
    let withIdx (is : List Nat) (base : List Nat) : List Nat :=
      [0, 1, 2, 3].map fun i => if is.contains i then new.getD i 0 else base.getD i 0
    if idx = [] then s
    else match try' (withIdx idx g.lims) with
      | some q => modGen n (fun g => { g with plan := some q, lims := withIdx idx g.lims }) s
      | none =>
        let r := idx.foldl (fun (acc : List Nat × Option Plan × Bool) i =>
          match try' (withIdx [i] acc.1) with
          | some q => (withIdx [i] acc.1, some q, acc.2.2)
          | none => (acc.1, acc.2.1, true)) (g.lims, none, false)
        let s := match r.2.1 with
          | some q => modGen n (fun g => { g with plan := some q, lims := r.1 }) s
          | none => s
        if r.2.2 then pfEvent n 1 (some PF_STATUS_DEFER) s else s
  | _, _ => s

/-- Take the first waiting target: whether its move starts (R141, R144). -/
def tryMove (n : Nat) (t : Int) (rest : List Int) (s : State) : Bool × State :=
  let ls := limRegs s n
  if outside s n t || ls.any (· == 0) then (false, pfEvent n 10 none (setQueue n rest s))
  else match planMove (s.gen n).p t 0 0 (limFx ls) with
    | some pl => (true, modGen n (fun g => { g with plan := some pl, lims := ls, quick := false }) (setGmode n 1 s))
    | none => (false, setQueue n rest s)

/-- The next queue entry becomes active; entries outside the limits, or with a limit at 0, are removed with REJECT (R142, R154). -/
def activate (n : Nat) : Nat → State → State
  | 0, s => s
  | f + 1, s =>
    match (s.gen n).queue with
    | [] => setGmode n 0 s
    | t :: rest => if (tryMove n t rest s).1 then (tryMove n t rest s).2 else activate n f (tryMove n t rest s).2

/-- Deliver (p, v, a) of a sample. -/
def deliver (n : Nat) (p v a : Int) (s : State) : State :=
  modGen n (fun g => { g with p := sx 64 (ux 64 p), v := v, a := a }) s

/-- One sample of a quick stop (R148, R149): whether rest is reached. -/
def quickSample (n : Nat) (s : State) : State × Bool :=
  let g := s.gen n
  let qs := (limsOf s n).qs
  let σ : Int := if g.v < 0 then -1 else 1
  if qs = 0 || g.v = 0 then (deliver n g.p 0 0 s, true)
  else if σ * g.v ≤ qs then (deliver n (g.p + σ * rhu (g.v * g.v) (2 * qs)) 0 0 s, true)
  else (deliver n (g.p + g.v - σ * rhu qs 2) (g.v - σ * qs) (-(σ * qs)) s, false)

/-- One sample of a plan: whether it has ended. -/
def planSample (n : Nat) (s : State) : State × Bool :=
  let g := s.gen n
  if g.quick then quickSample n s
  else match g.plan with
    | none => (deliver n g.p 0 0 s, true)
    | some pl =>
      let (pl, p, v, a, e) := planNext (tsOf s n) pl
      (deliver n p v a (modGen n (fun g => { g with plan := some pl }) s), e)

/-- The predicted master key m̂ = v + s, in 2^-16 counts (R136). -/
def masterKey (s : State) : Nat := kmod ((s.ang.key : Int) + s.ang.speed)

/-- The demand of GEAR (R163, R164). -/
def gearDemand (n : Nat) (s : State) : State :=
  let g := s.gen n
  match g.cpl with
  | none => s
  | some c =>
    let ax := fbit s (PF_CTRL n) PF_CTRL_GM_SRC
    let m := fget s (PF_CTRL n) PF_CTRL_MASTER_AX
    let key : Int := if ax then (s.gen m).p else masterKey s
    let d : Int := match c.last with
      | none => 0
      | some l => if ax then sx 64 (ux 64 (key - l)) else sx 80 (ux 80 (key - l))
    let den : Int := max 1 g.den
    let acc := d * g.num * (if ax then 1 else 256) + c.rem
    let q := acc.fdiv den
    modGen n (fun g => { g with cpl := some { c with
      last := some key, rem := acc - q * den, pd := sx 64 (ux 64 (c.pd + q)), vd := q, ad := q - c.qPrev, qPrev := q } }) s

/-- x of a cam: m̂ + CAM_PHASE, 48 bits (R169). -/
def camX (s : State) (n key : Nat) : Nat := (key + rdN s (PF_CAM_PHASE n) * 65536) % 2 ^ 48

/-- The cam coupling meets a point of a tile that is not verified (R174). -/
def camUnverified (s : State) (n i x : Nat) : Bool :=
  (camNeeds s i x).any fun t => !(tget [] s.mot.win n).contains t

/-- The window keeps the tile that contains x and its neighbours; another loses its verification (R173). -/
def trimWindow (n i x : Nat) (s : State) : State :=
  let k := findPt s i (x / 65536) 14 0 (camPts s i)
  let last := (camPts s i - 1) / 256
  let c := k / 256
  let prev := if c = 0 then last else c - 1
  let next := if c = last then 0 else c + 1
  let keep := [pointTile s i (256 * c), pointTile s i (256 * prev), pointTile s i (256 * next)]
  { s with mot.win := tset [] s.mot.win n ((tget [] s.mot.win n).filter keep.contains) }

/-- The first demand of a cam: its offset, and the backward differences from the same cam at earlier keys (R172, R175). -/
def camEngage (n : Nat) (c : Couple) (s : State) : Couple :=
  let i := c.camId
  let g := s.gen n
  let k := masterKey s
  let step := s.ang.speed * 2 ^ (s.ctx n).plog
  let x (m : Int) : Nat := camX s n (kmod ((k : Int) - m * step))
  let y := camY s i (x 0)
  let st := camStroke s i
  let ofs := if c.rel then g.p - y else if st = 0 then 0 else rhu (g.p - y) st * st
  let y1 := camY s i (x 1)
  let y2 := camY s i (x 2)
  { c with fresh := false, last := some k, x := x 0, ofs := ofs, pd := sx 64 (ux 64 (y + ofs)), vd := y - y1, ad := y - 2 * y1 + y2 }

/-- The changeover slot of an axis's group. -/
def groupOf (s : State) (n : Nat) : Nat := fget s (PF_CTRL n) PF_CTRL_GROUP

/-- The demand of CAM (R169, R175, R185). -/
def camDemand (n : Nat) (s : State) : State :=
  let g := s.gen n
  match g.cpl with
  | none => s
  | some c =>
    let k := masterKey s
    let x := camX s n k
    if c.fresh then modGen n (fun g => { g with cpl := some (camEngage n c s) }) (trimWindow n c.camId x s)
    else
      let d := sdiff 80 k (match c.last with | some l => l.toNat | none => k) + (sx 48 (ux 48 ((x : Int) - c.x - sdiff 80 k (match c.last with | some l => l.toNat | none => k))))
      let turns := ((c.x : Int) + d).fdiv (2 ^ 48)
      let ofs := c.ofs + turns * camStroke s c.camId
      match c.trans with
      | some t =>
        let e := sdiff 80 k (t.key * 65536)
        if (t.len : Int) * 65536 ≤ e then
          let p := sx 64 (ux 64 (camY s t.camId x + t.ofs))
          modGen n (fun g => { g with cpl := some { c with
                                                           camId := t.camId, ofs := t.ofs, trans := none, last := some k, x := x,
                                                           vd := sx 64 (ux 64 (p - c.pd)), ad := sx 64 (ux 64 (p - c.pd)) - c.vd, pd := p } }) s
        else
          let p := sx 64 (ux 64 (transY t ((e * q64).fdiv ((t.len : Int) * 65536))))
          let v := sx 64 (ux 64 (p - c.pd))
          modGen n (fun g => { g with cpl := some { c with last := some k, x := x, vd := v, ad := v - c.vd, pd := p } }) s
      | none =>
        let p := sx 64 (ux 64 (camY s c.camId x + ofs))
        let v := sx 64 (ux 64 (p - c.pd))
        trimWindow n c.camId x (modGen n (fun g => { g with cpl := some { c with last := some k, x := x, ofs := ofs, vd := v, ad := v - c.vd, pd := p } }) s)

/-- A cam that is not cyclic has reached its last point (R176). -/
def camEnded (s : State) (n : Nat) : Bool :=
  match (s.gen n).cpl with
  | none => false
  | some c =>
    !c.fresh && c.trans.isNone && !camCyclic s c.camId &&
      decide (ptX s c.camId ((camPts s c.camId : Int) - 1) ≤ (c.x / 65536 : Nat))

/-- Shift limits: SH_SCALE / 256 of the axis limits, 0 acts as 1 (R178). -/
def shiftLims (s : State) (n : Nat) : List Int :=
  let k := max 1 (fget s (PF_CTRL n) PF_CTRL_SH_SCALE)
  (limRegs s n).map fun x => ((x * k : Nat) : Int) * 2 ^ 48

/-- Accepted requests re-plan the offset (R177, R178). -/
def shiftReplan (n : Nat) (s : State) : State :=
  let g := s.gen n
  let h := g.shift
  if h.req = 0 then s
  else
    let ts := tsOf s n
    let tgt := sx 64 (ux 64 ((match h.plan with | some p => p.target | none => h.o) + h.req))
    let ls := shiftLims s n
    if ls.any (· == 0) then modGen n (fun g => { g with shift := { h with req := 0 } }) s
    else fput (modGen n (fun g => { g with shift := { h with req := 0, plan := some (planShift h.o tgt (velFx ts h.v) (accFx ts h.a) ls) } }) s)
      (PF_STATUS n) PF_STATUS_SH_ACT true

/-- One sample of the offset: the new offset with its changes (R178). -/
def shiftSample (n : Nat) (s : State) : State :=
  let g := s.gen n
  match g.shift.plan with
  | none => s
  | some pl =>
    let (pl, p, v, a, e) := planNext (tsOf s n) pl
    let s := modGen n (fun g => { g with shift := { g.shift with o := p, v := v, a := a, plan := if e then none else some pl } }) s
    fput s (PF_STATUS n) PF_STATUS_SH_ACT (!e)

/-- The limit tracker on a demand (R151). -/
def tracker (n : Nat) (pd vd ad : Int) (s : State) : State × Int × Int × Int :=
  let g := s.gen n
  let m := limsOf s n
  let l := lawTile s n
  let ab (x : Int) : Int := if x < 0 then -x else x
  let within := decide (ab vd ≤ m.v) && decide (ab ad ≤ m.a) && decide (ab (ad - g.a) ≤ m.j)
  let t := match g.trk with
    | some t => some t
    | none => if within then none else some { o := sx 64 (ux 64 (g.p - (pd - vd))), w := g.v - (vd - ad), aTot := g.a }
  match t with
  | none => (s, pd, vd, ad)
  | some t =>
    let s := if g.trk.isNone then pfEvent n 2 (some PF_STATUS_LIMITED) s else w1cSet (PF_STATUS n) PF_STATUS_LIMITED n s
    let r := rampStep (coef l 45) (coef l 46) m vd ad t.o t.w t.aTot
    let run := if within && settled l r.1 r.2.1 then t.run + 1 else 0
    let t' : Option Track := if 8 ≤ run then none else some { o := r.1, w := r.2.1, aTot := r.2.2.2, run := run }
    (modGen n (fun g => { g with trk := t' }) s, sx 64 (ux 64 (pd + r.1)), vd + r.2.1, ad + r.2.2.1)

/-- The virtual-limit look-ahead (R155): the limit a stop from (p, v, a) would pass. -/
def limitAhead (s : State) (n : Nat) (p v a : Int) : Option Int :=
  if !bounded s n then none
  else
    let ts := tsOf s n
    let e : Int :=
      if noJerkStop s n then
        let qs := (limsOf s n).qs
        if qs = 0 then p else p + (if v < 0 then -1 else 1) * rhu (v * v) (2 * qs)
      else p + rhu (stopDist (velFx ts v) (accFx ts a) (limD s n) (limJ s n)) (2 ^ 56)
    if pMax s n < e then some (pMax s n) else if e < pMin s n then some (pMin s n) else none

/-- A virtual limit ends the coupling with a stop that ends on it (R155). -/
def virtualStop (n : Nat) (lim : Int) (s : State) : State :=
  let s := pfEvent n 3 (some PF_STATUS_VLIM_HIT) s
  let s := setGmode n 4 (endCoupling n s)
  if noJerkStop s n then stopPlan n s
  else
    let g := s.gen n
    let ts := tsOf s n
    modGen n (fun g' => { g' with plan := some (planStopOn g.p lim (velFx ts g.v) (accFx ts g.a) (limD s n) (limJ s n)), quick := false }) s

/-- One sample in STOPPING. -/
def stoppingSample (n : Nat) (s : State) : State :=
  let (s, e) := planSample n s
  if e then
    let s := afterStop n s
    if gmode s n = 0 && (homeState s n = 7) then s else s
  else s

/-- One sample of a coupled axis (R137): demand, shift, tracker, look-ahead. -/
def coupledSample (n : Nat) (s : State) : State :=
  let cam := gmode s n = 3
  let held := fbit s MA_STATUS MA_STATUS_HOLD && (cam || !fbit s (PF_CTRL n) PF_CTRL_GM_SRC)
  if held then stoppingSample n (stopPlan n (pfEvent n 4 (some PF_STATUS_MHOLD) (setGmode n 4 (endCoupling n s))))
  else
    let i := match (s.gen n).cpl with | some c => c.camId | none => 0
    if cam && camUnverified s n i (camX s n (masterKey s)) &&
        !(match (s.gen n).cpl with | some c => c.trans.isSome | none => false) then
      stoppingSample n (stopPlan n (pfEvent n 5 (some PF_STATUS_CTILE) (setGmode n 4 (endCoupling n s))))
    else
      let o0 := (s.gen n).shift.o
      let v0 := (s.gen n).shift.v
      let s := if cam then camDemand n s else gearDemand n s
      if cam && camEnded s n then
        let y := match (s.gen n).cpl with
          | some c => sx 64 (ux 64 (ptY s c.camId ((camPts s c.camId : Int) - 1) + c.ofs + o0))
          | none => (s.gen n).p
        let slope := (s.gen n).v
        let s := pfEvent n 6 (some PF_STATUS_CAM_END) (endCoupling n s)
        if slope = 0 then setGmode n 0 (deliver n y 0 0 s)
        else stoppingSample n (stopPlan n (setGmode n 4 s))
      else
        let s := shiftSample n s
        let g := s.gen n
        match g.cpl with
        | none => s
        | some c =>
          let pd := sx 64 (ux 64 (c.pd + g.shift.o))
          let vd := c.vd + (g.shift.o - o0)
          let ad := c.ad + (g.shift.v - v0)
          let (s, p, v, a) := tracker n pd vd ad s
          match limitAhead s n p v a with
          | some lim => stoppingSample n (virtualStop n lim s)
          | none => deliver n p v a s

/-- One sample of homing: progress of the motion and the transitions at rest and over HOME_SPAN (Table 4.6, Table 4.7). -/
def homingSample (n : Nat) (s : State) : State :=
  let (s, e) := planSample n s
  let hs := homeState s n
  let g := s.gen n
  let span : Int := rd64 s (PF_HOME_SPAN n)
  let far := sx 64 (ux 64 (g.p - g.homeStart))
  if hs = 2 && e then homeRun n (-(homeDir s n)) (vSlow s n) (setHomeState n 3 s)
  else if hs = 5 && e then homeDone n s
  else if (hs = 1 || hs = 3 || hs = 4) && span ≠ 0 && (decide (span < far) || decide (far < -span)) then homeAbortStop n 2 s
  else s

/-- An accepted command acts (R136, R147, R148, R159, R164, R175). -/
def actReq (n : Nat) (r : GReq) (s : State) : State :=
  match r with
  | .stop fl => beginStop n fl s
  | .quick => beginQuick n s
  | .home => homeBegin n s
  | .gear =>
    let s := setQueue n [] (modGen n (fun g => { g with
      plan := none, trk := none, shift := {},
      cpl := some { pd := g.p } }) s)
    setGmode n 2 s
  | .cam rel =>
    let i := fget s (PF_CAM n) PF_CAM_CAM_ID
    if camUnverified s n i (camX s n (masterKey s)) then modGen n (fun g => { g with req := some (.cam rel) }) s
    else
      let s := setQueue n [] (modGen n (fun g => { g with
        plan := none, trk := none, shift := {},
        cpl := some { camId := i, rel := rel } }) s)
      setGmode n 3 s

/-- What was written before the last tick takes effect (R136, R143, R165, R177). -/
def ripen (n : Nat) (s : State) : State :=
  let g := s.gen n
  if !g.ripe then s
  else
    let s := modGen n (fun g => { g with ripe := false }) s
    let s := if g.limDirty then limitChange n s else s
    let s := match g.ratio with
      | some (a, b) => modGen n (fun g => { g with num := a, den := b, ratio := none, cpl := g.cpl.map fun c => { c with rem := 0 } }) s
      | none => s
    let s := if coupled s n then shiftReplan n s else s
    match g.req with
    | some r => actReq n r (modGen n (fun g => { g with req := none }) s)
    | none => s

/-- One sample of the generator of an axis. -/
def genSample (n : Nat) (s : State) : State :=
  if lawIdle s n then genOff n s
  else
    let fresh := (s.gen n).ripe
    let s := ripen n s
    let s := match gmode s n with
      | 0 =>
        let s := if (s.gen n).queue ≠ [] && fresh then activate n 5 s else s
        if gmode s n = 1 then
          let (s, e) := planSample n s
          if e then setGmode n (if (s.gen n).queue.length ≤ 1 then 0 else 1) (setQueue n ((s.gen n).queue.drop 1) (modGen n (fun g => { g with plan := none }) s)) else s
        else deliver n (s.gen n).p 0 0 s
      | 1 =>
        let s := if (s.gen n).plan.isNone then activate n 5 s else s
        if gmode s n = 1 then
          let (s, e) := planSample n s
          if e then setGmode n (if (s.gen n).queue.length ≤ 1 then 0 else 1) (setQueue n ((s.gen n).queue.drop 1) (modGen n (fun g => { g with plan := none }) s)) else s
        else deliver n (s.gen n).p 0 0 s
      | 2 => coupledSample n s
      | 3 => coupledSample n s
      | 4 => stoppingSample n s
      | 5 => homingSample n s
      | _ => s
    let s := modGen n (fun g => { g with next := some (g.p, g.v, g.a) }) s
    showGen n (rhu ((s.gen n).v * 10 ^ 9) (max 1 (tsOf s n))) s

/-- How deep an axis lies in a chain of gear masters, at most 4 (R138). -/
def gearDepth (s : State) : Nat → Nat → Nat
  | 0, _ => 0
  | f + 1, n =>
    if gmode s n = 2 && fbit s (PF_CTRL n) PF_CTRL_GM_SRC then 1 + gearDepth s f (fget s (PF_CTRL n) PF_CTRL_MASTER_AX) else 0

/-- The axes with a sample in the next basic cycle, masters before their slaves (R136, R138). -/
def dueAxes (s : State) : List Nat :=
  let c := fget s TIME_CYC TIME_CYC_CYC + 1
  let l := (usedAxes s).filter fun n => c % 2 ^ (s.ctx n).plog == (s.ctx n).phase % 2 ^ (s.ctx n).plog
  [0, 1, 2, 3, 4].flatMap fun d => l.filter fun n => gearDepth s 4 n == d

/-! ### Changeover (section 4.10) -/

def coState (s : State) (g : Nat) : Nat := fget s (CO_STATUS g) CO_STATUS_STATE
def setCoState (g st r : Nat) (s : State) : State :=
  fset (fset s (CO_STATUS g) CO_STATUS_STATE st) (CO_STATUS g) CO_STATUS_RESULT r

/-- The used axes of a group (R180). -/
def groupAxes (s : State) (g : Nat) : List Nat := (usedAxes s).filter fun n => groupOf s n == g

/-- A cam tile in use or staged. -/
def tileUsed (s : State) (t : Nat) : Bool := fbit s (TILE_INFO t) TILE_INFO_USED
def freeTiles (s : State) (g : Nat) : List Nat := ((List.range 384).map (384 * g + ·)).filter fun t => !tileUsed s t

/-- Free a list of cam tiles. -/
def releaseTiles (ts : List Nat) (s : State) : State :=
  eachN ts (fun t s => wr (wr s (TILE_INFO t) 0) (TILE_CRC t) 0) s

/-- The words of tile `k` of a cam (Table 4.8); unused records are zero. -/
def camTileWords (c : CamRec) (k : Nat) : List Word :=
  let ps := (c.pts.drop (256 * k)).take 256
  let ws := ps.flatMap fun (x, y, l) =>
    let u := ux 64 y
    [BitVec.ofNat 32 x, BitVec.ofNat 32 u, BitVec.ofNat 32 (u / 2 ^ 32), l]
  ws ++ List.replicate (1024 - ws.length) 0

/-- How many tiles a cam takes. -/
def camTiles (c : CamRec) : Nat := (c.pts.length + 255) / 256

/-- Put a cam into tiles, with its directory entries; `st` marks them STAGED (R166, R182). -/
def placeCam (c : CamRec) (ts : List Nat) (st : Bool) (s : State) : State :=
  (ts.zipIdx).foldl (fun s (t, k) =>
    let ws := camTileWords c k
    let s := wrWords s (camTileAddr t) ws
    let s := wr s (TILE_CRC t) (crcWords ws)
    let nxt := ts.getD (k + 1) 0x7FF
    let pts := min 256 (c.pts.length - 256 * k)
    wrN s (TILE_INFO t) (2 ^ 31 + st.toNat * 2 ^ 30 + c.id % 256 * 2 ^ 21 + nxt * 2 ^ 10 + pts)) s

/-- The descriptor of a cam (R167). -/
def describeCam (c : CamRec) (recipe first : Nat) (s : State) : State :=
  let s := wrN s (CAM_INFO c.id) (2 ^ 31 + c.cyclic.toNat * 2 ^ 30 + recipe % 8 * 2 ^ 27 + (c.pts.length - 1) % 2 ^ 14 * 2 ^ 11 + first)
  let u := ux 64 c.stroke
  wrN (wrN s (CAM_STROKE_LO c.id) u) (CAM_STROKE_HI c.id) (u / 2 ^ 32)

/-- The recipe bank is resident: READY or IN_USE (Table 12.14 BANKS). -/
def bankState (s : State) (b : Nat) : Nat := fget s RCP_STATUS RCP_STATUS_BANKS / 4 ^ b % 4
def resident (s : State) (b : Nat) : Bool := 2 ≤ bankState s b

/-- The value a recipe gives a register. -/
def recipeReg (r : Recipe) (a : Nat) : Option Word := (r.regs.find? fun e => e.1 == a).map (·.2)

/-- The cam a recipe gives an axis, and the cams of a group. -/
def recipeCam (s : State) (r : Recipe) (n : Nat) : Nat := (match recipeReg r (PF_CAM n) with | some w => w | none => rd s (PF_CAM n)).toNat % 256
def groupCams (s : State) (r : Recipe) (g : Nat) : List CamRec :=
  r.cams.filter fun c => (groupAxes s g).any fun n => recipeCam s r n == c.id

/-- The region for a cam's tiles: the home region of the first axis that uses it when it has room, else the region in service with the most free tiles (R182). -/
def tileRegion (s : State) (r : Recipe) (g : Nat) (c : CamRec) : Nat :=
  let home := match (groupAxes s g).find? fun n => recipeCam s r n == c.id with
    | some n => (s.ctx n).region
    | none => 0
  let room (x : Nat) : Nat := if regState s x = 0 then (freeTiles s x).length else 0
  if camTiles c ≤ room home then home
  else ([1, 2, 3].foldl (fun b x => if room b < room x then x else b) 0)

/-- The trigger key of a group (R181). -/
def coKey (s : State) (g : Nat) : Nat := rdN s (CO_ANGLE g) + rdN s (CO_CYCLE g) * 2 ^ 32

/-- Why a changeover request is refused, with its RESULT (R181); 0 accepts. -/
def coCheck (s : State) (g recipe list : Nat) : Nat :=
  let st := coState s g
  let len := rdN s (CO_LEN g)
  let key := coKey s g
  if st = 1 || st = 2 || st = 3 || (groupAxes s g).any (stillToMove s) then 1
  else if decide (2 ^ 79 ≤ dist 80 (key * 65536) s.ang.key) then 2
  else if !resident s recipe then 3
  else if ((freeTiles s 0).length + (freeTiles s 1).length + (freeTiles s 2).length + (freeTiles s 3).length) <
      (groupCams s (tget {} s.boot.bank recipe) g).foldl (fun k c => k + camTiles c) 0 then 4
  else if len = 0 || 2 ^ 31 < len || !angleList s list || mirrorDown s then 5
  else 0

/-- The entry of a changeover trigger. -/
def coEnt (key g : Nat) : DEnt := { key := key, act := BitVec.ofNat 32 (5 * 2 ^ 28 + g * 2 ^ 16), pay := 0 }

/-- A changeover request (R181). -/
def coRequestEff (g : Nat) (v : Word) : State → State := fun s =>
  let recipe := wField v 6 4
  let list := wField v 1 0
  match coCheck s g recipe list with
  | 0 =>
    let key := coKey s g
    let s := s.setCo g { recipe := recipe, list := list, key := key, len := rdN s (CO_LEN g) }
    produce .changeover g list (coEnt key g) (setCoState g 1 0 s)
  | r => fset s (CO_STATUS g) CO_STATUS_RESULT r

/-- A cancellation (R187): in STAGING or ARMED only. -/
def coCancelEff (g : Nat) : State → State := fun s =>
  if coState s g = 1 || coState s g = 2 then
    let c := s.co g
    let e := coEnt c.key g
    let s := s.setDl c.list ((s.dl c.list).filter fun x => !(x.key == e.key && entKind x == 5 && entTarget x == g))
    let s := { s with sch.held := s.sch.held.filter fun h => !(h.prod == .changeover && h.obj == g) }
    setCoState g 5 7 ((releaseTiles c.tiles s).setCo g { c with tiles := [] })
  else s

/-- A write of CO_CTRL: only with the block lock open (R189). -/
def coCtrlEff (g : Nat) (v : Word) : Eff := fun s =>
  match wField v 31 30 with
    | 1 => some (coRequestEff g v s)
    | 2 => some (coCancelEff g s)
    | _ => some s

/-- CO_REQUEST (R181). -/
def execCoRequest (w : Who) (g : BitVec 4) (v : Word) (s : State) : Host.Outcome State Fault Refusal :=
  let v := withField v CO_CTRL_OP 1
  .next (gated w (CO_CTRL g.toNat) v (coCtrlEff g.toNat v) s)

/-- CO_CANCEL (R187). -/
def execCoCancel (w : Who) (g : BitVec 4) (s : State) : Host.Outcome State Fault Refusal :=
  let v := BitVec.ofNat 32 (2 ^ 31)
  .next (gated w (CO_CTRL g.toNat) v (coCtrlEff g.toNat v) s)

/-- CO_STAGED (R182): the steward has built and verified every cam tile of the new recipe, marked STAGED; the slot is ARMED. -/
def execCoStaged (g : BitVec 4) (s : State) : Host.Outcome State Fault Refusal :=
  let k := g.toNat
  .next (if coState s k = 1 then
    let r := tget {} s.boot.bank (s.co k).recipe
    let s := (groupCams s r k).foldl (fun s c =>
      let ts := (freeTiles s (tileRegion s r k c)).take (camTiles c)
      let x := s.co k
      (placeCam c ts true s).setCo k { x with tiles := x.tiles ++ ts }) s
    logSteward 3 0 k 0 (setCoState k 2 0 s)
  else s)

/-- A changeover is aborted (R183): the old recipe stays, CO_ABORT is set. -/
def coAbort (g r : Nat) (s : State) : State :=
  let s := (releaseTiles (s.co g).tiles s).setCo g { s.co g with tiles := [] }
  eachN (groupAxes s g) (fun n s => pfEvent n 9 none s) (setCoState g 5 r s)

/-- The tiles a cam's chain holds. -/
def chainOf (s : State) (i : Nat) : List Nat :=
  (List.range ((camPts s i + 255) / 256)).map fun k => chainTile s k (camFirst s i)

/-- The changeover is DONE (R186): tiles in no cam's chain any more are released, CO_DONE, CO_GEN. -/
def coFinish (g : Nat) (s : State) : State :=
  let c := s.co g
  let kept := ((List.range 256).filter fun i => fbit s (CAM_INFO i) CAM_INFO_VALID).flatMap (chainOf s)
  let old := (List.range 1536).filter fun t => tileUsed s t && !fbit s (TILE_INFO t) TILE_INFO_STAGED && !(kept.contains t)
  let s := releaseTiles old s
  let s := (s.setCo g { c with tiles := [] })
  let s := fset (setCoState g 4 0 s) (CO_STATUS g) CO_STATUS_ACTIVE c.recipe
  let s := fset s CO_GEN CO_GEN_GEN (fget s CO_GEN CO_GEN_GEN + 1)
  logSteward 3 0 g c.recipe (eachN (groupAxes s g) (fun n s => pfEvent n 8 none s) s)

/-- The transition of a coupled axis from the old cam's boundary values to the new cam's (R185). -/
def coTransition (g n : Nat) (r : Recipe) (firsts : List (Nat × Nat)) (y : Int × Int × Int) (p : Couple) (s : State) : State :=
  let c := s.co g
  let i := fget s (PF_CAM n) PF_CAM_CAM_ID
  let s := match firsts.find? fun e => e.1 == i, r.cams.find? fun x => x.id == i with
    | some e, some x => describeCam x c.recipe e.2 s
    | _, _ => s
  let kx1 := ((c.key + c.len) % 2 ^ 32 * 65536 + rdN s (PF_CAM_PHASE n) * 65536) % 2 ^ 48
  let z := camBound s i kx1 0 c.len
  let st := camStroke s i
  let m := if st = 0 then 0 else rhu (y.1 + y.2.1 - z.1) (st * q64) * st
  let tr : Trans :=
    { key := c.key, len := c.len, y0 := y.1, s0 := y.2.1, c0 := y.2.2, y1 := z.1 + m * q64, s1 := z.2.1, c1 := z.2.2, camId := i,
      ofs := m }
  modGen n (fun g => { g with cpl := some { p with trans := some tr } }) s

/-- At the trigger an axis takes the recipe's tile, limits, gear ratio and cam (R184); a coupled CAM axis starts its transition (R185). -/
def coAxis (g n : Nat) (r : Recipe) (firsts : List (Nat × Nat)) (s : State) : State :=
  let c := s.co g
  let isCam : Bool := gmode s n == 3
  let kx := (c.key % 2 ^ 32 * 65536 + rdN s (PF_CAM_PHASE n) * 65536) % 2 ^ 48
  let old : Option (Int × Int × Int) := match (s.gen n).cpl with
    | some p => if isCam then some (camBound s p.camId kx (p.ofs + (s.gen n).shift.o) c.len) else none
    | none => none
  let s := match r.laws.find? fun e => e.1 == n with
    | some e => installLaw n e.2 true s
    | none => s
  let s := wrRange (PF_CTRL n) (PF_CTRL n + 0x100) r.regs s
  let s := modGen n (fun g => { g with
    limDirty := true, ripe := true,
    ratio := some ((rd s (PF_GEAR_NUM n)).toInt, rdN s (PF_GEAR_DEN n)) }) s
  match old, (s.gen n).cpl with
  | some y, some p => coTransition g n r firsts y p s
  | _, _ => s

/-- The trigger entry falls due (R183, R184, R186). -/
def coTrigger (g : Nat) (s : State) : State :=
  if coState s g = 1 then coAbort g 6 s
  else if coState s g ≠ 2 then s
  else if (groupAxes s g).any (stillToMove s) then coAbort g 5 s
  else
    let r := tget {} s.boot.bank (s.co g).recipe
    let firsts := (s.co g).tiles.foldl (fun (acc : List (Nat × Nat)) t =>
      let i := fget s (TILE_INFO t) TILE_INFO_CAM
      if acc.any fun e => e.1 == i then acc else acc ++ [(i, t)]) []
    let anyCam := (groupAxes s g).any fun n => gmode s n == 3
    let s := setCoState g 3 0 s
    let s := eachN (groupAxes s g) (fun n s => coAxis g n r firsts s) s
    let s := firsts.foldl (fun s e => match r.cams.find? fun x => x.id == e.1 with
      | some x => describeCam x (s.co g).recipe e.2 s
      | none => s) s
    let s := eachN (s.co g).tiles (fun t s => fput s (TILE_INFO t) TILE_INFO_STAGED false) s
    if anyCam then s else coFinish g s

/-- A changeover in transition ends at the first set-point computation at or beyond K + CO_LEN (R186). -/
def coAdvance (s : State) : State :=
  eachN ((List.range 16).filter fun g => coState s g == 3) (fun g s =>
    let c := s.co g
    let e := sdiff 80 (masterKey s) (c.key * 65536)
    if (c.len : Int) * 65536 ≤ e && !(groupAxes s g).any (fun n => match (s.gen n).cpl with | some x => x.trans.isSome | none => false)
    then coFinish g s else s) s

/-- The set-points of every sample of the next basic cycle (R136, R137, R138). -/
def setpoints (s : State) : State := coAdvance (eachN (dueAxes s) genSample { s with mot.computed := true })

/-- At the tick the computed set-points are those of the samples of this basic cycle (R136). -/
def handOver (s : State) : State :=
  eachN (tkeys s.mot.gen) (fun n s => modGen n (fun g => match g.next with
    | some (p, v, a) => { g with pOut := p, vOut := v, aOut := a, next := none }
    | none => g) s) { s with mot.computed := false }

/-! ### Commands of an axis -/

/-- DONE and the result of a motion command (Table 4.14). -/
def pfResult (n code : Nat) (s : State) : State := wrN s (PF_RESULT n) (2 ^ 31 + code)

/-- Motion commands are refused with MODE: off, unused, a latched reaction, or a zone that is not ON (R139, R412, R533). -/
def noMotion (s : State) (n : Nat) : Bool :=
  !(s.ctx n).used || axMode s n == 0 || 2 ≤ fget s (AX_STATUS n) AX_STATUS_REACT || zoneBlocks s n

/-- Insert a move (R140, R141, R154): the tests in the order MODE, BUSY, LIMITS, REJECT_LIM. -/
def insertMove (n : Nat) (rel : Bool) (s : State) : State :=
  let g := s.gen n
  let m := gmode s n
  let t := sx 64 (rd64 s (PF_MV_TGT n))
  let t := if rel then sx 64 (ux 64 (t + g.queue.getLast?.getD g.p)) else t
  if noMotion s n || 1 < m then pfResult n 3 s
  else if 4 ≤ g.queue.length then pfResult n 1 s
  else if (limRegs s n).any (· == 0) then pfResult n 4 s
  else if outside s n t then pfResult n 2 s
  else pfResult n 0 (setQueue n (g.queue ++ [t]) s)

/-- FLUSH (R142): every entry except entry 0. -/
def flushQueue (n : Nat) (s : State) : State :=
  if noMotion s n then pfResult n 3 s else pfResult n 0 (setQueue n ((s.gen n).queue.take 1) s)

/-- A write of PF_MV_CMD (Table 4.14). -/
def mvCmdEff (n : Nat) (v : Word) : Eff := fun s =>
  let s := wr s (PF_RESULT n) 0
  match wField v 31 30 with
  | 1 => some (insertMove n false s)
  | 2 => some (insertMove n true s)
  | 3 => some (flushQueue n s)
  | _ => some s

/-- Request a generator command for the next tick. -/
def request (n : Nat) (r : GReq) (s : State) : State := pfResult n 0 (modGen n (fun g => { g with req := some r, ripe := false }) s)

/-- The axis may engage: IDLE or MOVE with the queue empty, of which entry 0 is the active move (R141, R164, R175). -/
def mayEngage (s : State) (n : Nat) : Bool := (gmode s n == 0 || gmode s n == 1) && (s.gen n).queue.isEmpty

/-- A write of PF_CMD (Table 4.14). -/
def pfCmdEff (n : Nat) (v : Word) : Eff := fun s =>
  let s := wr s (PF_RESULT n) 0
  let op := wField v 31 28
  if op = 0 || 7 < op then some s
  else if noMotion s n then some (pfResult n 3 s)
  else some (match op with
    | 1 => request n (.stop (wbit v 0)) s
    | 2 => request n .quick s
    | 3 => if !mayEngage s n then pfResult n 3 s else if outside s n (s.gen n).p then pfResult n 2 s else request n .gear s
    | 4 =>
      if !mayEngage s n then pfResult n 3 s
      else if outside s n (s.gen n).p then pfResult n 2 s
      else if !fbit s (CAM_INFO (fget s (PF_CAM n) PF_CAM_CAM_ID)) CAM_INFO_VALID then pfResult n 5 s
      else request n (.cam (wbit v 1)) s
    | 5 => if axMode s n = 2 && gmode s n = 0 && (s.gen n).queue = [] then request n .home s else pfResult n 3 s
    | 6 =>
      if gmode s n = 0 then
        let δ := sx 64 (ux 64 (sx 64 (rd64 s (PF_HOME_POS n)) - (s.gen n).p))
        pfResult n 0 (fput (rebase n δ s) (PF_STATUS n) PF_STATUS_POS_VALID true)
      else pfResult n 3 s
    | _ =>
      -- SHCLR (R179): the planner brings the offset to rest where its own stop ends
      if coupled s n then
        let h := (s.gen n).shift
        let ts := tsOf s n
        let ls := shiftLims s n
        let pl := if h.plan.isNone || ls.any (· == 0) then none
          else some (planStop h.o (velFx ts h.v) (accFx ts h.a) (ls.getD 2 0) (ls.getD 3 0))
        let s := modGen n (fun g => { g with shift := { h with req := 0, plan := pl } }) s
        pfResult n 0 (fput s (PF_STATUS n) PF_STATUS_SH_ACT pl.isSome)
      else pfResult n 0 s)

/-- The word of PF_CMD for a command. -/
def pfCmdWord (op : Nat) (rel fl : Bool) : Word := BitVec.ofNat 32 (op * 2 ^ 28 + rel.toNat * 2 + fl.toNat)

/-- A motion command sent to an axis. -/
def sendPf (w : Who) (n : Axis) (v : Word) (s : State) : State := gated w (PF_CMD n.toNat) v (pfCmdEff n.toNat v) s
def sendMv (w : Who) (n : Axis) (op : Nat) (s : State) : State :=
  gated w (PF_MV_CMD n.toNat) (BitVec.ofNat 32 (op * 2 ^ 30)) (mvCmdEff n.toNat (BitVec.ofNat 32 (op * 2 ^ 30))) s

/-- MOVE_INSERT_ABS (R141). -/
def execMoveInsertAbs (w : Who) (n : Axis) (s : State) : Host.Outcome State Fault Refusal := .next (sendMv w n 1 s)
/-- MOVE_INSERT_REL (R141). -/
def execMoveInsertRel (w : Who) (n : Axis) (s : State) : Host.Outcome State Fault Refusal := .next (sendMv w n 2 s)
/-- FLUSH (R142). -/
def execFlush (w : Who) (n : Axis) (s : State) : Host.Outcome State Fault Refusal := .next (sendMv w n 3 s)
/-- STOP (R147). -/
def execStop (w : Who) (n : Axis) (fl : Bool) (s : State) : Host.Outcome State Fault Refusal := .next (sendPf w n (pfCmdWord 1 false fl) s)
/-- QSTOP (R148). -/
def execQstop (w : Who) (n : Axis) (s : State) : Host.Outcome State Fault Refusal := .next (sendPf w n (pfCmdWord 2 false false) s)
/-- GEAR (R164). -/
def execGear (w : Who) (n : Axis) (s : State) : Host.Outcome State Fault Refusal := .next (sendPf w n (pfCmdWord 3 false false) s)
/-- CAM (R175). -/
def execCam (w : Who) (n : Axis) (rel : Bool) (s : State) : Host.Outcome State Fault Refusal := .next (sendPf w n (pfCmdWord 4 rel false) s)
/-- HOME (R159). -/
def execHome (w : Who) (n : Axis) (s : State) : Host.Outcome State Fault Refusal := .next (sendPf w n (pfCmdWord 5 false false) s)
/-- SETPOS (R160). -/
def execSetpos (w : Who) (n : Axis) (s : State) : Host.Outcome State Fault Refusal := .next (sendPf w n (pfCmdWord 6 false false) s)
/-- SHCLR (R179). -/
def execShclr (w : Who) (n : Axis) (s : State) : Host.Outcome State Fault Refusal := .next (sendPf w n (pfCmdWord 7 false false) s)

/-- LIMIT_CHANGE (R143, R145): limits written before the last tick act on the active move. -/
def execLimitChange (n : Axis) (s : State) : Host.Outcome State Fault Refusal :=
  .next (if (s.gen n.toNat).limDirty && (s.gen n.toNat).ripe then limitChange n.toNat s else s)

/-- A write of PF_GEAR_DEN applies the pair from the next tick; 0 is ignored (R165, Table 4.12). -/
def gearDenEff (n : Nat) (v : Word) : Eff := fun s =>
  if v = 0 then some s
  else
    let s := wr s (PF_GEAR_DEN n) v
    some (modGen n (fun g => { g with ratio := some ((rd s (PF_GEAR_NUM n)).toInt, v.toNat), ripe := false }) s)

/-- GEAR_RATIO_WRITE (R165). -/
def execGearRatioWrite (w : Who) (n : Axis) (v : Word) (s : State) : Host.Outcome State Fault Refusal :=
  .next (gated w (PF_GEAR_DEN n.toNat) v (gearDenEff n.toNat v) s)

/-- The low word a port has written and not yet applied, or the word in force (R489). -/
def stagedKey (p a : Nat) : Nat := p * 2 ^ 32 + a
def stagedLow (s : State) (p a : Nat) : Word :=
  match tget none s.host.staged (stagedKey p a) with
  | some v => v
  | none => rd s a
def setStaged (p a : Nat) (v : Option Word) (s : State) : State :=
  { s with host.staged := tset none s.host.staged (stagedKey p a) v }

/-- The high word of PF_MAX applies both virtual limits, or refuses a pair with PF_MIN ≥ PF_MAX (R153). -/
def virtualLimitEff (p n : Nat) (v : Word) : Eff := fun s =>
  let mn0 := stagedLow s p (PF_MIN n 0)
  let mn1 := stagedLow s p (PF_MIN n 1)
  let mx0 := stagedLow s p (PF_MAX n 0)
  let mn := sx 64 (mn0.toNat + mn1.toNat * 2 ^ 32)
  let mx := sx 64 (mx0.toNat + v.toNat * 2 ^ 32)
  if mx ≤ mn then none
  else
    let s := wr (wr (wr (wr s (PF_MIN n 0) mn0) (PF_MIN n 1) mn1) (PF_MAX n 0) mx0) (PF_MAX n 1) v
    some (setStaged p (PF_MIN n 0) none (setStaged p (PF_MIN n 1) none (setStaged p (PF_MAX n 0) none s)))

/-- VIRTUAL_LIMIT_WRITE (R153). -/
def execVirtualLimitWrite (w : Who) (n : Axis) (v : Word) (s : State) : Host.Outcome State Fault Refusal :=
  .next (gated w (PF_MAX n.toNat 1) v (virtualLimitEff (portCode w.port) n.toNat v) s)

/-- SWITCH_EDGE_RAW (R162): a raw edge of the switch homing seeks. -/
def execSwitchEdgeRaw (n : Axis) (s : State) : Host.Outcome State Fault Refusal :=
  let k := n.toNat
  .next (if gmode s k = 5 && (sought s k).isSome then
    let s := fincSat s (PF_HOME_STATUS k) PF_HOME_STATUS_EDGES
    let lim := fget s (PF_HOME_CFG k) PF_HOME_CFG_HOME_CHAT
    if lim ≠ 0 && lim < fget s (PF_HOME_STATUS k) PF_HOME_STATUS_EDGES then
      let s := w1cSet (PF_STATUS k) PF_STATUS_SUSPECT k s
      if fbit s (PF_HOME_CFG k) PF_HOME_CFG_STRICT then homeAbortStop k 3 s else s
    else s
  else s)

/-- The level of a switch is active with its polarity (Table 4.15). -/
def swAct (s : State) (n k : Nat) (level : Bool) : Bool :=
  let inv := match k with
    | 0 => fbit s (PF_SW_SRC n) PF_SW_SRC_HPOL
    | 1 => fbit s (PF_SW_SRC n) PF_SW_SRC_PPOL
    | _ => fbit s (PF_SW_SRC n) PF_SW_SRC_NPOL
  level != inv

/-- SWITCH_DEBOUNCED (R158): a level that held for DEB × 0.1 ms is accepted; the edge fell `dt` of `span` ns after the earlier of the two feedback samples around it. -/
def execSwitchDebounced (n : Axis) (sw : Switch) (level : Bool) (dt span : Nat) (s : State) : Host.Outcome State Fault Refusal :=
  let k := n.toNat
  let b := swNo sw
  let f := s.fb k
  let p := sx 64 (ux 64 (f.posPrev + rhu (sx 64 (ux 64 (f.pos - f.posPrev)) * dt) (max 1 span)))
  let act := swAct s k b level
  .next (if swActive s k b == act then s
    else homeSwitch k b act p (modGen k (fun g => { g with sw := g.sw ^^^ 2 ^ b }) s))

/-! ### Cam tiles and shifts -/

/-- CAM_TILE_VERIFY (R173, R174): the slice of a tile's region has streamed it for an axis. -/
def execCamTileVerify (n : Axis) (t : BitVec 11) (s : State) : Host.Outcome State Fault Refusal :=
  let k := t.toNat
  let (bad, s) := fiHit 3 k s
  .next (if 1536 ≤ k || !tileUsed s k then s
    else if !bad && crcWords (rdWords s (camTileAddr k) 1024) = rd s (TILE_CRC k) then
      let w := tget [] s.mot.win n.toNat
      { s with mot.win := tset [] s.mot.win n.toNat ((k :: w.filter (· != k)).take 3) }
    else
      let s := tileError (k / 384) s
      { s with mot.win := s.mot.win.map fun e => (e.1, e.2.filter (· != k)) })

/-- CAM_TILE_REBUILD (R174): the steward rebuilds a tile from the resident recipe store; the rebuild is logged. -/
def execCamTileRebuild (t : BitVec 11) (s : State) : Host.Outcome State Fault Refusal :=
  let k := t.toNat
  let i := fget s (TILE_INFO k) TILE_INFO_CAM
  let r := tget {} s.boot.bank (fget s (CAM_INFO i) CAM_INFO_RECIPE)
  .next (if 1536 ≤ k || !tileUsed s k then s
    else match r.cams.find? fun c => c.id == i, (chainOf s i).findIdx? (· == k) with
      | some c, some j =>
        let ws := camTileWords c j
        logSteward 5 0 k 0 (wr (wrWords s (camTileAddr k) ws) (TILE_CRC k) (crcWords ws))
      | _, _ => logSteward 5 2 k 0 s)

/-- A shift request, summed within a basic cycle; accepted in GEAR and CAM, else refused with MODE (R177). -/
def shiftRequest (n : Nat) (d : Int) (s : State) : State :=
  if coupled s n then
    pfResult n 0 (modGen n (fun g => { g with shift := { g.shift with req := sx 64 (ux 64 (g.shift.req + d)) } }) s)
  else pfResult n 3 s

/-- The high word of PF_SH submits the request (R177). -/
def shiftEff (p n : Nat) (v : Word) : Eff := fun s =>
  let lo := match tget none s.host.staged (stagedKey p (PF_SH n 0)) with | some x => x | none => 0
  some (shiftRequest n (sx 64 (lo.toNat + v.toNat * 2 ^ 32)) (setStaged p (PF_SH n 0) none s))

/-- SHIFT_REQUEST (R177). -/
def execShiftRequest (w : Who) (n : Axis) (v : Word) (s : State) : Host.Outcome State Fault Refusal :=
  .next (gated w (PF_SH n.toNat 1) v (shiftEff (portCode w.port) n.toNat v) s)

/-- At a tick everything written before it becomes ripe (R136). -/
def ripenAll (s : State) : State :=
  eachN (tkeys s.mot.gen) (fun n s =>
    let g := s.gen n
    if g.req.isSome || g.limDirty || g.ratio.isSome || g.shift.req ≠ 0 || (g.queue ≠ [] && gmode s n = 0) then
      modGen n (fun g => { g with ripe := true }) s else s) s

end Sys2Proof.Machine
end

