-- ==== Sys2Proof/Machine/Lane.lean ====
section
/-! DEFINITION. The signal lanes: memory, tasks, releases, faults and the issue of one instruction (chapter 6 and sections 5.1, 5.3, 5.7). -/

namespace Sys2Proof.Machine
open R

def State.lan (s : State) (u : Nat) : Lane := tget {} s.lane u
def State.setLan (s : State) (u : Nat) (l : Lane) : State := { s with lane := tset {} s.lane u l }

/-- The unit is part of a Lagoon pair (R217). -/
def joined (s : State) (u : Nat) : Bool := fbit s (LANE_STATUS u) LANE_STATUS_JOINED

/-- The units a lane occupies: both of a Lagoon pair (R16). -/
def laneUnits (s : State) (u : Nat) : List Nat := if joined s u then [u, u + 1] else [u]

/-! ### LSTAT (Table 5.3) -/

def lsZ : Nat := 0
def lsN : Nat := 1
def lsC : Nat := 2
def lsV : Nat := 3
def lsV40 : Nat := 5
def lsG : Nat := 6
def lsCirc : Nat := 7
def lsClamp : Nat := 8
def lsPb : Nat := 9
def lsFrac : Nat := 14
def lsSatm : Nat := 15

def stBit (w : BitVec 16) (i : Nat) : Bool := w.getLsbD i
def stPut (w : BitVec 16) (i : Nat) (b : Bool) : BitVec 16 :=
  if b then w ||| (1#16 <<< i) else w &&& ~~~(1#16 <<< i)

/-- V40 and G settings still on their way are committed (R226). -/
def stCommit (l : List (Bool × Bool)) (w : BitVec 16) : BitVec 16 :=
  l.foldl (fun w p => stPut (stPut w lsV40 (stBit w lsV40 || p.1)) lsG (stBit w lsG || p.2)) w

/-! ### Memory (Table 5.2, R218) -/

/-- The host address of the 16-bit word `a` of bank X or Y, as its word address and its half. -/
def dataAt (wide : Bool) (u : Nat) (y : Bool) (a : Nat) : Nat × Nat :=
  let (v, k) := if wide then (u + a % 2, a / 2) else (u, a)
  ((if y then YMEM v else XMEM v) (k / 2), k % 2)

/-- Read a 16-bit word of lane memory. -/
def lrd (wide : Bool) (u : Nat) (y : Bool) (a : Nat) (s : State) : Nat :=
  let (p, h) := dataAt wide u y a
  rdN s p / 2 ^ (16 * h) % 2 ^ 16

/-- Write a 16-bit word of lane memory. -/
def lwr (wide : Bool) (u : Nat) (y : Bool) (a v : Nat) (s : State) : State :=
  let (p, h) := dataAt wide u y a
  wr s p (withField (rd s p) ⟨16 * h + 15, 16 * h⟩ v)

/-- Words in a bank, and in the program memory (Table 5.2, Table 5.10). -/
def bankSize (wide : Bool) : Nat := if wide then 4096 else 2048
def progSize (wide : Bool) : Nat := if wide then 8192 else 4096

/-- The instruction at a program address. -/
def progWord (wide : Bool) (u pc : Nat) (s : State) : Nat :=
  if wide && 4096 ≤ pc then rdN s (PMEM (u + 1) (pc - 4096)) else rdN s (PMEM u (pc % 4096))

/-! ### Tasks (section 6.3) -/

/-- The unit and descriptor slot of a lane task (R232). -/
def findTask (s : State) (t : Nat) : Option (Nat × Nat) :=
  s.regs.findSome? fun e =>
    let o := e.1 - 0x400000
    let k := o % 0x8000
    if 0x400000 ≤ e.1 && e.1 < 0x500000 && 0x7040 ≤ k && k < 0x7080 && k % 8 == 0 &&
        fieldOf e.2 LT_DESC_A_VALID == 1 && fieldOf e.2 LT_DESC_A_TASK == t then
      some (o / 0x8000, (k - 0x7040) / 8)
    else none

/-- The number of the task in a descriptor slot, and its priority. -/
def taskNo (s : State) (u k : Nat) : Nat := fget s (LT_DESC_A u k) LT_DESC_A_TASK
def taskHigh (s : State) (u k : Nat) : Bool := fbit s (LT_DESC_A u k) LT_DESC_A_HIGH
def taskMn64 (s : State) (u k : Nat) : Bool := fbit s (LT_DESC_A u k) LT_DESC_A_MN64

/-- The bound axis of a task (R232). -/
def taskAxis (s : State) (u k : Nat) : Option Nat :=
  if fbit s (LT_DESC_B u k) LT_DESC_B_AXV then some (fget s (LT_DESC_B u k) LT_DESC_B_AXIS) else none

/-- A release of a lane task at a time (R234, R235, R238). -/
def releaseLane (t : Nat) (d0 d1 : Word) (rel : Nat) (s : State) : State :=
  match findTask s t with
  | none => s
  | some (u, k) =>
    let a := LT_STAT u k
    if fbit s a LT_STAT_FAILED then s
    else if fbit s a LT_STAT_PENDING then w1cSet a LT_STAT_LOVR u (fincSat s a LT_STAT_OVR_CNT)
    else
      let g := u / 8
      let s := fput s a LT_STAT_PENDING true
      s.setReady g 3 (s.ready g 3 ++ [{ id := t, rel := rel, d0 := d0, d1 := d1 }])

/-- The samples of an axis release the tasks bound to it with AXREL (R234). -/
def releaseAxrel (n rel : Nat) (s : State) : State :=
  let ts := s.regs.filterMap fun e =>
    let o := e.1 - 0x400000
    let k := o % 0x8000
    if 0x400000 ≤ e.1 && e.1 < 0x500000 && 0x7040 ≤ k && k < 0x7080 && k % 8 == 0 &&
        fieldOf e.2 LT_DESC_A_VALID == 1 && fieldOf e.2 LT_DESC_A_AXREL == 1 &&
        taskAxis s (o / 0x8000) ((k - 0x7040) / 8) == some n then
      some (fieldOf e.2 LT_DESC_A_TASK)
    else none
  eachN ts (fun t s => releaseLane t (rd s TICK_COUNT &&& 0xFFFF) 0 rel s) s

/-- ns per cycle of a unit's clock (R22). -/
def cycleNs (s : State) (u : Nat) : Nat := if fbit s (REGION_STATUS (u / 8)) REGION_STATUS_CLK_ECON then 4 else 2

/-- The sticky flags of a task that ends enter LANE_FLAGS (R193). -/
def orFlags (u : Nat) (w : BitVec 16) (s : State) : State :=
  let p (i : Nat) (f : Fld) (s : State) : State := if stBit w i then w1cSet (LANE_FLAGS u) f u s else s
  p lsV40 LANE_FLAGS_V40 (p lsG LANE_FLAGS_G (p lsCirc LANE_FLAGS_CIRC_RELOC (p lsClamp LANE_FLAGS_RCLAMP s)))

/-- The units of a lane are free again after `cycles` of work. -/
def laneFree (u cycles : Nat) (s : State) : State :=
  eachN (laneUnits s u) (fun v s =>
    let x := s.unit v
    s.setUnit v { x with job := none, yield := false, busy := x.busy + cycles * cycleNs s u }) s

/-- The task of a lane ends (R193, R229). -/
def laneTaskEnd (u : Nat) (s : State) : State :=
  let l := s.lan u
  match l.cur with
  | none => s
  | some k =>
    let w := stCommit l.stick l.r.stat
    let s := orFlags u w s
    let s := fput (fput s (LT_STAT u k) LT_STAT_RUN false) (LT_STAT u k) LT_STAT_SUSP false
    let s := s.setLan u { l with r := { l.r with stat := w, act0 := false, act1 := false, stk := [] },
                                 cur := none, susp := false, rpt := none, slots := none, hist := [], late := none,
                                 mts := none, stick := [], again := false, asked := none }
    let s := eachN (laneUnits s u) (fun v s => fput s (LANE_STATUS v) LANE_STATUS_BUSY l.shadow.isSome) s
    laneFree u (l.issued + 3) s

/-- Values of a fault snapshot, two in a word. -/
def snapFour (reg : Nat → Nat) (f : Nat → Nat) (n m : Nat) (s : State) : State :=
  eachN (List.range n) (fun j s => wrN s (reg j) (f (2 * j + 1) % m * 2 ^ 16 + f (2 * j) % m)) s

/-- The fault snapshot (Table 5.16, R223). -/
def laneSnap (u pc : Nat) (s : State) : State :=
  let r := (s.lan u).r
  let wide := joined s u
  let s := wrN s (SNAP_PC u) (pc % 2 ^ 13 * 2 ^ 16 + r.stat.toNat)
  let s := snapFour (SNAP_D u) (fun i => r.d.getD i 0) 4 (2 ^ 16) s
  let s := if wide then snapFour (SNAP_D (u + 1)) (fun i => r.d.getD i 0 / 2 ^ 16) 4 (2 ^ 16) s else s
  let s := snapFour (SNAP_A u) (fun i => r.a.getD i 0) 2 (2 ^ 12) s
  let s := snapFour (SNAP_M u) (fun i => ux 12 (r.m.getD i 0)) 2 (2 ^ 12) s
  let s := snapFour (SNAP_B u) (fun i => r.b.getD i 0) 2 (2 ^ 12) s
  let s := snapFour (SNAP_L u) (fun i => r.l.getD i 0) 2 (2 ^ 12) s
  let acc := ux (if wide then 56 else 40) r.acc
  wr (wrN (wrN s (SNAP_ACC_LO u) acc) (SNAP_ACC_HI u) (acc / 2 ^ 32)) (SNAP_TR u) r.tr

/-- A lane fault (R216, R223, R238): recorded, captured while FAULT is 0, and the task ends FAILED. -/
def laneFault (u code pc : Nat) (s : State) : State :=
  let l := s.lan u
  match l.cur with
  | none => s
  | some k =>
    let t := taskNo s u k
    let s := s.setLan u { l with r := { l.r with stat := stCommit l.stick l.r.stat }, stick := [] }
    let s := sediment 11 sevFault (0x0300 + code) (t * 2 ^ 16 + pc % 2 ^ 13) s
    let s := if fbit s (LANE_FLAGS u) LANE_FLAGS_FAULT then s
      else
        let s := laneSnap u pc (wrN s (LANE_FAULT u) (code * 2 ^ 28 + t * 2 ^ 16 + pc % 2 ^ 13))
        eachN (laneUnits s u) (fun v s => w1cSet (LANE_FLAGS v) LANE_FLAGS_FAULT v s) s
    laneTaskEnd u (fput s (LT_STAT u k) LT_STAT_FAILED true)

/-- A parity error on a lane memory read (R192, R481). -/
def laneParity (u pc : Nat) (s : State) : State := tileError (u / 8) (laneFault u 6 pc s)

/-! ### Permitted points, suspension and start (R236, R239 to R241, R245, R246) -/

/-- The boundary before the next issue is a permitted point. -/
def permitted (s : State) (u : Nat) : Bool :=
  let l := s.lan u
  match l.cur with
  | none => true
  | some k => l.slots.isNone && l.rpt.isNone && (!(l.r.act0 || l.r.act1) || (taskMn64 s u k && l.again))

/-- Issued instructions complete: later reads see every result (R240). -/
def drain (l : Lane) : Lane :=
  { l with r := { l.r with stat := stCommit l.stick l.r.stat }, hist := [], late := none, mts := none, stick := [] }

/-- The suspension is counted, with its hold-off in cycles (Table 6.10). -/
def countPre (u hold : Nat) (s : State) : State :=
  let a := LANE_PRE u
  let s := fincSat s a LANE_PRE_SUSP
  fset s a LANE_PRE_HOLDOFF (max (fget s a LANE_PRE_HOLDOFF) (min hold 0xFFFF))

/-- A law task takes the unit from a lane task at a permitted point (R240). -/
def laneSuspend (u : Nat) (s : State) : State :=
  let l := s.lan u
  match l.cur with
  | none => s
  | some k =>
    let hold := match l.asked with | some a => l.issued - a | none => 0
    let s := s.setLan u { drain l with susp := true, asked := none }
    let s := fput s (LT_STAT u k) LT_STAT_SUSP true
    laneFree u l.issued (countPre u hold s)

/-- The suspended task of the lane goes on. -/
def laneResume (u : Nat) (s : State) : State :=
  let l := s.lan u
  match l.cur with
  | none => s
  | some k => fput (s.setLan u { l with susp := false, issued := 0 }) (LT_STAT u k) LT_STAT_SUSP false

/-- The LOW task in the registers goes into the shadow bank; the loop counts stay (R241, R246). -/
def shadowSave (u : Nat) (s : State) : State :=
  let l := s.lan u
  match l.cur with
  | none => s
  | some k =>
    let x := drain l
    let s := s.setLan u { x with shadow := some (k, l.rel, x.r), cur := none, susp := false, asked := none,
                                 r := { x.r with act0 := false, act1 := false, stk := [] } }
    fput s (LT_STAT u k) LT_STAT_SUSP true

/-- The LOW task in the shadow bank gets the lane back (R241). -/
def shadowRestore (u : Nat) (s : State) : State :=
  let l := s.lan u
  match l.shadow with
  | none => s
  | some (k, rel, r) =>
    let s := s.setLan u { l with r := r, cur := some k, rel := rel, susp := false, shadow := none, issued := 0,
                                 rpt := none, slots := none, hist := [], late := none, mts := none, stick := [] }
    fput s (LT_STAT u k) LT_STAT_SUSP false

/-- A lane task starts (R234, R236). -/
def laneStart (u k : Nat) (e : REnt) (s : State) : State :=
  let l := s.lan u
  let a := rd s (LT_DESC_A u k)
  let wide := joined s u
  let m := if wide then 2 ^ 32 else 2 ^ 16
  let st := stPut (stPut 0 lsSatm (fieldOf a LT_DESC_A_SATM0 == 1)) lsFrac (fieldOf a LT_DESC_A_FRAC0 == 1)
  let r := { l.r with d := (l.r.d.set 0 (e.d0.toNat % m)).set 1 (e.d1.toNat % m), stat := st,
                      pc := fieldOf a LT_DESC_A_ENTRY % progSize wide, stk := [], act0 := false, act1 := false }
  let s := s.setLan u { l with r := r, cur := some k, rel := e.rel, susp := false, rpt := none, slots := none,
                               hist := [], late := none, mts := none, stick := [], issued := 0, asked := none, again := false }
  let s := fput (fput s (LT_STAT u k) LT_STAT_PENDING false) (LT_STAT u k) LT_STAT_RUN true
  eachN (laneUnits s u) (fun v s => fset (fput s (LANE_STATUS v) LANE_STATUS_BUSY true) (LANE_STATUS v) LANE_STATUS_TASK e.id) s

/-! ### The issue of one instruction (R224 to R231) -/

/-- An instruction at its issue: the lane before it (which it reads) and after it (which it writes). -/
structure LX where
  u : Nat
  wide : Bool
  word : Nat
  /-- the lane as the instruction reads it -/
  v : Lane
  l : Lane
  s : State
  fault : Option Nat := none
  /-- where execution continues in place of the next address -/
  goto : Option Nat := none

/-- The opcode of an instruction word (R201). -/
def opOf (w : Nat) : Nat := w / 2 ^ 26 % 64

/-- An illegal opcode, SUB, MODE, SPEC or POST type, or an instruction of the other mode (R202, R216). -/
def illegal (wide : Bool) (w : Nat) : Bool :=
  let sub := w / 2 ^ 10 % 128
  let spec := w / 2 ^ 18 % 32
  match opOf w with
  | 0x02 => !wide
  | 0x04 => w.testBit 21 && !wide
  | 0x05 => w.testBit 21 && !wide
  | 0x06 => decide (24 ≤ spec)
  | 0x07 => decide (25 ≤ spec)
  | 0x11 => sub / 32 == 3
  | 0x13 => decide (3 ≤ sub)
  | 0x17 => wide
  | 0x25 => decide (7 ≤ w / 2 ^ 19 % 16)
  | 0x26 => w / 2 ^ 21 % 4 == 3
  | 0x37 => w / 2 ^ 24 % 4 == 3
  | o => decide (0x18 ≤ o ∧ o < 0x20) || decide (0x27 ≤ o ∧ o < 0x30) || decide (0x39 ≤ o)

/-- BR, CALL, RET, RPT, LOOP and END. -/
def isCtl (w : Nat) : Bool := [0x30, 0x31, 0x32, 0x33, 0x34, 0x38].contains (opOf w)

/-- BR, CALL, RET and END, which have delay slots. -/
def isJump (w : Nat) : Bool := [0x30, 0x31, 0x32, 0x38].contains (opOf w)

/-- What RPT may repeat (R210): data moves, ALU, multiply, ACS, ACCOP, MVA and QSTEP. -/
def repeatable (w : Nat) : Bool :=
  let o := opOf w
  decide (1 ≤ o ∧ o ≤ 0x15) || o == 0x17 || decide (0x20 ≤ o ∧ o ≤ 0x26) || o == 0x35 || o == 0x36

/-- The innermost active loop level: its start and its end (R211). -/
def loopOf (l : Lane) : Option (Nat × Nat) :=
  if l.r.act1 then some (l.ls1, l.le1) else if l.r.act0 then some (l.ls0, l.le0) else none

/-- The fault found at the issue of a word: ILLOP, DSLOT, RPTBAD, LOOPBAD (Table 5.9). -/
def issueFault (wide : Bool) (l : Lane) (w : Nat) : Option Nat :=
  let atEnd := match loopOf l with
    | some (_, le) => (isCtl w && l.r.pc == le) || (isJump w && (l.r.pc + 1 == le || l.r.pc + 2 == le))
    | none => false
  if illegal wide w then some 1
  else if l.slots.isSome && isCtl w then some 2
  else if l.rpt.isSome && !repeatable w then some 3
  else if atEnd then some 4
  else none

/-- The last issue was an MTS to the count of level k: the value before it. -/
def countOld (v : Lane) (k : Nat) : Option Nat :=
  match v.mts with
  | some (c, old) => if c = 22 + k then some old.toNat else none
  | none => none

/-- The loop-end test at LE (R212): the lane and the next address. A count written by an MTS reaches the test at distance 2 and is kept (Table 6.2). -/
def loopTest (v : Lane) : Lane × Nat :=
  let pc := v.r.pc
  if v.r.act1 && v.le1 == pc then
    if 1 < (countOld v 1).getD v.lc1 then ({ v with lc1 := if (countOld v 1).isSome then v.lc1 else v.lc1 - 1, again := true }, v.ls1)
    else ({ v with r := { v.r with act1 := false } }, pc + 1)
  else if !v.r.act1 && v.r.act0 && v.le0 == pc then
    if 1 < (countOld v 0).getD v.lc0 then ({ v with lc0 := if (countOld v 0).isSome then v.lc0 else v.lc0 - 1, again := true }, v.ls0)
    else ({ v with r := { v.r with act0 := false } }, pc + 1)
  else (v, pc + 1)

/-- Where the lane goes after an issue: repetition, delay slots, the loop-end test or the next address (R208 to R212). -/
def advancePc (v : Lane) : Lane × After :=
  let v := { v with again := false }
  match v.rpt with
  | some (n + 2) => ({ v with rpt := some (n + 1) }, .jump v.r.pc)
  | _ =>
    let l := { v with rpt := none }
    match v.slots with
    | some (1, a) => ({ l with slots := none }, a)
    | some (n, a) => ({ l with slots := some (n - 1, a) }, .jump (v.r.pc + 1))
    | none => ((loopTest l).1, .jump (loopTest l).2)

/-- What later issues may still read (R225). -/
def histOf (l : Lane) : LaneHist := { d := l.r.d, late := l.late, acc := l.r.acc, stat := l.r.stat }

/-- The lane of a unit runs a task that may issue. -/
def laneRuns (s : State) (u : Nat) : Bool :=
  let l := s.lan u
  l.cur.isSome && !l.susp && (match (s.unit u).job with | some (.lane _) => true | _ => false)

/-- The lane issues the instruction at its PC when that is the instruction named by `val` on the bits of `mask` (R201, R224). An illegal or misplaced word, or a parity error, is a lane fault. -/
def laneIssue (u mask val : Nat) (fx : LX → LX) (s : State) : State :=
  if !laneRuns s u then s
  else
    let wide := joined s u
    let v := s.lan u
    let w := progWord wide u v.r.pc s
    match issueFault wide v w with
    | some c => laneFault u c v.r.pc s
    | none =>
      if w &&& mask ≠ val then s
      else
        let (bad, s) := fiHit 4 u s
        if bad then laneParity u v.r.pc s
        else
          let v := { v with r := { v.r with stat := stCommit (v.stick.drop 2) v.r.stat }, stick := v.stick.take 2 }
          let (l, nx) := advancePc v
          let x := fx { u := u, wide := wide, word := w, v := v,
                        l := { l with late := none, mts := none, stick := (false, false) :: v.stick, issued := v.issued + 1 }, s := s }
          match x.fault with
          | some c => laneFault u c v.r.pc s
          | none =>
            let l := { x.l with hist := (histOf v :: v.hist).take 3 }
            match (match x.goto with | some p => After.jump p | none => nx) with
            | .fin => laneTaskEnd u (x.s.setLan u l)
            | .jump p =>
              if p < progSize wide then x.s.setLan u { l with r := { l.r with pc := p } }
              else laneFault u 7 v.r.pc (x.s.setLan u l)

/-! ### What an instruction reads and writes -/

/-- The width of a data register. -/
def LX.w (x : LX) : Nat := if x.wide then 32 else 16

/-- An operand read of Dn: a QSTEP or NRM one issue back has not reached it (Table 6.2). -/
def opOld (l : LaneHist) (n : Nat) : Nat :=
  match l.late with
  | some (k, old) => if k = n then old else l.d.getD n 0
  | none => l.d.getD n 0
def LX.reg (x : LX) (n : Nat) : Nat := opOld (histOf x.v) n

/-- A read of Dn as two's complement. -/
def LX.sreg (x : LX) (n : Nat) : Int := sx x.w (x.reg n)

/-- The value of Dn an RPT or LOOP reads, one issue later than an operand (Table 6.2). -/
def LX.cnt (x : LX) (n : Nat) : Nat :=
  match x.v.hist with
  | h :: _ => opOld h n
  | [] => x.reg n

/-- State as it stood k issues ago, or as the task or its resumption found it. -/
def LX.ago (x : LX) (k : Nat) : LaneHist :=
  match k with
  | 0 => histOf x.v
  | k + 1 => match x.v.hist with
    | [] => histOf x.v
    | h :: t => (h :: t).getD k ((h :: t).getLastD h)

/-- ACC as MVA and MFS read it, at distance 3, and as AZ and AN read it, at distance 4 (Table 6.2). -/
def LX.accRead (x : LX) : Int := (x.ago 2).acc
def LX.accCond (x : LX) : Int := (x.ago 3).acc

/-- LSTAT as conditions read it, at distance 2. -/
def LX.condStat (x : LX) : BitVec 16 := (x.ago 1).stat

def LX.mod (x : LX) (f : LaneRegs → LaneRegs) : LX := { x with l := { x.l with r := f x.l.r } }
def LX.setD (x : LX) (n v : Nat) : LX := x.mod fun r => { r with d := r.d.set n (v % 2 ^ x.w) }
def LX.setStat (x : LX) (i : Nat) (b : Bool) : LX := x.mod fun r => { r with stat := stPut r.stat i b }
def LX.fail (x : LX) (c : Nat) : LX := { x with fault := some c }
def LX.satm (x : LX) : Bool := stBit x.v.r.stat lsSatm
def LX.frac (x : LX) : Bool := stBit x.v.r.stat lsFrac

/-- Z and N of a value written, C and V. -/
def LX.flags (x : LX) (val : Nat) (c v : Bool) : LX :=
  (((x.setStat lsZ (val % 2 ^ x.w == 0)).setStat lsN (val.testBit (x.w - 1))).setStat lsC c).setStat lsV v

/-- The value an exact ALU result writes, and V (R196). -/
def LX.fit (x : LX) (e : Int) : Nat × Bool :=
  let (y, o) := satF x.w e
  (ux x.w (if x.satm then y else e), o)

/-- An arithmetic result: flags and, unless it is a compare, the write (R196). -/
def LX.arith (x : LX) (d : Option Nat) (e : Int) (c : Bool) : LX :=
  let (v, o) := x.fit e
  let x := x.flags v c o
  match d with
  | some n => x.setD n v
  | none => x

/-- A logical result (R197). -/
def LX.logic (x : LX) (d v : Nat) : LX := (x.flags v false false).setD d v

/-- acc_write (R195, R220). -/
def LX.accWrite (x : LX) (e : Int) : LX :=
  let n := if x.wide then 56 else 40
  let (y, o) := satF n e
  let e := if o then (if x.satm then y else sx n (ux n e)) else e
  let g := (satF (n - 8) e).2
  { x with l := { x.l with
      r := { x.l.r with acc := e }, stick := (match x.l.stick with | p :: t => (p.1 || o, p.2 || g) :: t | [] => [(o, g)]) } }

/-- The address register An as an access reads it: an MTS reaches it at distance 2 (Table 6.2). -/
def mtsOld (v : Lane) (spec : Nat) (now : Int) : Int :=
  match v.mts with
  | some (k, old) => if k = spec then old else now
  | none => now
def LX.aReg (x : LX) (n : Nat) : Nat := (mtsOld x.v n (x.v.r.a.getD n 0)).toNat
def LX.mReg (x : LX) (n : Nat) : Int := mtsOld x.v (4 + n) (x.v.r.m.getD n 0)
def LX.bReg (x : LX) (n : Nat) : Nat := (mtsOld x.v (8 + n) (x.v.r.b.getD n 0)).toNat
def LX.lReg (x : LX) (n : Nat) : Nat := (mtsOld x.v (12 + n) (x.v.r.l.getD n 0)).toNat

/-- post_modify (R199, R200), at LEVEL 0x01 without relocation (R527): lost when the last issue wrote An by MTS (R226). -/
def LX.postModify (x : LX) (n : Nat) (step : Int) : LX :=
  let a := x.aReg n
  let b := x.bReg n
  let len := if x.wide then x.lReg n else min (x.lReg n) 2048
  let put (x : LX) (v : Nat) : LX :=
    match x.v.mts with
    | some (k, _) => if k = n then x else x.mod fun r => { r with a := r.a.set n (v % 4096) }
    | none => x.mod fun r => { r with a := r.a.set n (v % 4096) }
  if step = 0 then x
  else if len = 0 then put x ((((a : Int) + step) % (bankSize x.wide : Int)).toNat)
  else if levelOne x.s || (b ≤ a && a < b + len) then put x (b + ((((a : Int) - b + step) % (len : Int)).toNat))
  else (put x b).setStat lsCirc true

/-- The step of a post-modify code (Table 5.4); a 32-bit access steps by 2 (R219). -/
def LX.step (x : LX) (n md : Nat) (w32 : Bool) : Int :=
  match md with
  | 1 => if w32 then 2 else 1
  | 2 => if w32 then -2 else -1
  | 3 => x.mReg n
  | _ => 0

/-- Read a bank at an address: 16 bits, or 32 (R219). -/
def LX.load (x : LX) (y w32 : Bool) (a : Nat) : Nat :=
  let a := a % bankSize x.wide
  if w32 then
    let e := a - a % 2
    lrd x.wide x.u y e x.s + lrd x.wide x.u y (e + 1) x.s * 2 ^ 16
  else lrd x.wide x.u y a x.s

/-- Write a bank at an address. -/
def LX.store (x : LX) (y w32 : Bool) (a v : Nat) : LX :=
  let a := a % bankSize x.wide
  if w32 then
    let e := a - a % 2
    { x with s := lwr x.wide x.u y (e + 1) (v / 2 ^ 16) (lwr x.wide x.u y e v x.s) }
  else { x with s := lwr x.wide x.u y a v x.s }

/-- The parallel fetch of a bank through An into D (R203). -/
def LX.fetchTo (x : LX) (on y : Bool) (n md d : Nat) : LX :=
  if on then ((x.setD d (x.load y x.wide (x.aReg n)))).postModify n (x.step n md x.wide) else x

/-- Both parallel fetches; with one destination the Y word stays (R203). -/
def LX.fetches (x : LX) (f : Fetch) : LX :=
  (x.fetchTo f.fx false f.xa.toNat f.xm.toNat f.dx.toNat).fetchTo f.fy true (2 + f.ya.toNat) f.ym.toNat f.dy.toNat

/-- The multiplier (R194, R220). -/
def LX.product (x : LX) (a b : Nat) (ua ub hb : Bool) : Int :=
  let va : Int := if ua then x.reg a else x.sreg a
  let h := if x.wide then (if hb then x.reg b / 2 ^ 16 else x.reg b % 2 ^ 16) else x.reg b
  let vb : Int := if ub then h else sx 16 h
  va * vb * (if !ua && !ub && x.frac then 2 else 1)

/-- A condition of Table 5.7 (R208). -/
def LX.cond (x : LX) (c : Nat) : Bool :=
  let t := x.condStat
  let z := stBit t lsZ
  let lt := stBit t lsN != stBit t lsV
  match c with
  | 0 => true
  | 1 => z
  | 2 => !z
  | 3 => lt
  | 4 => !lt
  | 5 => !z && !lt
  | 6 => z || lt
  | 7 => stBit t lsC
  | 8 => !stBit t lsC
  | 9 => stBit t lsV
  | 10 => !stBit t lsV
  | 11 => x.accCond == 0
  | 12 => decide (x.accCond < 0)
  | 13 => stBit t lsPb
  | 14 => !stBit t lsPb
  | _ => false

end Sys2Proof.Machine
end

