-- ==== Sys2Proof/Machine/LaneIsa.lean ====
section
/-! DEFINITION. The lane instructions (Table 5.6), one definition each, with their encodings (Table 5.5), and the lane events: Lagoon, REARM, HOLDOFF_MAX and captures. -/

namespace Sys2Proof.Machine
open R

/-! ### Encodings (Table 5.5): the word and the bits compared; reserved and unused bits are ignored -/

def fOp : Nat := 0xFC000000
def fD (d : Nat) : Nat := d * 2 ^ 23
def fA (a : Nat) : Nat := a * 2 ^ 20
def fB (b : Nat) : Nat := b * 2 ^ 17
def fSub (x : Nat) : Nat := x * 2 ^ 10
def opW (o : Nat) : Nat := o * 2 ^ 26
def mD : Nat := fD 7
def mA : Nat := fA 7
def mB : Nat := fB 7
def mSub : Nat := fSub 127
def mImm : Nat := 0xFFFF
def bit1 (b : Bool) (i : Nat) : Nat := b.toNat * 2 ^ i

/-- Format L. -/
def encEa (y w : Bool) (ea : Ea) : Nat :=
  bit1 y 22 + bit1 w 21 + match ea with
    | .abs a => 2 ^ 20 + a.toNat
    | .ind n m => n.toNat * 2 ^ 18 + m.toNat * 2 ^ 16
def maskEa : Ea → Nat
  | .abs _ => 2 ^ 22 + 2 ^ 21 + 2 ^ 20 + 0xFFF
  | .ind _ _ => 2 ^ 22 + 2 ^ 21 + 2 ^ 20 + 0xF0000

/-- The fetch fields of format M. -/
def encFetch (f : Fetch) : Nat :=
  bit1 f.xa 25 + f.xm.toNat * 2 ^ 23 + bit1 f.ya 22 + f.ym.toNat * 2 ^ 20 + f.dx.toNat * 2 ^ 17 + f.dy.toNat * 2 ^ 14 +
    bit1 f.fx 13 + bit1 f.fy 12
def encMul (f : Fetch) (a b : BitVec 3) (ua ub hb : Bool) : Nat :=
  encFetch f + a.toNat * 2 ^ 9 + b.toNat * 2 ^ 6 + bit1 ua 5 + bit1 ub 4 + bit1 hb 3
def mFetch : Nat := 0x03FFF000
def mMul : Nat := 0x03FFFFF8

/-- A lane instruction issued on a unit's lane. -/
def issued (u : UnitNo) (mask val : Nat) (fx : LX → LX) (s : State) : Host.Outcome State Fault Refusal :=
  .next (laneIssue u.toNat mask val fx s)

/-! ### Data moves -/

/-- NOP. -/
def execNop (u : UnitNo) (s : State) : Host.Outcome State Fault Refusal := issued u fOp (opW 0x00) id s

/-- LDI: in Lagoon mode IMM is sign-extended (R219). -/
def execLdi (u : UnitNo) (d : BitVec 3) (imm : BitVec 16) (s : State) : Host.Outcome State Fault Refusal :=
  issued u (fOp + mD + mImm) (opW 0x01 + fD d.toNat + imm.toNat) (fun x => x.setD d.toNat (ux x.w imm.toInt)) s

/-- LDIH: the high half of Wd (R219). -/
def execLdih (u : UnitNo) (d : BitVec 3) (imm : BitVec 16) (s : State) : Host.Outcome State Fault Refusal :=
  issued u (fOp + mD + mImm) (opW 0x02 + fD d.toNat + imm.toNat)
    (fun x => x.setD d.toNat (imm.toNat * 2 ^ 16 + x.reg d.toNat % 2 ^ 16)) s

/-- MOV. -/
def execMov (u : UnitNo) (d a : BitVec 3) (s : State) : Host.Outcome State Fault Refusal :=
  issued u (fOp + mD + mA) (opW 0x03 + fD d.toNat + fA a.toNat) (fun x => x.setD d.toNat (x.reg a.toNat)) s

/-- LD (R199); in Lagoon mode a 16-bit load is sign-extended (R219). -/
def execLd (u : UnitNo) (d : BitVec 3) (y w : Bool) (ea : Ea) (s : State) : Host.Outcome State Fault Refusal :=
  issued u (fOp + mD + maskEa ea) (opW 0x04 + fD d.toNat + encEa y w ea) (fun x =>
    let take (a : Nat) : Nat := if w then x.load y true a else ux x.w (sx 16 (x.load y false a))
    match ea with
    | .abs a => x.setD d.toNat (take a.toNat)
    | .ind n m => (x.setD d.toNat (take (x.aReg n.toNat))).postModify n.toNat (x.step n.toNat m.toNat w)) s

/-- ST (R199). -/
def execSt (u : UnitNo) (a : BitVec 3) (y w : Bool) (ea : Ea) (s : State) : Host.Outcome State Fault Refusal :=
  issued u (fOp + mD + maskEa ea) (opW 0x05 + fD a.toNat + encEa y w ea) (fun x =>
    let v := x.reg a.toNat
    match ea with
    | .abs p => x.store y w p.toNat v
    | .ind n m => (x.store y w (x.aReg n.toNat) v).postModify n.toNat (x.step n.toNat m.toNat w)) s

/-- A special register as MFS reads it (Table 5.8, R221). -/
def specRead (x : LX) (k : Nat) : Nat :=
  let r := x.v.r
  let w := x.w
  if k < 4 then r.a.getD k 0
  else if k < 8 then ux w (r.m.getD (k - 4) 0)
  else if k < 12 then r.b.getD (k - 8) 0
  else if k < 16 then r.l.getD (k - 12) 0
  else match k with
    | 16 => r.stat.toNat
    | 17 => r.tr.toNat % 2 ^ 16
    | 18 => r.tr.toNat / 2 ^ 16
    | 19 => ux 16 x.accRead
    | 20 => ux w (x.accRead.fdiv (2 ^ 16))
    | 21 => ux w (sx 8 (ux 8 (x.accRead.fdiv (if x.wide then 2 ^ 48 else 2 ^ 32))))
    | 22 => x.v.lc0
    | 23 => x.v.lc1
    | _ => r.stk.length

/-- The value a special register held, as a later read within its distance finds it (Table 6.2). -/
def specOld (x : LX) (k : Nat) : Option Int :=
  let r := x.v.r
  if k < 4 then some (r.a.getD k 0)
  else if k < 8 then some (r.m.getD (k - 4) 0)
  else if k < 12 then some (r.b.getD (k - 8) 0)
  else if k < 16 then some (r.l.getD (k - 12) 0)
  else if k = 22 then some x.v.lc0
  else if k = 23 then some x.v.lc1
  else none

/-- The write of a special register by MTS (Table 5.8, R193, R213, R221). -/
def specWrite (x : LX) (k v : Nat) : LX :=
  let v12 := v % 2 ^ 12
  let x := { x with l := { x.l with mts := (specOld x k).map fun o => (k, o) } }
  let x0 := x.v
  if k < 4 then x.mod fun r => { r with a := r.a.set k v12 }
  else if k < 8 then x.mod fun r => { r with m := r.m.set (k - 4) (sx 12 v12) }
  else if k < 12 then x.mod fun r => { r with b := r.b.set (k - 8) v12 }
  else if k < 16 then x.mod fun r => { r with l := r.l.set (k - 12) v12 }
  else
    let acc := x0.r.acc
    match k with
    | 16 => x.mod fun r => { r with stat := (BitVec.ofNat 16 v &&& 0xC1EF#16) ||| (r.stat &&& 0x0200#16) }
    | 17 => x.mod fun r => { r with tr := withField r.tr ⟨15, 0⟩ v }
    | 18 => x.mod fun r => { r with tr := withField r.tr ⟨31, 16⟩ v }
    | 19 => x.mod fun r => { r with acc := acc - acc % 2 ^ 16 + (v % 2 ^ 16 : Nat) }
    | 20 => x.mod fun r => { r with acc := sx x.w v * 2 ^ 16 }
    | 21 =>
      let h : Nat := if x.wide then 48 else 32
      x.mod fun r => { r with acc := sx 8 v * 2 ^ h + acc % 2 ^ h }
    | 22 => { x with l := { x.l with lc0 := max 1 (v % 2 ^ 16) } }
    | 23 => { x with l := { x.l with lc1 := max 1 (v % 2 ^ 16) } }
    | _ => x

/-- MTS (Table 5.8). -/
def execMts (u : UnitNo) (k : BitVec 5) (a : BitVec 3) (s : State) : Host.Outcome State Fault Refusal :=
  issued u (fOp + mD + 0x7C0000) (opW 0x06 + fD a.toNat + k.toNat * 2 ^ 18) (fun x => specWrite x k.toNat (x.reg a.toNat)) s

/-- MFS (Table 5.8). -/
def execMfs (u : UnitNo) (d : BitVec 3) (k : BitVec 5) (s : State) : Host.Outcome State Fault Refusal :=
  issued u (fOp + mD + 0x7C0000) (opW 0x07 + fD d.toNat + k.toNat * 2 ^ 18) (fun x => x.setD d.toNat (specRead x k.toNat)) s

/-! ### ALU (R196, R197) -/

/-- The carry out of the unsigned sum a + b + c. -/
def carry (x : LX) (a b c : Nat) : Bool := decide (2 ^ x.w ≤ a + b + c)

/-- The carry of a - b: no borrow. -/
def noBorrow (a b : Nat) : Bool := decide (b ≤ a)

/-- ADD. -/
def execAdd (u : UnitNo) (d a b : BitVec 3) (s : State) : Host.Outcome State Fault Refusal :=
  issued u (fOp + mD + mA + mB) (opW 0x08 + fD d.toNat + fA a.toNat + fB b.toNat) (fun x =>
    x.arith (some d.toNat) (x.sreg a.toNat + x.sreg b.toNat) (carry x (x.reg a.toNat) (x.reg b.toNat) 0)) s

/-- SUB. -/
def execSub (u : UnitNo) (d a b : BitVec 3) (s : State) : Host.Outcome State Fault Refusal :=
  issued u (fOp + mD + mA + mB) (opW 0x09 + fD d.toNat + fA a.toNat + fB b.toNat) (fun x =>
    x.arith (some d.toNat) (x.sreg a.toNat - x.sreg b.toNat) (noBorrow (x.reg a.toNat) (x.reg b.toNat))) s

/-- ADDI: IMM is sign-extended. -/
def execAddi (u : UnitNo) (d a : BitVec 3) (imm : BitVec 16) (s : State) : Host.Outcome State Fault Refusal :=
  issued u (fOp + mD + mA + mImm) (opW 0x0A + fD d.toNat + fA a.toNat + imm.toNat) (fun x =>
    x.arith (some d.toNat) (x.sreg a.toNat + imm.toInt) (carry x (x.reg a.toNat) (ux x.w imm.toInt) 0)) s

/-- AND. -/
def execLand (u : UnitNo) (d a b : BitVec 3) (s : State) : Host.Outcome State Fault Refusal :=
  issued u (fOp + mD + mA + mB) (opW 0x0B + fD d.toNat + fA a.toNat + fB b.toNat) (fun x =>
    x.logic d.toNat (x.reg a.toNat &&& x.reg b.toNat)) s

/-- OR. -/
def execLor (u : UnitNo) (d a b : BitVec 3) (s : State) : Host.Outcome State Fault Refusal :=
  issued u (fOp + mD + mA + mB) (opW 0x0C + fD d.toNat + fA a.toNat + fB b.toNat) (fun x =>
    x.logic d.toNat (x.reg a.toNat ||| x.reg b.toNat)) s

/-- XOR. -/
def execLxor (u : UnitNo) (d a b : BitVec 3) (s : State) : Host.Outcome State Fault Refusal :=
  issued u (fOp + mD + mA + mB) (opW 0x0D + fD d.toNat + fA a.toNat + fB b.toNat) (fun x =>
    x.logic d.toNat (x.reg a.toNat ^^^ x.reg b.toNat)) s

/-- ANDI: IMM is zero-extended. -/
def execAndi (u : UnitNo) (d a : BitVec 3) (imm : BitVec 16) (s : State) : Host.Outcome State Fault Refusal :=
  issued u (fOp + mD + mA + mImm) (opW 0x0E + fD d.toNat + fA a.toNat + imm.toNat) (fun x =>
    x.logic d.toNat (x.reg a.toNat &&& imm.toNat)) s

/-- ORI. -/
def execOri (u : UnitNo) (d a : BitVec 3) (imm : BitVec 16) (s : State) : Host.Outcome State Fault Refusal :=
  issued u (fOp + mD + mA + mImm) (opW 0x0F + fD d.toNat + fA a.toNat + imm.toNat) (fun x =>
    x.logic d.toNat (x.reg a.toNat ||| imm.toNat)) s

/-- XORI. -/
def execXori (u : UnitNo) (d a : BitVec 3) (imm : BitVec 16) (s : State) : Host.Outcome State Fault Refusal :=
  issued u (fOp + mD + mA + mImm) (opW 0x10 + fD d.toNat + fA a.toNat + imm.toNat) (fun x =>
    x.logic d.toNat (x.reg a.toNat ^^^ imm.toNat)) s

/-- The word of SHF with a type and an amount. -/
def encShf (d a : BitVec 3) (t : Nat) (n : BitVec 5) : Nat := opW 0x11 + fD d.toNat + fA a.toNat + fSub (t * 32 + n.toNat)

/-- SHL. -/
def execShl (u : UnitNo) (d a : BitVec 3) (n : BitVec 5) (s : State) : Host.Outcome State Fault Refusal :=
  issued u (fOp + mD + mA + mSub) (encShf d a 0 n) (fun x => x.logic d.toNat (x.reg a.toNat * 2 ^ n.toNat % 2 ^ x.w)) s

/-- SHR, logical. -/
def execShr (u : UnitNo) (d a : BitVec 3) (n : BitVec 5) (s : State) : Host.Outcome State Fault Refusal :=
  issued u (fOp + mD + mA + mSub) (encShf d a 1 n) (fun x => x.logic d.toNat (x.reg a.toNat / 2 ^ n.toNat)) s

/-- SRA. -/
def execSra (u : UnitNo) (d a : BitVec 3) (n : BitVec 5) (s : State) : Host.Outcome State Fault Refusal :=
  issued u (fOp + mD + mA + mSub) (encShf d a 2 n) (fun x =>
    x.logic d.toNat (ux x.w ((x.sreg a.toNat).fdiv (2 ^ n.toNat)))) s

/-- CMP: the flags of Da - Db. -/
def execCmp (u : UnitNo) (a b : BitVec 3) (s : State) : Host.Outcome State Fault Refusal :=
  issued u (fOp + mA + mB) (opW 0x12 + fA a.toNat + fB b.toNat) (fun x =>
    x.arith none (x.sreg a.toNat - x.sreg b.toNat) (noBorrow (x.reg a.toNat) (x.reg b.toNat))) s

/-- NEG. -/
def execNeg (u : UnitNo) (d a : BitVec 3) (s : State) : Host.Outcome State Fault Refusal :=
  issued u (fOp + mD + mA + mSub) (opW 0x13 + fD d.toNat + fA a.toNat) (fun x =>
    x.arith (some d.toNat) (-(x.sreg a.toNat)) (noBorrow 0 (x.reg a.toNat))) s

/-- ABS: the carry of the sum that forms it, of -Da for a negative Da. -/
def execAbs (u : UnitNo) (d a : BitVec 3) (s : State) : Host.Outcome State Fault Refusal :=
  issued u (fOp + mD + mA + mSub) (opW 0x13 + fD d.toNat + fA a.toNat + fSub 1) (fun x =>
    let v := x.sreg a.toNat
    x.arith (some d.toNat) (if v < 0 then -v else v) false) s

/-- NOT. -/
def execLnot (u : UnitNo) (d a : BitVec 3) (s : State) : Host.Outcome State Fault Refusal :=
  issued u (fOp + mD + mA + mSub) (opW 0x13 + fD d.toNat + fA a.toNat + fSub 2) (fun x =>
    x.logic d.toNat (2 ^ x.w - 1 - x.reg a.toNat)) s

/-- MIN, signed. -/
def execMin (u : UnitNo) (d a b : BitVec 3) (s : State) : Host.Outcome State Fault Refusal :=
  issued u (fOp + mD + mA + mB) (opW 0x14 + fD d.toNat + fA a.toNat + fB b.toNat) (fun x =>
    x.logic d.toNat (if x.sreg a.toNat ≤ x.sreg b.toNat then x.reg a.toNat else x.reg b.toNat)) s

/-- MAX, signed. -/
def execMax (u : UnitNo) (d a b : BitVec 3) (s : State) : Host.Outcome State Fault Refusal :=
  issued u (fOp + mD + mA + mB) (opW 0x15 + fD d.toNat + fA a.toNat + fB b.toNat) (fun x =>
    x.logic d.toNat (if x.sreg a.toNat ≤ x.sreg b.toNat then x.reg b.toNat else x.reg a.toNat)) s

/-! ### Normalisation and division (R205, R206, R221) -/

/-- A QSTEP or NRM writes Dd in MU: other reads find it one issue later. -/
def LX.setLate (x : LX) (d v : Nat) : LX :=
  let old := x.v.r.d.getD d 0
  let x := x.setD d v
  { x with l := { x.l with late := some (d, old) } }

/-- The shift of NRM: the n, rising from -8, for which floor(acc × 2^n) is normalised at `top` bits. -/
def nrmShift (acc : Int) (top : Nat) : Nat → Int → Int × Int
  | 0, n => (n, acc)
  | f + 1, n =>
    let y := if n < 0 then acc.fdiv (2 ^ (-n).toNat) else acc * 2 ^ n.toNat
    if (2 ^ (top - 1) ≤ y ∧ y ≤ 2 ^ top - 1) ∨ (-(2 ^ top) ≤ y ∧ y ≤ -(2 ^ (top - 1)) - 1) then (n, y)
    else nrmShift acc top f (n + 1)

/-- NRM (R206, R221). -/
def execNrm (u : UnitNo) (d : BitVec 3) (s : State) : Host.Outcome State Fault Refusal :=
  issued u (fOp + mD) (opW 0x16 + fD d.toNat) (fun x =>
    let acc := x.v.r.acc
    if acc = 0 then x.setLate d.toNat (x.v.r.d.getD d.toNat 0)
    else
      let (n, y) := if x.wide then nrmShift acc 47 56 (-8) else nrmShift acc 31 40 (-8)
      let v := sat x.w (sx x.w (x.v.r.d.getD d.toNat 0) - n)
      (x.mod fun r => { r with acc := y }).setLate d.toNat (ux x.w v)) s

/-- QSTEP (R205). -/
def execQstep (u : UnitNo) (d a : BitVec 3) (s : State) : Host.Outcome State Fault Refusal :=
  issued u (fOp + mD + mA) (opW 0x17 + fD d.toNat + fA a.toNat) (fun x =>
    let acc := x.v.r.acc
    let k := x.sreg a.toNat * 2 ^ 15
    let t := if 0 ≤ acc then acc - k else acc + k
    let q := if 0 ≤ t then 1 else 0
    (x.mod fun r => { r with acc := sx 40 (ux 40 (t * 2)) }).setLate d.toNat ((x.v.r.d.getD d.toNat 0) * 2 + q)) s

/-! ### Multiply and accumulate (R203, R207) -/

/-- MAC. -/
def execMac (u : UnitNo) (f : Fetch) (a b : BitVec 3) (ua ub hb : Bool) (s : State) : Host.Outcome State Fault Refusal :=
  issued u (fOp + mMul) (opW 0x20 + encMul f a b ua ub hb) (fun x =>
    (x.accWrite (x.v.r.acc + x.product a.toNat b.toNat ua ub hb)).fetches f) s

/-- MSU. -/
def execMsu (u : UnitNo) (f : Fetch) (a b : BitVec 3) (ua ub hb : Bool) (s : State) : Host.Outcome State Fault Refusal :=
  issued u (fOp + mMul) (opW 0x21 + encMul f a b ua ub hb) (fun x =>
    (x.accWrite (x.v.r.acc - x.product a.toNat b.toNat ua ub hb)).fetches f) s

/-- MPY. -/
def execMpy (u : UnitNo) (f : Fetch) (a b : BitVec 3) (ua ub hb : Bool) (s : State) : Host.Outcome State Fault Refusal :=
  issued u (fOp + mMul) (opW 0x22 + encMul f a b ua ub hb) (fun x =>
    (x.accWrite (x.product a.toNat b.toNat ua ub hb)).fetches f) s

/-- FETCH. -/
def execFetch (u : UnitNo) (f : Fetch) (s : State) : Host.Outcome State Fault Refusal :=
  issued u (fOp + mFetch) (opW 0x23 + encFetch f) (fun x => x.fetches f) s

/-- ACS (R204). -/
def execAcs (u : UnitNo) (d a b c : BitVec 3) (neg mx fx xa : Bool) (xm : BitVec 2) (dx : BitVec 3) (s : State) :
    Host.Outcome State Fault Refusal :=
  issued u (fOp + 0x03FFFFE0)
    (opW 0x24 + fD d.toNat + fA a.toNat + fB b.toNat + c.toNat * 2 ^ 14 + bit1 neg 13 + bit1 mx 12 + bit1 fx 11 +
      bit1 xa 10 + xm.toNat * 2 ^ 8 + dx.toNat * 2 ^ 5) (fun x =>
    let bm := if neg then -(x.sreg c.toNat) else x.sreg c.toNat
    let c0 := sat x.w (x.sreg a.toNat + bm)
    let c1 := sat x.w (x.sreg b.toNat - bm)
    let sel := if mx then decide (c0 < c1) else decide (c1 < c0)
    let v := ux x.w (if sel then c1 else c0)
    let x := (x.flags v sel false).setD d.toNat v
    let x := x.mod fun r => { r with tr := (r.tr <<< 1) ||| BitVec.ofNat 32 sel.toNat }
    x.fetchTo fx false xa.toNat xm.toNat dx.toNat) s

/-- The word of ACCOP. -/
def encAcc (a sub n : Nat) : Nat := opW 0x25 + fD a + sub * 2 ^ 19 + n * 2 ^ 14
def mAccSub : Nat := 0x780000
def mAccN : Nat := 0x7C000

/-- CLRA. -/
def execClra (u : UnitNo) (s : State) : Host.Outcome State Fault Refusal :=
  issued u (fOp + mAccSub) (encAcc 0 0 0) (fun x => x.mod fun r => { r with acc := 0 }) s

/-- ADDA. -/
def execAdda (u : UnitNo) (a : BitVec 3) (s : State) : Host.Outcome State Fault Refusal :=
  issued u (fOp + mD + mAccSub) (encAcc a.toNat 1 0) (fun x => x.accWrite (x.v.r.acc + x.sreg a.toNat * 2 ^ 16)) s

/-- SUBA. -/
def execSuba (u : UnitNo) (a : BitVec 3) (s : State) : Host.Outcome State Fault Refusal :=
  issued u (fOp + mD + mAccSub) (encAcc a.toNat 2 0) (fun x => x.accWrite (x.v.r.acc - x.sreg a.toNat * 2 ^ 16)) s

/-- NEGA. -/
def execNega (u : UnitNo) (s : State) : Host.Outcome State Fault Refusal :=
  issued u (fOp + mAccSub) (encAcc 0 3 0) (fun x => x.accWrite (-x.v.r.acc)) s

/-- ABSA. -/
def execAbsa (u : UnitNo) (s : State) : Host.Outcome State Fault Refusal :=
  issued u (fOp + mAccSub) (encAcc 0 4 0) (fun x => x.accWrite (if x.v.r.acc < 0 then -x.v.r.acc else x.v.r.acc)) s

/-- SHLA. -/
def execShla (u : UnitNo) (n : BitVec 5) (s : State) : Host.Outcome State Fault Refusal :=
  issued u (fOp + mAccSub + mAccN) (encAcc 0 5 n.toNat) (fun x => x.accWrite (x.v.r.acc * 2 ^ n.toNat)) s

/-- SHRA. -/
def execShra (u : UnitNo) (n : BitVec 5) (s : State) : Host.Outcome State Fault Refusal :=
  issued u (fOp + mAccSub + mAccN) (encAcc 0 6 n.toNat) (fun x => x.accWrite (x.v.r.acc.fdiv (2 ^ n.toNat))) s

/-- H and T of MVA: an out-of-range value sets V and saturates under SATM (R198, R221). -/
def mvaHigh (x : LX) (d : Nat) (e : Int) : LX :=
  let (v, o) := x.fit e
  (x.flags v false o).setD d v

/-- The word of MVA. -/
def encMva (d : BitVec 3) (m : Nat) : Nat := opW 0x26 + fD d.toNat + m * 2 ^ 21

/-- MVA H: rounded half-up. -/
def execMvaH (u : UnitNo) (d : BitVec 3) (s : State) : Host.Outcome State Fault Refusal :=
  issued u (fOp + mD + 0x600000) (encMva d 0) (fun x => mvaHigh x d.toNat ((x.accRead + 2 ^ 15).fdiv (2 ^ 16))) s

/-- MVA T: truncated. -/
def execMvaT (u : UnitNo) (d : BitVec 3) (s : State) : Host.Outcome State Fault Refusal :=
  issued u (fOp + mD + 0x600000) (encMva d 1) (fun x => mvaHigh x d.toNat (x.accRead.fdiv (2 ^ 16))) s

/-- MVA L: the low word. -/
def execMvaL (u : UnitNo) (d : BitVec 3) (s : State) : Host.Outcome State Fault Refusal :=
  issued u (fOp + mD + 0x600000) (encMva d 2) (fun x => x.logic d.toNat (ux 16 x.accRead)) s

/-! ### Control flow (R208 to R213, R228 to R230) -/

/-- A taken BR closes the levels its target leaves (R213). -/
def closeLevels (t : Nat) (l : Lane) : Lane :=
  let l := if l.r.act1 && (t < l.ls1 || l.le1 < t) then { l with r := { l.r with act1 := false } } else l
  if !l.r.act1 && l.r.act0 && (t < l.ls0 || l.le0 < t) then { l with r := { l.r with act0 := false } } else l

/-- After two delay slots execution goes to `a`. -/
def LX.after2 (x : LX) (a : After) : LX := { x with l := { x.l with slots := some (2, a) } }

/-- The word of format B. -/
def encB (o : Nat) (c : BitVec 4) (t : Nat) : Nat := opW o + c.toNat * 2 ^ 22 + t

/-- BR. -/
def execBr (u : UnitNo) (c : BitVec 4) (t : BitVec 13) (s : State) : Host.Outcome State Fault Refusal :=
  issued u (fOp + 0x3C01FFF) (encB 0x30 c t.toNat) (fun x =>
    let p := t.toNat % progSize x.wide
    if x.cond c.toNat then ({ x with l := closeLevels p x.l }).after2 (.jump p)
    else x.after2 (.jump (x.v.r.pc + 3))) s

/-- CALL: a full stack faults, the return address is its own + 3. -/
def execCall (u : UnitNo) (c : BitVec 4) (t : BitVec 13) (s : State) : Host.Outcome State Fault Refusal :=
  issued u (fOp + 0x3C01FFF) (encB 0x31 c t.toNat) (fun x =>
    if !x.cond c.toNat then x.after2 (.jump (x.v.r.pc + 3))
    else if 4 ≤ x.v.r.stk.length then x.fail 5
    else (x.mod fun r => { r with stk := (x.v.r.pc + 3) % 2 ^ 13 :: r.stk }).after2 (.jump (t.toNat % progSize x.wide))) s

/-- RET: an empty stack faults. -/
def execRet (u : UnitNo) (c : BitVec 4) (s : State) : Host.Outcome State Fault Refusal :=
  issued u (fOp + 0x3C00000) (encB 0x32 c 0) (fun x =>
    if !x.cond c.toNat then x.after2 (.jump (x.v.r.pc + 3))
    else match x.v.r.stk with
      | [] => x.fail 5
      | p :: t => (x.mod fun r => { r with stk := t }).after2 (.jump p)) s

/-- The unit, or its cluster's last unit pair partner, is reserved for class A (R15, R47). -/
def reservedUnit (s : State) (u : Nat) : Bool :=
  u % 4 == 3 && (if u % 8 = 3 then (s.region (u / 8)).resvLo else (s.region (u / 8)).resvHi)

/-- RPT (R210, R230, R243). -/
def execRpt (u : UnitNo) (n : RptN) (s : State) : Host.Outcome State Fault Refusal :=
  match n with
  | .imm c => issued u (fOp + 0x20003FF) (opW 0x33 + c.toNat) (fun x =>
      { x with l := { x.l with rpt := some (c.toNat + 1) } }) s
  | .reg d => issued u (fOp + 0x3C00000) (opW 0x33 + 2 ^ 25 + d.toNat * 2 ^ 22) (fun x =>
      let v := x.cnt d.toNat
      let lim := if reservedUnit x.s x.u then x.v.holdoff else 1024
      if v = 0 then { x with goto := some (x.v.r.pc + 2) }
      else
        let x := if lim < v then x.setStat lsClamp true else x
        { x with l := { x.l with rpt := some (min v lim) } }) s

/-- A loop opens (R211). -/
def openLoop (x : LX) (n e : Nat) : LX :=
  let ls := x.v.r.pc + 1
  if x.v.r.act1 && x.v.r.act0 || e < ls || progSize x.wide ≤ e then x.fail 4
  else if n = 0 then { x with goto := some (e + 1) }
  else if x.v.r.act0 then { x.mod (fun r => { r with act1 := true }) with l := { x.l with r := { x.l.r with act1 := true }, lc1 := n, ls1 := ls, le1 := e } }
  else { x with l := { x.l with r := { x.l.r with act0 := true }, lc0 := n, ls0 := ls, le0 := e } }

/-- LOOP (R211). -/
def execLoop (u : UnitNo) (n : LoopN) (e : BitVec 13) (s : State) : Host.Outcome State Fault Refusal :=
  match n with
  | .imm c => issued u (fOp + 0x3FFFFFF) (opW 0x34 + c.toNat * 2 ^ 13 + e.toNat) (fun x => openLoop x c.toNat e.toNat) s
  | .reg d => issued u (fOp + 0x3C01FFF) (opW 0x34 + 2 ^ 25 + d.toNat * 2 ^ 22 + e.toNat)
      (fun x => openLoop x (x.cnt d.toNat % 2 ^ 16) e.toNat) s

/-- END (R229). -/
def execLaneEnd (u : UnitNo) (s : State) : Host.Outcome State Fault Refusal :=
  issued u fOp (opW 0x38) (fun x => x.after2 .fin) s

/-! ### Ports and posts (R214, R215, R237) -/

/-- The descriptor slot of the task that issues. -/
def LX.slot (x : LX) : Nat := x.v.cur.getD 0

/-- 16 bits of a value. -/
def part (v k : Nat) : Nat := v / 2 ^ (16 * k) % 2 ^ 16

/-- What a port reads as (Table 6.3). -/
def portRead (x : LX) (p : Nat) : Nat × LX :=
  let ax := taskAxis x.s x.u x.slot
  if p < 8 then
    match ax with
    | none => (0, x)
    | some n =>
      if p = 0 then
        let v := ux 64 (x.s.fb n).pos
        (part v 0, { x with l := { x.l with lat0 := v } })
      else if p = 4 then
        let v := ux 64 (x.s.gen n).p
        (part v 0, { x with l := { x.l with lat4 := v } })
      else if p < 4 then (part x.v.lat0 p, x) else (part x.v.lat4 (p - 4), x)
  else if p < 10 then (part (x.s.ang.key / 2 ^ 16) (p - 8), x)
  else if p < 13 then
    if fbit x.s (LT_DESC_B x.u x.slot) LT_DESC_B_CAPV then
      let q := tget [] x.v.cap x.slot
      if p = 10 then (q.length, x)
      else
        let v := part (q.headD 0) (p - 11)
        (v, if p = 12 then { x with l := { x.l with cap := tset [] x.l.cap x.slot (q.drop 1) } } else x)
    else (0, x)
  else if 16 ≤ p && p < 32 then (rdN x.s (SD_DATA (p - 16)) / 2 ^ 16, x)
  else if p = 32 then (rdN x.s TICK_COUNT % 2 ^ 16, x)
  else if 56 ≤ p then (fget x.s (LANE_PARAM x.u (p - 56)) LANE_PARAM_WORD, x)
  else (0, x)

/-- IN; in Lagoon mode the high half of Wd is not stated: a free value. -/
def execPortIn (u : UnitNo) (d : BitVec 3) (p : BitVec 6) (s : State) : Host.Outcome State Fault Refusal :=
  issued u (fOp + 0x3FE0000) (opW 0x35 + fD d.toNat + p.toNat * 2 ^ 17) (fun x =>
    let (v, x) := portRead x p.toNat
    if x.wide then
      let (h, s) := takeFree x.s
      ({ x with s := s }).setD d.toNat (h.toNat % 2 ^ 16 * 2 ^ 16 + v)
    else x.setD d.toNat v) s

/-- OUT: ports 48 to 55 are the mailboxes. -/
def execPortOut (u : UnitNo) (p : BitVec 6) (a : BitVec 3) (s : State) : Host.Outcome State Fault Refusal :=
  issued u (fOp + 0x3FE0000) (opW 0x36 + fD a.toNat + p.toNat * 2 ^ 17) (fun x =>
    if 48 ≤ p.toNat && p.toNat < 56 then { x with s := wrN x.s (LANE_MBOX x.u (p.toNat - 48)) (x.reg a.toNat % 2 ^ 16) } else x) s

/-- Word k of a post: D(2k) low, D(2k + 1) high (R214). -/
def LX.postW (x : LX) (k : Nat) : Word := BitVec.ofNat 32 (x.reg (2 * k) % 2 ^ 16 + x.reg (2 * k + 1) % 2 ^ 16 * 2 ^ 16)

/-- The unit's post buffer is occupied: its entry is held back (R71). -/
def postBusy (s : State) (u : Nat) : Bool := s.sch.held.any fun h => h.prod == .post && h.obj == u

/-- POST: refused with PB = 1 while the buffer is occupied, else PB := 0 and the record goes on its way. -/
def LX.post (x : LX) (f : State → State) : LX :=
  if postBusy x.s x.u then x.setStat lsPb true else ({ x with s := f x.s }).setStat lsPb false

/-- The word of POST. -/
def encPost (t l : Nat) : Nat := opW 0x37 + t * 2 ^ 24 + l * 2 ^ 22

/-- POST of a delay-list entry (Table 2.2). -/
def execPostEntry (u : UnitNo) (l : BitVec 2) (s : State) : Host.Outcome State Fault Refusal :=
  issued u (fOp + 0x3C00000) (encPost 0 l.toNat) (fun x =>
    x.post (produce .post x.u l.toNat
      { key := (x.postW 0).toNat + (x.postW 1).toNat * 2 ^ 32, act := x.postW 2, pay := x.postW 3 })) s

/-- POST of a shift request for the bound axis (R177); without a bound axis nothing takes it. -/
def execPostShift (u : UnitNo) (s : State) : Host.Outcome State Fault Refusal :=
  issued u (fOp + 0x3000000) (encPost 1 0) (fun x =>
    x.post (fun s => match taskAxis s x.u x.slot with
      | some n => shiftRequest n (sx 64 ((x.postW 0).toNat + (x.postW 1).toNat * 2 ^ 32)) s
      | none => s)) s

/-- POST of the release of a lane task (R234). -/
def execPostRelease (u : UnitNo) (s : State) : Host.Outcome State Fault Refusal :=
  issued u (fOp + 0x3000000) (encPost 2 0) (fun x =>
    x.post (releaseLane ((x.postW 0).toNat % 256) (x.postW 1 &&& 0xFFFF) (x.postW 1 >>> 16) x.s.time.ns)) s

/-! ### Lagoon mode (R16, R217) -/

/-- A reservation bit of a unit's region and cluster, as it reads: in force or pending (R47). -/
def resvReads (s : State) (u : Nat) : Bool :=
  u % 4 == 3 && fbit s (REGION_CTRL (u / 8)) (if u % 8 = 3 then REGION_CTRL_RESV_LO else REGION_CTRL_RESV_HI)

/-- Neither unit runs a task. -/
def pairIdle (s : State) (u : Nat) : Bool :=
  (s.unit u).job.isNone && (s.unit (u + 1)).job.isNone && (s.lan u).cur.isNone && (s.lan u).shadow.isNone &&
    (s.lan (u + 1)).cur.isNone && (s.lan (u + 1)).shadow.isNone

/-- A write of LANE_CTRL (R217): odd units ignore it; a join is refused with a reserved unit or a pending reservation. -/
def laneCtrlEff (u : Nat) (v : Word) : Eff := fun s =>
  if u % 2 = 1 then some s
  else if wbit v 0 && (reservedUnit s (u + 1) || resvReads s (u + 1)) then some (sedRule (LANE_CTRL u) s)
  else some (fput s (LANE_CTRL u) LANE_CTRL_LAGOON (wbit v 0))

/-- LAGOON_REQUEST (R217). -/
def execLagoonRequest (w : Who) (u : UnitNo) (v : Word) (s : State) : Host.Outcome State Fault Refusal :=
  .next (gated w (LANE_CTRL u.toNat) v (laneCtrlEff u.toNat v) s)

/-- A pair joins: W of the even unit is made of both halves (R218). -/
def lagoonJoin (u : Nat) (s : State) : State :=
  let e := s.lan u
  let o := s.lan (u + 1)
  let d := List.zipWith (fun a b => a % 2 ^ 16 + b % 2 ^ 16 * 2 ^ 16) e.r.d o.r.d
  let s := s.setLan u { e with r := { e.r with d := d } }
  fput (fput s (LANE_STATUS u) LANE_STATUS_JOINED true) (LANE_STATUS (u + 1)) LANE_STATUS_JOINED true

/-- A pair parts: each unit keeps its half (R217); what ACC then holds is not stated where JACC does not fit it. -/
def lagoonPart (u : Nat) (s : State) : State :=
  let e := s.lan u
  let o := s.lan (u + 1)
  let (f, s) := takeFree s
  let acc := if (satF 40 e.r.acc).2 then f.toInt else e.r.acc
  let s := s.setLan u { e with r := { e.r with d := e.r.d.map (· % 2 ^ 16), acc := acc } }
  let s := s.setLan (u + 1) { o with r := { o.r with d := e.r.d.map (· / 2 ^ 16) } }
  fput (fput s (LANE_STATUS u) LANE_STATUS_JOINED false) (LANE_STATUS (u + 1)) LANE_STATUS_JOINED false

/-- The pair of an even unit joins or parts as LANE_CTRL asks, while neither unit runs a task (R217). -/
def lagoonAct (u : Nat) (s : State) : State :=
  let want := fbit s (LANE_CTRL u) LANE_CTRL_LAGOON
  if u % 2 = 1 || want == joined s u || !pairIdle s u then s
  else if want then lagoonJoin u s else lagoonPart u s

/-- LAGOON_APPLY (R217). -/
def execLagoonApply (u : UnitNo) (s : State) : Host.Outcome State Fault Refusal := .next (lagoonAct u.toNat s)

/-! ### REARM, HOLDOFF_MAX, captures -/

/-- A write of LT_CMD (R238, R249): only with the lane block lock open. -/
def ltCmdEff (u : Nat) (v : Word) : Eff := fun s =>
  if wbit v 31 then
    let k := wField v 2 0
    let t := taskNo s u k
    let s := fput (fput s (LT_STAT u k) LT_STAT_FAILED false) (LT_STAT u k) LT_STAT_PENDING false
    some (s.setReady (u / 8) 3 ((s.ready (u / 8) 3).filter fun e => e.id != t))
  else some s

/-- REARM (R238). -/
def execRearm (w : Who) (u : UnitNo) (k : BitVec 3) (s : State) : Host.Outcome State Fault Refusal :=
  let v := BitVec.ofNat 32 (2 ^ 31 + k.toNat)
  .next (gated w (LT_CMD u.toNat) v (ltCmdEff u.toNat v) s)

/-- COND_HOLDOFF: a task on a reserved unit is UNBOUNDED, has SPAN above HOLDOFF_MAX, or runs under a HOLDOFF_MAX above 64 (R244). -/
def condHoldoff (s : State) : State :=
  let bad (u : Nat) : Bool :=
    reservedUnit s u && (List.range 8).any fun k =>
      fbit s (LT_DESC_A u k) LT_DESC_A_VALID &&
        (fbit s (LT_STAT u k) LT_STAT_UNBOUNDED || decide ((s.lan u).holdoff < fget s (LT_STAT u k) LT_STAT_SPAN) ||
          decide (64 < (s.lan u).holdoff))
  setCond SCH_STATUS_COND_HOLDOFF ([3, 7, 11, 15, 19, 23, 27, 31].any bad) s

/-- A written HOLDOFF_MAX takes effect; values below 8 act as 8 (R243). -/
def holdoffAct (u : Nat) (s : State) : State :=
  let h := max 8 (fget s (HOLDOFF_MAX u) HOLDOFF_MAX_BOUND)
  if (s.lan u).holdoff = h then s else condHoldoff (s.setLan u { s.lan u with holdoff := h })

/-- HOLDOFF_MAX_APPLY (R243). -/
def execHoldoffMaxApply (u : UnitNo) (s : State) : Host.Outcome State Fault Refusal := .next (holdoffAct u.toNat s)

/-- LANE_CAPTURE (R237): an edge on CAPT fell `dt` of `span` ns after the earlier of the two feedback samples around it. -/
def execLaneCapture (u : UnitNo) (k : BitVec 3) (dt span : Nat) (s : State) : Host.Outcome State Fault Refusal :=
  let v := u.toNat
  let j := k.toNat
  .next (if fbit s (LT_DESC_A v j) LT_DESC_A_VALID && fbit s (LT_DESC_B v j) LT_DESC_B_CAPV then
    let l := s.lan v
    let q := tget [] l.cap j
    if 8 ≤ q.length then w1cSet (LT_STAT v j) LT_STAT_CAPOVF v s
    else
      let (p, s) := match taskAxis s v j with
        | some n =>
          let f := s.fb n
          (ux 32 (f.posPrev + rhu (sx 64 (ux 64 (f.pos - f.posPrev)) * dt) (max 1 span)), s)
        | none => let (f, s) := takeFree s; (f.toNat, s)
      s.setLan v { l with cap := tset [] l.cap j (q ++ [p]) }
  else s)

end Sys2Proof.Machine
end

