-- ==== Sys2Proof/Machine/Release.lean ====
section
/-! DEFINITION. What releases a sample of an axis context: the acceptance of feedback, missing feedback, overruns (R67, R70, R84, R331). -/

namespace Sys2Proof.Machine
open R

/-- A release counts at most one overrun; OVR is set (R70). -/
def countOverrun (n : Nat) (s : State) : State :=
  if tget false s.sch.ovrHere n then s
  else
    let s := { s with sch.ovrHere := tset false s.sch.ovrHere n true, sch.ovr := tset 0 s.sch.ovr n (tget 0 s.sch.ovr n + 1) }
    w1cSet SCH_STATUS SCH_STATUS_OVR n s

/-- OVR_LIMIT; 0 acts as 1. -/
def ovrLimit (s : State) : Nat := max 1 (fget s SCH_CTRL SCH_CTRL_OVR_LIMIT)

/-- OVR_LIMIT consecutive releases have each counted an overrun (R70). -/
def judgeOverrun (n : Nat) (s : State) : State :=
  if ovrLimit s ≤ tget 0 s.sch.ovr n then raiseCause n 5 s else s

/-- The units that may run a sample of a context: the bound reserved unit for class A, a Lagoon pair for L-G, else the other units of its region outside pairs (R12, R14 to R17, R68). -/
def allowedUnits (s : State) (n : Nat) : List Nat :=
  let c := s.ctx n
  let us := (List.range 8).map (8 * c.region + ·)
  if c.cls = 0 then [c.unit]
  else if c.lawSet = 3 then us.filter fun u => u % 2 == 0 && joined s u
  else us.filter fun u => !reservedUnit s u && !joined s u

/-- A release that finds no allowed unit free asks those that run background lane tasks to yield (R69). -/
def askYield (n : Nat) (s : State) : State :=
  let us := allowedUnits s n
  if us.any fun u => (s.unit u).job.isNone then s
  else eachN (us.filter fun u => laneRuns s u && !(s.unit u).yield) (fun u s =>
    (s.setUnit u { s.unit u with yield := true }).setLan u { s.lan u with asked := some (s.lan u).issued }) s

/-- A sample of an axis context is released at a time on the network clock (R67, R70). -/
def releaseAxis (n rel : Nat) (s : State) : State :=
  let c := s.ctx n
  if !c.used then s
  else
    let l := s.ready c.region c.cls
    let s := if l.any fun e => e.id == n then countOverrun n s
      else if tget false s.sch.ovrHere n then s
      else endCause n 5 { s with sch.ovr := tset 0 s.sch.ovr n 0 }
    let s := { s with sch.ovrHere := tset false s.sch.ovrHere n false }
    let s := s.setAxn n { s.axn n with done := false }
    askYield n (s.setReady c.region c.cls (l.filter (fun e => e.id != n) ++ [{ id := n, rel := rel }]))

/-- CYC of the present basic cycle. -/
def cycNow (s : State) : Nat := fget s TIME_CYC TIME_CYC_CYC

/-- A sample of an axis falls due in the present basic cycle: its phase of the round (R133, R315). -/
def axisDue (s : State) (k : Nat) : Bool := fget s TIME_CYC TIME_CYC_ROUND % 2 ^ (s.ctx k).plog == (s.ctx k).phase

/-- The state of a segment (Table 9.3). -/
def segFld (g : Nat) : Fld := if g = 0 then NET_STATE_STATE0 else NET_STATE_STATE1
def segState (s : State) (g : Nat) : Nat := fget s NET_STATE (segFld g)

/-- Samples are released only in RUN (R337); those of an axis on no segment once the start has succeeded (R434). -/
def mayRelease (s : State) (n : Nat) : Bool :=
  match (s.ctx n).node with
  | some (g, _, _) => segState s g == 7
  | none => fbit s BOOT_STATUS BOOT_STATUS_BOOT_OK

/-- A sample is released for a basic cycle at an instant in 2^-8 ns, its feedback missing or not. -/
def release (n cyc : Nat) (t : Int) (missing : Bool) (s : State) : State :=
  releaseAxis n (t / 256).toNat (s.setAxn n { s.axn n with rel := some (cyc, t, missing) })

/-- FBM_N; 0 acts as 1 (R331). -/
def fbmN (s : State) : Nat := max 1 (fget s NET_CFG NET_CFG_FBM_N)

/-- A sample of an axis is missing (R331). -/
def fbMissing (n : Nat) (s : State) : State := s.setFb n { s.fb n with miss := (s.fb n).miss + 1 }

/-- A sample of an axis is not missing (R128, R331). -/
def fbPresent (n : Nat) (s : State) : State := endCause n 3 (s.setFb n { s.fb n with miss := 0 })

/-- FBM_N consecutive samples of an axis are missing (R331). -/
def judgeMissing (n : Nat) (s : State) : State := if fbmN s ≤ (s.fb n).miss then raiseCause n 3 s else s

/-- A raw 32-bit position extends the axis's position by its serial difference (R301). -/
def acceptPos (n raw : Nat) (s : State) : State :=
  let f := s.fb n
  let p : Int := if f.got then f.pos + sdiff 32 raw f.raw * 2 ^ 24 else sx 32 raw * 2 ^ 24 + f.ofs
  s.setFb n { f with pos := sx 64 (ux 64 p), posPrev := if f.got then f.pos else sx 64 (ux 64 p), raw := raw, got := true, sub := none }

/-- OVERRUN (R70). -/
def execOverrun (n : Axis) (s : State) : Host.Outcome State Fault Refusal := .next (judgeOverrun n.toNat s)

end Sys2Proof.Machine
end

