-- ==== Sys2Proof/Machine/Edges.lean ====
section
/-! DEFINITION. Bridge channels, ΣΔ inputs and encoders (sections 7.1 to 7.8). -/

namespace Sys2Proof.Machine
open R

def State.chan (s : State) (c : Nat) : Chan := tget {} s.edge.chan c
def State.setChan (s : State) (c : Nat) (x : Chan) : State := { s with edge.chan := tset {} s.edge.chan c x }

/-! ### Channels (R252, R253, R257) -/

/-- The registers of channel c: module c / 3, index c % 3 (R250). -/
def chReg (c : Nat) : Nat := BR_CH (c / 3) (c % 3)

/-- 64 × PERIOD in force: a compare at or above it makes no edge (R251). -/
def periodSteps (s : State) (m : Nat) : Nat := 64 * max 256 (fget s (BR_PERIOD m) BR_PERIOD_ACTIVE)

/-- The dead time in 62.5 ps steps (R253). -/
def deadTime (s : State) (c : Nat) : Nat := min 16000 (fget s (BR_DT (c / 3) (c % 3)) BR_DT_DT)

/-- The commanded level changes: one switch goes off at once, the other on after the dead time (R253). -/
def driveHc (c : Nat) (on : Bool) (s : State) : State :=
  let x := s.chan c
  let s := fput s (chReg c) BR_CH_HC on
  if fbit s (chReg c) BR_CH_HONLY then s.setChan c { x with pinH := on, pinL := false, dead := none }
  else if deadTime s c = 0 then s.setChan c { x with pinH := on, pinL := !on, dead := none }
  else if on then s.setChan c { x with pinL := false, dead := if x.pinH then none else some true }
  else s.setChan c { x with pinH := false, dead := if x.pinL then none else some false }

/-- A channel goes OFF: both switches low at once (R252, R257). -/
def chanOff (c : Nat) (s : State) : State :=
  let s := s.setChan c { s.chan c with pinH := false, pinL := false, dead := none }
  fput (fput s (chReg c) BR_CH_ACT false) (chReg c) BR_CH_HC false

/-- The module is law-owned; then CMODE is 1 whatever the register holds (R255). -/
def lawOwned (s : State) (m : Nat) : Bool := fbit s (BR_CTRL m) BR_CTRL_LAW
def cmode (s : State) (m : Nat) : Bool := lawOwned s m || fbit s (BR_CTRL m) BR_CTRL_CMODE

/-- The channel is bound to a law: three channels of an axis, four of LAW_SET 0x4 (R258, R277). -/
def lawChan (s : State) (c : Nat) : Bool :=
  (usedAxes s).any fun n => (s.ctx n).bridge.any fun b => decide (b ≤ c) && decide (c < b + (if (s.ctx n).lawSet = 4 then 4 else 3))

/-- Force-off by die S: by a zone (R263) or because the data link is lost (R27). -/
def linkLost (s : State) : Bool := s.core.lostS || s.core.lostC
/-- Every output is held off: the data link is lost, or the head does not hold the transmit enable (R27, R361). DEDUCED: a debug halt leaves the pins as they are (R261), though the lead stops with it. -/
def heldOff (s : State) : Bool := linkLost s || (!txEnable s && !s.edge.frozen)
def moduleForced (s : State) (m : Nat) : Bool := fbit s (BR_STATUS m) BR_STATUS_FORCED || heldOff s

/-- The channels of a module. -/
def modChans (m : Nat) : List Nat := [3 * m, 3 * m + 1, 3 * m + 2]

/-- At a reload a channel parks or follows its compares; one whose OFF has ended becomes ACTIVE with Hc off (R252, R257). -/
def chanReload (c : Nat) (s : State) : State :=
  let m := c / 3
  if fbit s (chReg c) BR_CH_OFF || moduleForced s m then s
  else
    let x := s.chan c
    let p := periodSteps s m
    if !fbit s (chReg c) BR_CH_ACT then driveHc c false (fput s (chReg c) BR_CH_ACT true)
    else if p ≤ x.rise && p ≤ x.fall && fbit s (chReg c) BR_CH_HC then driveHc c false s
    else s

/-- The counter of a module restarts at 0; its shadows move as CMODE allows (R254, R255). -/
def reload (m : Nat) (s : State) : State :=
  let pend := fbit s (BR_STATUS m) BR_STATUS_PEND
  let s := if !cmode s m || pend then
      let s := fput s (BR_STATUS m) BR_STATUS_PEND false
      let s := fset s (BR_PERIOD m) BR_PERIOD_ACTIVE (max 256 (fget s (BR_PERIOD m) BR_PERIOD_PERIOD))
      eachN (modChans m) (fun c s => s.setChan c { s.chan c with
        rise := fget s (BR_RISE m (c % 3)) BR_RISE_RISE, fall := fget s (BR_FALL m (c % 3)) BR_FALL_FALL }) s
    else s
  eachN (modChans m) chanReload (fset s (BR_STATUS m) BR_STATUS_COUNT 0)

/-- The module's counter runs. -/
def running (s : State) (m : Nat) : Bool := fbit s (BR_STATUS m) BR_STATUS_RUN && !s.edge.frozen

/-- BRIDGE_RELOAD (R254): the counter reaches its period. -/
def execBridgeReload (m : BitVec 3) (s : State) : Host.Outcome State Fault Refusal :=
  .next (if running s m.toNat && !s.edge.wait.contains m.toNat then reload m.toNat s else s)

/-- BRIDGE_EDGE (R252): a compare of an ACTIVE channel is reached; of two edges in one step the FALL wins. -/
def execBridgeEdge (c : BitVec 5) (rise : Bool) (s : State) : Host.Outcome State Fault Refusal :=
  let k := c.toNat
  let m := k / 3
  let x := s.chan k
  let at' := if rise then x.rise else x.fall
  .next (if k < 24 && running s m && fbit s (chReg k) BR_CH_ACT && at' < periodSteps s m then
    let s := fset s (BR_STATUS m) BR_STATUS_COUNT (at' / 64)
    let on := rise && x.rise != x.fall
    if on == fbit s (chReg k) BR_CH_HC then s else driveHc k on s
  else s)

/-- DEAD_TIME_END (R253): the delayed switch turns on. -/
def execDeadTimeEnd (c : BitVec 5) (s : State) : Host.Outcome State Fault Refusal :=
  let k := c.toNat
  let x := s.chan k
  .next (if s.edge.frozen then s
    else match x.dead with
    | some true => s.setChan k { x with pinH := true, dead := none }
    | some false => s.setChan k { x with pinL := true, dead := none }
    | none => s)

/-- SYNC_POINT (R259, R260): the module's counter, which a suppressed natural reload lets run on, stands at `count`; at LEVEL 0x01 the reload is suppressed for 4 clocks only (R527). -/
def execSyncPoint (m : BitVec 3) (count : BitVec 16) (s : State) : Host.Outcome State Fault Refusal :=
  let k := m.toNat
  let p := fget s (BR_PERIOD k) BR_PERIOD_ACTIVE
  .next (if fbit s (BR_CTRL k) BR_CTRL_EN && fbit s (BR_CTRL k) BR_CTRL_SYNC_EN && !s.edge.frozen then
    if s.edge.wait.contains k then
      reload k (fput { s with edge.wait := s.edge.wait.filter (· != k) } (BR_STATUS k) BR_STATUS_RUN true)
    else
      let c := count.toNat
      let late := if levelOne s then 4 else 8
      let s := if p + late < c || (0 < c && c + 8 < p) then w1cSet (BR_STATUS k) BR_STATUS_SYNC_CUT k s else s
      reload k s
  else s)

/-! ### Writes that travel on the data link (R254 to R258) -/

/-- The oldest word under way lands in its shadow. -/
def landOne (s : State) : State :=
  match s.edge.fly with
  | [] => s
  | (a, v) :: t =>
    let s := { s with edge.fly := t }
    let m := (a - 0x300000) / 0x100
    let c := (a % 0x100 - 0x20) / 0x10
    if a % 0x100 = 4 then fset s (BR_PERIOD m) BR_PERIOD_PERIOD v.toNat
    else wr s (if a % 0x10 = 4 then BR_FALL m c else BR_RISE m c) (v &&& 0x3FFFFF#32)

/-- Everything under way lands, oldest first. -/
def landAll (s : State) : State := (List.range s.edge.fly.length).foldl (fun s _ => landOne s) s

/-- SHADOW_WRITE_LAND (R254). -/
def execShadowWriteLand (s : State) : Host.Outcome State Fault Refusal := .next (landOne s)

/-- A written PERIOD, RISE or FALL leaves for die S; refused for a law-owned channel, and for a law-owned PERIOD under the closed lock (R254, R258). -/
def shadowEff (w : Who) (a : Nat) (v : Word) : Eff := fun s =>
  let m := (a - 0x300000) / 0x100
  let o := a % 0x100
  if (if o = 4 then lawOwned s m && !lockOpen s w 8 else lawChan s (3 * m + (o - 0x20) / 0x10)) then none
  else some { s with edge.fly := s.edge.fly ++ [(a, v)] }

/-- COMMIT lands behind the writes sent before it: PEND until the shadows move (R255). -/
def commitEff (m : Nat) (v : Word) : Eff := fun s =>
  if wbit v 0 then some (fput (landAll s) (BR_STATUS m) BR_STATUS_PEND true) else some s

/-- COMMIT (R255). -/
def execCommit (w : Who) (m : BitVec 3) (s : State) : Host.Outcome State Fault Refusal :=
  .next (gated w (BR_CMD m.toNat) 1 (commitEff m.toNat 1) s)

/-- A write of BR_CH: OFF acts at once when set, at the next reload when cleared; refused on law-owned channels (R257, Table 7.10). -/
def chEff (c : Nat) (v : Word) : Eff := fun s =>
  if lawChan s c && wbit v 1 != fbit s (chReg c) BR_CH_OFF then none
  else
    match plainEff (chReg c) v s with
    | none => none
    | some s =>
      some (if wbit v 1 then chanOff c s else s)

/-- A write of BR_CTRL: EN starts and stops the counter (R259, Table 7.9). A module that runs free reloads as it starts, behind the writes sent before; one with SYNC_EN waits for its sync point. -/
def brCtrlEff (m : Nat) (v : Word) : Eff := fun s =>
  let was := fbit s (BR_CTRL m) BR_CTRL_EN
  match plainEff (BR_CTRL m) v s with
  | none => none
  | some s =>
    let on := fbit s (BR_CTRL m) BR_CTRL_EN
    let sync := fbit s (BR_CTRL m) BR_CTRL_SYNC_EN
    if on && !was && sync then some { fset s (BR_STATUS m) BR_STATUS_COUNT 0 with edge.wait := m :: s.edge.wait.filter (· != m) }
    else if on && !sync && (!was || s.edge.wait.contains m) then
      let s := landAll s
      some (reload m (fput { s with edge.wait := s.edge.wait.filter (· != m) } (BR_STATUS m) BR_STATUS_RUN true))
    else if !on && was then
      let s := { s with edge.wait := s.edge.wait.filter (· != m) }
      some (eachN (modChans m) chanOff (fset (fput s (BR_STATUS m) BR_STATUS_RUN false) (BR_STATUS m) BR_STATUS_COUNT 0))
    else some s

/-- An edge programme lands: every compare of its channels with a COMMIT for each module, or the off state, which leaves the compares as they are (R256, R257). -/
def landProgramme (n : Nat) (s : State) : State :=
  match (s.ctx n).bridge, (s.axl n).prog with
  | some b, some es =>
    let s := s.setAxl n { s.axl n with prog := none }
    let k := if (s.ctx n).lawSet = 4 then 4 else 3
    let cs := (List.range k).map (b + ·)
    let s := if es = [] then eachN cs (fun c s => chanOff c (fput s (chReg c) BR_CH_OFF true)) s
      else eachN (List.range k) (fun j s =>
        let c := b + j
        let s := wrN s (BR_RISE (c / 3) (c % 3)) (es.getD (2 * j) 0x3FFFFF)
        let s := wrN s (BR_FALL (c / 3) (c % 3)) (es.getD (2 * j + 1) 0x3FFFFF)
        fput s (chReg c) BR_CH_OFF false) s
    eachN (cs.map (· / 3)) (fun m s => fput s (BR_STATUS m) BR_STATUS_PEND true) s
  | _, _ => s

/-- EDGE_PROGRAMME_LAND (R256). -/
def execEdgeProgrammeLand (n : Axis) (s : State) : Host.Outcome State Fault Refusal := .next (landProgramme n.toNat s)

/-- P_f of an axis: 64 × the shadow period of its module, or the node's period (R109, R256). -/
def pfSteps (s : State) (n : Nat) : Nat :=
  match (s.ctx n).bridge with
  | some b => 64 * max 256 (fget s (BR_PERIOD (b / 3)) BR_PERIOD_PERIOD)
  | none => 64 * (s.ctx n).nodePeriod

/-! ### Freeze and force-off (R261 to R263) -/

/-- FROZEN of every module. -/
def showFrozen (b : Bool) (s : State) : State :=
  eachN (List.range 8) (fun m s => fput s (BR_STATUS m) BR_STATUS_FROZEN b) { s with edge.frozen := b }

/-- A force on a module begins or ends (R263): the end acts at the next reload (R257). -/
def forceModule (m : Nat) (b : Bool) (s : State) : State :=
  let s := fput s (BR_STATUS m) BR_STATUS_FORCED b
  if b then eachN (modChans m) chanOff s else s

/-! ### ΣΔ inputs (R269 to R272) -/

/-- OSR of a channel (Table 7.13). -/
def osr (s : State) (j : Nat) : Nat := 16 * 2 ^ min 4 (fget s (SD_CTRL j) SD_CTRL_OSR)

/-- Sliding sums of `n` over a list, newest first. -/
def slide (n : Nat) (l : List Int) : List Int :=
  (List.range (l.length + 1 - n)).map fun i => ((l.drop i).take n).foldl (· + ·) 0

/-- The sinc3 output of the last 3·OSR - 2 bits, newest last; bits before the first count as 0 (R270). -/
def sinc3 (o : Nat) (bits : List Bool) : Word :=
  let n := 3 * o - 2
  let x : List Int := ((bits.reverse.take n).map fun b => if b then 1 else -1)
  let x := x ++ List.replicate (n - x.length) 0
  let t := (slide o (slide o (slide o x))).headD 0
  let lg := Nat.log2 o
  let y := if t = (o : Int) ^ 3 then 2 ^ 31 - 1 else t * 2 ^ 31 / (2 : Int) ^ (3 * lg)
  BitVec.ofInt 32 y

/-- SINC3_OUTPUT (R270): a channel that runs publishes an output from the bits received. -/
def execSinc3Output (j : BitVec 4) (bits : List Bool) (s : State) : Host.Outcome State Fault Refusal :=
  let k := j.toNat
  .next (if fbit s (SD_CTRL k) SD_CTRL_EN then wr s (SD_DATA k) (sinc3 (osr s k) bits) else s)

/-- SD_FLT (R271). -/
def execSdFlt (j : BitVec 4) (s : State) : Host.Outcome State Fault Refusal :=
  let k := j.toNat
  .next (if fbit s (SD_STATUS k) SD_STATUS_FLT then s
    else w1cSet (SD_STATUS k) SD_STATUS_SDFLT k (fput s (SD_STATUS k) SD_STATUS_FLT true))

/-- SD_FLT_END (R271). -/
def execSdFltEnd (j : BitVec 4) (s : State) : Host.Outcome State Fault Refusal :=
  .next (fput s (SD_STATUS j.toNat) SD_STATUS_FLT false)

/-! ### Encoders (R273 to R276) -/

def State.encIf (s : State) (k : Nat) : EncSt := tget {} s.edge.enc k
def State.setEncIf (s : State) (k : Nat) (e : EncSt) : State := { s with edge.enc := tset {} s.edge.enc k e }

/-- The axes a local encoder feeds. -/
def encAxes (s : State) (k : Nat) : List Nat := (usedAxes s).filter fun n => (s.ctx n).enc == some k

/-- Encoder mode: 1 quadrature, 2 SSI, else off. -/
def encMode (s : State) (k : Nat) : Nat := fget s (ENC_CTRL k) ENC_CTRL_MODE

/-- A fault of an encoder: FLT, VALID 0, its source LOST, ENCFLT of its axes (R276). -/
def encFail (k : Nat) (f : Fld) (s : State) : State :=
  let s := w1cSet (ENC_STATUS k) f k s
  let s := fput (w1cSet (ENC_STATUS k) ENC_STATUS_FLT k s) (ENC_STATUS k) ENC_STATUS_VALID false
  let s := eachN ((slots s).filter fun n => srcType s n == 1 && srcEnc s n == k) loseSrc s
  eachN (encAxes s k) (fun n s => raiseCause n 4 s) s

/-- The quarter of the line the levels of A and B stand for: A leads B when counting up. -/
def quadrant (a b : Bool) : Nat := if a then (if b then 2 else 1) else (if b then 3 else 0)

/-- ENC_EDGE (R273): the levels of A and B accepted after the filter. -/
def execEncEdge (k : BitVec 2) (a b : Bool) (s : State) : Host.Outcome State Fault Refusal :=
  let j := k.toNat
  let e := s.encIf j
  .next (if encMode s j ≠ 1 then s
    else
      let d := (quadrant a b + 4 - quadrant e.a e.b) % 4
      let s := s.setEncIf j { e with a := a, b := b }
      if d = 2 then encFail j ENC_STATUS_QERR s
      else
        let up : Int := if d = 1 then 1 else if d = 3 then -1 else 0
        let up := if fbit s (ENC_CTRL j) ENC_CTRL_DIR then -up else up
        s.setEncIf j { s.encIf j with cnt := ux 32 ((s.encIf j).cnt + up) })

/-- INDEX_PULSE (R273): with ZGATE only while A and B are both 1; the count is latched, IDX set, and an axis that homes on the index takes it (R158). -/
def execIndexPulse (k : BitVec 2) (s : State) : Host.Outcome State Fault Refusal :=
  let j := k.toNat
  let e := s.encIf j
  .next (if encMode s j ≠ 1 || (fbit s (ENC_CTRL j) ENC_CTRL_ZGATE && !(e.a && e.b)) then s
    else
      let s := w1cSet (ENC_STATUS j) ENC_STATUS_IDX j (wrN s (ENC_INDEX j) e.cnt)
      eachN (encAxes s j) (fun n s =>
        let f := s.fb n
        homeIndex n (sx 64 (ux 64 (if f.got then f.pos + sdiff 32 e.cnt f.raw * 2 ^ 24 else sx 32 e.cnt * 2 ^ 24 + f.ofs))) s) s)

/-- SSI_BITS, clamped to 8 to 40. -/
def ssiBits (s : State) (k : Nat) : Nat := min 40 (max 8 (fget s (ENC_CTRL k) ENC_CTRL_SSI_BITS))

/-- Gray to binary over n bits. -/
def fromGray (n x : Nat) : Nat := (List.range n).foldl (fun b i => b ^^^ (x / 2 ^ i)) 0

/-- At a tick an idle SSI interface starts a frame (R274), and every encoder's count is latched (R276). -/
def encTick (s : State) : State :=
  eachN [0, 1, 2, 3] (fun k s =>
    let e := s.encIf k
    let s := wrN s (ENC_COUNT k) e.cnt
    if encMode s k = 2 && !e.busy then s.setEncIf k { e with busy := true } else s) s

/-- SSI_FRAME_END (R274, R275): the bits read, the error bit, and whether the data line was low at the start. -/
def execSsiFrameEnd (k : BitVec 2) (data : BitVec 40) (err low : Bool) (s : State) : Host.Outcome State Fault Refusal :=
  let j := k.toNat
  let e := s.encIf j
  .next (if encMode s j ≠ 2 || !e.busy then s
    else
      let n := ssiBits s j
      let raw := data.toNat % 2 ^ n
      let v := if fbit s (ENC_CTRL j) ENC_CTRL_GRAY then fromGray n raw else raw
      let d : Int := match e.ssi with | some p => sdiff n v p | none => 0
      let bad := low || (err && fbit s (ENC_CTRL j) ENC_CTRL_ERRB) || decide (2 ^ (n - 2) < d) || decide (d < -(2 ^ (n - 2)))
      let e := { e with busy := false }
      if bad then encFail j ENC_STATUS_SSIERR (s.setEncIf j { e with good := 0 })
      else
        let good := min 2 (e.good + 1)
        let cnt := match e.ssi with | some _ => ux 32 (e.cnt + d) | none => v % 2 ^ 32
        let s := s.setEncIf j { e with ssi := some v, good := good, cnt := cnt }
        fput s (ENC_STATUS j) ENC_STATUS_VALID (good == 2 && !encFault s j))

/-- A write of ENC_STATUS: IDX, SSIERR and QERR as W1C; FLT of an SSI interface clears only after two good frames (R276), at LEVEL 0x01 at once (R527). -/
def encStatusEff (k : Nat) (v : Word) : Eff := fun s =>
  let a := ENC_STATUS k
  let ssi := encMode s k == 2
  let keep := wbit v 0 && ssi && (s.encIf k).good < 2 && !levelOne s
  let v := if keep then v &&& ~~~1#32 else v
  let s := wr s a (rd s a &&& ~~~(v &&& 0xF#32))
  some (if wbit v 0 then fput s a ENC_STATUS_VALID (encMode s k == 1 || (ssi && (s.encIf k).good == 2)) else s)

/-- ENC_FLT_CLEAR (R276). -/
def execEncFltClear (w : Who) (k : BitVec 2) (s : State) : Host.Outcome State Fault Refusal :=
  .next (gated w (ENC_STATUS k.toNat) 1 (encStatusEff k.toNat 1) s)

/-- A write of ENC_CTRL: a change of MODE restarts VALID and the SSI history (R275, R276). -/
def encCtrlEff (k : Nat) (v : Word) : Eff := fun s =>
  let was := encMode s k
  match plainEff (ENC_CTRL k) v s with
  | none => none
  | some s =>
    if encMode s k = was then some s
    else
      let s := s.setEncIf k { s.encIf k with ssi := none, good := 0, busy := false }
      some (fput s (ENC_STATUS k) ENC_STATUS_VALID (encMode s k == 1 && !encFault s k))

/-- LOCAL_SAMPLE (R272): the counter equals SMP, `ns` after the tick; the bits of the current and bus-voltage channels form the sinc3 outputs, the encoder count is latched, and the axis is released. A sample with a channel at FLT is missing (R271). At LEVEL 0x01 the last published outputs serve (R527). -/
def execLocalSample (n : Axis) (ia ib vb : List Bool) (ns : Nat) (s : State) : Host.Outcome State Fault Refusal :=
  let k := n.toNat
  let c := s.ctx k
  .next (if c.used && c.cls = 0 && c.bridge.isSome then
    let ja := c.sd.getD 0 0
    let jb := c.sd.getD 1 ja
    let jv := c.sdBus.getD ja
    let flt := [ja, jb, jv].any fun j => fbit s (SD_STATUS j) SD_STATUS_FLT
    let s := if flt then fbMissing k s
      else
        let f := s.fb k
        let out (j : Nat) (bits : List Bool) : Int := (if levelOne s then rd s (SD_DATA j) else sinc3 (osr s j) bits).toInt
        let s := s.setFb k { f with v1 := out ja ia, v2 := out jb ib, v3 := if c.sdBus.isSome then out jv vb else f.v3 }
        fbPresent k (match c.enc with
          | some e => acceptPos k (s.encIf e).cnt s
          | none => s)
    release k (cycNow s) (instant s (ns * 256)) flt s
  else s)

/-- The inputs a sample takes that no feedback releases: the sinc3 outputs and the encoder of a local axis (R84). -/
def localInputs (n : Nat) (s : State) : State :=
  let c := s.ctx n
  let f := s.fb n
  let out (o : Option Nat) (d : Int) : Int := match o with
    | some j => (rd s (SD_DATA j)).toInt
    | none => d
  let s := s.setFb n { f with v1 := out c.sd[0]? f.v1, v2 := out c.sd[1]? f.v2, v3 := out c.sdBus f.v3 }
  match c.enc with
  | some e => acceptPos n (s.encIf e).cnt s
  | none => s

/-! ### Still-water reduction (R278) -/

def stillReg (n : Nat) : Nat := SW_CTRL n

/-- The target of the ramp. -/
def stillTarget (s : State) (n : Nat) : Int :=
  let l := min 256 (fget s (stillReg n) SW_CTRL_LEVEL)
  if l = 256 then 2 ^ 31 - 1 else l * 2 ^ 23

/-- The standstill delay in ns. -/
def stillDelay (s : State) (n : Nat) : Nat := min 1000 (max 10 (fget s (stillReg n) SW_CTRL_DELAY)) * 10000000

/-- Store sw and show SW_ACT. -/
def putStill (n : Nat) (x : Still) (s : State) : State :=
  fput { s with edge.still := tset {} s.edge.still n x } (stillReg n) SW_CTRL_SW_ACT (decide (x.sw < 2 ^ 31 - 1))

/-- The ramp is due at standstill sample j. -/
def stillDue (s : State) (n j : Nat) : Bool := decide (stillDelay s n ≤ j * tsOf s n)

/-- One sample of an axis with its set-points: sw (R278). -/
def stillSampleSw (n : Nat) (vSet aSet : Int) (s : State) : State :=
  let x := tget {} s.edge.still n
  if !fbit s (stillReg n) SW_CTRL_EN || vSet ≠ 0 || aSet ≠ 0 then putStill n {} s
  else
    let len := (rhu 50000000 (tsOf s n)).toNat
    let x := if x.k = 0 && (x.armed || stillDue s n x.n) then { x with k := 1, sw0 := x.sw }
      else if 0 < x.k && x.k < len then { x with k := x.k + 1 } else x
    let t := stillTarget s n
    let sw := if x.k = 0 then x.sw else if len ≤ x.k then t else x.sw0 - rhu ((x.sw0 - t) * x.k) len
    putStill n { x with n := x.n + 1, sw := sw } s

/-- STILL_WATER_START (R278): a standstill has lasted DELAY × 10 ms; the next sample is sample 1 of the ramp. -/
def execStillWaterStart (n : Axis) (s : State) : Host.Outcome State Fault Refusal :=
  let k := n.toNat
  let x := tget {} s.edge.still k
  .next (if fbit s (stillReg k) SW_CTRL_EN && x.k = 0 && 0 < x.n && stillDue s k x.n then
    putStill k { x with armed := true } s else s)

end Sys2Proof.Machine
end

