-- ==== Sys2Proof/Machine/TimedOut.lean ====
section
/-! DEFINITION. Timed outputs and step/direction outputs (section 7.10). -/

namespace Sys2Proof.Machine
open R

def State.tout (s : State) (k : Nat) : TOut := tget {} s.edge.out k
def State.setTout (s : State) (k : Nat) (x : TOut) : State := { s with edge.out := tset {} s.edge.out k x }

/-- The mode of an output: 0 off, 1 angle, 2 step/direction; the odd output of a step pair only carries DIR (R284). -/
def toMode (s : State) (k : Nat) : Nat :=
  let m := fget s (TO_CFG k) TO_CFG_MODE
  if k % 2 = 1 then
    if fget s (TO_CFG (k - 1)) TO_CFG_MODE = 2 || 2 ≤ m then 0 else m
  else if m = 3 then 0 else m

/-- The enabled pairs of the shadow table; a pair with ON equal to OFF is ignored (R279). -/
def shadowPairs (s : State) (k : Nat) : List (Nat × Nat) :=
  ((List.range 16).filter fun i => (rdN s (TO_PEN k)).testBit i && rdN s (TO_ON k i) != rdN s (TO_OFF k i)).map
    fun i => (rdN s (TO_ON k i), rdN s (TO_OFF k i))

/-- An angle lies in a pair, from ON up to OFF around the machine cycle. -/
def inPair (p : Nat × Nat) (a : Nat) : Bool := decide (dist 32 a p.1 < dist 32 p.2 p.1)

/-- Two pairs overlap. -/
def pairsMeet (p q : Nat × Nat) : Bool := inPair p q.1 || inPair q p.1

/-- Some two pairs of a table overlap (R279). -/
def overlapping : List (Nat × Nat) → Bool
  | [] => false
  | p :: t => t.any (pairsMeet p) || overlapping t

/-- The table for the edges of a machine cycle (R283). -/
def pairsFor (x : TOut) (cyc : Nat) : List (Nat × Nat) :=
  match x.next with
  | some (c, l) => if cyc = c || later 32 cyc c then l else x.pairs
  | none => x.pairs

/-- The next edge of a kind whose raw cycle:angle lies behind `after`. -/
def nextRaw (x : TOut) (on : Bool) (after : Nat) : Option Nat :=
  let c := after / 2 ^ 32
  let cands := [0, 1, 2].flatMap fun j =>
    let cyc := (c + j) % 2 ^ 32
    (pairsFor x cyc).map fun p => cyc * 2 ^ 32 + (if on then p.1 else p.2)
  let cands := cands.filter fun r => later 64 r after
  match cands with
  | [] => none
  | r :: t => some (t.foldl (fun b x => if dist 64 x after < dist 64 b after then x else b) r)

/-- The entry of an edge: KIND 0x3, TARGET k (R280). -/
def toEnt (k : Nat) (on : Bool) (key : Nat) : DEnt :=
  { key := key, act := BitVec.ofNat 32 (3 * 2 ^ 28 + k * 2 ^ 16 + 2 * k + on.toNat), pay := 0 }

/-- The list of timed edges. -/
def aList (s : State) : Nat := fget s TO_GCTRL TO_GCTRL_ALIST

/-- The key of an edge at its raw angle: its advance at the voted speed earlier (R280). -/
def toKey (s : State) (k : Nat) (on : Bool) (raw : Nat) : Nat :=
  let adv := if on then fget s (TO_ADV k) TO_ADV_ADV_ON else fget s (TO_ADV k) TO_ADV_ADV_OFF
  ux 64 ((raw : Int) - rhu ((adv * 1000 + 400 : Nat) * s.ang.speed) (tb s * 65536))

def TOut.edge (x : TOut) (on : Bool) : Option TEdge := if on then x.on else x.off
def TOut.setEdge (x : TOut) (on : Bool) (e : Option TEdge) : TOut := if on then { x with on := e } else { x with off := e }

/-- Insert the edge at a raw angle. -/
def putEdge (k : Nat) (on : Bool) (raw : Nat) (s : State) : State :=
  let key := toKey s k on raw
  let s := s.setTout k ((s.tout k).setEdge on (some { raw := raw, key := key, spd := s.ang.speed }))
  produce .timed k (aList s) (toEnt k on key) s

/-- Insert the next edge of a kind behind an angle. -/
def insertNext (k : Nat) (on : Bool) (after : Nat) (s : State) : State :=
  match nextRaw (s.tout k) on after with
  | some r => putEdge k on r s
  | none => s.setTout k ((s.tout k).setEdge on none)

/-- Cancel the pending entry of an edge. -/
def cancelEdge (k : Nat) (on : Bool) (s : State) : State :=
  match (s.tout k).edge on with
  | none => s
  | some e =>
    let x := toEnt k on e.key
    let same (y : DEnt) : Bool := y.key == x.key && y.act == x.act
    let l := aList s
    let s := match (s.dl l).find? same with
      | some y => s.setDl l ((s.dl l).erase y)
      | none => s
    let s := { s with sch.held := s.sch.held.filter fun (h : Held) => !(decide (h.prod = Prod.timed) && same h.ent) }
    s.setTout k ((s.tout k).setEdge on none)

/-- The voted cycle:angle. -/
def voted (s : State) : Nat := s.ang.key / 2 ^ 16 % 2 ^ 64

/-- Every tick: an inserted edge whose speed differs from the voted speed by more than 1/256 of itself is reinserted (R281); a new table takes over (R283). -/
def toTick (s : State) : State :=
  eachN (tkeys s.edge.out) (fun k s =>
    let x := s.tout k
    let s := match x.next with
      | some (c, l) =>
        let now := voted s / 2 ^ 32
        if now = c || later 32 now c then
          fput (s.setTout k { x with pairs := l, next := none }) (TO_STATUS k) TO_STATUS_APPLY_PEND false
        else s
      | none => s
    let again (on : Bool) (s : State) : State :=
      match (s.tout k).edge on with
      | some e =>
        let d := s.ang.speed - e.spd
        let a (z : Int) : Int := if z < 0 then -z else z
        if a e.spd < 256 * a d then putEdge k on e.raw (cancelEdge k on s) else s
      | none => s
    again false (again true s)) s

/-- Insert both edges of an output from the present angle on. -/
def startEdges (k : Nat) (s : State) : State := insertNext k false (voted s) (insertNext k true (voted s) s)

/-- The output shows its inactive level and its edges are gone. -/
def stopEdges (k : Nat) (s : State) : State :=
  let s := cancelEdge k false (cancelEdge k true s)
  fput (s.setTout k { s.tout k with placed := [], steps := [], carry := 0, p0 := none }) (TO_STATUS k) TO_STATUS_LVL false

/-- A write of TO_CFG: a change of mode starts or stops the edges (R279). -/
def toCfgEff (k : Nat) (v : Word) : Eff := fun s =>
  let was := toMode s k
  match plainEff (TO_CFG k) v s with
  | none => none
  | some s =>
    let now := toMode s k
    if now = was then some s
    else
      let s := if was ≠ 0 then stopEdges k s else s
      some (if now = 1 then startEdges k s else s)

/-- The image's table of an output comes into force (R279). -/
def toInstall (k : Nat) (s : State) : State :=
  let s := s.setTout k { s.tout k with pairs := shadowPairs s k, next := none }
  if toMode s k = 1 then startEdges k s else s

/-- APPLY in TO_CMD (R279, R283). -/
def toCmdEff (k : Nat) (v : Word) : Eff := fun s =>
  if !wbit v 0 then some s
  else
    let l := shadowPairs s k
    if overlapping l then some (w1cSet (TO_STATUS k) TO_STATUS_REFUSED k s)
    else
      let from' := (voted s / 2 ^ 32 + 1) % 2 ^ 32
      let s := fput (s.setTout k { s.tout k with next := some (from', l) }) (TO_STATUS k) TO_STATUS_APPLY_PEND true
      if toMode s k ≠ 1 then some s
      else
        let again (on : Bool) (s : State) : State :=
          match (s.tout k).edge on with
          | some e => if e.raw / 2 ^ 32 = from' || later 32 (e.raw / 2 ^ 32) from' then
              insertNext k on (voted s) (cancelEdge k on s) else s
          | none => insertNext k on (voted s) s
        some (again false (again true s))

/-- TO_APPLY (R283). -/
def execToApply (w : Who) (k : BitVec 5) (s : State) : Host.Outcome State Fault Refusal :=
  .next (gated w (TO_CMD k.toNat) 1 (toCmdEff k.toNat 1) s)

/-- A timed-output entry is released: the edge is placed at tick + offset + 400 ns and the next of its kind inserted (R280). Of an entry that is not the output's own the spec states no direction: a free choice. -/
def toAction (e : DEnt) (ofs : Nat) (s : State) : State :=
  let k := entTarget e
  let t := s.time.start + ofs + 400
  let mine (on : Bool) : Option TEdge :=
    match (s.tout k).edge on with
    | some x => if (toEnt k on x.key).key = e.key && (toEnt k on x.key).act = e.act then some x else none
    | none => none
  let place (on : Bool) (s : State) : State :=
    let x := s.tout k
    s.setTout k { x with placed := x.placed.filter (fun p => p.1 ≤ t) ++ [(t, on)] ++ x.placed.filter (fun p => t < p.1) }
  match mine true, mine false with
  | some x, _ => insertNext k true x.raw (place true s)
  | none, some x => insertNext k false x.raw (place false s)
  | none, none => let (b, s) := takeFreeBool s; place b s

/-- The output is forced to its inactive level (R263, R27). -/
def toForced (s : State) (k : Nat) : Bool := fbit s (TO_STATUS k) TO_STATUS_FORCED || heldOff s

/-- A force on an output begins or ends; it stays inactive until its next ON edge (R263). -/
def forceOut (k : Nat) (b : Bool) (s : State) : State :=
  let s := fput s (TO_STATUS k) TO_STATUS_FORCED b
  if b then fput s (TO_STATUS k) TO_STATUS_LVL false else s

/-- Every bridge module, timed output and step output is forced off (R27, R361). -/
def holdOff (s : State) : State :=
  let s := eachN (List.range 24) chanOff s
  eachN (List.range 32) (fun k s => fput s (TO_STATUS k) TO_STATUS_LVL false) s

/-- Die S stops toggling LEAD_OUT and withdraws the transmit enable in the same clock (R359 to R361). -/
def stopLead (s : State) : State :=
  let s := fput s PAIR_STATUS PAIR_STATUS_LEAD false
  if s.edge.frozen then s else holdOff s

/-- DEBUG_HALT (R261, R359): the counters and every pin hold; the lead stops. -/
def execDebugHalt (s : State) : Host.Outcome State Fault Refusal :=
  .next (stopLead (setCond SCH_STATUS_COND_DEBUG true (showFrozen true s)))

/-- DEBUG_RESUME (R261): the counters go on; the outputs stay forced off until the head holds the transmit enable again (R361). -/
def execDebugResume (s : State) : Host.Outcome State Fault Refusal :=
  .next (let s := showFrozen false s
    if txEnable s then s else holdOff s)

/-! ### Step/direction (R284) -/

/-- The pulse width in ns; 0 acts as 1. -/
def stepWidth (s : State) (k : Nat) : Nat := 100 * max 1 (fget s (TO_STEP k) TO_STEP_STEP_W)

/-- One sample of a step/direction output: the burst of its next sample interval (R284). -/
def stepSample (k : Nat) (s : State) : State :=
  let n := fget s (TO_STEP k) TO_STEP_AXIS
  let x := s.tout k
  let p1 := ((s.gen n).next.map (·.1)).getD (s.gen n).pOut
  if lawIdle s n then s.setTout k { x with p0 := some p1, carry := 0 }
  else
    let p0 := match x.p0 with | some p => p | none => p1
    let hp (p : Int) : Int := (p + 2 ^ 23).fdiv (2 ^ 24)
    let nat := hp p1 - hp p0
    let cnt := nat + x.carry
    let s := s.setTout k { x with p0 := some p1, carry := 0 }
    if cnt = 0 then s
    else
      let ts := tsOf s n
      let d := (p1 - p0).natAbs
      let up := decide (0 < cnt)
      let plain := x.carry = 0
      let first : Nat := if plain then
          let c := if up then hp p0 * 2 ^ 24 + 2 ^ 23 else hp p0 * 2 ^ 24 - 2 ^ 23
          (rhu (ts * (c - p0).natAbs) (max 1 d)).toNat
        else 0
      let first := if up == x.dir then max first (100 * fget s (TO_STEP k) TO_STEP_DIR_SU) else first
      let sp0 := if plain then (rhu (ts * 2 ^ 24) (max 1 d)).toNat else (rhu ts cnt.natAbs).toNat
      let sp := max sp0 (2 * stepWidth s k)
      let fit := min 127 (if first < ts then (ts - 1 - first) / sp + 1 else 0)
      let m := min cnt.natAbs fit
      let rest : Int := if up then cnt - m else cnt + m
      let s := if m < cnt.natAbs then w1cSet (TO_STATUS k) TO_STATUS_STEPLAG k s else s
      let s := s.setTout k { s.tout k with carry := rest }
      if m = 0 then s
      else
        produce .step k (fget s TO_GCTRL TO_GCTRL_TLIST)
          { key := (s.time.start + tb s + 400 + first) % 2 ^ 64, act := BitVec.ofNat 32 (4 * 2 ^ 28 + k / 2 * 2 ^ 16 + k),
            pay := BitVec.ofNat 32 ((!up).toNat * 2 ^ 31 + m * 2 ^ 24 + min sp (2 ^ 24 - 1)) } s

/-- A step burst is released: its steps are placed with their DIR (R284). -/
def stepAction (e : DEnt) (ofs : Nat) (s : State) : State :=
  let k := 2 * (entTarget e % 16)
  let cnt := wField e.pay 30 24
  let sp := wField e.pay 23 0
  let dir := wbit e.pay 31
  let t := s.time.start + ofs
  let x := s.tout k
  let new := (List.range cnt).map fun j => (4 * (rhu (t + j * sp : Nat) 4).toNat, dir)
  fput (s.setTout k { x with steps := x.steps ++ new, dir := dir }) (TO_STATUS (k + 1)) TO_STATUS_LVL (dir && !toForced s (k + 1))

/-! ### The actions of released entries (Table 2.3) -/

/-- An event queue is full: 16 of its events wait for a session of the SPI target (R467). -/
def queueFull (s : State) (q : Nat) : Bool :=
  s.host.sessions.any fun x => x.port == .spi && x.qmask.testBit q && hspVer s 0 == 2 &&
    decide (16 ≤ ((s.hport 0).out.filter fun m => m.queue == some (x.num * 256 + q)).length)

/-- A released entry takes its action with its offset from the tick; releases happen at an instant in ns. None: an event queue is full (R71). A TARGET outside the objects of its KIND has none to act on. -/
def entAction (e : DEnt) (ofs rel : Nat) (s : State) : Option State :=
  let t := entTarget e
  match entKind e with
  | 1 => some (if (s.ctx t).used && mayRelease s t then release t (cycNow s) (rel * 256 : Nat) false (localInputs t s) else s)
  | 2 => some (releaseLane t (e.pay &&& 0xFFFF) (e.pay >>> 16) rel s)
  | 3 => some (if t < 32 then toAction e ofs s else s)
  | 4 => some (if t < 16 then stepAction e ofs s else s)
  | 5 => some (if t < 16 then coTrigger t s else s)
  | 6 =>
    if queueFull s t then none
    else some (withLine 14 (sendEvent t (·.qmask.testBit t) (entTag e) e.key e.pay.toNat) s)
  | _ => some s

/-- Entries placed in the current basic cycle take their actions (R65); one that a full queue refuses stays. -/
def runPlaced (s : State) : State :=
  s.sch.placed.foldl (fun s p =>
    match entAction p.1 p.2 s.time.ns s with
    | some t => t
    | none => { s with sch.placed := s.sch.placed ++ [p] }) { s with sch.placed := [] }

/-- TO_EDGE (R280, R282): the placed edges of the earliest instant; ON and OFF together, or a force, leave the output off. -/
def execToEdge (k : BitVec 5) (s : State) : Host.Outcome State Fault Refusal :=
  let j := k.toNat
  let s := runPlaced s
  let x := s.tout j
  .next (match x.placed with
    | [] => s
    | (t, _) :: _ =>
      if s.edge.frozen then s
      else
        let now := x.placed.filter fun p => p.1 / 4 == t / 4
        let s := s.setTout j { x with placed := x.placed.filter fun p => p.1 / 4 != t / 4 }
        fput s (TO_STATUS j) TO_STATUS_LVL (now.all (·.2) && !toForced s j))

/-- STEP_PULSE (R284): the next placed step begins and lasts STEP_W × 100 ns. -/
def execStepPulse (k : BitVec 5) (s : State) : Host.Outcome State Fault Refusal :=
  let j := k.toNat
  let s := runPlaced s
  let x := s.tout j
  .next (match x.steps with
    | [] => s
    | (t, _) :: rest =>
      if s.edge.frozen then s
      else if toForced s j then s.setTout j { x with steps := rest }
      else s.setTout j { x with steps := rest, pulse := (t, stepWidth s j), pulses := x.pulses + 1 })

/-- The set-points of the next basic cycle, and the step bursts of their axes (R136, R137, R284); once in a basic cycle. -/
def computeCycle (s : State) : State :=
  if s.mot.computed then s
  else
  let s := runPlaced s
  let due := dueAxes s
  let s := setpoints s
  eachN ((List.range 16).map (2 * ·)) (fun k s =>
    let n := fget s (TO_STEP k) TO_STEP_AXIS
    if toMode s k = 2 && due.contains n && (s.ctx n).lawSet = 5 then stepSample k s else s) s

/-- SETPOINT_COMPUTE (R136). -/
def execSetpointCompute (s : State) : Host.Outcome State Fault Refusal := .next (computeCycle s)

end Sys2Proof.Machine
end

