-- ==== Sys2Proof/Machine/Link.lean ====
section
/-! DEFINITION. The five network ports: link bring-up, frame forms and transmission (sections 8.1 to 8.4). -/

namespace Sys2Proof.Machine
open R

/-! ### Frames (R294 to R300) -/

/-- One step of the reflected CRC-32 of IEEE 802.3. -/
def fcsBit (c : BitVec 32) : BitVec 32 :=
  if c.getLsbD 0 then (c >>> 1) ^^^ 0xEDB88320#32 else c >>> 1

/-- The FCS of IEEE 802.3 over bytes, in the order of transmission (Table 8.3). -/
def fcs (bs : List (BitVec 8)) : List (BitVec 8) :=
  leBytes (bs.foldl (fun c b =>
    let c := c ^^^ b.zeroExtend 32
    fcsBit (fcsBit (fcsBit (fcsBit (fcsBit (fcsBit (fcsBit (fcsBit c)))))))) 0xFFFFFFFF#32 ^^^ 0xFFFFFFFF#32)

/-- Frame types of Table 8.6. -/
def tREF : Nat := 1
def tTRAIN : Nat := 2
def tDIRECT : Nat := 3
def tFEEDBACK : Nat := 4
def tPOLL : Nat := 5
def tSVC : Nat := 6
def tENUM : Nat := 7
def tLINK : Nat := 8
def tMIRROR : Nat := 9
def tDELAY : Nat := 10

/-- The Halom header (Table 8.5) of a frame the head sends: REQ and ALERT are 0. -/
def halomHdr (typ ver src len : Nat) (dirn chB : Bool) : List (BitVec 8) :=
  beOf 1 (typ * 16 + ver) ++ beOf 1 src ++ beOf 2 (len * 32 + dirn.toNat * 16 + chB.toNat * 4)

/-- A standard frame (Table 8.3). -/
def stdFrame (da sa etype : Nat) (hdr pay : List (BitVec 8)) : TxFrame :=
  let b := beOf 6 (0x0300484C0000 + da) ++ beOf 6 (0x0200484C0000 + sa) ++ beOf 2 etype ++ hdr ++ pay ++
    List.replicate (42 - pay.length) 0
  { compact := false, bytes := b ++ fcs b }

/-- A compact frame (Table 8.4). -/
def compactFrame (hdr pay : List (BitVec 8)) : TxFrame :=
  let b := hdr ++ pay ++ List.replicate (pay.length % 2) 0
  { compact := true, bytes := b ++ beBytes (crc32c b) }

/-- The state of a link (Table 8.2). -/
def lstate (s : State) (p : Nat) : Nat := fget s (PORT_STATUS p) PORT_STATUS_STATE
def setLstate (p x : Nat) (s : State) : State := fset s (PORT_STATUS p) PORT_STATUS_STATE x

/-- MAXVER in force; MIR ignores its field (Table 8.17, R293). -/
def maxVer (s : State) (p : Nat) : Nat :=
  if p < 4 && fget s (PORT_CTRL p) PORT_CTRL_MAXVER == 1 then 1 else 2

/-- ETYPE in force (Table 8.16). -/
def etypeOf (s : State) : Nat :=
  let e := fget s NET_CTRL NET_CTRL_ETYPE; if e < 0x600 then 0x88B5 else e

/-- A frame leaves a port. -/
def sendOn (p : Nat) (f : TxFrame) (s : State) : State :=
  wrN (s.setLink p { s.link p with tx := some f }) (TX_FRAMES p) (rdN s (TX_FRAMES p) + 1)

/-- A hop-local frame leaves a port that is past DOWN (R294, R295). -/
def sendHop (p typ : Nat) (pay : List (BitVec 8)) (s : State) : State :=
  if lstate s p = 0 then s
  else sendOn p (stdFrame 0xFD (haddr s) 0x88B5 (halomHdr typ 2 (haddr s) pay.length (haddr s % 2 == 1) (p % 2 == 1)) pay) s

/-- The channel of a port carries compact line frames: the loaded schedule marks it so, and its hops are at HN2 (R295). -/
def compactNow (s : State) (p : Nat) : Bool :=
  match s.net.gen with
  | some g => g.compact.contains p && g.hn2.contains p && lstate s p == 6 && fget s (PORT_STATUS p) PORT_STATUS_VER == 2
  | none => false

/-- Every hop of a port's channel is HN2 (R298, R308); before a schedule is loaded the head's own hop decides. -/
def allHn2 (s : State) (p : Nat) : Bool :=
  match s.net.gen with
  | some g => g.hn2.contains p
  | none => fget s (PORT_STATUS p) PORT_STATUS_VER == 2

/-- COMPACT of a port. -/
def showCompact (p : Nat) (s : State) : State := fput s (PORT_STATUS p) PORT_STATUS_COMPACT (compactNow s p)

/-- The head sits at the far end of the lines (R287): the head whose strap selects rank 1. -/
def farEnd (s : State) : Bool := haddr s == 0xF1

/-- A line frame leaves both ports of a segment that are UP, while the head may lead (R292, R294, R304). -/
def sendLine (g typ da : Nat) (pay : List (BitVec 8)) (s : State) : State :=
  if !txEnable s then s
  else eachN [2 * g, 2 * g + 1] (fun p s =>
    if lstate s p ≠ 6 then s
    else
      let hdr := halomHdr typ (if allHn2 s p then 2 else 1) (haddr s) pay.length (farEnd s) (p % 2 == 1)
      sendOn p (if compactNow s p then compactFrame hdr pay else stdFrame da (haddr s) (s.link p).etype hdr pay) s) s

/-- Wire bytes of a frame on a port, the minimum gap included (R296, R297). -/
def wireBytes (s : State) (p len : Nat) : Nat :=
  if compactNow s p then len + len % 2 + 12 else max len 42 + 42

/-- Tenths of a ns a byte takes on a port (R289). -/
def byteTenths (s : State) (p : Nat) : Nat := if fget s (PORT_STATUS p) PORT_STATUS_VER = 2 then 32 else 80

/-- The wire time of a payload on a segment in ns, rounded up: that of the slower channel. -/
def wireNs (s : State) (g len : Nat) : Nat :=
  let t (p : Nat) := (wireBytes s p len * byteTenths s p + 9) / 10
  max (t (2 * g)) (t (2 * g + 1))

/-! ### Link bring-up (R290 to R293) -/

/-- A segment enters a state (Table 9.3). -/
def setSegState (g x : Nat) (s : State) : State :=
  let s := fset s NET_STATE (segFld g) x
  if x = 8 then fput s NET_STATE NET_STATE_SVC_ONLY true else s

/-- LINKS ends when both ports are UP or in MISMATCH (Table 9.3). -/
def linksDone (g : Nat) (s : State) : State :=
  if segState s g = 1 && 6 ≤ lstate s (2 * g) && 6 ≤ lstate s (2 * g + 1) then setSegState g 2 s else s

/-- The mirror link of a pair goes down; a standby that could take over becomes UNVERIFIED (R375, R384). -/
def mirDown (s : State) : State :=
  if !fbit s PAIR_CTRL PAIR_CTRL_PAIR_EN then s
  else
    let s := w1cSet PAIR_STATUS PAIR_STATUS_MIR_DOWN 0 (fput s PAIR_STATUS PAIR_STATUS_MIR_UP false)
    let st := fget s PAIR_STATUS PAIR_STATUS_STATE
    if st = 4 || st = 5 then fset s PAIR_STATUS PAIR_STATUS_STATE 6 else s

/-- A port goes to DOWN. -/
def portDown (p : Nat) (s : State) : State :=
  let x := s.link p
  let s := s.setLink p { x with last := none, eq := 0, swRx := false, swTx := 0, dreq := none }
  let s := showCompact p (fset (setLstate p 0 s) (PORT_STATUS p) PORT_STATUS_VER 0)
  if p = 4 then mirDown s else s

/-- The version the loaded schedule gives a port's hop; every version while none is loaded (R292). -/
def hopOk (s : State) (p ver : Nat) : Bool :=
  match s.net.gen with
  | some g => (g.hop.find? (·.1 == p)).all fun x => x.2 == ver
  | none => true

/-- A link comes up at a version, or is held in MISMATCH (R290, R292). -/
def comeUp (p ver : Nat) (s : State) : State :=
  let s := fset s (PORT_STATUS p) PORT_STATUS_VER ver
  let s := setLstate p (if hopOk s p ver then 6 else 7) s
  let s := showCompact p s
  if p < 4 then
    let s := s.setSeg (p / 2) { s.seg (p / 2) with linkUp := true }
    if fbit s BOOT_STATUS BOOT_STATUS_MINIMAL && segState s (p / 2) = 0 then setSegState (p / 2) 8 s else linksDone (p / 2) s
  else s

/-- UP and MISMATCH follow a newly loaded schedule (Table 8.2). -/
def rejudge (p : Nat) (s : State) : State :=
  if lstate s p = 6 || lstate s p = 7 then
    showCompact p (setLstate p (if hopOk s p (fget s (PORT_STATUS p) PORT_STATUS_VER) then 6 else 7) s)
  else s

/-- LINK_START (Table 8.2): 1 ms after EN is set or the link is lost. -/
def execLinkStart (p : NetPort) (s : State) : Host.Outcome State Fault Refusal :=
  .next (if lstate s p.n = 0 && fbit s (PORT_CTRL p.n) PORT_CTRL_EN && !(s.link p.n).hold then
      setLstate p.n 1 (s.setLink p.n { s.link p.n with etype := etypeOf s })
    else s)

/-- LINK_SYNC. -/
def execLinkSync (p : NetPort) (s : State) : Host.Outcome State Fault Refusal :=
  let fresh (s : State) : State := s.setLink p.n { s.link p.n with last := none, eq := 0, swRx := false, swTx := 0 }
  .next (if lstate s p.n = 1 then setLstate p.n 2 (fresh s)
    else if lstate s p.n = 4 then setLstate p.n 5 (fresh s)
    else s)

/-- No HN2 within 10 ms of SYNC25 and CONFIRM: UP at HN1 with FALLBACK; MIR returns to DOWN (R291, R293). -/
def fallback (p : Nat) (s : State) : State :=
  if p = 4 then portDown 4 (s.setLink 4 { s.link 4 with hold := true })
  else comeUp p 1 (w1cSet (PORT_STATUS p) PORT_STATUS_FALLBACK p s)

/-- LINK_SYNC_TIMEOUT. -/
def execLinkSyncTimeout (p : NetPort) (s : State) : Host.Outcome State Fault Refusal :=
  .next (if lstate s p.n = 1 then portDown p.n s
    else if lstate s p.n = 4 then fallback p.n s
    else s)

/-- LINK_FALLBACK. -/
def execLinkFallback (p : NetPort) (s : State) : Host.Outcome State Fault Refusal :=
  .next (if lstate s p.n = 4 || lstate s p.n = 5 then fallback p.n s else s)

/-- The port has sent and received what SWITCH asks for and is silent (Table 8.2). -/
def switchDone (s : State) (p : Nat) : Bool := (s.link p).swRx && decide (2 ≤ (s.link p).swTx)

/-- The payload of a LINK frame (Table 8.13). -/
def linkPay (s : State) (p : Nat) (sw : Bool) : List (BitVec 8) :=
  beOf 1 (maxVer s p) ++ beOf 1 (4 + 2 * sw.toNat) ++ beOf 2 (etypeOf s) ++ beBytes Config.serial ++
    beOf 1 ((if p < 4 then p % 2 * 2 else 0) + 1) ++ List.replicate 3 0

/-- LINK_FRAME_TX: in ADV and CONFIRM with SW = 0, in SWITCH with SW = 1. -/
def execLinkFrameTx (p : NetPort) (s : State) : Host.Outcome State Fault Refusal :=
  let st := lstate s p.n
  .next (if st = 2 || st = 5 then sendHop p.n tLINK (linkPay s p.n false) s
    else if st = 3 && !switchDone s p.n then
      let s := sendHop p.n tLINK (linkPay s p.n true) s
      s.setLink p.n { s.link p.n with swTx := (s.link p.n).swTx + 1 }
    else s)

/-- LINK_RX (R290, R303): frames are equal when MAXVER, SERIAL and PORTID agree; the third equal one decides. -/
def execLinkRx (p : NetPort) (maxver flg : BitVec 8) (_etype : BitVec 16) (serial : Word) (portid : BitVec 8) (s : State) :
    Host.Outcome State Fault Refusal :=
  let k := p.n
  let st := lstate s k
  .next (if st < 2 || st = 4 || 6 ≤ st then s
    else
      let x := s.link k
      let id := (maxver.toNat, serial.toNat, portid.toNat)
      let n := if x.last = some id then x.eq + 1 else 1
      let s := s.setLink k { x with last := some id, eq := n, swRx := x.swRx || flg.getLsbD 1 }
      let s := wr (fset s (PORT_STATUS k) PORT_STATUS_PMAXVER maxver.toNat) (PORT_PARTNER k) serial
      if st = 2 && 3 ≤ n then
        if min (maxVer s k) maxver.toNat = 2 then setLstate k 3 s
        else if k = 4 then s
        else comeUp k 1 s
      else if st = 5 && 3 ≤ n then comeUp k 2 s
      else s)

/-- LINK_ADV_TIMEOUT. -/
def execLinkAdvTimeout (p : NetPort) (s : State) : Host.Outcome State Fault Refusal :=
  .next (if lstate s p.n = 2 then portDown p.n s else s)

/-- LINK_RATE_SWITCH. -/
def execLinkRateSwitch (p : NetPort) (s : State) : Host.Outcome State Fault Refusal :=
  .next (if lstate s p.n = 3 && switchDone s p.n then setLstate p.n 4 s else s)

/-- LINK_LOST (R291). -/
def execLinkLost (p : NetPort) (s : State) : Host.Outcome State Fault Refusal :=
  .next (if lstate s p.n < 2 then s
    else
      let s := w1cSet (PORT_STATUS p.n) PORT_STATUS_LINKDROP p.n (wrN s (DROPS p.n) (rdN s (DROPS p.n) + 1))
      portDown p.n s)

/-- A write of PORT_CTRL (Table 8.17): EN = 0 is DOWN. -/
def portCtrlEff (p : Nat) (v : Word) : Eff := fun s =>
  match plainEff (PORT_CTRL p) v s with
  | some t => some (if fbit t (PORT_CTRL p) PORT_CTRL_EN then t else portDown p t)
  | none => none

/-- A write of PORT_CMD (R291, R313). -/
def portCmdEff (p : Nat) (v : Word) : Eff := fun s =>
  some (if wbit v 0 then portDown p (s.setLink p { s.link p with hold := false }) else s)

/-- RETRY. -/
def execRetry (w : Who) (p : NetPort) (s : State) : Host.Outcome State Fault Refusal :=
  .next (gated w (PORT_CMD p.n) 1 (portCmdEff p.n 1) s)

/-- MIR_RETRY (R293). -/
def execMirRetry (s : State) : Host.Outcome State Fault Refusal :=
  .next (if lstate s 4 = 0 && fbit s (PORT_CTRL 4) PORT_CTRL_EN && (s.link 4).hold then
      setLstate 4 1 (s.setLink 4 { s.link 4 with hold := false })
    else s)

/-- An invalid frame is counted in the counter of the first test it fails (R299). -/
def countBad (p : Nat) (f : RxFail) (s : State) : State :=
  match f with
  | .codeViol => w1cSet (PORT_STATUS p) PORT_STATUS_CODEERR p (wrN s (CODE_VIOL p) (rdN s (CODE_VIOL p) + 1))
  | .short => wrN s (RX_LEN p) (rdN s (RX_LEN p) + 1)
  | .crc => wrN s (RX_CRC p) (rdN s (RX_CRC p) + 1)
  | .tagOrMac => wrN s (RX_UNK p) (rdN s (RX_UNK p) + 1)
  | .len => wrN s (RX_LEN p) (rdN s (RX_LEN p) + 1)
  | .unknown => wrN s (RX_UNK p) (rdN s (RX_UNK p) + 1)

/-- FRAME_RX_INVALID (R299): on a link that has acquired synchronisation. -/
def execFrameRxInvalid (p : NetPort) (f : RxFail) (s : State) : Host.Outcome State Fault Refusal :=
  .next (if lstate s p.n < 2 then s else countBad p.n f s)

end Sys2Proof.Machine
end

