-- ==== Sys2Proof/Machine/NetRx.lean ====
section
/-! DEFINITION. The cycle matrix, copy selection, feedback and the command frames (sections 8.4, 8.5, 9.1 to 9.3, 9.5). -/

namespace Sys2Proof.Machine
open R

/-! ### Schedule (R315 to R318) -/

/-- Round length 2^RLOG; values above 6 act as 6. -/
def rlog (s : State) : Nat := min 6 (fget s NET_CFG NET_CFG_RLOG)

/-- Round index of the present basic cycle. -/
def roundIdx (s : State) : Nat := fget s TIME_CYC TIME_CYC_ROUND

/-- Show a CYC and its round index (R315). -/
def setCyc (c : Nat) (s : State) : State :=
  fset (fset s TIME_CYC TIME_CYC_CYC c) TIME_CYC TIME_CYC_ROUND (c % 2 ^ 16 % 2 ^ rlog s)

/-- Fields of a schedule-table entry (Table 9.1). -/
structure SEnt where
  kind : Nat
  plog : Nat
  phase : Nat
  start : Nat
  node : Nat
  ax : Nat
  train : Nat
  span : Nat
  guard : Nat
  apply : Nat
  link : Nat
  bofs : Int

/-- A schedule-table entry from its four words. -/
def entOf (w : Nat → Word) : SEnt :=
  { kind := wField (w 0) 31 28, plog := wField (w 0) 27 25, phase := wField (w 0) 24 19, start := wField (w 0) 17 0,
    node := wField (w 1) 31 24, ax := wField (w 1) 23 20, train := wField (w 1) 19 18, span := wField (w 1) 17 0,
    guard := wField (w 2) 31 24, apply := wField (w 2) 15 0, link := wField (w 3) 31 22, bofs := sx 16 (wField (w 3) 15 0) }

/-- Entry i of segment g. -/
def schedEnt (s : State) (g i : Nat) : SEnt := entOf fun w => rd s (SCHED_TABLE g (4 * i + w))

/-- The number of entries the loaded table of a segment lists. -/
def schedLen (s : State) (g : Nat) : Nat :=
  match s.net.gen with
  | some x => (x.tables.find? (·.1 == g)).elim 0 fun t => min 1024 ((t.2.length + 3) / 4)
  | none => 0

/-- An entry is active in the present basic cycle (R318). -/
def entActive (s : State) (e : SEnt) : Bool := e.kind != 0 && roundIdx s % 2 ^ e.plog == e.phase

/-- The active entries of a kind. -/
def activeEnts (s : State) (g kind : Nat) : List SEnt :=
  ((List.range (schedLen s g)).map (schedEnt s g)).filter fun e => e.kind == kind && entActive s e

/-- Frame time of a slot in ns: SPAN less the minimum gap on channel A (R320). -/
def frameTime (s : State) (g : Nat) (e : SEnt) : Nat :=
  e.span - ((if compactNow s (2 * g) then 2 else 12) * byteTenths s (2 * g)) / 10

/-! ### Copies (R304 to R306) -/

/-- The further field two copies agree in (R304). -/
def copyKey (typ : Nat) (pay : List (BitVec 8)) : List (BitVec 8) :=
  if typ = tREF || typ = tFEEDBACK then pay.take 2
  else if typ = tTRAIN then pay.take 3
  else if typ = tDIRECT then (pay.drop 1).take 3
  else if typ = tPOLL || typ = tSVC then (pay.drop 1).take 1
  else pay

/-- The payload R306 compares: a REF's without CORR (R347). -/
def copyBody (typ : Nat) (pay : List (BitVec 8)) : List (BitVec 8) :=
  if typ = tREF then pay.take 16 ++ pay.drop 20 else pay

/-- The header R306 compares, CH excluded. -/
def copyHdr (r : Rx) : Nat := r.ver.toNat * 2 ^ 16 + r.pay.length * 8 + r.dirn.toNat * 4 + r.req.toNat * 2 + r.alert.toNat

/-- Select between the copies of a line frame (R305, R306): true for the first copy. -/
def selectCopy (typ : Nat) (r : Rx) (s : State) : Bool × State :=
  let p := r.port.n
  let g := p / 2
  let now := instant s r.last
  let live := (s.seg g).copies.filter fun c => decide (now - c.t ≤ (tb s : Int) * 256)
  let chB := p % 2 == 1
  let key := copyKey typ r.pay
  match live.find? fun c => c.typ == typ && c.src == r.src.toNat && c.key == key && c.chB != chB with
  | some c =>
    let s := s.setSeg g { s.seg g with copies := live.filter (· != c) }
    let s := wrN s (LATER p) (rdN s (LATER p) + 1)
    if c.hdr = copyHdr r && copyBody typ c.pay == copyBody typ r.pay then (false, s)
    else
      (false, sediment 5 sevWarn 0x0706 (p * 2 ^ 16 + typ * 2 ^ 8 + r.src.toNat)
        (wrN s (MISMATCH_CNT p) (rdN s (MISMATCH_CNT p) + 1)))
  | none =>
    let c : Copy := { typ := typ, src := r.src.toNat, key := key, chB := chB, hdr := copyHdr r, pay := r.pay, t := now }
    (true, wrN (s.setSeg g { s.seg g with copies := live ++ [c] }) (FIRST p) (rdN s (FIRST p) + 1))

/-- A port that receives line frames: a segment port that is UP (R292). -/
def rxOpen (s : State) (p : NetPort) : Bool := decide (p.n < 4) && lstate s p.n == 6

/-- A number in a payload, most significant byte first. -/
def payN (pay : List (BitVec 8)) (ofs n : Nat) : Nat := beVal ((pay.drop ofs).take n)

/-! ### Nodes -/

/-- A node's state (Table 9.10). -/
def nodeState (s : State) (n : Nat) : Nat := fget s (NODE_INFO n) NODE_INFO_STATE
def setNodeState (n x : Nat) (s : State) : State := fset s (NODE_INFO n) NODE_INFO_STATE x

/-- The axis contexts on a node. -/
def nodeAxes (s : State) (g n : Nat) : List Nat :=
  (usedAxes s).filter fun k => match (s.ctx k).node with
    | some (g', n', _) => g' == g && n' == n
    | none => false

/-- The axis context of an axis index on a node. -/
def nodeAxis (s : State) (g n ax : Nat) : Option Nat := (usedAxes s).find? fun k => (s.ctx k).node == some (g, n, ax)

/-- The sample of a context released by feedback at an instant (R67, R305, R330); released only in RUN (R337). -/
def releaseFb (g k cyc : Nat) (t : Int) (missing : Bool) (s : State) : State :=
  if segState s g ≠ 7 then s else release k cyc t missing s

/-! ### Feedback (R300, R301, R328, R329) -/

/-- The axis records of a feedback payload. -/
def fbRecords (pay : List (BitVec 8)) : List (List (BitVec 8)) :=
  let n := payN pay 3 1
  let base := 10 + payN pay 8 1
  (List.range n).map fun i => (pay.drop (base + 24 * i)).take 24

/-- The payload holds its header, inputs and records, with NINB and NREC in range (R300, Table 8.8). -/
def fbLenOk (pay : List (BitVec 8)) : Bool :=
  decide (10 ≤ pay.length) && decide (payN pay 3 1 ≤ 16) && decide (payN pay 8 1 ≤ 16) &&
    decide (10 + payN pay 8 1 + 24 * payN pay 3 1 ≤ pay.length)

/-- A signed Q1.15 value of a record as Q1.31 (R301). -/
def fbVal (r : List (BitVec 8)) (ofs : Nat) : Int := sx 16 (payN r ofs 2) * 65536

/-- One record of a frame used for control (R301): a refused one leaves its sample missing. -/
def fbRecord (g n cyc : Nat) (t : Int) (r : List (BitVec 8)) (s : State) : State :=
  match nodeAxis s g n (payN r 0 1 / 16) with
  | none => s
  | some k =>
    let rf := payN r 0 1 % 16
    let st := payN r 1 1
    let raw := payN r 4 4
    let f := s.fb k
    let jump := f.got && decide (2 ^ 30 < (sdiff 32 raw f.raw).natAbs)
    let s := judgeCause k 9 (st.testBit 7) s
    if st.testBit 3 || jump then s.setNode n { s.node n with bad := k :: (s.node n).bad }
    else
      let s := acceptPos k raw (fbPresent k s)
      let f := s.fb k
      let f := { f with torqueOff := st.testBit 5 || !st.testBit 6, v4 := sx 16 (payN r 22 2) }
      let f := match rf with
        | 1 => { f with v1 := fbVal r 16, v2 := fbVal r 18, v3 := fbVal r 20 }
        | 2 => { f with v1 := fbVal r 16 }
        | 3 => { f with v3 := fbVal r 20 }
        | _ => f
      let s := s.setFb k f
      let s := if st.testBit 4 then
          homeIndex k (sx 64 (ux 64 (f.pos + sdiff 32 (payN r 12 4) raw * 2 ^ 24))) s
        else s
      releaseFb g k cyc t false s

/-- A network source takes the count its SIGNAL selects: record SIGNAL / 2, its POS or its POS2 (R53). -/
def fbSource (n : Nat) (smpt : Nat) (recs : List (List (BitVec 8))) (j : Nat) (s : State) : State :=
  if srcType s j ≠ 2 || fget s (MA_SRC_CFG j) MA_SRC_CFG_NODE ≠ n then s
  else
    let sig := fget s (MA_SRC_CFG j) MA_SRC_CFG_SIGNAL
    match recs[sig / 2]? with
    | some r => s.setSrc j { s.src j with frame := some (payN r (4 + 4 * (sig % 2)) 4, smpt) }
    | none => s

/-- A copy inside its window is used for control, once a slot (R329). -/
def useFeedback (g n : Nat) (r : Rx) (s : State) : State :=
  let x := s.node n
  if x.used then s
  else
    let s := s.setNode n { x with used := true, bad := [], inp := (r.pay.drop 10).take (payN r.pay 8 1) }
    let smpt := ((s.time.ns : Int) + sdiff 32 (payN r.pay 4 4) s.time.ns).toNat
    let recs := fbRecords r.pay
    let s := eachN [0, 1, 2] (fbSource n smpt recs) s
    recs.foldl (fun s rec => fbRecord g n (payN r.pay 0 2) (instant s r.last) rec s) s

/-- The deviation of a copy from the nearest of its node's slots of the present cycle, in 2^-8 ns, with that slot's guard in ns (R319, R328). -/
def deviation (s : State) (g n : Nat) (chB : Bool) (first : Nat) : Option (Int × Nat) :=
  let ds := (activeEnts s g 4).filterMap fun e =>
    if e.node = n then some ((first : Int) - ((e.start : Int) + (if chB then e.bofs else 0)) * 256, e.guard * 4) else none
  ds.foldl (fun b d => match b with
    | some x => if d.1.natAbs < x.1.natAbs then some d else some x
    | none => some d) none

/-- DEV_LAST and DEV_MAX (R332). -/
def showDev (n : Nat) (chB : Bool) (d : Int) (s : State) : State :=
  let ns := rhu d 256
  let s := if chB then s else fset s (NODE_SLOT n) NODE_SLOT_DEV_LAST (ux 16 (clampI ns (-32768) 32767))
  fset s (NODE_SLOT n) NODE_SLOT_DEV_MAX (max (fget s (NODE_SLOT n) NODE_SLOT_DEV_MAX) (min 65535 ns.natAbs))

/-- A frame outside its window (Table 9.2). -/
def slotOut (n : Nat) (s : State) : State :=
  w1cSet NET_STATUS NET_STATUS_SLOTOUT n (fincWrap s (NODE_CNT n) NODE_CNT_OUT)

/-- FEEDBACK_RX. -/
def execFeedbackRx (r : Rx) (s : State) : Host.Outcome State Fault Refusal :=
  let p := r.port.n
  let g := p / 2
  let n := r.src.toNat
  let chB := p % 2 == 1
  .next (if !rxOpen s r.port then s
    else if !fbLenOk r.pay then countBad p .len s
    else
      let s := reachAt r.last s
      let (_, s) := selectCopy tFEEDBACK r s
      if 128 ≤ n then s
      else
        let x := s.node n
        let s := s.setNode n { x with req := r.req, onA := x.onA || !chB, onB := x.onB || chB }
        if segState s g ≠ 6 && segState s g ≠ 7 then s
        else
          match deviation s g n chB r.first with
          | none => slotOut n s
          | some (d, guard) =>
            let s := showDev n chB d s
            if (guard : Int) * 128 < d.natAbs then slotOut n s
            else
              let s := if (guard : Int) * 64 < d.natAbs then
                  w1cSet NET_STATUS NET_STATUS_SLOTWARN n (fincWrap s (NODE_CNT n) NODE_CNT_WARN)
                else s
              if dist 16 (payN r.pay 0 2) (cycNow s) = 2 ^ 15 then s else useFeedback g n r s)

/-! ### The end of a feedback window (R307, R330, R331, R338) -/

/-- A missing sample's position: p_prev plus the estimated velocity v_m (R330). -/
def substitute (k : Nat) (s : State) : State :=
  let l := lawTile s k
  let vm := vmCounts l (sx 32 ((stateTile s k).getD 3 0).toNat)
  s.setFb k { s.fb k with sub := some (sx 64 (ux 64 ((s.axl k).pMeas + vm))) }

/-- A sample of an axis is missing: it counts towards FBMISS and is released at the close of its window with substituted inputs. -/
def missSample (g k : Nat) (t : Int) (s : State) : State :=
  releaseFb g k (cycNow s) t true (substitute k (judgeMissing k (fbMissing k s)))

/-- The node's axes take the FBMISS reaction (R335, R338). -/
def axesMissing (g n : Nat) (s : State) : State := eachN (nodeAxes s g n) (fun k s => raiseCause k 3 s) s

/-- A node becomes LOST (R338, R339): FBM_N consecutive FEEDBACK slots without a frame. -/
def judgeLost (n : Nat) (s : State) : State :=
  let st := nodeState s n
  if fbmN s ≤ (s.node n).miss && (st = 3 || st = 4 || st = 6) then
    axesMissing (fget s (NODE_INFO n) NODE_INFO_SEG) n (w1cSet NET_STATUS NET_STATUS_LOST n (setNodeState n 5 s))
  else s

/-- FEEDBACK_WINDOW_END of an entry. -/
def windowEnd (g i : Nat) (s : State) : State :=
  let e := schedEnt s g i
  if e.kind ≠ 4 || !entActive s e || (segState s g ≠ 6 && segState s g ≠ 7) || 128 ≤ e.node then s
  else
    let n := e.node
    let x := s.node n
    let s := if x.onA && !x.onB then fincWrap s (NODE_CH n) NODE_CH_B_MISS
      else if x.onB && !x.onA then fincWrap s (NODE_CH n) NODE_CH_A_MISS else s
    let close : Nat := e.start + frameTime s g e + e.guard * 2 + e.bofs.toNat
    let s := setNow (s.time.start + close) s
    let lost := (nodeAxes s g n).filter fun k => (s.ctx k).relFb && axisDue s k && (!x.used || x.bad.contains k)
    let s := eachN lost (fun k s => missSample g k (instant s (close * 256)) s) s
    let s := s.setNode n { s.node n with
      onA := false, onB := false, used := false, bad := [], miss := if x.onA || x.onB then 0 else x.miss + 1,
      run := if x.used then x.run + 2 ^ e.plog else 0 }
    judgeLost n s

/-- FEEDBACK_WINDOW_END. -/
def execFeedbackWindowEnd (g : Bool) (i : BitVec 10) (s : State) : Host.Outcome State Fault Refusal :=
  .next (windowEnd g.toNat i.toNat s)

/-- FBMISS (R331). -/
def execFbmiss (n : Axis) (s : State) : Host.Outcome State Fault Refusal := .next (judgeMissing n.toNat s)

/-! ### Commands (R267, R268, R302, R323, R324, R534) -/

/-- The outputs of an axis are held off: in OFF, under TORQUE_OFF, and until a law task has run that does not hold them (R116, R534). -/
def axisHeld (s : State) (k : Nat) : Bool := lawIdle s k || (s.axl k).idle

/-- CTL of an axis: ENABLE while it runs, DISABLE while its outputs are held off (R534). -/
def ctlOf (s : State) (k : Nat) : Nat := if axisHeld s k then 0x40 else 0x80

/-- A law set whose outputs are edges, and those with four channels (Table 3.1). -/
def edgeLaw (s : State) (k : Nat) : Bool := (s.ctx k).lawSet == 1 || (s.ctx k).lawSet == 4
def fourCh (s : State) (k : Nat) : Bool := (s.ctx k).lawSet == 4

/-- `n` open compares (22 bits). -/
def freeCompares : Nat → State → List Nat × State
  | 0, s => ([], s)
  | n + 1, s =>
    let (x, s) := takeFree s
    let (l, s) := freeCompares n s
    (x.toNat % 2 ^ 22 :: l, s)

/-- An edge descriptor (Table 7.6) with its APPLY offset; its SEQ follows the last. With the outputs held off OFF is 1, and no value is stated for the compares. -/
def descriptor (k apply : Nat) (s : State) : List (BitVec 8) × State :=
  let x := s.axn k
  let seq := (x.seq + 1) % 16
  let off := axisHeld s k
  let n := if fourCh s k then 8 else 6
  let (es, s) := if off then freeCompares n s else ((s.axl k).outE, s)
  let b := beOf 4 (s.time.start + tb s + apply) ++ beOf 2 (s.ctx k).nodePeriod ++
    beOf 1 (seq * 16 + off.toNat * 8 + (fourCh s k).toNat * 4) ++ beOf 1 0 ++
    (List.range n).flatMap fun j => beOf 4 (es.getD j 0)
  (b, s.setAxn k { x with seq := seq })

/-- The body of a train record after its header: REF, set-points, or a descriptor (Table 8.11). -/
def recordBody (k apply : Nat) (s : State) : (Nat × List (BitVec 8)) × State :=
  let a := s.axl k
  let off := axisHeld s k
  if edgeLaw s k then
    let (d, s) := descriptor k apply s
    ((3, d), s)
  else if (s.ctx k).cls = 2 then
    let sp := if off then (s.gen k).p else a.outP
    let v := if off then 0 else clampI (rhu a.outV (2 ^ 8)) (-2 ^ 31) (2 ^ 31 - 1)
    ((2, beOf 8 (ux 64 sp) ++ beOf 4 (ux 32 v)), s)
  else ((1, beOf 4 (ux 32 (if off then 0 else a.outU)) ++ beOf 8 0), s)

/-- The record of an axis in a train: a sample that has not completed sends the command of the sample before and counts an overrun (R70, R323). With none yet, the outputs are held off and the record says so (R534). -/
def trainRecord (apply k : Nat) (acc : List (BitVec 8) × Nat) (s : State) : (List (BitVec 8) × Nat) × State :=
  match (s.ctx k).node with
  | none => (acc, s)
  | some (_, n, ax) =>
    let x := s.axn k
    let pack (cf ctl : Nat) (body : List (BitVec 8)) : List (BitVec 8) × Nat :=
      (acc.1 ++ beOf 1 n ++ beOf 1 (ax * 16 + cf) ++ beOf 1 (body.length + 4) ++ beOf 1 ctl ++ body, acc.2 + 1)
    let cf := if edgeLaw s k then 3 else if (s.ctx k).cls = 2 then 2 else 1
    let s := if x.done then s else countOverrun k s
    match (if x.unsent then none else x.cmd) with
    | some c => (pack cf c.ctl c.body, s)
    | none =>
      let ((cf, body), s) := recordBody k apply s
      let ctl := ctlOf s k
      (pack cf ctl body, s.setAxn k { s.axn k with done := false, unsent := false, cmd := some { cyc := cycNow s, ctl := ctl, body := body } })

/-- The axes a train carries in the present basic cycle. -/
def trainAxes (s : State) (g train : Nat) : List Nat :=
  (usedAxes s).filter fun k =>
    (s.ctx k).cls != 0 && (s.ctx k).train == train && axisDue s k &&
    match (s.ctx k).node with
    | some (g', _, _) => g' == g
    | none => false

/-- TRAIN_TX (R302, R323): at the START of a TRAIN slot in RUN. -/
def execTrainTx (g : Bool) (i : BitVec 10) (s : State) : Host.Outcome State Fault Refusal :=
  let j := g.toNat
  let e := schedEnt s j i.toNat
  .next (if e.kind ≠ 2 || !entActive s e || segState s j ≠ 7 then s
    else
      let s := setNow (s.time.start + e.start) s
      let ((recs, n), s) := (trainAxes s j e.train).foldl
        (fun (a : (List (BitVec 8) × Nat) × State) k => trainRecord e.apply k a.1 a.2) (([], 0), s)
      sendLine j tTRAIN 0xFF (beOf 2 (cycNow s) ++ beOf 1 e.train ++ beOf 1 n ++ recs) s)

/-- TA_MAX and TA_VIOL of a class A turnaround in ns (R35, R79). -/
def showTurnaround (k ns : Nat) (s : State) : State :=
  let s := fset s TA_MON TA_MON_TA_MAX (max (fget s TA_MON TA_MON_TA_MAX) (min 65535 ns))
  if ns ≤ 800 then s
  else sediment 2 sevWarn 0x0703 (min 65535 ns * 2 ^ 16 + k) (fincSat s TA_MON TA_MON_TA_VIOL)

/-- DIRECT_TX (R324): the first bit leaves at an instant; the command answers the feedback that released the sample. -/
def execDirectTx (n : Axis) (at' : Nat) (s : State) : Host.Outcome State Fault Refusal :=
  let k := n.toNat
  let x := s.axn k
  .next (match (s.ctx k).node, x.rel with
    | some (g, nd, ax), some (cyc, t, missing) =>
      if !x.done || (s.ctx k).cls ≠ 0 || segState s g ≠ 7 then s
      else
        let s := reachAt at' s
        let apply := ((activeEnts s g 3).find? fun e => e.node == nd && e.ax == ax).elim 0 fun e => e.apply
        let (d, s) := descriptor k apply s
        let ctl := ctlOf s k
        let s := s.setAxn k { s.axn k with done := false, unsent := false, rel := none, cmd := some { cyc := cyc, ctl := ctl, body := d } }
        let s := if missing then s else showTurnaround k ((instant s at' - t) / 256).toNat s
        sendLine g tDIRECT nd (beOf 1 nd ++ beOf 1 (ax * 16) ++ beOf 2 cyc ++ beOf 1 ctl ++ List.replicate 3 0 ++ d) s
    | _, _ => s)

end Sys2Proof.Machine
end

