-- ==== Sys2Proof/Machine/Segments.lean ====
section
/-! DEFINITION. Segment states, enumeration, download, service traffic, node replacement and the generation switch (sections 9.2, 9.4, 9.6, 9.7), and link-delay measurement (R348). -/

namespace Sys2Proof.Machine
open R

/-- ENUM operations of Table 8.12. -/
def eDISCOVER : Nat := 1
def eIDENT : Nat := 2
def eASSIGN : Nat := 3
def eSCHED : Nat := 4

/-! ### The turn queue of the arbitrating windows (R326) -/

/-- A frame waits for the segment's next arbitrating window. -/
def enqueue (g typ : Nat) (pay : List (BitVec 8)) (s : State) : State :=
  let x := s.seg g
  s.setSeg g { x with todo := x.todo ++ [{ typ := typ, pay := pay }] }

/-- ENUM DISCOVER with POS = 0 (R334). -/
def discoverPay : List (BitVec 8) := beOf 1 eDISCOVER ++ beOf 1 0

/-- ENUM ASSIGN (Table 8.12). -/
def assignPay (addr serial : Nat) : List (BitVec 8) :=
  beOf 1 eASSIGN ++ beOf 1 0 ++ beOf 1 addr ++ beOf 1 0 ++ beOf 4 serial

/-- The blocks of an extract (R336). -/
def extractBlocks (n sgen : Nat) (x : List (BitVec 8)) : List (List (BitVec 8)) :=
  let cnt := max 1 ((x.length + 1023) / 1024)
  (List.range cnt).map fun b =>
    beOf 1 eSCHED ++ beOf 1 n ++ beOf 2 sgen ++ beOf 2 b ++ beOf 2 cnt ++ beBytes (crc32c x) ++ (x.drop (1024 * b)).take 1024

/-- A node's extract of a generation. -/
def extractOf (x : SchedGen) (n : Nat) : List (BitVec 8) := (x.extract.find? (·.1 == n)).elim [] (·.2)

/-- The extract of a generation for a node waits for the windows. -/
def download (g n : Nat) (x : SchedGen) (s : State) : State :=
  (extractBlocks n x.sgen (extractOf x n)).foldl (fun s p => enqueue g tENUM p s) s

/-- The poll-table entry j of a segment (R325). -/
def pollEnt (s : State) (g j : Nat) : Word := rd s (POLL_TABLE g j)

/-- The next entry from j, wrapping once, that is VALID and whose node asks for service. -/
def nextPoll (s : State) (g j : Nat) : Option Nat :=
  ((List.range 256).map fun i => (j + i) % 256).find? fun e =>
    let w := pollEnt s g e
    fieldOf w POLL_TABLE_VALID == 1 && (s.node (fieldOf w POLL_TABLE_NODE)).req

/-- The round trip to a node in ns. -/
def rttOf (s : State) (n : Nat) : Nat :=
  match s.net.gen with
  | some x => (x.rtt.find? (·.1 == n)).elim 0 (·.2)
  | none => 0

/-- Serve a window from an instant on (R326): the head's own turns first, then the polls in rotation. Whether the service receive buffers have room the spec leaves open: a free choice. -/
def serve (g : Nat) : Nat → Nat → State → State
  | 0, _, s => s
  | fuel + 1, now, s =>
    let x := s.seg g
    match x.window, x.poll with
    | some stop, none =>
      match x.todo with
      | t :: rest =>
        let w := wireNs s g t.pay.length
        if stop < now + w then s.setSeg g { x with window := none }
        else serve g fuel (now + w) (sendLine g t.typ 0xFF t.pay (s.setSeg g { x with todo := rest }))
      | [] =>
        match nextPoll s g x.next with
        | none => s.setSeg g { x with window := none }
        | some e =>
          let n := fieldOf (pollEnt s g e) POLL_TABLE_NODE
          let grant := fieldOf (pollEnt s g e) POLL_TABLE_GRANT
          let need := wireNs s g 4 + rttOf s n + wireNs s g (grant + 4) + 96
          if stop < now + need then s.setSeg g { x with window := none, next := e }
          else
            let (full, s) := takeFreeBool s
            if full then serve g fuel now (s.setSeg g { x with next := (e + 1) % 256 })
            else
              let s := s.setSeg g { x with poll := some (e, n), pseq := (x.pseq + 1) % 256 }
              sendLine g tPOLL n (beOf 1 n ++ beOf 1 x.pseq ++ beOf 2 grant) s
    | _, _ => s

/-- The number of turns one call of `serve` can take. -/
def serveFuel (s : State) (g : Nat) : Nat := (s.seg g).todo.length + 257

/-- ARB_WINDOW of an entry; before SYNC and in SVC_ONLY the rest of the cycle after REF is one window (Table 9.3). -/
def execArbWindow (g : Bool) (i : BitVec 10) (s : State) : Host.Outcome State Fault Refusal :=
  let j := g.toNat
  let st := segState s j
  let e := schedEnt s j i.toNat
  .next (if st = 4 || st = 5 || st = 8 then
      let now := wireNs s j 24
      let s := s.setSeg j { s.seg j with window := some (tb s) }
      serve j (serveFuel s j) now (setNow (s.time.start + now) s)
    else if (st = 6 || st = 7) && e.kind = 5 && entActive s e then
      let s := s.setSeg j { s.seg j with window := some (e.start + e.span) }
      serve j (serveFuel s j) e.start (setNow (s.time.start + e.start) s)
    else s)

/-- The poll under way ends; the window goes on at an instant (R326). -/
def pollEnd (g ofs : Nat) (s : State) : State :=
  let x := s.seg g
  match x.poll with
  | some (e, _) =>
    let s := s.setSeg g { x with poll := none, next := (e + 1) % 256 }
    serve g (serveFuel s g) (ofs / 256) s
  | none => s

/-- POLL_TIMEOUT (R327). -/
def execPollTimeout (g : Bool) (at' : Nat) (s : State) : Host.Outcome State Fault Refusal :=
  let j := g.toNat
  .next (match (s.seg j).poll with
    | some (_, n) =>
      let s := reachAt at' s
      pollEnd j at' (w1cSet NET_STATUS NET_STATUS_POLLTO n (fincWrap s (NODE_CNT n) NODE_CNT_POLL_TO))
    | none => s)

/-- SVC_RX (R327): an answer of the polled node inside the window is kept; without MORE it ends the turn. -/
def execSvcRx (r : Rx) (s : State) : Host.Outcome State Fault Refusal :=
  let p := r.port.n
  let g := p / 2
  .next (if !rxOpen s r.port then s
    else if r.pay.length < 4 then countBad p .len s
    else
      let s := reachAt r.last s
      let (first, s) := selectCopy tSVC r s
      match (s.seg g).poll with
      | some (_, n) =>
        if !first || n ≠ r.src.toNat || (s.seg g).window.isNone then s
        else
          let s := s.setSeg g { s.seg g with svc := r.pay }
          if (payN r.pay 2 1).testBit 6 then s else pollEnd g r.last s
      | none => s)

/-! ### Link delay (R348) -/

/-- The time of a DELAY field in 2^-8 ns. -/
def delayT (t : BitVec 64) : Int := t.toNat * 256

/-- DELAY frames may be sent: freely in state DELAY, later in arbitrating windows, on MIR at any time (R316). -/
def delayOpen (s : State) (p : Nat) : Bool :=
  p == 4 || segState s (p / 2) == 2 || (s.seg (p / 2)).window.isSome

/-- The payload of a DELAY frame (Table 8.13). -/
def delayPay (op seq : Nat) (t1 t2 t3 : Nat) : List (BitVec 8) :=
  beOf 1 op ++ beOf 1 seq ++ beOf 2 0 ++ beOf 8 t1 ++ beOf 8 t2 ++ beOf 8 t3

/-- DELAY_REQUEST: a request that leaves at an instant. -/
def execDelayRequest (p : NetPort) (at' : Nat) (s : State) : Host.Outcome State Fault Refusal :=
  let x := s.link p.n
  .next (if lstate s p.n < 6 || x.dreq.isSome || !delayOpen s p.n then s
    else
      let s := reachAt at' s
      let seq := (x.dseq + 1) % 256
      let s := s.setLink p.n { x with dseq := seq, dreq := some (seq, instant s at') }
      sendHop p.n tDELAY (delayPay 1 seq (instant s at' / 256).toNat 0 0) s)

/-- DELAY_RX: a request is answered with T2, its arrival, and T3, the departure of the answer; a response ends the exchange under way. -/
def execDelayRx (p : NetPort) (op seq : BitVec 8) (t1 t2 t3 : BitVec 64) (at' answer : Nat) (s : State) :
    Host.Outcome State Fault Refusal :=
  let k := p.n
  .next (if lstate s k < 6 then s
    else
      let s := reachAt at' s
      if op = 1#8 then
        sendHop k tDELAY (delayPay 2 seq.toNat t1.toNat (instant s at' / 256).toNat (instant s answer / 256).toNat) s
      else
        let x := s.link k
        match x.dreq with
        | some (q, own) =>
          if op ≠ 2#8 || q ≠ seq.toNat then s
          else
            let d := (instant s at' - own) - (delayT t3 - delayT t2)
            let ds := (d :: x.dels).take 16
            let s := s.setLink k { x with dreq := none, dels := ds }
            if k < 4 then wrN s (PORT_DELAY k) (ux 32 (rhu ds.sum (2 * ds.length))) else s
        | none => s)

/-- DELAY_TIMEOUT. -/
def execDelayTimeout (p : NetPort) (s : State) : Host.Outcome State Fault Refusal :=
  .next (s.setLink p.n { s.link p.n with dreq := none })

/-! ### Enumeration and download (R333 to R337) -/

/-- The node list of a segment. -/
def listed (s : State) (g : Nat) : List NodeEnt := s.net.nodes.filter fun e => e.seg == g

/-- ROLE and rank of the head (R351): the leading head has rank 0. -/
def role (s : State) : Nat := fget s TIME_STATUS TIME_STATUS_ROLE
def rank (s : State) : Nat :=
  if fbit s PAIR_CTRL PAIR_CTRL_PAIR_EN && fget s PAIR_STATUS PAIR_STATUS_STATE != 2 then 1 else 0

/-- A role of the time unit has been taken: master, or locked slave (Table 9.3). -/
def timed (s : State) : Bool := role s == 1 || (role s == 2 && fbit s TIME_STATUS TIME_STATUS_LOCK)

/-- A segment enters ENUM. -/
def enterEnum (g : Nat) (s : State) : State :=
  setSegState g 4 (s.setSeg g { s.seg g with disc := [], prev := none, todo := [{ typ := tENUM, pay := discoverPay }] })

/-- The segments in LISTEN go on once the head has its time role. -/
def listenDone (s : State) : State :=
  if timed s then eachN [0, 1] (fun g s => if segState s g = 3 then enterEnum g s else s) s else s

/-- The nodes of a segment in a state. -/
def nodesIn (s : State) (g st : Nat) : List Nat := ((listed s g).map (·.addr)).filter fun n => nodeState s n == st

/-- A node becomes ABSENT (R335, R337). -/
def makeAbsent (g n : Nat) (s : State) : State :=
  let s := setNodeState n 1 s
  if segState s g = 6 || segState s g = 7 then axesMissing g n s else s

/-- SYNC begins: the schedule is in force; the axes of ABSENT nodes take the FBMISS reaction. -/
def enterSync (g : Nat) (s : State) : State :=
  let s := setSegState g 6 (s.setSeg g { s.seg g with sync := 0, todo := [], window := none, poll := none })
  let s := eachN (nodesIn s g 3) (fun n s => s.setNode n { s.node n with run := 0, miss := 0 }) s
  eachN (nodesIn s g 1) (axesMissing g) s

/-- DOWNLOAD ends when every addressed node has acknowledged or failed (Table 9.3). -/
def judgeDownload (g : Nat) (s : State) : State :=
  if segState s g = 5 && (nodesIn s g 3).all (fun n => (s.node n).acked) then enterSync g s else s

/-- A download to a node has failed: again, or after the third ABSENT; in an adoption LOST (R335, R339). -/
def downloadFailed (g n : Nat) (s : State) : State :=
  let x := s.node n
  let s := s.setNode n { x with fails := x.fails + 1 }
  if nodeState s n = 6 then w1cSet NET_STATUS NET_STATUS_LOST n (setNodeState n 5 s)
  else if 3 ≤ x.fails + 1 then makeAbsent g n s
  else match s.net.gen with
    | some y => download g n y s
    | none => s

/-- DOWNLOAD begins: listed positions without a node are ABSENT, each addressed node receives its extract. -/
def enterDownload (g : Nat) (s : State) : State :=
  let s := eachN (nodesIn s g 0) (makeAbsent g) s
  let s := setSegState g 5 s
  let s := match s.net.gen with
    | some y => eachN (nodesIn s g 3) (fun n s => download g n y (s.setNode n { s.node n with fails := 0, acked := false })) s
    | none => s
  judgeDownload g s

/-- DISCOVER_ROUND (R334): every 1 ms in ENUM; two equal rounds end ENUM. In DOWNLOAD a round finds the downloads that were sent and not acknowledged. -/
def execDiscoverRound (g : Bool) (s : State) : Host.Outcome State Fault Refusal :=
  let j := g.toNat
  let x := s.seg j
  .next (if segState s j = 4 then
      if x.prev = some x.disc then
        if s.net.gen.isSome && !fbit s NET_STATE NET_STATE_SVC_ONLY then enterDownload j s else s
      else enqueue j tENUM discoverPay (s.setSeg j { x with prev := some x.disc, disc := [], linkUp := false })
    else if segState s j = 5 && x.todo = [] then
      judgeDownload j (eachN (nodesIn s j 3) (fun n s => if (s.node n).acked then s else downloadFailed j n s) s)
    else if segState s j = 8 then enqueue j tENUM discoverPay s
    else s)

/-- An IDENT: the node list is looked up by segment and position (R334, R335, R339). -/
def ident (g : Nat) (r : Rx) (s : State) : State :=
  let pos := payN r.pay 1 1
  let serial := payN r.pay 4 4
  let ntype := payN r.pay 8 2
  let src := r.src.toNat
  let x := s.seg g
  let a := (pos, serial, ntype, src)
  let s := if x.disc.contains a then s else
    s.setSeg g { x with disc := (x.disc.filter fun b => decide (b.1 < pos)) ++ [a] ++ (x.disc.filter fun b => decide (pos ≤ b.1)) }
  let alien (s : State) : State := w1cSet NET_STATUS NET_STATUS_ALIEN pos (s.setSeg g { s.seg g with alien := true })
  match (listed s g).find? fun e => e.pos == pos with
  | none => if src = 0xFE then alien s else s
  | some e =>
    let n := e.addr
    let st := nodeState s n
    let s := fset (fset (fset s (NODE_INFO n) NODE_INFO_POS pos) (NODE_INFO n) NODE_INFO_SEG g) (NODE_INFO n) NODE_INFO_NTYPE ntype
    if e.ntype ≠ ntype then alien (setNodeState n 2 s)
    else
      let s := s.setNode n { s.node n with serial := serial, maxver := payN r.pay 2 1, fwver := payN r.pay 10 2,
                                           fwd := payN r.pay 12 2, nax := payN r.pay 14 1, nin := payN r.pay 15 1 }
      let s := eachN (if src = 0xFE then nodeAxes s g n else []) (fun k s => s.setFb k { s.fb k with got := false }) s
      let s := if src = 0xFE then enqueue g tENUM (assignPay n serial) s else s
      let seg := segState s g
      if seg = 4 || seg = 8 then setNodeState n 3 s
      else if (seg = 6 || seg = 7) && (st = 1 || st = 2 || st = 5) then
        let s := setNodeState n 6 (s.setNode n { s.node n with fails := 0, acked := false, run := 0, miss := 0 })
        match s.net.gen with
        | some y => download g n y s
        | none => s
      else s

/-- An acknowledgement of a download (R336): it must carry every block and the CRC of the extract. -/
def schedAck (g : Nat) (r : Rx) (s : State) : State :=
  let n := r.src.toNat
  let good (y : SchedGen) : Bool :=
    payN r.pay 2 2 == y.sgen && payN r.pay 4 2 == payN r.pay 6 2 &&
      payN r.pay 6 2 == (extractBlocks n y.sgen (extractOf y n)).length && payN r.pay 8 4 == (crc32c (extractOf y n)).toNat
  let x := s.node n
  let isNext := s.net.next.any fun y => y.sgen == payN r.pay 2 2
  if isNext then
    if s.net.next.any good then s.setNode n { x with ackNext := true }
    else match s.net.next with
      | some y => download g n y s
      | none => s
  else if s.net.gen.any good then judgeDownload g (s.setNode n { x with acked := true })
  else if segState s g = 5 || nodeState s n = 6 then judgeDownload g (downloadFailed g n s)
  else s

/-- ENUM_RX. -/
def execEnumRx (r : Rx) (s : State) : Host.Outcome State Fault Refusal :=
  let p := r.port.n
  let g := p / 2
  let op := payN r.pay 0 1
  .next (if !rxOpen s r.port then s
    else if (op = eIDENT && r.pay.length < 16) || (op = eSCHED && r.pay.length < 12) || r.pay.length < 2 then countBad p .len s
    else
      let s := reachAt r.last s
      let (first, s) := selectCopy tENUM r s
      if !first || segState s g < 4 then s
      else if op = eIDENT then ident g r s
      else if op = eSCHED && r.src.toNat < 128 then schedAck g r s
      else s)

/-! ### Segment states (Table 9.3) -/

/-- A head takes its role when the network starts (R363): a single head and a rank 0 head request the lead, a head whose partner leads is standby. -/
def roleTake (s : State) : State :=
  let st := fget s PAIR_STATUS PAIR_STATUS_STATE
  if !fbit s PAIR_CTRL PAIR_CTRL_PAIR_EN then { s with pair.req := true }
  else if st ≠ 0 && st ≠ 1 then s
  else if s.pair.edge then fset s PAIR_STATUS PAIR_STATUS_STATE 3
  else if fbit s PAIR_STATUS PAIR_STATUS_STRAP then { fset s PAIR_STATUS PAIR_STATUS_STATE 1 with pair.wait := true }
  else fset { s with pair.req := true } PAIR_STATUS PAIR_STATUS_STATE 2

/-- A segment starts from OFF (R333). -/
def startSeg (g : Nat) (s : State) : State :=
  if segState s g ≠ 0 then s
  else
    let s := setSegState g 1 (roleTake s)
    let s := eachN [2 * g, 2 * g + 1] (fun p s => fput s (PORT_CTRL p) PORT_CTRL_EN true) s
    linksDone g s

/-- A DISCOVER at the next window of each segment that enumerates (R339). -/
def rediscover (g : Nat) (s : State) : State :=
  if 4 ≤ segState s g then enqueue g tENUM discoverPay (s.setSeg g { s.seg g with linkUp := false, disc := [] }) else s

/-- The switch of generation may be armed (R322). -/
def switchOk (s : State) : Bool :=
  s.net.next.isSome && !mirrorDown s &&
    s.net.nodes.all fun e => !(nodeState s e.addr == 3 || nodeState s e.addr == 4) || (s.node e.addr).ackNext

/-- A write of NET_CMD (Table 9.8). -/
def netCmdEff (v : Word) : Eff := fun s =>
  if wbit v 8 && !switchOk s then none
  else
    let s := if wbit v 0 then startSeg 0 s else s
    let s := if wbit v 1 then startSeg 1 s else s
    let s := if wbit v 2 then rediscover 1 (rediscover 0 s) else s
    some (if wbit v 8 then { s with net.armed := true } else s)

/-- A write of NET_CFG: ignored and recorded while any segment is past OFF (R357). -/
def netCfgEff (v : Word) : Eff := fun s =>
  if segState s 0 = 0 && segState s 1 = 0 then plainEff NET_CFG v s else some (sedRule NET_CFG s)

/-- SEGMENT_START. -/
def execSegmentStart (w : Who) (g : Bool) (s : State) : Host.Outcome State Fault Refusal :=
  let v : Word := if g then 2 else 1
  .next (gated w NET_CMD v (netCmdEff v) s)

/-- REDISC. -/
def execRedisc (w : Who) (s : State) : Host.Outcome State Fault Refusal := .next (gated w NET_CMD 4 (netCmdEff 4) s)

/-- SWITCH. -/
def execSwitch (w : Who) (s : State) : Host.Outcome State Fault Refusal := .next (gated w NET_CMD 0x100 (netCmdEff 0x100) s)

/-- 30 ms after the entry into LINKS. -/
def linksTimeout (g : Nat) (s : State) : State :=
  if segState s g ≠ 1 then s
  else setSegState g (if lstate s (2 * g) = 6 || lstate s (2 * g + 1) = 6 then 2 else 8) s

/-- DELAY_STATE_END. -/
def execDelayStateEnd (g : Bool) (s : State) : Host.Outcome State Fault Refusal :=
  let j := g.toNat
  .next (if segState s j ≠ 2 then s
    else
      let s := setSegState j 3 s
      let s := if role s = 0 then fset s TIME_STATUS TIME_STATUS_ROLE 3 else s
      listenDone s)

/-- Axis contexts take the MODE of the SYSTEM section; one given AUTO waits for its zone (R434). -/
def takeModeOf (l : List Nat) (s : State) : State :=
  eachN l (fun k s =>
    match s.boot.modes.find? fun m => m.1 == k with
    | some (_, m) =>
      if m = 2 then { s with boot.autoWait := k :: s.boot.autoWait.filter (· != k) }
      else (axCtrlEff k (withField (rd s (AX_CTRL k)) AX_CTRL_MODE m) s).getD s
    | none => s) s

/-- When a segment enters RUN each axis context on it takes its MODE (R434). -/
def takeModes (g : Nat) (s : State) : State :=
  takeModeOf ((usedAxes s).filter fun k => (s.ctx k).node.any fun x => x.1 == g) s

/-- Phase 7 (R431): every segment in use has reached RUN; the axes on no segment take their MODE with it. -/
def bootSuccess (s : State) : State :=
  if fget s BOOT_STATUS BOOT_STATUS_PHASE = 6 && s.net.used.all (fun g => segState s g == 7) then
    let s := fset (fput s BOOT_STATUS BOOT_STATUS_BOOT_OK true) BOOT_STATUS BOOT_STATUS_PHASE 7
    let s := fset (fset s BOOT_STATUS BOOT_STATUS_BOOT_CNT 0) BOOT_TIME BOOT_TIME_RUN (min 65535 (s.time.ns / 1000000))
    startTornErase (takeModeOf ((usedAxes s).filter fun k => (s.ctx k).node.isNone) s)
  else s

/-- Basic cycles SYNC lasts at least; SYNC_MUL 0 acts as 1. -/
def syncLen (s : State) : Nat := 256 * max 1 (fget s NET_CFG NET_CFG_SYNC_MUL)

/-- SYNC_END (R337): at a round start with every ADDRESSED node in its windows. -/
def syncEnd (g : Nat) (s : State) : State :=
  if segState s g = 6 && syncLen s ≤ (s.seg g).sync && roundIdx s = 0 && (nodesIn s g 3).all (fun n => 64 ≤ (s.node n).run) then
    let s := eachN (nodesIn s g 3) (setNodeState · 4) s
    bootSuccess (takeModes g (setSegState g 7 s))
  else s

/-- SYNC_END. -/
def execSyncEnd (g : Bool) (s : State) : Host.Outcome State Fault Refusal := .next (syncEnd g.toNat s)

/-- SYNC_NODE_TIMEOUT (R337). -/
def execSyncNodeTimeout (n : BitVec 7) (s : State) : Host.Outcome State Fault Refusal :=
  let k := n.toNat
  let g := fget s (NODE_INFO k) NODE_INFO_SEG
  .next (if segState s g = 6 && nodeState s k = 3 && syncLen s + 1024 ≤ (s.seg g).sync && (s.node k).run < 64 then
      makeAbsent g k (w1cSet NET_STATUS NET_STATUS_SYNC_LATE k s)
    else s)

/-- NODE_LOST (R338). -/
def execNodeLost (n : BitVec 7) (s : State) : Host.Outcome State Fault Refusal := .next (judgeLost n.toNat s)

/-- REDISCOVER (R339): every 1,024 basic cycles, on each segment with a node ABSENT, LOST or ALIEN or a link that has come up. -/
def execRediscover (s : State) : Host.Outcome State Fault Refusal :=
  .next (eachN [0, 1] (fun j s =>
    if (s.seg j).alien || (s.seg j).linkUp || !(nodesIn s j 1 ++ nodesIn s j 2 ++ nodesIn s j 5).isEmpty then rediscover j s else s) s)

/-- NODE_ADOPTED (R339). -/
def execNodeAdopted (n : BitVec 7) (s : State) : Host.Outcome State Fault Refusal :=
  let k := n.toNat
  .next (if nodeState s k = 6 && (s.node k).acked && 256 ≤ (s.node k).run then
      w1cSet NET_STATUS NET_STATUS_ADOPT k (setNodeState k 4 s)
    else s)

/-! ### The generation switch (R322) -/

/-- A generation comes into force: tables, poll tables, SGEN; links are judged against it (R292). -/
def loadGen (x : SchedGen) (s : State) : State :=
  let s := x.tables.foldl (fun s t => wrAll (SCHED_TABLE t.1) 0 ((t.2 ++ List.replicate 4096 0).take 4096) s) s
  let s := x.polls.foldl (fun s t => wrAll (POLL_TABLE t.1) 0 ((t.2 ++ List.replicate 256 0).take 256) s) s
  let s := fset { s with net.gen := some x } NET_SGEN NET_SGEN_ACTIVE x.sgen
  eachN [0, 1, 2, 3] rejudge s

/-- The next generation comes into force. -/
def takeNext (s : State) : State :=
  match s.net.next with
  | some x =>
    let s := loadGen x { s with net.next := none, net.armed := false }
    let s := eachN (s.net.nodes.map (·.addr)) (fun n s => s.setNode n { s.node n with acked := (s.node n).ackNext, ackNext := false }) s
    fset s NET_SGEN NET_SGEN_NEXT 0
  | none => s

/-- A next generation is installed from the image and downloaded to the nodes in service (R322). -/
def offerNext (x : SchedGen) (s : State) : State :=
  let s := fset { s with net.next := some x, net.armed := false } NET_SGEN NET_SGEN_NEXT x.sgen
  eachN (s.net.nodes.map (·.addr)) (fun n s =>
    let g := fget s (NODE_INFO n) NODE_INFO_SEG
    let s := s.setNode n { s.node n with ackNext := false }
    if nodeState s n = 4 || nodeState s n = 3 then download g n x s else s) s

/-- SCHED_SWITCH_APPLY: at the first round start after SWITCH. -/
def switchApply (s : State) : State := if s.net.armed && roundIdx s = 0 then takeNext s else s

/-- SCHED_SWITCH_APPLY. -/
def execSchedSwitchApply (s : State) : Host.Outcome State Fault Refusal := .next (switchApply s)

end Sys2Proof.Machine
end

