-- ==== Sys2Proof/Machine/TimeUnit.lean ====
section
/-! DEFINITION. The time unit: reference messages, the servo, time masters and the IEEE 1588 clock (sections 9.8 to 9.11). -/

namespace Sys2Proof.Machine
open R

/-! ### TIME_NS and the era (R341, R342) -/

/-- TIME_WRAP: the wrap of TIME_NS inside the present basic cycle. -/
def execTimeWrap (s : State) : Host.Outcome State Fault Refusal :=
  let w := (s.time.ns / 2 ^ 32 + 1) * 2 ^ 32
  .next (if w ≤ s.time.start + tb s then setNow w s else s)

/-- ERA_UPDATE: the steward adds WRAP_PEND to TIME_ERA and takes it from WRAP_PEND; their sum stands. -/
def execEraUpdate (s : State) : Host.Outcome State Fault Refusal :=
  .next (fset s TIME_STATUS TIME_STATUS_WRAP_PEND 0)

/-- INC_BASE, Q8.32 ns. -/
def incBase (s : State) : Nat := rdN s TIME_INC_LO + fget s TIME_INC_HI TIME_INC_HI_INT * 2 ^ 32

/-- The increment in force: INC_BASE less adj, within 200 ppm (R349); a master applies no servo. -/
def applyInc (s : State) : State :=
  let b : Int := incBase s
  let lim := b * 200 / 1000000
  let adj := sx 32 (rdN s TIME_ADJ)
  { s with time.inc := (if role s = 2 then clampI (b - adj) (b - lim) (b + lim) else b).toNat }

/-! ### Master and slave (R345 to R354) -/

/-- Become master: rank and serial are this head's (R351). -/
def becomeMaster (s : State) : State :=
  let s := fset (fset s TIME_STATUS TIME_STATUS_ROLE 1) TIME_STATUS TIME_STATUS_MRANK (rank s)
  applyInc (wr { s with time.missed := 0 } TIME_MSERIAL Config.serial)

/-- Become slave of a master. -/
def becomeSlave (r : Nat) (serial : Nat) (s : State) : State :=
  let s := fset (fset s TIME_STATUS TIME_STATUS_ROLE 2) TIME_STATUS TIME_STATUS_MRANK r
  let s := fput s TIME_STATUS TIME_STATUS_LOCK false
  wrN { s with time.missed := 0, time.near := 0, time.far := 0, time.integ := 0 } TIME_MSERIAL serial

/-- The REF payload (Table 8.7): CORR is the departure offset the port writes. -/
def refPay (s : State) (dep : Nat) : List (BitVec 8) :=
  beOf 2 (cycNow s) ++ beOf 1 (roundIdx s) ++ beOf 1 (rank s * 64 + min 4 (fget s NET_CFG NET_CFG_TB) * 8) ++
    beOf 2 (fget s NET_SGEN NET_SGEN_ACTIVE) ++ beOf 2 0 ++ beOf 4 (s.time.start / 2 ^ 32) ++ beOf 4 s.time.start ++
    beOf 4 dep ++ beBytes Config.serial

/-- REF_TX (R345): within 4 ns of the basic-cycle start, on a segment that carries REF. -/
def execRefTx (g : Bool) (dep : BitVec 10) (s : State) : Host.Outcome State Fault Refusal :=
  .next (if role s = 1 && 4 ≤ segState s g.toNat then sendLine g.toNat tREF 0xFF (refPay s dep.toNat) s else s)

/-- LISTEN_END (R354, R356): no REF has been heard; the head sets T0 and sends. A standby that the interlock forbids keeps listening (R353). -/
def execListenEnd (s : State) : Host.Outcome State Fault Refusal :=
  .next (if role s ≠ 3 || !txEnable s then s
    else
      let s := if fbit s PTP_CTRL PTP_CTRL_FOLLOW && rank s = 0 && fget s PTP_STATUS PTP_STATUS_PSTATE = 3 && fbit s PTP_STATUS PTP_STATUS_PLOCK then
          let ns := ux 64 ((s.time.ns : Int) - sx 32 (rdN s PTP_OFS))
          { s with time.ns := ns, sch.sampled := ns / 128 }
        else s
      let t0 := (s.time.ns + tb s - 1) / tb s * tb s
      listenDone (becomeMaster { s with time.grid := some (t0, 0) }))

/-- One run of the servo (R349) with the offset in 2^-8 ns. -/
def servo (off : Int) (tx : Nat) (cyc : Nat) (s : State) : State :=
  let s := wrN s TIME_OFS (ux 32 (sat 32 off))
  let stepNs : Int := 100 * max 1 (fget s TIME_CTRL TIME_CTRL_STEP_NS)
  if stepNs * 256 < off.natAbs then
    let s := fput (w1cSet TIME_STATUS TIME_STATUS_STEP 0 s) TIME_STATUS TIME_STATUS_LOCK false
    setCyc cyc { s with time.ns := tx % 2 ^ 64, sch.sampled := tx % 2 ^ 64 / 128, time.start := tx % 2 ^ 64, time.integ := 0, time.near := 0, time.far := 0 }
  else
    let integ := clampI (s.time.integ + off) (-2 ^ 40) (2 ^ 40 - 1)
    let kp := fget s TIME_CTRL TIME_CTRL_KP_SH
    let ki := fget s TIME_CTRL TIME_CTRL_KI_SH
    let adj := (off * 2 ^ 24).fdiv (2 ^ kp) + (integ * 2 ^ 24).fdiv (2 ^ ki)
    let s := wrN { s with time.integ := integ } TIME_ADJ (ux 32 adj)
    let close := decide (off.natAbs ≤ 20 * 256)
    let near := if close then s.time.near + 1 else 0
    let far := if close then 0 else s.time.far + 1
    let s := { s with time.near := near, time.far := far }
    let s := if 64 ≤ near then fput s TIME_STATUS TIME_STATUS_LOCK true
      else if 4 ≤ far then fput s TIME_STATUS TIME_STATUS_LOCK false else s
    applyInc s

/-- This head stops leading after a conflict of two masters of equal rank (R385). -/
def dropLead (s : State) : State :=
  if fbit s PAIR_CTRL PAIR_CTRL_PAIR_EN then
    stopLead (w1cSet PAIR_STATUS PAIR_STATUS_DROP 0 (fset { s with pair.req := false } PAIR_STATUS PAIR_STATUS_STATE 8))
  else s

/-- A master judges a REF of another master (R352); true when it becomes its slave. -/
def judgeRank (r serial : Nat) (s : State) : Bool × State :=
  let own := rank s
  let yield (s : State) : State := becomeSlave r serial (w1cSet TIME_STATUS TIME_STATUS_YIELD 0 s)
  if r < own then (true, yield s)
  else if r = own then
    let s := w1cSet TIME_STATUS TIME_STATUS_RANKDUP 0 s
    if serial < Config.serial.toNat then (true, yield (dropLead s)) else (false, s)
  else (false, s)

/-- A slave uses a REF copy (R347, R349): SGEN, the servo, and the lead over a master of higher rank number (R354). -/
def useRef (r : Rx) (s : State) : State :=
  let pay := r.pay
  let mr := payN pay 3 1 / 64
  let tx : Nat := payN pay 8 4 * 2 ^ 32 + payN pay 12 4
  let off : Int := instant s r.first - ((tx : Int) * 256 + sx 32 (payN pay 16 4) + (rdN s (PORT_DELAY r.port.n) : Int))
  let s := fset (wrN { s with time.missed := 0 } TIME_MSERIAL (payN pay 20 4)) TIME_STATUS TIME_STATUS_MRANK mr
  let s := servo off tx (payN pay 0 2) s
  let s := if s.net.next.any fun x => x.sgen == payN pay 4 2 then takeNext s else s
  if fbit s TIME_STATUS TIME_STATUS_LOCK && rank s < mr && txEnable s then becomeMaster s else s

/-- REF_RX (R347, R352, R354): the first copy is used. -/
def execRefRx (r : Rx) (s : State) : Host.Outcome State Fault Refusal :=
  let p := r.port.n
  let mr := payN r.pay 3 1 / 64
  let serial := payN r.pay 20 4
  .next (if !rxOpen s r.port then s
    else if r.pay.length < 24 then countBad p .len s
    else
      let (first, s) := selectCopy tREF r s
      if !first then s
      else match role s with
        | 1 => let (y, s) := judgeRank mr serial s; if y then useRef r s else s
        | 2 => if mr ≤ fget s TIME_STATUS TIME_STATUS_MRANK || s.time.missed ≠ 0 then listenDone (useRef r s) else s
        | 3 => listenDone (useRef r (becomeSlave mr serial s))
        | _ => s)

/-- REF_WINDOW_MISS (R353). -/
def execRefWindowMiss (s : State) : Host.Outcome State Fault Refusal :=
  .next (if role s ≠ 2 then s
    else
      let s := w1cSet TIME_STATUS TIME_STATUS_REFMISS 0 (wrN s REF_MISS_CNT (rdN s REF_MISS_CNT + 1))
      { s with time.missed := s.time.missed + 1 })

/-- The configured ranks above a master's rank, up to the own one (R353). -/
def ranksBetween (s : State) (m own : Nat) : Nat :=
  ((own :: s.net.ranks).eraseDups.filter fun r => decide (m < r) && decide (r ≤ own)).length

/-- REF_BACKUP_START (R353): a backup goes on with CYC, grid and SGEN from its own time. -/
def execRefBackupStart (s : State) : Host.Outcome State Fault Refusal :=
  let k := ranksBetween s (fget s TIME_STATUS TIME_STATUS_MRANK) (rank s)
  .next (if role s = 2 && 0 < k && 3 * k ≤ s.time.missed && txEnable s then
      w1cSet TIME_STATUS TIME_STATUS_TAKEN 0 (becomeMaster s)
    else s)

/-! ### IEEE 1588 (R355, R356) -/

/-- The EUI-64 of a MAC address: its bytes 0 and 1, and 2 to 5. -/
def eui64 (hi lo : Nat) : BitVec 64 := BitVec.ofNat 64 (hi * 2 ^ 48 + lo / 2 ^ 24 * 2 ^ 40 + 0xFFFE * 2 ^ 24 + lo % 2 ^ 24)

/-- The clock identity: the EUI-64 of the MAC address. -/
def clockId : BitVec 64 := eui64 Config.macHi.toNat Config.macLo.toNat

/-- The head's own data set: the default values of IEEE 1588. -/
def ownDs : PtpDs := { prio1 := 128, cls := 248, acc := 0xFE, var := 0xFFFF, prio2 := 128, ident := clockId, steps := 0 }

/-- The order in which the default best master clock algorithm compares data sets: the better one is smaller. -/
def dsKey (d : PtpDs) : Nat :=
  (((((d.prio1.toNat * 2 ^ 8 + d.cls.toNat) * 2 ^ 8 + d.acc.toNat) * 2 ^ 16 + d.var.toNat) * 2 ^ 8 + d.prio2.toNat) * 2 ^ 64 +
    d.ident.toNat) * 2 ^ 16 + d.steps.toNat

def ptpState (s : State) : Nat := fget s PTP_STATUS PTP_STATUS_PSTATE
def setPtpState (x : Nat) (s : State) : State := fset s PTP_STATUS PTP_STATUS_PSTATE x

/-- domainNumber; values above 127 act as 127. -/
def ptpDomain (s : State) : Nat := min 127 (fget s PTP_CTRL PTP_CTRL_DOMAIN)

/-- A PTP message's common header and body, transport left to the port (IEEE 1588-2019, one-step, no flags). -/
def ptpMsg (s : State) (typ len seq : Nat) (corr : Nat) (log : Int) (body : List (BitVec 8)) : List (BitVec 8) :=
  beOf 1 typ ++ beOf 1 0x12 ++ beOf 2 len ++ beOf 1 (ptpDomain s) ++ beOf 1 0 ++ beOf 2 0 ++ beOf 8 corr ++ beOf 4 0 ++
    beOf 8 clockId.toNat ++ beOf 2 1 ++ beOf 2 seq ++ beOf 1 0 ++ beOf 1 (ux 8 log) ++ body

/-- A time in 2^-8 ns as the Timestamp of IEEE 1588: seconds and ns. -/
def ptpStamp (t : Int) : List (BitVec 8) :=
  let ns := (t / 256).toNat % 2 ^ 64
  beOf 6 (ns / 1000000000) ++ beOf 4 (ns % 1000000000)

/-- The fraction of a ns as a correctionField. -/
def ptpCorr (t : Int) : Nat := (t % 256 * 256).toNat

/-- logSyncInterval, limited to -4 to 1. -/
def syncLog (s : State) : Int := clampI (sx 4 (fget s PTP_CTRL PTP_CTRL_SYNC_LOG)) (-4) 1

/-- Send a PTP message from the management port. -/
def ptpSend (m : List (BitVec 8)) (s : State) : State := { s with time.ptp.tx := m }

/-- The port runs and its state allows work as slave or master. -/
def ptpMode (s : State) : Nat := fget s PTP_CTRL PTP_CTRL_MODE

/-- The port decides its state from the best foreign master (R355): modes slave only and master only apart. -/
def ptpDecide (s : State) : State :=
  match s.time.ptp.best with
  | some d =>
    if ptpMode s = 2 then setPtpState 2 s
    else if ptpMode s = 1 || dsKey d < dsKey ownDs then setPtpState 3 s
    else setPtpState 2 s
  | none => if ptpMode s = 2 then setPtpState 2 s else s

/-- Steer INC_BASE towards the grandmaster by at most SLEW_PPM; the amount the spec leaves open (R356). -/
def ptpSteer (ofs : Int) (s : State) : State :=
  if !(fbit s PTP_CTRL PTP_CTRL_FOLLOW && role s = 1 && rank s = 0 && ptpState s = 3 && fbit s PTP_STATUS PTP_STATUS_PLOCK) then s
  else
    let s := if 1000000 < ofs.natAbs then w1cSet PTP_STATUS PTP_STATUS_FAR 0 s else s
    let ppm := min 100 (max 1 (fget s PTP_CTRL PTP_CTRL_SLEW_PPM))
    let (w, s) := takeFree s
    let d := w.toNat % (4 * 2 ^ 32 * ppm / 1000000 + 1)
    let b : Nat := if ofs = 0 then 4 * 2 ^ 32 else if 0 < ofs then 4 * 2 ^ 32 - d else 4 * 2 ^ 32 + d
    applyInc (fset (wrN s TIME_INC_LO b) TIME_INC_HI TIME_INC_HI_INT (b / 2 ^ 32))

/-- The offset of a Sync with origin t1 and receipt t2, in 2^-16 ns: PTP_OFS and PLOCK follow. -/
def ptpOffset (t1 t2 : Int) (s : State) : State :=
  let p := s.time.ptp
  let ofs := rhu (t2 - t1 - p.delay) 65536
  let near := if ofs.natAbs ≤ 1000 then p.near + 1 else 0
  let s := wrN { s with time.ptp := { p with t12 := some (t1, t2), near := near, sync := none } } PTP_OFS (ux 32 (sat 32 ofs))
  ptpSteer ofs (fput s PTP_STATUS PTP_STATUS_PLOCK (decide (16 ≤ near)))

/-- A correctionField. -/
def corrOf (c : BitVec 64) : Int := c.toInt

/-- PTP_MESSAGE_RX. -/
def execPtpMessageRx (domain : BitVec 8) (m : PtpMsg) (at' : Nat) (s : State) : Host.Outcome State Fault Refusal :=
  .next (if !fbit s PTP_CTRL PTP_CTRL_EN || domain.toNat ≠ ptpDomain s then s
    else
      let s := reachAt at' s
      let s := if ptpState s = 0 then setPtpState 1 s else s
      let now := instant s at'
      let now16 := now * 256
      let p := s.time.ptp
      match m with
      | .announce ds =>
        if ds.ident = clockId then s
        else
          let better := match p.best with
            | some b => decide (dsKey ds < dsKey b) || b.ident == ds.ident
            | none => true
          ptpDecide (if better then { s with time.ptp := { p with best := some ds } } else s)
      | .sync seq two t1 corr =>
        if ptpState s ≠ 3 then s
        else if two then { s with time.ptp := { p with sync := some (seq.toNat, now16 - corrOf corr) } }
        else ptpOffset (t1.toNat * 65536 + corrOf corr) now16 s
      | .followUp seq t1 corr =>
        match p.sync with
        | some (q, t2) => if q = seq.toNat && ptpState s = 3 then ptpOffset (t1.toNat * 65536 + corrOf corr) t2 s else s
        | none => s
      | .delayReq who seq corr =>
        if ptpState s ≠ 2 || fbit s PTP_CTRL PTP_CTRL_P2P then s
        else ptpSend (ptpMsg s 9 54 seq.toNat (ux 64 (corrOf corr - ptpCorr now)) (syncLog s) (ptpStamp now ++ beOf 10 who.toNat)) s
      | .delayResp seq t4 corr =>
        match p.req, p.t12 with
        | some (q, t3), some (t1, t2) =>
          if q = seq.toNat && ptpState s = 3 then
            { s with time.ptp := { p with req := none, delay := ((t2 - t1) + (t4.toNat * 65536 - corrOf corr - t3)).fdiv 2 } }
          else s
        | _, _ => s
      | .pdelayReq who seq corr =>
        if !fbit s PTP_CTRL PTP_CTRL_P2P then s
        else ptpSend (ptpMsg s 3 54 seq.toNat (ux 64 (corrOf corr)) 0x7F (ptpStamp 0 ++ beOf 10 who.toNat)) s
      | .pdelayResp seq t2 corr =>
        match p.req with
        | some (q, t1) =>
          if q = seq.toNat then
            if t2 = 0 then { s with time.ptp := { p with req := none, delay := (now16 - t1 - corrOf corr).fdiv 2 } }
            else { s with time.ptp := { p with peer := some (t2.toNat * 65536 + corrOf corr, now16) } }
          else s
        | none => s
      | .pdelayFollow seq t3 corr =>
        match p.req, p.peer with
        | some (q, t1), some (t2, t4) =>
          if q = seq.toNat then
            { s with time.ptp := { p with req := none, peer := none, delay := ((t4 - t1) - (t3.toNat * 65536 + corrOf corr - t2)).fdiv 2 } }
          else s
        | _, _ => s)

/-- PTP_SYNC_TX: at its sync interval a port that has heard no better master is MASTER and sends a one-step Sync. -/
def execPtpSyncTx (at' : Nat) (s : State) : Host.Outcome State Fault Refusal :=
  .next (if !fbit s PTP_CTRL PTP_CTRL_EN then s
    else
      let s := if ptpState s ≤ 1 && ptpMode s ≠ 1 then setPtpState 2 s else s
      if ptpState s ≠ 2 then s
      else
        let s := reachAt at' s
        let p := s.time.ptp
        let now := instant s at'
        let s := { s with time.ptp := { p with syncSeq := (p.syncSeq + 1) % 2 ^ 16 } }
        ptpSend (ptpMsg s 0 44 p.syncSeq (ptpCorr now) (syncLog s) (ptpStamp now)) s)

/-- PTP_DELAY_REQUEST: a delay request of a slave, or a peer-delay request. -/
def execPtpDelayRequest (at' : Nat) (s : State) : Host.Outcome State Fault Refusal :=
  .next (if !fbit s PTP_CTRL PTP_CTRL_EN || (ptpState s ≠ 3 && !(fbit s PTP_CTRL PTP_CTRL_P2P && 1 ≤ ptpState s)) then s
    else
      let s := reachAt at' s
      let p := s.time.ptp
      let now := instant s at'
      let s := { s with time.ptp := { p with req := some (p.reqSeq, now * 256), peer := none, reqSeq := (p.reqSeq + 1) % 2 ^ 16 } }
      if fbit s PTP_CTRL PTP_CTRL_P2P then ptpSend (ptpMsg s 2 54 p.reqSeq 0 0x7F (ptpStamp now ++ beOf 10 0)) s
      else ptpSend (ptpMsg s 1 44 p.reqSeq 0 0x7F (ptpStamp now)) s)

/-- A write of PTP_CTRL (Table 9.12): the port starts in LISTENING and ends disabled. -/
def ptpCtrlEff (v : Word) : Eff := fun s =>
  let was := fbit s PTP_CTRL PTP_CTRL_EN
  match plainEff PTP_CTRL v s with
  | some t =>
    let on := fbit t PTP_CTRL PTP_CTRL_EN
    some (if on && !was then ptpDecide (setPtpState 1 { t with time.ptp := {} })
      else if !on then fput (setPtpState 0 { t with time.ptp := {} }) PTP_STATUS PTP_STATUS_PLOCK false
      else ptpDecide t)
  | none => none

end Sys2Proof.Machine
end

