-- ==== Sys2Proof/Machine/Pair.lean ====
section
/-! DEFINITION. Head pairs: the lead interlock, shadow compares, mirror transfers, takeover and return (chapter 10). -/

namespace Sys2Proof.Machine
open R

def pairEn (s : State) : Bool := fbit s PAIR_CTRL PAIR_CTRL_PAIR_EN
def pairState (s : State) : Nat := fget s PAIR_STATUS PAIR_STATUS_STATE
def setPairState (x : Nat) (s : State) : State :=
  let s := fset s PAIR_STATUS PAIR_STATUS_STATE x
  if x = 7 then w1cSet PAIR_STATUS PAIR_STATUS_SB_FAULT 0 s else s

/-- A standby that computes in shadow and compares: RESYNC, PROVING, VERIFIED (Table 10.1). -/
def shadowing (s : State) : Bool := pairEn s && (pairState s == 3 || pairState s == 4 || pairState s == 5)

def State.shadow (s : State) (n : Nat) : Shadow := tget {} s.pair.shadow n
def State.setShadow (s : State) (n : Nat) (x : Shadow) : State := { s with pair.shadow := tset {} s.pair.shadow n x }

/-! ### The lead interlock (R359 to R364) -/

/-- The lead conditions die S can judge at once (R359). -/
def leadOk (s : State) : Bool :=
  s.pair.req && !linkLost s && !s.edge.frozen && s.sch.started && !fbit s BOOT_STATUS BOOT_STATUS_MINIMAL

/-- LEAD_TOGGLE: LEAD_OUT changes level while all conditions hold. -/
def execLeadToggle (s : State) : Host.Outcome State Fault Refusal :=
  .next (if leadOk s then fput { s with pair.out := !s.pair.out } PAIR_STATUS PAIR_STATUS_LEAD true else s)

/-- LEAD_STOP: a condition fails, or no tick has reached die S for two basic cycles. -/
def execLeadStop (noTick : Bool) (s : State) : Host.Outcome State Fault Refusal :=
  .next (if !leadOk s || noTick then stopLead s else s)

/-- A head stops requesting the lead for good (R364, R385). -/
def enterDropped (s : State) : State :=
  stopLead (setPairState 8 (w1cSet PAIR_STATUS PAIR_STATUS_DROP 0 { s with pair.req := false }))

/-- LEAD_IN_EDGE (R360): the gap timer restarts; a leading head has lost the enable (R364). -/
def execLeadInEdge (s : State) : Host.Outcome State Fault Refusal :=
  .next (
    let leading := fbit s PAIR_STATUS PAIR_STATUS_LEAD
    let s := fput { s with pair.edge := true } PAIR_STATUS PAIR_STATUS_QUIET false
    if !leading then s
    else
      let s := if s.edge.frozen then s else holdOff s
      if !pairEn s then s
      else
        let own := fbit s PAIR_STATUS PAIR_STATUS_STRAP
        if s.pair.pstrap = some own then
          let s := w1cSet PAIR_STATUS PAIR_STATUS_STRAPDUP 0 s
          if lstate s 4 ≠ 6 then enterDropped s
          else if (rd s (PORT_PARTNER 4)).toNat < Config.serial.toNat then enterDropped s
          else s
        else if own then enterDropped s
        else s)

/-- PARTNER_QUIET (R360): no edge for the gap time; a standby whose partner's MIRROR frames still arrive sets LEAD_FLT (R385). -/
def execPartnerQuiet (mir : Bool) (s : State) : Host.Outcome State Fault Refusal :=
  .next (
    let s := fput { s with pair.edge := false } PAIR_STATUS PAIR_STATUS_QUIET true
    if pairEn s && 3 ≤ pairState s && mir then w1cSet PAIR_STATUS PAIR_STATUS_LEAD_FLT 0 s else s)

/-- LEAD_WAIT_END (R363). -/
def execLeadWaitEnd (s : State) : Host.Outcome State Fault Refusal :=
  .next (if !s.pair.wait then s
    else
      let s := { s with pair.wait := false }
      if s.pair.edge || s.pair.heard then setPairState 3 s
      else setPairState 2 { s with pair.req := true })

/-! ### Compares (R366 to R369, R387) -/

/-- Request an axis's tile in the next ACK (R370). -/
def want (n : Nat) (s : State) : State :=
  if s.pair.want.contains n then s else { s with pair.want := s.pair.want ++ [n] }

/-- An excused compare (R368). -/
def excuse (n : Nat) (s : State) : State := want n (fincWrap s PAIR_CNT PAIR_CNT_EXCUSED)

/-- A divergence counts; the standby may enter FAULTED (R369). -/
def countDivergence (s : State) : State :=
  let s := fincWrap (w1cSet PAIR_STATUS PAIR_STATUS_DIVERGE 0 s) PAIR_CNT PAIR_CNT_DIVERGE
  let s := fset { s with pair.divWin := s.pair.divWin + 1, pair.div := s.pair.div + 1 } PAIR_CLEAN PAIR_CLEAN_CLEAN 0
  if max 1 (fget s PAIR_CTRL PAIR_CTRL_DIV_LIM) ≤ s.pair.divWin then setPairState 7 s else s

/-- A divergence of an axis at a CYC (R369). -/
def diverge (n cyc : Nat) (s : State) : State :=
  let fresh := (s.shadow n).fresh
  let s := fset (fset (countDivergence s) PAIR_DIVAX PAIR_DIVAX_CYC cyc) PAIR_DIVAX PAIR_DIVAX_AXIS n
  let s := tileError (s.ctx n).region (want n s)
  if fresh then setPairState 7 s else s

/-- The result of a compare that is not excused. -/
def compared (n cyc : Nat) (same : Bool) (s : State) : State :=
  let s := { s with pair.cmp := s.pair.cmp + 1 }
  if same then s else diverge n cyc s

/-- The bytes of an own command that R366 compares: a descriptor without its SEQ, or REF. -/
def cmpBytes (b : List (BitVec 8)) : List (BitVec 8) :=
  b.take 6 ++ ((b.drop 6).take 1).map (· &&& 0x0F#8) ++ b.drop 7

/-- Compare the active head's command of an axis with the own one of the same CYC, when it exists (R366). -/
def matchCmd (e : Nat × Nat × Nat × List (BitVec 8)) (s : State) : Option State :=
  let (n, cyc, ctl, body) := e
  match (s.axn n).cmd with
  | some c =>
    if c.cyc = cyc then
      let own := if (s.ctx n).cls = 0 then cmpBytes c.body else c.body.take 4
      some (compared n cyc (c.ctl == ctl && own == body) s)
    else none
  | none => none

/-- Compare what can be compared; the rest waits. -/
def matchAll (s : State) : State :=
  s.pair.expect.foldl (fun s e =>
    match matchCmd e s with
    | some t => t
    | none => { s with pair.expect := s.pair.expect ++ [e] }) { s with pair.expect := [] }

/-- A command of the active head arrives at the standby. -/
def expectCmd (n cyc ctl : Nat) (body : List (BitVec 8)) (s : State) : State :=
  let e := (n, cyc, ctl, body)
  match matchCmd e s with
  | some t => t
  | none => { s with pair.expect := s.pair.expect ++ [e] }

/-- DIRECT_RX (R366, R381): the first valid copy; the SEQ seen on the wire is kept. -/
def execDirectRx (r : Rx) (s : State) : Host.Outcome State Fault Refusal :=
  .next (if !rxOpen s r.port then s
    else if r.pay.length < 40 then countBad r.port.n .len s
    else
      let s := reachAt r.last s
      let (first, s) := selectCopy tDIRECT r s
      if !first || !shadowing s then s
      else match nodeAxis s (r.port.n / 2) (payN r.pay 0 1) (payN r.pay 1 1 / 16) with
        | none => s
        | some k =>
          let s := s.setAxn k { s.axn k with seq := payN r.pay 14 1 / 16 }
          expectCmd k (payN r.pay 2 2) (payN r.pay 4 1) (cmpBytes (r.pay.drop 8)) s)

/-- The records of a train from byte 4, taken in turn by their RLEN; none when one does not lie whole within the payload (R302). -/
def trainRecords : Nat → List (BitVec 8) → Option (List (List (BitVec 8)))
  | 0, _ => some []
  | n + 1, b =>
    let len := payN b 2 1
    if b.length < 4 || len < 4 || len % 4 ≠ 0 || b.length < len then none
    else (trainRecords n (b.drop len)).map (b.take len :: ·)

/-- TRAIN_RX (R302, R366): CTL and REF of each class B record are compared. -/
def execTrainRx (r : Rx) (s : State) : Host.Outcome State Fault Refusal :=
  .next (if !rxOpen s r.port then s
    else match (if r.pay.length < 4 then none else trainRecords (payN r.pay 3 1) (r.pay.drop 4)) with
    | none => countBad r.port.n .len s
    | some recs =>
      let s := reachAt r.last s
      let (first, s) := selectCopy tTRAIN r s
      if !first || !shadowing s then s
      else recs.foldl (fun s b =>
        match nodeAxis s (r.port.n / 2) (payN b 0 1) (payN b 1 1 / 16) with
        | none => s
        | some k =>
          if payN b 1 1 % 16 = 3 && b.length = (if fourCh s k then 44 else 36) then
            s.setAxn k { s.axn k with seq := payN b 10 1 / 16 }
          else if payN b 1 1 % 16 = 1 && b.length = 16 && (s.ctx k).cls = 1 then
            expectCmd k (payN r.pay 0 2) (payN b 3 1) ((b.drop 4).take 4) s
          else s) s)

/-- COMPARE_TIMEOUT (R366): commands of an axis whose basic cycle after CYC has ended are excused. -/
def execCompareTimeout (n : Axis) (s : State) : Host.Outcome State Fault Refusal :=
  .next (
    let s := matchAll s
    let late (e : Nat × Nat × Nat × List (BitVec 8)) : Bool := e.1 == n.toNat && decide (2 ≤ dist 16 (cycNow s) e.2.1)
    let k := (s.pair.expect.filter late).length
    let s := { s with pair.expect := s.pair.expect.filter fun e => !late e }
    eachN (List.replicate k n.toNat) excuse s)

/-- A head keeps what its law task on an axis has left, for the digest and the compare (R367, R370). -/
def noteSample (n cyc : Nat) (miss : Bool) (i : LawIn) (s : State) : State :=
  if !pairEn s then s
  else s.setShadow n { cyc := cyc, w63 := (stateTile s n).getD 63 0, miss := miss, ran := true,
                       fresh := (s.shadow n).fresh, keep := some i }

/-- The partner's frames carry its address, whose last bit is its strap (Table 8.1). -/
def hearPartner (h : MirHdr) (s : State) : State :=
  { s with pair.heard := true, pair.pstrap := some (h.src.getLsbD 0) }

/-- A frame joins the transfer under reception (R374). -/
def rxFrame (h : MirHdr) (f : MirRx → MirRx) (s : State) : State :=
  let s := hearPartner h s
  let x : MirRx := match s.pair.rx with
    | some x => if x.mseq = h.mseq.toNat && h.fidx ≠ 0 then x else { mseq := h.mseq.toNat }
    | none => { mseq := h.mseq.toNat }
  { s with pair.rx := some (f { x with frames := x.frames + 1 }) }

/-- A port of the mirror link that receives. -/
def mirOpen (s : State) : Bool := pairEn s && lstate s 4 == 6

/-- MIRROR_DIGEST_RX (R367, R368). -/
def execMirrorDigestRx (h : MirHdr) (es : List (BitVec 8 × BitVec 8 × Word)) (s : State) : Host.Outcome State Fault Refusal :=
  .next (if !mirOpen s then s
    else
      let s := rxFrame h id s
      if !shadowing s then s
      else es.foldl (fun s e =>
        let n := e.1.toNat
        let x := s.shadow n
        if e.2.1.getLsbD 0 || x.miss || !x.ran || x.cyc ≠ h.mseq.toNat then excuse n s
        else
          let s := compared n x.cyc (x.w63 == e.2.2) s
          s.setShadow n { s.shadow n with fresh := false }) s)

/-! ### Tiles and records at the standby (R370, R374, R377, R378, R386) -/

/-- The generator record of an axis (R372). -/
def genRec (s : State) (n : Nat) : GenRec :=
  let g := s.gen n
  { p := g.p, v := g.v, a := g.a, rem := (g.cpl.map (·.rem)).getD 0, sh := g.shift.o,
    shTo := (g.shift.plan.map (·.target)).getD g.shift.o, mode := BitVec.ofNat 3 (gmode s n), queue := g.queue }

/-- Put a generator record in force; a plan is made again from it. -/
def putGenRec (n : Nat) (r : GenRec) (s : State) : State :=
  let g := s.gen n
  let cpl := g.cpl.map fun c => { c with rem := r.rem }
  let s := s.setGen n { g with p := r.p, v := r.v, a := r.a, pOut := r.p, vOut := r.v, aOut := r.a, next := none, cpl := cpl, plan := none,
                               shift := { g.shift with o := r.sh, plan := none, req := r.shTo - r.sh } }
  setGmode n r.mode.toNat (setQueue n r.queue s)

/-- Install a received tile in place of the own state (R370): as of the last own sample, or of the one before, which is then run again. -/
def installTile (n scyc : Nat) (t : List Word) (r : GenRec) (s : State) : State :=
  let x := s.shadow n
  let per := 2 ^ (s.ctx n).plog
  let age := dist 16 x.cyc scyc
  if x.ran && 2 * per ≤ age && age < 2 ^ 15 then want n s
  else
    let s := putGenRec n r (wrAll (STATE_TILE n) 0 t s)
    let s := match x.keep with
      | some i => if x.ran && per ≤ age && age < 2 ^ 15 then lawDone i (genSample n s) else s
      | none => s
    let s := s.setShadow n { s.shadow n with fresh := true }
    { s with pair.got := if pairState s = 3 && !s.pair.got.contains n then n :: s.pair.got else s.pair.got }

/-- MIRROR_TILE_RX: held until the transfer commits. -/
def execMirrorTileRx (h : MirHdr) (ax reason : BitVec 8) (scyc : BitVec 16) (tile : List Word) (gen : GenRec) (s : State) :
    Host.Outcome State Fault Refusal :=
  .next (if !mirOpen s then s
    else rxFrame h (fun x => { x with tiles := x.tiles ++ [(ax.toNat, reason.toNat, scyc.toNat, tile, gen)] }) s)

/-- MIRROR_RECORD_RX: held until the transfer commits. -/
def execMirrorRecordRx (h : MirHdr) (r : MirRec) (s : State) : Host.Outcome State Fault Refusal :=
  .next (if !mirOpen s then s else rxFrame h (fun x => { x with recs := x.recs ++ [r] }) s)

/-- MIRROR_KEEP_RX (R375). -/
def execMirrorKeepRx (h : MirHdr) (s : State) : Host.Outcome State Fault Refusal :=
  .next (if mirOpen s then hearPartner h s else s)

/-- The head's own angle block (Table 10.2). -/
def ownAngle (s : State) : MirAngle :=
  { key := BitVec.ofNat 64 (s.ang.key / 2 ^ 16), frac := BitVec.ofNat 16 s.ang.key,
    trust := BitVec.ofNat 8 (trust s 0 + 4 * trust s 1 + 16 * trust s 2), hold := fbit s MA_STATUS MA_STATUS_HOLD,
    speed := BitVec.ofNat 48 (ux 48 s.ang.speed), vm := BitVec.ofNat 48 (ux 48 s.ang.vm) }

/-- Load an angle block (R374). -/
def loadAngle (b : MirAngle) (s : State) : State :=
  let s := eachN [0, 1, 2] (fun n s => setTrust n (b.trust.toNat / 4 ^ n % 4) s) s
  let s := fput s MA_STATUS MA_STATUS_HOLD b.hold
  { s with ang.key := b.key.toNat * 2 ^ 16 + b.frac.toNat, ang.speed := b.speed.toInt, ang.vm := b.vm.toInt }

/-- This head's live key (R386): the law tiles, cam tile directory, recipe store, schedule and poll tables, lane code and descriptors, and the RWL fields of the mirrored blocks. -/
def lkey (s : State) : Word :=
  let live := s.regs.filter fun e =>
    (0x84000 ≤ e.1 && e.1 < 0x8C800) || (mirroredAddr e.1 && (findCls e.1).any fun c => c.rows.any (·.acc == .rwl))
  Config.liveKey (crcWords (live.flatMap fun e => [BitVec.ofNat 32 e.1, e.2]))

/-- The keys and levels of the pair differ (R386). -/
def keysDiffer (s : State) (k : Word) (level : Nat) : Bool := k != lkey s || level != fget s COMPAT COMPAT_LEVEL

/-- The mirror link has carried its first transfer or ACK after MIR returned to UP (R375, R384). -/
def mirUp (s : State) : State :=
  if fbit s PAIR_STATUS PAIR_STATUS_MIR_UP then { s with pair.since := 0 }
  else
    let s := fput { s with pair.since := 0 } PAIR_STATUS PAIR_STATUS_MIR_UP true
    if pairState s = 6 then setPairState 3 { s with pair.got := [] } else s

/-- MIRROR_COMMIT_RX (R374, R386). -/
def execMirrorCommitRx (h : MirHdr) (nfr : BitVec 16) (crcOk : Bool) (level : BitVec 8) (key : Word) (ang : MirAngle) (s : State) :
    Host.Outcome State Fault Refusal :=
  .next (if !mirOpen s || pairState s < 3 || 7 < pairState s then s
    else
      let s := hearPartner h s
      let x : MirRx := match s.pair.rx with
        | some x => if x.mseq = h.mseq.toNat then x else { mseq := h.mseq.toNat }
        | none => { mseq := h.mseq.toNat }
      let s := { s with pair.rx := none }
      let m := h.mseq.toNat
      let ok := crcOk && x.frames == nfr.toNat && (!s.pair.began || later 16 m (fget s PAIR_MSEQ PAIR_MSEQ_MSEQ))
      if !ok then s
      else
        let s := fset (wr (mirUp { s with pair.began := true }) PAIR_PLKEY key) PAIR_MSEQ PAIR_MSEQ_MSEQ m
        let s := wr { s with pair.plevel := level.toNat } PAIR_PSERIAL (rd s (PORT_PARTNER 4))
        if pairState s = 3 && keysDiffer s key level.toNat then w1cSet PAIR_STATUS PAIR_STATUS_KEYDIFF 0 s
        else
          let s := x.tiles.foldl (fun s t => installTile t.1 t.2.2.1 t.2.2.2.1 t.2.2.2.2 s) s
          let fresh := x.recs.filter fun (r : MirRec) => !(dist 32 s.pair.rseq r.rseq.toNat < 2 ^ 31)
          let s := { s with pair.held := s.pair.held ++ fresh.filter fun (r : MirRec) => !(s.pair.held.any fun q => q.rseq == r.rseq) }
          { s with pair.ang := some ((m + 1) % 2 ^ 16, ang) })

/-! ### Transfers of the active head (R371 to R373, R376 to R379) -/

/-- A MIRROR frame leaves MIR, gated as R360 sets out. -/
def sendMir (f : MirFrame) (s : State) : State :=
  let gate := match f with
    | .ack .. => true
    | _ => txEnable s
  if lstate s 4 = 6 && gate then
    wrN { s with pair.sent := s.pair.sent ++ [f] } (TX_FRAMES 4) (rdN s (TX_FRAMES 4) + 1)
  else s

/-- The wire bytes of a MIRROR frame with LEN bytes of payload (R297). -/
def mirWire (len : Nat) : Nat := len + len % 2 + 12

/-- The TILE frames of a transfer in order, with their reasons (R373, R379, R386). -/
def tilePlan (s : State) : List (Nat × Nat) :=
  let asked := (s.pair.asked.take (fget s PAIR_CTRL PAIR_CTRL_TILE_MAX)).map (·, 1)
  let rot := [(s.pair.rot, 0), ((s.pair.rot + 1) % 256, 0)]
  asked ++ rot ++ s.pair.changedC.map (·, 3) ++ (s.pair.copy.take 8).map (·, 2)

/-- The digest entries of a basic cycle: every class A and B axis sampled in it. -/
def digestOf (s : State) (cyc : Nat) : List (Nat × Nat × Word) :=
  (usedAxes s).filterMap fun n =>
    let x := s.shadow n
    if x.ran && x.cyc = cyc && (s.ctx n).cls ≠ 2 then
      some (n, x.miss.toNat + (if fget s (AX_STATUS n) AX_STATUS_REACT = 0 then 0 else 2), x.w63)
    else none

/-- Lists of at most k entries. -/
def chunks {α : Type} (k : Nat) : Nat → List α → List (List α)
  | 0, _ => []
  | f + 1, l => if l.isEmpty then [] else l.take k :: chunks k f (l.drop k)

/-- MIRROR_TRANSFER (R371 to R373, R377): digests, tiles, records, COMMIT; new records get their EFF_CYC. -/
def execMirrorTransfer (s : State) : Host.Outcome State Fault Refusal :=
  .next (if !pairEn s || pairState s ≠ 2 || lstate s 4 ≠ 6 || !txEnable s then s
    else
      let k := cycNow s
      let s := setNow (s.time.start + fget s PAIR_MIRSTART PAIR_MIRSTART_MIR_START) s
      let ds := digestOf s k
      let dch := if ds.isEmpty then [[]] else chunks 254 (ds.length + 1) ds
      let tiles := tilePlan s
      let recLen := s.pair.recs.foldl (fun a o => a + mirWire (20 + o.r.data.length)) 0
      let bytes := (dch.foldl (fun a d => a + mirWire (8 + 8 * d.length)) 0) + tiles.length * mirWire 332 + recLen + mirWire 44
      let stop := fget s PAIR_MIRSTART PAIR_MIRSTART_MIR_START + (bytes * 32 + 9) / 10 + 2000
      let eff := (k + (stop + tb s - 1) / tb s) % 2 ^ 16
      let recs := s.pair.recs.map fun o => if o.placed then o else { o with placed := true, r := { o.r with eff := BitVec.ofNat 16 eff } }
      let s := { s with pair.recs := recs, pair.sent := [] }
      let s := dch.foldl (fun s d => sendMir (.digest d) s) s
      let s := tiles.foldl (fun s t => sendMir (.tile t.1 t.2 (s.shadow t.1).cyc (stateTile s t.1) (genRec s t.1)) s) s
      let s := recs.foldl (fun s o => sendMir (.record o.r) s) s
      let s := sendMir (.commit (dch.length + tiles.length + recs.length) (fget s COMPAT COMPAT_LEVEL) (lkey s) (ownAngle s)) s
      let s := { s with pair.asked := s.pair.asked.drop (fget s PAIR_CTRL PAIR_CTRL_TILE_MAX), pair.rot := (s.pair.rot + 2) % 256,
                        pair.changedC := [], pair.copy := s.pair.copy.drop 8 }
      fset s PAIR_MSEQ PAIR_MSEQ_MSEQ k)

/-- MIRROR_KEEP_TX. -/
def execMirrorKeepTx (s : State) : Host.Outcome State Fault Refusal :=
  .next (if pairEn s && pairState s = 2 then sendMir .keep { s with pair.sent := [] } else s)

/-- MIRROR_ACK_TX: the standby's ACK, sent whatever the enable (R360). -/
def execMirrorAckTx (s : State) : Host.Outcome State Fault Refusal :=
  .next (if pairEn s && 3 ≤ pairState s && lstate s 4 = 6 then
      let reqs := s.pair.want.take 32
      let f : MirFrame := .ack (fget s PAIR_MSEQ PAIR_MSEQ_MSEQ) (pairState s) (BitVec.ofNat 32 s.pair.rseq) (lkey s) (fget s COMPAT COMPAT_LEVEL) reqs
      sendMir f { s with pair.sent := [], pair.want := s.pair.want.drop 32 }
    else s)

/-- The registers a full copy carries as records of KIND 0x1: every mirrored register that holds another value than at reset (R386). -/
def copyRegs (s : State) : List (Nat × Word) := s.regs.filter fun e => mirroredAddr e.1 && !(0x100000 ≤ e.1 && e.1 < 0x122000)

/-- A record is covered by an ACK and has been applied: nothing is left to do with it (R378). -/
def dropCovered (s : State) : State :=
  let cov (o : OutRec) : Bool := o.applied && decide (dist 32 (rdN s PAIR_RSEQ) o.r.rseq.toNat < 2 ^ 31)
  { s with pair.recs := s.pair.recs.filter fun o => !cov o }

/-- The RSEQ an ACK has covered reaches a record. -/
def covered (s : State) (rseq : Nat) : Bool := decide (dist 32 (rdN s PAIR_RSEQ) rseq < 2 ^ 31)

/-- MIRROR_ACK_RX at the active head (R377, R378, R386): what an ACK covers, what it requests; a partner in RESYNC with equal keys is sent a full copy. -/
def ackRx (h : MirHdr) (pstate : BitVec 8) (rseq key : Word) (level : BitVec 8) (reqs : List (BitVec 8)) (s : State) : State :=
  if !mirOpen s || pairState s ≠ 2 then s
  else
    let was := s.pair.pstate
    let s := wr (wr (mirUp (hearPartner h s)) PAIR_RSEQ rseq) PAIR_PLKEY key
    let s := wr s PAIR_PSERIAL (rd s (PORT_PARTNER 4))
    let s := { s with pair.pstate := pstate.toNat, pair.plevel := level.toNat,
                      pair.asked := s.pair.asked ++ (reqs.map (·.toNat)).filter fun n => !s.pair.asked.contains n }
    let s := if pstate = 7#8 && was ≠ 7 then w1cSet PAIR_STATUS PAIR_STATUS_SB_FAULT 0 s else s
    let s := if pstate = 3#8 && was ≠ 3 && !keysDiffer s key level.toNat then
        let s := { s with pair.copy := usedAxes s }
        (copyRegs s).foldl (fun s e => addRec 1 .steward (beOf 4 e.1 ++ beBytes e.2) s) s
      else s
    dropCovered s

/-- MIRROR_LINK_DOWN (R375): MIR_TO basic cycles without a transfer or an ACK. -/
def judgeMirror (s : State) : State :=
  if pairEn s && fbit s PAIR_STATUS PAIR_STATUS_MIR_UP && max 1 (fget s PAIR_CTRL PAIR_CTRL_MIR_TO) ≤ s.pair.since then mirDown s else s

/-- MIRROR_LINK_DOWN. -/
def execMirrorLinkDown (s : State) : Host.Outcome State Fault Refusal := .next (judgeMirror s)

/-! ### Takeover, switchover and return (R380 to R388) -/

/-- A takeover or a switchover is counted (Table 10.5). -/
def countTake (s : State) : State :=
  fset (fincWrap s PAIR_TAKE PAIR_TAKE_COUNT) PAIR_TAKE PAIR_TAKE_CYC (cycNow s)

/-- TAKEOVER (R380, R381): a standby in PROVING, VERIFIED or UNVERIFIED whose partner is quiet. -/
def execTakeover (s : State) : Host.Outcome State Fault Refusal :=
  let st := pairState s
  .next (if !pairEn s || (st ≠ 4 && st ≠ 5 && st ≠ 6) || !fbit s PAIR_STATUS PAIR_STATUS_QUIET then s
    else
      let s := setPairState 2 { s with pair.req := true, pair.heard := false, pair.expect := [], pair.rx := none, pair.pstate := 0, pair.recs := [] }
      let s := w1cSet PAIR_STATUS PAIR_STATUS_TAKEN 0 s
      let s := if st = 5 then s else w1cSet PAIR_STATUS PAIR_STATUS_TAKE_UNVER 0 s
      let s := if leadOk s then fput s PAIR_STATUS PAIR_STATUS_LEAD true else s
      let s := countTake (becomeMaster s)
      logSteward 7 0 (cycNow s) 0 s)

/-- A write of PAIR_CMD (Table 10.5): with the redundancy block lock. -/
def pairCmdEff (v : Word) : Eff := fun s =>
  let st := pairState s
  if wbit v 31 && !(st == 2 && s.pair.pstate == 5 && fbit s PAIR_STATUS PAIR_STATUS_MIR_UP) then none
  else
    let s := if wbit v 31 then { s with pair.swo := true } else s
    let s := if wbit v 1 && (st = 8 || st = 6) then setPairState 3 { s with pair.got := [] } else s
    some (if wbit v 0 && st = 7 then setPairState 3 { s with pair.got := [] } else s)

/-- SWITCHOVER (R388). -/
def execSwitchover (w : Who) (s : State) : Host.Outcome State Fault Refusal :=
  .next (gated w PAIR_CMD 0x80000000 (pairCmdEff 0x80000000) s)

/-- SWITCHOVER_RELEASE (R388): the head stops requesting the lead and enters PROVING. -/
def execSwitchoverRelease (s : State) : Host.Outcome State Fault Refusal :=
  .next (if !s.pair.swo then s
    else
      let s := w1cSet PAIR_STATUS PAIR_STATUS_DROP 0 { s with pair.swo := false, pair.req := false, pair.began := false, pair.pstate := 0 }
      let s := fset (countTake (setPairState 4 s)) PAIR_CLEAN PAIR_CLEAN_CLEAN 0
      becomeSlave 0 (rdN s (PORT_PARTNER 4)) (stopLead s))

/-- RESYNC (Table 10.5). -/
def execResync (w : Who) (s : State) : Host.Outcome State Fault Refusal := .next (gated w PAIR_CMD 2 (pairCmdEff 2) s)

/-- CLR_FAULT (R369). -/
def execClrFault (w : Who) (s : State) : Host.Outcome State Fault Refusal := .next (gated w PAIR_CMD 1 (pairCmdEff 1) s)

/-- RESYNC_COMPLETE (R386): every context and register of the copy is installed. -/
def execResyncComplete (s : State) : Host.Outcome State Fault Refusal :=
  .next (if pairEn s && pairState s = 3 && !keysDiffer s (rd s PAIR_PLKEY) s.pair.plevel &&
        (usedAxes s).all (s.pair.got.contains ·) && s.pair.held.isEmpty then
      fset (setPairState 4 s) PAIR_CLEAN PAIR_CLEAN_CLEAN 0
    else s)

/-- PROVING becomes VERIFIED after 1,024 consecutive clean compare cycles (R387). -/
def judgeProving (s : State) : State :=
  if pairEn s && pairState s = 4 && 1024 ≤ fget s PAIR_CLEAN PAIR_CLEAN_CLEAN then setPairState 5 s else s

/-- PROVING_COMPLETE. -/
def execProvingComplete (s : State) : Host.Outcome State Fault Refusal := .next (judgeProving s)

/-- The pair's work at a tick (R374, R375, R387): the basic cycle that ends was clean or not; the angle block is compared after the voting, and a differing one loaded at the next tick. -/
def pairTick (s : State) : State :=
  if !pairEn s then s
  else
    let s := matchAll s
    let s := if shadowing s && s.pair.div = 0 && 0 < s.pair.cmp then fincSat s PAIR_CLEAN PAIR_CLEAN_CLEAN else s
    let s := { s with pair.cmp := 0, pair.div := 0, pair.since := s.pair.since + 1 }
    let s := judgeMirror (judgeProving s)
    let s := match s.pair.load with
      | some b => loadAngle b { s with pair.load := none }
      | none => s
    match s.pair.ang with
    | some (c, b) =>
      if c ≠ cycNow s then s
      else
        let s := { s with pair.ang := none }
        if b = ownAngle s then s else countDivergence { s with pair.load := some b }
    | none => s

end Sys2Proof.Machine
end

