-- ==== Sys2Proof/Machine/SafetyZones.lean ====
section
/-! DEFINITION. Safety zones (chapter 11): the two channels, their cross frames, inputs, acknowledges, EDM, zone states, dark pulses, SS1, device faults, and the safety session. A channel is `false` for A and `true` for B. -/

namespace Sys2Proof.Machine
open R

def State.zone (s : State) (z : Nat) : ZoneSt := tget {} s.safe.zone z
def State.setZone (s : State) (z : Nat) (x : ZoneSt) : State := { s with safe.zone := tset {} s.safe.zone z x }
def ZoneSt.ch (x : ZoneSt) (b : Bool) : ZoneCh := if b then x.b else x.a
def ZoneSt.setCh (x : ZoneSt) (b : Bool) (c : ZoneCh) : ZoneSt := if b then { x with b := c } else { x with a := c }

/-- Change what a channel holds of a zone. -/
def modCh (b : Bool) (z : Nat) (f : ZoneCh → ZoneCh) (s : State) : State :=
  let x := s.zone z
  s.setZone z (x.setCh b (f (x.ch b)))

/-- The zone's state in a channel (Table 11.2). -/
def zst (s : State) (b : Bool) (z : Nat) : Nat := fget s (SZ_STATUS z) (if b then SZ_STATUS_STATEB else SZ_STATUS_STATEA)

def lineFld (b : Bool) : Fld := if b then SZ_STATUS_LB else SZ_STATUS_LA
def rbFld (b : Bool) : Fld := if b then SZ_STATUS_RBB else SZ_STATUS_RBA

/-- The eight zones. -/
def zones : List Nat := List.range 8

/-! ### Lines -/

/-- A line is on: its channel commands it, the other does not veto it, and die S does not force it off (R28, R392). -/
def lineOn (s : State) (b : Bool) (z : Nat) : Bool :=
  fbit s (SZ_STATUS z) (lineFld b) && !((s.zone z).ch (!b)).veto && !linkLost s

/-- The line's pin: low in a dark pulse as well. -/
def pinOn (s : State) (b : Bool) (z : Nat) : Bool := lineOn s b z && !((s.zone z).ch b).dark

/-- Both lines of the zone are on, dark pulses apart. -/
def bothOn (s : State) (z : Nat) : Bool := lineOn s false z && lineOn s true z
def bothOff (s : State) (z : Nat) : Bool := !lineOn s false z && !lineOn s true z

/-- PERMIT and ZFLT show the zone (Table 11.10). -/
def showZone (z : Nat) (s : State) : State :=
  let p (b : Bool) : Bool := zst s b z == 3 || zst s b z == 4
  fput (fput s SAFE_STATUS ⟨8 + z, 8 + z⟩ (p false && p true)) SAFE_STATUS ⟨z, z⟩ (zst s false z == 6 || zst s true z == 6)

/-- Put the zone into a state in a channel; entering or leaving a state drops the acknowledge it had accepted, but for ON. -/
def setZst (b : Bool) (z st : Nat) (s : State) : State :=
  let s := fset s (SZ_STATUS z) (if b then SZ_STATUS_STATEB else SZ_STATUS_STATEA) st
  showZone z (if st = 3 then s else modCh b z (fun c => { c with acc := false, ready := false }) s)

/-- Die S forces off the modules and timed outputs of a zone while its lines are not both on (R263, R408). -/
def forceZone (z : Nat) (s : State) : State :=
  let off := !bothOn s z
  let s := eachN (List.range 8) (fun m s =>
    if fget s (BR_CTRL m) BR_CTRL_ZONE = z && fbit s (BR_STATUS m) BR_STATUS_FORCED != off then forceModule m off s else s) s
  eachN (List.range 32) (fun k s =>
    if fget s (TO_CFG k) TO_CFG_ZONE = z && fbit s (TO_STATUS k) TO_STATUS_FORCED != off then forceOut k off s else s) s

/-- The axes of a zone (R402). -/
def zoneAxes (s : State) (z : Nat) : List Nat := (usedAxes s).filter fun n => zoneOf s n == z

/-- The level EDMz must reach within its window (R401). -/
def edmExpect (z : Nat) (lvl : Bool) (s : State) : State :=
  let due := fbit s (SZ_CFG z) SZ_CFG_EDM_EN && fbit s (SZ_STATUS z) SZ_STATUS_EDM != lvl
  s.setZone z { s.zone z with edmDue := if due then some lvl else none }

/-- A change of the zone's lines and what follows it in the same step: readbacks, EDM, the force of R263 and, when torque goes, MODE OFF for every axis of the zone (R401, R408). -/
def withLines (z : Nat) (f : State → State) (s : State) : State :=
  let t := f s
  let rb (b : Bool) (t : State) : State :=
    if pinOn s b z == pinOn t b z then t else fput t (SZ_STATUS z) (rbFld b) (pinOn t b z)
  let t := rb true (rb false t)
  let t := if bothOff s z && !bothOff t z then edmExpect z false t
    else if bothOn s z && !bothOn t z then edmExpect z true t
    else t
  let t := forceZone z t
  if bothOn s z && !bothOn t z then
    eachN (zoneAxes t z) (fun n t => if axMode t n = 0 then t else enterOff n t) t
  else t

/-- A channel's line is commanded on or off. A line that goes off in its dark pulse stays off, and the pulse's result is discarded (R407). -/
def setLine (b : Bool) (z : Nat) (on : Bool) (s : State) : State :=
  withLines z (fun s =>
    let s := fput s (SZ_STATUS z) (lineFld b) on
    if on then s
    else modCh b z (fun c => { c with dark := false, heldPulse := false, discard := c.discard || c.dark }) s) s

/-- Switch the own line off and veto the other's (R392). -/
def lineVeto (b : Bool) (z : Nat) (s : State) : State :=
  withLines z (modCh b z (fun c => { c with veto := true })) (setLine b z false s)

/-! ### Log and session -/

/-- A record in the window of the last 64 (Tables 11.8, 11.13). -/
def showSafe (r : SafeRec) (s : State) : State :=
  let w (n : Nat) : Word := BitVec.ofNat 32 n
  wrAll (SLOG r.seq) 0
    ([w r.seq, w (r.time / 2 ^ 32), w r.time, w (r.port + r.role * 256 + r.session % 65536 * 65536), w r.object, r.oldCrc, r.newCrc, w r.result,
      r.sigOld, r.sigNew] ++ List.replicate 6 0) s

/-- A record of the safety change log (R419): the NVM log, its window, and the change log. -/
def safeLog (p : Port) (sess obj : Nat) (old new : Word) (result : Nat) (sigNew : Word) (s : State) : State :=
  let q := (rdN s SLOG_SEQ + 1) % 2 ^ 32
  let r : SafeRec := { seq := q, time := s.time.ns, port := portCode p, role := 4, session := sess, object := obj,
                       oldCrc := old, newCrc := new, result := result, sigOld := rd s SAFE_SIG, sigNew := sigNew }
  let l := s.safe.log ++ [r]
  let s := showSafe r (wrN { s with safe.log := l.drop (l.length - 1024) } SLOG_SEQ q)
  logPush { seq := 0, sub := 0, head := 0, origin := 0x34, kind := 6, time := s.time.ns, session := sess, result := result,
            object := obj, oldCrc := old, newCrc := new, detail := q } s

/-- Sessions open per port (Table 13.11). -/
def showSessions (s : State) : State :=
  let n (p : Port) : Nat := (s.host.sessions.filter fun x => x.port == p).length
  fset (fset s HOST_STATUS HOST_STATUS_SESS_ETH (n .eth)) HOST_STATUS HOST_STATUS_SESS_SPI (n .spi)

/-- A session event or port reset in the change log (R470, KIND 0x8); its OBJECT is the session's of Table 11.8. -/
def logSession (p : Port) (role num result : Nat) (s : State) : State :=
  logPush { seq := 0, sub := 0, head := 0, origin := portCode p * 16 + role, kind := 8, time := s.time.ns, session := num,
            result := result, object := 0xFFFFFFFE, oldCrc := 0, newCrc := 0, detail := 0 } s

/-- A session ends: its locks close (R462) and what it staged is gone. -/
def dropSession (num : Nat) (s : State) : State :=
  match s.host.sessions.find? fun x => x.num == num with
  | none => s
  | some x =>
    let s := { s with host.sessions := s.host.sessions.filter fun y => y.num != num }
    let s := if fget s BLK_LOCK BLK_LOCK_LOCK_SESS = num then wr s BLK_LOCK 0 else s
    showSessions (logSession x.port x.role num 0 s)

/-- The staged changes are discarded. -/
def dropStaged (s : State) : State :=
  fput { s with safe.staged := [] } SAFE_STATUS SAFE_STATUS_STAGED false

/-- The safety session closes (R417). -/
def closeSafety (s : State) : State :=
  match s.safe.sess with
  | none => s
  | some (p, n) =>
    let s := safeLog p n 0xFFFFFFFE 0 0 0 (rd s SAFE_SIG) s
    dropSession n (fput (dropStaged { s with safe.sess := none }) SAFE_STATUS SAFE_STATUS_SESSION false)

/-! ### Faults -/

/-- The field of the device fault a channel knows. -/
def devOf (s : State) (b : Bool) : Nat := if b then s.safe.devB else s.safe.devA

/-- SS1END of a stop that ends, unless it is set (R411). -/
def endStop (z code : Nat) (s : State) : State :=
  if fget s (SZ_STATUS z) SZ_STATUS_SS1END = 0 then fset s (SZ_STATUS z) SZ_STATUS_SS1END code else s

/-- A channel learns of a zone fault (R392, R403): its line goes off and it vetoes the other. The first channel to raise it counts and records it. -/
def zoneFault (b : Bool) (z code : Nat) (s : State) : State :=
  let st := zst s b z
  let x := s.zone z
  if st = 0 || st = 7 || (x.ch b).faults.testBit code then s
  else
    let s := if ((x.ch (!b)).faults).testBit code then s
      else
        let s := if x.a.faults = 0 && x.b.faults = 0 then fset s (SZ_STATUS z) SZ_STATUS_ZCAUSE code else s
        sediment 13 sevFault (0x0600 + code) z (fincWrap s (SZ_CNT z) SZ_CNT_ZFAULTS)
    let s := if st = 4 then endStop z 3 s else s
    setZst b z 6 (lineVeto b z (modCh b z (fun c => { c with faults := c.faults ||| 2 ^ code }) s))

/-- A channel learns of a device fault (R394): every zone goes to FAIL for good. The first channel to find one records it, and the safety session closes (R417). -/
def deviceFault (b : Bool) (code : Nat) (s : State) : State :=
  if devOf s b ≠ 0 then s
  else
    let s := if b then { s with safe.devB := code } else { s with safe.devA := code }
    let s := if fget s SAFE_STATUS SAFE_STATUS_STATE = 2 then s
      else
        let s := fset (fset s SAFE_STATUS SAFE_STATUS_STATE 2) SAFE_STATUS SAFE_STATUS_FCAUSE code
        sediment 13 sevFault (0x0500 + code) b.toNat (fput s SAFE_STATUS SAFE_STATUS_FCH b)
    let s := eachN zones (fun z s =>
      let s := if zst s b z = 4 then endStop z 3 s else s
      setZst b z 7 (lineVeto b z s)) s
    closeSafety s

/-- The faults of Table 11.1 a channel detects. -/
def detects (b : Bool) (code : Nat) : Bool :=
  match code with
  | 1 | 4 | 5 | 6 => true
  | 2 | 8 => b
  | 3 | 7 => !b
  | _ => false

/-- DEVICE_FAULT (R394): DLINK needs the data link lost, MINIMAL the minimal mode. -/
def execDeviceFault (chB : Bool) (code : BitVec 4) (s : State) : Host.Outcome State Fault Refusal :=
  .next (if detects chB code.toNat && (code != 2 || linkLost s) && (code != 7 || fbit s BOOT_STATUS BOOT_STATUS_MINIMAL) then
    deviceFault chB code.toNat s else s)

/-! ### Demands and zone transitions -/

/-- The inputs that act in a zone: enabled, with the zone in their ZMASK. -/
def zoneInputs (s : State) (z : Nat) : List Nat :=
  (List.range 16).filter fun k => fbit s (SI_CFG k) SI_CFG_EN && (fget s (SI_CFG k) SI_CFG_ZMASK).testBit z

/-- The zone demands (R403). -/
def zoneDem (s : State) (z : Nat) : Bool := (zoneInputs s z).any fun k => fbit s (SI_STATUS k) SI_STATUS_DEMAND

/-- Channel A requests the stop of R147 with FLUSH for every axis of the zone in AUTO (R409). -/
def requestStops (z : Nat) (s : State) : State :=
  eachN (zoneAxes s z) (fun n s =>
    if axMode s n = 2 && !torqueOffLatched s n then s.setGen n { s.gen n with req := some (.stop true), ripe := false } else s) s

/-- What a channel finds of a zone's inputs at one evaluation. -/
structure ZoneView where
  dem : Bool
  tested : Bool
  edm : Bool
  low : Bool

/-- The view of the zone (Table 11.3). -/
def viewZone (s : State) (z : Nat) : ZoneView :=
  { dem := zoneDem s z,
    tested := (zoneInputs s z).all fun k => !fbit s (SI_CFG k) SI_CFG_STEST || fbit s (SI_STATUS k) SI_STATUS_STDONE,
    edm := !fbit s (SZ_CFG z) SZ_CFG_EDM_EN || fbit s (SZ_STATUS z) SZ_STATUS_EDM,
    low := !fbit s (SZ_STATUS z) SZ_STATUS_RBA && !fbit s (SZ_STATUS z) SZ_STATUS_RBB }

/-- A channel moves a zone as Table 11.3 sets out. -/
def evalCh (v : ZoneView) (b : Bool) (z : Nat) (s : State) : State :=
  let x := s.zone z
  match zst s b z with
  | 1 => if v.tested && !v.dem && v.edm && v.low then setZst b z 2 s else s
  | 2 => if v.dem then setZst b z 5 (s.setZone z { x with byDem := true }) else s
  | 3 =>
    if !v.dem then s
    else if fbit s (SZ_CFG z) SZ_CFG_SS1 then
      let s := modCh b z (fun c => { c with still := false, timeout := false }) s
      let s := if zst s (!b) z = 4 then s else fset s (SZ_STATUS z) SZ_STATUS_SS1END 0
      let s := setZst b z 4 s
      if b then s else requestStops z s
    else setZst b z 5 (setLine b z false (s.setZone z { x with byDem := true }))
  | 5 =>
    if v.dem then s
    else if fbit s (SZ_CFG z) SZ_CFG_ARST && x.byDem then
      if v.edm && v.low then setLine b z true (setZst b z 3 s) else s
    else setZst b z 2 s
  | _ => s

/-- Both channels evaluate a zone on the same levels; the onset of a demand counts (SZ_CNT). -/
def evalZone (z : Nat) (s : State) : State :=
  let v := viewZone s z
  let x := s.zone z
  let s := if v.dem && !x.dem && fbit s (SZ_CFG z) SZ_CFG_EN then fincWrap s (SZ_CNT z) SZ_CNT_DEMANDS else s
  let s := s.setZone z { s.zone z with dem := v.dem }
  evalCh v true z (evalCh v false z s)

/-- A stop is over when both lines are off: OFF in each channel that was STOPPING (R411). -/
def settleStop (z : Nat) (s : State) : State :=
  if bothOff s z then
    let one (b : Bool) (s : State) : State :=
      if zst s b z = 4 then setZst b z 5 (s.setZone z { s.zone z with byDem := true }) else s
    let t := one true (one false s)
    if zst s false z = 4 || zst s true z = 4 then evalZone z t else t
  else s

/-! ### Inputs (R395 to R398) -/

/-- The levels of a safety input: it is clear, demands, has both lines at their demand levels, disagrees (R395). -/
def clearLevels (anti a b : Bool) : Bool := if anti then a && !b else a && b
def demandLevels (anti a b : Bool) : Bool := !clearLevels anti a b
def bothDemand (anti a b : Bool) : Bool := if anti then !a && b else !a && !b
def disagrees (anti a b : Bool) : Bool := if anti then a == b else a != b

/-- DEMAND of an input (R395, R397). -/
def showDemand (k : Nat) (s : State) : State :=
  let anti := fbit s (SI_CFG k) SI_CFG_ANTI
  let a := fbit s (SI_STATUS k) SI_STATUS_LA
  let b := fbit s (SI_STATUS k) SI_STATUS_LB
  fput s (SI_STATUS k) SI_STATUS_DEMAND
    (fbit s (SI_CFG k) SI_CFG_EN && (demandLevels anti a b || fbit s (SI_STATUS k) SI_STATUS_DISC))

/-- Evaluate every zone an input acts in. -/
def evalMask (k : Nat) (s : State) : State :=
  eachN (zones.filter fun z => (fget s (SI_CFG k) SI_CFG_ZMASK).testBit z) evalZone s

/-- SAFETY_INPUT_EDGE (R395 to R398): a filtered edge of line A or B of input k; `dur` is the length in ms of a disagreement the edge ends, as channel A timed it. -/
def execSafetyInputEdge (k : BitVec 4) (lineB level : Bool) (dur : BitVec 16) (s : State) : Host.Outcome State Fault Refusal :=
  let i := k.toNat
  let st := SI_STATUS i
  let anti := fbit s (SI_CFG i) SI_CFG_ANTI
  let was := disagrees anti (fbit s st SI_STATUS_LA) (fbit s st SI_STATUS_LB)
  let s := fput s st (if lineB then SI_STATUS_LB else SI_STATUS_LA) level
  let a := fbit s st SI_STATUS_LA
  let b := fbit s st SI_STATUS_LB
  let s := if was && !disagrees anti a b then fset s st SI_STATUS_DISC_LAST dur.toNat else s
  let s := if bothDemand anti a b then
      fput { s with safe.shown := (s.safe.shown.filter (· != i)) ++ [i] } st SI_STATUS_DISC false
    else s
  let s := if clearLevels anti a b && s.safe.shown.contains i && fbit s (SI_CFG i) SI_CFG_STEST then
      fput s st SI_STATUS_STDONE true
    else s
  .next (evalMask i (showDemand i s))

/-- DISC_TIMEOUT (R396): the disagreement of input k outlasts DISC_T in a channel. -/
def execDiscTimeout (chB : Bool) (k : BitVec 4) (s : State) : Host.Outcome State Fault Refusal :=
  let i := k.toNat
  let a := fbit s (SI_STATUS i) SI_STATUS_LA
  let b := fbit s (SI_STATUS i) SI_STATUS_LB
  .next (if fbit s (SI_CFG i) SI_CFG_EN && disagrees (fbit s (SI_CFG i) SI_CFG_ANTI) a b then
    let s := showDemand i (fput s (SI_STATUS i) SI_STATUS_DISC true)
    let m := zones.filter fun z => (fget s (SI_CFG i) SI_CFG_ZMASK).testBit z
    eachN m (fun z s => evalZone z (zoneFault chB z 1 s)) s
  else s)

/-! ### Acknowledge (R399, R400) -/

/-- The zones that use an acknowledge input. -/
def ackZones (s : State) (n : Nat) : List Nat :=
  zones.filter fun z => fbit s (SZ_CFG z) SZ_CFG_EN && fget s (SZ_CFG z) SZ_CFG_ACK == n

/-- ACK_RISING_EDGE (R399): each channel notes whether the zone is READY. -/
def execAckRisingEdge (n : BitVec 3) (s : State) : Host.Outcome State Fault Refusal :=
  .next (eachN (ackZones s n.toNat) (fun z s =>
    let one (b : Bool) (s : State) : State := modCh b z (fun c => { c with ready := zst s b z == 2 }) s
    one true (one false s)) s)

/-- A pulse is long enough in a channel; between the bounds each decides by its own clock. -/
def ackWidth (ms : Nat) (s : State) : Bool × State :=
  if 105 ≤ ms && ms ≤ 2850 then (true, s)
  else if ms < 95 || 3150 < ms then (false, s)
  else takeFreeBool s

/-- ACK_PULSE (R399, R401): the filtered falling edge of a pulse of `ms`. -/
def execAckPulse (n : BitVec 3) (ms : Nat) (s : State) : Host.Outcome State Fault Refusal :=
  let (okA, s) := ackWidth ms s
  let (okB, s) := ackWidth ms s
  .next (eachN (ackZones s n.toNat) (fun z s =>
    let edm := !fbit s (SZ_CFG z) SZ_CFG_EDM_EN || fbit s (SZ_STATUS z) SZ_STATUS_EDM
    let one (b ok : Bool) (s : State) : State :=
      if ok && zst s b z == 2 && ((s.zone z).ch b).ready then
        if edm then modCh b z (fun c => { c with acc := true, ready := false }) s
        else w1cSet (SZ_STATUS z) SZ_STATUS_ACKREJ z (modCh b z (fun c => { c with ready := false }) s)
      else modCh b z (fun c => { c with ready := false }) s
    one true okB (one false okA s)) s)

/-- ACK_STUCK (R399): the input has been high for more than 3,150 ms. -/
def execAckStuck (n : BitVec 3) (s : State) : Host.Outcome State Fault Refusal :=
  .next (eachN (ackZones s n.toNat) (fun z s => w1cSet (SZ_STATUS z) SZ_STATUS_ACKSTUCK z s) s)

/-- ACK_WITHDRAW (R400): no matching acceptance within 20 ms. -/
def execAckWithdraw (chB : Bool) (z : BitVec 3) (s : State) : Host.Outcome State Fault Refusal :=
  let i := z.toNat
  .next (if ((s.zone i).ch chB).acc && zst s chB i == 2 then
    w1cSet (SZ_STATUS i) SZ_STATUS_ACKREJ i (modCh chB i (fun c => { c with acc := false }) s)
  else s)

/-! ### EDM (R401) -/

/-- A zone fault found by both channels at once. -/
def bothFault (z code : Nat) (s : State) : State := zoneFault true z code (zoneFault false z code s)

/-- EDMz against the zone's lines, when no change is due: 0 while both are on, outside dark pulses, 1 while both are off. -/
def checkEdm (z : Nat) (s : State) : State :=
  let x := s.zone z
  let e := fbit s (SZ_STATUS z) SZ_STATUS_EDM
  if fbit s (SZ_CFG z) SZ_CFG_EN && fbit s (SZ_CFG z) SZ_CFG_EDM_EN && x.edmDue.isNone &&
      ((bothOn s z && !x.a.dark && !x.b.dark && e) || (bothOff s z && !e)) then bothFault z 2 s else s

/-- EDM_CHANGE (R401): EDMz at a new filtered level. -/
def execEdmChange (z : BitVec 3) (level : Bool) (s : State) : Host.Outcome State Fault Refusal :=
  let i := z.toNat
  .next (if fbit s (SZ_STATUS i) SZ_STATUS_EDM == level then s
  else
    let s := fput s (SZ_STATUS i) SZ_STATUS_EDM level
    let s := if (s.zone i).edmDue == some level then s.setZone i { s.zone i with edmDue := none } else s
    evalZone i (checkEdm i s))

/-- EDM_TIMEOUT (R401): EDMz has not followed within the window of a channel. -/
def execEdmTimeout (chB : Bool) (z : BitVec 3) (s : State) : Host.Outcome State Fault Refusal :=
  let i := z.toNat
  .next (if (s.zone i).edmDue.isSome && fbit s (SZ_CFG i) SZ_CFG_EDM_EN then
    zoneFault chB i 2 (s.setZone i { s.zone i with edmDue := none })
  else s)

/-! ### Cross frames (R393) -/

/-- CROSS_FRAME_TX (R393): what a channel sends. -/
def execCrossFrameTx (chB : Bool) (s : State) : Host.Outcome State Fault Refusal :=
  let (bad, s) := fiHit 6 chB.toNat s
  let of (p : ZoneCh → Bool) : List Bool := zones.map fun z => p ((s.zone z).ch chB)
  let old := if chB then s.safe.sentB else s.safe.sentA
  let f : XFrame :=
    { seq := (old.seq + 1) % 256, states := zones.map (zst s chB), acc := of (·.acc), still := of (·.still),
      timeout := of (·.timeout), faults := zones.map (fun z => ((s.zone z).ch chB).faults), dev := devOf s chB,
      sig := rd s SAFE_SIG, bad := bad }
  .next (if chB then { s with safe.sentB := f } else { s with safe.sentA := f })

/-- What a usable cross frame tells a channel of a zone: faults, the end of a stop, the other's acceptance (R396, R400, R404, R410, R411). -/
def adoptZone (b : Bool) (f : XFrame) (z : Nat) (s : State) : State :=
  let s := eachN ([1, 2, 3, 4].filter fun c => (f.faults.getD z 0).testBit c) (fun c s => zoneFault b z c s) s
  let s := if zst s b z = 4 && (f.still.getD z false || f.timeout.getD z false) then settleStop z (setLine b z false s) else s
  if zst s b z = 2 && ((s.zone z).ch b).acc && f.acc.getD z false then setLine b z true (setZst b z 3 s) else s

/-- CROSS_FRAME_RX (R393): a channel receives the frame the other sent last. -/
def execCrossFrameRx (toB crcOk : Bool) (s : State) : Host.Outcome State Fault Refusal :=
  let f := if toB then s.safe.sentA else s.safe.sentB
  let last := if toB then s.safe.rxB else s.safe.rxA
  .next (if !crcOk || f.bad then fincWrap s SAFE_XERR SAFE_XERR_XCRC
  else
    let s := if toB then { s with safe.rxB := f.seq } else { s with safe.rxA := f.seq }
    if f.seq ≠ (last + 1) % 256 then fincWrap s SAFE_XERR SAFE_XERR_XSEQ
    else if f.dev ≠ 0 then deviceFault toB f.dev s
    else if f.sig ≠ rd s SAFE_SIG then deviceFault toB 6 s
    else eachN zones (adoptZone toB f) s)

/-- CROSS_LINK_LOST (R393): no usable frame for 2 ms is device fault XLINK. -/
def execCrossLinkLost (chB : Bool) (s : State) : Host.Outcome State Fault Refusal := .next (deviceFault chB 1 s)

/-- XCOMP (R404): the channels have differed for more than 20 ms on whether a zone permits torque. -/
def execXcomp (z : BitVec 3) (s : State) : Host.Outcome State Fault Refusal :=
  let p (b : Bool) : Bool := zst s b z.toNat == 3 || zst s b z.toNat == 4
  .next (if p false != p true then bothFault z.toNat 4 s else s)

/-! ### Dark pulses and readbacks (R405 to R407) -/

/-- A line goes dark. -/
def goDark (b : Bool) (z : Nat) (s : State) : State :=
  withLines z (modCh b z (fun c => { c with dark := true, heldPulse := false, discard := false })) s

/-- DARK_PULSE_START (R406): a pulse is held back while the other line is dark. -/
def execDarkPulseStart (chB : Bool) (z : BitVec 3) (s : State) : Host.Outcome State Fault Refusal :=
  let i := z.toNat
  .next (if fbit s (SZ_CFG i) SZ_CFG_TP_EN && (zst s chB i == 3 || zst s chB i == 4) && pinOn s chB i then
    if ((s.zone i).ch (!chB)).dark then modCh chB i (fun c => { c with heldPulse := true }) s else goDark chB i s
  else s)

/-- DARK_PULSE_END (R406): the line returns on and a held pulse of the other starts. -/
def execDarkPulseEnd (chB : Bool) (z : BitVec 3) (s : State) : Host.Outcome State Fault Refusal :=
  let i := z.toNat
  .next (if ((s.zone i).ch chB).dark then
    let s := withLines i (modCh chB i (fun c => { c with dark := false })) s
    let s := if ((s.zone i).ch (!chB)).heldPulse && pinOn s (!chB) i then goDark (!chB) i s else s
    checkEdm i s
  else s)

/-- DARK_PULSE_READBACK (R406): the level 10 µs before (`after` false) or 50 µs after the end of a pulse. A pulse whose line went off meanwhile raises nothing (R407). -/
def execDarkPulseReadback (chB : Bool) (z : BitVec 3) (after level : Bool) (s : State) : Host.Outcome State Fault Refusal :=
  let i := z.toNat
  let c := (s.zone i).ch chB
  let due := if after then lineOn s chB i && !c.dark && !c.discard else lineOn s chB i && c.dark
  .next (if !due then s
  else
    let s := fput s (SZ_STATUS i) (rbFld chB) level
    if level == after then s else zoneFault chB i 3 s)

/-- OUTTEST_TIMEOUT (R405): a readback has been high for more than 1 ms while the line is off. -/
def execOuttestTimeout (chB : Bool) (z : BitVec 3) (s : State) : Host.Outcome State Fault Refusal :=
  let i := z.toNat
  .next (if lineOn s chB i then s else fput (zoneFault chB i 3 s) (SZ_STATUS i) (rbFld chB) true)

/-- READBACK_LOW_WHILE_ON (R405): the readback goes low while the line is on and not in a dark pulse. -/
def execReadbackLowWhileOn (chB : Bool) (z : BitVec 3) (s : State) : Host.Outcome State Fault Refusal :=
  let i := z.toNat
  .next (if pinOn s chB i then zoneFault chB i 3 (fput s (SZ_STATUS i) (rbFld chB) false) else s)

/-! ### SS1 (R409 to R411) -/

/-- STANDSTILL (R410): every axis of the zone has stood for 16 samples; line A goes off and a notice is due. A timer end that no cross frame has carried yet yields to it (Table 11.6). -/
def execStandstill (z : BitVec 3) (s : State) : Host.Outcome State Fault Refusal :=
  let i := z.toNat
  .next (if zst s false i = 4 && !(s.zone i).a.still && (zoneAxes s i).all (fun n => decide (16 ≤ (s.axl n).still)) then
    let unsent := fget s (SZ_STATUS i) SZ_STATUS_SS1END == 2 && !s.safe.sentA.timeout.getD i false && !s.safe.sentB.timeout.getD i false
    let s := if unsent then fset s (SZ_STATUS i) SZ_STATUS_SS1END 1 else endStop i 1 s
    settleStop i (setLine false i false (modCh false i (fun c => { c with still := true }) s))
  else s)

/-- SS1_TIMEOUT (R411): a channel's timer ends. -/
def execSs1Timeout (chB : Bool) (z : BitVec 3) (s : State) : Host.Outcome State Fault Refusal :=
  let i := z.toNat
  .next (if zst s chB i = 4 then
    settleStop i (setLine chB i false (modCh chB i (fun c => { c with timeout := true }) (endStop i 2 s)))
  else s)

/-! ### The end of a zone fault -/

/-- A zone fault's clearing condition (Table 11.4), but for the time it must hold. -/
def faultOver (s : State) (z code : Nat) : Bool :=
  match code with
  | 1 => (zoneInputs s z).all fun k => !fbit s (SI_STATUS k) SI_STATUS_DISC
  | 2 => fbit s (SZ_STATUS z) SZ_STATUS_EDM && bothOff s z
  | 3 => bothOff s z
  | _ => bothOff s z && zst s false z == zst s true z

/-- ZONE_FAULT_CLEARED (R403): every cause's condition has held long enough; the zone leaves ZFAULT in both channels. -/
def execZoneFaultCleared (z : BitVec 3) (s : State) : Host.Outcome State Fault Refusal :=
  let i := z.toNat
  let x := s.zone i
  let held := [1, 2, 3, 4].filter fun c => (x.a.faults ||| x.b.faults).testBit c
  .next (if zst s false i = 6 && zst s true i = 6 && held.all (faultOver s i) then
    let s := withLines i (fun s =>
      let one (b : Bool) (s : State) : State := modCh b i (fun c => { c with faults := 0, veto := false }) (fput s (SZ_STATUS i) (rbFld b) false)
      one true (one false s)) s
    let s := fset (s.setZone i { s.zone i with byDem := false }) (SZ_STATUS i) SZ_STATUS_ZCAUSE 0
    let st := if zoneDem s i then 5 else 2
    setZst true i st (setZst false i st s)
  else s)

/-! ### Parameters, signature and session (R415 to R419) -/

/-- The register addresses of the safety parameter block, ascending (R416). -/
def paramAddrs : List Nat :=
  (zones.flatMap fun z => [SZ_CFG z, SZ_TIME z, SZ_TP z, SZ_STILL z]) ++ (List.range 16).map SI_CFG ++ (List.range 256).map SZ_AX

/-- A staged word, or the one in force (R417). -/
def stagedWord (s : State) (a : Nat) : Word :=
  match tget none s.safe.staged a with
  | some v => v
  | none => rd s a

/-- The signature over the words a function gives (R416). -/
def signature (f : Nat → Word) : Word := crcWords (paramAddrs.map f)

/-- A write of an RWS register within the session goes to the staged copy (R417). -/
def safeWordEff (a : Nat) (v : Word) : Eff := fun s =>
  match findCls a with
  | none => some s
  | some c =>
    let x := applied c (stagedWord s a) v
    let s := { s with safe.staged := tset none s.safe.staged a (if x = rd s a then none else some x) }
    some (fput s SAFE_STATUS SAFE_STATUS_STAGED (s.safe.staged != []))

/-- Every staged value lies within its range (R418). -/
def inRange (f : Nat → Word) : Bool :=
  let within (w : Word) (hi lo x y : Nat) : Bool := decide (x ≤ wField w hi lo) && decide (wField w hi lo ≤ y)
  zones.all (fun z =>
    within (f (SZ_TIME z)) 31 16 10 60000 && within (f (SZ_TIME z)) 15 8 10 250 &&
    within (f (SZ_TP z)) 31 16 50 1000 && within (f (SZ_TP z)) 7 0 10 80) &&
  (List.range 16).all fun k => within (f (SI_CFG k)) 12 0 4 5000

/-- The addresses of the block whose staged words differ. -/
def changedParams (s : State) : List Nat := paramAddrs.filter fun a => stagedWord s a != rd s a

/-- The zones a set of changed words touches: their own words, the inputs that act in them before or after, the axes that enter or leave them. -/
def zonesTouched (s : State) (f : Nat → Word) (l : List Nat) : List Nat :=
  zones.filter fun z =>
    l.any fun a =>
      (decide (0x600100 ≤ a) && decide (a < 0x600200) && (a - 0x600100) / 0x20 == z) ||
      (decide (0x600400 ≤ a) && decide (a < 0x600500) &&
        ((fieldOf (rd s a) SI_CFG_ZMASK).testBit z || (fieldOf (f a) SI_CFG_ZMASK).testBit z)) ||
      (decide (0x600800 ≤ a) && (fieldOf (rd s a) SZ_AX_ZONE == z || fieldOf (f a) SZ_AX_ZONE == z))

/-- DONE and the code of SAFE_RESULT. -/
def safeResult (code : Nat) (s : State) : State := wrN s SAFE_RESULT (2 ^ 31 + code)

/-- The record of a COMMIT, CONFIRM or DISCARD. -/
def logCmd (w : Who) (code : Nat) (sigNew : Word) (s : State) : State :=
  safeLog w.port w.sess.toNat 0xFFFFFFFC 0 0 code sigNew s

/-- COMMIT (R418 step 1). -/
def safeCommitDo (w : Who) (s : State) : State :=
  if inRange (stagedWord s) then
    let g := signature (stagedWord s)
    safeResult 0 (logCmd w 0 g (wr s SAFE_SIG_NEW g))
  else safeResult 3 (logCmd w 3 (rd s SAFE_SIG) s)

/-- CONFIRM ends with a result and changes nothing (R418). -/
def safeConfirmNo (w : Who) (code : Nat) (s : State) : State := safeResult code (logCmd w code (rd s SAFE_SIG) s)

/-- CONFIRM (R418 step 2): the NVM write starts. -/
def safeConfirmDo (w : Who) (s : State) : State :=
  let g := signature (stagedWord s)
  let l := changedParams s
  let live (z : Nat) : Bool := [3, 4].contains (zst s false z) || [3, 4].contains (zst s true z)
  if stagedWord s SAFE_CONFIRM ≠ rd s SAFE_SIG_NEW || g ≠ rd s SAFE_SIG_NEW then safeConfirmNo w 5 s
  else if (zonesTouched s (stagedWord s) l).any live then safeConfirmNo w 4 s
  else if fbit s IMG_JOB IMG_JOB_BUSY then safeConfirmNo w 1 s
  else startJob 3 { s with safe.confirm := some (l.map fun a => (a, stagedWord s a), w.port, w.sess.toNat) }

/-- A write of SAFE_CMD, accepted only within the session (R422). -/
def safeCmdEff (w : Who) (v : Word) : Eff := fun s =>
  if !safetyOpen s w then none
  else
    let s := fput s SAFE_RESULT SAFE_RESULT_DONE false
    let op := wField v 31 30
    let s := if op ≠ 0 && s.safe.confirm.isSome then safeResult 1 s
      else match op with
        | 1 => safeCommitDo w s
        | 2 => safeConfirmDo w s
        | 3 => safeResult 0 (logCmd w 0 (rd s SAFE_SIG) (dropStaged s))
        | _ => s
    some (if wbit v 0 then closeSafety s else s)

/-- SAFE_COMMIT (R418). -/
def execSafeCommit (w : Who) (s : State) : Host.Outcome State Fault Refusal :=
  .next (gated w SAFE_CMD 0x40000000 (safeCmdEff w 0x40000000) s)

/-- SAFE_CONFIRM (R418). -/
def execSafeConfirm (w : Who) (s : State) : Host.Outcome State Fault Refusal :=
  .next (gated w SAFE_CMD 0x80000000 (safeCmdEff w 0x80000000) s)

/-- SAFE_DISCARD (R418). -/
def execSafeDiscard (w : Who) (s : State) : Host.Outcome State Fault Refusal :=
  .next (gated w SAFE_CMD 0xC0000000 (safeCmdEff w 0xC0000000) s)

/-- SAFE_CLOSE (R417). -/
def execSafeClose (w : Who) (s : State) : Host.Outcome State Fault Refusal :=
  .next (gated w SAFE_CMD 1 (safeCmdEff w 1) s)

/-- A zone starts anew: STARTUP, or DISABLED with EN = 0 (R403, R415). -/
def restartZone (z : Nat) (s : State) : State :=
  let st := if fbit s (SZ_CFG z) SZ_CFG_EN then 1 else 0
  let one (b : Bool) (s : State) : State := if zst s b z = 7 then s else setZst b z st (setLine b z false s)
  let s := one true (one false s)
  if zst s false z = 7 then s
  else
    let x := s.zone z
    withLines z (fun s => fset (s.setZone z { x with a := {}, b := {}, edmDue := none, byDem := false }) (SZ_STATUS z) SZ_STATUS_ZCAUSE 0) s

/-- The start-up test of an input is open again (R398). -/
def clearTest (k : Nat) (s : State) : State :=
  fput { s with safe.shown := s.safe.shown.filter (· != k) } (SI_STATUS k) SI_STATUS_STDONE false

/-- The words of a CONFIRM take effect in both channels (R418 step 3). -/
def applyConfirm (l : List (Nat × Word)) (p : Port) (n : Nat) (s : State) : State :=
  let addrs := l.map (·.1)
  let staged (a : Nat) : Word := match l.find? fun e => e.1 == a with | some e => e.2 | none => rd s a
  let zs := zonesTouched s staged addrs
  let g := signature staged
  let ins := (List.range 16).filter fun k => addrs.contains (SI_CFG k) ||
    zs.any fun z => (fieldOf (rd s (SI_CFG k)) SI_CFG_ZMASK).testBit z || (fieldOf (staged (SI_CFG k)) SI_CFG_ZMASK).testBit z
  let s := l.foldl (fun s e => safeLog p n e.1 (crcWords [rd s e.1]) (crcWords [e.2]) 0 g s) (safeLog p n 0xFFFFFFFC 0 0 0 g s)
  let s := wr (wrRange 0x600000 0x700000 l s) SAFE_SIG g
  let sec : SafeSec := match s.safe.sec with
    | some x => { x with words := paramAddrs.map fun a => (a, rd s a), sig := g }
    | none => { words := paramAddrs.map fun a => (a, rd s a), sig := g, salt := [], hash := [] }
  let s := dropStaged { s with safe.sec := some sec }
  let s := eachN ins (fun k s => showDemand k (clearTest k s)) s
  eachN zs (fun z s => evalZone z (restartZone z s)) s

/-- SESSION_TIMEOUT (R417): 600 s without a request. -/
def execSessionTimeout (s : State) : Host.Outcome State Fault Refusal := .next (closeSafety s)

/-- LOCKOUT_END (R417). -/
def execLockoutEnd (s : State) : Host.Outcome State Fault Refusal :=
  .next (if fbit s SAFE_STATUS SAFE_STATUS_LOCKOUT then
    fset (fput { s with safe.fails := 0, safe.lockEnd := 0 } SAFE_STATUS SAFE_STATUS_LOCKOUT false) SAFE_PWCNT SAFE_PWCNT_LOCK_S 0
  else s)

/-- Seconds of lockout remaining (SAFE_PWCNT). -/
def lockSeconds (s : State) : Nat := (s.safe.lockEnd - s.time.ns + 999999999) / 1000000000

end Sys2Proof.Machine
end

