-- ==== Sys2Proof/Machine/System.lean ====
section
/-! DEFINITION. The dies and the regions (chapter 1): the data link, clocks, reservations, temperature, quarantine, migration and reload. -/

namespace Sys2Proof.Machine
open R

/-! ### The data link (R26, R27) -/

/-- A transfer of the data link fails when an injection corrupts it (Table 13.10). -/
def linkPass (ok : Bool) (s : State) : Bool × State :=
  let (bad, s) := fiHit 5 0 s
  (ok && !bad, s)

/-- DATA_LINK_KEEP_ALIVE (R26): an idle link, 64 ns after the last transfer of each end. -/
def execDataLinkKeepAlive (okS okC : Bool) (s : State) : Host.Outcome State Fault Refusal :=
  let (a, s) := linkPass okS s
  let (b, s) := linkPass okC s
  .next { s with core.sinceS := if a then 0 else s.core.sinceS + 64, core.sinceC := if b then 0 else s.core.sinceC + 64 }

/-- DATA_LINK_TRANSFER (R26): a transfer arrives at a die; one that fails is repeated. -/
def execDataLinkTransfer (toS ok : Bool) (s : State) : Host.Outcome State Fault Refusal :=
  let (ok, s) := linkPass ok s
  .next (if !ok then { s with core.repeats := s.core.repeats + 1 }
    else if toS then { s with core.sinceS := 0 } else { s with core.sinceC := 0 })

/-- DATA_LINK_LOST_S (R26, R27, R507): die S forces the outputs off, ends the lead, and channel B removes torque in every zone. -/
def execDataLinkLostS (s : State) : Host.Outcome State Fault Refusal :=
  .next (if s.core.lostS || s.core.sinceS < 1000 then s
    else deviceFault true 2 (stopLead (holdOff { s with core.lostS := true, core.boost := true })))

/-- DATA_LINK_LOST_C (R26, R27): every axis takes its fault reaction; cause LINK_DS. -/
def execDataLinkLostC (s : State) : Host.Outcome State Fault Refusal :=
  .next (if s.core.lostC || s.core.sinceC < 1000 then s
    else
      let s := cause 0x10 0 (holdOff { s with core.lostC := true })
      eachN (usedAxes s) (fun n s => react n 0 4 s) s)

/-! ### Clock and reservation (R21, R22, R47) -/

/-- The class A contexts of a region, and those a reserved unit serves. -/
def classA (s : State) (g : Nat) : List Nat := (homed s g).filter fun n => (s.ctx n).cls == 0
def servedA (s : State) (g u : Nat) : List Nat := (classA s g).filter fun n => (s.ctx n).unit == u

/-- The region wants the economy clock (R21). -/
def wantsEcon (s : State) (g : Nat) : Bool :=
  fbit s (REGION_CTRL g) REGION_CTRL_ECON_REQ && (classA s g).isEmpty && regState s g != 3 && regState s g != 4

/-- The unit that a reservation bit names. -/
def resvUnit (g : Nat) (hi : Bool) : Nat := 8 * g + (if hi then 7 else 3)

/-- The unit is one of a Lagoon pair. -/
def inLagoon (s : State) (u : Nat) : Bool := joined s u || joined s (u - 1)

/-- A write of REGION_CTRL (R21, R47). -/
def regionCtrlEff (g : Nat) (v : Word) : Eff := fun s =>
  let a := REGION_CTRL g
  let keep (f : Fld) (hi : Bool) : Bool :=
    let u := resvUnit g hi
    if fieldOf v f = fget s a f then false
    else if fieldOf v f = 0 then !(servedA s g u).isEmpty
    else inLagoon s u
  let kLo := keep REGION_CTRL_RESV_LO false
  let kHi := keep REGION_CTRL_RESV_HI true
  let econ := fieldOf v REGION_CTRL_ECON_REQ = 1 && !fbit s a REGION_CTRL_ECON_REQ && !(classA s g).isEmpty
  let v := if kLo then withField v REGION_CTRL_RESV_LO (fget s a REGION_CTRL_RESV_LO) else v
  let v := if kHi then withField v REGION_CTRL_RESV_HI (fget s a REGION_CTRL_RESV_HI) else v
  match plainEff a v s with
  | none => none
  | some s =>
    let s := if econ then sedRule a s else s
    let s := if kLo then sedRule a s else s
    some (if kHi then sedRule a s else s)

/-- REGION_CTRL_WRITE (R47). -/
def execRegionCtrlWrite (w : Who) (g : BitVec 2) (v : Word) (s : State) : Host.Outcome State Fault Refusal :=
  .next (gated w (REGION_CTRL g.toNat) v (regionCtrlEff g.toNat v) s)

/-- The clock a region wants is switched to, with the mark of R76. -/
def clockSwitch (g : Nat) (s : State) : State :=
  if wantsEcon s g == fbit s (REGION_STATUS g) REGION_STATUS_CLK_ECON then s
  else
    let e := wantsEcon s g
    let s := fput s (REGION_STATUS g) REGION_STATUS_CLK_ECON e
    eachN (List.range 8) (fun i s =>
      let x := s.unit (8 * g + i)
      s.setUnit (8 * g + i) { x with clkchg := true, econ := x.econ || e }) s

/-- CLOCK_SWITCH (R22). -/
def execClockSwitch (g : BitVec 2) (s : State) : Host.Outcome State Fault Refusal := .next (clockSwitch g.toNat s)

/-- A pending reservation takes effect while the unit runs no task (R47). -/
def applyResv (g : Nat) (hi : Bool) (s : State) : State :=
  let want := fbit s (REGION_CTRL g) (if hi then REGION_CTRL_RESV_HI else REGION_CTRL_RESV_LO)
  let r := s.region g
  if (s.unit (resvUnit g hi)).job.isSome then s
  else s.setRegion g (if hi then { r with resvHi := want } else { r with resvLo := want })

/-- RESERVATION_APPLY (R47). -/
def execReservationApply (g : BitVec 2) (hi : Bool) (s : State) : Host.Outcome State Fault Refusal :=
  .next (applyResv g.toNat hi s)

/-! ### Voltage and temperature (R20, R23, R24) -/

/-- How many neighbour steps lie between two regions of the 2 × 2 grid. -/
def gridDist (g h : Nat) : Nat := (if g % 2 = h % 2 then 0 else 1) + (if g / 2 = h / 2 then 0 else 1)

/-- The regions' voltages: each at its own target, held up to within 80 mV of its neighbours (R23); a reloading region runs at its own (R449). -/
def setVolts (s : State) : State :=
  let t (g : Nat) : Nat := min 160 (s.region g).target
  let own (g : Nat) : Bool := regState s g == 3 || regState s g == 4
  eachN [0, 1, 2, 3] (fun g s =>
    let v := if own g then t g
      else ([0, 1, 2, 3].filter fun h => !own h).foldl (fun m h => max m (t h - 80 * gridDist g h)) (t g)
    fput (fset s (REGION_STATUS g) REGION_STATUS_VCORE v) (REGION_STATUS g) REGION_STATUS_VCLAMP (decide (t g < v))) s

/-- THERMAL_MEASURE (R24): the junction temperatures in °C, two's complement. Each region's own voltage target is a free value (R20). -/
def execThermalMeasure (t0 t1 t2 t3 : BitVec 8) (s : State) : Host.Outcome State Fault Refusal :=
  .next (if !s.sch.started || rdN s TICK_COUNT % 1024 ≠ 0 then s
  else
    let ts : List Int := [t0.toInt, t1.toInt, t2.toInt, t3.toInt]
    let tj (g : Nat) : Int := ts.getD g 0
    let s := eachN [0, 1, 2, 3] (fun g s => fset s (REGION_STATUS g) REGION_STATUS_TJ (ux 8 (tj g))) s
    let far (lim : Int) (g h : Nat) : Bool := gridDist g h == 1 && (decide (lim < tj g - tj h) || decide (lim < tj h - tj g))
    let s := eachN [0, 1, 2, 3] (fun g s =>
      let now := [0, 1, 2, 3].any (far 20 g)
      let near := !([0, 1, 2, 3].any (far 18 g))
      if now && !fbit s (REGION_STATUS g) REGION_STATUS_NEIGH_DT then
        w1cSet (REGION_STATUS g) REGION_STATUS_NEIGH_DT g s
      else if near then fput s (REGION_STATUS g) REGION_STATUS_NEIGH_DT false
      else s) s
    let s := setCond SCH_STATUS_COND_THERMAL ([0, 1, 2, 3].any fun g => fbit s (REGION_STATUS g) REGION_STATUS_NEIGH_DT) s
    let s := eachN [0, 1, 2, 3] (fun g s =>
      let t := (Config.vcoreTarget s.freeCtr).toNat
      { s.setRegion g { s.region g with target := t } with freeCtr := s.freeCtr + 1 }) s
    setVolts { s with core.measured := true })

/-! ### Quarantine and migration (R36 to R45) -/

/-- QUAR_WINDOW_END (R36): every 65,536 basic cycles. -/
def execQuarWindowEnd (s : State) : Host.Outcome State Fault Refusal :=
  .next (if s.sch.started && rdN s TICK_COUNT % 65536 = 0 then
      eachN [0, 1, 2, 3] (fun g s => fset s (REGION_TILE_ERR g) REGION_TILE_ERR_WINDOW 0) s
    else s)

/-- The words of a page take their reset values (R495). -/
def clearPage (page size : Nat) (s : State) : State :=
  { s with regs := s.regs.filter fun e => !(decide (page ≤ e.1) && decide (e.1 < page + size)) }

/-- Reload of a quarantined region starts (R449): region reset, full clock, its own voltage. -/
def startReload (g : Nat) (s : State) : State :=
  if regState s g ≠ 2 then s
  else
    let s := setRegState g 3 (logSteward 5 0 g 0 s)
    let s := eachN (List.range 8) (fun i s =>
      let u := 8 * g + i
      imageRewrite (PMEM u 0) (PMEM u 0 + 0x8000) (clearPage (PMEM u 0) 0x8000 ((s.setUnit u {}).setLan u {}))) s
    setVolts (clockSwitch g s)

/-- A write of REGION_CMD (R37, R48, R449). -/
def regionCmdEff (g : Nat) (v : Word) : Eff := fun s =>
  if wbit v 0 && wbit v 1 then some (sedRule (REGION_CMD g) s)
  else if wbit v 0 then some (if regState s g = 0 then startQuarantine g s else s)
  else if wbit v 1 then some (startReload g s)
  else some s

/-- QUARANTINE (R48). -/
def execQuarantine (w : Who) (g : BitVec 2) (s : State) : Host.Outcome State Fault Refusal :=
  .next (gated w (REGION_CMD g.toNat) 1 (regionCmdEff g.toNat 1) s)

/-- RELOAD (R449). -/
def execReload (w : Who) (g : BitVec 2) (s : State) : Host.Outcome State Fault Refusal :=
  .next (gated w (REGION_CMD g.toNat) 2 (regionCmdEff g.toNat 2) s)

/-- The reserved unit of a region with fewer than 4 class A contexts (R15, R40). -/
def freeResv (s : State) (g : Nat) : Option Nat :=
  let r := s.region g
  if r.resvLo && (servedA s g (8 * g + 3)).length < 4 then some (8 * g + 3)
  else if r.resvHi && (servedA s g (8 * g + 7)).length < 4 then some (8 * g + 7)
  else none

/-- The tiles of an axis's cam that lie in a region (R40, R41). -/
def camTilesIn (s : State) (n g : Nat) : List Nat :=
  let i := fget s (PF_CAM n) PF_CAM_CAM_ID
  if fbit s (CAM_INFO i) CAM_INFO_VALID then (chainOf s i).filter fun t => t / 384 == g && tileUsed s t else []

/-- The destination of a context of region `g`: the eligible region with the most free slots, the lower number first (R39, R40). -/
def destOf (s : State) (n g : Nat) (bad : Nat → Bool) : Option Nat :=
  let need := (camTilesIn s n g).length
  let ok (d : Nat) : Bool :=
    d != g && !bad d && regState s d == 0 && fbit s (REGION_CTRL d) REGION_CTRL_MIGRATE_OK && decide ((homed s d).length < 64) &&
      decide (need ≤ (freeTiles s d).length) && ((s.ctx n).cls != 0 || (freeResv s d).isSome)
  ([0, 1, 2, 3].filter ok).foldl (fun b d => match b with
    | none => some d
    | some x => if (homed s d).length < (homed s x).length then some d else some x) none

/-- The first free tile slot of a region (R493). -/
def freeSlot (s : State) (g : Nat) : Nat :=
  ((List.range 64).find? fun k => (homed s g).all fun n => (s.ctx n).slot != k).getD 0

/-- A context takes its place in a region. -/
def homeIn (n d : Nat) (s : State) : State :=
  let c := s.ctx n
  let k := freeSlot s d
  let u := if c.cls = 0 then (freeResv s d).getD c.unit else c.unit
  showContexts (s.setCtx n { c with region := d, slot := k, unit := u })

/-- The cam tiles of an axis that lie in region `g` are rebuilt in region `d`, and the chain follows them (R41). -/
def moveCams (n g d : Nat) (s : State) : State :=
  let i := fget s (PF_CAM n) PF_CAM_CAM_ID
  let r := tget {} s.boot.bank (s.ctx n).recipe
  (camTilesIn s n g).foldl (fun s t =>
    match (freeTiles s d).head? with
    | none => s
    | some x =>
      let k := (chainOf s i).findIdx (· == t)
      let ws := match r.cams.find? fun c => c.id == i with
        | some c => camTileWords c k
        | none => rdWords s (camTileAddr t) 1024
      let s := wr (wrWords s (camTileAddr x) ws) (TILE_CRC x) (crcWords ws)
      let s := wr s (TILE_INFO x) (rd s (TILE_INFO t))
      let prev := (chainOf s i).find? fun y => fget s (TILE_INFO y) TILE_INFO_NEXT == t && y != x
      let s := match prev with
        | some y => fset s (TILE_INFO y) TILE_INFO_NEXT x
        | none => fset s (CAM_INFO i) CAM_INFO_FIRST x
      releaseTiles [t] s) s

/-- Addresses of a unit page that the tasks placed on a unit occupy. -/
def occupied (s : State) (u : Nat) : List Nat := (s.boot.lanes.filter fun e => e.1 == u).flatMap fun e => e.2.words.map (·.1)

/-- Put a lane task on a unit: its words and its descriptor. -/
def placeTask (u : Nat) (t : LaneTask) (s : State) : State :=
  let s := t.words.foldl (fun s e => wr s (PMEM u 0 + e.1 % 0x8000) e.2) s
  let s := wr (wr s (LT_DESC_A u t.slot) t.a) (LT_DESC_B u t.slot) t.b
  let s := wrN s (LT_STAT u t.slot) (min 65535 t.span)
  let s := if t.unbounded then fput s (LT_STAT u t.slot) LT_STAT_UNBOUNDED true else s
  { s with boot.lanes := s.boot.lanes ++ [(u, t)] }

/-- The lane tasks of a quarantined region restart on other units; one that finds none is listed (R43). -/
def moveLanes (g : Nat) (s : State) : State :=
  let mine := s.boot.lanes.filter fun e => e.1 / 8 == g
  let s := { s with boot.lanes := s.boot.lanes.filter fun e => e.1 / 8 != g }
  mine.foldl (fun s e =>
    let ax := if fieldOf e.2.b LT_DESC_B_AXV = 1 then some (fieldOf e.2.b LT_DESC_B_AXIS) else none
    let d : Option Nat := match ax with
      | some n => if (s.ctx n).region = g then none else some (s.ctx n).region
      | none => ([0, 1, 2, 3].filter (· != g)).foldl (fun b d => match b with
          | none => some d
          | some x => if (homed s d).length < (homed s x).length then some d else some x) none
    let was := reservedUnit s e.1
    let fits (u : Nat) : Bool :=
      reservedUnit s u == was && (List.range 8).any (fun k => !fbit s (LT_DESC_A u k) LT_DESC_A_VALID) &&
        e.2.words.all fun w => !((occupied s u).contains w.1)
    let s := fput s (LT_DESC_A e.1 e.2.slot) LT_DESC_A_VALID false
    let u := match d with
      | some d => ((List.range 8).map (8 * d + ·)).find? fits
      | none => none
    match u with
    | some u =>
      let k := ((List.range 8).find? fun k => !fbit s (LT_DESC_A u k) LT_DESC_A_VALID).getD 0
      logSteward 5 0 (fieldOf e.2.a LT_DESC_A_TASK) 0 (placeTask u { e.2 with slot := k } s)
    | none =>
      let r := s.region g
      { s.setRegion g { r with lanesOut := r.lanesOut ++ [fieldOf e.2.a LT_DESC_A_TASK] } with
        boot.lanes := s.boot.lanes ++ [e] }) s

/-- Migration out of a region is over (R39, R43, R449). -/
def migrationEnd (g : Nat) (s : State) : State :=
  let s := setRegState g 2 (logSteward 5 0 g 0 (moveLanes g s))
  let s := s.setRegion g { s.region g with moving := [] }
  if fbit s SYS_CTRL SYS_CTRL_AUTO_RELOAD then startReload g s else s

/-- A context that is not moved takes its fault reaction and is listed (R42). -/
def leaveBehind (n g : Nat) (s : State) : State :=
  let r := s.region g
  raiseCause n 10 (s.setRegion g { r with unplaced := r.unplaced ++ [n] })

/-- One context moves, between two of its samples (R41, R42). -/
def migrateOne (n g : Nat) (s : State) : State :=
  match destOf s n g (fun _ => false) with
  | none => leaveBehind n g s
  | some d =>
    let (ok, s) := checkState n s
    if !ok then leaveBehind n g (tileError g s)
    else
      let t := tget [] s.law.store n
      let s := if t = [] then s else wrAll (LAW_TILE n) 0 t s
      let s := homeIn n d (moveCams n g d s)
      let c := (s.ctx n).cls
      let mine := (s.ready g c).filter fun e => e.id == n
      let s := (s.setReady g c ((s.ready g c).filter fun e => e.id != n))
      logSteward 5 0 n 0 (s.setReady d c (s.ready d c ++ mine))

/-- MIGRATE_CONTEXT (R39, R41). -/
def execMigrateContext (s : State) : Host.Outcome State Fault Refusal :=
  .next (match [0, 1, 2, 3].find? fun g => regState s g == 1 with
  | none => s
  | some g =>
    match (s.region g).moving with
    | [] => migrationEnd g s
    | n :: rest =>
      if lawRuns s n then s
      else
        let s := migrateOne n g (s.setRegion g { s.region g with moving := rest })
        if rest = [] then migrationEnd g s else s)

/-- An unplaced context is installed in the reloaded region from its bank, INIT = 0, its reaction latched (R450). -/
def reinstall (n : Nat) (s : State) : State :=
  let t := tget [] s.law.store n
  let s := if t = [] then s else wrAll (LAW_TILE n) 0 t s
  clearInit n (putState s n (List.replicate 64 0))

/-- RELOAD_TEST_DONE (R450): `bad` names the failed unit, 0xFF the memory. -/
def execReloadTestDone (g : BitVec 2) (bad : Option (BitVec 8)) (s : State) : Host.Outcome State Fault Refusal :=
  let j := g.toNat
  .next (if regState s j ≠ 3 && regState s j ≠ 4 then s
  else match bad with
  | some b => setVolts (cause 0x15 (j * 256 + b.toNat) (setRegState j 2 s))
  | none =>
    let r := s.region j
    let s := fset (setRegState j 0 s) (REGION_TILE_ERR j) REGION_TILE_ERR_WINDOW 0
    let s := s.setRegion j { r with unplaced := [], lanesOut := [] }
    let s := eachN r.unplaced reinstall s
    let back := s.boot.lanes.filter fun e => r.lanesOut.contains (fieldOf e.2.a LT_DESC_A_TASK) && e.1 / 8 == j
    let s := back.foldl (fun s e => placeTask e.1 e.2 s) { s with boot.lanes := s.boot.lanes.filter fun e => !(back.contains e) }
    setVolts (logSteward 5 0 j 0 s))

end Sys2Proof.Machine
end

