-- ==== Sys2Proof/Machine/Reset.lean ====
section
/-! DEFINITION. The flash, the resets, and the steward's jobs: slots and their validity (R426 to R430), causes and resets (R435 to R442, R510), write jobs (R443, R444), log persistence (R446), recipe banks (R447, R448), fault injection (R481). -/

namespace Sys2Proof.Machine
open R

/-! ### Slots -/

/-- A slot by its name: false A, true B. -/
def slotOf (s : State) (b : Bool) : SlotImg := if b then s.boot.flash.b else s.boot.flash.a
def setSlot (b : Bool) (x : SlotImg) (s : State) : State :=
  if b then { s with boot.flash.b := x } else { s with boot.flash.a := x }

/-- The slot in use, and what it holds. -/
def runB (s : State) : Bool := fbit s BOOT_STATUS BOOT_STATUS_SLOT
def runSlot (s : State) : SlotImg := slotOf s (runB s)

/-- The section of a type and index. -/
def secOf (x : SlotImg) (typ idx : Nat) : Option Section := x.secs.find? fun e => e.typ == typ && e.idx == idx

/-- Its place in the directory, 0xFF when absent. -/
def secNo (x : SlotImg) (typ idx : Nat) : Nat :=
  match x.secs.findIdx? fun e => e.typ == typ && e.idx == idx with
  | some i => i
  | none => 0xFF

/-- The section that fails R428, if any: 0xFF for the major version. -/
def fmtFail (x : SlotImg) : Option Nat :=
  if x.fmt / 256 % 256 ≠ 1 then some 0xFF
  else
    x.secs.findIdx? fun e => !(decide (1 ≤ e.typ) && decide (e.typ ≤ 11)) && !(decide (3 < x.fmt % 256) && e.optional)

/-- The key and signature of the SIG section. -/
def sigOf (x : SlotImg) : Option (List (BitVec 8) × List (BitVec 8)) :=
  x.secs.findSome? fun e => match e.body with
    | .sig k rs => some (k, rs)
    | _ => none

/-- Authentication fails: 0 key hash, 1 signature, 2 missing (R429). -/
def authFail (x : SlotImg) : Option Nat :=
  match sigOf x with
  | none => if Config.authReq then some 2 else none
  | some (k, rs) =>
    if !Config.keySet then none
    else if sha256 k ≠ (List.range 8).flatMap (fun i => beBytes (Config.keyHash i)) then some 0
    else if Config.ecdsaOk k x.digest rs then none
    else some 1

/-- The image passed R429 with a SIG section. -/
def signedImg (x : SlotImg) : Bool := (sigOf x).isSome && Config.keySet && (authFail x).isNone

/-- A commit record and a directory that matches it: what phase 3 reads. -/
def committed (x : SlotImg) : Bool := x.commit.isSome && x.dirOk

/-- The slot is valid (R426). -/
def slotValid (x : SlotImg) : Bool :=
  committed x && x.secs.all (·.crcOk) && (fmtFail x).isNone && (authFail x).isNone

/-- IGEN of a slot. -/
def igenOf (x : SlotImg) : Nat := match x.commit with | some c => c.igen | none => 0

/-- The later of two valid slots: true for B (R427). -/
def laterB (s : State) (ok : SlotImg → Bool) : Bool :=
  if ok s.boot.flash.a && ok s.boot.flash.b then later 32 (igenOf s.boot.flash.b) (igenOf s.boot.flash.a) else ok s.boot.flash.b

/-- The free slot: the one not in use; in minimal mode the one not valid, or the one with the earlier IGEN (R443). -/
def freeB (s : State) : Bool :=
  if fbit s BOOT_STATUS BOOT_STATUS_MINIMAL then
    if !slotValid s.boot.flash.a then false else if !slotValid s.boot.flash.b then true else !laterB s slotValid
  else !runB s

/-- IGEN of a new image (R443). -/
def nextGen (s : State) : Nat :=
  (igenOf (if fbit s BOOT_STATUS BOOT_STATUS_MINIMAL then slotOf s (laterB s slotValid) else runSlot s) + 1) % 2 ^ 32

/-- IMG_SLOTS and IMG_FREE_IGEN show the flash. -/
def showSlots (s : State) : State :=
  let f := s.boot.flash
  let s := fput (fput s IMG_SLOTS IMG_SLOTS_VALID_A (slotValid f.a)) IMG_SLOTS IMG_SLOTS_VALID_B (slotValid f.b)
  let s := fput (fput s IMG_SLOTS IMG_SLOTS_TORN_A f.a.torn) IMG_SLOTS IMG_SLOTS_TORN_B f.b.torn
  let x := slotOf s (freeB s)
  wrN s IMG_FREE_IGEN (if slotValid x then igenOf x else 0)

/-- A copy of the running slot with one section replaced (R443). -/
def copySlot (typ : Nat) (body : Body) (saved : Bool) (s : State) : SlotImg :=
  let x := runSlot s
  let sec : Section := { typ := typ, idx := 0, body := body }
  let secs := if x.secs.any fun e => e.typ == typ then x.secs.map fun e => if e.typ == typ then { sec with optional := e.optional } else e
    else x.secs ++ [sec]
  { x with secs := secs, torn := false,
           commit := some { igen := nextGen s, from' := if saved then igenOf x else 0, signed := signedImg x, saved := saved } }

/-- A job on the free slot is cut short: no valid commit record, torn (R444). -/
def tearJob (s : State) : State :=
  if fbit s IMG_JOB IMG_JOB_BUSY && fget s IMG_JOB IMG_JOB_JOB ≠ 5 then
    setSlot (freeB s) { slotOf s (freeB s) with commit := none, torn := true } s
  else s

/-! ### Causes and resets -/

/-- A cause that ends or prevents a start: kept in BOOT_CAUSE, the earlier ones move down (R438). -/
def recordCause (code detail : Nat) (s : State) : State :=
  let s := eachN [3, 2, 1] (fun i s => wr s (BOOT_HIST i) (rd s (BOOT_HIST (i - 1)))) s
  let s := wr s (BOOT_HIST 0) (rd s BOOT_CAUSE)
  let s := wrN s BOOT_CAUSE (code * 2 ^ 24 + detail % 65536)
  cause code detail { s with boot.recorded := true }

/-- The straps as a start sees them (R503). -/
def setStraps (rank : Bool) (test : BitVec 2) (s : State) : State :=
  let s := fput (fset s NET_ID NET_ID_HADDR (0xF0 + rank.toNat)) PAIR_STATUS PAIR_STATUS_STRAP rank
  fput { s with boot.test := test } TEST_STATUS TEST_STATUS_FTM_REQ (test != 0)

/-- What both full resets leave: NVM and fuses (Table 12.8). -/
def blank (s : State) : State :=
  let t := tearJob s
  { State.reset with boot := { flash := t.boot.flash }, safe := { log := t.safe.log }, host := { nvm := t.host.nvm },
                     freeCtr := t.freeCtr, pending := t.pending }

/-- Power-on reset (R439, R441). -/
def powerReset (rank : Bool) (test : BitVec 2) (s : State) : State := cause 1 0 (setStraps rank test (blank s))

/-- The cause of this reset is no failed start's (R440). -/
def unrecord (s : State) : State := { s with boot.recorded := false }

/-- RST_N or SELF (R435, R439, R440): BOOT_CNT, BOOT_CAUSE and BOOT_HIST, the straps and factory test mode survive. -/
def warmReset (code detail : Nat) (s : State) : State :=
  let t := setStraps (fbit s PAIR_STATUS PAIR_STATUS_STRAP) s.boot.test (blank s)
  let t := fset t BOOT_STATUS BOOT_STATUS_BOOT_CNT (fget s BOOT_STATUS BOOT_STATUS_BOOT_CNT)
  let t := eachN [0, 1, 2, 3] (fun i t => wr t (BOOT_HIST i) (rd s (BOOT_HIST i))) (wr t BOOT_CAUSE (rd s BOOT_CAUSE))
  let t := fset t LOG_NVM LOG_NVM_TORN (fget s LOG_NVM LOG_NVM_TORN)
  let t := fput (fput t TEST_STATUS TEST_STATUS_FTM (fbit s TEST_STATUS TEST_STATUS_FTM)) TEST_STATUS TEST_STATUS_UNLOCKED
    (fbit s TEST_STATUS TEST_STATUS_UNLOCKED)
  let t := setCond SCH_STATUS_COND_DEBUG (fbit s TEST_STATUS TEST_STATUS_FTM) t
  if s.boot.recorded then cause code detail t
  else unrecord (recordCause code detail t)

/-- The self reset of the steward (R435, R437): its detail is the cause that led to it. -/
def selfReset (s : State) : State := warmReset 4 (fget s BOOT_CAUSE BOOT_CAUSE_CAUSE) s

/-- A start that fails (R435). -/
def failStart (code detail : Nat) (s : State) : State := selfReset (recordCause code detail s)

/-- Minimal mode (R437): no lead is requested, every output is off, every zone in FAIL; T_b is 250 µs. -/
def minimalMode (s : State) : State :=
  let s := fput (fput s BOOT_STATUS BOOT_STATUS_MINIMAL true) NET_STATE NET_STATE_SVC_ONLY true
  let s := fset { s with pair.req := false } NET_CFG NET_CFG_TB 4
  showSlots (deviceFault false 7 (holdOff s))

/-- A cause that prevents a start leads into minimal mode (R436, R437). -/
def toMinimal (code detail : Nat) (s : State) : State := minimalMode (recordCause code detail s)

/-- POR (R441): both dies leave power-on reset; the straps are sampled. -/
def execPor (rank : Bool) (test : BitVec 2) (s : State) : Host.Outcome State Fault Refusal := .next (powerReset rank test s)

/-- VCORE_FAULT (R510): acts as POR. -/
def execVcoreFault (rank : Bool) (test : BitVec 2) (s : State) : Host.Outcome State Fault Refusal := .next (powerReset rank test s)

/-- RST_N (R504): low for `ns`; between 200 ns and 1 µs it may or may not reset. -/
def execRstN (ns : Nat) (s : State) : Host.Outcome State Fault Refusal :=
  let (b, s) := if 200 ≤ ns && ns < 1000 then takeFreeBool s else (decide (1000 ≤ ns), s)
  .next (if b && !s.boot.held then warmReset 2 0 s else s)

/-- Reset stays held (R510). -/
def holdReset (s : State) : State := { s with boot.held := true }

/-- THERMAL_SHUTDOWN (R510): the outputs of bank S low, reset held. -/
def execThermalShutdown (s : State) : Host.Outcome State Fault Refusal :=
  .next (holdReset (powerReset (fbit s PAIR_STATUS PAIR_STATUS_STRAP) s.boot.test s))

/-- THERMAL_RECOVER (R510): a start as after POR. -/
def execThermalRecover (rank : Bool) (test : BitVec 2) (s : State) : Host.Outcome State Fault Refusal :=
  .next (if s.boot.held then powerReset rank test s else s)

/-- BOOT_TIMEOUT (R435). -/
def execBootTimeout (s : State) : Host.Outcome State Fault Refusal :=
  .next (if fbit s BOOT_STATUS BOOT_STATUS_BOOT_OK || fbit s BOOT_STATUS BOOT_STATUS_MINIMAL || s.boot.held || s.boot.ftmWait.isSome then s
    else failStart 0x0E 0xFF s)

/-- A write of SYS_CMD (R437, R452). -/
def sysCmdEff (v : Word) : Eff := fun s =>
  if wbit v 31 && wField v 15 0 = 0xB007 then some (selfReset (fset s BOOT_STATUS BOOT_STATUS_BOOT_CNT 0))
  else some s

/-- BOOT_RETRY (R437). -/
def execBootRetry (w : Who) (s : State) : Host.Outcome State Fault Refusal :=
  .next (gated w SYS_CMD 0x8000B007 (sysCmdEff 0x8000B007) s)

/-! ### Write jobs (R443, R444) -/

/-- A write of IMG_CMD (R443, R452, R466). ABORT is taken while a job runs. -/
def imgCmdEff (v : Word) : Eff := fun s =>
  let busy := fbit s IMG_JOB IMG_JOB_BUSY
  let job := fget s IMG_JOB IMG_JOB_JOB
  let ask (kind : Nat) (ok : Bool) (s : State) : State :=
    if busy then
      if job = 2 || job = 4 then sedBusy IMG_CMD s else fset s IMG_JOB IMG_JOB_RESULT 1
    else if ok then startJob kind s
    else fset s IMG_JOB IMG_JOB_RESULT 7
  some (match wField v 31 30 with
    | 1 => ask 2 (fbit s BOOT_STATUS BOOT_STATUS_BOOT_OK) s
    | 2 =>
      if busy && job ≠ 5 then
        let s := if job = 3 then safeResult 6 { s with safe.confirm := none } else s
        logSteward 4 6 0 0 (showSlots (endJob 6 { tearJob s with host.img := none }))
      else s
    | 3 => ask 4 true s
    | _ => s)

/-- SAVE (R443). -/
def execSave (w : Who) (s : State) : Host.Outcome State Fault Refusal :=
  .next (gated w IMG_CMD 0x40000000 (imgCmdEff 0x40000000) s)

/-- ABORT (R466). -/
def execAbort (w : Who) (s : State) : Host.Outcome State Fault Refusal :=
  .next (gated w IMG_CMD 0x80000000 (imgCmdEff 0x80000000) s)

/-- ERASE (R443). -/
def execErase (w : Who) (s : State) : Host.Outcome State Fault Refusal :=
  .next (gated w IMG_CMD 0xC0000000 (imgCmdEff 0xC0000000) s)

/-- What a SAVE writes as TUNE: the law tiles of the recipe store and the register values changed in service (Table 12.4, R496). -/
def tuneBody (s : State) : Body :=
  .tune ((usedAxes s).map fun n => (n, tget [] s.law.store n)) ((s.boot.img.filter fun e => rd s e.1 != e.2).map fun e => (e.1, rd s e.1))

/-- Result of an image write by what reads back (R443 step 4): 2 CRC, 3 FORMAT, 4 AUTH, 5 NVM. -/
def imgVerdict (nvmOk : Bool) (x : SlotImg) : Nat :=
  if !nvmOk then 5
  else if !x.dirOk || !x.secs.all (·.crcOk) then 2
  else if (fmtFail x).isSome then 3
  else if (authFail x).isSome then 4
  else 0

/-- A job ends: the slot it leaves, its RESULT, its record (R443, R470). -/
def finishJob (result : Nat) (x : SlotImg) (s : State) : State :=
  let s := setSlot (freeB s) x s
  logSteward 4 result 0 0 (showSlots (endJob result s))

/-- The running job completes its steps (R443). `img` is what the slot of an image write reads back as. -/
def jobDone (nvmOk : Bool) (img : SlotImg) (s : State) : State :=
  if !fbit s IMG_JOB IMG_JOB_BUSY then s
  else match fget s IMG_JOB IMG_JOB_JOB with
    | 1 =>
      let r := imgVerdict nvmOk img
      let c : CommitRec := { igen := nextGen s, signed := signedImg img }
      finishJob r (if r = 0 then { img with commit := some c, torn := false } else {}) { s with host.img := none }
    | 2 => if nvmOk then finishJob 0 (copySlot 8 (tuneBody s) true s) s else finishJob 5 {} s
    | 4 => finishJob (if nvmOk then 0 else 5) {} s
    | _ => s

/-- TORN_SLOT_ERASE (R444). -/
def execTornSlotErase (s : State) : Host.Outcome State Fault Refusal :=
  .next (if fbit s IMG_JOB IMG_JOB_BUSY && fget s IMG_JOB IMG_JOB_JOB = 5 then
      let one (b : Bool) (s : State) : State := if (slotOf s b).torn then setSlot b {} s else s
      logSteward 4 0 0 0 (showSlots (endJob 0 (one true (one false s))))
    else s)

/-- SAFETY_WRITE_DONE (R418 step 3): the new section is verified in the free slot, or failed. -/
def execSafetyWriteDone (ok : Bool) (s : State) : Host.Outcome State Fault Refusal :=
  .next (match s.safe.confirm with
  | none => s
  | some (l, p, n) =>
    let s := { s with safe.confirm := none }
    if ok then
      let s := applyConfirm l p n s
      let x := match s.safe.sec with | some c => copySlot 7 (.safety c) false s | none => slotOf s (freeB s)
      safeResult 0 (finishJob 0 x s)
    else safeResult 6 (finishJob 5 {} (safeLog p n 0xFFFFFFFC 0 0 6 (rd s SAFE_SIG) s)))

/-! ### The change log in NVM (R445, R446, R474) -/

/-- Places of the change-log ring in the log region, one 4 KiB sector kept erased (R445). -/
def logCap (s : State) : Nat :=
  match s.boot.flash.hdr with
  | some h => (h.logSize - 135168) / 128 - 32
  | none => 0

/-- LOG_PERSIST (R446): the oldest record not yet persisted; entering a full ring's next sector erases the oldest 32 entries. -/
def execLogPersist (s : State) : Host.Outcome State Fault Refusal :=
  let p := fget s LOG_NVM LOG_NVM_PENDING
  .next (match s.host.log[s.host.log.length - p]? with
  | none => s
  | some r =>
    if p = 0 then s
    else
      let old := if s.host.nvm.length < logCap s then s.host.nvm else s.host.nvm.drop 32
      let s := fset { s with host.nvm := old ++ [r] } LOG_NVM LOG_NVM_PENDING (p - 1)
      if p - 1 < 3840 && 0 < s.host.lost then logSteward 5 0 0 s.host.lost { s with host.lost := 0 } else s)

/-! ### Recipe banks (R447, R448) -/

def setBank (b x : Nat) (s : State) : State := fset s RCP_STATUS ⟨2 * b + 1, 2 * b⟩ x

/-- The bank is the active recipe of a group that has axes, or a changeover under way names it (R447). -/
def bankInUse (s : State) (b : Nat) : Bool :=
  (List.range 16).any fun g =>
    (fget s (CO_STATUS g) CO_STATUS_ACTIVE == b && !(groupAxes s g).isEmpty) ||
    (decide (1 ≤ coState s g) && decide (coState s g ≤ 3) && (s.co g).recipe == b)

/-- DONE and RESULT of RCP_STATUS, with the steward's record (R470). -/
def rcpResult (r b : Nat) (s : State) : State :=
  logSteward 3 r b 0 (fset (fput s RCP_STATUS RCP_STATUS_DONE true) RCP_STATUS RCP_STATUS_RESULT r)

/-- A write of RCP_CMD (R448, R452). -/
def rcpCmdEff (v : Word) : Eff := fun s =>
  let b := wField v 10 8
  let k := wField v 3 0
  if s.boot.load.isSome || s.boot.travel.isSome then
    some (sedBusy RCP_CMD s)
  else
    let s := fput s RCP_STATUS RCP_STATUS_DONE false
    some (match wField v 31 30 with
      | 1 =>
        if bankInUse s b || bankState s b = 1 then rcpResult 2 b s
        else if (secOf (runSlot s) 6 k).isNone then rcpResult 3 b s
        else if mirrorDown s then rcpResult 5 b s
        else setBank b 1 { s with boot.load := some (b, k), boot.bank := tset {} s.boot.bank b {} }
      | 2 =>
        if bankInUse s b then rcpResult 2 b s
        else rcpResult 0 b (setBank b 0 (wr { s with boot.bank := tset {} s.boot.bank b {} } (RCP_BANK b) 0))
      | _ => s)

/-- LOAD (R448). -/
def execLoad (w : Who) (bank : BitVec 3) (sec : BitVec 4) (s : State) : Host.Outcome State Fault Refusal :=
  let v := BitVec.ofNat 32 (2 ^ 30 + bank.toNat * 256 + sec.toNat)
  .next (gated w RCP_CMD v (rcpCmdEff v) s)

/-- CLEAR (R448). -/
def execClear (w : Who) (bank : BitVec 3) (s : State) : Host.Outcome State Fault Refusal :=
  let v := BitVec.ofNat 32 (2 ^ 31 + bank.toNat * 256)
  .next (gated w RCP_CMD v (rcpCmdEff v) s)

/-- A bank holds a section of the running slot. -/
def fillBank (b k : Nat) (r : Recipe) (len : Nat) (s : State) : State :=
  wrN (setBank b 2 { s with boot.bank := tset {} s.boot.bank b r }) (RCP_BANK b) (k * 2 ^ 28 + len)

/-- RECIPE_LOAD_DONE (R448): in a pair the bank becomes READY when an ACK covers its last record. -/
def execRecipeLoadDone (s : State) : Host.Outcome State Fault Refusal :=
  .next (match s.boot.load with
  | none => s
  | some (b, k) =>
    let s := { s with boot.load := none }
    match secOf (runSlot s) 6 k with
    | some e =>
      match e.crcOk, e.body with
      | true, .recipe _ r =>
        if mirroring s then
          let s := addRec 3 .steward (beOf 4 (0x1000000 + 0x280000 * (b / 2) + 0x1B8000 + 0x40000 * (b % 2)) ++ beOf 1 b ++ beOf 1 k) s
          { s with boot.travel := some (b, k, s.pair.rseq) }
        else rcpResult 0 b (fillBank b k r e.len s)
      | _, _ => rcpResult 4 b (setBank b 0 s)
    | none => rcpResult 4 b (setBank b 0 s))

/-- An ACK covers the records of a travelling bank (R448). -/
def bankCovered (rseq : Nat) (s : State) : State :=
  match s.boot.travel with
  | some (b, k, q) =>
    if later 32 q rseq then s
    else match secOf (runSlot s) 6 k with
      | some { body := .recipe _ r, len, .. } => rcpResult 0 b (fillBank b k r len { s with boot.travel := none })
      | _ => { s with boot.travel := none }
  | none => s

/-! ### Fault injection (R481) -/

/-- A write of FI_CMD: GO arms one injection; COUNT 0xFF on the data link suppresses its transfers for 2 µs. -/
def fiCmdEff (v : Word) : Eff := fun s =>
  let t := wField v 31 28
  if !wbit v 0 then some s
  else if !fbit s TEST_STATUS TEST_STATUS_FTM then none
  else if t = 0 || 8 < t then some (sedRule FI_CMD s)
  else
    let c := max 1 (wField v 15 8)
    some (fput { s with host.fi := some (t, wField v 27 16, if t = 5 && c = 255 then 32 else c) } FI_STATUS FI_STATUS_ARMED true)

/-- FAULT_INJECT (R481). -/
def execFaultInject (w : Who) (v : Word) (s : State) : Host.Outcome State Fault Refusal :=
  .next (gated w FI_CMD v (fiCmdEff v) s)

/-! ### The steward's watchdog (R33, R442) -/

/-- The steward and its stores reset; motion continues. The first record after the restart is the reset, then each aborted operation. -/
def stewardRestart (pc : Nat) (s : State) : State :=
  let p := fget s LOG_NVM LOG_NVM_PENDING
  let job := fget s IMG_JOB IMG_JOB_BUSY == 1
  let loading := s.boot.load.map (·.1)
  let regs := [0, 1, 2, 3].filter fun g => regState s g == 3 || regState s g == 4
  let s := if job then showSlots (endJob 6 (tearJob s)) else s
  let s := if s.safe.confirm.isSome then safeResult 6 { s with safe.confirm := none } else s
  let s := dropStaged (fput { s with safe.sess := none } SAFE_STATUS SAFE_STATUS_SESSION false)
  let kept := s.host.log.take (s.host.log.length - p)
  let newest : Option LogRec := (s.host.nvm.getLast?)
  let s := { s with
    host := { s.host with port := [], sessions := [], latch := [], staged := [], insReg := [], log := kept, merge := [],
                          seq := match newest with | some r => r.seq | none => 0, sub := match newest with | some r => r.sub | none => 0,
                          img := none },
    boot.load := none, boot.travel := none, boot.ended := none, sch.ins := [] }
  let s := fset (wr (wr s BLK_LOCK 0) HOST_STATUS 0) LOG_NVM LOG_NVM_PENDING 0
  let s := (match loading with | some b => setBank b 0 s | none => s)
  let s := eachN regs (fun g s => setRegState g 2 s) s
  let s := cause 3 pc (logSteward 5 0 0 3 s)
  let s := if job then logSteward 4 6 0 0 s else s
  let s := match loading with | some b => logSteward 3 6 b 0 s | none => s
  startTornErase (eachN regs (fun g s => logSteward 5 6 g 0 s) s)

/-- STEWARD_WATCHDOG (R442): before BOOT_OK it fails the start. -/
def execStewardWatchdog (pc : BitVec 16) (s : State) : Host.Outcome State Fault Refusal :=
  .next (if s.boot.held then s
    else if fbit s BOOT_STATUS BOOT_STATUS_BOOT_OK then stewardRestart pc.toNat s
    else failStart 3 pc.toNat s)

end Sys2Proof.Machine
end

