-- ==== Sys2Proof/Machine/HostWrite.lean ====
section
/-! DEFINITION. Register access by a host or the steward: the effect of a write by address (R7 to R10, R485, R489), the value a read shows, latches and read-clear fields (R488, R490), the SRAM window (R493, R494), BLK_LOCK (R462), and the mirrored records (R377). -/

namespace Sys2Proof.Machine
open R

/-! ### Staged pairs (R188, R489) -/

/-- Offsets of the low words of the writable 64-bit PF_ registers (Table 4.12). -/
def pfPairs : List Nat := [0x08, 0x10, 0x18, 0x20, 0x28, 0x30, 0x38, 0x40, 0x78, 0x88, 0x90, 0x98, 0xA0]

/-- The offset of a PF_ register in the page of its axis context. -/
def pfOfs (a : Nat) : Option Nat := if 0x200000 ≤ a && a < 0x210000 then some ((a - 0x200000) % 0x100) else none

/-- The low word of a staged pair. -/
def stagedLowAddr (a : Nat) : Bool :=
  a == VM_TARGET_LO || a == VM_ACCEL_LO || a == TIME_INC_LO ||
  match pfOfs a with
  | some o => pfPairs.contains o
  | none => false

/-- The high word of a staged pair. -/
def stagedHighAddr (a : Nat) : Bool := 4 ≤ a && stagedLowAddr (a - 4)

/-- A high word applies the pair with the low word its port wrote last (R489). -/
def pairEff (p a : Nat) (v : Word) : Eff := fun s =>
  match plainEff (a - 4) (stagedLow s p (a - 4)) (setStaged p (a - 4) none s) with
  | none => none
  | some t => plainEff a v t

/-- A write of a motion limit (R143). -/
def limitEff (p n a : Nat) (v : Word) : Eff := fun s =>
  (pairEff p a v s).map (modGen n fun g => { g with limDirty := true, ripe := false })

/-- A write of PF_CTRL: LIM_EN needs a pair PF_MIN < PF_MAX (R153). -/
def pfCtrlEff (n : Nat) (v : Word) : Eff := fun s =>
  if fieldOf v PF_CTRL_LIM_EN = 1 && !fbit s (PF_CTRL n) PF_CTRL_LIM_EN && decide (pMax s n ≤ pMin s n) then none
  else plainEff (PF_CTRL n) v s

/-- A write in the profile and cam engine. -/
def motionEff (p a : Nat) (v : Word) : Eff :=
  match pfOfs a with
  | some o =>
    let n := (a - 0x200000) / 0x100
    if o = 0x00 then pfCtrlEff n v
    else if o = 0x34 then fun s => some (setStaged p a (some v) s)
    else if o = 0x3C then virtualLimitEff p n v
    else if o = 0x48 then mvCmdEff n v
    else if o = 0x6C then gearDenEff n v
    else if o = 0x7C then shiftEff p n v
    else if o = 0xAC then pfCmdEff n v
    else if pfPairs.contains o then fun s => some (setStaged p a (some v) s)
    else if o < 0x30 && pfPairs.contains (o - 4) then limitEff p n a v
    else if pfPairs.contains (o - 4) then pairEff p a v
    else plainEff a v
  | none =>
    if 0x214000 ≤ a && a < 0x214200 && (a - 0x214000) % 0x20 = 0xC then coCtrlEff ((a - 0x214000) / 0x20) v
    else plainEff a v

/-! ### Blocks with rules of their own -/

/-- A write in the angle unit (R55, R59, R532). -/
def angleEff (p a : Nat) (v : Word) : Eff :=
  if a = MA_CMD then maCmdEff v
  else if stagedLowAddr a then fun s => some (setStaged p a (some v) s)
  else if stagedHighAddr a then pairEff p a v
  else if MA_SRC_CFG 0 ≤ a && a < MA_SRC_CFG 3 then fun s =>
    let n := (a - MA_SRC_CFG 0) / 0x10
    match plainEff a v s with
    | none => none
    | some t => some (if rd t a = rd s a then t else t.setSrc n { t.src n with restart := true })
  else plainEff a v

/-- A write in the scheduler block: the insertion registers have a copy for each port (R489). -/
def schEff (p a : Nat) (v : Word) : Eff :=
  if INS_KEY_LO ≤ a && a < INS_CMD then fun s => some (setInsReg p ((a - INS_KEY_LO) / 4) v s)
  else if a = INS_CMD then insCmdEff p v
  else plainEff a v

/-- A write in the time unit (R341, R355). -/
def timeEff (p a : Nat) (v : Word) : Eff :=
  if a = TIME_INC_LO then fun s => some (setStaged p a (some v) s)
  else if a = TIME_INC_HI then fun s => (pairEff p a v s).map applyInc
  else if a = PTP_CTRL then ptpCtrlEff v
  else plainEff a v

/-- A write in the network engine. -/
def netEff (a : Nat) (v : Word) : Eff :=
  if a = NET_CMD then netCmdEff v
  else if a = NET_CFG then netCfgEff v
  else if PORT_CTRL 0 ≤ a && a < PORT_CTRL 5 && a % 0x40 = 0 then portCtrlEff ((a - PORT_CTRL 0) / 0x40) v
  else if PORT_CTRL 0 ≤ a && a < PORT_CTRL 5 && a % 0x40 = 0xC then portCmdEff ((a - PORT_CTRL 0) / 0x40) v
  else plainEff a v

/-- A write in the axis-context block; the words of the tile update buffer are ignored while a commit runs (R121). -/
def axisEff (w : Who) (a : Nat) (v : Word) : Eff :=
  if 0x120000 ≤ a && a < 0x122000 then
    let n := (a - 0x120000) / 0x20
    if a % 0x20 = 0 then axCtrlEff n v
    else if a % 0x20 = 0x1C then axCmdEff n v
    else plainEff a v
  else if LAW_TUB 0 ≤ a && a < LAW_TUB 64 then fun s =>
    if fbit s LAW_TUB_STATUS LAW_TUB_STATUS_BUSY then some (sedBusy a s) else plainEff a v s
  else if a = LAW_TUB_CMD then tubCmdEff w v
  else plainEff a v

/-- A module shows the force of the zone its ZONE field names (R263). -/
def judgeModule (m : Nat) (s : State) : State :=
  let z := fget s (BR_CTRL m) BR_CTRL_ZONE
  let off := z < 8 && !bothOn s z
  if fbit s (BR_STATUS m) BR_STATUS_FORCED == off then s else forceModule m off s

/-- A timed output, likewise. -/
def judgeOut (k : Nat) (s : State) : State :=
  let z := fget s (TO_CFG k) TO_CFG_ZONE
  let off := z < 8 && !bothOn s z
  if fbit s (TO_STATUS k) TO_STATUS_FORCED == off then s else forceOut k off s

/-- A write in the bridge channels' block. -/
def bridgeEff (w : Who) (a : Nat) (v : Word) : Eff :=
  if a < 0x300800 then
    let m := (a - 0x300000) / 0x100
    let o := a % 0x100
    if o = 0 then fun s => (brCtrlEff m v s).map (judgeModule m)
    else if o = 4 then shadowEff w a v
    else if o = 0xC then commitEff m v
    else if 0x20 ≤ o && o < 0x50 then
      (match o % 0x10 with
       | 0 => shadowEff w a v
       | 4 => shadowEff w a v
       | 12 => chEff (3 * m + (o - 0x20) / 0x10) v
       | _ => plainEff a v)
    else plainEff a v
  else plainEff a v

/-- A write in the timed outputs' block. -/
def outEff (a : Nat) (v : Word) : Eff :=
  if a < 0x312000 then
    let k := (a - 0x310000) / 0x100
    if a % 0x100 = 0 then fun s => (toCfgEff k v s).map (judgeOut k)
    else if a % 0x100 = 0xC then toCmdEff k v
    else plainEff a v
  else plainEff a v

/-- A write in the encoder block. -/
def encEff (a : Nat) (v : Word) : Eff :=
  if a < 0x320100 && a % 0x40 = 0 then encCtrlEff ((a - 0x320000) / 0x40) v
  else if a < 0x320100 && a % 0x40 = 0x10 then encStatusEff ((a - 0x320000) / 0x40) v
  else plainEff a v

/-- A write in the signal lanes' block: memory with the lock open and the unit idle (R191). -/
def laneEff (a : Nat) (v : Word) : Eff :=
  let u := (a - 0x400000) / 0x8000
  let o := (a - 0x400000) % 0x8000
  if o < 0x6000 then fun s =>
    if !fbit s (LANE_STATUS u) LANE_STATUS_BUSY then some (wr s a v) else none
  else if o = 0x7000 then laneCtrlEff u v
  else if o = 0x70A8 then ltCmdEff u v
  else plainEff a v

/-- A write in the safety block within the session (R417). -/
def safetyEff (w : Who) (a : Nat) (v : Word) : Eff :=
  if a = SAFE_CMD then safeCmdEff w v
  else if paramAddrs.contains a || a = SAFE_CONFIRM then safeWordEff a v
  else plainEff a v

/-- A write of BLK_LOCK (R462, R492): all open locks belong to one session. -/
def blkLockEff (w : Who) (v : Word) : Eff := fun s =>
  let held := fget s BLK_LOCK BLK_LOCK_LOCK_SESS
  let was := fget s BLK_LOCK BLK_LOCK_OPEN
  let now := v.toNat % 65536 &&& 0x1FFE
  if w.port == .steward then some s
  else if held ≠ 0 && held ≠ w.sess.toNat then none
  else if fbit s BOOT_STATUS BOOT_STATUS_MINIMAL &&
      (was ^^^ now ≠ 2 || (roleOf s w ≠ 3 && roleOf s w ≠ 5)) then none
  else some (wrN s BLK_LOCK (now + (if now = 0 then 0 else w.sess.toNat * 65536)))

/-- A write in the host block. -/
def hostEff (w : Who) (a : Nat) (v : Word) : Eff :=
  if a = BLK_LOCK then blkLockEff w v
  else if a = FI_CMD then fiCmdEff v
  else if 0x701000 ≤ a && a < 0x701F00 then fun s =>
    some (withLine ((a - 0x701000) / 0x100) (fun s => (plainEff a v s).getD s) s)
  else plainEff a v

/-- A write in the system control block. -/
def sysEff (a : Nat) (v : Word) : Eff :=
  if a = SYS_CMD then sysCmdEff v
  else if a = IMG_CMD then imgCmdEff v
  else if a = RCP_CMD then rcpCmdEff v
  else if REGION_CTRL 0 ≤ a && a < REGION_CTRL 4 then
    (match (a - REGION_CTRL 0) % 0x10 with
     | 0 => regionCtrlEff ((a - REGION_CTRL 0) / 0x10) v
     | 12 => regionCmdEff ((a - REGION_CTRL 0) / 0x10) v
     | _ => plainEff a v)
  else plainEff a v

/-! ### The SRAM window (R493, R494) -/

/-- What a window address shows. -/
inductive WinAt where
  /-- a word that has an address of its own -/
  | home (a : Nat)
  /-- contents whose layout the spec does not give; steward working memory or not -/
  | raw (steward : Bool)
  /-- no SRAM -/
  | none
  deriving DecidableEq, Repr

/-- The region of a window address, and its offset. -/
def winRegion (a : Nat) : Nat := (a - 0x1000000) / 0x280000
def winOfs (a : Nat) : Nat := (a - 0x1000000) % 0x280000

/-- Table 14.3. -/
def winAt (s : State) (a : Nat) : WinAt :=
  let g := winRegion a
  let o := winOfs a
  if 4 ≤ g then .none
  else if o < 0x180000 then .home a
  else if o < 0x1B0000 then .home (0x400000 + 0x8000 * (8 * g + (o - 0x180000) / 0x6000) + (o - 0x180000) % 0x6000)
  else if o < 0x1B8000 then
    match (homed s g).find? fun n => (s.ctx n).slot == (o - 0x1B0000) / 0x200 with
    | some n => .home (LAW_TILE n 0 + (o - 0x1B0000) % 0x200)
    | none => .raw false
  else if o < 0x238000 then .raw false
  else if o < 0x258000 then .raw true
  else .raw false

/-- The region-homed part of a region that is reloading or verifying shows test patterns (R494). -/
def winTested (s : State) (a : Nat) : Bool :=
  winRegion a < 4 && winOfs a < 0x238000 && (regState s (winRegion a) == 3 || regState s (winRegion a) == 4)

/-- A write to the window stores the word and recomputes no CRC (R494). Where the layout is open, the stored word is kept beside the open contents. -/
def winEff (a : Nat) (v : Word) : Eff := fun s =>
  some (match winAt s a with
    | .home b => wr s b v
    | .raw _ => wr s a (v ^^^ Config.freeWord a)
    | .none => s)

/-! ### The effect of a write -/

/-- The effect of a write by address, for the port whose staged words and insertion registers it uses. -/
def effectOf (w : Who) (p a : Nat) (v : Word) : Eff :=
  if 0x1000000 ≤ a then winEff a v
  else match blockNo a with
    | 1 => sysEff a v
    | 2 => schEff p a v
    | 3 => angleEff p a v
    | 4 => timeEff p a v
    | 5 => netEff a v
    | 6 => axisEff w a v
    | 7 => motionEff p a v
    | 8 => bridgeEff w a v
    | 9 => outEff a v
    | 10 => encEff a v
    | 11 => laneEff a v
    | 12 => if a = PAIR_CMD then pairCmdEff v else plainEff a v
    | 13 => safetyEff w a v
    | 14 => hostEff w a v
    | _ => plainEff a v

/-- The address is inside the map and aligned (R484). -/
def addrOk (a : Nat) : Bool := a % 4 == 0 && decide (a < 0x2000000)

/-- A register write by address (R9, R484). -/
def writeReg (w : Who) (a : Nat) (v : Word) (s : State) : State :=
  if addrOk a then gated w a v (effectOf w (portCode w.port) a v) s else setAcc 3 0 s

/-! ### Reads -/

/-- Words a read of a leading register latches for its port (Table 14.2). -/
def latchGroup (s : State) (a : Nat) : List (Nat × Word) :=
  if a = MA_ANGLE then
    [(MA_CYCLE, BitVec.ofNat 32 (s.ang.key / 2 ^ 48)), (MA_FRAC, BitVec.ofNat 32 (s.ang.key % 2 ^ 16))]
  else if a = MA_SPEED_LO then [(MA_SPEED_HI, BitVec.ofInt 32 (s.ang.speed.fdiv (2 ^ 32)))]
  else if a = VM_SPEED_LO then [(VM_SPEED_HI, BitVec.ofNat 32 (ux 48 s.ang.vm / 2 ^ 32))]
  else if a = TIME_NS then [(TIME_ERA, BitVec.ofNat 32 (s.time.ns / 2 ^ 32))]
  else if CAM_STROKE_LO 0 ≤ a && a < CAM_STROKE_LO 256 && a % 0x10 = 4 then [(a + 4, rd s (a + 4))]
  else if SED 0 0 0 ≤ a && a < SED 15 0 0 && a % 0x100 ≠ 0 && a % 0x10 = 0 && a % 0x100 < 0x90 then
    [(a + 4, rd s (a + 4)), (a + 8, rd s (a + 8)), (a + 12, rd s (a + 12))]
  else match pfOfs a with
    | some o => if [0x50, 0x58, 0x60].contains o || (pfPairs.contains o && o ≠ 0x78) then [(a + 4, rd s (a + 4))] else []
    | none => []

/-- The leading register of a latched register. -/
def latchLead (a : Nat) : Option Nat :=
  if a = MA_CYCLE then some MA_ANGLE
  else if a = MA_FRAC then some MA_ANGLE
  else if a = MA_SPEED_HI then some MA_SPEED_LO
  else if a = VM_SPEED_HI then some VM_SPEED_LO
  else if a = TIME_ERA then some TIME_NS
  else if CAM_STROKE_LO 0 ≤ a && a < CAM_STROKE_LO 256 && a % 0x10 = 8 then some (a - 4)
  else if SED 0 0 0 ≤ a && a < SED 15 0 0 && a % 0x10 ≠ 0 && 0x10 ≤ a % 0x100 && a % 0x100 < 0x90 then some (a - a % 0x10)
  else match pfOfs a with
    | some o => if [0x54, 0x5C, 0x64].contains o || (4 ≤ o && pfPairs.contains (o - 4) && o ≠ 0x7C) then some (a - 4) else none
    | none => none

/-- Every record of the change log the head holds, oldest first: the NVM ring's older ones, then the SRAM ring (R475). -/
def allLog (s : State) : List LogRec :=
  s.host.nvm.take (s.host.nvm.length - (s.host.log.length - fget s LOG_NVM LOG_NVM_PENDING)) ++ s.host.log

/-- Records in order from a sequence number (R475). -/
def logFrom (s : State) (seq : Nat) : List LogRec := (allLog s).dropWhile fun r => later 32 seq r.seq

/-- Word i of a record, byte 4i in [7:0]. -/
def logWord (r : LogRec) (i : Nat) : Word := BitVec.ofNat 32 (beVal ((((logBytes r).drop (4 * i)).take 4).reverse))

/-- A record of this head that no ACK covers yet writes a page (R377). -/
def uncovered (s : State) (f : Nat → Bool) : Bool :=
  s.pair.recs.any fun o => o.port != .steward && o.r.kind == 1 && f (beVal (o.r.data.take 4))

/-- DONE shows once an ACK covers the record (R377). -/
def maskDone (b : Bool) (v : Word) : Word := if b then BitVec.ofNat 32 (v.toNat % 2 ^ 31) else v

/-- RCP_STATUS with a bank in use shown as 3 (Table 12.14). -/
def rcpStatus (s : State) : Word :=
  (List.range 8).foldl (fun v b =>
    if bankState s b = 2 && bankInUse s b then withField v ⟨2 * b + 1, 2 * b⟩ 3 else v) (rd s RCP_STATUS)

/-- The value of a word as a sender reads it, before latches. -/
def viewReg (w : Who) (s : State) (a : Nat) : Word :=
  match blockNo a with
  | 0 =>
    if a = DEV_REV then withField (rd s a) DEV_REV_STEP Config.devStep.toNat
    else if a = DEV_SERIAL then Config.serial
    else if a = ROM_VER then BitVec.ofNat 32 (Config.romSteward.toNat * 65536 + Config.romSafety.toNat)
    else if a = OTP_STATE then BitVec.ofNat 32 (Config.authReq.toNat * 2 + Config.keySet.toNat)
    else if KEY_HASH 0 ≤ a && a < KEY_HASH 8 then Config.keyHash ((a - KEY_HASH 0) / 4)
    else if a = MAC_HI then BitVec.ofNat 32 Config.macHi.toNat
    else if a = MAC_LO then Config.macLo
    else rd s a
  | 1 => if a = RCP_STATUS then rcpStatus s else rd s a
  | 2 =>
    if INS_KEY_LO ≤ a && a < INS_CMD then insReg s (portCode w.port) ((a - INS_KEY_LO) / 4)
    else if a = INS_RESULT then
      maskDone (s.pair.recs.any fun o => o.port == w.port && o.r.kind == 1 && beVal (o.r.data.take 4) == INS_CMD)
        (insReg s (portCode w.port) 4)
    else rd s a
  | 3 =>
    if a = MA_ANGLE then BitVec.ofNat 32 (s.ang.key / 2 ^ 16)
    else if a = MA_SPEED_LO then BitVec.ofInt 32 s.ang.speed
    else if a = VM_SPEED_LO then BitVec.ofInt 32 s.ang.vm
    else rd s a
  | 4 => if a = TIME_NS then BitVec.ofNat 32 s.time.ns else rd s a
  | 6 =>
    if a = LAW_TUB_STATUS then
      if s.pair.recs.any fun o => o.port != .steward && o.r.kind == 2 then withField (rd s a) LAW_TUB_STATUS_BUSY 1 else rd s a
    else rd s a
  | 7 =>
    match pfOfs a with
    | some 0x4C => maskDone (uncovered s fun b => pfOfs b == some 0x48 || pfOfs b == some 0xAC || pfOfs b == some 0x7C) (rd s a)
    | _ => rd s a
  | 12 => if a = PAIR_LKEY then lkey s else rd s a
  | 13 =>
    if a = SAFE_PWCNT then withField (rd s a) SAFE_PWCNT_LOCK_S (lockSeconds s)
    else if s.safe.sess = some (w.port, w.sess.toNat) then stagedWord s a
    else rd s a
  | 14 =>
    if a = IRQ_PEND then BitVec.ofNat 32 (irqPend s)
    else if LOG_REC 0 ≤ a && a < LOG_REC 10 then
      match logFrom s (rdN s LOG_SEL) with
      | r :: _ => logWord r ((a - LOG_REC 0) / 4)
      | [] => 0
    else rd s a
  | _ => rd s a

/-- Clear the RC fields of a word that has been read (R490). -/
def clearRc (a : Nat) (s : State) : State :=
  match findCls a with
  | none => s
  | some c => c.rows.foldl (fun s r => if r.acc = .rc then fset s a ⟨r.hi, r.lo⟩ 0 else s) s

/-- A read of the SRAM window (R494). -/
def winRead (a : Nat) (s : State) : Word × State :=
  if winTested s a then takeFree s
  else match winAt s a with
    | .home b => (rd s b, s)
    | .raw steward => (if steward && !fbit s TEST_STATUS TEST_STATUS_FTM then 0 else rd s a ^^^ Config.freeWord a, s)
    | .none => (0, s)

/-- A word read by a sender: its value; latches and RC fields follow (R485, R488, R490). -/
def readWord (w : Who) (a : Nat) (s : State) : Word × State :=
  let p := portCode w.port
  if 0x1000000 ≤ a then winRead a s
  else if (latchLead a).isSome then (tget 0 s.host.latch (stagedKey p a), s)
  else
    let v := viewReg w s a
    let t := (latchGroup s a).foldl (fun t e => { t with host.latch := tset 0 t.host.latch (stagedKey p e.1) e.2 }) s
    (v, clearRc a t)

/-- A read whose result is the last access's (R484). -/
def readReg (w : Who) (a : Nat) (s : State) : State :=
  if addrOk a then
    let (v, t) := readWord w a s
    setAcc 0 v t
  else setAcc 3 0 s

/-- REGISTER_WRITE (R9). -/
def execRegisterWrite (w : Who) (a v : Word) (s : State) : Host.Outcome State Fault Refusal := .next (writeReg w a.toNat v s)

/-- STAGED_WRITE (R489): the high word applies the pair of its port; any other word is written by its own rule. -/
def execStagedWrite (w : Who) (a v : Word) (s : State) : Host.Outcome State Fault Refusal := .next (writeReg w a.toNat v s)

/-- READ_CLEAR (R490). -/
def execReadClear (p : Port) (a : Word) (s : State) : Host.Outcome State Fault Refusal := .next (readReg ⟨p, 0⟩ a.toNat s)

/-- LATCHED_READ (R488). -/
def execLatchedRead (p : Port) (a : Word) (s : State) : Host.Outcome State Fault Refusal := .next (readReg ⟨p, 0⟩ a.toNat s)

/-- BLK_LOCK_WRITE (R462). -/
def execBlkLockWrite (w : Who) (v : Word) (s : State) : Host.Outcome State Fault Refusal :=
  .next (gated w BLK_LOCK v (blkLockEff w v) s)

/-! ### Records (R376, R377) -/

/-- The words of a run of bytes, most significant first. -/
def beWords : List (BitVec 8) → List Word
  | a :: b :: c :: d :: l => BitVec.ofNat 32 (beVal [a, b, c, d]) :: beWords l
  | _ => []

/-- A change-log record from its 40 bytes (Table 13.7). -/
def logOf (l : List (BitVec 8)) : LogRec :=
  let n (o k : Nat) : Nat := beVal ((l.drop o).take k).reverse
  { seq := n 0 4, sub := n 4 1, head := n 5 1, origin := n 6 1, kind := n 7 1, time := n 8 4 * 2 ^ 32 + n 12 4,
    session := n 16 2, result := n 18 1, object := n 20 4, oldCrc := BitVec.ofNat 32 (n 24 4), newCrc := BitVec.ofNat 32 (n 28 4),
    detail := n 32 4 }

/-- A mirrored log record enters the ring as it is (R379, R473). -/
def logMirrored (r : LogRec) (s : State) : State :=
  let pend := fget s LOG_NVM LOG_NVM_PENDING
  if 4096 ≤ pend then s
  else
    let ring := s.host.log ++ [r]
    let s := { s with host.log := ring.drop (ring.length - 4096), host.seq := r.seq, host.sub := 0 }
    wrN (fset s LOG_NVM LOG_NVM_PENDING (pend + 1)) LOG_HEAD r.seq

/-- A record takes effect (R377, Table 10.3). The head's own copies, commit, bank load and log record act where they were accepted. -/
def applyRec (own : Bool) (port : Port) (r : MirRec) (s : State) : State :=
  match r.kind.toNat with
  | 1 =>
    let a := beVal (r.data.take 4)
    if own && port == .steward then s
    else (effectOf ⟨.steward, 0⟩ (portCode port) a (BitVec.ofNat 32 (beVal ((r.data.drop 4).take 4))) s).getD s
  | 2 =>
    if own then s
    else installLaw (beVal (r.data.take 1)) (beWords (r.data.drop 2)) (beVal ((r.data.drop 1).take 1) == 1) s
  | 3 => if own then s else wrWords s (beVal (r.data.take 4)) (beWords (r.data.drop 4))
  | 4 => if own then s else logMirrored (logOf r.data) s
  | _ => s

/-- The axes a record names, all when it names none (R378). -/
def recAxes (s : State) (r : MirRec) : List Nat :=
  let a := beVal (r.data.take 4)
  match r.kind.toNat with
  | 1 =>
    if 0x120000 ≤ a && a < 0x122000 then [(a - 0x120000) / 0x20]
    else if 0x200000 ≤ a && a < 0x210000 then [(a - 0x200000) / 0x100]
    else usedAxes s
  | 2 => [beVal (r.data.take 1)]
  | _ => usedAxes s

/-- RECORD_APPLY (R377): at the tick of EFF_CYC both heads apply the change; at the active head when it has been placed in a transfer, at the standby at once when it comes late (R378). A record that no transfer has carried when mirroring ends takes effect at once. -/
def applyDue (s : State) : State :=
  let c := cycNow s
  let due (e : BitVec 16) : Bool := !later 16 e.toNat c
  let cut := !mirroring s
  let s := s.pair.recs.foldl (fun s o =>
    if !o.applied && ((o.placed && due o.r.eff) || (!o.placed && cut)) then
      let s := { s with pair.recs := s.pair.recs.map fun x => if x.r.rseq = o.r.rseq then { x with applied := true } else x }
      applyRec true o.port o.r s
    else s) s
  let now := s.pair.held.filter fun r => due r.eff
  let s := { s with pair.held := s.pair.held.filter fun r => !due r.eff }
  now.foldl (fun s r =>
    let s := if r.eff.toNat = c then s
      else eachN (recAxes s r) want (w1cSet PAIR_STATUS PAIR_STATUS_LATE_REC 0 s)
    applyRec false .steward r s) s

/-- RECORD_APPLY. -/
def execRecordApply (s : State) : Host.Outcome State Fault Refusal := .next (applyDue s)

end Sys2Proof.Machine
end

