-- ==== Sys2Proof/Machine/Boot.lean ====
section
/-! DEFINITION. The start-up (R424 to R437, R451, R498): NVM and slot choice, sections, safety load, install, and the load checks of R432. -/

namespace Sys2Proof.Machine
open R

/-! ### Load checks (R432) -/

/-- DETAIL of a failed check: section and object. -/
def failAt (sec obj : Nat) : Nat := sec % 256 * 256 + obj % 256

/-- The first failure of a list of checks. -/
def firstFail (l : List (Option Nat)) : Option Nat := l.findSome? id

/-- A check over objects: the first one that fails. -/
def failOn (sec : Nat) (l : List Nat) (bad : Nat → Bool) : Option Nat := (l.find? bad).map (failAt sec)

/-- Every SYSTEM, LANE, RECIPE and other body of an image with its place in the directory. -/
def bodies (x : SlotImg) : List (Nat × Nat × Body) := x.secs.zipIdx.map fun e => (e.2, e.1.idx, e.1.body)

/-- The recipes of an image: place, BANK, content. -/
def recipesOf (x : SlotImg) : List (Nat × Nat × Recipe) := (bodies x).filterMap fun e => match e.2.2 with
  | .recipe b r => some (e.1, b, r)
  | _ => none

/-- The segments the SYSTEM section uses. -/
def usedSegs (x : SlotImg) : List Nat := (bodies x).flatMap fun e => match e.2.2 with
  | .system _ _ used _ _ => used
  | _ => []

/-- The required sections (Table 12.4), for this head's end. -/
def missingSec (x : SlotImg) (far : Nat) : Bool :=
  (secOf x 1 0).isNone || (secOf x 2 0).isNone || (recipesOf x).isEmpty ||
    (usedSegs x).any fun g => (secOf x 3 (2 * g + far)).isNone || (secOf x 4 g).isNone

/-- Maxima of contexts by class, region and reserved unit; a class A context needs its unit reserved (R14, R15, R17, R19, R34, R68). -/
def checkCounts (sys : Nat) (s : State) : Option Nat :=
  let a := (usedAxes s).filter fun n => (s.ctx n).cls == 0
  let resv (n : Nat) : Bool :=
    let g := (s.ctx n).region
    (s.ctx n).unit / 8 == g && (((s.ctx n).unit % 8 == 3 && fbit s (REGION_CTRL g) REGION_CTRL_RESV_LO) ||
      ((s.ctx n).unit % 8 == 7 && fbit s (REGION_CTRL g) REGION_CTRL_RESV_HI))
  let twin (n : Nat) : Bool := match (s.ctx n).partner with
    | some m => (s.ctx n).cls == 1 && (s.ctx m).used && (s.ctx m).region == (s.ctx n).region
    | none => true
  firstFail [
    if 32 < a.length || 256 < (usedAxes s).length then some (failAt sys 0xFF) else none,
    failOn sys [0, 1, 2, 3] (fun g => decide (64 < (homed s g).length)),
    failOn sys a (fun n => !resv n || decide (4 < (a.filter fun m => decide (m ≤ n) && (s.ctx m).unit == (s.ctx n).unit).length)),
    failOn sys (usedAxes s) (fun n => !twin n)]

/-- The law sets of a class (Table 3.1). -/
def classSets (cls : Nat) : List Nat := match cls with
  | 0 => [1]
  | 1 => [2, 3]
  | _ => [4, 5]

/-- Law tiles of a recipe and the cams it holds (R82, R107, R167). -/
def checkRecipe (s : State) (e : Nat × Nat × Recipe) : Option Nat :=
  let rises (c : CamRec) : Bool := (c.pts.zip (c.pts.drop 1)).all fun p => decide (p.1.1 < p.2.1)
  let bad (c : CamRec) : Bool :=
    c.pts.length < 2 || 8192 < c.pts.length || !rises c || (c.cyclic && (match c.pts with | p :: _ => p.1 != 0 | [] => false))
  firstFail [
    failOn e.1 (e.2.2.laws.map (·.1)) (fun n => (s.ctx n).used &&
      ((e.2.2.laws.find? (·.1 == n)).elim false fun t => tileCheck (s.ctx n).lawSet t.2 != 0)),
    failOn e.1 (e.2.2.cams.map (·.id)) (fun i => (e.2.2.cams.find? (·.id == i)).elim false bad)]

/-- How many gear masters lie above an axis by GM_SRC; a chain is at most 4 axes deep (R138). -/
def masterDepth (s : State) : Nat → Nat → Nat
  | 0, _ => 1
  | f + 1, n => if fbit s (PF_CTRL n) PF_CTRL_GM_SRC then 1 + masterDepth s f (fget s (PF_CTRL n) PF_CTRL_MASTER_AX) else 0

/-- Checks on one axis: class against law set, gear masters, zero limits, four-channel bridges (R82, R138, R149, R277). -/
def checkAxes (sys : Nat) (s : State) : Option Nat :=
  let us := usedAxes s
  let gear (n : Nat) : Bool :=
    fbit s (PF_CTRL n) PF_CTRL_GM_SRC &&
      (decide (4 ≤ masterDepth s 5 n) || decide ((s.ctx n).plog < (s.ctx (fget s (PF_CTRL n) PF_CTRL_MASTER_AX)).plog))
  let limit (n : Nat) : Bool :=
    (match s.boot.modes.find? (·.1 == n) with | some m => m.2 != 0 | none => false) &&
      (rd64 s (PF_D_LIM n) == 0 || rd64 s (PF_J_LIM n) == 0 || rd64 s (PF_QS_DEC n) == 0)
  let four (n : Nat) : Bool := match (s.ctx n).bridge with
    | some b =>
      let lo := b / 3
      let hi := (b + 3) / 3
      (s.ctx n).lawSet == 4 && (b % 4 != 0 || 20 < b ||
        (hi != lo && (fget s (BR_PERIOD lo) BR_PERIOD_PERIOD != fget s (BR_PERIOD hi) BR_PERIOD_PERIOD ||
          !fbit s (BR_CTRL hi) BR_CTRL_SYNC_EN || rdN s (BR_SYNC_OFS lo) != 0)))
    | none => false
  firstFail [
    failOn sys us (fun n => !(classSets (s.ctx n).cls).contains (s.ctx n).lawSet),
    failOn sys us gear, failOn sys us limit, failOn sys us four]

/-- The angle sources (R52). -/
def checkSources (sys : Nat) (s : State) : Option Nat :=
  firstFail [
    failOn sys (slots s) (fun n => rd s (MA_SRC_DEN n) == 0),
    failOn sys (slots s) (fun n => srcType s n == 3 && (slots s).any fun m => decide (m < n) && srcType s m == 3)]

/-- Timed and step outputs (R62, R279, R280). -/
def checkOuts (sys : Nat) (s : State) : Option Nat :=
  let ks := List.range 32
  firstFail [
    failOn sys ks (fun k => toMode s k == 1 && overlapping (shadowPairs s k)),
    if (ks.any fun k => toMode s k == 1) && !angleList s (aList s) then some (failAt sys 0xFF) else none,
    if (ks.any fun k => toMode s k == 2) && angleList s (fget s TO_GCTRL TO_GCTRL_TLIST) then some (failAt sys 0xFF) else none]

/-- The entries of a schedule table. -/
def tableEnts (ws : List Word) : List SEnt :=
  (List.range (min 1024 ((ws.length + 3) / 4))).map fun i => entOf fun k => ws.getD (4 * i + k) 0

/-- t_f of R320 in tenths of a ns: SPAN less the gap on channel A. -/
def slotTenths (x : SchedGen) (g : Nat) (e : SEnt) : Nat :=
  let gap := if x.compact.contains (2 * g) then 2 else 12
  let byte := if (x.hop.find? (·.1 == 2 * g)).any (·.2 == 2) then 32 else 80
  10 * e.span - gap * byte

/-- START of a DIRECT entry follows its FEEDBACK entry (R320). -/
def directOk (x : SchedGen) (g : Nat) (es : List SEnt) (e : SEnt) : Bool :=
  match es[e.link]? with
  | some f =>
    let t := (10 * (f.start + 800) + slotTenths x g f) / 10
    f.kind == 4 && f.node == e.node && decide (f.guard ≤ e.guard) && (e.start == t || e.start + 1 == t)
  | none => false

/-- The occupancies of a basic cycle of the round in one direction, in order of START, with their numbers. -/
def occupancies (es : List SEnt) (r : Nat) (up : Bool) : List (Nat × SEnt) :=
  let on (e : SEnt) : Bool := e.kind != 0 && r % 2 ^ e.plog == e.phase && (e.kind == 5 || (e.kind == 4) == up)
  ((es.zipIdx.map fun p => (p.2, p.1)).filter fun p => on p.2).mergeSort fun a b => decide (a.2.start ≤ b.2.start)

/-- The first entry of consecutive occupancies that comes too early, or of a last one that ends too late (R320). -/
def crowded (tB : Nat) : List (Nat × SEnt) → Option Nat
  | [] => none
  | [(i, e)] => if tB < e.start + e.span + 2 * e.guard then some i else none
  | (_, e) :: (j, f) :: l =>
    if f.start < e.start + e.span + 2 * (e.guard + f.guard) then some j else crowded tB ((j, f) :: l)

/-- A schedule table (R317, R318, R320). -/
def checkTable (sec tB rl : Nat) (x : SchedGen) (g : Nat) (ws : List Word) : Option Nat :=
  let es := tableEnts ws
  let idx := List.range es.length
  let ent (i : Nat) : SEnt := es.getD i (entOf fun _ => 0)
  let refs := idx.filter fun i => (ent i).kind == 1
  firstFail [
    failOn sec idx (fun i => decide (5 < (ent i).kind)),
    failOn sec idx (fun i => (ent i).kind != 0 && (decide (rl < (ent i).plog) || decide (2 ^ (ent i).plog ≤ (ent i).phase))),
    (match refs with
     | [i] => if (ent i).start = 0 && (ent i).plog = 0 then none else some (failAt sec i)
     | [] => some (failAt sec 0)
     | _ :: j :: _ => some (failAt sec j)),
    failOn sec idx (fun i => (ent i).kind == 3 && !directOk x g es (ent i)),
    ((List.range (2 ^ rl)).findSome? fun r => [false, true].findSome? fun up => crowded tB (occupancies es r up)).map (failAt sec)]

/-- Lane tasks (R232, R248). -/
def checkLanes (sec : Nat) (ts : List LaneTask) : Option Nat :=
  (ts.find? (·.bad)).map fun t => failAt sec (fieldOf t.a LT_DESC_A_TASK)

/-- COMPAT (R498): the level the image asks for. -/
def levelOf (x : SlotImg) (regs : List (Nat × Word)) : Nat :=
  match regs.find? (·.1 == COMPAT) with
  | some e => wField e.2 7 0
  | none => if x.fmt % 256 ≤ 2 then 1 else 2

/-! ### Phase 4: authentication, patches, safety -/

/-- PATCH sections (R430): the index of one that is refused, and the state with those applied and skipped. -/
def patches (x : SlotImg) (s : State) : Option Nat × State :=
  (bodies x).foldl (fun (f, s) e => match f, e.2.2 with
    | none, .patch rom ok =>
      if !ok then (some e.2.1, s)
      else if rom ≠ Config.romSteward.toNat then
        (none, logSteward 4 0 e.2.1 0 (wrN s PATCH_STATE (rdN s PATCH_STATE ||| 2 ^ (8 + e.2.1 % 8))))
      else (none, wrN s PATCH_STATE (rdN s PATCH_STATE ||| 2 ^ (e.2.1 % 8)))
    | f, _ => (f, s)) (none, s)

/-- The safety section passes to the channels (R415). -/
def loadSafety (x : SlotImg) (s : State) : State :=
  match (bodies x).findSome? fun e => match e.2.2 with | .safety c => some c | _ => none with
  | none => s
  | some c =>
    let f (a : Nat) : Word := match c.words.find? fun e => e.1 == a with | some e => e.2 | none => regReset a
    if signature f ≠ c.sig then s
    else
      let s := wr (wrRange 0x600000 0x700000 (paramAddrs.map fun a => (a, f a)) s) SAFE_SIG c.sig
      eachN zones restartZone (fset { s with safe.sec := some c } SAFE_STATUS SAFE_STATUS_STATE 1)

/-! ### Phase 5: install -/

/-- One pair of an image under its register's own rule; what the rule refuses is kept. -/
def installOne (p : List (Nat × Word) × State) (e : Nat × Word) : List (Nat × Word) × State :=
  match effectOf ⟨.steward, 0⟩ 2 e.1 e.2 p.2 with
  | some t => (p.1, t)
  | none => (p.1 ++ [e], p.2)

/-- Address and value pairs in order, each under its register's own rule; what a rule refuses is tried again when all are written. Answers the pairs refused twice. -/
def installRegs (l : List (Nat × Word)) (s : State) : List Nat × State :=
  let (again, s) := (l.filter fun e => e.1 != COMPAT).foldl installOne ([], s)
  let (bad, s) := again.foldl installOne ([], s)
  (bad.map (·.1), landAll s)

/-- The contexts of an image take their places; a region that failed its test is left out (R19, R39, R40, R451). -/
def installCtxs (l : List (Nat × Ctx)) (bad : BitVec 4) (s : State) : State :=
  let s := eachN [0, 1, 2, 3] (fun g s => applyResv g true (applyResv g false s)) s
  let s := l.foldl (fun s e => s.setCtx e.1 { e.2 with used := true, slot := freeSlot s e.2.region }) s
  let s := eachN ([0, 1, 2, 3].filter fun g => bad.getLsbD g) (fun g s => setRegState g 2 s) s
  showContexts s

/-- The contexts and lane tasks of a region that failed its test go elsewhere; `none` where one cannot be placed. -/
def evacuate (g : Nat) (s : State) : Option State :=
  (migOrder s g).foldl (fun o n => match o with
    | none => none
    | some s => (destOf s n g (fun _ => false)).map fun d => homeIn n d s) (some s)

/-- Recipe banks, and the bank each group starts on (R447). -/
def installBanks (x : SlotImg) (banks : List (Nat × Nat)) (s : State) : State :=
  let s := x.secs.foldl (fun s e => match e.body with
    | .recipe b r => if b < 8 then fillBank b e.idx r e.len s else s
    | _ => s) s
  banks.foldl (fun s e => fset s (CO_STATUS e.1) CO_STATUS_ACTIVE e.2) s

/-- An axis takes its law tile, registers and state tile from the bank of its group. -/
def installAxis (n : Nat) (s : State) : State :=
  let b := fget s (CO_STATUS (groupOf s n)) CO_STATUS_ACTIVE
  let r := tget {} s.boot.bank b
  let s := s.setCtx n { s.ctx n with recipe := b }
  let s := match r.laws.find? fun e => e.1 == n with
    | some e => installLaw n e.2 false s
    | none => s
  let s := wrRange (PF_CTRL n) (PF_CTRL n + 0x100) r.regs s
  let s := modGen n (fun g => { g with num := (rd s (PF_GEAR_NUM n)).toInt, den := rdN s (PF_GEAR_DEN n) }) s
  clearInit n (putState s n (List.replicate 64 0))

/-- The cams of a group's bank enter the pool; the first that finds no room is answered. -/
def installCams (s : State) : Option Nat × State :=
  (List.range 16).foldl (fun p g =>
    let b := fget p.2 (CO_STATUS g) CO_STATUS_ACTIVE
    let r := tget {} p.2.boot.bank b
    (groupCams p.2 r g).foldl (fun p c =>
      if p.1.isSome || fbit p.2 (CAM_INFO c.id) CAM_INFO_VALID then p
      else
        let ts := (freeTiles p.2 (tileRegion p.2 r g c)).take (camTiles c)
        if ts.length < camTiles c then (some c.id, p.2)
        else (none, describeCam c b (ts.headD 0) (placeCam c ts false p.2))) p) (none, s)

/-- TUNE (R429): honoured in an unsigned image, or where TUNE_OK is set. -/
def installTune (x : SlotImg) (s : State) : State :=
  match (bodies x).findSome? fun e => match e.2.2 with | .tune l r => some (l, r) | _ => none with
  | none => s
  | some (laws, regs) =>
    if signedImg x && !x.tuneOk then
      logSteward 4 7 0 0 (fput s BOOT_STATUS BOOT_STATUS_TUNE_IGN true)
    else
      let s := laws.foldl (fun s e => if e.2 = [] then s else installLaw e.1 e.2 false s) s
      (installRegs regs s).2

/-- Lane code, data and descriptors (R232). -/
def installLanes (x : SlotImg) (s : State) : State :=
  let s := x.secs.foldl (fun s e => match e.body with
    | .lane ts => ts.foldl (fun s t => placeTask e.idx t s) s
    | _ => s) s
  condHoldoff (eachN (List.range 32) (fun u s =>
    s.setLan u { s.lan u with holdoff := max 8 (fget s (HOLDOFF_MAX u) HOLDOFF_MAX_BOUND) }) s)

/-- The schedule tables of this head's end, the poll tables and the node list (R317, R321, R325). -/
def installNet (x : SlotImg) (used : List Nat) (s : State) : State :=
  let far := (fbit s PAIR_STATUS PAIR_STATUS_STRAP).toNat
  let sch (g : Nat) : Option (SchedGen × List Nat) := (secOf x 3 (2 * g + far)).bind fun e => match e.body with
    | .sched y r => some (y, r)
    | _ => none
  let poll (g : Nat) : List (Nat × List Word) := match secOf x 4 g with
    | some { body := .poll ws, .. } => [(g, ws)]
    | _ => []
  let ys := used.filterMap sch
  let gen := ys.foldl (fun (a : SchedGen) e =>
    { sgen := e.1.sgen, tables := a.tables ++ e.1.tables, polls := a.polls, hop := a.hop ++ e.1.hop, compact := a.compact ++ e.1.compact,
      hn2 := a.hn2 ++ e.1.hn2, rtt := a.rtt ++ e.1.rtt, extract := a.extract ++ e.1.extract }) { polls := used.flatMap poll }
  let nodes := (bodies x).flatMap fun e => match e.2.2 with | .nodes l => l | _ => []
  loadGen gen { s with net.nodes := nodes, net.used := used, net.ranks := (ys.flatMap (·.2)).eraseDups }

/-- Every load check of R432 on the image as installed. -/
def loadChecks (x : SlotImg) (regs : List (Nat × Word)) (bad : List Nat) (s : State) : Option Nat :=
  let sys := secNo x 1 0
  let refused (a : Nat) : Nat := match pfOfs a with | some _ => (a - 0x200000) / 0x100 | none => 0xFF
  let lanes := (bodies x).map fun e => match e.2.2 with | .lane ts => checkLanes e.1 ts | _ => none
  let tables := (bodies x).map fun e => match e.2.2 with
    | .sched y _ =>
      if e.2.1 % 2 = (fbit s PAIR_STATUS PAIR_STATUS_STRAP).toNat && (usedSegs x).contains (e.2.1 / 2) then
        firstFail (y.tables.map fun t => checkTable e.1 (tb s) (rlog s) y t.1 t.2)
      else none
    | _ => none
  firstFail ([checkCounts sys s, checkSources sys s, checkAxes sys s, checkOuts sys s,
    (bad.head?).map fun a => failAt sys (refused a),
    if levelOf x regs = 1 || levelOf x regs = 2 then none else some (failAt sys 0xFF)] ++
    (recipesOf x).map (checkRecipe s) ++ lanes ++ tables)

/-- The parts of the SYSTEM section. -/
structure SysSec where
  regs : List (Nat × Word)
  ctxs : List (Nat × Ctx)
  used : List Nat
  banks : List (Nat × Nat)
  modes : List (Nat × Nat)

/-- The SYSTEM section of an image. -/
def sysOf (x : SlotImg) : Option SysSec := (bodies x).findSome? fun e => match e.2.2 with
  | .system r c u b m => some { regs := r, ctxs := c, used := u, banks := b, modes := m }
  | _ => none

/-- Phase 5 up to its checks: what the image installs, and the pairs its registers refuse. -/
def installed (x : SlotImg) (y : SysSec) (bad : BitVec 4) (s : State) : List Nat × State :=
  let s := { fset s BOOT_STATUS BOOT_STATUS_PHASE 5 with ang := {}, boot.modes := y.modes }
  let (no, s) := installRegs y.regs s
  let s := fset s COMPAT COMPAT_LEVEL (levelOf x y.regs)
  (no, installNet x y.used (installBanks x y.banks (installCtxs y.ctxs bad s)))

/-- The rest of phase 5 once the checks pass: axes, cams, TUNE, lanes. -/
def installRest (x : SlotImg) (y : SysSec) (s : State) : Option Nat × State :=
  let s := eachN (usedAxes s) installAxis s
  let (cam, s) := installCams s
  let s := installLanes x (installTune x s)
  let s := { s with boot.img := y.regs.map fun e => (e.1, rd s e.1) }
  let s := eachN (((usedAxes s).filterMap fun n => (s.ctx n).bridge).flatMap fun b => [b / 3, (b + 3) / 3])
    (fun m s => if (usedAxes s).any fun n => (s.ctx n).bridge.any fun b =>
        decide (b / 3 ≤ m) && decide (m ≤ (b + (if (s.ctx n).lawSet = 4 then 3 else 2)) / 3) then
      fput s (BR_CTRL m) BR_CTRL_LAW true else s) s
  (cam, s)

/-- Phase 6 begins (R431, R433): the steward may start segments. -/
def enterSix (s : State) : State :=
  let s := setCond SCH_STATUS_COND_SCHED false (fset s BOOT_STATUS BOOT_STATUS_PHASE 6)
  let s := if fbit s PAIR_CTRL PAIR_CTRL_PAIR_EN then fset s PAIR_STATUS PAIR_STATUS_STATE 1 else s
  let s := fset s BOOT_TIME BOOT_TIME_INSTALLED (min 65535 (s.time.ns / 1000000))
  bootSuccess (if s.net.used = [] then roleTake s else s)

/-- Phase 5 (R432, R451). -/
def phase5 (x : SlotImg) (bad : BitVec 4) (s : State) : State :=
  let out := [0, 1, 2, 3].filter fun g => bad.getLsbD g
  match sysOf x, out with
  | none, _ => failStart 0x0B (failAt (secNo x 1 0) 0xFF) s
  | _, _ :: g :: _ => failStart 0x0D g s
  | some y, out =>
    if missingSec x (fbit s PAIR_STATUS PAIR_STATUS_STRAP).toNat then failStart 0x0B (failAt 0xFF 0xFF) s
    else
      let (no, t) := installed x y bad s
      match loadChecks x y.regs no t with
      | some d => failStart 0x0B d s
      | none =>
        match (match out with | g :: _ => (evacuate g t).map (cause 0x14 g) | [] => some t) with
        | none => failStart 0x0D (out.headD 0) s
        | some t =>
          match installRest x y t with
          | (some cam, _) => failStart 0x0B (failAt (secNo x 6 0) cam) s
          | (none, t) => enterSix (match out with | g :: _ => moveLanes g t | [] => t)

/-- The rest of phase 4 once the image's checks pass: the patches (R430), then the safety section. -/
def checked (x : SlotImg) (bad : BitVec 4) (s : State) : State :=
  match (patches x s).1 with
  | some i => failStart 0x0C i (patches x s).2
  | none => phase5 x bad (loadSafety x (patches x s).2)

/-- The checks of an image (R428 to R430): its CRCs, its formats, its signature. -/
def verify (x : SlotImg) (bad : BitVec 4) (s : State) : State :=
  match x.secs.findIdx? fun e => !e.crcOk with
  | some i => failStart 0x08 i s
  | none =>
  match fmtFail x with
  | some i => failStart 0x09 i s
  | none =>
  match authFail x with
  | some i => failStart 0x0A i s
  | none => checked x bad (fput s BOOT_STATUS BOOT_STATUS_SIGNED (signedImg x))

/-- Phase 4 (R429, R430, R415). -/
def phase4 (bad : BitVec 4) (s : State) : State :=
  let s := fset s BOOT_STATUS BOOT_STATUS_PHASE 4
  verify (runSlot s) bad s

/-- Phase 3 (R427, R436): torn slots, BOOT_CNT, the slot. -/
def phase3 (bad : BitVec 4) (s : State) : State :=
  let s := fset s BOOT_STATUS BOOT_STATUS_PHASE 3
  let s := eachN ([0, 1].filter fun b => (slotOf s (b == 1)).torn) (fun b s => cause 0x13 b s) s
  let s := showSlots s
  let n := fget s BOOT_STATUS BOOT_STATUS_BOOT_CNT
  if 4 ≤ n then toMinimal 0x0F n s
  else if !committed s.boot.flash.a && !committed s.boot.flash.b then
    toMinimal 0x07 (s.boot.flash.a.commit.isSome.toNat + 2 * s.boot.flash.b.commit.isSome.toNat) s
  else
    let late := laterB s committed
    let back := n == 3 && committed (slotOf s (!late))
    let b := if back then !late else late
    let s := fput (fput s BOOT_STATUS BOOT_STATUS_SLOT b) BOOT_STATUS BOOT_STATUS_FALLBACK back
    let x := slotOf s b
    phase4 bad (fset (wrN s IMG_IGEN (igenOf x)) IMG_FMT IMG_FMT_IMAGE x.fmt)

/-- The boot header's layout (R425). -/
def hdrOk (h : BootHdr) : Bool :=
  let k := 65536
  let apart (a n b m : Nat) : Bool := decide (a + n ≤ b) || decide (b + m ≤ a)
  [h.slotA, h.slotB, h.slotSize, h.logOfs, h.logSize].all (· % k == 0) && decide (4 * k ≤ h.logSize) &&
    decide (k ≤ h.slotA) && decide (k ≤ h.slotB) && decide (k ≤ h.logOfs) &&
    apart h.slotA h.slotSize h.slotB h.slotSize && apart h.slotA h.slotSize h.logOfs h.logSize &&
    apart h.slotB h.slotSize h.logOfs h.logSize

/-- The logs as found in the NVM: the sequences go on, torn entries are discarded and recorded (R445, R473). -/
def findLogs (torn : List Nat) (s : State) : State :=
  let s := match s.host.nvm.getLast? with
    | some r => wrN { s with host.seq := r.seq, host.sub := r.sub } LOG_HEAD r.seq
    | none => s
  let s := match s.safe.log.getLast? with
    | some r => wrN s SLOG_SEQ r.seq
    | none => s
  let s := (s.safe.log.drop (s.safe.log.length - 64)).foldl (fun s r => showSafe r s) s
  torn.foldl (fun s i => logSteward 5 0 i 0x12 (cause 0x12 i (fincSat s LOG_NVM LOG_NVM_TORN))) s

/-- Phase 2 from the NVM on (R424, R425): protocol, header, ports. -/
def phase2 (bad : BitVec 4) (torn : List Nat) (s : State) : State :=
  match s.boot.flash.sfdp, s.boot.flash.hdr with
  | none, _ => toMinimal 0x05 0 s
  | some _, none => toMinimal 0x06 0 s
  | some (modes, clk), some h =>
    if !hdrOk h then toMinimal 0x06 0 s
    else
      let m := (modes.filter (· ≤ h.mode)).foldl max 0
      let s := fset (fset s BOOT_STATUS BOOT_STATUS_NVM_MODE m) BOOT_STATUS BOOT_STATUS_NVM_CLK (min clk h.clk)
      let s := eachN ((List.range 5).filter fun p => h.portEn.testBit p) (fun p s => fput s (PORT_CTRL p) PORT_CTRL_EN true) s
      phase3 bad (findLogs torn s)

/-- START_UP (R431): the steward runs the start from phase 1. `prog` is a flash programmed from outside beforehand, `bad` the regions that fail their test, `torn` the log entries found torn. With the test straps set it waits in phase 2 (R480). -/
def execStartUp (prog : Option Flash) (bad : BitVec 4) (torn : List Nat) (s : State) : Host.Outcome State Fault Refusal :=
  .next (if fget s BOOT_STATUS BOOT_STATUS_PHASE ≠ 1 || s.boot.held || s.boot.ftmWait.isSome || fbit s BOOT_STATUS BOOT_STATUS_MINIMAL then s
    else
      let s := fset (fincSat s BOOT_STATUS BOOT_STATUS_BOOT_CNT) BOOT_STATUS BOOT_STATUS_PHASE 2
      let s := match prog with | some f => { s with boot.flash := f } | none => s
      if s.boot.test ≠ 0 && !fbit s TEST_STATUS TEST_STATUS_FTM then { s with boot.ftmWait := some (bad, torn) }
      else phase2 bad torn s)

/-- JTAG_UNLOCK (R480): the start goes on with FTM = 1. -/
def execJtagUnlock (s : State) : Host.Outcome State Fault Refusal :=
  .next (match s.boot.ftmWait with
  | none => s
  | some (bad, torn) =>
    let s := fput (fput { s with boot.ftmWait := none } TEST_STATUS TEST_STATUS_FTM true) TEST_STATUS TEST_STATUS_UNLOCKED true
    phase2 bad torn (setCond SCH_STATUS_COND_DEBUG true s))

/-- FTM_WAIT_TIMEOUT (R480): minimal mode with BOOT_CAUSE unchanged. -/
def execFtmWaitTimeout (s : State) : Host.Outcome State Fault Refusal :=
  .next (if s.boot.ftmWait.isSome then minimalMode { s with boot.ftmWait := none } else s)

/-- NODE_WAIT_EXPIRY (R433): the segments in use that have no port UP are started all the same. -/
def execNodeWaitExpiry (s : State) : Host.Outcome State Fault Refusal :=
  .next (if fget s BOOT_STATUS BOOT_STATUS_PHASE = 6 then eachN s.net.used startSeg s else s)

/-- LINKS_TIMEOUT (R333); a segment that reaches SVC_ONLY during the start fails it (R433). -/
def execLinksTimeout (g : Bool) (s : State) : Host.Outcome State Fault Refusal :=
  .next (let t := linksTimeout g.toNat s
    if segState s g.toNat ≠ 8 && segState t g.toNat = 8 && fget t BOOT_STATUS BOOT_STATUS_PHASE = 6 then failStart 0x0E g.toNat t else t)

end Sys2Proof.Machine
end

