-- ==== Sys2Proof/Machine/HostPort.lean ====
section
/-! DEFINITION. The host ports (chapter 13): SPI transactions, HSP messages, versions and sessions, order and back-pressure, the operations, resynchronisation, and the management port's ARP and ICMP. -/

namespace Sys2Proof.Machine
open R

/-! ### Ports and sessions -/

/-- The port of a number. -/
def portOf (p : Nat) : Port := if p = 0 then .spi else .eth

/-- ROLEMAX of a port (Table 13.11); values above 3 act as 3. -/
def roleMax (s : State) (p : Nat) : Nat :=
  min 3 (fget s HOST_CFG (if p = 0 then HOST_CFG_ROLEMAX_SPI else HOST_CFG_ROLEMAX_ETH))

/-- SAFE_EN of a port. -/
def safeEn (s : State) (p : Nat) : Bool := fbit s HOST_CFG (if p = 0 then HOST_CFG_SAFE_EN_SPI else HOST_CFG_SAFE_EN_ETH)

/-- A session by its number on a port. -/
def sessAt (s : State) (p num : Nat) : Option Session := s.host.sessions.find? fun x => x.num == num && portCode x.port == p

/-- EXP of a session, or of SESSION 0 of a port (R463). -/
def expOf (s : State) (p sess : Nat) : Option Nat :=
  if sess = 0 then (s.hport p).exp0 else (sessAt s p sess).map (·.exp)

/-- Change a session. -/
def modSess (num : Nat) (f : Session → Session) (s : State) : State :=
  { s with host.sessions := s.host.sessions.map fun x => if x.num = num then f x else x }

/-- Set EXP. -/
def setExp (p sess e : Nat) (s : State) : State :=
  if sess = 0 then s.setHport p { s.hport p with exp0 := some (e % 65536) } else modSess sess (fun x => { x with exp := e % 65536 }) s

/-- The request window W (R463). -/
def window (s : State) (p : Nat) : Nat := if hspVer s p = 2 then 4 else 1

/-- A message leaves by a port; a waiting SPI message may raise the host block's line (R478). -/
def postMsg (p : Nat) (m : List (BitVec 8)) (s : State) : State := withLine 14 (sendMsg p { bytes := m }) s

/-- The response to a request (Table 13.2); HELLO carries version 1. -/
def answerMsg (s : State) (p : Nat) (r : Req) (status : Nat) (pay : List (BitVec 8)) : List (BitVec 8) :=
  hspMsg (if r.op = 1 then 1 else hspVer s p) 2 r.sess r.tag r.op status pay

/-- A response that leaves EXP where it is: BUSY, or a message outside any session. -/
def answerOnly (p : Nat) (r : Req) (status : Nat) (pay : List (BitVec 8)) (s : State) : State :=
  postMsg p (answerMsg s p r status pay) s

/-- The response of an executed request: stored, sent, and EXP moves past it (R463). -/
def answer (p : Nat) (r : Req) (msg : List (BitVec 8)) (s : State) : State :=
  let h := s.hport p
  let mine := (h.stored.filter fun e => e.1 == r.sess) ++ [(r.sess, r.tag, msg)]
  let s := s.setHport p { h with stored := (h.stored.filter fun e => e.1 != r.sess) ++ mine.drop (mine.length - 4) }
  postMsg p msg (setExp p r.sess (r.tag + 1) s)

/-- A message discarded without a response (R458): its counter, and code 0x0003 with a reason the spec does not number. -/
def discardMsg (p : Nat) (f : Fld) (s : State) : State :=
  let (x, s) := takeFree s
  sediment 14 sevInfo 0x0003 (p * 256 + x.toNat % 256) (fincWrap s HOST_ERR f)

/-! ### Ends of sessions (R460, R466, R469) -/

/-- The image job a session started is aborted (R466). -/
def abortImg (s : State) : State :=
  if fbit s IMG_JOB IMG_JOB_BUSY && fget s IMG_JOB IMG_JOB_JOB = 1 then
    logSteward 4 6 0 0 (showSlots (endJob 6 { tearJob s with host.img := none }))
  else { s with host.img := none }

/-- A session ends. -/
def endSession (num : Nat) (s : State) : State :=
  let s := match s.host.img with
    | some i => if i.sess = num then abortImg s else s
    | none => s
  match s.safe.sess with
  | some (_, n) => if n = num then closeSafety s else dropSession num s
  | none => dropSession num s

/-- A host-interface reset of a port (R469). -/
def resetPort (p : Nat) (s : State) : State :=
  withLine 14 (fun s =>
    let role := 0
    let s := (s.host.sessions.filter fun x => portCode x.port == p).foldl (fun s x => endSession x.num s) s
    let s := match s.boot.ended with
      | some (q, _, _) => if q = p then { s with boot.ended := none } else s
      | none => s
    let s := s.setHport p {}
    let s := { s with
      host.latch := s.host.latch.filter (fun e => e.1 / 2 ^ 32 != p),
      host.staged := s.host.staged.filter (fun e => e.1 / 2 ^ 32 != p),
      host.insReg := s.host.insReg.filter (fun e => e.1 / 8 != p) }
    let s := if p = 0 then fset s HOST_STATUS HOST_STATUS_VER_SPI 0
      else fput (fset s HOST_STATUS HOST_STATUS_VER_ETH 0) HOST_STATUS HOST_STATUS_PEER false
    logSession (portOf p) role 0 0 s) s

/-! ### Operations -/

/-- What executing a request comes to. -/
inductive Done where
  /-- executed or refused, with the response's status and payload -/
  | now (status : Nat) (pay : List (BitVec 8))
  /-- not executed: BUSY (R464) -/
  | busy
  /-- executing; the response comes later -/
  | later
  deriving DecidableEq, Repr

/-- The change log has no room for a request that makes records (R474). -/
def logFull (s : State) : Bool := decide (3840 ≤ fget s LOG_NVM LOG_NVM_PENDING)

/-- A number in a payload. -/
def field (pay : List (BitVec 8)) (o n : Nat) : Nat := beVal ((pay.drop o).take n)

/-- HELLO (R459): the highest version both sides have; a further one changes nothing. -/
def runHello (h : HspHdr) (p : Nat) (r : Req) (s : State) : State :=
  let lo := field r.pay 0 1
  let hi := field r.pay 1 1
  let old := hspVer s p
  let v := if old ≠ 0 then old else if lo ≤ 2 && 2 ≤ hi then 2 else if lo ≤ 1 && 1 ≤ hi then 1 else 0
  if r.pay.length ≠ 2 then answerOnly p r 4 [] s
  else if v = 0 then answerOnly p r 7 [] s
  else
    let s := setExp p 0 (r.tag + 1) (fset s HOST_STATUS (if p = 0 then HOST_STATUS_VER_SPI else HOST_STATUS_VER_ETH) v)
    let s := if h.eth then fput (s.setHport 1 { s.hport 1 with peer := some (h.ip, h.udp) }) HOST_STATUS HOST_STATUS_PEER true else s
    let w : Who := ⟨portOf p, 0⟩
    let (free, s) := takeFree s
    let msg := answerMsg s p r 0 (beOf 1 v ++ beOf 3 0 ++ beBytes (viewReg w s DEV_ID) ++ beBytes (viewReg w s DEV_SERIAL) ++
      beBytes (rd s BOOT_STATUS) ++ beBytes (rd s PAIR_STATUS) ++ beBytes (rd s SAFE_STATUS) ++ beBytes free)
    let h := s.hport p
    postMsg p msg (s.setHport p { h with stored := h.stored.filter fun e => e.1 != 0 })

/-- The next session number: 1 to 65,535 (R460). -/
def nextSess (s : State) : Nat := if s.host.lastSess = 65535 then 1 else s.host.lastSess + 1

/-- A session opens with a role. -/
def addSession (p role exp : Nat) (s : State) : Nat × State :=
  let n := nextSess s
  let s := { s with host.lastSess := n, host.sessions := s.host.sessions ++ [{ num := n, port := portOf p, role := role, exp := exp % 65536 }] }
  (n, logSession (portOf p) role n 0 (showSessions s))

/-- The length of a lockout in ns (R417). -/
def lockoutNs : Nat := 600000000000

/-- A wrong safety password; the fifth in a row locks the safety role out for 600 s (R417, R419). -/
def wrongPassword (p : Nat) (s : State) : State :=
  let s := fincWrap (safeLog (portOf p) 0 0xFFFFFFFD 0 0 2 (rd s SAFE_SIG) s) SAFE_PWCNT SAFE_PWCNT_FAILS
  let s := { s with safe.fails := s.safe.fails + 1 }
  if 5 ≤ s.safe.fails then
    fput { s with safe.lockEnd := s.time.ns + lockoutNs } SAFE_STATUS SAFE_STATUS_LOCKOUT true
  else s

/-- OPEN (R460). -/
def runOpen (p : Nat) (r : Req) (s : State) : Done × State :=
  let role := field r.pay 0 1
  let pw := r.pay.drop 2
  let n := (s.host.sessions.filter fun x => portCode x.port == p).length
  let has (k : Nat) : Bool := s.host.sessions.any fun x => x.role == k
  if logFull s then (.busy, s)
  else if r.pay.length < 2 || field r.pay 1 1 ≠ pw.length then (.now 4 [], s)
  else if role = 0 || 5 < role || (role ≤ 3 && roleMax s p < role) || (role = 4 && !safeEn s p) ||
      (role = 5 && !fbit s TEST_STATUS TEST_STATUS_FTM) then (.now 2 [], s)
  else if 4 ≤ n || (4 ≤ role && has role) then (.now 9 [], s)
  else if role = 4 then
    if fbit s SAFE_STATUS SAFE_STATUS_LOCKOUT then (.now 8 [], s)
    else match s.safe.sec with
      | some c =>
        if sha256 (c.salt ++ pw) = c.hash then
          let (k, s) := addSession p 4 (r.tag + 1) s
          let s := fput { s with safe.sess := some (portOf p, k), safe.fails := 0 } SAFE_STATUS SAFE_STATUS_SESSION true
          (.now 0 (beOf 2 k), safeLog (portOf p) k 0xFFFFFFFE 0 0 0 (rd s SAFE_SIG) s)
        else (.now 8 [], wrongPassword p s)
      | none => (.now 8 [], wrongPassword p s)
  else
    let (k, s) := addSession p role (r.tag + 1) s
    (.now 0 (beOf 2 k), s)

/-- The most words of a request (R457). -/
def countMax (s : State) (p : Nat) : Nat := if hspVer s p = 2 then 362 else 64

/-- The whole range lies in the map and is aligned (R484). -/
def rangeOk (a n : Nat) : Bool := a % 4 == 0 && decide (a + 4 * n ≤ 0x2000000)

/-- Read n words in ascending order. -/
def readRange (w : Who) : Nat → Nat → State → List Word × State
  | 0, _, s => ([], s)
  | n + 1, a, s =>
    let (v, s) := readWord w a s
    let (vs, s) := readRange w n (a + 4) s
    (v :: vs, s)

/-- READ (R484). -/
def runRead (p : Nat) (r : Req) (s : State) : Done × State :=
  let a := field r.pay 0 4
  let n := field r.pay 4 2
  if r.pay.length ≠ 8 || n = 0 || countMax s p < n then (.now 4 [], s)
  else if !rangeOk a n then (.now 3 [], s)
  else
    let (vs, s) := readRange ⟨portOf p, BitVec.ofNat 16 r.sess⟩ n a s
    (.now 0 (vs.flatMap beBytes), s)

/-- Write words in ascending order until one is refused: the number applied (R465). -/
def writeRange (w : Who) : List Word → Nat → State → Nat × State
  | [], _, s => (0, s)
  | v :: vs, a, s =>
    let s := writeReg w a v s
    if s.host.acc.1 ≠ 0 then (0, s)
    else
      let (n, s) := writeRange w vs (a + 4) s
      (n + 1, s)

/-- WRITE (R465): in a pair the response waits for the ACK that covers its records (R377). -/
def runWrite (p : Nat) (r : Req) (s : State) : Done × State :=
  let a := field r.pay 0 4
  let n := field r.pay 4 2
  let ws := beWords (r.pay.drop 8)
  if r.pay.length ≠ 8 + 4 * n || n = 0 || countMax s p < n then (.now 4 [], s)
  else if !rangeOk a n then (.now 3 [], s)
  else if logFull s && !(a == LOG_SEL && n == 1) then (.busy, s)
  else
    let q := s.pair.rseq
    let (k, t) := writeRange ⟨portOf p, BitVec.ofNat 16 r.sess⟩ ws a s
    let st := if k = n then 0 else 2
    if t.pair.rseq ≠ q && mirroring t && hspVer t p ≠ 0 then
      (.later, t.setHport p { t.hport p with wait := some (r.sess, r.tag, t.pair.rseq, answerMsg t p r st (beOf 2 k)) })
    else (.now st (beOf 2 k), t)

/-- LOG_READ (R475). -/
def runLogRead (r : Req) (s : State) : Done :=
  let n := field r.pay 4 1
  if r.pay.length ≠ 5 || n = 0 || 36 < n then .now 4 []
  else .now 0 (((logFrom s (field r.pay 0 4)).take n).flatMap logBytes)

/-- Image jobs are an engineer's (Table 13.5). -/
def engineer (s : State) (p sess : Nat) : Bool := (sessAt s p sess).any fun x => x.role == 3 || x.role == 5

/-- IMG_BEGIN (R443, R466): steps 1 and 2 leave the target without a commit record. -/
def runImgBegin (p : Nat) (r : Req) (s : State) : Done × State :=
  let len := field r.pay 0 4
  if !engineer s p r.sess || !(fbit s BOOT_STATUS BOOT_STATUS_BOOT_OK || fbit s BOOT_STATUS BOOT_STATUS_MINIMAL) then (.now 2 [], s)
  else if r.pay.length ≠ 4 then (.now 4 [], s)
  else if logFull s || fbit s IMG_JOB IMG_JOB_BUSY then (.busy, s)
  else match s.boot.flash.hdr with
    | none => (.now 2 [], s)
    | some h =>
      if len = 0 || h.slotSize - 4096 < len then (.now 4 [], s)
      else
        let b := freeB s
        let s := setSlot b { slotOf s b with commit := none } s
        (.now 0 [], showSlots (fset (startJob 1 { s with host.img := some { sess := r.sess, port := portOf p, len := len, got := 0 } })
          IMG_JOB IMG_JOB_PROGRESS 0))

/-- The session's image job, while it takes data. -/
def imgOf (s : State) (p sess : Nat) : Option ImgRx :=
  match s.host.img with
  | some i => if i.sess = sess && portCode i.port = p && s.boot.ended.isNone then some i else none
  | none => none

/-- IMG_DATA (R466). -/
def runImgData (p : Nat) (r : Req) (s : State) : Done × State :=
  let d := r.pay.drop 4
  if !engineer s p r.sess then (.now 2 [], s)
  else match imgOf s p r.sess with
    | none => (.now 2 [], s)
    | some i =>
      if r.pay.length < 4 || 1024 < d.length || field r.pay 0 4 ≠ i.got || i.len < i.got + d.length then (.now 4 [], s)
      else
        let g := i.got + d.length
        (.now 0 [], fset { s with host.img := some { i with got := g } } IMG_JOB IMG_JOB_PROGRESS (min 99 (g * 100 / i.len)))

/-- IMG_END (R466): steps 4 and 5 run, and IMG_JOB_DONE gives the answer. -/
def runImgEnd (p : Nat) (r : Req) (s : State) : Done × State :=
  if !engineer s p r.sess then (.now 2 [], s)
  else match imgOf s p r.sess with
    | none => (.now 2 [], s)
    | some _ => (.later, { s with boot.ended := some (p, r.sess, r.tag) })

/-- SUBSCRIBE (R467). -/
def runSubscribe (r : Req) (s : State) : Done × State :=
  if r.pay.length ≠ 2 then (.now 4 [], s)
  else (.now 0 [], modSess r.sess (fun x => { x with qmask := field r.pay 0 1, diag := field r.pay 1 1 == 1 }) s)

/-- Execute an accepted request (Tables 13.3 and 13.4). -/
def runReq (p : Nat) (r : Req) (s : State) : Done × State :=
  if !([0x02, 0x03, 0x10, 0x11, 0x20, 0x30, 0x31, 0x32].contains r.op) && !(r.op == 0x40 && hspVer s p == 2) then (.now 5 [], s)
  else if r.op = 2 then runOpen p r s
  else if r.sess = 0 then (.now 6 [], s)
  else match r.op with
    | 0x03 => if logFull s then (.busy, s) else (.now 0 [], s)
    | 0x10 => runRead p r s
    | 0x11 => runWrite p r s
    | 0x20 => (runLogRead r s, s)
    | 0x30 => runImgBegin p r s
    | 0x31 => runImgData p r s
    | 0x32 => runImgEnd p r s
    | _ => runSubscribe r s

/-- A request of the port is executing (R465, R487). -/
def portBusy (s : State) (p : Nat) : Bool :=
  (s.hport p).wait.isSome || (match s.boot.ended with | some (q, _, _) => q == p | none => false)

/-- Execute one request and answer it; a device reset on the way leaves no one to answer. -/
def runOne (p : Nat) (r : Req) (s : State) : State :=
  let (d, t) := runReq p r s
  if hspVer t p = 0 then t
  else match d with
    | .busy => answerOnly p r 1 [] t
    | .later => t
    | .now st pay =>
      let t := answer p r (answerMsg t p r st pay) t
      if r.op = 3 && st = 0 then
        let t := endSession r.sess t
        t.setHport p { t.hport p with stored := (t.hport p).stored.filter fun e => e.1 != r.sess }
      else t

/-- Accepted requests run in TAG order while none is executing (R463). -/
def drainPort (p : Nat) : Nat → State → State
  | 0, s => s
  | f + 1, s =>
    if portBusy s p then s
    else
      let h := s.hport p
      match h.queue.find? fun r => expOf s p r.sess == some r.tag with
      | some r => drainPort p f (runOne p r (s.setHport p { h with queue := h.queue.erase r }))
      | none => s

/-- The records of a WRITE are covered, or no partner is left to cover them. -/
def releaseWait (p : Nat) (s : State) : State :=
  match (s.hport p).wait with
  | some (sess, tag, q, msg) =>
    if covered s q || !mirroring s then
      drainPort p 9 (answer p { sess := sess, tag := tag, op := 0x11, pay := [] } msg (s.setHport p { s.hport p with wait := none }))
    else s
  | none => s

/-- An image job that has ended answers its IMG_END with its RESULT (R466). -/
def releaseEnd (s : State) : State :=
  match s.boot.ended with
  | some (p, sess, tag) =>
    if fbit s IMG_JOB IMG_JOB_BUSY && fget s IMG_JOB IMG_JOB_JOB = 1 then s
    else
      let r : Req := { sess := sess, tag := tag, op := 0x32, pay := [] }
      let s := { s with boot.ended := none }
      drainPort p 9 (answer p r (answerMsg s p r 0 (beOf 1 (fget s IMG_JOB IMG_JOB_RESULT))) s)
  | none => s

/-- What waits on the ports and may go on. -/
def settlePorts (s : State) : State := releaseEnd (releaseWait 1 (releaseWait 0 s))

/-- A request arrives whose CRC, LEN and MT are good (R456, R458, R463, R464). -/
def takeReq (h : HspHdr) (p : Nat) (op : Nat) (pay : List (BitVec 8)) (s : State) : State :=
  let r : Req := { sess := h.sess.toNat, tag := h.tag.toNat, op := op, pay := pay }
  if op = 1 then runHello h p r s
  else if hspVer s p = 0 || h.ver.toNat ≠ hspVer s p then discardMsg p HOST_ERR_BADMSG s
  else match expOf s p r.sess with
    | none => answerOnly p r 6 [] s
    | some e =>
      let d := dist 16 r.tag e
      let w := window s p
      let hp := s.hport p
      let here := (hp.queue.any fun x => x.sess == r.sess && x.tag == r.tag) || (portBusy s p && d == 0)
      if d < w then
        if here then s
        else if 8 ≤ hp.queue.length then answerOnly p r 1 [] s
        else drainPort p 9 (s.setHport p { hp with queue := hp.queue ++ [r] })
      else if 65536 - w ≤ d then
        match hp.stored.find? fun x => x.1 == r.sess && x.2.1 == r.tag with
        | some x => postMsg p x.2.2 s
        | none => s
      else fincWrap s HOST_ERR HOST_ERR_STALE

/-- An HSP request arrives at a port (R456 to R458). -/
def hspReceive (h : HspHdr) (op : Nat) (pay : List (BitVec 8)) (s : State) : State :=
  let p := h.eth.toNat
  if roleMax s p = 0 || s.boot.held then s
  else if h.eth && (s.hport 1).peer.any (· != (h.ip, h.udp)) then wrN s HOST_FOREIGN (rdN s HOST_FOREIGN + 1)
  else if !h.crcOk then discardMsg p HOST_ERR_CRC_ERR s
  else if !h.lenOk || h.mt ≠ 1#8 || 1472 < 16 + pay.length then discardMsg p HOST_ERR_BADMSG s
  else settlePorts (takeReq h p op pay s)

/-! ### The rows of the operations -/

/-- HELLO (R459). -/
def execHello (h : HspHdr) (vmin vmax : BitVec 8) (s : State) : Host.Outcome State Fault Refusal :=
  .next (hspReceive h 0x01 [vmin, vmax] s)

/-- OPEN (R460). -/
def execHspOpen (h : HspHdr) (role : BitVec 8) (pw : List (BitVec 8)) (s : State) : Host.Outcome State Fault Refusal :=
  .next (hspReceive h 0x02 ([role] ++ beOf 1 pw.length ++ pw) s)

/-- CLOSE (R460). -/
def execClose (h : HspHdr) (s : State) : Host.Outcome State Fault Refusal := .next (hspReceive h 0x03 [] s)

/-- READ (R484). -/
def execRead (h : HspHdr) (a : Word) (count : BitVec 16) (s : State) : Host.Outcome State Fault Refusal :=
  .next (hspReceive h 0x10 (beBytes a ++ beOf 2 count.toNat ++ beOf 2 0) s)

/-- WRITE (R465). -/
def execWrite (h : HspHdr) (a : Word) (count : BitVec 16) (ws : List Word) (s : State) : Host.Outcome State Fault Refusal :=
  .next (hspReceive h 0x11 (beBytes a ++ beOf 2 count.toNat ++ beOf 2 0 ++ ws.flatMap beBytes) s)

/-- LOG_READ (R475). -/
def execLogRead (h : HspHdr) (from' : Word) (n : BitVec 8) (s : State) : Host.Outcome State Fault Refusal :=
  .next (hspReceive h 0x20 (beBytes from' ++ [n]) s)

/-- IMG_BEGIN (R466). -/
def execImgBegin (h : HspHdr) (len : Word) (s : State) : Host.Outcome State Fault Refusal := .next (hspReceive h 0x30 (beBytes len) s)

/-- IMG_DATA (R466). -/
def execImgData (h : HspHdr) (ofs : Word) (data : List (BitVec 8)) (s : State) : Host.Outcome State Fault Refusal :=
  .next (hspReceive h 0x31 (beBytes ofs ++ data) s)

/-- IMG_END (R466). -/
def execImgEnd (h : HspHdr) (s : State) : Host.Outcome State Fault Refusal := .next (hspReceive h 0x32 [] s)

/-- SUBSCRIBE (R467). -/
def execSubscribe (h : HspHdr) (qmask diag : BitVec 8) (s : State) : Host.Outcome State Fault Refusal :=
  .next (hspReceive h 0x40 [qmask, diag] s)

/-- IMG_JOB_DONE (R443): an image write ends only after its IMG_END (R466), with the answer. -/
def execImgJobDone (nvmOk : Bool) (img : SlotImg) (s : State) : Host.Outcome State Fault Refusal :=
  .next (if fget s IMG_JOB IMG_JOB_JOB = 1 && s.boot.ended.isNone then s else settlePorts (jobDone nvmOk img s))

/-- IMG_DATA_TIMEOUT (R466). -/
def execImgDataTimeout (s : State) : Host.Outcome State Fault Refusal :=
  .next (if s.host.img.isSome && s.boot.ended.isNone then abortImg s else s)

/-- MIRROR_ACK_RX (R377, R448): DONE and HSP responses that waited for the ACK are given. -/
def execMirrorAckRx (h : MirHdr) (pstate : BitVec 8) (rseq lkey : Word) (level : BitVec 8) (reqs : List (BitVec 8)) (s : State) :
    Host.Outcome State Fault Refusal :=
  .next (let t := ackRx h pstate rseq lkey level reqs s
    if mirOpen s && pairState s = 2 then settlePorts (bankCovered rseq.toNat t) else t)

/-! ### SPI transactions (R453, R454) -/

/-- SPI_STATUS: RX_FREE, whose buffer size is not stated, and TX_LEN. -/
def execSpiStatus (s : State) : Host.Outcome State Fault Refusal :=
  .next (let (x, s) := takeFree s
    let n := match (s.hport 0).out with | m :: _ => m.bytes.length | [] => 0
    { s with host.spiOut := beOf 1 0 ++ beOf 2 (x.toNat % 65536) ++ beOf 2 n })

/-- SPI_PUT: one HSP message; a message cut short, or an unknown command byte, counts in FRAMING. -/
def execSpiPut (cmd : BitVec 8) (bytes : List (BitVec 8)) (s : State) : Host.Outcome State Fault Refusal :=
  let n := field bytes 2 2
  let body := bytes.take (n - 4)
  let s := { s with host.spiOut := [] }
  .next (if cmd = 0x0B#8 || cmd = 0x03#8 || cmd = 0xC3#8 then s
    else if cmd ≠ 0x02#8 then fincWrap s HOST_ERR HOST_ERR_FRAMING
    else if bytes.length < 4 || bytes.length < n then fincWrap s HOST_ERR HOST_ERR_FRAMING
    else if roleMax s 0 = 0 then s
    else if n < 16 || 1472 < n || n < bytes.length then discardMsg 0 HOST_ERR_BADMSG s
    else if beBytes (crc32c body) ≠ (bytes.drop (n - 4)).take 4 then discardMsg 0 HOST_ERR_CRC_ERR s
    else if field bytes 1 1 = 0x0F then s
    else if field bytes 1 1 ≠ 1 then discardMsg 0 HOST_ERR_BADMSG s
    else
      let h : HspHdr := { eth := false, ver := BitVec.ofNat 8 (field bytes 0 1), sess := BitVec.ofNat 16 (field bytes 4 2),
                          tag := BitVec.ofNat 16 (field bytes 6 2) }
      hspReceive h (field bytes 8 2) (body.drop 12) s)

/-- SPI_GET: `n` bytes of the next waiting message are clocked out; it goes when all of it has. -/
def execSpiGet (n : Nat) (s : State) : Host.Outcome State Fault Refusal :=
  .next (match (s.hport 0).out with
  | [] => { s with host.spiOut := List.replicate n 0 }
  | m :: l =>
    let s := { s with host.spiOut := m.bytes.take n ++ List.replicate (n - m.bytes.length) 0 }
    if m.bytes.length ≤ n then withLine 14 (fun s => s.setHport 0 { s.hport 0 with out := l }) s else s)

/-- SPI_RESET: other bytes are ignored. -/
def execSpiReset (b0 b1 b2 : BitVec 8) (s : State) : Host.Outcome State Fault Refusal :=
  .next (if b0 = 0x5A#8 && b1 = 0xA5#8 && b2 = 0x3C#8 then resetPort 0 s else s)

/-- HRST_N (R504): low for `ns`. -/
def execHrstN (ns : Nat) (s : State) : Host.Outcome State Fault Refusal :=
  let (b, s) := if 200 ≤ ns && ns < 1000 then takeFreeBool s else (decide (1000 ≤ ns), s)
  .next (if b then resetPort 0 s else s)

/-- PORT_RESET_FRAME (R456): from any address. -/
def execPortResetFrame (pay : Word) (s : State) : Host.Outcome State Fault Refusal :=
  .next (if pay = 0x5A54C33C#32 then resetPort 1 s else s)

/-! ### The management port (R455) -/

/-- The port's MAC address (R497). -/
def ownMac : List (BitVec 8) := beOf 2 Config.macHi.toNat ++ beOf 4 Config.macLo.toNat

/-- Its IPv4 address: ETH_IP, or a link-local one by RFC 3927. -/
def ownIp (s : State) : Nat := if rd s ETH_IP = 0 then 0xA9FE0000 + Config.linkLocal.toNat else rdN s ETH_IP

/-- ARP_REQUEST (R455): the reply to a request for the port's own address. -/
def execArpRequest (mac : BitVec 48) (spa tpa : Word) (s : State) : Host.Outcome State Fault Refusal :=
  .next (if tpa.toNat = ownIp s then
      { s with host.ethTx := beOf 6 mac.toNat ++ ownMac ++ beOf 2 0x0806 ++ beOf 2 1 ++ beOf 2 0x0800 ++ [6, 4] ++ beOf 2 2 ++
          ownMac ++ beOf 4 (ownIp s) ++ beOf 6 mac.toNat ++ beBytes spa }
    else s)

/-- The Internet checksum of a run of bytes. -/
def inetSum (l : List (BitVec 8)) : Nat :=
  let rec go : List (BitVec 8) → Nat
    | a :: b :: t => a.toNat * 256 + b.toNat + go t
    | [a] => a.toNat * 256
    | [] => 0
  let x := go l
  let x := x % 65536 + x / 65536
  let x := x % 65536 + x / 65536
  65535 - x % 65536

/-- ICMP_ECHO (R455): the echo reply; the IPv4 identification and time to live are not stated. -/
def execIcmpEcho (e : Echo) (s : State) : Host.Outcome State Fault Refusal :=
  .next (let (x, s) := takeFree s
    let icmp (sum : Nat) := [0#8, 0#8] ++ beOf 2 sum ++ beOf 2 e.ident.toNat ++ beOf 2 e.seq.toNat ++ e.data
    let body := icmp (inetSum (icmp 0))
    let ip (sum : Nat) := [0x45#8, 0#8] ++ beOf 2 (20 + body.length) ++ beOf 2 (x.toNat % 65536) ++ beOf 2 0 ++
      beOf 1 (x.toNat / 65536 % 256) ++ [1#8] ++ beOf 2 sum ++ beOf 4 (ownIp s) ++ beBytes e.ip
    { s with host.ethTx := beOf 6 e.mac.toNat ++ ownMac ++ beOf 2 0x0800 ++ ip (inetSum (ip 0)) ++ body })

/-- RGMII_IN_BAND_STATUS (R455): link, speed code (0 for 10, 1 for 100, 2 for 1,000 Mb/s) and duplex. -/
def execRgmiiInBandStatus (up : Bool) (speed : BitVec 2) (full : Bool) (s : State) : Host.Outcome State Fault Refusal :=
  .next { s with host.rgmii := (up, [10, 100, 1000, 0].getD speed.toNat 0, full) }

end Sys2Proof.Machine
end

