-- ==== Sys2Proof/Machine/Sched.lean ====
section
/-! DEFINITION. The hardware scheduler: the tick (R60), the delay-list operations of the host ports, dispatch (R67 to R69), the end of law tasks and the statistics (R74 to R76). -/

namespace Sys2Proof.Machine
open R

/-! ### Delay-list operations (R61, R65, R66) -/

/-- DL_OP_DONE: the insertion or cancellation of a port completes `ns` after the tick. -/
def execDlOpDone (p : Port) (ns : Nat) (s : State) : Host.Outcome State Fault Refusal :=
  .next (match tget none s.sch.ins (portCode p) with
    | some _ => runPlaced (opDone (portCode p) ns (reachAt (ns * 256) s))
    | none => s)

/-! ### Dispatch (R67, R68, R69, R233, R241) -/

/-- The older of two ready-list entries; equal release times by ascending number. -/
def older (a b : REnt) : REnt := if a.rel < b.rel || (a.rel == b.rel && a.id ≤ b.id) then a else b

/-- The oldest entry of a list. -/
def oldest : List REnt → Option REnt
  | [] => none
  | e :: l => some (l.foldl older e)

/-- The law-task entries a unit may take, class after class (R14, R16, R67, R68). An L-G pair is taken when both contexts have a sample pending. -/
def lawWork (s : State) (u : Nat) : List (Nat × List REnt) :=
  let g := u / 8
  let l (c : Nat) := s.ready g c
  if reservedUnit s u then [(0, (l 0).filter fun e => (s.ctx e.id).unit == u)]
  else if joined s u then
    [(1, (l 1).filter fun e => (s.ctx e.id).lawSet == 3 && (match (s.ctx e.id).partner with
      | some m => (l 1).any fun x => x.id == m
      | none => false))]
  else [(1, (l 1).filter fun e => (s.ctx e.id).lawSet != 3), (2, l 2)]

/-- The law-task entry a unit would be given, with its class. -/
def lawCand (s : State) (u : Nat) : Option (Nat × REnt) :=
  (lawWork s u).findSome? fun w => (oldest w.2).map fun e => (w.1, e)

/-- A waiting time is sampled (R74). -/
def sampleWait (c ns : Nat) (s : State) : State :=
  let x := tget {} s.sch.waitStat c
  { s with sch.waitStat := tset {} s.sch.waitStat c { max := max x.max ns, sum := x.sum + ns, n := x.n + 1 } }

/-- The units of a lane are given a job. -/
def giveJob (u : Nat) (j : Job) (s : State) : State :=
  eachN (laneUnits s u) (fun v s => s.setUnit v { s.unit v with job := some j, since := s.time.ns, yield := false }) s

/-- The measured position a sample takes: a substitute, the last feedback, or without position feedback the set-point (R84, R330). -/
def measPos (s : State) (n : Nat) : Int :=
  if (s.ctx n).hasPos then (s.fb n).sub.getD (s.fb n).pos else (s.gen n).pOut

/-- The inputs a law task takes at dispatch (R84, R278). -/
def lawInputs (n rel : Nat) (s : State) : LawIn × State :=
  let f := s.fb n
  let g := s.gen n
  let s := if (s.ctx n).lawSet = 4 then stillSampleSw n g.vOut g.aOut s else s
  ({ axis := n, rel := rel, pMeas := measPos s n, pSet := g.pOut, vSet := g.vOut, aSet := g.aOut, v1 := f.v1, v2 := f.v2, vbus := f.v3,
     torqueOff := f.torqueOff, pf := pfSteps s n, sw := (tget {} s.edge.still n).sw,
     off := lawIdle s n }, s)

/-- A context leaves a ready list. -/
def takeReady (g c n : Nat) (s : State) : State := s.setReady g c ((s.ready g c).filter fun e => e.id != n)

/-- A law task is dispatched on a unit. The first context of an L-G pair is the one whose tile has LG_SECOND = 0 (R112). -/
def startLaw (u c : Nat) (e : REnt) (s : State) : State :=
  let g := u / 8
  let wait (x : REnt) (s : State) : State := sampleWait c (s.time.ns - x.rel) (takeReady g c x.id s)
  match (if joined s u then (s.ctx e.id).partner else none) with
  | none =>
    let s := wait e s
    let (i, s) := lawInputs e.id e.rel s
    giveJob u (.law i) s
  | some p =>
    let x := ((s.ready g c).find? fun y => y.id == p).getD e
    let (m, n) := if structBit (lawTile s e.id) 15 then (x, e) else (e, x)
    let s := wait x (wait e s)
    let (i, s) := lawInputs m.id m.rel s
    let (j, s) := lawInputs n.id n.rel s
    giveJob u (.law { i with second := some { axis := j.axis, pMeas := j.pMeas, pSet := j.pSet, vSet := j.vSet, aSet := j.aSet,
                                              v1 := j.v1, torqueOff := j.torqueOff, off := j.off } }) s

/-- The pending lane tasks of a unit with one priority. -/
def laneWork (s : State) (u : Nat) (high : Bool) : List (Nat × REnt) :=
  (s.ready (u / 8) 3).filterMap fun e => match findTask s e.id with
    | some (v, k) => if v = u && taskHigh s u k = high then some (k, e) else none
    | none => none

/-- The oldest of them, with its descriptor slot. -/
def laneCand (s : State) (u : Nat) (high : Bool) : Option (Nat × REnt) :=
  let l := laneWork s u high
  (oldest (l.map (·.2))).bind fun e => l.find? fun w => w.2.id == e.id

/-- A pending lane task starts on its unit. -/
def startTask (u : Nat) (w : Nat × REnt) (s : State) : State :=
  let s := sampleWait 3 (s.time.ns - w.2.rel) (takeReady (u / 8) 3 w.2.id s)
  giveJob u (.lane w.2.id) (laneStart u w.1 w.2 s)

/-- A task the lane holds goes on. -/
def goOn (u : Nat) (s : State) : State :=
  match (s.lan u).cur with
  | none => s
  | some k =>
    let t := taskNo s u k
    giveJob u (.lane t) (eachN (laneUnits s u) (fun v s => fset s (LANE_STATUS v) LANE_STATUS_TASK t) s)

/-- Background work for a free unit (R233): a suspended HIGH task, a pending HIGH task, which saves a suspended LOW task in the shadow bank (R241), then the LOW task held, then a pending LOW task. -/
def startBackground (u : Nat) (s : State) : State :=
  let l := s.lan u
  let resume (s : State) : State := goOn u (laneResume u (sampleWait 3 (s.time.ns - l.rel) s))
  match l.cur, laneCand s u true with
  | some k, some w =>
    if taskHigh s u k || l.shadow.isSome then resume s else startTask u w (shadowSave u s)
  | some _, none => resume s
  | none, some w => startTask u w s
  | none, none =>
    if l.shadow.isSome then goOn u (shadowRestore u s)
    else match laneCand s u false with
      | some w => startTask u w s
      | none => s

/-- A running LOW task gives way to a pending HIGH task at a permitted point (R241). -/
def highPreempt (u : Nat) (s : State) : State :=
  match (s.lan u).cur, laneCand s u true with
  | some k, some w =>
    if laneRuns s u && !taskHigh s u k && (s.lan u).shadow.isNone && permitted s u then
      startTask u w (shadowSave u (laneFree u (s.lan u).issued s))
    else s
  | _, _ => s

/-- The odd unit of a Lagoon pair takes no work of its own (R16). -/
def shut (s : State) (u : Nat) : Bool := u % 2 == 1 && joined s u

/-- A unit without a job is given the oldest allowed work (R67). -/
def dispatchUnit (u : Nat) (s : State) : State :=
  if shut s u then s
  else if (s.unit u).job.isSome then highPreempt u s
  else match lawCand s u with
    | some (c, e) => startLaw u c e s
    | none => startBackground u s

/-- DISPATCH (R67) `ns` after the tick: the free units of the region up to u are served in ascending number. -/
def execDispatch (u : UnitNo) (ns : Nat) (s : State) : Host.Outcome State Fault Refusal :=
  let g := u.toNat / 8
  .next (eachN ((List.range (u.toNat % 8 + 1)).map (8 * g + ·)) dispatchUnit (runPlaced (reachAt (ns * 256) s)))

/-- No release waits for a unit any more: it need not yield. -/
def calm (u : Nat) (s : State) : State :=
  if (s.unit u).yield && (lawCand s u).isNone then
    (s.setUnit u { s.unit u with yield := false }).setLan u { s.lan u with asked := none }
  else s

/-- LANE_YIELD (R69, R240): a unit that was asked to yield reaches a permitted point and takes the waiting release. -/
def execLaneYield (u : UnitNo) (ns : Nat) (s : State) : Host.Outcome State Fault Refusal :=
  let k := u.toNat
  let s := runPlaced (reachAt (ns * 256) s)
  .next (if !(s.unit k).yield || !laneRuns s k || shut s k then s
    else match lawCand s k with
      | some (c, e) =>
        if permitted s k then
          eachN ((List.range 8).map (8 * (k / 8) + ·)) calm (startLaw k c e (laneSuspend k s))
        else s
      | none => calm k s)

/-! ### The end of a law task (R83, R100 to R103, R234) -/

/-- What follows the laws on one axis: AXREL releases, the command due, the turnaround of a local class A axis, what the pair keeps (R79, R234, R323, R367). -/
def afterLaw (n rel now : Nat) (i : LawIn) (s : State) : State :=
  let s := if (s.axl n).fresh then releaseAxrel n now s else s
  let x := s.axn n
  let (cyc, miss) := match x.rel with
    | some (c, _, m) => (c, m)
    | none => (cycNow s, false)
  let s := s.setAxn n { x with done := true, unsent := true }
  let s := if (s.ctx n).cls = 0 && (s.ctx n).bridge.isSome && !miss then showTurnaround n (now - rel) s else s
  let s := match (s.ctx n).enc with
    | some e => judgeCause n 4 (encFault s e) s
    | none => s
  noteSample n cyc miss i s

/-- LAW_TASK_COMPLETE `ns` after the tick. -/
def execLawTaskComplete (u : UnitNo) (ns : Nat) (s : State) : Host.Outcome State Fault Refusal :=
  let k := u.toNat
  .next (match (s.unit k).job with
    | some (.law i) =>
      let s := reachAt (ns * 256) s
      let now := s.time.start + ns
      let axes := i.axis :: (match i.second with
        | some j => [j.axis]
        | none => [])
      let s := eachN axes (fun n s => s.setAxl n { s.axl n with fresh := false }) s
      let s := eachN (laneUnits s k) (fun v s => freeUnit v ns s) (lawDone i s)
      eachN axes (fun n s => afterLaw n i.rel now i s) s
    | _ => s)

/-! ### Statistics (R74 to R76) -/

/-- A mean rounded half-up to 1 / `f` of a unit of `d`; 0 over a window without samples. -/
def Stat.mean (x : Stat) (f d : Nat) : Nat := if x.n = 0 then 0 else (rhu (x.sum * f : Nat) (x.n * d : Nat)).toNat

/-- A depth register: maximum, and mean in Q11.5. -/
def Stat.depth (x : Stat) : Nat := min 0xFFFF x.max * 2 ^ 16 + min 0xFFFF (x.mean 32 1)

/-- A waiting-time register in 4 ns units, saturating. -/
def Stat.wait (x : Stat) : Nat := min 0xFFFF (x.max / 4) * 2 ^ 16 + min 0xFFFF (x.mean 1 4)

/-- The busy time of a law task under way counts up to the end of the window. -/
def closeBusy (now u : Nat) (s : State) : State :=
  let x := s.unit u
  match x.job with
  | some (.law _) => s.setUnit u { x with busy := x.busy + (now - x.since), since := now }
  | _ => s

/-- A unit's load over a window (R74, R76). -/
def loadWord (s : State) (u : Nat) : Nat :=
  let x := s.unit u
  x.clkchg.toNat * 2 ^ 17 + x.econ.toNat * 2 ^ 16 + min 0xFFFF (x.busy * 65536 / (1024 * tb s))

/-- The end of a window at an instant: publication while STATS_EN is set, merged log records enter the log (R472), and the window's counts start anew. -/
def publish (now : Nat) (s : State) : State :=
  let s := eachN (List.range 32) (closeBusy now) (sampleDepths now s)
  let s := if fbit s SCH_CTRL SCH_CTRL_STATS_EN then
      let s := eachN [0, 1, 2, 3] (fun l s =>
        wrN (wrN s (DL_DEPTH l) (tget {} s.sch.dlStat l).depth) (WAIT l) (tget {} s.sch.waitStat l).wait) s
      let s := eachN (List.range 16) (fun i s => wrN s (RL_DEPTH (i / 4) (i % 4)) (tget {} s.sch.rlStat i).depth) s
      let s := eachN (List.range 32) (fun u s => wrN s (UNIT_LOAD u) (loadWord s u)) s
      fincWrap s SCH_STATUS SCH_STATUS_STATS_SEQ
    else s
  let s := eachN (List.range 32) (fun u s =>
    s.setUnit u { s.unit u with busy := 0, clkchg := false, econ := fbit s (REGION_STATUS (u / 8)) REGION_STATUS_CLK_ECON }) s
  logFlush { s with sch.dlStat := [], sch.rlStat := [], sch.waitStat := [], sch.published := true, pair.divWin := 0 }

/-- The last tick of a window has passed (R74). -/
def windowLast (s : State) : Bool := s.sch.started && rdN s TICK_COUNT % 1024 == 1023

/-- STATS_PUBLISH (R75). -/
def execStatsPublish (s : State) : Host.Outcome State Fault Refusal :=
  .next (if windowLast s && !s.sch.published then publish (s.time.start + tb s) s else s)

/-! ### The tick (R60) -/

/-- The next basic cycle begins: its start, CYC and TICK_COUNT (R315). -/
def beginCycle (s : State) : State :=
  let first := !s.sch.started
  let (t, c) := match s.time.grid with
    | some x => x
    | none => if first then (s.time.start, cycNow s) else (s.time.start + tb s, cycNow s + 1)
  let s := setNow t { s with time.start := t % 2 ^ 64, time.grid := none }
  let s := setCyc (c % 65536) s
  let s := wrN s TICK_COUNT (if first then 0 else rdN s TICK_COUNT + 1)
  { s with sch.started := true }

/-- What takes effect at a basic-cycle start: clocks, reservations, Lagoon joins and HOLDOFF_MAX (R22, R47, R217, R243). -/
def cycleChanges (s : State) : State :=
  let s := eachN [0, 1, 2, 3] (fun g s => clockSwitch g (applyResv g true (applyResv g false s))) s
  eachN (List.range 32) (fun u s => holdoffAct u (lagoonAct u s)) s

/-- Network work of a tick: the windows of the last cycle are over, SYNC counts its cycles (R326, R337). -/
def segTick (s : State) : State :=
  eachN [0, 1] (fun g s =>
    let x := s.seg g
    s.setSeg g { x with window := none, poll := none, sync := if segState s g = 6 then x.sync + 1 else x.sync }) s

/-- An entry falls due (R63, R65). -/
def entDue (s : State) (l : Nat) (e : DEnt) : Bool := canRelease s l && (e.late || precedes s l e.key || inWindow s l e.key)

/-- A due entry takes its action and leaves its list, a REPEAT entry for its next machine cycle; one whose action cannot be taken stays (R66, R71). -/
def releaseEnt (l : Nat) (e : DEnt) (s : State) : State :=
  match entAction e (if e.late then 0 else offsetOf s l e.key) s.time.start s with
  | none => s.setDl l (insSorted e (s.dl l))
  | some t =>
    if entRepeat e then t.setDl l (insSorted { e with key := (e.key + 2 ^ 32) % 2 ^ 64, late := false } (t.dl l)) else t

/-- Steps 3 and 4 of the tick for one list. -/
def evalList (l : Nat) (s : State) : State :=
  let due := (s.dl l).filter (entDue s l)
  due.foldl (fun s e => releaseEnt l e s) (s.setDl l ((s.dl l).filter fun e => !entDue s l e))

/-- Entries that the actions of the tick place in this basic cycle act in turn. -/
def placeAll : Nat → State → State
  | 0, s => s
  | f + 1, s => if s.sch.placed.isEmpty then s else placeAll f (runPlaced s)

/-- Samples whose phase of the round has come (R67, R84): those no feedback and no bridge counter releases. -/
def phaseReleases (s : State) : State :=
  eachN ((usedAxes s).filter fun n =>
      !(s.ctx n).relFb && !((s.ctx n).cls == 0 && (s.ctx n).bridge.isSome) && axisDue s n && mayRelease s n)
    (fun n s => release n (cycNow s) (s.time.start * 256 : Nat) false (localInputs n s)) s

/-- An axis given AUTO enters it at the first tick at which its zone is ON (R434). -/
def autoEntries (s : State) : State :=
  eachN (s.boot.autoWait.filter fun n => !zoneBlocks s n) (fun n s =>
    let s := { s with boot.autoWait := s.boot.autoWait.filter (· != n) }
    (axCtrlEff n (withField (rd s (AX_CTRL n)) AX_CTRL_MODE 2) s).getD s) s

/-- A region under reload reaches its test; when it does so the spec does not say: a free choice at each tick (R449). -/
def reloadTick (s : State) : State :=
  eachN [0, 1, 2, 3] (fun g s =>
    if regState s g = 3 then
      let (b, s) := takeFreeBool s
      if b then setRegState g 4 s else s
    else s) s

/-- What a tick does first: the set-points of the cycle now ending are handed over, a window of statistics ends, and the next basic cycle begins. -/
def tickStart (s : State) : State :=
  let s := handOver (if s.sch.started then computeCycle (runPlaced s) else runPlaced s)
  let s := beginCycle (if windowLast s && !s.sch.published then publish (s.time.start + tb s) s else s)
  { s with sch.published := s.sch.published && rdN s TICK_COUNT % 1024 != 0 }

/-- What a tick does in the basic cycle that has begun: cycle changes, encoders and angle, the pair, due records, the delay lists, held-back producers, timed outputs, samples by phase. -/
def tickWork (first : Bool) (s : State) : State :=
  let s := cycleChanges (segTick (switchApply s))
  let s := pairTick (angleTick (encTick s))
  let s := if first then eachN (List.range 32) toInstall s else s
  let s := ripenAll (applyDue s)
  let s := eachN [0, 1, 2, 3] evalList s
  let s := placeAll 64 (toTick (retryHeld s))
  let s := phaseReleases (autoEntries s)
  settlePorts (reloadTick s)

/-- The scheduler's work at a tick. -/
def tick (s : State) : State := tickWork (!s.sch.started) (tickStart s)

/-- SCHEDULER_TICK (R60). -/
def execSchedulerTick (s : State) : Host.Outcome State Fault Refusal := .next (if s.boot.held then s else tick s)

end Sys2Proof.Machine
end

