-- ==== Sys2Proof/Machine/Dispatch.lean ====
section
/-! DEFINITION. The meaning of every command: one direct call per constructor. -/

namespace Sys2Proof.Machine

/-- The effect of a command on everything but the queue. -/
def exec (i : Instr) (s : State) : Host.Outcome State Fault Refusal :=
  match i with
  | .registerWrite w a v => Sys2Proof.Machine.execRegisterWrite w a v s
  | .readClear p a => Sys2Proof.Machine.execReadClear p a s
  | .latchedRead p a => Sys2Proof.Machine.execLatchedRead p a s
  | .stagedWrite w a v => Sys2Proof.Machine.execStagedWrite w a v s
  | .dataLinkKeepAlive okS okC => Sys2Proof.Machine.execDataLinkKeepAlive okS okC s
  | .dataLinkTransfer toS ok => Sys2Proof.Machine.execDataLinkTransfer toS ok s
  | .dataLinkLostS => Sys2Proof.Machine.execDataLinkLostS s
  | .dataLinkLostC => Sys2Proof.Machine.execDataLinkLostC s
  | .stewardWatchdog pc => Sys2Proof.Machine.execStewardWatchdog pc s
  | .regionCtrlWrite w g v => Sys2Proof.Machine.execRegionCtrlWrite w g v s
  | .clockSwitch g => Sys2Proof.Machine.execClockSwitch g s
  | .reservationApply g hi => Sys2Proof.Machine.execReservationApply g hi s
  | .thermalMeasure t0 t1 t2 t3 => Sys2Proof.Machine.execThermalMeasure t0 t1 t2 t3 s
  | .quarWindowEnd => Sys2Proof.Machine.execQuarWindowEnd s
  | .quarantine w g => Sys2Proof.Machine.execQuarantine w g s
  | .migrateContext => Sys2Proof.Machine.execMigrateContext s
  | .reload w g => Sys2Proof.Machine.execReload w g s
  | .reloadTestDone g bad => Sys2Proof.Machine.execReloadTestDone g bad s
  | .schedulerTick => Sys2Proof.Machine.execSchedulerTick s
  | .sourceDistrusted n => Sys2Proof.Machine.execSourceDistrusted n s
  | .netSourceLost n => Sys2Proof.Machine.execNetSourceLost n s
  | .angleHold => Sys2Proof.Machine.execAngleHold s
  | .resume w => Sys2Proof.Machine.execResume w s
  | .retrust w m => Sys2Proof.Machine.execRetrust w m s
  | .autoRetrust n => Sys2Proof.Machine.execAutoRetrust n s
  | .sourceRestart => Sys2Proof.Machine.execSourceRestart s
  | .dlInsert w l => Sys2Proof.Machine.execDlInsert w l s
  | .dlCancel w l => Sys2Proof.Machine.execDlCancel w l s
  | .dlOpDone p ns => Sys2Proof.Machine.execDlOpDone p ns s
  | .bpStall n => Sys2Proof.Machine.execBpStall n s
  | .overrun n => Sys2Proof.Machine.execOverrun n s
  | .dispatch u ns => Sys2Proof.Machine.execDispatch u ns s
  | .laneYield u ns => Sys2Proof.Machine.execLaneYield u ns s
  | .statsPublish => Sys2Proof.Machine.execStatsPublish s
  | .lawTaskComplete u ns => Sys2Proof.Machine.execLawTaskComplete u ns s
  | .satur n => Sys2Proof.Machine.execSatur n s
  | .holdTimeout n => Sys2Proof.Machine.execHoldTimeout n s
  | .lawTileRebuild n => Sys2Proof.Machine.execLawTileRebuild n s
  | .modeWrite w n v => Sys2Proof.Machine.execModeWrite w n v s
  | .snap w n => Sys2Proof.Machine.execSnap w n s
  | .snapCopy => Sys2Proof.Machine.execSnapCopy s
  | .sr w n => Sys2Proof.Machine.execSr w n s
  | .rst w n => Sys2Proof.Machine.execRst w n s
  | .fclr w n => Sys2Proof.Machine.execFclr w n s
  | .springRampHandover n => Sys2Proof.Machine.execSpringRampHandover n s
  | .lawTubCommit w n bl => Sys2Proof.Machine.execLawTubCommit w n bl s
  | .lawTileInstall => Sys2Proof.Machine.execLawTileInstall s
  | .setpointCompute => Sys2Proof.Machine.execSetpointCompute s
  | .moveInsertAbs w n => Sys2Proof.Machine.execMoveInsertAbs w n s
  | .moveInsertRel w n => Sys2Proof.Machine.execMoveInsertRel w n s
  | .flush w n => Sys2Proof.Machine.execFlush w n s
  | .stop w n fl => Sys2Proof.Machine.execStop w n fl s
  | .qstop w n => Sys2Proof.Machine.execQstop w n s
  | .gear w n => Sys2Proof.Machine.execGear w n s
  | .cam w n rel => Sys2Proof.Machine.execCam w n rel s
  | .home w n => Sys2Proof.Machine.execHome w n s
  | .setpos w n => Sys2Proof.Machine.execSetpos w n s
  | .shclr w n => Sys2Proof.Machine.execShclr w n s
  | .limitChange n => Sys2Proof.Machine.execLimitChange n s
  | .gearRatioWrite w n v => Sys2Proof.Machine.execGearRatioWrite w n v s
  | .virtualLimitWrite w n v => Sys2Proof.Machine.execVirtualLimitWrite w n v s
  | .switchEdgeRaw n => Sys2Proof.Machine.execSwitchEdgeRaw n s
  | .switchDebounced n sw level dt span => Sys2Proof.Machine.execSwitchDebounced n sw level dt span s
  | .indexPulse k => Sys2Proof.Machine.execIndexPulse k s
  | .camTileVerify n t => Sys2Proof.Machine.execCamTileVerify n t s
  | .camTileRebuild t => Sys2Proof.Machine.execCamTileRebuild t s
  | .shiftRequest w n v => Sys2Proof.Machine.execShiftRequest w n v s
  | .coRequest w g v => Sys2Proof.Machine.execCoRequest w g v s
  | .coCancel w g => Sys2Proof.Machine.execCoCancel w g s
  | .coStaged g => Sys2Proof.Machine.execCoStaged g s
  | .nop u => Sys2Proof.Machine.execNop u s
  | .ldi u d imm => Sys2Proof.Machine.execLdi u d imm s
  | .ldih u d imm => Sys2Proof.Machine.execLdih u d imm s
  | .mov u d a => Sys2Proof.Machine.execMov u d a s
  | .ld u d y w ea => Sys2Proof.Machine.execLd u d y w ea s
  | .st u a y w ea => Sys2Proof.Machine.execSt u a y w ea s
  | .mts u spec a => Sys2Proof.Machine.execMts u spec a s
  | .mfs u d spec => Sys2Proof.Machine.execMfs u d spec s
  | .add u d a b => Sys2Proof.Machine.execAdd u d a b s
  | .sub u d a b => Sys2Proof.Machine.execSub u d a b s
  | .addi u d a imm => Sys2Proof.Machine.execAddi u d a imm s
  | .land u d a b => Sys2Proof.Machine.execLand u d a b s
  | .lor u d a b => Sys2Proof.Machine.execLor u d a b s
  | .lxor u d a b => Sys2Proof.Machine.execLxor u d a b s
  | .andi u d a imm => Sys2Proof.Machine.execAndi u d a imm s
  | .ori u d a imm => Sys2Proof.Machine.execOri u d a imm s
  | .xori u d a imm => Sys2Proof.Machine.execXori u d a imm s
  | .shl u d a n => Sys2Proof.Machine.execShl u d a n s
  | .shr u d a n => Sys2Proof.Machine.execShr u d a n s
  | .sra u d a n => Sys2Proof.Machine.execSra u d a n s
  | .cmp u a b => Sys2Proof.Machine.execCmp u a b s
  | .neg u d a => Sys2Proof.Machine.execNeg u d a s
  | .abs u d a => Sys2Proof.Machine.execAbs u d a s
  | .lnot u d a => Sys2Proof.Machine.execLnot u d a s
  | .min u d a b => Sys2Proof.Machine.execMin u d a b s
  | .max u d a b => Sys2Proof.Machine.execMax u d a b s
  | .nrm u d => Sys2Proof.Machine.execNrm u d s
  | .qstep u d a => Sys2Proof.Machine.execQstep u d a s
  | .mac u f a b ua ub hb => Sys2Proof.Machine.execMac u f a b ua ub hb s
  | .msu u f a b ua ub hb => Sys2Proof.Machine.execMsu u f a b ua ub hb s
  | .mpy u f a b ua ub hb => Sys2Proof.Machine.execMpy u f a b ua ub hb s
  | .fetch u f => Sys2Proof.Machine.execFetch u f s
  | .acs u d a b c neg mx fx xa xm dx => Sys2Proof.Machine.execAcs u d a b c neg mx fx xa xm dx s
  | .clra u => Sys2Proof.Machine.execClra u s
  | .adda u a => Sys2Proof.Machine.execAdda u a s
  | .suba u a => Sys2Proof.Machine.execSuba u a s
  | .nega u => Sys2Proof.Machine.execNega u s
  | .absa u => Sys2Proof.Machine.execAbsa u s
  | .shla u n => Sys2Proof.Machine.execShla u n s
  | .shra u n => Sys2Proof.Machine.execShra u n s
  | .mvaH u d => Sys2Proof.Machine.execMvaH u d s
  | .mvaT u d => Sys2Proof.Machine.execMvaT u d s
  | .mvaL u d => Sys2Proof.Machine.execMvaL u d s
  | .br u c t => Sys2Proof.Machine.execBr u c t s
  | .call u c t => Sys2Proof.Machine.execCall u c t s
  | .ret u c => Sys2Proof.Machine.execRet u c s
  | .rpt u n => Sys2Proof.Machine.execRpt u n s
  | .loop u n e => Sys2Proof.Machine.execLoop u n e s
  | .portIn u d p => Sys2Proof.Machine.execPortIn u d p s
  | .portOut u p a => Sys2Proof.Machine.execPortOut u p a s
  | .postEntry u l => Sys2Proof.Machine.execPostEntry u l s
  | .postShift u => Sys2Proof.Machine.execPostShift u s
  | .postRelease u => Sys2Proof.Machine.execPostRelease u s
  | .laneEnd u => Sys2Proof.Machine.execLaneEnd u s
  | .lagoonRequest w u v => Sys2Proof.Machine.execLagoonRequest w u v s
  | .lagoonApply u => Sys2Proof.Machine.execLagoonApply u s
  | .rearm w u k => Sys2Proof.Machine.execRearm w u k s
  | .holdoffMaxApply u => Sys2Proof.Machine.execHoldoffMaxApply u s
  | .laneCapture u k dt span => Sys2Proof.Machine.execLaneCapture u k dt span s
  | .bridgeReload m => Sys2Proof.Machine.execBridgeReload m s
  | .bridgeEdge c rise => Sys2Proof.Machine.execBridgeEdge c rise s
  | .deadTimeEnd c => Sys2Proof.Machine.execDeadTimeEnd c s
  | .syncPoint m count => Sys2Proof.Machine.execSyncPoint m count s
  | .commit w m => Sys2Proof.Machine.execCommit w m s
  | .shadowWriteLand => Sys2Proof.Machine.execShadowWriteLand s
  | .edgeProgrammeLand n => Sys2Proof.Machine.execEdgeProgrammeLand n s
  | .debugHalt => Sys2Proof.Machine.execDebugHalt s
  | .debugResume => Sys2Proof.Machine.execDebugResume s
  | .sinc3Output j bits => Sys2Proof.Machine.execSinc3Output j bits s
  | .sdFlt j => Sys2Proof.Machine.execSdFlt j s
  | .localSample n ia ib vb ns => Sys2Proof.Machine.execLocalSample n ia ib vb ns s
  | .encEdge k a b => Sys2Proof.Machine.execEncEdge k a b s
  | .ssiFrameEnd k data err low => Sys2Proof.Machine.execSsiFrameEnd k data err low s
  | .encFltClear w k => Sys2Proof.Machine.execEncFltClear w k s
  | .stillWaterStart n => Sys2Proof.Machine.execStillWaterStart n s
  | .toApply w k => Sys2Proof.Machine.execToApply w k s
  | .toEdge k => Sys2Proof.Machine.execToEdge k s
  | .stepPulse k => Sys2Proof.Machine.execStepPulse k s
  | .linkStart p => Sys2Proof.Machine.execLinkStart p s
  | .linkSync p => Sys2Proof.Machine.execLinkSync p s
  | .linkSyncTimeout p => Sys2Proof.Machine.execLinkSyncTimeout p s
  | .linkFrameTx p => Sys2Proof.Machine.execLinkFrameTx p s
  | .linkRx p maxver flg etype serial portid => Sys2Proof.Machine.execLinkRx p maxver flg etype serial portid s
  | .linkAdvTimeout p => Sys2Proof.Machine.execLinkAdvTimeout p s
  | .linkRateSwitch p => Sys2Proof.Machine.execLinkRateSwitch p s
  | .linkFallback p => Sys2Proof.Machine.execLinkFallback p s
  | .linkLost p => Sys2Proof.Machine.execLinkLost p s
  | .retry w p => Sys2Proof.Machine.execRetry w p s
  | .mirRetry => Sys2Proof.Machine.execMirRetry s
  | .frameRxInvalid p f => Sys2Proof.Machine.execFrameRxInvalid p f s
  | .refRx r => Sys2Proof.Machine.execRefRx r s
  | .feedbackRx r => Sys2Proof.Machine.execFeedbackRx r s
  | .trainRx r => Sys2Proof.Machine.execTrainRx r s
  | .directRx r => Sys2Proof.Machine.execDirectRx r s
  | .svcRx r => Sys2Proof.Machine.execSvcRx r s
  | .enumRx r => Sys2Proof.Machine.execEnumRx r s
  | .delayRx p op seq t1 t2 t3 at' answer => Sys2Proof.Machine.execDelayRx p op seq t1 t2 t3 at' answer s
  | .delayRequest p at' => Sys2Proof.Machine.execDelayRequest p at' s
  | .delayTimeout p => Sys2Proof.Machine.execDelayTimeout p s
  | .feedbackWindowEnd g k => Sys2Proof.Machine.execFeedbackWindowEnd g k s
  | .fbmiss n => Sys2Proof.Machine.execFbmiss n s
  | .refTx g dep => Sys2Proof.Machine.execRefTx g dep s
  | .trainTx g k => Sys2Proof.Machine.execTrainTx g k s
  | .directTx n at' => Sys2Proof.Machine.execDirectTx n at' s
  | .arbWindow g k => Sys2Proof.Machine.execArbWindow g k s
  | .pollTimeout g at' => Sys2Proof.Machine.execPollTimeout g at' s
  | .segmentStart w g => Sys2Proof.Machine.execSegmentStart w g s
  | .linksTimeout g => Sys2Proof.Machine.execLinksTimeout g s
  | .delayStateEnd g => Sys2Proof.Machine.execDelayStateEnd g s
  | .listenEnd => Sys2Proof.Machine.execListenEnd s
  | .discoverRound g => Sys2Proof.Machine.execDiscoverRound g s
  | .syncEnd g => Sys2Proof.Machine.execSyncEnd g s
  | .syncNodeTimeout n => Sys2Proof.Machine.execSyncNodeTimeout n s
  | .nodeLost n => Sys2Proof.Machine.execNodeLost n s
  | .rediscover => Sys2Proof.Machine.execRediscover s
  | .redisc w => Sys2Proof.Machine.execRedisc w s
  | .nodeAdopted n => Sys2Proof.Machine.execNodeAdopted n s
  | .switch w => Sys2Proof.Machine.execSwitch w s
  | .schedSwitchApply => Sys2Proof.Machine.execSchedSwitchApply s
  | .timeWrap => Sys2Proof.Machine.execTimeWrap s
  | .eraUpdate => Sys2Proof.Machine.execEraUpdate s
  | .refWindowMiss => Sys2Proof.Machine.execRefWindowMiss s
  | .refBackupStart => Sys2Proof.Machine.execRefBackupStart s
  | .ptpMessageRx domain m at' => Sys2Proof.Machine.execPtpMessageRx domain m at' s
  | .ptpSyncTx at' => Sys2Proof.Machine.execPtpSyncTx at' s
  | .leadToggle => Sys2Proof.Machine.execLeadToggle s
  | .leadStop noTick => Sys2Proof.Machine.execLeadStop noTick s
  | .leadInEdge => Sys2Proof.Machine.execLeadInEdge s
  | .partnerQuiet mir => Sys2Proof.Machine.execPartnerQuiet mir s
  | .leadWaitEnd => Sys2Proof.Machine.execLeadWaitEnd s
  | .takeover => Sys2Proof.Machine.execTakeover s
  | .mirrorTransfer => Sys2Proof.Machine.execMirrorTransfer s
  | .mirrorKeepTx => Sys2Proof.Machine.execMirrorKeepTx s
  | .mirrorAckTx => Sys2Proof.Machine.execMirrorAckTx s
  | .mirrorDigestRx h es => Sys2Proof.Machine.execMirrorDigestRx h es s
  | .mirrorTileRx h ax reason scyc tile gen => Sys2Proof.Machine.execMirrorTileRx h ax reason scyc tile gen s
  | .mirrorRecordRx h r => Sys2Proof.Machine.execMirrorRecordRx h r s
  | .mirrorCommitRx h nfr crcOk level lkey ang => Sys2Proof.Machine.execMirrorCommitRx h nfr crcOk level lkey ang s
  | .mirrorKeepRx h => Sys2Proof.Machine.execMirrorKeepRx h s
  | .mirrorAckRx h pstate rseq lkey level reqs => Sys2Proof.Machine.execMirrorAckRx h pstate rseq lkey level reqs s
  | .recordApply => Sys2Proof.Machine.execRecordApply s
  | .compareTimeout n => Sys2Proof.Machine.execCompareTimeout n s
  | .mirrorLinkDown => Sys2Proof.Machine.execMirrorLinkDown s
  | .switchover w => Sys2Proof.Machine.execSwitchover w s
  | .switchoverRelease => Sys2Proof.Machine.execSwitchoverRelease s
  | .resync w => Sys2Proof.Machine.execResync w s
  | .clrFault w => Sys2Proof.Machine.execClrFault w s
  | .resyncComplete => Sys2Proof.Machine.execResyncComplete s
  | .provingComplete => Sys2Proof.Machine.execProvingComplete s
  | .safetyInputEdge k lineB level dur => Sys2Proof.Machine.execSafetyInputEdge k lineB level dur s
  | .discTimeout chB k => Sys2Proof.Machine.execDiscTimeout chB k s
  | .ackPulse n ms => Sys2Proof.Machine.execAckPulse n ms s
  | .ackStuck n => Sys2Proof.Machine.execAckStuck n s
  | .ackWithdraw chB z => Sys2Proof.Machine.execAckWithdraw chB z s
  | .edmChange z level => Sys2Proof.Machine.execEdmChange z level s
  | .edmTimeout chB z => Sys2Proof.Machine.execEdmTimeout chB z s
  | .crossFrameTx chB => Sys2Proof.Machine.execCrossFrameTx chB s
  | .crossFrameRx toB crcOk => Sys2Proof.Machine.execCrossFrameRx toB crcOk s
  | .crossLinkLost chB => Sys2Proof.Machine.execCrossLinkLost chB s
  | .xcomp z => Sys2Proof.Machine.execXcomp z s
  | .darkPulseStart chB z => Sys2Proof.Machine.execDarkPulseStart chB z s
  | .darkPulseEnd chB z => Sys2Proof.Machine.execDarkPulseEnd chB z s
  | .darkPulseReadback chB z after level => Sys2Proof.Machine.execDarkPulseReadback chB z after level s
  | .outtestTimeout chB z => Sys2Proof.Machine.execOuttestTimeout chB z s
  | .standstill z => Sys2Proof.Machine.execStandstill z s
  | .ss1Timeout chB z => Sys2Proof.Machine.execSs1Timeout chB z s
  | .zoneFaultCleared z => Sys2Proof.Machine.execZoneFaultCleared z s
  | .deviceFault chB code => Sys2Proof.Machine.execDeviceFault chB code s
  | .safeCommit w => Sys2Proof.Machine.execSafeCommit w s
  | .safeConfirm w => Sys2Proof.Machine.execSafeConfirm w s
  | .safeDiscard w => Sys2Proof.Machine.execSafeDiscard w s
  | .safeClose w => Sys2Proof.Machine.execSafeClose w s
  | .safetyWriteDone ok => Sys2Proof.Machine.execSafetyWriteDone ok s
  | .sessionTimeout => Sys2Proof.Machine.execSessionTimeout s
  | .lockoutEnd => Sys2Proof.Machine.execLockoutEnd s
  | .por rank test => Sys2Proof.Machine.execPor rank test s
  | .vcoreFault rank test => Sys2Proof.Machine.execVcoreFault rank test s
  | .rstN ns => Sys2Proof.Machine.execRstN ns s
  | .startUp prog bad torn => Sys2Proof.Machine.execStartUp prog bad torn s
  | .nodeWaitExpiry => Sys2Proof.Machine.execNodeWaitExpiry s
  | .bootTimeout => Sys2Proof.Machine.execBootTimeout s
  | .bootRetry w => Sys2Proof.Machine.execBootRetry w s
  | .save w => Sys2Proof.Machine.execSave w s
  | .abort w => Sys2Proof.Machine.execAbort w s
  | .erase w => Sys2Proof.Machine.execErase w s
  | .imgJobDone nvmOk img => Sys2Proof.Machine.execImgJobDone nvmOk img s
  | .tornSlotErase => Sys2Proof.Machine.execTornSlotErase s
  | .logPersist => Sys2Proof.Machine.execLogPersist s
  | .load w bank sec => Sys2Proof.Machine.execLoad w bank sec s
  | .clear w bank => Sys2Proof.Machine.execClear w bank s
  | .recipeLoadDone => Sys2Proof.Machine.execRecipeLoadDone s
  | .thermalShutdown => Sys2Proof.Machine.execThermalShutdown s
  | .thermalRecover rank test => Sys2Proof.Machine.execThermalRecover rank test s
  | .spiStatus => Sys2Proof.Machine.execSpiStatus s
  | .spiPut cmd bytes => Sys2Proof.Machine.execSpiPut cmd bytes s
  | .spiGet n => Sys2Proof.Machine.execSpiGet n s
  | .spiReset b0 b1 b2 => Sys2Proof.Machine.execSpiReset b0 b1 b2 s
  | .hrstN ns => Sys2Proof.Machine.execHrstN ns s
  | .portResetFrame pay => Sys2Proof.Machine.execPortResetFrame pay s
  | .hello h vmin vmax => Sys2Proof.Machine.execHello h vmin vmax s
  | .hspOpen h role pw => Sys2Proof.Machine.execHspOpen h role pw s
  | .close h => Sys2Proof.Machine.execClose h s
  | .read h a count => Sys2Proof.Machine.execRead h a count s
  | .write h a count ws => Sys2Proof.Machine.execWrite h a count ws s
  | .logRead h from' n => Sys2Proof.Machine.execLogRead h from' n s
  | .imgBegin h len => Sys2Proof.Machine.execImgBegin h len s
  | .imgData h ofs data => Sys2Proof.Machine.execImgData h ofs data s
  | .imgEnd h => Sys2Proof.Machine.execImgEnd h s
  | .imgDataTimeout => Sys2Proof.Machine.execImgDataTimeout s
  | .subscribe h qmask diag => Sys2Proof.Machine.execSubscribe h qmask diag s
  | .arpRequest mac spa tpa => Sys2Proof.Machine.execArpRequest mac spa tpa s
  | .icmpEcho e => Sys2Proof.Machine.execIcmpEcho e s
  | .blkLockWrite w v => Sys2Proof.Machine.execBlkLockWrite w v s
  | .faultInject w v => Sys2Proof.Machine.execFaultInject w v s
  | .jtagUnlock => Sys2Proof.Machine.execJtagUnlock s
  | .ftmWaitTimeout => Sys2Proof.Machine.execFtmWaitTimeout s
  | .ackRisingEdge n => Sys2Proof.Machine.execAckRisingEdge n s
  | .readbackLowWhileOn chB z => Sys2Proof.Machine.execReadbackLowWhileOn chB z s
  | .sdFltEnd j => Sys2Proof.Machine.execSdFltEnd j s
  | .rgmiiInBandStatus up speed full => Sys2Proof.Machine.execRgmiiInBandStatus up speed full s
  | .ptpDelayRequest at' => Sys2Proof.Machine.execPtpDelayRequest at' s

end Sys2Proof.Machine
end

