-- ==== Sys2Proof/WellFormed.lean ====
section
/-! DEFINITION. The commands whose operands lie in the ranges the spec gives them. Operands whose type is their range need no check. -/

namespace Sys2Proof

/-- A word address of the register map (R484, Table 14.1). -/
def wordOk (a : Word) : Bool := a.toNat % 4 == 0 && decide (a.toNat < 0x2000000)

/-- A time in ns from the start of a basic cycle: the longest is 250 µs (Table 0.3). -/
def nsOk (ns : Nat) : Bool := decide (ns < 250000)

/-- The same in 2^-8 ns; what starts late in a cycle may end in the next. -/
def atOk (t : Nat) : Bool := decide (t < 2 * 250000 * 256)

/-- An edge lies between the two samples around it (R158, R237). -/
def withinSpan (dt span : Nat) : Bool := decide (0 < span) && decide (dt ≤ span)

/-- A ΣΔ window of 3 × OSR - 2 bits for one of the ratios of Table 7.13 (R270). -/
def bitsOk (l : List Bool) : Bool := [46, 94, 190, 382, 766].contains l.length

/-- A received frame: LEN has 11 bits, and the frame ends after it begins (Table 8.5). -/
def rxOk (r : Rx) : Bool := decide (r.pay.length ≤ 2047) && decide (r.first < r.last) && atOk r.last

/-- The operands of a command lie in their ranges. -/
def Instr.wf (i : Instr) : Bool :=
  match i with
  | .registerWrite _ a _ => wordOk a
  | .readClear _ a => wordOk a
  | .latchedRead _ a => wordOk a
  | .stagedWrite _ a _ => wordOk a
  | .dataLinkKeepAlive _ _ => true
  | .dataLinkTransfer _ _ => true
  | .dataLinkLostS => true
  | .dataLinkLostC => true
  | .stewardWatchdog _ => true
  | .regionCtrlWrite _ _ _ => true
  | .clockSwitch _ => true
  | .reservationApply _ _ => true
  | .thermalMeasure _ _ _ _ => true
  | .quarWindowEnd => true
  | .quarantine _ _ => true
  | .migrateContext => true
  | .reload _ _ => true
  | .reloadTestDone _ _ => true
  | .schedulerTick => true
  | .sourceDistrusted _ => true
  | .netSourceLost _ => true
  | .angleHold => true
  | .resume _ => true
  | .retrust _ _ => true
  | .autoRetrust _ => true
  | .sourceRestart => true
  | .dlInsert _ _ => true
  | .dlCancel _ _ => true
  | .dlOpDone _ ns => nsOk ns
  | .bpStall _ => true
  | .overrun _ => true
  | .dispatch _ ns => nsOk ns
  | .laneYield _ ns => nsOk ns
  | .statsPublish => true
  | .lawTaskComplete _ ns => nsOk ns
  | .satur _ => true
  | .holdTimeout _ => true
  | .lawTileRebuild _ => true
  | .modeWrite _ _ _ => true
  | .snap _ _ => true
  | .snapCopy => true
  | .sr _ _ => true
  | .rst _ _ => true
  | .fclr _ _ => true
  | .springRampHandover _ => true
  | .lawTubCommit _ _ _ => true
  | .lawTileInstall => true
  | .setpointCompute => true
  | .moveInsertAbs _ _ => true
  | .moveInsertRel _ _ => true
  | .flush _ _ => true
  | .stop _ _ _ => true
  | .qstop _ _ => true
  | .gear _ _ => true
  | .cam _ _ _ => true
  | .home _ _ => true
  | .setpos _ _ => true
  | .shclr _ _ => true
  | .limitChange _ => true
  | .gearRatioWrite _ _ _ => true
  | .virtualLimitWrite _ _ _ => true
  | .switchEdgeRaw _ => true
  | .switchDebounced _ _ _ dt span => withinSpan dt span
  | .indexPulse _ => true
  | .camTileVerify _ t => decide (t.toNat < 1536)
  | .camTileRebuild t => decide (t.toNat < 1536)
  | .shiftRequest _ _ _ => true
  | .coRequest _ _ _ => true
  | .coCancel _ _ => true
  | .coStaged _ => true
  | .nop _ => true
  | .ldi _ _ _ => true
  | .ldih _ _ _ => true
  | .mov _ _ _ => true
  | .ld _ _ _ _ _ => true
  | .st _ _ _ _ _ => true
  | .mts _ _ _ => true
  | .mfs _ _ _ => true
  | .add _ _ _ _ => true
  | .sub _ _ _ _ => true
  | .addi _ _ _ _ => true
  | .land _ _ _ _ => true
  | .lor _ _ _ _ => true
  | .lxor _ _ _ _ => true
  | .andi _ _ _ _ => true
  | .ori _ _ _ _ => true
  | .xori _ _ _ _ => true
  | .shl _ _ _ _ => true
  | .shr _ _ _ _ => true
  | .sra _ _ _ _ => true
  | .cmp _ _ _ => true
  | .neg _ _ _ => true
  | .abs _ _ _ => true
  | .lnot _ _ _ => true
  | .min _ _ _ _ => true
  | .max _ _ _ _ => true
  | .nrm _ _ => true
  | .qstep _ _ _ => true
  | .mac _ _ _ _ _ _ _ => true
  | .msu _ _ _ _ _ _ _ => true
  | .mpy _ _ _ _ _ _ _ => true
  | .fetch _ _ => true
  | .acs _ _ _ _ _ _ _ _ _ _ _ => true
  | .clra _ => true
  | .adda _ _ => true
  | .suba _ _ => true
  | .nega _ => true
  | .absa _ => true
  | .shla _ _ => true
  | .shra _ _ => true
  | .mvaH _ _ => true
  | .mvaT _ _ => true
  | .mvaL _ _ => true
  | .br _ _ _ => true
  | .call _ _ _ => true
  | .ret _ _ => true
  | .rpt _ _ => true
  | .loop _ _ _ => true
  | .portIn _ _ _ => true
  | .portOut _ _ _ => true
  | .postEntry _ _ => true
  | .postShift _ => true
  | .postRelease _ => true
  | .laneEnd _ => true
  | .lagoonRequest _ _ _ => true
  | .lagoonApply _ => true
  | .rearm _ _ _ => true
  | .holdoffMaxApply _ => true
  | .laneCapture _ _ dt span => withinSpan dt span
  | .bridgeReload _ => true
  | .bridgeEdge c _ => decide (c.toNat < 24)
  | .deadTimeEnd c => decide (c.toNat < 24)
  | .syncPoint _ _ => true
  | .commit _ _ => true
  | .shadowWriteLand => true
  | .edgeProgrammeLand _ => true
  | .debugHalt => true
  | .debugResume => true
  | .sinc3Output _ bits => bitsOk bits
  | .sdFlt _ => true
  | .localSample _ ia ib vb ns => bitsOk ia && bitsOk ib && (vb.isEmpty || bitsOk vb) && nsOk ns
  | .encEdge _ _ _ => true
  | .ssiFrameEnd _ _ _ _ => true
  | .encFltClear _ _ => true
  | .stillWaterStart _ => true
  | .toApply _ _ => true
  | .toEdge _ => true
  | .stepPulse _ => true
  | .linkStart _ => true
  | .linkSync _ => true
  | .linkSyncTimeout _ => true
  | .linkFrameTx _ => true
  | .linkRx _ _ _ _ _ _ => true
  | .linkAdvTimeout _ => true
  | .linkRateSwitch _ => true
  | .linkFallback _ => true
  | .linkLost _ => true
  | .retry _ _ => true
  | .mirRetry => true
  | .frameRxInvalid _ _ => true
  | .refRx r => rxOk r
  | .feedbackRx r => rxOk r
  | .trainRx r => rxOk r
  | .directRx r => rxOk r
  | .svcRx r => rxOk r
  | .enumRx r => rxOk r
  | .delayRx _ _ _ _ _ _ at' answer => atOk at' && atOk answer
  | .delayRequest _ at' => atOk at'
  | .delayTimeout _ => true
  | .feedbackWindowEnd _ _ => true
  | .fbmiss _ => true
  | .refTx _ _ => true
  | .trainTx _ _ => true
  | .directTx _ at' => atOk at'
  | .arbWindow _ _ => true
  | .pollTimeout _ at' => atOk at'
  | .segmentStart _ _ => true
  | .linksTimeout _ => true
  | .delayStateEnd _ => true
  | .listenEnd => true
  | .discoverRound _ => true
  | .syncEnd _ => true
  | .syncNodeTimeout _ => true
  | .nodeLost _ => true
  | .rediscover => true
  | .redisc _ => true
  | .nodeAdopted _ => true
  | .switch _ => true
  | .schedSwitchApply => true
  | .timeWrap => true
  | .eraUpdate => true
  | .refWindowMiss => true
  | .refBackupStart => true
  | .ptpMessageRx _ _ at' => atOk at'
  | .ptpSyncTx at' => atOk at'
  | .leadToggle => true
  | .leadStop _ => true
  | .leadInEdge => true
  | .partnerQuiet _ => true
  | .leadWaitEnd => true
  | .takeover => true
  | .mirrorTransfer => true
  | .mirrorKeepTx => true
  | .mirrorAckTx => true
  | .mirrorDigestRx _ _ => true
  | .mirrorTileRx _ _ _ _ tile _ => decide (tile.length = 64)
  | .mirrorRecordRx _ _ => true
  | .mirrorCommitRx _ _ _ _ _ _ => true
  | .mirrorKeepRx _ => true
  | .mirrorAckRx _ _ _ _ _ _ => true
  | .recordApply => true
  | .compareTimeout _ => true
  | .mirrorLinkDown => true
  | .switchover _ => true
  | .switchoverRelease => true
  | .resync _ => true
  | .clrFault _ => true
  | .resyncComplete => true
  | .provingComplete => true
  | .safetyInputEdge _ _ _ _ => true
  | .discTimeout _ _ => true
  | .ackPulse _ _ => true
  | .ackStuck _ => true
  | .ackWithdraw _ _ => true
  | .edmChange _ _ => true
  | .edmTimeout _ _ => true
  | .crossFrameTx _ => true
  | .crossFrameRx _ _ => true
  | .crossLinkLost _ => true
  | .xcomp _ => true
  | .darkPulseStart _ _ => true
  | .darkPulseEnd _ _ => true
  | .darkPulseReadback _ _ _ _ => true
  | .outtestTimeout _ _ => true
  | .standstill _ => true
  | .ss1Timeout _ _ => true
  | .zoneFaultCleared _ => true
  | .deviceFault _ _ => true
  | .safeCommit _ => true
  | .safeConfirm _ => true
  | .safeDiscard _ => true
  | .safeClose _ => true
  | .safetyWriteDone _ => true
  | .sessionTimeout => true
  | .lockoutEnd => true
  | .por _ _ => true
  | .vcoreFault _ _ => true
  | .rstN _ => true
  | .startUp _ _ _ => true
  | .nodeWaitExpiry => true
  | .bootTimeout => true
  | .bootRetry _ => true
  | .save _ => true
  | .abort _ => true
  | .erase _ => true
  | .imgJobDone _ _ => true
  | .tornSlotErase => true
  | .logPersist => true
  | .load _ _ _ => true
  | .clear _ _ => true
  | .recipeLoadDone => true
  | .thermalShutdown => true
  | .thermalRecover _ _ => true
  | .spiStatus => true
  | .spiPut _ bytes => decide (bytes.length ≤ 1472)
  | .spiGet n => decide (n ≤ 1472)
  | .spiReset _ _ _ => true
  | .hrstN _ => true
  | .portResetFrame _ => true
  | .hello _ _ _ => true
  | .hspOpen _ _ pw => decide (pw.length ≤ 255)
  | .close _ => true
  | .read _ _ _ => true
  | .write _ _ count ws => decide (ws.length = count.toNat)
  | .logRead _ _ _ => true
  | .imgBegin _ _ => true
  | .imgData _ _ data => decide (data.length ≤ 1024)
  | .imgEnd _ => true
  | .imgDataTimeout => true
  | .subscribe _ _ _ => true
  | .arpRequest _ _ _ => true
  | .icmpEcho e => decide (e.data.length ≤ 1472)
  | .blkLockWrite _ _ => true
  | .faultInject _ _ => true
  | .jtagUnlock => true
  | .ftmWaitTimeout => true
  | .ackRisingEdge _ => true
  | .readbackLowWhileOn _ _ => true
  | .sdFltEnd _ => true
  | .rgmiiInBandStatus _ _ _ => true
  | .ptpDelayRequest at' => atOk at'

end Sys2Proof
end

