-- ==== Sys2Proof/Safety.lean ====
section
/-! DEFINITION. What the claims rest on: the canonical form of the register table, the commands a state may hold, and what a safe state of the outputs is. -/

namespace Sys2Proof
open Machine

/-- The register table is in canonical form: addresses strictly rising, no entry equal to its reset value. -/
def regsCanonical (s : State) : Prop := Tbl.wf regReset s.regs

/-- Every waiting command is well formed. -/
def queueOk (s : State) : Prop := ∀ c ∈ s.pending, c.wf = true

/-- The pins of a bridge channel: never both switches on, and a turn-on that waits for the dead time finds the other switch off (R253). -/
def chanSafe (x : Chan) : Prop :=
  (x.pinH && x.pinL) = false ∧ (x.dead = some true → x.pinL = false) ∧ (x.dead = some false → x.pinH = false)

/-- No bridge channel drives both its switches, now or at the end of a dead time. -/
def pinsSafe (s : State) : Prop := ∀ c, chanSafe (s.chan c)

/-! ### Frames -/

/-- The parts of the state beside the register words and the queue, one for each field: the hidden state of the core (core…), the angle unit (ang…), the scheduler (sch…), the law engine (law…), the generators (mot…), the lanes, the edge blocks (edge…), the network (net…), the time unit (time…), the head pair (pair…), the safety block (safe…), start-up and image (boot…), the host block (host…), and the model's counter of free values. -/
inductive Part where
  | coreSinceS | coreSinceC | coreRepeats | coreLostS | coreLostC | coreBoost | coreCtx | coreFb | coreRegion | coreMeasured
  | angKey | angSpeed | angVm | angSrc | angDiffer | angRun | angEver | angResume
  | schStarted | schDl | schIns | schPlaced | schHeld | schReady | schUnit | schOvr | schOvrHere | schDlStat | schRlStat | schWaitStat | schSampled | schPublished
  | lawAx | lawStore | lawTub | lawSnap
  | motGen | motComputed | motCo | motWin
  | lane
  | edgeChan | edgeWait | edgeFly | edgeFrozen | edgeOut | edgeEnc | edgeStill
  | netLink | netSeg | netNode | netAx | netNodes | netRanks | netUsed | netGen | netNext | netArmed
  | timeNs | timeStart | timeGrid | timeInc | timeInteg | timeNear | timeFar | timeMissed | timePtp
  | pairReq | pairOut | pairEdge | pairWait | pairHeard | pairPstrap | pairPstate | pairPlevel | pairShadow | pairExpect | pairDivWin | pairCmp | pairDiv | pairWant | pairAsked | pairRot | pairChangedC | pairCopy | pairGot | pairRseq | pairRecs | pairHeld | pairRx | pairAng | pairLoad | pairSince | pairBegan | pairSwo | pairSent
  | safeZone | safeShown | safeSentA | safeSentB | safeRxA | safeRxB | safeDevA | safeDevB | safeStaged | safeSess | safeConfirm | safeFails | safeLockEnd | safeSec | safeLog
  | bootFlash | bootImg | bootModes | bootAutoWait | bootBank | bootLoad | bootTravel | bootLanes | bootRecorded | bootTest | bootFtmWait | bootHeld | bootEnded
  | hostPort | hostSessions | hostLastSess | hostLatch | hostStaged | hostInsReg | hostLog | hostNvm | hostMerge | hostSeq | hostSub | hostLost | hostFi | hostImg | hostSpiOut | hostEthTx | hostRgmii | hostAcc
  | free
  deriving DecidableEq, Repr

/-- A part is the same in two states. -/
def samePart (s t : State) : Part → Prop
  | .coreSinceS => t.core.sinceS = s.core.sinceS
  | .coreSinceC => t.core.sinceC = s.core.sinceC
  | .coreRepeats => t.core.repeats = s.core.repeats
  | .coreLostS => t.core.lostS = s.core.lostS
  | .coreLostC => t.core.lostC = s.core.lostC
  | .coreBoost => t.core.boost = s.core.boost
  | .coreCtx => t.core.ctx = s.core.ctx
  | .coreFb => t.core.fb = s.core.fb
  | .coreRegion => t.core.region = s.core.region
  | .coreMeasured => t.core.measured = s.core.measured
  | .angKey => t.ang.key = s.ang.key
  | .angSpeed => t.ang.speed = s.ang.speed
  | .angVm => t.ang.vm = s.ang.vm
  | .angSrc => t.ang.src = s.ang.src
  | .angDiffer => t.ang.differ = s.ang.differ
  | .angRun => t.ang.run = s.ang.run
  | .angEver => t.ang.ever = s.ang.ever
  | .angResume => t.ang.resume = s.ang.resume
  | .schStarted => t.sch.started = s.sch.started
  | .schDl => t.sch.dl = s.sch.dl
  | .schIns => t.sch.ins = s.sch.ins
  | .schPlaced => t.sch.placed = s.sch.placed
  | .schHeld => t.sch.held = s.sch.held
  | .schReady => t.sch.ready = s.sch.ready
  | .schUnit => t.sch.unit = s.sch.unit
  | .schOvr => t.sch.ovr = s.sch.ovr
  | .schOvrHere => t.sch.ovrHere = s.sch.ovrHere
  | .schDlStat => t.sch.dlStat = s.sch.dlStat
  | .schRlStat => t.sch.rlStat = s.sch.rlStat
  | .schWaitStat => t.sch.waitStat = s.sch.waitStat
  | .schSampled => t.sch.sampled = s.sch.sampled
  | .schPublished => t.sch.published = s.sch.published
  | .lawAx => t.law.ax = s.law.ax
  | .lawStore => t.law.store = s.law.store
  | .lawTub => t.law.tub = s.law.tub
  | .lawSnap => t.law.snap = s.law.snap
  | .motGen => t.mot.gen = s.mot.gen
  | .motComputed => t.mot.computed = s.mot.computed
  | .motCo => t.mot.co = s.mot.co
  | .motWin => t.mot.win = s.mot.win
  | .lane => t.lane = s.lane
  | .edgeChan => t.edge.chan = s.edge.chan
  | .edgeWait => t.edge.wait = s.edge.wait
  | .edgeFly => t.edge.fly = s.edge.fly
  | .edgeFrozen => t.edge.frozen = s.edge.frozen
  | .edgeOut => t.edge.out = s.edge.out
  | .edgeEnc => t.edge.enc = s.edge.enc
  | .edgeStill => t.edge.still = s.edge.still
  | .netLink => t.net.link = s.net.link
  | .netSeg => t.net.seg = s.net.seg
  | .netNode => t.net.node = s.net.node
  | .netAx => t.net.ax = s.net.ax
  | .netNodes => t.net.nodes = s.net.nodes
  | .netRanks => t.net.ranks = s.net.ranks
  | .netUsed => t.net.used = s.net.used
  | .netGen => t.net.gen = s.net.gen
  | .netNext => t.net.next = s.net.next
  | .netArmed => t.net.armed = s.net.armed
  | .timeNs => t.time.ns = s.time.ns
  | .timeStart => t.time.start = s.time.start
  | .timeGrid => t.time.grid = s.time.grid
  | .timeInc => t.time.inc = s.time.inc
  | .timeInteg => t.time.integ = s.time.integ
  | .timeNear => t.time.near = s.time.near
  | .timeFar => t.time.far = s.time.far
  | .timeMissed => t.time.missed = s.time.missed
  | .timePtp => t.time.ptp = s.time.ptp
  | .pairReq => t.pair.req = s.pair.req
  | .pairOut => t.pair.out = s.pair.out
  | .pairEdge => t.pair.edge = s.pair.edge
  | .pairWait => t.pair.wait = s.pair.wait
  | .pairHeard => t.pair.heard = s.pair.heard
  | .pairPstrap => t.pair.pstrap = s.pair.pstrap
  | .pairPstate => t.pair.pstate = s.pair.pstate
  | .pairPlevel => t.pair.plevel = s.pair.plevel
  | .pairShadow => t.pair.shadow = s.pair.shadow
  | .pairExpect => t.pair.expect = s.pair.expect
  | .pairDivWin => t.pair.divWin = s.pair.divWin
  | .pairCmp => t.pair.cmp = s.pair.cmp
  | .pairDiv => t.pair.div = s.pair.div
  | .pairWant => t.pair.want = s.pair.want
  | .pairAsked => t.pair.asked = s.pair.asked
  | .pairRot => t.pair.rot = s.pair.rot
  | .pairChangedC => t.pair.changedC = s.pair.changedC
  | .pairCopy => t.pair.copy = s.pair.copy
  | .pairGot => t.pair.got = s.pair.got
  | .pairRseq => t.pair.rseq = s.pair.rseq
  | .pairRecs => t.pair.recs = s.pair.recs
  | .pairHeld => t.pair.held = s.pair.held
  | .pairRx => t.pair.rx = s.pair.rx
  | .pairAng => t.pair.ang = s.pair.ang
  | .pairLoad => t.pair.load = s.pair.load
  | .pairSince => t.pair.since = s.pair.since
  | .pairBegan => t.pair.began = s.pair.began
  | .pairSwo => t.pair.swo = s.pair.swo
  | .pairSent => t.pair.sent = s.pair.sent
  | .safeZone => t.safe.zone = s.safe.zone
  | .safeShown => t.safe.shown = s.safe.shown
  | .safeSentA => t.safe.sentA = s.safe.sentA
  | .safeSentB => t.safe.sentB = s.safe.sentB
  | .safeRxA => t.safe.rxA = s.safe.rxA
  | .safeRxB => t.safe.rxB = s.safe.rxB
  | .safeDevA => t.safe.devA = s.safe.devA
  | .safeDevB => t.safe.devB = s.safe.devB
  | .safeStaged => t.safe.staged = s.safe.staged
  | .safeSess => t.safe.sess = s.safe.sess
  | .safeConfirm => t.safe.confirm = s.safe.confirm
  | .safeFails => t.safe.fails = s.safe.fails
  | .safeLockEnd => t.safe.lockEnd = s.safe.lockEnd
  | .safeSec => t.safe.sec = s.safe.sec
  | .safeLog => t.safe.log = s.safe.log
  | .bootFlash => t.boot.flash = s.boot.flash
  | .bootImg => t.boot.img = s.boot.img
  | .bootModes => t.boot.modes = s.boot.modes
  | .bootAutoWait => t.boot.autoWait = s.boot.autoWait
  | .bootBank => t.boot.bank = s.boot.bank
  | .bootLoad => t.boot.load = s.boot.load
  | .bootTravel => t.boot.travel = s.boot.travel
  | .bootLanes => t.boot.lanes = s.boot.lanes
  | .bootRecorded => t.boot.recorded = s.boot.recorded
  | .bootTest => t.boot.test = s.boot.test
  | .bootFtmWait => t.boot.ftmWait = s.boot.ftmWait
  | .bootHeld => t.boot.held = s.boot.held
  | .bootEnded => t.boot.ended = s.boot.ended
  | .hostPort => t.host.port = s.host.port
  | .hostSessions => t.host.sessions = s.host.sessions
  | .hostLastSess => t.host.lastSess = s.host.lastSess
  | .hostLatch => t.host.latch = s.host.latch
  | .hostStaged => t.host.staged = s.host.staged
  | .hostInsReg => t.host.insReg = s.host.insReg
  | .hostLog => t.host.log = s.host.log
  | .hostNvm => t.host.nvm = s.host.nvm
  | .hostMerge => t.host.merge = s.host.merge
  | .hostSeq => t.host.seq = s.host.seq
  | .hostSub => t.host.sub = s.host.sub
  | .hostLost => t.host.lost = s.host.lost
  | .hostFi => t.host.fi = s.host.fi
  | .hostImg => t.host.img = s.host.img
  | .hostSpiOut => t.host.spiOut = s.host.spiOut
  | .hostEthTx => t.host.ethTx = s.host.ethTx
  | .hostRgmii => t.host.rgmii = s.host.rgmii
  | .hostAcc => t.host.acc = s.host.acc
  | .free => t.freeCtr = s.freeCtr

/-- Only the listed parts may differ; the queue is the same. -/
def onlyParts (ps : List Part) (s t : State) : Prop := t.pending = s.pending ∧ ∀ p, p ∉ ps → samePart s t p

/-- The listed parts are the same; the queue is. -/
def keepsParts (ps : List Part) (s t : State) : Prop := t.pending = s.pending ∧ ∀ p ∈ ps, samePart s t p

/-- Every register word outside a set of addresses reads as before. -/
def regsOnly (P : Nat → Prop) (s t : State) : Prop := ∀ a, ¬ P a → rd t a = rd s a

/-- The registers of a block's sediment queue: its DIAG_STATUS word and the words of its eight entries (R476). -/
def sedAddr (b a : Nat) : Bool := a == R.DIAG_STATUS b || (List.range 32).any fun k => a == R.SED b (k / 4) (k % 4)

/-- The registers the change log moves (R473, R474). -/
def logAddr (a : Nat) : Bool := a == R.LOG_NVM || a == R.LOG_LOST || a == R.LOG_HEAD

/-- The registers of the sediment queues. -/
def sedAny (a : Nat) : Prop := (∃ b, a = R.DIAG_STATUS b) ∨ ∃ b i k, a = R.SED b i k

/-- What an entry in a sediment queue may change beside its registers: the event that a change of a block's line sends (R467). -/
def sedParts : List Part := [.hostPort, .hostSessions, .free]

/-- What a change-log record may change: the log, and the records of a head pair (R376, R472 to R474). -/
def logParts : List Part := [.pairRseq, .pairRecs, .hostLog, .hostMerge, .hostSeq, .hostSub, .hostLost]

/-! ### Register writes -/

/-- A sender's write is allowed, and takes effect here and now: no record of a head pair carries it (R9, R377). -/
def accepted (s : State) (w : Who) (a : Nat) (v : Word) : Prop := judge s w a v = true ∧ recorded s w a = false

end Sys2Proof
end

