-- ==== Sys2Proof/Certificates/Slice0/Obligations.lean ====
section
/-! DEFINITION. The statements for the provers. A clause that ends in `regsOnly P s t` and `onlyParts ps s t` is a frame: every register word outside P, and every part of the state outside ps, is as it was (Safety.lean). -/

open Sys2Proof Sys2Proof.Machine

/-- A step runs the command in front. For every command c and state s with c at the front of the queue, step s is exec c on s with the rest of the queue. Rests on: spec/95_what_each_step_holds.md; log entry 1. -/
def Obligations.StepRunsTheFrontCommand : Prop :=
  ∀ (c : Instr) (rest : List Instr) (s : State), s.pending = c :: rest → step s = exec c { s with pending := rest }

/-- With nothing waiting the block idles. With an empty queue step answers next with the state unchanged. This is the model's choice (log entry 1). Rests on: spec/98_reader.md; log entry 1. -/
def Obligations.EmptyQueueIdles : Prop := ∀ s : State, s.pending = [] → step s = .next s

/-- Every command completes in every state. For every command and every state exec answers a next state, and leaves the queue of waiting commands as it is: no command faults or is refused. Rests on: spec/95_what_each_step_holds.md. -/
def Obligations.EveryCommandAnswers : Prop :=
  ∀ (c : Instr) (s : State), ∃ t, exec c s = .next t ∧ t.pending = s.pending

/-- A step takes exactly the front command. Whenever step answers next, the queue is what it was without its front command. Rests on: spec/98_reader.md; log entry 1. -/
def Obligations.StepTakesOneCommand : Prop :=
  ∀ (s t : State), step s = .next t → t.pending = s.pending.tail

/-- Every step keeps the register table canonical. From every state whose register table is in canonical form (addresses strictly rising, no entry at its reset value), every step that answers next leaves it so. Rests on: spec/14_address_map.md; log entry 2. -/
def Obligations.StepKeepsRegistersCanonical : Prop :=
  ∀ (s t : State), regsCanonical s → step s = .next t → regsCanonical t

/-- No step turns both switches of a bridge channel on. From every state in which no bridge channel has BRnH and BRnL on together, and a turn-on that waits for the dead time finds the other switch off, every step that answers next leaves it so. Rests on: spec/07_edges_steps_outputs.md (R252, R253). -/
def Obligations.StepKeepsThePinsSafe : Prop :=
  ∀ (s t : State), pinsSafe s → step s = .next t → pinsSafe t

/-- The reset state meets the invariants. At reset the register table is canonical, no bridge channel drives a switch against the other, the queue is empty, and every register word reads as its reset value. The reset values that the spec does not give are the model's choice (log entry 3). Rests on: spec/14_address_map.md (R495); log entry 3. -/
def Obligations.ResetMeetsTheInvariants : Prop :=
  regsCanonical State.reset ∧ pinsSafe State.reset ∧ State.reset.pending = [] ∧ ∀ a, rd State.reset a = regReset a

/-- An ON and an OFF edge in one clock leave the output off. When an output's edges of the 4 ns clock now due hold an ON and an OFF edge, or an ON edge meets a force-off, TO_EDGE leaves the output at its inactive level. Rests on: R282. -/
def Obligations.EdgesOfOneClockLeaveTheOutputOff : Prop :=
  (∀ (k : BitVec 5) (tm : Nat) (b : Bool) (l : List (Nat × Bool)) (s : State), s.sch.placed = [] → (s.tout k.toNat).placed = (tm, b) :: l → s.edge.frozen = false →
      (∃ e ∈ (tm, b) :: l, e.1 / 4 = tm / 4 ∧ e.2 = false) → (∃ e ∈ (tm, b) :: l, e.1 / 4 = tm / 4 ∧ e.2 = true) →
    ∃ t, exec (.toEdge k) s = .next t ∧ fbit t (R.TO_STATUS k.toNat) R.TO_STATUS_LVL = false) ∧
  (∀ (k : BitVec 5) (tm : Nat) (l : List (Nat × Bool)) (s : State), s.sch.placed = [] → (s.tout k.toNat).placed = (tm, true) :: l → s.edge.frozen = false → toForced s k.toNat = true →
    ∃ t, exec (.toEdge k) s = .next t ∧ fbit t (R.TO_STATUS k.toNat) R.TO_STATUS_LVL = false)

/-- INS_CMD while DONE is 0 is ignored and recorded. While the port's previous insertion command is under way, an accepted DL_INSERT or DL_CANCEL changes neither the operation nor the port's insertion registers; the registers other than the change log's are those the entry in the scheduler's sediment queue leaves. Rests on: R81. -/
def Obligations.InsertionCommandWhileBusyIsRecorded : Prop :=
  (∀ (w : Who) (l : BitVec 2) (o : InsOp) (s : State), accepted s w R.INS_CMD (BitVec.ofNat 32 (2 ^ 30 + l.toNat)) → tget none s.sch.ins (portCode w.port) = some o →
    ∃ t, exec (.dlInsert w l) s = .next t ∧ t.sch.ins = s.sch.ins ∧ t.host.insReg = s.host.insReg ∧ ∀ a, ¬ logAddr a → rd t a = rd (sedBusy R.INS_CMD s) a) ∧
  (∀ (w : Who) (l : BitVec 2) (o : InsOp) (s : State), accepted s w R.INS_CMD (BitVec.ofNat 32 (2 ^ 31 + l.toNat)) → tget none s.sch.ins (portCode w.port) = some o →
    ∃ t, exec (.dlCancel w l) s = .next t ∧ t.sch.ins = s.sch.ins ∧ t.host.insReg = s.host.insReg ∧ ∀ a, ¬ logAddr a → rd t a = rd (sedBusy R.INS_CMD s) a)

/-- FBM_N consecutive missing samples raise FBMISS. With at least FBM_N samples of an axis missing in a row and the cause not standing, FBMISS latches cause 3 as the last fault; with fewer it does nothing. A missing sample adds one to the count, a sample that is not missing clears it. Rests on: R331. -/
def Obligations.MissingSamplesRaiseFbmiss : Prop :=
  (∀ (n : Axis) (s : State), fbmN s ≤ (s.fb n.toNat).miss → (s.axl n.toNat).causes.testBit 2 = false →
    ∃ t, exec (.fbmiss n) s = .next t ∧ (t.axl n.toNat).causes = (s.axl n.toNat).causes ||| 4 ∧ fget t (R.AX_FAULT n.toNat) R.AX_FAULT_LAST = 3) ∧
  (∀ (n : Axis) (s : State), (s.fb n.toNat).miss < fbmN s → exec (.fbmiss n) s = .next s) ∧
  (∀ (n : Nat) (s : State), ((fbMissing n s).fb n).miss = (s.fb n).miss + 1) ∧
  (∀ (n : Nat) (s : State), ((fbPresent n s).fb n).miss = 0)

/-- Trust ends and returns per source. SOURCE_DISTRUSTED, NET_SOURCE_LOST and AUTO_RETRUST set TRUST of their source as the rules say, complete in every state that meets their condition, and leave every other source's trust and everything outside their footprint as it was. Rests on: spec/02_machine_angle_scheduler.md (R53, R54, R58). -/
def Obligations.SourceTrustEventsAct : Prop :=
  (∀ (n : Slot) (s : State), trust s n.n = 1 → discCycles s ≤ (s.src n.n).susp →
    ∃ t, exec (.sourceDistrusted n) s = .next t ∧ trust t n.n = 2 ∧ (∀ k : Slot, k ≠ n → trust t k.n = trust s k.n) ∧
      regsOnly (fun a => a = R.MA_STATUS) s t ∧ onlyParts [] s t) ∧
  (∀ (n : Slot) (s : State), srcType s n.n = 2 → (s.src n.n).frame = none → fget s R.MA_CTRL R.MA_CTRL_NET_HOLD + 1 ≤ (s.src n.n).extrap →
    trust s n.n ≠ 3 →
    ∃ t, exec (.netSourceLost n) s = .next t ∧ trust t n.n = 3 ∧ fbit t R.MA_STATUS R.MA_STATUS_LOST = true ∧
      (∀ k : Slot, k ≠ n → trust t k.n = trust s k.n) ∧
      regsOnly (fun a => sedAny a ∨ a = R.MA_STATUS) s t ∧ onlyParts sedParts s t) ∧
  (∀ (n : Slot) (s : State), fbit s R.MA_CTRL R.MA_CTRL_AUTO_RETRUST = true → 2 ≤ trust s n.n → 4096 ≤ (s.src n.n).agree →
    ∃ t, exec (.autoRetrust n) s = .next t ∧ trust t n.n = 0 ∧ (t.src n.n).susp = 0 ∧ (t.src n.n).key = (s.src n.n).key ∧
      (∀ k : Slot, k ≠ n → trust t k.n = trust s k.n) ∧
      regsOnly (fun a => a = R.MA_STATUS) s t ∧ onlyParts [.angSrc] s t)

/-- The angle holds, and resumes on command. ANGLE_HOLD, RESUME, RETRUST and SOURCE_RESTART: what each changes of STATE, HOLD, RUN and the sources, with the accepted-write forms and their frames. Rests on: spec/02_machine_angle_scheduler.md (R55, R56, R58, R59); spec/04_motion_generation.md (R152). -/
def Obligations.AngleHoldAndResume : Prop :=
  (∀ s : State, holdCond s = true → fbit s R.MA_STATUS R.MA_STATUS_HOLD = false →
    ∃ t, exec .angleHold s = .next t ∧ fbit t R.MA_STATUS R.MA_STATUS_HOLD = true ∧ t.ang.speed = 0 ∧ t.ang.vm = 0 ∧ t.ang.key = s.ang.key ∧
      rd t R.VM_TARGET_LO = 0 ∧ rd t R.VM_TARGET_HI = 0 ∧
      regsOnly (fun a => sedAny a ∨ a = R.MA_STATUS ∨ a = R.VM_TARGET_LO ∨ a = R.VM_TARGET_HI) s t ∧ onlyParts ([.angSpeed, .angVm, .angResume] ++ sedParts) s t) ∧
  (∀ (w : Who) (s : State), accepted s w R.MA_CMD 8 → resumeOk s = true →
    ∃ t, exec (.resume w) s = .next t ∧ t.ang.resume = true ∧ t.host.acc = (0, 0) ∧
      regsOnly (fun a => sedAny a ∨ logAddr a ∨ a = R.MA_STATUS) s t ∧ onlyParts ([.angSrc, .angResume, .hostAcc] ++ sedParts ++ logParts) s t) ∧
  (∀ (w : Who) (m : BitVec 3) (n : Slot) (s : State), accepted s w R.MA_CMD (m.zeroExtend 32) → m.getLsbD n.n = true → 2 ≤ trust s n.n →
    n.n < fget s R.MA_CTRL R.MA_CTRL_NSRC → candAgrees s n.n = true → m.toNat = 2 ^ n.n →
    ∃ t, exec (.retrust w m) s = .next t ∧ trust t n.n = 0 ∧ (t.src n.n).susp = 0 ∧ (∀ k : Slot, k ≠ n → trust t k.n = trust s k.n) ∧
      regsOnly (fun a => sedAny a ∨ logAddr a ∨ a = R.MA_STATUS) s t ∧ onlyParts ([.angSrc, .angResume, .hostAcc] ++ sedParts ++ logParts) s t) ∧
  (∀ s : State,
    ∃ t, exec .sourceRestart s = .next t ∧ t.ang.key = s.ang.key ∧
      (∀ n ∈ slots s, (s.src n).restart = true → (t.src n).restart = false ∧ (t.src n).rem = 0) ∧
      (∀ n, (s.src n).restart = false → t.src n = s.src n) ∧
      regsOnly (fun a => sedAny a ∨ a = R.MA_STATUS) s t ∧ onlyParts ([.angVm, .angSrc] ++ sedParts) s t)

/-- Insertion commands act for their own port. An accepted DL_INSERT or DL_CANCEL of a port with none under way starts that port's operation with its copy of the insertion registers and clears DONE; one under way is kept; DL_OP_DONE ends it with DONE and the result of the insertion or cancellation in INS_RESULT of that port. No other port's operation changes. Rests on: spec/02_machine_angle_scheduler.md (R61, R66, R81); spec/14_address_map.md (R489). -/
def Obligations.DelayListPorts : Prop :=
  (∀ (w : Who) (l : BitVec 2) (s : State), accepted s w R.INS_CMD (BitVec.ofNat 32 (2 ^ 30 + l.toNat)) → tget none s.sch.ins (portCode w.port) = none →
    ∃ t, exec (.dlInsert w l) s = .next t ∧
      tget none t.sch.ins (portCode w.port) = some { ins := true, list := l.toNat, ent := insEnt s (portCode w.port) } ∧
      insReg t (portCode w.port) 4 = 0 ∧ t.host.acc = (0, 0) ∧
      (∀ q, q ≠ portCode w.port → tget none t.sch.ins q = tget none s.sch.ins q) ∧ regsOnly (fun a => sedAny a ∨ logAddr a) s t ∧ onlyParts (sedParts.append (logParts.append [.schIns, .hostInsReg, .hostAcc])) s t) ∧
  (∀ (w : Who) (l : BitVec 2) (s : State), accepted s w R.INS_CMD (BitVec.ofNat 32 (2 ^ 31 + l.toNat)) → tget none s.sch.ins (portCode w.port) = none →
    ∃ t, exec (.dlCancel w l) s = .next t ∧
      tget none t.sch.ins (portCode w.port) = some { ins := false, list := l.toNat, ent := insEnt s (portCode w.port) } ∧
      insReg t (portCode w.port) 4 = 0 ∧ t.host.acc = (0, 0) ∧
      (∀ q, q ≠ portCode w.port → tget none t.sch.ins q = tget none s.sch.ins q) ∧ regsOnly (fun a => sedAny a ∨ logAddr a) s t ∧ onlyParts (sedParts.append (logParts.append [.schIns, .hostInsReg, .hostAcc])) s t) ∧
  (∀ (w : Who) (l : BitVec 2) (o : InsOp) (s : State), accepted s w R.INS_CMD (BitVec.ofNat 32 (2 ^ 30 + l.toNat)) →
    tget none s.sch.ins (portCode w.port) = some o →
    ∃ t, exec (.dlInsert w l) s = .next t ∧ t.sch.ins = s.sch.ins ∧ t.host.insReg = s.host.insReg ∧ regsOnly (fun a => sedAny a ∨ logAddr a) s t ∧ onlyParts (sedParts.append (logParts.append [.schIns, .hostInsReg, .hostAcc])) s t) ∧
  (∀ (p : Port) (ns : Nat) (o : InsOp) (s : State), tget none s.sch.ins (portCode p) = some o →
    ∃ t, exec (.dlOpDone p ns) s = .next t ∧ tget none t.sch.ins (portCode p) = none ∧
      insReg t (portCode p) 4 = BitVec.ofNat 32 (2 ^ 31 + (if o.ins then (insertEnt o.list o.ent ns (reachAt (ns * 256) s)).1
        else (cancelEnt o.list (entTag o.ent) (reachAt (ns * 256) s)).1)) ∧
      (∀ q, q ≠ portCode p → tget none t.sch.ins q = tget none s.sch.ins q) ∧ regsOnly (fun a => blockNo a ∈ [1, 2, 4, 6, 7, 9, 11, 14]) s t ∧ onlyParts (sedParts.append [.coreFb, .coreRegion, .schDl, .schIns, .schPlaced, .schHeld, .schReady, .schUnit, .schOvr, .schOvrHere, .schDlStat, .schRlStat, .schSampled, .lawAx, .lawStore, .motGen, .motCo, .lane, .edgeOut, .netAx, .timeNs, .pairRseq, .pairRecs, .hostInsReg, .hostLog, .hostSeq, .hostSub, .hostLost, .hostFi]) s t)

/-- BP_STALL and OVERRUN are counted and latched. BP_STALL and OVERRUN complete and change the named counters, status bits and causes, and nothing outside their frame. Rests on: spec/02_machine_angle_scheduler.md (R70, R72); spec/03_law_engine.md (R124). -/
def Obligations.StallAndOverrun : Prop :=
  (∀ (i : Nat) (h : Held) (s : State), s.sch.held[i]? = some h → 64 < h.ticks →
    ∃ t, exec (.bpStall i) s = .next t ∧ fbit t R.SCH_STATUS R.SCH_STATUS_BP_STALL = true ∧
      fget t R.SCH_STATUS R.SCH_STATUS_STATS_SEQ = fget s R.SCH_STATUS R.SCH_STATUS_STATS_SEQ ∧ regsOnly (fun a => sedAny a ∨ a = R.SCH_STATUS) s t ∧ onlyParts sedParts s t) ∧
  (∀ (n : Axis) (s : State), max 1 (fget s R.SCH_CTRL R.SCH_CTRL_OVR_LIMIT) ≤ tget 0 s.sch.ovr n.toNat → (s.axl n.toNat).causes.testBit 4 = false →
    ∃ t, exec (.overrun n) s = .next t ∧ (t.axl n.toNat).causes = (s.axl n.toNat).causes ||| 16 ∧ fget t (R.AX_FAULT n.toNat) R.AX_FAULT_LAST = 5 ∧
      reactionOf s n.toNat 5 ≤ fget t (R.AX_STATUS n.toNat) R.AX_STATUS_REACT ∧ regsOnly (fun a => sedAny a ∨ (∃ i j, a = R.STATE_TILE i j) ∨ (∃ i, a = R.AX_STATUS i) ∨ (∃ i, a = R.AX_FAULT i) ∨ (∃ i, a = R.PF_STATUS i) ∨ (∃ i j, a = R.PF_POS i j) ∨ (∃ i j, a = R.PF_VEL i j) ∨ (∃ i, a = R.PF_HOME_STATUS i)) s t ∧ onlyParts (sedParts.append [.lawAx, .motGen]) s t)

/-- Tick, dispatch, task end, yield and statistics. SCHEDULER_TICK starts the scheduler and publishes the cycle; DISPATCH gives a free unit its job; LAW_TASK_COMPLETE frees the unit and marks the command ready; LANE_YIELD suspends; STATS_PUBLISH publishes the window's statistics. Rests on: spec/02_machine_angle_scheduler.md (R60, R67, R68, R74, R75). -/
def Obligations.SchedulerEventsAct : Prop :=
  (∀ s : State, s.boot.held = false →
    ∃ u t, u = tickStart s ∧ exec .schedulerTick s = .next t ∧ t = tickWork (!s.sch.started) u ∧ t.pending = s.pending ∧ u.sch.started = true ∧
      rdN u R.TICK_COUNT = (if s.sch.started then (rdN s R.TICK_COUNT + 1) % 2 ^ 32 else 0) ∧
      (s.time.grid = none → u.time.start = (if s.sch.started then s.time.start + tb s else s.time.start) % 2 ^ 64) ∧
      (∀ x, s.time.grid = some x → u.time.start = x.1 % 2 ^ 64) ∧ u.time.grid = none ∧ regsOnly (fun a => blockNo a ∈ [1, 2, 4, 6, 7, 9, 11, 14]) s u ∧ onlyParts (sedParts.append (logParts.append [.coreFb, .coreRegion, .schStarted, .schDl, .schPlaced, .schHeld, .schReady, .schUnit, .schOvr, .schOvrHere, .schDlStat, .schRlStat, .schWaitStat, .schSampled, .schPublished, .lawAx, .lawStore, .motGen, .motComputed, .motCo, .motWin, .lane, .edgeOut, .netAx, .timeNs, .timeStart, .timeGrid, .pairDivWin, .hostFi])) s u) ∧
  (∀ (u : UnitNo) (ns c : Nat) (e : REnt) (v s : State),
    v = eachN ((List.range (u.toNat % 8)).map (8 * (u.toNat / 8) + ·)) dispatchUnit (runPlaced (reachAt (ns * 256) s)) →
    shut v u.toNat = false → (v.unit u.toNat).job = none → lawCand v u.toNat = some (c, e) →
    ∃ t, exec (.dispatch u ns) s = .next t ∧ t = startLaw u.toNat c e v ∧ (∃ i, (t.unit u.toNat).job = some (.law i)) ∧ regsOnly (fun a => blockNo a ∈ [1, 2, 4, 6, 7, 8, 9, 11, 14]) s t ∧ onlyParts (sedParts.append [.coreFb, .coreRegion, .schDl, .schPlaced, .schHeld, .schReady, .schUnit, .schOvr, .schOvrHere, .schDlStat, .schRlStat, .schWaitStat, .schSampled, .lawAx, .lawStore, .motGen, .motCo, .lane, .edgeOut, .edgeStill, .netAx, .timeNs, .pairRseq, .pairRecs, .hostLog, .hostSeq, .hostSub, .hostLost, .hostFi]) s t) ∧
  (∀ (u : UnitNo) (ns c : Nat) (e : REnt) (v s : State), v = runPlaced (reachAt (ns * 256) s) → (v.unit u.toNat).yield = true →
    laneRuns v u.toNat = true → shut v u.toNat = false → lawCand v u.toNat = some (c, e) → permitted v u.toNat = true →
    ∃ t, exec (.laneYield u ns) s = .next t ∧ (∃ i, (t.unit u.toNat).job = some (.law i)) ∧ (t.lan u.toNat).susp = true ∧ regsOnly (fun a => blockNo a ∈ [1, 2, 4, 6, 7, 8, 9, 11, 14]) s t ∧ onlyParts (sedParts.append [.coreFb, .coreRegion, .schDl, .schPlaced, .schHeld, .schReady, .schUnit, .schOvr, .schOvrHere, .schDlStat, .schRlStat, .schWaitStat, .schSampled, .lawAx, .lawStore, .motGen, .motCo, .lane, .edgeOut, .edgeStill, .netAx, .timeNs, .pairRseq, .pairRecs, .hostLog, .hostSeq, .hostSub, .hostLost, .hostFi]) s t) ∧
  (∀ (u : UnitNo) (ns : Nat) (i : LawIn) (s : State), (s.unit u.toNat).job = some (.law i) →
    ∃ t, exec (.lawTaskComplete u ns) s = .next t ∧ (∀ v ∈ laneUnits s u.toNat, (t.unit v).job = none) ∧ (i.second = none → (t.axn i.axis).done = true) ∧
      regsOnly (fun a => blockNo a ∈ [1, 2, 4, 6, 7, 11, 14]) s t ∧ onlyParts (sedParts.append [.coreRegion, .schReady, .schUnit, .schDlStat, .schRlStat, .schSampled, .lawAx, .motGen, .netAx, .timeNs, .pairShadow, .pairRseq, .pairRecs, .hostLog, .hostSeq, .hostSub, .hostLost, .hostFi]) s t) ∧
  (∀ s : State, s.sch.started = true → rdN s R.TICK_COUNT % 1024 = 1023 → s.sch.published = false →
    ∃ t, exec .statsPublish s = .next t ∧ t.sch.published = true ∧ t.sch.dlStat = [] ∧ t.sch.rlStat = [] ∧ t.sch.waitStat = [] ∧
      fget t R.SCH_STATUS R.SCH_STATUS_STATS_SEQ =
        (if fbit s R.SCH_CTRL R.SCH_CTRL_STATS_EN then (fget s R.SCH_STATUS R.SCH_STATUS_STATS_SEQ + 1) % 65536
          else fget s R.SCH_STATUS R.SCH_STATUS_STATS_SEQ) ∧ regsOnly (fun a => logAddr a ∨ a = R.SCH_STATUS ∨ (∃ i, a = R.DL_DEPTH i) ∨ (∃ i, a = R.WAIT i) ∨ (∃ i j, a = R.RL_DEPTH i j) ∨ (∃ i, a = R.UNIT_LOAD i)) s t ∧ onlyParts (logParts.append [.schUnit, .schDlStat, .schRlStat, .schWaitStat, .schSampled, .schPublished, .pairDivWin]) s t)

/-- Law tiles and supervised conditions. LAW_TUB_COMMIT, LAW_TILE_INSTALL, LAW_TILE_REBUILD, SATUR, HOLD_TIMEOUT and SPRING_RAMP_HANDOVER: what each writes when its condition holds, and its frame. Rests on: spec/03_law_engine.md (R120, R121, R122, R123, R124, R129). -/
def Obligations.LawReactionsAct : Prop :=
  (∀ (n : Axis) (s : State), fget s (R.AX_CTRL n.toNat) R.AX_CTRL_SAT_LIM ≠ 0 →
    fget s (R.AX_CTRL n.toNat) R.AX_CTRL_SAT_LIM ≤ wField ((stateTile s n.toNat).getD 43 0) 31 16 → wField ((stateTile s n.toNat).getD 0 0) 30 28 = 0 →
    (s.axl n.toNat).causes.testBit 6 = false →
    ∃ t, exec (.satur n) s = .next t ∧ (t.axl n.toNat).causes = (s.axl n.toNat).causes ||| 64 ∧ fget t (R.AX_FAULT n.toNat) R.AX_FAULT_LAST = 7 ∧
      fget t (R.AX_STATUS n.toNat) R.AX_STATUS_REACT = max (reactionOf s n.toNat 7) (fget s (R.AX_STATUS n.toNat) R.AX_STATUS_REACT) ∧ regsOnly (fun a => sedAny a ∨ (∃ i j, a = R.STATE_TILE i j) ∨ (∃ i, a = R.AX_STATUS i) ∨ (∃ i, a = R.AX_FAULT i) ∨ (∃ i, a = R.PF_STATUS i) ∨ (∃ i j, a = R.PF_POS i j) ∨ (∃ i j, a = R.PF_VEL i j) ∨ (∃ i, a = R.PF_HOME_STATUS i)) s t ∧ onlyParts (sedParts.append [.lawAx, .motGen]) s t) ∧
  (∀ (n : Axis) (s : State), fget s (R.AX_STATUS n.toNat) R.AX_STATUS_REACT = 1 →
    max 1 (fget s (R.AX_CTRL n.toNat) R.AX_CTRL_HOLD_N) ≤ wField ((stateTile s n.toNat).getD 43 0) 15 8 → fget s (R.AX_STATUS n.toNat) R.AX_STATUS_FAULT < 16 →
    ∃ t, exec (.holdTimeout n) s = .next t ∧ fget t (R.AX_STATUS n.toNat) R.AX_STATUS_REACT = 4 ∧
      fget t (R.AX_STATUS n.toNat) R.AX_STATUS_FAULT = fget s (R.AX_STATUS n.toNat) R.AX_STATUS_FAULT ∧
      (t.axl n.toNat).off = true ∧ (t.axl n.toNat).causes = (s.axl n.toNat).causes ∧ regsOnly (fun a => sedAny a ∨ (∃ i j, a = R.STATE_TILE i j) ∨ (∃ i, a = R.AX_STATUS i) ∨ (∃ i, a = R.PF_STATUS i) ∨ (∃ i j, a = R.PF_POS i j) ∨ (∃ i j, a = R.PF_VEL i j) ∨ (∃ i, a = R.PF_HOME_STATUS i)) s t ∧ onlyParts (sedParts.append [.lawAx, .motGen]) s t) ∧
  (∀ (n : Axis) (l : List Word) (s : State), (s.axl n.toNat).causes.testBit 0 = true → lawRuns s n.toNat = false →
    tget [] s.law.store n.toNat = l → l.length = 64 → tileCheck (s.ctx n.toNat).lawSet l = 0 →
    ∃ t, exec (.lawTileRebuild n) s = .next t ∧ (∀ i, i < 64 → rd t (R.LAW_TILE n.toNat i) = l.getD i 0) ∧
      fbit t (R.AX_STATUS n.toNat) R.AX_STATUS_REBUILT = true ∧ regsOnly (fun a => sedAny a ∨ logAddr a ∨ (∃ i j, a = R.LAW_TILE i j) ∨ (∃ i j, a = R.STATE_TILE i j) ∨ (∃ i, a = R.AX_CTRL i) ∨ (∃ i, a = R.AX_STATUS i) ∨ (∃ i, a = R.PF_STATUS i) ∨ (∃ i j, a = R.PF_POS i j) ∨ (∃ i j, a = R.PF_VEL i j) ∨ (∃ i, a = R.PF_HOME_STATUS i)) s t ∧ onlyParts (sedParts.append [.lawAx, .motGen, .pairRseq, .pairRecs, .hostLog, .hostSeq, .hostSub, .hostLost]) s t) ∧
  (∀ (n : Axis) (s : State), (s.axl n.toNat).srOn = true → 8 ≤ wField ((stateTile s n.toNat).getD 0 0) 7 0 →
    ∃ t, exec (.springRampHandover n) s = .next t ∧ (t.axl n.toNat).srOn = false ∧
      fget t (R.AX_STATUS n.toNat) R.AX_STATUS_SRC = srcOf t n.toNat ∧ regsOnly (fun a => (∃ i j, a = R.STATE_TILE i j) ∨ (∃ i, a = R.AX_STATUS i)) s t ∧ onlyParts [.lawAx] s t) ∧
  (∀ (w : Who) (n : Axis) (bl : Bool) (s : State), accepted s w R.LAW_TUB_CMD (BitVec.ofNat 32 (2 ^ 31 + bl.toNat * 256 + n.toNat)) →
    fbit s R.LAW_TUB_STATUS R.LAW_TUB_STATUS_BUSY = false → mirroring s = false →
    ∃ t, exec (.lawTubCommit w n bl) s = .next t ∧ t.host.acc = (0, 0) ∧
      (tubResult w n.toNat (wr s R.LAW_TUB_STATUS 0) = 0 → t.law.tub = some (n.toNat, bl, w) ∧ fbit t R.LAW_TUB_STATUS R.LAW_TUB_STATUS_BUSY = true) ∧
      (tubResult w n.toNat (wr s R.LAW_TUB_STATUS 0) ≠ 0 → t.law.tub = s.law.tub ∧ fbit t R.LAW_TUB_STATUS R.LAW_TUB_STATUS_BUSY = false ∧
        fget t R.LAW_TUB_STATUS R.LAW_TUB_STATUS_RESULT = tubResult w n.toNat (wr s R.LAW_TUB_STATUS 0) % 8) ∧ regsOnly (fun a => sedAny a ∨ logAddr a ∨ a = R.LAW_TUB_STATUS) s t ∧ onlyParts (sedParts.append (logParts.append [.lawTub, .hostAcc])) s t) ∧
  (∀ (n : Nat) (bl : Bool) (w : Who) (s : State), s.law.tub = some (n, bl, w) → lawRuns s n = false →
    (s.pair.recs.any fun o => o.r.kind == 2#8 && !o.applied) = false →
    ∃ t, exec .lawTileInstall s = .next t ∧ (∀ i, i < 64 → rd t (R.LAW_TILE n i) = rd s (R.LAW_TUB i)) ∧ t.law.tub = none ∧ (t.axl n).bl = bl ∧
      tget [] t.law.store n = rdWords s (R.LAW_TUB 0) 64 ∧ rd t R.LAW_TUB_STATUS = 0 ∧ regsOnly (fun a => logAddr a ∨ (∃ i j, a = R.LAW_TILE i j) ∨ a = R.LAW_TUB_STATUS) s t ∧ onlyParts [.lawAx, .lawStore, .lawTub, .pairRseq, .pairRecs, .hostLog, .hostSeq, .hostSub, .hostLost] s t)

/-- Axis commands: MODE, FCLR, RST, SR, SNAP. MODE_WRITE, FCLR, RST, SR, SNAP and SNAP_COPY as accepted writes: the mode, causes and reaction they leave, the fresh start they arm, and their frames. Rests on: spec/03_law_engine.md (R113, R116, R127, R128, R130). -/
def Obligations.AxisCommandsAct : Prop :=
  (∀ (w : Who) (n : Axis) (v : Word) (s : State), accepted s w (R.AX_CTRL n.toNat) v → axMode s n.toNat ≠ 0 → wField v 1 0 = 0 →
    ∃ t, exec (.modeWrite w n v) s = .next t ∧ axMode t n.toNat = 0 ∧ (t.axl n.toNat).off = true ∧ fget t (R.AX_STATUS n.toNat) R.AX_STATUS_SRC = 0 ∧
      (t.axl n.toNat).causes = (s.axl n.toNat).causes ∧ t.host.acc = (0, 0) ∧ regsOnly (fun a => sedAny a ∨ logAddr a ∨ (∃ i j, a = R.STATE_TILE i j) ∨ (∃ i, a = R.AX_CTRL i) ∨ (∃ i, a = R.AX_STATUS i) ∨ (∃ i, a = R.AX_MAN_OUT i) ∨ (∃ i, a = R.PF_STATUS i) ∨ (∃ i j, a = R.PF_POS i j) ∨ (∃ i j, a = R.PF_VEL i j) ∨ (∃ i, a = R.PF_HOME_STATUS i)) s t ∧ onlyParts (sedParts.append (logParts.append [.lawAx, .motGen, .hostAcc])) s t) ∧
  (∀ (w : Who) (n : Axis) (v : Word) (s : State), accepted s w (R.AX_CTRL n.toNat) v → axMode s n.toNat ≠ 2 → wField v 1 0 = 2 →
    torqueOffLatched s n.toNat = false → (s.ctx n.toNat).used = true → zoneBlocks s n.toNat = false →
    ∃ t, exec (.modeWrite w n v) s = .next t ∧ axMode t n.toNat = 2 ∧ (t.axl n.toNat).srStart = true ∧
      fget t (R.AX_STATUS n.toNat) R.AX_STATUS_SRC = srcOf t n.toNat ∧ t.host.acc = (0, 0) ∧ regsOnly (fun a => sedAny a ∨ logAddr a ∨ (∃ i j, a = R.STATE_TILE i j) ∨ (∃ i, a = R.AX_CTRL i) ∨ (∃ i, a = R.AX_STATUS i) ∨ (∃ i, a = R.AX_MAN_OUT i) ∨ (∃ i, a = R.PF_STATUS i) ∨ (∃ i j, a = R.PF_POS i j) ∨ (∃ i j, a = R.PF_VEL i j) ∨ (∃ i, a = R.PF_HOME_STATUS i)) s t ∧ onlyParts (sedParts.append (logParts.append [.lawAx, .motGen, .hostAcc])) s t) ∧
  (∀ (w : Who) (n : Axis) (v : Word) (s : State), judge s w (R.AX_CTRL n.toNat) v = true → axMode s n.toNat = 0 → (wField v 1 0 = 1 ∨ wField v 1 0 = 2) →
    (torqueOffLatched s n.toNat = true ∨ (s.ctx n.toNat).used = false ∨ zoneBlocks s n.toNat = true) →
    ∃ t, exec (.modeWrite w n v) s = .next t ∧ t.host.acc = (2, 0) ∧ rd t (R.AX_CTRL n.toNat) = rd s (R.AX_CTRL n.toNat) ∧ t.law.ax = s.law.ax ∧
      regsOnly (fun a => sedAny a ∨ logAddr a ∨ (∃ i j, a = R.STATE_TILE i j) ∨ (∃ i, a = R.AX_CTRL i) ∨ (∃ i, a = R.AX_STATUS i) ∨ (∃ i, a = R.AX_MAN_OUT i) ∨ (∃ i, a = R.PF_STATUS i) ∨ (∃ i j, a = R.PF_POS i j) ∨ (∃ i j, a = R.PF_VEL i j) ∨ (∃ i, a = R.PF_HOME_STATUS i)) s t ∧ onlyParts (sedParts.append (logParts.append [.lawAx, .motGen, .hostAcc])) s t) ∧
  (∀ (w : Who) (n : Axis) (s : State), accepted s w (R.AX_CMD n.toNat) 8 →
    ∃ t, exec (.snap w n) s = .next t ∧ t.law.snap = some n.toNat ∧ fbit t R.LAW_SNAP_STATUS R.LAW_SNAP_STATUS_DONE = false ∧ t.host.acc = (0, 0) ∧
      regsOnly (fun a => logAddr a ∨ a = R.LAW_SNAP_STATUS) s t ∧ onlyParts (logParts.append [.lawSnap, .hostAcc]) s t) ∧
  (∀ (n : Nat) (s : State), s.law.snap = some n → n < 256 → lawRuns s n = false →
    ∃ t, exec .snapCopy s = .next t ∧ t.law.snap = none ∧ fbit t R.LAW_SNAP_STATUS R.LAW_SNAP_STATUS_DONE = true ∧
      fget t R.LAW_SNAP_STATUS R.LAW_SNAP_STATUS_AXIS = n ∧
      (∀ i, i < 64 → rd t (R.LAW_SNAP_LAW i) = rd s (R.LAW_TILE n i) ∧ rd t (R.LAW_SNAP_STATE i) = rd s (R.STATE_TILE n i)) ∧ regsOnly (fun a => a = R.LAW_SNAP_STATUS ∨ (∃ i, a = R.LAW_SNAP_LAW i) ∨ (∃ i, a = R.LAW_SNAP_STATE i)) s t ∧ onlyParts [.lawSnap] s t) ∧
  (∀ (w : Who) (n : Axis) (s : State), accepted s w (R.AX_CMD n.toNat) 4 → axMode s n.toNat = 2 →
    ∃ t, exec (.sr w n) s = .next t ∧ (t.axl n.toNat).srStart = true ∧ fget t (R.AX_STATUS n.toNat) R.AX_STATUS_SRC = srcOf t n.toNat ∧
      t.host.acc = (0, 0) ∧ regsOnly (fun a => sedAny a ∨ logAddr a ∨ (∃ i, a = R.AX_STATUS i)) s t ∧ onlyParts (sedParts.append (logParts.append [.lawAx, .hostAcc])) s t) ∧
  (∀ (w : Who) (n : Axis) (s : State), accepted s w (R.AX_CMD n.toNat) 2 →
    ∃ t, exec (.rst w n) s = .next t ∧ axMode t n.toNat = 0 ∧ (t.axl n.toNat).causes = 0 ∧ t.host.acc = (0, 0) ∧ regsOnly (fun a => sedAny a ∨ logAddr a ∨ (∃ i j, a = R.LAW_TILE i j) ∨ (∃ i j, a = R.STATE_TILE i j) ∨ (∃ i, a = R.AX_CTRL i) ∨ (∃ i, a = R.AX_STATUS i) ∨ (∃ i, a = R.PF_STATUS i) ∨ (∃ i j, a = R.PF_POS i j) ∨ (∃ i j, a = R.PF_VEL i j) ∨ (∃ i, a = R.PF_HOME_STATUS i) ∨ blockNo a = 7 ∨ blockNo a = 6) s t ∧ onlyParts (sedParts.append (logParts.append [.coreFb, .schOvr, .schOvrHere, .lawAx, .motGen, .hostAcc])) s t) ∧
  (∀ (w : Who) (n : Axis) (s : State), accepted s w (R.AX_CMD n.toNat) 1 → (s.axl n.toNat).causes = 0 → torqueOffLatched s n.toNat = true →
    ∃ t, exec (.fclr w n) s = .next t ∧ fget t (R.AX_STATUS n.toNat) R.AX_STATUS_REACT = 0 ∧ fget t (R.AX_STATUS n.toNat) R.AX_STATUS_FAULT = 0 ∧
      axMode t n.toNat = 0 ∧ t.host.acc = (0, 0) ∧ regsOnly (fun a => sedAny a ∨ logAddr a ∨ (∃ i j, a = R.STATE_TILE i j) ∨ (∃ i, a = R.AX_CTRL i) ∨ (∃ i, a = R.AX_STATUS i) ∨ (∃ i, a = R.PF_STATUS i) ∨ (∃ i j, a = R.PF_POS i j) ∨ (∃ i j, a = R.PF_VEL i j) ∨ (∃ i, a = R.PF_HOME_STATUS i)) s t ∧ onlyParts (sedParts.append (logParts.append [.lawAx, .motGen, .hostAcc])) s t)

/-- Moves enter the queue and leave it. MOVE_INSERT_ABS, MOVE_INSERT_REL and FLUSH as accepted writes: the queue and PF_RESULT they leave, and their frames. Rests on: spec/04_motion_generation.md (R141, R142). -/
def Obligations.MoveCommandsAct : Prop :=
  (∀ (w : Who) (n : Axis) (u s : State), accepted s w (R.PF_MV_CMD n.toNat) 0x40000000 → u = wr s (R.PF_RESULT n.toNat) 0 → noMotion u n.toNat = false →
    gmode u n.toNat ≤ 1 → (u.gen n.toNat).queue.length < 4 → (limRegs u n.toNat).any (· == 0) = false →
    outside u n.toNat (sx 64 (rd64 u (R.PF_MV_TGT n.toNat))) = false →
    ∃ t, exec (.moveInsertAbs w n) s = .next t ∧ (t.gen n.toNat).queue = (s.gen n.toNat).queue ++ [sx 64 (rd64 u (R.PF_MV_TGT n.toNat))] ∧
      rd t (R.PF_RESULT n.toNat) = 0x80000000 ∧ fget t (R.PF_STATUS n.toNat) R.PF_STATUS_QDEPTH = (s.gen n.toNat).queue.length + 1 ∧
      t.host.acc = (0, 0) ∧ regsOnly (fun a => sedAny a ∨ logAddr a ∨ (∃ i, a = R.PF_STATUS i) ∨ (∃ i, a = R.PF_RESULT i)) s t ∧ onlyParts (sedParts.append (logParts.append [.motGen, .hostAcc])) s t) ∧
  (∀ (w : Who) (n : Axis) (d : Int) (u s : State), accepted s w (R.PF_MV_CMD n.toNat) 0x80000000 → u = wr s (R.PF_RESULT n.toNat) 0 → noMotion u n.toNat = false →
    gmode u n.toNat ≤ 1 → (u.gen n.toNat).queue.length < 4 → (limRegs u n.toNat).any (· == 0) = false →
    d = sx 64 (ux 64 (sx 64 (rd64 u (R.PF_MV_TGT n.toNat)) + (s.gen n.toNat).queue.getLast?.getD (s.gen n.toNat).p)) →
    outside u n.toNat d = false →
    ∃ t, exec (.moveInsertRel w n) s = .next t ∧ (t.gen n.toNat).queue = (s.gen n.toNat).queue ++ [d] ∧
      rd t (R.PF_RESULT n.toNat) = 0x80000000 ∧ fget t (R.PF_STATUS n.toNat) R.PF_STATUS_QDEPTH = (s.gen n.toNat).queue.length + 1 ∧
      t.host.acc = (0, 0) ∧ regsOnly (fun a => sedAny a ∨ logAddr a ∨ (∃ i, a = R.PF_STATUS i) ∨ (∃ i, a = R.PF_RESULT i)) s t ∧ onlyParts (sedParts.append (logParts.append [.motGen, .hostAcc])) s t) ∧
  (∀ (w : Who) (n : Axis) (u s : State), accepted s w (R.PF_MV_CMD n.toNat) 0xC0000000 → u = wr s (R.PF_RESULT n.toNat) 0 → noMotion u n.toNat = false →
    ∃ t, exec (.flush w n) s = .next t ∧ (t.gen n.toNat).queue = (s.gen n.toNat).queue.take 1 ∧ rd t (R.PF_RESULT n.toNat) = 0x80000000 ∧
      t.host.acc = (0, 0) ∧ regsOnly (fun a => sedAny a ∨ logAddr a ∨ (∃ i, a = R.PF_STATUS i) ∨ (∃ i, a = R.PF_RESULT i)) s t ∧ onlyParts (sedParts.append (logParts.append [.motGen, .hostAcc])) s t) ∧
  (∀ (w : Who) (n : Axis) (u s : State), accepted s w (R.PF_MV_CMD n.toNat) 0x40000000 → u = wr s (R.PF_RESULT n.toNat) 0 → noMotion u n.toNat = true →
    ∃ t, exec (.moveInsertAbs w n) s = .next t ∧ t.mot.gen = s.mot.gen ∧ rd t (R.PF_RESULT n.toNat) = 0x80000003 ∧ t.host.acc = (0, 0) ∧
      regsOnly (fun a => sedAny a ∨ logAddr a ∨ (∃ i, a = R.PF_STATUS i) ∨ (∃ i, a = R.PF_RESULT i)) s t ∧ onlyParts (sedParts.append (logParts.append [.motGen, .hostAcc])) s t)

/-- Generator commands. STOP, QSTOP, HOME, SETPOS, GEAR, CAM and SHCLR as accepted writes: the request each leaves for the generator or the coordinate it sets, DONE and the result code, and their frames. Rests on: spec/04_motion_generation.md (R147, R148, R155, R157, R165, R172, R179). -/
def Obligations.GeneratorCommandsAct : Prop :=
  (∀ (w : Who) (n : Axis) (fl : Bool) (u s : State), accepted s w (R.PF_CMD n.toNat) (pfCmdWord 1 false fl) → u = wr s (R.PF_RESULT n.toNat) 0 →
    noMotion u n.toNat = false →
    ∃ t, exec (.stop w n fl) s = .next t ∧ (t.gen n.toNat).req = some (.stop fl) ∧ (t.gen n.toNat).ripe = false ∧ rd t (R.PF_RESULT n.toNat) = 0x80000000 ∧
      (t.gen n.toNat).queue = (s.gen n.toNat).queue ∧ t.host.acc = (0, 0) ∧ regsOnly (fun a => sedAny a ∨ logAddr a ∨ (∃ i j, a = R.STATE_TILE i j) ∨ (∃ i, a = R.PF_STATUS i) ∨ (∃ i, a = R.PF_RESULT i) ∨ (∃ i j, a = R.PF_POS i j)) s t ∧ onlyParts (sedParts.append (logParts.append [.coreFb, .lawAx, .motGen, .hostAcc])) s t) ∧
  (∀ (w : Who) (n : Axis) (u s : State), accepted s w (R.PF_CMD n.toNat) (pfCmdWord 2 false false) → u = wr s (R.PF_RESULT n.toNat) 0 →
    noMotion u n.toNat = false →
    ∃ t, exec (.qstop w n) s = .next t ∧ (t.gen n.toNat).req = some .quick ∧ (t.gen n.toNat).ripe = false ∧ rd t (R.PF_RESULT n.toNat) = 0x80000000 ∧
      t.host.acc = (0, 0) ∧ regsOnly (fun a => sedAny a ∨ logAddr a ∨ (∃ i j, a = R.STATE_TILE i j) ∨ (∃ i, a = R.PF_STATUS i) ∨ (∃ i, a = R.PF_RESULT i) ∨ (∃ i j, a = R.PF_POS i j)) s t ∧ onlyParts (sedParts.append (logParts.append [.coreFb, .lawAx, .motGen, .hostAcc])) s t) ∧
  (∀ (w : Who) (n : Axis) (u s : State), accepted s w (R.PF_CMD n.toNat) (pfCmdWord 3 false false) → u = wr s (R.PF_RESULT n.toNat) 0 →
    noMotion u n.toNat = false → mayEngage u n.toNat = true → outside u n.toNat (u.gen n.toNat).p = false →
    ∃ t, exec (.gear w n) s = .next t ∧ (t.gen n.toNat).req = some .gear ∧ (t.gen n.toNat).ripe = false ∧ rd t (R.PF_RESULT n.toNat) = 0x80000000 ∧
      t.host.acc = (0, 0) ∧ regsOnly (fun a => sedAny a ∨ logAddr a ∨ (∃ i j, a = R.STATE_TILE i j) ∨ (∃ i, a = R.PF_STATUS i) ∨ (∃ i, a = R.PF_RESULT i) ∨ (∃ i j, a = R.PF_POS i j)) s t ∧ onlyParts (sedParts.append (logParts.append [.coreFb, .lawAx, .motGen, .hostAcc])) s t) ∧
  (∀ (w : Who) (n : Axis) (rel : Bool) (u s : State), accepted s w (R.PF_CMD n.toNat) (pfCmdWord 4 rel false) → u = wr s (R.PF_RESULT n.toNat) 0 →
    noMotion u n.toNat = false → mayEngage u n.toNat = true → outside u n.toNat (u.gen n.toNat).p = false →
    fbit u (R.CAM_INFO (fget u (R.PF_CAM n.toNat) R.PF_CAM_CAM_ID)) R.CAM_INFO_VALID = true →
    ∃ t, exec (.cam w n rel) s = .next t ∧ (t.gen n.toNat).req = some (.cam rel) ∧ (t.gen n.toNat).ripe = false ∧ rd t (R.PF_RESULT n.toNat) = 0x80000000 ∧
      t.host.acc = (0, 0) ∧ regsOnly (fun a => sedAny a ∨ logAddr a ∨ (∃ i j, a = R.STATE_TILE i j) ∨ (∃ i, a = R.PF_STATUS i) ∨ (∃ i, a = R.PF_RESULT i) ∨ (∃ i j, a = R.PF_POS i j)) s t ∧ onlyParts (sedParts.append (logParts.append [.coreFb, .lawAx, .motGen, .hostAcc])) s t) ∧
  (∀ (w : Who) (n : Axis) (u s : State), accepted s w (R.PF_CMD n.toNat) (pfCmdWord 5 false false) → u = wr s (R.PF_RESULT n.toNat) 0 →
    noMotion u n.toNat = false → axMode u n.toNat = 2 → gmode u n.toNat = 0 → (u.gen n.toNat).queue = [] →
    ∃ t, exec (.home w n) s = .next t ∧ (t.gen n.toNat).req = some .home ∧ (t.gen n.toNat).ripe = false ∧ rd t (R.PF_RESULT n.toNat) = 0x80000000 ∧
      t.host.acc = (0, 0) ∧ regsOnly (fun a => sedAny a ∨ logAddr a ∨ (∃ i j, a = R.STATE_TILE i j) ∨ (∃ i, a = R.PF_STATUS i) ∨ (∃ i, a = R.PF_RESULT i) ∨ (∃ i j, a = R.PF_POS i j)) s t ∧ onlyParts (sedParts.append (logParts.append [.coreFb, .lawAx, .motGen, .hostAcc])) s t) ∧
  (∀ (w : Who) (n : Axis) (u s : State), accepted s w (R.PF_CMD n.toNat) (pfCmdWord 6 false false) → u = wr s (R.PF_RESULT n.toNat) 0 →
    noMotion u n.toNat = false → gmode u n.toNat = 0 →
    ∃ t, exec (.setpos w n) s = .next t ∧ rd t (R.PF_RESULT n.toNat) = 0x80000000 ∧ fbit t (R.PF_STATUS n.toNat) R.PF_STATUS_POS_VALID = true ∧
      (t.gen n.toNat).p = sx 64 (ux 64 ((s.gen n.toNat).p + sx 64 (ux 64 (sx 64 (rd64 u (R.PF_HOME_POS n.toNat)) - (s.gen n.toNat).p)))) ∧
      t.host.acc = (0, 0) ∧ regsOnly (fun a => sedAny a ∨ logAddr a ∨ (∃ i j, a = R.STATE_TILE i j) ∨ (∃ i, a = R.PF_STATUS i) ∨ (∃ i, a = R.PF_RESULT i) ∨ (∃ i j, a = R.PF_POS i j)) s t ∧ onlyParts (sedParts.append (logParts.append [.coreFb, .lawAx, .motGen, .hostAcc])) s t) ∧
  (∀ (w : Who) (n : Axis) (u s : State), accepted s w (R.PF_CMD n.toNat) (pfCmdWord 7 false false) → u = wr s (R.PF_RESULT n.toNat) 0 →
    noMotion u n.toNat = false → coupled u n.toNat = true →
    ∃ t, exec (.shclr w n) s = .next t ∧ (t.gen n.toNat).shift.req = 0 ∧ rd t (R.PF_RESULT n.toNat) = 0x80000000 ∧
      fbit t (R.PF_STATUS n.toNat) R.PF_STATUS_SH_ACT = (t.gen n.toNat).shift.plan.isSome ∧ t.host.acc = (0, 0) ∧ regsOnly (fun a => sedAny a ∨ logAddr a ∨ (∃ i j, a = R.STATE_TILE i j) ∨ (∃ i, a = R.PF_STATUS i) ∨ (∃ i, a = R.PF_RESULT i) ∨ (∃ i j, a = R.PF_POS i j)) s t ∧ onlyParts (sedParts.append (logParts.append [.coreFb, .lawAx, .motGen, .hostAcc])) s t) ∧
  (∀ (w : Who) (n : Axis) (u s : State), accepted s w (R.PF_CMD n.toNat) (pfCmdWord 2 false false) → u = wr s (R.PF_RESULT n.toNat) 0 →
    noMotion u n.toNat = true →
    ∃ t, exec (.qstop w n) s = .next t ∧ t.mot.gen = s.mot.gen ∧ rd t (R.PF_RESULT n.toNat) = 0x80000003 ∧ t.host.acc = (0, 0) ∧ regsOnly (fun a => sedAny a ∨ logAddr a ∨ (∃ i j, a = R.STATE_TILE i j) ∨ (∃ i, a = R.PF_STATUS i) ∨ (∃ i, a = R.PF_RESULT i) ∨ (∃ i j, a = R.PF_POS i j)) s t ∧ onlyParts (sedParts.append (logParts.append [.coreFb, .lawAx, .motGen, .hostAcc])) s t)

/-- Limits, ratios, shifts and switches. LIMIT_CHANGE, VIRTUAL_LIMIT_WRITE, GEAR_RATIO_WRITE, SHIFT_REQUEST, SWITCH_EDGE_RAW and SWITCH_DEBOUNCED: what each changes, and its frame. Rests on: spec/04_motion_generation.md (R143, R153, R158, R165, R176, R177). -/
def Obligations.MotionEventsAct : Prop :=
  (∀ (n : Axis) (s : State), (s.gen n.toNat).limDirty = true → (s.gen n.toNat).ripe = true →
    ∃ t, exec (.limitChange n) s = .next t ∧
      (gmode s n.toNat ≠ 1 → t.gen n.toNat = { s.gen n.toNat with limDirty := false } ∧ t.regs = s.regs) ∧ regsOnly (fun a => sedAny a ∨ (∃ i, a = R.PF_STATUS i)) s t ∧ onlyParts (sedParts.append [.motGen]) s t) ∧
  (∀ (w : Who) (n : Axis) (v : Word) (s : State), accepted s w (R.PF_GEAR_DEN n.toNat) v → v ≠ 0 →
    ∃ t, exec (.gearRatioWrite w n v) s = .next t ∧ rd t (R.PF_GEAR_DEN n.toNat) = v ∧
      (t.gen n.toNat).ratio = some ((rd s (R.PF_GEAR_NUM n.toNat)).toInt, v.toNat) ∧ (t.gen n.toNat).ripe = false ∧ t.host.acc = (0, 0) ∧ regsOnly (fun a => sedAny a ∨ logAddr a ∨ (∃ i, a = R.PF_GEAR_DEN i)) s t ∧ onlyParts (sedParts.append (logParts.append [.motGen, .hostAcc])) s t) ∧
  (∀ (w : Who) (n : Axis) (s : State), accepted s w (R.PF_GEAR_DEN n.toNat) 0 →
    ∃ t, exec (.gearRatioWrite w n 0) s = .next t ∧ rd t (R.PF_GEAR_DEN n.toNat) = rd s (R.PF_GEAR_DEN n.toNat) ∧ t.mot.gen = s.mot.gen ∧
      t.host.acc = (0, 0) ∧ regsOnly (fun a => sedAny a ∨ logAddr a ∨ (∃ i, a = R.PF_GEAR_DEN i)) s t ∧ onlyParts (sedParts.append (logParts.append [.motGen, .hostAcc])) s t) ∧
  (∀ (w : Who) (n : Axis) (v : Word) (lo : Nat → Word) (s : State), accepted s w (R.PF_MAX n.toNat 1) v → lo = stagedLow s (portCode w.port) →
    sx 64 ((lo (R.PF_MIN n.toNat 0)).toNat + (lo (R.PF_MIN n.toNat 1)).toNat * 2 ^ 32) < sx 64 ((lo (R.PF_MAX n.toNat 0)).toNat + v.toNat * 2 ^ 32) →
    ∃ t, exec (.virtualLimitWrite w n v) s = .next t ∧ rd t (R.PF_MIN n.toNat 0) = lo (R.PF_MIN n.toNat 0) ∧ rd t (R.PF_MIN n.toNat 1) = lo (R.PF_MIN n.toNat 1) ∧
      rd t (R.PF_MAX n.toNat 0) = lo (R.PF_MAX n.toNat 0) ∧ rd t (R.PF_MAX n.toNat 1) = v ∧ t.host.acc = (0, 0) ∧ regsOnly (fun a => sedAny a ∨ logAddr a ∨ (∃ i j, a = R.PF_MIN i j) ∨ (∃ i j, a = R.PF_MAX i j)) s t ∧ onlyParts (sedParts.append (logParts.append [.hostStaged, .hostAcc])) s t) ∧
  (∀ (w : Who) (n : Axis) (v : Word) (lo : Nat → Word) (s : State), judge s w (R.PF_MAX n.toNat 1) v = true → lo = stagedLow s (portCode w.port) →
    sx 64 ((lo (R.PF_MAX n.toNat 0)).toNat + v.toNat * 2 ^ 32) ≤ sx 64 ((lo (R.PF_MIN n.toNat 0)).toNat + (lo (R.PF_MIN n.toNat 1)).toNat * 2 ^ 32) →
    ∃ t, exec (.virtualLimitWrite w n v) s = .next t ∧ (∀ j, rd t (R.PF_MIN n.toNat j) = rd s (R.PF_MIN n.toNat j)) ∧
      (∀ j, rd t (R.PF_MAX n.toNat j) = rd s (R.PF_MAX n.toNat j)) ∧ t.host.acc = (2, 0) ∧ regsOnly (fun a => sedAny a ∨ logAddr a ∨ (∃ i j, a = R.PF_MIN i j) ∨ (∃ i j, a = R.PF_MAX i j)) s t ∧ onlyParts (sedParts.append (logParts.append [.hostStaged, .hostAcc])) s t) ∧
  (∀ (n : Axis) (s : State), gmode s n.toNat = 5 → (sought s n.toNat).isSome = true → fget s (R.PF_HOME_CFG n.toNat) R.PF_HOME_CFG_STRICT = 0 →
    ∃ t, exec (.switchEdgeRaw n) s = .next t ∧
      fget t (R.PF_HOME_STATUS n.toNat) R.PF_HOME_STATUS_EDGES = min 255 (fget s (R.PF_HOME_STATUS n.toNat) R.PF_HOME_STATUS_EDGES + 1) ∧
      (fget s (R.PF_HOME_CFG n.toNat) R.PF_HOME_CFG_HOME_CHAT ≠ 0 →
        fget s (R.PF_HOME_CFG n.toNat) R.PF_HOME_CFG_HOME_CHAT < min 255 (fget s (R.PF_HOME_STATUS n.toNat) R.PF_HOME_STATUS_EDGES + 1) →
        fbit t (R.PF_STATUS n.toNat) R.PF_STATUS_SUSPECT = true) ∧ regsOnly (fun a => sedAny a ∨ (∃ i, a = R.PF_STATUS i) ∨ (∃ i j, a = R.PF_STOP_POS i j) ∨ (∃ i, a = R.PF_HOME_STATUS i)) s t ∧ onlyParts (sedParts.append [.motGen, .motWin]) s t) ∧
  (∀ (n : Axis) (sw : Switch) (level : Bool) (dt span : Nat) (s : State), gmode s n.toNat ≠ 5 →
    ∃ t, exec (.switchDebounced n sw level dt span) s = .next t ∧ swActive t n.toNat (swNo sw) = swAct s n.toNat (swNo sw) level ∧
      (t.gen n.toNat).p = (s.gen n.toNat).p ∧ regsOnly (fun a => sedAny a ∨ (∃ i j, a = R.STATE_TILE i j) ∨ (∃ i, a = R.PF_STATUS i) ∨ (∃ i j, a = R.PF_STOP_POS i j) ∨ (∃ i j, a = R.PF_POS i j) ∨ (∃ i, a = R.PF_HOME_STATUS i)) s t ∧ onlyParts (sedParts.append [.coreFb, .lawAx, .motGen, .motWin]) s t) ∧
  (∀ (w : Who) (n : Axis) (v lo : Word) (s : State), accepted s w (R.PF_SH n.toNat 1) v → coupled s n.toNat = true →
    lo = (tget none s.host.staged (stagedKey (portCode w.port) (R.PF_SH n.toNat 0))).getD 0 →
    ∃ t, exec (.shiftRequest w n v) s = .next t ∧ rd t (R.PF_RESULT n.toNat) = 0x80000000 ∧
      (t.gen n.toNat).shift.req = sx 64 (ux 64 ((s.gen n.toNat).shift.req + sx 64 (lo.toNat + v.toNat * 2 ^ 32))) ∧ t.host.acc = (0, 0) ∧ regsOnly (fun a => sedAny a ∨ logAddr a ∨ (∃ i, a = R.PF_RESULT i)) s t ∧ onlyParts (sedParts.append (logParts.append [.motGen, .hostStaged, .hostAcc])) s t) ∧
  (∀ (w : Who) (n : Axis) (v : Word) (s : State), accepted s w (R.PF_SH n.toNat 1) v → coupled s n.toNat = false →
    ∃ t, exec (.shiftRequest w n v) s = .next t ∧ rd t (R.PF_RESULT n.toNat) = 0x80000003 ∧ t.mot.gen = s.mot.gen ∧ t.host.acc = (0, 0) ∧ regsOnly (fun a => sedAny a ∨ logAddr a ∨ (∃ i, a = R.PF_RESULT i)) s t ∧ onlyParts (sedParts.append (logParts.append [.motGen, .hostStaged, .hostAcc])) s t)

/-- Changeover requests and cam tiles. CO_REQUEST, CO_CANCEL, CO_STAGED, CAM_TILE_VERIFY and CAM_TILE_REBUILD: state, result and tile verdict each leaves, and its frame. Rests on: spec/04_motion_generation.md (R173, R174, R181, R182, R183, R189). -/
def Obligations.ChangeoverAndCamTilesAct : Prop :=
  (∀ (w : Who) (g : BitVec 4) (v : Word) (s : State), accepted s w (R.CO_CTRL g.toNat) (withField v R.CO_CTRL_OP 1) →
    ∃ t, exec (.coRequest w g v) s = .next t ∧ t.host.acc = (0, 0) ∧
      (coCheck s g.toNat (wField (withField v R.CO_CTRL_OP 1) 6 4) (wField (withField v R.CO_CTRL_OP 1) 1 0) = 0 →
        (t.co g.toNat).key = coKey s g.toNat ∧ (t.co g.toNat).len = rdN s (R.CO_LEN g.toNat) ∧
        (t.co g.toNat).recipe = wField (withField v R.CO_CTRL_OP 1) 6 4 ∧ (t.co g.toNat).list = wField (withField v R.CO_CTRL_OP 1) 1 0) ∧
      (coCheck s g.toNat (wField (withField v R.CO_CTRL_OP 1) 6 4) (wField (withField v R.CO_CTRL_OP 1) 1 0) ≠ 0 →
        fget t (R.CO_STATUS g.toNat) R.CO_STATUS_RESULT =
          coCheck s g.toNat (wField (withField v R.CO_CTRL_OP 1) 6 4) (wField (withField v R.CO_CTRL_OP 1) 1 0) % 16 ∧
        coState t g.toNat = coState s g.toNat ∧ t.mot.co = s.mot.co ∧ t.sch.dl = s.sch.dl) ∧ regsOnly (fun a => sedAny a ∨ logAddr a ∨ a = R.SCH_STATUS ∨ (∃ i, a = R.CO_STATUS i) ∨ (∃ i, a = R.TO_STATUS i)) s t ∧ onlyParts (sedParts.append (logParts.append [.schDl, .schPlaced, .schHeld, .motCo, .hostAcc])) s t) ∧
  (∀ (w : Who) (g : BitVec 4) (s : State), accepted s w (R.CO_CTRL g.toNat) 0x80000000 → (coState s g.toNat = 1 ∨ coState s g.toNat = 2) →
    ∃ t, exec (.coCancel w g) s = .next t ∧ coState t g.toNat = 5 ∧ fget t (R.CO_STATUS g.toNat) R.CO_STATUS_RESULT = 7 ∧
      (t.co g.toNat).tiles = [] ∧ (∀ x ∈ t.dl (s.co g.toNat).list, ¬ (x.key = (s.co g.toNat).key ∧ entKind x = 5 ∧ entTarget x = g.toNat)) ∧
      t.host.acc = (0, 0) ∧ regsOnly (fun a => logAddr a ∨ (∃ i, a = R.TILE_CRC i) ∨ (∃ i, a = R.TILE_INFO i) ∨ (∃ i, a = R.CO_STATUS i)) s t ∧ onlyParts (logParts.append [.schDl, .schHeld, .motCo, .hostAcc]) s t) ∧
  (∀ (g : BitVec 4) (s : State), coState s g.toNat = 1 →
    ∃ t, exec (.coStaged g) s = .next t ∧ coState t g.toNat = 2 ∧ fget t (R.CO_STATUS g.toNat) R.CO_STATUS_RESULT = 0 ∧ regsOnly (fun a => logAddr a ∨ (∃ i, a = R.TILE_CRC i) ∨ (∃ i, a = R.TILE_INFO i) ∨ (∃ i, a = R.CO_STATUS i) ∨ 0x1000000 ≤ a) s t ∧ onlyParts [.motCo, .pairRseq, .pairRecs, .hostLog, .hostSeq, .hostSub, .hostLost] s t) ∧
  (∀ (n : Axis) (k : BitVec 11) (s : State), k.toNat < 1536 → tileUsed s k.toNat = true → s.host.fi = none →
    crcWords (rdWords s (camTileAddr k.toNat) 1024) = rd s (R.TILE_CRC k.toNat) →
    ∃ t, exec (.camTileVerify n k) s = .next t ∧ (tget [] t.mot.win n.toNat).head? = some k.toNat ∧ (tget [] t.mot.win n.toNat).length ≤ 3 ∧
      (∀ m, m ≠ n.toNat → tget [] t.mot.win m = tget [] s.mot.win m) ∧ regsOnly (fun _ => False) s t ∧ onlyParts [.motWin] s t) ∧
  (∀ (n : Axis) (k : BitVec 11) (s : State), k.toNat < 1536 → tileUsed s k.toNat = true → s.host.fi = none →
    crcWords (rdWords s (camTileAddr k.toNat) 1024) ≠ rd s (R.TILE_CRC k.toNat) →
    ∃ t, exec (.camTileVerify n k) s = .next t ∧ (∀ e ∈ t.mot.win, k.toNat ∉ e.2) ∧ regsOnly (fun a => sedAny a ∨ logAddr a ∨ (∃ i, a = R.REGION_STATUS i) ∨ (∃ i, a = R.REGION_TILE_ERR i) ∨ a = R.FI_STATUS) s t ∧ onlyParts (sedParts.append [.coreRegion, .motWin, .pairRseq, .pairRecs, .hostLog, .hostSeq, .hostSub, .hostLost, .hostFi]) s t) ∧
  (∀ (k : BitVec 11) (c : CamRec) (j : Nat) (s : State), k.toNat < 1536 → tileUsed s k.toNat = true →
    (tget {} s.boot.bank (fget s (R.CAM_INFO (fget s (R.TILE_INFO k.toNat) R.TILE_INFO_CAM)) R.CAM_INFO_RECIPE)).cams.find?
      (fun c => c.id == fget s (R.TILE_INFO k.toNat) R.TILE_INFO_CAM) = some c →
    (chainOf s (fget s (R.TILE_INFO k.toNat) R.TILE_INFO_CAM)).findIdx? (· == k.toNat) = some j →
    ∃ t, exec (.camTileRebuild k) s = .next t ∧ (∀ i, i < (camTileWords c j).length → rd t (camTileAddr k.toNat + 4 * i) = (camTileWords c j).getD i 0) ∧
      rd t (R.TILE_CRC k.toNat) = crcWords (camTileWords c j) ∧ regsOnly (fun a => logAddr a ∨ (∃ i, a = R.TILE_CRC i) ∨ 0x1000000 ≤ a) s t ∧ onlyParts [.pairRseq, .pairRecs, .hostLog, .hostSeq, .hostSub, .hostLost] s t)

/-- Lagoon pairing and lane events. LAGOON_REQUEST, LAGOON_APPLY, HOLDOFF_MAX_APPLY, LANE_CAPTURE and REARM: what each leaves when its condition holds, and its frame. Rests on: spec/05_signal_lane_isa.md (R217); spec/06_signal_lane_pipeline.md (R234, R238, R243, R249). -/
def Obligations.LagoonAndLaneEventsAct : Prop :=
  (∀ (w : Who) (u : UnitNo) (v : Word) (s : State), accepted s w (R.LANE_CTRL u.toNat) v → u.toNat % 2 = 0 →
    ¬ (wbit v 0 = true ∧ (reservedUnit s (u.toNat + 1) = true ∨ resvReads s (u.toNat + 1) = true)) →
    ∃ t, exec (.lagoonRequest w u v) s = .next t ∧ fbit t (R.LANE_CTRL u.toNat) R.LANE_CTRL_LAGOON = wbit v 0 ∧ t.lane = s.lane ∧ t.host.acc = (0, 0) ∧ regsOnly (fun a => sedAny a ∨ logAddr a ∨ (∃ i, a = R.LANE_CTRL i)) s t ∧ onlyParts (sedParts.append (logParts.append [.hostAcc])) s t) ∧
  (∀ (w : Who) (u : UnitNo) (v : Word) (s : State), accepted s w (R.LANE_CTRL u.toNat) v → u.toNat % 2 = 1 →
    ∃ t, exec (.lagoonRequest w u v) s = .next t ∧ rd t (R.LANE_CTRL u.toNat) = rd s (R.LANE_CTRL u.toNat) ∧ t.host.acc = (0, 0) ∧ regsOnly (fun a => logAddr a) s t ∧ onlyParts (logParts.append [.hostAcc]) s t) ∧
  (∀ (w : Who) (u : UnitNo) (v : Word) (s : State), accepted s w (R.LANE_CTRL u.toNat) v → u.toNat % 2 = 0 → wbit v 0 = true →
    (reservedUnit s (u.toNat + 1) = true ∨ resvReads s (u.toNat + 1) = true) →
    ∃ t, exec (.lagoonRequest w u v) s = .next t ∧ rd t (R.LANE_CTRL u.toNat) = rd s (R.LANE_CTRL u.toNat) ∧ t.lane = s.lane ∧ regsOnly (fun a => sedAny a ∨ logAddr a ∨ (∃ i, a = R.LANE_CTRL i)) s t ∧ onlyParts (sedParts.append (logParts.append [.hostAcc])) s t) ∧
  (∀ (u : UnitNo) (s : State), u.toNat % 2 = 0 → fbit s (R.LANE_CTRL u.toNat) R.LANE_CTRL_LAGOON = true → joined s u.toNat = false → pairIdle s u.toNat = true →
    ∃ t, exec (.lagoonApply u) s = .next t ∧ joined t u.toNat = true ∧ joined t (u.toNat + 1) = true ∧
      (t.lan u.toNat).r.d = List.zipWith (fun a b => a % 2 ^ 16 + b % 2 ^ 16 * 2 ^ 16) (s.lan u.toNat).r.d (s.lan (u.toNat + 1)).r.d ∧
      (∀ v, v ≠ u.toNat → t.lan v = s.lan v) ∧ regsOnly (fun a => (∃ i, a = R.LANE_STATUS i)) s t ∧ onlyParts [.lane, .free] s t) ∧
  (∀ (u : UnitNo) (s : State), u.toNat % 2 = 0 → fbit s (R.LANE_CTRL u.toNat) R.LANE_CTRL_LAGOON = false → joined s u.toNat = true → pairIdle s u.toNat = true →
    ∃ t, exec (.lagoonApply u) s = .next t ∧ joined t u.toNat = false ∧ joined t (u.toNat + 1) = false ∧
      (t.lan u.toNat).r.d = (s.lan u.toNat).r.d.map (· % 2 ^ 16) ∧ (t.lan (u.toNat + 1)).r.d = (s.lan u.toNat).r.d.map (· / 2 ^ 16) ∧ regsOnly (fun a => (∃ i, a = R.LANE_STATUS i)) s t ∧ onlyParts [.lane, .free] s t) ∧
  (∀ (u : UnitNo) (s : State), (pairIdle s u.toNat = false ∨ fbit s (R.LANE_CTRL u.toNat) R.LANE_CTRL_LAGOON = joined s u.toNat) → exec (.lagoonApply u) s = .next s) ∧
  (∀ (w : Who) (u : UnitNo) (k : BitVec 3) (s : State), accepted s w (R.LT_CMD u.toNat) (BitVec.ofNat 32 (2 ^ 31 + k.toNat)) →
    ∃ t, exec (.rearm w u k) s = .next t ∧ fbit t (R.LT_STAT u.toNat k.toNat) R.LT_STAT_FAILED = false ∧ fbit t (R.LT_STAT u.toNat k.toNat) R.LT_STAT_PENDING = false ∧
      (∀ e ∈ t.ready (u.toNat / 8) 3, e.id ≠ taskNo s u.toNat k.toNat) ∧ t.host.acc = (0, 0) ∧ regsOnly (fun a => sedAny a ∨ logAddr a ∨ (∃ i j, a = R.LT_STAT i j)) s t ∧ onlyParts (sedParts.append (logParts.append [.schReady, .hostAcc])) s t) ∧
  (∀ (u : UnitNo) (s : State), ∃ t, exec (.holdoffMaxApply u) s = .next t ∧ (t.lan u.toNat).holdoff = max 8 (fget s (R.HOLDOFF_MAX u.toNat) R.HOLDOFF_MAX_BOUND) ∧
      (t.lan u.toNat).r = (s.lan u.toNat).r ∧ regsOnly (fun a => a = R.SCH_STATUS) s t ∧ onlyParts [.lane] s t) ∧
  (∀ (u : UnitNo) (k : BitVec 3) (dt span n : Nat) (s : State), fbit s (R.LT_DESC_A u.toNat k.toNat) R.LT_DESC_A_VALID = true →
    fbit s (R.LT_DESC_B u.toNat k.toNat) R.LT_DESC_B_CAPV = true → (tget [] (s.lan u.toNat).cap k.toNat).length < 8 → taskAxis s u.toNat k.toNat = some n →
    ∃ t, exec (.laneCapture u k dt span) s = .next t ∧
      tget [] (t.lan u.toNat).cap k.toNat = tget [] (s.lan u.toNat).cap k.toNat ++
        [ux 32 ((s.fb n).posPrev + rhu (sx 64 (ux 64 ((s.fb n).pos - (s.fb n).posPrev)) * dt) (max 1 span))] ∧
      (t.lan u.toNat).r = (s.lan u.toNat).r ∧ regsOnly (fun a => sedAny a ∨ (∃ i j, a = R.LT_STAT i j)) s t ∧ onlyParts (sedParts.append [.lane]) s t) ∧
  (∀ (u : UnitNo) (k : BitVec 3) (dt span : Nat) (s : State), fbit s (R.LT_DESC_A u.toNat k.toNat) R.LT_DESC_A_VALID = true →
    fbit s (R.LT_DESC_B u.toNat k.toNat) R.LT_DESC_B_CAPV = true → 8 ≤ (tget [] (s.lan u.toNat).cap k.toNat).length →
    ∃ t, exec (.laneCapture u k dt span) s = .next t ∧ fbit t (R.LT_STAT u.toNat k.toNat) R.LT_STAT_CAPOVF = true ∧ t.lane = s.lane ∧ regsOnly (fun a => sedAny a ∨ (∃ i j, a = R.LT_STAT i j)) s t ∧ onlyParts (sedParts.append [.lane]) s t)

/-- The lane of unit u is about to issue, in straight line, the word that `val` names on the bits of `mask`: a task runs, no loop, repetition or delay slot is under way, and no late result, register move or sticky flag of the last instructions is still on its way. -/
def laneAt (s : State) (u mask val : Nat) : Prop :=
  laneRuns s u = true ∧ s.host.fi = none ∧ (s.lan u).rpt = none ∧ (s.lan u).slots = none ∧ (s.lan u).late = none ∧ (s.lan u).mts = none ∧
  (∀ p ∈ (s.lan u).stick, p = (false, false)) ∧ (s.lan u).r.act0 = false ∧ (s.lan u).r.act1 = false ∧ (s.lan u).r.pc + 1 < progSize (joined s u) ∧
  illegal (joined s u) (progWord (joined s u) u (s.lan u).r.pc s) = false ∧ progWord (joined s u) u (s.lan u).r.pc s &&& mask = val

/-- The width of the data registers of unit u: 16 bits, or 32 in a Lagoon pair. -/
def laneW (s : State) (u : Nat) : Nat := if joined s u then 32 else 16

/-- Data register n of unit u, and its value as two's complement. -/
def laneD (s : State) (u n : Nat) : Nat := (s.lan u).r.d.getD n 0
def laneS (s : State) (u n : Nat) : Int := sx (laneW s u) (laneD s u n)

/-- The lane went on to the next address with the registers `r`, and nothing but this lane changed. -/
def laneNext (s t : State) (u : Nat) (r : LaneRegs) : Prop :=
  (t.lan u).r = { r with pc := (s.lan u).r.pc + 1 } ∧ (∀ v, v ≠ u → t.lan v = s.lan v) ∧ t.regs = s.regs ∧ onlyParts [.lane] s t

/-- The status of unit u's lane with Z and N of the value written, C and V. -/
def laneFlags (s : State) (u val : Nat) (c v : Bool) : BitVec 16 :=
  stPut (stPut (stPut (stPut (s.lan u).r.stat lsZ (val % 2 ^ laneW s u == 0)) lsN (val.testBit (laneW s u - 1))) lsC c) lsV v

/-- The value an exact result e writes: saturated under SATM, else wrapped. -/
def laneFit (s : State) (u : Nat) (e : Int) : Nat :=
  ux (laneW s u) (if stBit (s.lan u).r.stat lsSatm then (satF (laneW s u) e).1 else e)

/-- The registers after an exact arithmetic result e with carry c. -/
def laneArith (s : State) (u d : Nat) (e : Int) (c : Bool) : LaneRegs :=
  { (s.lan u).r with d := (s.lan u).r.d.set d (laneFit s u e % 2 ^ laneW s u), stat := laneFlags s u (laneFit s u e) c (satF (laneW s u) e).2 }

/-- The registers after a logical result v. -/
def laneLogic (s : State) (u d v : Nat) : LaneRegs :=
  { (s.lan u).r with d := (s.lan u).r.d.set d (v % 2 ^ laneW s u), stat := laneFlags s u v false false }

/-- The registers with Dn holding v. -/
def laneSet (s : State) (u d v : Nat) : LaneRegs := { (s.lan u).r with d := (s.lan u).r.d.set d (v % 2 ^ laneW s u) }

/-- Lane ADD, SUB, NEG, ABS, CMP, ADDI. Issued in straight line, each writes the exact result wrapped or saturated under SATM to its destination (CMP writes none), sets Z, N, C and V as stated, goes to the next word, and changes nothing but this lane. Rests on: spec/05_signal_lane_isa.md (R193, R196, R201, R202). -/
def Obligations.LaneArithmeticActs : Prop :=
  (∀ (u : UnitNo) (d a b : BitVec 3) (s : State), laneAt s u.toNat (fOp + mD + mA + mB) (opW 0x08 + fD d.toNat + fA a.toNat + fB b.toNat) →
    ∃ t, exec (.add u d a b) s = .next t ∧ laneNext s t u.toNat (laneArith s u.toNat d.toNat (laneS s u.toNat a.toNat + laneS s u.toNat b.toNat) (decide (2 ^ laneW s u.toNat ≤ laneD s u.toNat a.toNat + laneD s u.toNat b.toNat + 0)))) ∧
  (∀ (u : UnitNo) (d a b : BitVec 3) (s : State), laneAt s u.toNat (fOp + mD + mA + mB) (opW 0x09 + fD d.toNat + fA a.toNat + fB b.toNat) →
    ∃ t, exec (.sub u d a b) s = .next t ∧ laneNext s t u.toNat (laneArith s u.toNat d.toNat (laneS s u.toNat a.toNat - laneS s u.toNat b.toNat) (decide (laneD s u.toNat b.toNat ≤ laneD s u.toNat a.toNat)))) ∧
  (∀ (u : UnitNo) (d a : BitVec 3) (imm : BitVec 16) (s : State), laneAt s u.toNat (fOp + mD + mA + mImm) (opW 0x0A + fD d.toNat + fA a.toNat + imm.toNat) →
    ∃ t, exec (.addi u d a imm) s = .next t ∧ laneNext s t u.toNat (laneArith s u.toNat d.toNat (laneS s u.toNat a.toNat + imm.toInt) (decide (2 ^ laneW s u.toNat ≤ laneD s u.toNat a.toNat + ux (laneW s u.toNat) imm.toInt + 0)))) ∧
  (∀ (u : UnitNo) (d a : BitVec 3) (s : State), laneAt s u.toNat (fOp + mD + mA + mSub) (opW 0x13 + fD d.toNat + fA a.toNat) →
    ∃ t, exec (.neg u d a) s = .next t ∧ laneNext s t u.toNat (laneArith s u.toNat d.toNat (-(laneS s u.toNat a.toNat)) (decide (laneD s u.toNat a.toNat ≤ 0)))) ∧
  (∀ (u : UnitNo) (d a : BitVec 3) (s : State), laneAt s u.toNat (fOp + mD + mA + mSub) (opW 0x13 + fD d.toNat + fA a.toNat + fSub 1) →
    ∃ t, exec (.abs u d a) s = .next t ∧ laneNext s t u.toNat (laneArith s u.toNat d.toNat (if laneS s u.toNat a.toNat < 0 then -(laneS s u.toNat a.toNat) else laneS s u.toNat a.toNat) (false))) ∧
  (∀ (u : UnitNo) (a b : BitVec 3) (s : State), laneAt s u.toNat (fOp + mA + mB) (opW 0x12 + fA a.toNat + fB b.toNat) →
    ∃ t, exec (.cmp u a b) s = .next t ∧ laneNext s t u.toNat { (s.lan u.toNat).r with stat := laneFlags s u.toNat (laneFit s u.toNat (laneS s u.toNat a.toNat - laneS s u.toNat b.toNat)) (decide (laneD s u.toNat b.toNat ≤ laneD s u.toNat a.toNat)) (satF (laneW s u.toNat) (laneS s u.toNat a.toNat - laneS s u.toNat b.toNat)).2 })

/-- Lane logic, shifts, MIN and MAX. Issued in straight line, AND, OR, XOR, NOT, their immediates, SHL, SHR, SRA, MIN and MAX write their result and flags, go to the next word, and change nothing but this lane. Rests on: spec/05_signal_lane_isa.md (R197, R201, R202). -/
def Obligations.LaneLogicActs : Prop :=
  (∀ (u : UnitNo) (d a b : BitVec 3) (s : State), laneAt s u.toNat (fOp + mD + mA + mB) (opW 0x0B + fD d.toNat + fA a.toNat + fB b.toNat) →
    ∃ t, exec (.land u d a b) s = .next t ∧ laneNext s t u.toNat (laneLogic s u.toNat d.toNat (laneD s u.toNat a.toNat &&& laneD s u.toNat b.toNat))) ∧
  (∀ (u : UnitNo) (d a b : BitVec 3) (s : State), laneAt s u.toNat (fOp + mD + mA + mB) (opW 0x0C + fD d.toNat + fA a.toNat + fB b.toNat) →
    ∃ t, exec (.lor u d a b) s = .next t ∧ laneNext s t u.toNat (laneLogic s u.toNat d.toNat (laneD s u.toNat a.toNat ||| laneD s u.toNat b.toNat))) ∧
  (∀ (u : UnitNo) (d a b : BitVec 3) (s : State), laneAt s u.toNat (fOp + mD + mA + mB) (opW 0x0D + fD d.toNat + fA a.toNat + fB b.toNat) →
    ∃ t, exec (.lxor u d a b) s = .next t ∧ laneNext s t u.toNat (laneLogic s u.toNat d.toNat (laneD s u.toNat a.toNat ^^^ laneD s u.toNat b.toNat))) ∧
  (∀ (u : UnitNo) (d a : BitVec 3) (imm : BitVec 16) (s : State), laneAt s u.toNat (fOp + mD + mA + mImm) (opW 0x0E + fD d.toNat + fA a.toNat + imm.toNat) →
    ∃ t, exec (.andi u d a imm) s = .next t ∧ laneNext s t u.toNat (laneLogic s u.toNat d.toNat (laneD s u.toNat a.toNat &&& imm.toNat))) ∧
  (∀ (u : UnitNo) (d a : BitVec 3) (imm : BitVec 16) (s : State), laneAt s u.toNat (fOp + mD + mA + mImm) (opW 0x0F + fD d.toNat + fA a.toNat + imm.toNat) →
    ∃ t, exec (.ori u d a imm) s = .next t ∧ laneNext s t u.toNat (laneLogic s u.toNat d.toNat (laneD s u.toNat a.toNat ||| imm.toNat))) ∧
  (∀ (u : UnitNo) (d a : BitVec 3) (imm : BitVec 16) (s : State), laneAt s u.toNat (fOp + mD + mA + mImm) (opW 0x10 + fD d.toNat + fA a.toNat + imm.toNat) →
    ∃ t, exec (.xori u d a imm) s = .next t ∧ laneNext s t u.toNat (laneLogic s u.toNat d.toNat (laneD s u.toNat a.toNat ^^^ imm.toNat))) ∧
  (∀ (u : UnitNo) (d a : BitVec 3) (n : BitVec 5) (s : State), laneAt s u.toNat (fOp + mD + mA + mSub) (encShf d a 0 n) →
    ∃ t, exec (.shl u d a n) s = .next t ∧ laneNext s t u.toNat (laneLogic s u.toNat d.toNat (laneD s u.toNat a.toNat * 2 ^ n.toNat % 2 ^ laneW s u.toNat))) ∧
  (∀ (u : UnitNo) (d a : BitVec 3) (n : BitVec 5) (s : State), laneAt s u.toNat (fOp + mD + mA + mSub) (encShf d a 1 n) →
    ∃ t, exec (.shr u d a n) s = .next t ∧ laneNext s t u.toNat (laneLogic s u.toNat d.toNat (laneD s u.toNat a.toNat / 2 ^ n.toNat))) ∧
  (∀ (u : UnitNo) (d a : BitVec 3) (n : BitVec 5) (s : State), laneAt s u.toNat (fOp + mD + mA + mSub) (encShf d a 2 n) →
    ∃ t, exec (.sra u d a n) s = .next t ∧ laneNext s t u.toNat (laneLogic s u.toNat d.toNat (ux (laneW s u.toNat) ((laneS s u.toNat a.toNat).fdiv (2 ^ n.toNat))))) ∧
  (∀ (u : UnitNo) (d a : BitVec 3) (s : State), laneAt s u.toNat (fOp + mD + mA + mSub) (opW 0x13 + fD d.toNat + fA a.toNat + fSub 2) →
    ∃ t, exec (.lnot u d a) s = .next t ∧ laneNext s t u.toNat (laneLogic s u.toNat d.toNat (2 ^ laneW s u.toNat - 1 - laneD s u.toNat a.toNat))) ∧
  (∀ (u : UnitNo) (d a b : BitVec 3) (s : State), laneAt s u.toNat (fOp + mD + mA + mB) (opW 0x14 + fD d.toNat + fA a.toNat + fB b.toNat) →
    ∃ t, exec (.min u d a b) s = .next t ∧ laneNext s t u.toNat (laneLogic s u.toNat d.toNat (if laneS s u.toNat a.toNat ≤ laneS s u.toNat b.toNat then laneD s u.toNat a.toNat else laneD s u.toNat b.toNat))) ∧
  (∀ (u : UnitNo) (d a b : BitVec 3) (s : State), laneAt s u.toNat (fOp + mD + mA + mB) (opW 0x15 + fD d.toNat + fA a.toNat + fB b.toNat) →
    ∃ t, exec (.max u d a b) s = .next t ∧ laneNext s t u.toNat (laneLogic s u.toNat d.toNat (if laneS s u.toNat a.toNat ≤ laneS s u.toNat b.toNat then laneD s u.toNat b.toNat else laneD s u.toNat a.toNat)))

/-- The words a load of bank X or Y reads at an address: 16 bits, sign-extended, or 32. -/
def laneLd (s : State) (u : Nat) (y w : Bool) (a : Nat) : Nat :=
  let b := a % bankSize (joined s u)
  if w then lrd (joined s u) u y (b - b % 2) s + lrd (joined s u) u y (b - b % 2 + 1) s * 2 ^ 16
  else ux (laneW s u) (sx 16 (lrd (joined s u) u y b s))

/-- Memory after a store of v to bank X or Y at an address. -/
def laneSt (s : State) (u : Nat) (y w : Bool) (a v : Nat) : State :=
  let b := a % bankSize (joined s u)
  if w then lwr (joined s u) u y (b - b % 2 + 1) (v / 2 ^ 16) (lwr (joined s u) u y (b - b % 2) v s) else lwr (joined s u) u y b v s

/-- Address register n, its modify, base and length registers, and the step of a post-modify code. -/
def laneA (s : State) (u n : Nat) : Nat := (s.lan u).r.a.getD n 0
def laneB (s : State) (u n : Nat) : Nat := (s.lan u).r.b.getD n 0
def laneL (s : State) (u n : Nat) : Nat := if joined s u then (s.lan u).r.l.getD n 0 else min ((s.lan u).r.l.getD n 0) 2048
def laneStep (s : State) (u n md : Nat) (w : Bool) : Int :=
  match md with
  | 1 => if w then 2 else 1
  | 2 => if w then -2 else -1
  | 3 => (s.lan u).r.m.getD n 0
  | _ => 0

/-- The registers r with An post-modified: not at all by a step of 0, linearly with no length, around the circular buffer with one. -/
def lanePost (s : State) (u n : Nat) (st : Int) (r : LaneRegs) : LaneRegs :=
  if st = 0 then r
  else if laneL s u n = 0 then { r with a := r.a.set n (((laneA s u n : Int) + st) % (bankSize (joined s u) : Int)).toNat }
  else { r with a := r.a.set n ((laneB s u n + (((laneA s u n : Int) - laneB s u n + st) % (laneL s u n : Int)).toNat) % 4096) }

/-- An lies in its circular buffer, or has none. -/
def laneIn (s : State) (u n : Nat) : Prop := laneL s u n = 0 ∨ (laneB s u n ≤ laneA s u n ∧ laneA s u n < laneB s u n + laneL s u n)

/-- The lane went on with the registers r and stored v; nothing but this lane and that memory changed. -/
def laneStored (s t : State) (u : Nat) (r : LaneRegs) (y w : Bool) (a v : Nat) : Prop :=
  (t.lan u).r = { r with pc := (s.lan u).r.pc + 1 } ∧ (∀ k, k ≠ u → t.lan k = s.lan k) ∧ t.regs = (laneSt s u y w a v).regs ∧ onlyParts [.lane] s t

/-- Earlier results have reached every later read. -/
def laneSettled (s : State) (u : Nat) : Prop :=
  ∀ h ∈ (s.lan u).hist, h.acc = (s.lan u).r.acc ∧ h.stat = (s.lan u).r.stat ∧ h.d = (s.lan u).r.d ∧ h.late = none

/-- Lane moves, loads and stores. Issued in straight line, MOV, LDI, LDIH, LD, ST and NOP move data between registers and banks X and Y with the post-modify stated; a store changes only the words it stores to; nothing else changes. Rests on: spec/05_signal_lane_isa.md (R190, R197, R199, R200, R202). -/
def Obligations.LaneMovesAct : Prop :=
  (∀ (u : UnitNo) (s : State), laneAt s u.toNat (fOp) (opW 0x00) →
    ∃ t, exec (.nop u) s = .next t ∧ laneNext s t u.toNat (s.lan u.toNat).r) ∧
  (∀ (u : UnitNo) (d : BitVec 3) (imm : BitVec 16) (s : State), laneAt s u.toNat (fOp + mD + mImm) (opW 0x01 + fD d.toNat + imm.toNat) →
    ∃ t, exec (.ldi u d imm) s = .next t ∧ laneNext s t u.toNat (laneSet s u.toNat d.toNat (ux (laneW s u.toNat) imm.toInt))) ∧
  (∀ (u : UnitNo) (d : BitVec 3) (imm : BitVec 16) (s : State), laneAt s u.toNat (fOp + mD + mImm) (opW 0x02 + fD d.toNat + imm.toNat) →
    ∃ t, exec (.ldih u d imm) s = .next t ∧ laneNext s t u.toNat (laneSet s u.toNat d.toNat (imm.toNat * 2 ^ 16 + laneD s u.toNat d.toNat % 2 ^ 16))) ∧
  (∀ (u : UnitNo) (d a : BitVec 3) (s : State), laneAt s u.toNat (fOp + mD + mA) (opW 0x03 + fD d.toNat + fA a.toNat) →
    ∃ t, exec (.mov u d a) s = .next t ∧ laneNext s t u.toNat (laneSet s u.toNat d.toNat (laneD s u.toNat a.toNat))) ∧
  (∀ (u : UnitNo) (d : BitVec 3) (y w : Bool) (a : BitVec 12) (s : State), laneAt s u.toNat (fOp + mD + maskEa (.abs a)) (opW 0x04 + fD d.toNat + encEa y w (.abs a)) →
    ∃ t, exec (.ld u d y w (.abs a)) s = .next t ∧ laneNext s t u.toNat (laneSet s u.toNat d.toNat (laneLd s u.toNat y w a.toNat))) ∧
  (∀ (u : UnitNo) (d : BitVec 3) (y w : Bool) (n m : BitVec 2) (s : State), laneAt s u.toNat (fOp + mD + maskEa (.ind n m)) (opW 0x04 + fD d.toNat + encEa y w (.ind n m)) → laneIn s u.toNat n.toNat →
    ∃ t, exec (.ld u d y w (.ind n m)) s = .next t ∧ laneNext s t u.toNat (lanePost s u.toNat n.toNat (laneStep s u.toNat n.toNat m.toNat w) (laneSet s u.toNat d.toNat (laneLd s u.toNat y w (laneA s u.toNat n.toNat))))) ∧
  (∀ (u : UnitNo) (a : BitVec 3) (y w : Bool) (p : BitVec 12) (s : State), laneAt s u.toNat (fOp + mD + maskEa (.abs p)) (opW 0x05 + fD a.toNat + encEa y w (.abs p)) →
    ∃ t, exec (.st u a y w (.abs p)) s = .next t ∧ laneStored s t u.toNat (s.lan u.toNat).r y w p.toNat (laneD s u.toNat a.toNat)) ∧
  (∀ (u : UnitNo) (a : BitVec 3) (y w : Bool) (n m : BitVec 2) (s : State), laneAt s u.toNat (fOp + mD + maskEa (.ind n m)) (opW 0x05 + fD a.toNat + encEa y w (.ind n m)) → laneIn s u.toNat n.toNat →
    ∃ t, exec (.st u a y w (.ind n m)) s = .next t ∧ laneStored s t u.toNat (lanePost s u.toNat n.toNat (laneStep s u.toNat n.toNat m.toNat w) (s.lan u.toNat).r) y w (laneA s u.toNat n.toNat) (laneD s u.toNat a.toNat)) ∧
  (∀ (j y : Bool) (u a v : Nat) (s : State), lrd j u y a (lwr j u y a v s) = v % 2 ^ 16 ∧ regsOnly (fun p => p = (dataAt j u y a).1) s (lwr j u y a v s) ∧
    rd (lwr j u y a v s) (dataAt j u y a).1 = withField (rd s (dataAt j u y a).1) ⟨16 * (dataAt j u y a).2 + 15, 16 * (dataAt j u y a).2⟩ v)

/-- The width of the accumulator, 40 bits or 56 in a Lagoon pair, its value after a write of e, and the sticky V40 and G the write sets. -/
def laneAccW (s : State) (u : Nat) : Nat := if joined s u then 56 else 40
def laneAccV (s : State) (u : Nat) (e : Int) : Int :=
  if (satF (laneAccW s u) e).2 then (if stBit (s.lan u).r.stat lsSatm then (satF (laneAccW s u) e).1 else sx (laneAccW s u) (ux (laneAccW s u) e)) else e
def laneAcc (s : State) (u : Nat) (e : Int) : LaneRegs := { (s.lan u).r with acc := laneAccV s u e }
def laneSticky (s t : State) (u : Nat) (e : Int) : Prop :=
  (t.lan u).stick.head? = some ((satF (laneAccW s u) e).2, (satF (laneAccW s u - 8) (laneAccV s u e)).2)

/-- The product of Da and Db: 16 bits of Db, the low or the high half in a Lagoon pair; doubled for signed fractions. -/
def laneProd (s : State) (u a b : Nat) (ua ub hb : Bool) : Int :=
  let h := if joined s u then (if hb then laneD s u b / 2 ^ 16 else laneD s u b % 2 ^ 16) else laneD s u b
  (if ua then (laneD s u a : Int) else laneS s u a) * (if ub then (h : Int) else sx 16 h) * (if !ua && !ub && stBit (s.lan u).r.stat lsFrac then 2 else 1)

/-- The word a parallel fetch loads, and the registers after one fetch and after both. -/
def laneWord (s : State) (u : Nat) (y : Bool) (a : Nat) : Nat :=
  let b := a % bankSize (joined s u)
  if joined s u then lrd (joined s u) u y (b - b % 2) s + lrd (joined s u) u y (b - b % 2 + 1) s * 2 ^ 16 else lrd (joined s u) u y b s
def laneFetch (s : State) (u : Nat) (on y : Bool) (n md d : Nat) (r : LaneRegs) : LaneRegs :=
  if on then lanePost s u n (laneStep s u n md (joined s u)) { r with d := r.d.set d (laneWord s u y (laneA s u n) % 2 ^ laneW s u) } else r
def laneFetches (s : State) (u : Nat) (f : Fetch) (r : LaneRegs) : LaneRegs :=
  laneFetch s u f.fy true (2 + f.ya.toNat) f.ym.toNat f.dy.toNat (laneFetch s u f.fx false f.xa.toNat f.xm.toNat f.dx.toNat r)
def laneFetchIn (s : State) (u : Nat) (f : Fetch) : Prop := (f.fx = true → laneIn s u f.xa.toNat) ∧ (f.fy = true → laneIn s u (2 + f.ya.toNat))

/-- Lane MAC, MSU, MPY, FETCH, NRM, ACS, QSTEP. Issued in straight line with earlier results settled, each leaves the accumulator, sticky flags and registers stated, after its parallel fetches; nothing but this lane changes. Rests on: spec/05_signal_lane_isa.md (R194, R195, R203, R204, R205, R206); spec/06_signal_lane_pipeline.md (R225). -/
def Obligations.LaneMultiplyActs : Prop :=
  (∀ (u : UnitNo) (f : Fetch) (a b : BitVec 3) (ua ub hb : Bool) (s : State), laneAt s u.toNat (fOp + mMul) (opW 0x20 + encMul f a b ua ub hb) → laneFetchIn s u.toNat f →
    ∃ t, exec (.mac u f a b ua ub hb) s = .next t ∧ laneNext s t u.toNat (laneFetches s u.toNat f (laneAcc s u.toNat ((s.lan u.toNat).r.acc + laneProd s u.toNat a.toNat b.toNat ua ub hb))) ∧ laneSticky s t u.toNat ((s.lan u.toNat).r.acc + laneProd s u.toNat a.toNat b.toNat ua ub hb)) ∧
  (∀ (u : UnitNo) (f : Fetch) (a b : BitVec 3) (ua ub hb : Bool) (s : State), laneAt s u.toNat (fOp + mMul) (opW 0x21 + encMul f a b ua ub hb) → laneFetchIn s u.toNat f →
    ∃ t, exec (.msu u f a b ua ub hb) s = .next t ∧ laneNext s t u.toNat (laneFetches s u.toNat f (laneAcc s u.toNat ((s.lan u.toNat).r.acc - laneProd s u.toNat a.toNat b.toNat ua ub hb))) ∧ laneSticky s t u.toNat ((s.lan u.toNat).r.acc - laneProd s u.toNat a.toNat b.toNat ua ub hb)) ∧
  (∀ (u : UnitNo) (f : Fetch) (a b : BitVec 3) (ua ub hb : Bool) (s : State), laneAt s u.toNat (fOp + mMul) (opW 0x22 + encMul f a b ua ub hb) → laneFetchIn s u.toNat f →
    ∃ t, exec (.mpy u f a b ua ub hb) s = .next t ∧ laneNext s t u.toNat (laneFetches s u.toNat f (laneAcc s u.toNat (laneProd s u.toNat a.toNat b.toNat ua ub hb))) ∧ laneSticky s t u.toNat (laneProd s u.toNat a.toNat b.toNat ua ub hb)) ∧
  (∀ (u : UnitNo) (f : Fetch) (s : State), laneAt s u.toNat (fOp + mFetch) (opW 0x23 + encFetch f) → laneFetchIn s u.toNat f →
    ∃ t, exec (.fetch u f) s = .next t ∧ laneNext s t u.toNat (laneFetches s u.toNat f (s.lan u.toNat).r)) ∧
  (∀ (u : UnitNo) (d a b c : BitVec 3) (neg mx fx xa : Bool) (xm : BitVec 2) (dx : BitVec 3) (bm c0 c1 : Int) (sel : Bool) (v : Nat) (s : State),
    laneAt s u.toNat (fOp + 0x03FFFFE0) (opW 0x24 + fD d.toNat + fA a.toNat + fB b.toNat + c.toNat * 2 ^ 14 + bit1 neg 13 + bit1 mx 12 + bit1 fx 11 + bit1 xa 10 + xm.toNat * 2 ^ 8 + dx.toNat * 2 ^ 5) →
    (fx = true → laneIn s u.toNat xa.toNat) → bm = (if neg then -(laneS s u.toNat c.toNat) else laneS s u.toNat c.toNat) → c0 = sat (laneW s u.toNat) (laneS s u.toNat a.toNat + bm) → c1 = sat (laneW s u.toNat) (laneS s u.toNat b.toNat - bm) →
    sel = (if mx then decide (c0 < c1) else decide (c1 < c0)) → v = ux (laneW s u.toNat) (if sel then c1 else c0) →
    ∃ t, exec (.acs u d a b c neg mx fx xa xm dx) s = .next t ∧ laneNext s t u.toNat (laneFetch s u.toNat fx false xa.toNat xm.toNat dx.toNat
      { (s.lan u.toNat).r with d := (s.lan u.toNat).r.d.set d.toNat (v % 2 ^ laneW s u.toNat), stat := laneFlags s u.toNat v sel false, tr := ((s.lan u.toNat).r.tr <<< 1) ||| BitVec.ofNat 32 sel.toNat })) ∧
  (∀ (u : UnitNo) (d : BitVec 3) (s : State), laneAt s u.toNat (fOp + mD) (opW 0x16 + fD d.toNat) → (s.lan u.toNat).r.acc = 0 →
    ∃ t, exec (.nrm u d) s = .next t ∧ laneNext s t u.toNat (laneSet s u.toNat d.toNat (laneD s u.toNat d.toNat))) ∧
  (∀ (u : UnitNo) (d : BitVec 3) (n y : Int) (s : State), laneAt s u.toNat (fOp + mD) (opW 0x16 + fD d.toNat) → (s.lan u.toNat).r.acc ≠ 0 →
    (if joined s u.toNat then nrmShift (s.lan u.toNat).r.acc 47 56 (-8) else nrmShift (s.lan u.toNat).r.acc 31 40 (-8)) = (n, y) →
    ∃ t, exec (.nrm u d) s = .next t ∧ laneNext s t u.toNat { laneSet s u.toNat d.toNat (ux (laneW s u.toNat) (sat (laneW s u.toNat) (laneS s u.toNat d.toNat - n))) with acc := y } ∧
      (t.lan u.toNat).late = some (d.toNat, laneD s u.toNat d.toNat)) ∧
  (∀ (u : UnitNo) (d a : BitVec 3) (q : Int) (s : State), laneAt s u.toNat (fOp + mD + mA) (opW 0x17 + fD d.toNat + fA a.toNat) →
    q = (if 0 ≤ (s.lan u.toNat).r.acc then (s.lan u.toNat).r.acc - laneS s u.toNat a.toNat * 2 ^ 15 else (s.lan u.toNat).r.acc + laneS s u.toNat a.toNat * 2 ^ 15) →
    ∃ t, exec (.qstep u d a) s = .next t ∧ laneNext s t u.toNat { laneSet s u.toNat d.toNat (laneD s u.toNat d.toNat * 2 + (if 0 ≤ q then 1 else 0)) with acc := sx 40 (ux 40 (q * 2)) } ∧
      (t.lan u.toNat).late = some (d.toNat, laneD s u.toNat d.toNat))

/-- Lane accumulator moves and operations. Issued in straight line with earlier results settled, MVA in its three modes and CLRA, NEGA, ABSA, ADDA, SUBA, SHLA and SHRA leave the accumulator or data register and flags stated; nothing but this lane changes. Rests on: spec/05_signal_lane_isa.md (R195, R198, R207). -/
def Obligations.LaneAccumulatorActs : Prop :=
  (∀ (u : UnitNo) (s : State), laneAt s u.toNat (fOp + mAccSub) (encAcc 0 0 0) →
    ∃ t, exec (.clra u) s = .next t ∧ laneNext s t u.toNat { (s.lan u.toNat).r with acc := 0 }) ∧
  (∀ (u : UnitNo) (a : BitVec 3) (s : State), laneAt s u.toNat (fOp + mD + mAccSub) (encAcc a.toNat 1 0) →
    ∃ t, exec (.adda u a) s = .next t ∧ laneNext s t u.toNat (laneAcc s u.toNat ((s.lan u.toNat).r.acc + laneS s u.toNat a.toNat * 2 ^ 16)) ∧ laneSticky s t u.toNat ((s.lan u.toNat).r.acc + laneS s u.toNat a.toNat * 2 ^ 16)) ∧
  (∀ (u : UnitNo) (a : BitVec 3) (s : State), laneAt s u.toNat (fOp + mD + mAccSub) (encAcc a.toNat 2 0) →
    ∃ t, exec (.suba u a) s = .next t ∧ laneNext s t u.toNat (laneAcc s u.toNat ((s.lan u.toNat).r.acc - laneS s u.toNat a.toNat * 2 ^ 16)) ∧ laneSticky s t u.toNat ((s.lan u.toNat).r.acc - laneS s u.toNat a.toNat * 2 ^ 16)) ∧
  (∀ (u : UnitNo) (s : State), laneAt s u.toNat (fOp + mAccSub) (encAcc 0 3 0) →
    ∃ t, exec (.nega u) s = .next t ∧ laneNext s t u.toNat (laneAcc s u.toNat (-(s.lan u.toNat).r.acc)) ∧ laneSticky s t u.toNat (-(s.lan u.toNat).r.acc)) ∧
  (∀ (u : UnitNo) (s : State), laneAt s u.toNat (fOp + mAccSub) (encAcc 0 4 0) →
    ∃ t, exec (.absa u) s = .next t ∧ laneNext s t u.toNat (laneAcc s u.toNat (if (s.lan u.toNat).r.acc < 0 then -(s.lan u.toNat).r.acc else (s.lan u.toNat).r.acc)) ∧ laneSticky s t u.toNat (if (s.lan u.toNat).r.acc < 0 then -(s.lan u.toNat).r.acc else (s.lan u.toNat).r.acc)) ∧
  (∀ (u : UnitNo) (n : BitVec 5) (s : State), laneAt s u.toNat (fOp + mAccSub + mAccN) (encAcc 0 5 n.toNat) →
    ∃ t, exec (.shla u n) s = .next t ∧ laneNext s t u.toNat (laneAcc s u.toNat ((s.lan u.toNat).r.acc * 2 ^ n.toNat)) ∧ laneSticky s t u.toNat ((s.lan u.toNat).r.acc * 2 ^ n.toNat)) ∧
  (∀ (u : UnitNo) (n : BitVec 5) (s : State), laneAt s u.toNat (fOp + mAccSub + mAccN) (encAcc 0 6 n.toNat) →
    ∃ t, exec (.shra u n) s = .next t ∧ laneNext s t u.toNat (laneAcc s u.toNat ((s.lan u.toNat).r.acc.fdiv (2 ^ n.toNat))) ∧ laneSticky s t u.toNat ((s.lan u.toNat).r.acc.fdiv (2 ^ n.toNat))) ∧
  (∀ (u : UnitNo) (d : BitVec 3) (s : State), laneAt s u.toNat (fOp + mD + 0x600000) (encMva d 0) → laneSettled s u.toNat →
    ∃ t, exec (.mvaH u d) s = .next t ∧ laneNext s t u.toNat (laneArith s u.toNat d.toNat (((s.lan u.toNat).r.acc + 2 ^ 15).fdiv (2 ^ 16)) false)) ∧
  (∀ (u : UnitNo) (d : BitVec 3) (s : State), laneAt s u.toNat (fOp + mD + 0x600000) (encMva d 1) → laneSettled s u.toNat →
    ∃ t, exec (.mvaT u d) s = .next t ∧ laneNext s t u.toNat (laneArith s u.toNat d.toNat ((s.lan u.toNat).r.acc.fdiv (2 ^ 16)) false)) ∧
  (∀ (u : UnitNo) (d : BitVec 3) (s : State), laneAt s u.toNat (fOp + mD + 0x600000) (encMva d 2) → laneSettled s u.toNat →
    ∃ t, exec (.mvaL u d) s = .next t ∧ laneNext s t u.toNat (laneLogic s u.toNat d.toNat (ux 16 (s.lan u.toNat).r.acc)))

/-- Condition c of Table 5.7 on the lane's status and accumulator. -/
def laneCond (s : State) (u c : Nat) : Bool :=
  let t := (s.lan u).r.stat
  match c with
  | 0 => true
  | 1 => stBit t lsZ
  | 2 => !stBit t lsZ
  | 3 => stBit t lsN != stBit t lsV
  | 4 => !(stBit t lsN != stBit t lsV)
  | 5 => !stBit t lsZ && !(stBit t lsN != stBit t lsV)
  | 6 => stBit t lsZ || (stBit t lsN != stBit t lsV)
  | 7 => stBit t lsC
  | 8 => !stBit t lsC
  | 9 => stBit t lsV
  | 10 => !stBit t lsV
  | 11 => (s.lan u).r.acc == 0
  | 12 => decide ((s.lan u).r.acc < 0)
  | 13 => stBit t lsPb
  | 14 => !stBit t lsPb
  | _ => false

/-- The lane went on to address p with the registers r, the repetition n and the delay slots a; nothing but this lane changed. -/
def laneFlow (s t : State) (u p : Nat) (n : Option Nat) (a : Option (Nat × After)) (r : LaneRegs) : Prop :=
  (t.lan u).r = { r with pc := p } ∧ (t.lan u).rpt = n ∧ (t.lan u).slots = a ∧ (∀ v, v ≠ u → t.lan v = s.lan v) ∧ t.regs = s.regs ∧ onlyParts [.lane] s t

/-- Lane control flow. BR, CALL, RET, END, RPT and LOOP: the next address, delay slots, repetition and loop registers each leaves; nothing but this lane changes. Rests on: spec/05_signal_lane_isa.md (R208 to R213); spec/06_signal_lane_pipeline.md (R228, R229). -/
def Obligations.LaneControlActs : Prop :=
  (∀ (u : UnitNo) (c : BitVec 4) (q : BitVec 13) (s : State), laneAt s u.toNat (fOp + 0x3C01FFF) (encB 0x30 c q.toNat) → laneSettled s u.toNat → laneCond s u.toNat c.toNat = true →
    ∃ t, exec (.br u c q) s = .next t ∧ laneFlow s t u.toNat ((s.lan u.toNat).r.pc + 1) none (some (2, .jump (q.toNat % progSize (joined s u.toNat)))) (s.lan u.toNat).r) ∧
  (∀ (u : UnitNo) (c : BitVec 4) (q : BitVec 13) (s : State), laneAt s u.toNat (fOp + 0x3C01FFF) (encB 0x30 c q.toNat) → laneSettled s u.toNat → laneCond s u.toNat c.toNat = false →
    ∃ t, exec (.br u c q) s = .next t ∧ laneFlow s t u.toNat ((s.lan u.toNat).r.pc + 1) none (some (2, .jump ((s.lan u.toNat).r.pc + 3))) (s.lan u.toNat).r) ∧
  (∀ (u : UnitNo) (c : BitVec 4) (q : BitVec 13) (s : State), laneAt s u.toNat (fOp + 0x3C01FFF) (encB 0x31 c q.toNat) → laneSettled s u.toNat → laneCond s u.toNat c.toNat = true → (s.lan u.toNat).r.stk.length < 4 →
    ∃ t, exec (.call u c q) s = .next t ∧ laneFlow s t u.toNat ((s.lan u.toNat).r.pc + 1) none (some (2, .jump (q.toNat % progSize (joined s u.toNat)))) { (s.lan u.toNat).r with stk := ((s.lan u.toNat).r.pc + 3) % 2 ^ 13 :: (s.lan u.toNat).r.stk }) ∧
  (∀ (u : UnitNo) (c : BitVec 4) (q : BitVec 13) (s : State), laneAt s u.toNat (fOp + 0x3C01FFF) (encB 0x31 c q.toNat) → laneSettled s u.toNat → laneCond s u.toNat c.toNat = false →
    ∃ t, exec (.call u c q) s = .next t ∧ laneFlow s t u.toNat ((s.lan u.toNat).r.pc + 1) none (some (2, .jump ((s.lan u.toNat).r.pc + 3))) (s.lan u.toNat).r) ∧
  (∀ (u : UnitNo) (c : BitVec 4) (p : Nat) (l : List Nat) (s : State), laneAt s u.toNat (fOp + 0x3C00000) (encB 0x32 c 0) → laneSettled s u.toNat → laneCond s u.toNat c.toNat = true → (s.lan u.toNat).r.stk = p :: l →
    ∃ t, exec (.ret u c) s = .next t ∧ laneFlow s t u.toNat ((s.lan u.toNat).r.pc + 1) none (some (2, .jump p)) { (s.lan u.toNat).r with stk := l }) ∧
  (∀ (u : UnitNo) (c : BitVec 4) (s : State), laneAt s u.toNat (fOp + 0x3C00000) (encB 0x32 c 0) → laneSettled s u.toNat → laneCond s u.toNat c.toNat = false →
    ∃ t, exec (.ret u c) s = .next t ∧ laneFlow s t u.toNat ((s.lan u.toNat).r.pc + 1) none (some (2, .jump ((s.lan u.toNat).r.pc + 3))) (s.lan u.toNat).r) ∧
  (∀ (u : UnitNo) (c : BitVec 10) (s : State), laneAt s u.toNat (fOp + 0x20003FF) (opW 0x33 + c.toNat) →
    ∃ t, exec (.rpt u (.imm c)) s = .next t ∧ laneFlow s t u.toNat ((s.lan u.toNat).r.pc + 1) (some (c.toNat + 1)) none (s.lan u.toNat).r) ∧
  (∀ (u : UnitNo) (d : BitVec 3) (s : State), laneAt s u.toNat (fOp + 0x3C00000) (opW 0x33 + 2 ^ 25 + d.toNat * 2 ^ 22) → laneSettled s u.toNat → laneD s u.toNat d.toNat = 0 → (s.lan u.toNat).r.pc + 2 < progSize (joined s u.toNat) →
    ∃ t, exec (.rpt u (.reg d)) s = .next t ∧ laneFlow s t u.toNat ((s.lan u.toNat).r.pc + 2) none none (s.lan u.toNat).r) ∧
  (∀ (u : UnitNo) (d : BitVec 3) (m : Nat) (s : State), laneAt s u.toNat (fOp + 0x3C00000) (opW 0x33 + 2 ^ 25 + d.toNat * 2 ^ 22) → laneSettled s u.toNat → laneD s u.toNat d.toNat ≠ 0 → m = (if reservedUnit s u.toNat then (s.lan u.toNat).holdoff else 1024) →
    ∃ t, exec (.rpt u (.reg d)) s = .next t ∧ laneFlow s t u.toNat ((s.lan u.toNat).r.pc + 1) (some (min (laneD s u.toNat d.toNat) m)) none { (s.lan u.toNat).r with stat := if m < laneD s u.toNat d.toNat then stPut (s.lan u.toNat).r.stat lsClamp true else (s.lan u.toNat).r.stat }) ∧
  (∀ (u : UnitNo) (c : BitVec 12) (e : BitVec 13) (s : State), laneAt s u.toNat (fOp + 0x3FFFFFF) (opW 0x34 + c.toNat * 2 ^ 13 + e.toNat) → c.toNat ≠ 0 → (s.lan u.toNat).r.pc + 1 ≤ e.toNat → e.toNat < progSize (joined s u.toNat) →
    ∃ t, exec (.loop u (.imm c) e) s = .next t ∧ laneFlow s t u.toNat ((s.lan u.toNat).r.pc + 1) none none { (s.lan u.toNat).r with act0 := true } ∧ (t.lan u.toNat).lc0 = c.toNat ∧ (t.lan u.toNat).ls0 = (s.lan u.toNat).r.pc + 1 ∧ (t.lan u.toNat).le0 = e.toNat) ∧
  (∀ (u : UnitNo) (c : BitVec 12) (e : BitVec 13) (s : State), laneAt s u.toNat (fOp + 0x3FFFFFF) (opW 0x34 + c.toNat * 2 ^ 13 + e.toNat) → c.toNat = 0 → (s.lan u.toNat).r.pc + 1 ≤ e.toNat → e.toNat + 1 < progSize (joined s u.toNat) →
    ∃ t, exec (.loop u (.imm c) e) s = .next t ∧ laneFlow s t u.toNat (e.toNat + 1) none none (s.lan u.toNat).r) ∧
  (∀ (u : UnitNo) (d : BitVec 3) (e : BitVec 13) (s : State), laneAt s u.toNat (fOp + 0x3C01FFF) (opW 0x34 + 2 ^ 25 + d.toNat * 2 ^ 22 + e.toNat) → laneSettled s u.toNat → laneD s u.toNat d.toNat % 2 ^ 16 ≠ 0 → (s.lan u.toNat).r.pc + 1 ≤ e.toNat → e.toNat < progSize (joined s u.toNat) →
    ∃ t, exec (.loop u (.reg d) e) s = .next t ∧ laneFlow s t u.toNat ((s.lan u.toNat).r.pc + 1) none none { (s.lan u.toNat).r with act0 := true } ∧ (t.lan u.toNat).lc0 = laneD s u.toNat d.toNat % 2 ^ 16 ∧ (t.lan u.toNat).ls0 = (s.lan u.toNat).r.pc + 1 ∧ (t.lan u.toNat).le0 = e.toNat) ∧
  (∀ (u : UnitNo) (d : BitVec 3) (e : BitVec 13) (s : State), laneAt s u.toNat (fOp + 0x3C01FFF) (opW 0x34 + 2 ^ 25 + d.toNat * 2 ^ 22 + e.toNat) → laneSettled s u.toNat → laneD s u.toNat d.toNat % 2 ^ 16 = 0 → (s.lan u.toNat).r.pc + 1 ≤ e.toNat → e.toNat + 1 < progSize (joined s u.toNat) →
    ∃ t, exec (.loop u (.reg d) e) s = .next t ∧ laneFlow s t u.toNat (e.toNat + 1) none none (s.lan u.toNat).r) ∧
  (∀ (u : UnitNo) (s : State), laneAt s u.toNat (fOp) (opW 0x38) →
    ∃ t, exec (.laneEnd u) s = .next t ∧ laneFlow s t u.toNat ((s.lan u.toNat).r.pc + 1) none (some (2, .fin)) (s.lan u.toNat).r)

/-- Special register k of Table 5.8 as MFS reads it once earlier results have settled. -/
def laneSpec (s : State) (u k : Nat) : Nat :=
  let r := (s.lan u).r
  if k < 4 then r.a.getD k 0
  else if k < 8 then ux (laneW s u) (r.m.getD (k - 4) 0)
  else if k < 12 then r.b.getD (k - 8) 0
  else if k < 16 then r.l.getD (k - 12) 0
  else match k with
    | 16 => r.stat.toNat
    | 17 => r.tr.toNat % 2 ^ 16
    | 18 => r.tr.toNat / 2 ^ 16
    | 19 => ux 16 r.acc
    | 20 => ux (laneW s u) (r.acc.fdiv (2 ^ 16))
    | 21 => ux (laneW s u) (sx 8 (ux 8 (r.acc.fdiv (if joined s u then 2 ^ 48 else 2 ^ 32))))
    | 22 => (s.lan u).lc0
    | 23 => (s.lan u).lc1
    | _ => r.stk.length

/-- The registers after MTS wrote v to special register k below LC0. -/
def laneMts (s : State) (u k v : Nat) : LaneRegs :=
  let r := (s.lan u).r
  if k < 4 then { r with a := r.a.set k (v % 2 ^ 12) }
  else if k < 8 then { r with m := r.m.set (k - 4) (sx 12 (v % 2 ^ 12)) }
  else if k < 12 then { r with b := r.b.set (k - 8) (v % 2 ^ 12) }
  else if k < 16 then { r with l := r.l.set (k - 12) (v % 2 ^ 12) }
  else match k with
    | 16 => { r with stat := (BitVec.ofNat 16 v &&& 0xC1EF#16) ||| (r.stat &&& 0x0200#16) }
    | 17 => { r with tr := withField r.tr ⟨15, 0⟩ v }
    | 18 => { r with tr := withField r.tr ⟨31, 16⟩ v }
    | 19 => { r with acc := r.acc - r.acc % 2 ^ 16 + (v % 2 ^ 16 : Nat) }
    | 20 => { r with acc := sx (laneW s u) v * 2 ^ 16 }
    | 21 => { r with acc := sx 8 v * 2 ^ (if joined s u then 48 else 32) + r.acc % 2 ^ (if joined s u then 48 else 32) }
    | _ => r

/-- What the ports of Table 6.3 without a side effect read as: the angle clock, the network variables, the tick count and the parameters. -/
def lanePort (s : State) (u p : Nat) : Option Nat :=
  if 8 ≤ p ∧ p < 10 then some (part (s.ang.key / 2 ^ 16) (p - 8))
  else if 16 ≤ p ∧ p < 32 then some (rdN s (R.SD_DATA (p - 16)) / 2 ^ 16)
  else if p = 32 then some (rdN s R.TICK_COUNT % 2 ^ 16)
  else if 56 ≤ p then some (fget s (R.LANE_PARAM u (p - 56)) R.LANE_PARAM_WORD)
  else none

/-- Lane special registers and ports. MTS, MFS, IN and OUT: the special register or port value moved; nothing but this lane changes but for what the port is. Rests on: spec/05_signal_lane_isa.md (R193, R215); spec/06_signal_lane_pipeline.md (R225, R237). -/
def Obligations.LanePortsAct : Prop :=
  (∀ (u : UnitNo) (k : BitVec 5) (a : BitVec 3) (s : State), laneAt s u.toNat (fOp + mD + 0x7C0000) (opW 0x06 + fD a.toNat + k.toNat * 2 ^ 18) → k.toNat < 22 →
    ∃ t, exec (.mts u k a) s = .next t ∧ laneNext s t u.toNat (laneMts s u.toNat k.toNat (laneD s u.toNat a.toNat))) ∧
  (∀ (u : UnitNo) (a : BitVec 3) (s : State), laneAt s u.toNat (fOp + mD + 0x7C0000) (opW 0x06 + fD a.toNat + 22 * 2 ^ 18) →
    ∃ t, exec (.mts u 22 a) s = .next t ∧ laneNext s t u.toNat (s.lan u.toNat).r ∧ (t.lan u.toNat).lc0 = max 1 (laneD s u.toNat a.toNat % 2 ^ 16)) ∧
  (∀ (u : UnitNo) (a : BitVec 3) (s : State), laneAt s u.toNat (fOp + mD + 0x7C0000) (opW 0x06 + fD a.toNat + 23 * 2 ^ 18) →
    ∃ t, exec (.mts u 23 a) s = .next t ∧ laneNext s t u.toNat (s.lan u.toNat).r ∧ (t.lan u.toNat).lc1 = max 1 (laneD s u.toNat a.toNat % 2 ^ 16)) ∧
  (∀ (u : UnitNo) (d : BitVec 3) (k : BitVec 5) (s : State), laneAt s u.toNat (fOp + mD + 0x7C0000) (opW 0x07 + fD d.toNat + k.toNat * 2 ^ 18) → laneSettled s u.toNat →
    ∃ t, exec (.mfs u d k) s = .next t ∧ laneNext s t u.toNat (laneSet s u.toNat d.toNat (laneSpec s u.toNat k.toNat))) ∧
  (∀ (u : UnitNo) (d : BitVec 3) (p : BitVec 6) (v : Nat) (s : State), laneAt s u.toNat (fOp + 0x3FE0000) (opW 0x35 + fD d.toNat + p.toNat * 2 ^ 17) → joined s u.toNat = false → lanePort s u.toNat p.toNat = some v →
    ∃ t, exec (.portIn u d p) s = .next t ∧ laneNext s t u.toNat (laneSet s u.toNat d.toNat v)) ∧
  (∀ (u : UnitNo) (d : BitVec 3) (p : BitVec 6) (v : Nat) (s : State), laneAt s u.toNat (fOp + 0x3FE0000) (opW 0x35 + fD d.toNat + p.toNat * 2 ^ 17) → joined s u.toNat = true → lanePort s u.toNat p.toNat = some v →
    ∃ t, exec (.portIn u d p) s = .next t ∧ (∃ h < 2 ^ 16, (t.lan u.toNat).r = { laneSet s u.toNat d.toNat (h * 2 ^ 16 + v) with pc := (s.lan u.toNat).r.pc + 1 }) ∧
      t.regs = s.regs ∧ onlyParts [.lane, .free] s t) ∧
  (∀ (u : UnitNo) (d : BitVec 3) (n : Nat) (s : State), laneAt s u.toNat (fOp + 0x3FE0000) (opW 0x35 + fD d.toNat + 0 * 2 ^ 17) → joined s u.toNat = false →
    taskAxis s u.toNat ((s.lan u.toNat).cur.getD 0) = some n →
    ∃ t, exec (.portIn u d 0) s = .next t ∧ laneNext s t u.toNat (laneSet s u.toNat d.toNat (part (ux 64 (s.fb n).pos) 0)) ∧ (t.lan u.toNat).lat0 = ux 64 (s.fb n).pos) ∧
  (∀ (u : UnitNo) (p : BitVec 6) (a : BitVec 3) (s : State), laneAt s u.toNat (fOp + 0x3FE0000) (opW 0x36 + fD a.toNat + p.toNat * 2 ^ 17) → 48 ≤ p.toNat → p.toNat < 56 →
    ∃ t, exec (.portOut u p a) s = .next t ∧ (t.lan u.toNat).r = { (s.lan u.toNat).r with pc := (s.lan u.toNat).r.pc + 1 } ∧ rd t (R.LANE_MBOX u.toNat (p.toNat - 48)) = BitVec.ofNat 32 (laneD s u.toNat a.toNat % 2 ^ 16) ∧
      regsOnly (fun x => x = R.LANE_MBOX u.toNat (p.toNat - 48)) s t ∧ onlyParts [.lane] s t) ∧
  (∀ (u : UnitNo) (p : BitVec 6) (a : BitVec 3) (s : State), laneAt s u.toNat (fOp + 0x3FE0000) (opW 0x36 + fD a.toNat + p.toNat * 2 ^ 17) → ¬ (48 ≤ p.toNat ∧ p.toNat < 56) →
    ∃ t, exec (.portOut u p a) s = .next t ∧ laneNext s t u.toNat ((s.lan u.toNat).r))

/-- Lane posts. POST of a delay-list entry, a release and a shift: what the post hands to the scheduler or the generator; nothing else changes. Rests on: spec/05_signal_lane_isa.md (R214); spec/06_signal_lane_pipeline.md (R234). -/
def Obligations.LanePostsAct : Prop :=
  (∀ (u : UnitNo) (l : BitVec 2) (s : State), laneAt s u.toNat (fOp + 0x3C00000) (encPost 0 l.toNat) → postBusy s u.toNat = true →
    ∃ t, exec (.postEntry u l) s = .next t ∧ laneNext s t u.toNat { (s.lan u.toNat).r with stat := stPut (s.lan u.toNat).r.stat lsPb true }) ∧
  (∀ (u : UnitNo) (s : State), laneAt s u.toNat (fOp + 0x3000000) (encPost 1 0) → postBusy s u.toNat = true →
    ∃ t, exec (.postShift u) s = .next t ∧ laneNext s t u.toNat { (s.lan u.toNat).r with stat := stPut (s.lan u.toNat).r.stat lsPb true }) ∧
  (∀ (u : UnitNo) (s : State), laneAt s u.toNat (fOp + 0x3000000) (encPost 2 0) → postBusy s u.toNat = true →
    ∃ t, exec (.postRelease u) s = .next t ∧ laneNext s t u.toNat { (s.lan u.toNat).r with stat := stPut (s.lan u.toNat).r.stat lsPb true }) ∧
  (∀ (u : UnitNo) (l : BitVec 2) (f : State) (s : State), laneAt s u.toNat (fOp + 0x3C00000) (encPost 0 l.toNat) → postBusy s u.toNat = false →
    insertEnt l.toNat { key := (BitVec.ofNat 32 (laneD s u.toNat 0 % 2 ^ 16 + laneD s u.toNat 1 % 2 ^ 16 * 2 ^ 16)).toNat + (BitVec.ofNat 32 (laneD s u.toNat 2 % 2 ^ 16 + laneD s u.toNat 3 % 2 ^ 16 * 2 ^ 16)).toNat * 2 ^ 32, act := BitVec.ofNat 32 (laneD s u.toNat 4 % 2 ^ 16 + laneD s u.toNat 5 % 2 ^ 16 * 2 ^ 16), pay := BitVec.ofNat 32 (laneD s u.toNat 6 % 2 ^ 16 + laneD s u.toNat 7 % 2 ^ 16 * 2 ^ 16) } (opTime s).1 (opTime s).2 = (0, f) →
    ∃ t, exec (.postEntry u l) s = .next t ∧ (t.lan u.toNat).r = { (s.lan u.toNat).r with stat := stPut (s.lan u.toNat).r.stat lsPb false, pc := (s.lan u.toNat).r.pc + 1 } ∧ t.sch.dl = f.sch.dl ∧
      regsOnly (fun a => blockNo a ∈ [1, 2, 9, 11, 14]) s t ∧ onlyParts (sedParts.append [.coreRegion, .schDl, .schPlaced, .schHeld, .schUnit, .lane, .pairRseq, .pairRecs, .hostLog, .hostSeq, .hostSub, .hostLost, .hostFi]) s t) ∧
  (∀ (u : UnitNo) (n : Nat) (s : State), laneAt s u.toNat (fOp + 0x3000000) (encPost 1 0) → postBusy s u.toNat = false →
    taskAxis s u.toNat ((s.lan u.toNat).cur.getD 0) = some n → coupled s n = true →
    ∃ t, exec (.postShift u) s = .next t ∧ (t.lan u.toNat).r = { (s.lan u.toNat).r with stat := stPut (s.lan u.toNat).r.stat lsPb false, pc := (s.lan u.toNat).r.pc + 1 } ∧
      (t.gen n).shift.req = sx 64 (ux 64 ((s.gen n).shift.req + sx 64 ((BitVec.ofNat 32 (laneD s u.toNat 0 % 2 ^ 16 + laneD s u.toNat 1 % 2 ^ 16 * 2 ^ 16)).toNat + (BitVec.ofNat 32 (laneD s u.toNat 2 % 2 ^ 16 + laneD s u.toNat 3 % 2 ^ 16 * 2 ^ 16)).toNat * 2 ^ 32))) ∧
      regsOnly (fun a => blockNo a ∈ [1, 7, 11, 14]) s t ∧ onlyParts (sedParts.append [.coreRegion, .schUnit, .motGen, .lane, .pairRseq, .pairRecs, .hostLog, .hostSeq, .hostSub, .hostLost, .hostFi]) s t) ∧
  (∀ (u : UnitNo) (v k : Nat) (s : State), laneAt s u.toNat (fOp + 0x3000000) (encPost 2 0) → postBusy s u.toNat = false →
    findTask s ((BitVec.ofNat 32 (laneD s u.toNat 0 % 2 ^ 16 + laneD s u.toNat 1 % 2 ^ 16 * 2 ^ 16)).toNat % 256) = some (v, k) → fbit s (R.LT_STAT v k) R.LT_STAT_FAILED = false → fbit s (R.LT_STAT v k) R.LT_STAT_PENDING = false →
    ∃ t, exec (.postRelease u) s = .next t ∧ (t.lan u.toNat).r = { (s.lan u.toNat).r with stat := stPut (s.lan u.toNat).r.stat lsPb false, pc := (s.lan u.toNat).r.pc + 1 } ∧
      fbit t (R.LT_STAT v k) R.LT_STAT_PENDING = true ∧
      regsOnly (fun a => blockNo a ∈ [1, 11, 14]) s t ∧ onlyParts (sedParts.append [.coreRegion, .schReady, .schUnit, .lane, .pairRseq, .pairRecs, .hostLog, .hostSeq, .hostSub, .hostLost, .hostFi]) s t)

/-- Bridge channels: edges, dead time, reload, commit. BRIDGE_EDGE, DEAD_TIME_END, BRIDGE_RELOAD, COMMIT, SHADOW_WRITE_LAND, EDGE_PROGRAMME_LAND and SYNC_POINT: the commanded level, pins, shadows and status each leaves, and its frame. Rests on: spec/07_edges_steps_outputs.md (R252 to R260). -/
def Obligations.BridgeChannelsAct : Prop :=
  (∀ (m : BitVec 3) (s : State), running s m.toNat = true → m.toNat ∉ s.edge.wait → (cmode s m.toNat = false ∨ fbit s (R.BR_STATUS m.toNat) R.BR_STATUS_PEND = true) →
    ∃ t, exec (.bridgeReload m) s = .next t ∧ fget t (R.BR_STATUS m.toNat) R.BR_STATUS_COUNT = 0 ∧ fbit t (R.BR_STATUS m.toNat) R.BR_STATUS_PEND = false ∧
      fget t (R.BR_PERIOD m.toNat) R.BR_PERIOD_ACTIVE = max 256 (fget s (R.BR_PERIOD m.toNat) R.BR_PERIOD_PERIOD) % 65536 ∧
      (∀ c ∈ modChans m.toNat, (t.chan c).rise = fget s (R.BR_RISE m.toNat (c % 3)) R.BR_RISE_RISE ∧ (t.chan c).fall = fget s (R.BR_FALL m.toNat (c % 3)) R.BR_FALL_FALL) ∧
      regsOnly (fun a => (∃ i, a = R.BR_PERIOD i) ∨ (∃ i, a = R.BR_STATUS i) ∨ (∃ i j, a = R.BR_CH i j)) s t ∧ onlyParts [.edgeChan] s t) ∧
  (∀ (m : BitVec 3) (s : State), running s m.toNat = true → m.toNat ∉ s.edge.wait → cmode s m.toNat = true → fbit s (R.BR_STATUS m.toNat) R.BR_STATUS_PEND = false →
    ∃ t, exec (.bridgeReload m) s = .next t ∧ fget t (R.BR_STATUS m.toNat) R.BR_STATUS_COUNT = 0 ∧
      (∀ c, (t.chan c).rise = (s.chan c).rise ∧ (t.chan c).fall = (s.chan c).fall) ∧ regsOnly (fun a => (∃ i, a = R.BR_PERIOD i) ∨ (∃ i, a = R.BR_STATUS i) ∨ (∃ i j, a = R.BR_CH i j)) s t ∧ onlyParts [.edgeChan] s t) ∧
  (∀ (c : BitVec 5) (s : State), c.toNat < 24 → running s (c.toNat / 3) = true → fbit s (chReg c.toNat) R.BR_CH_ACT = true → fbit s (chReg c.toNat) R.BR_CH_HONLY = false →
    (s.chan c.toNat).rise < periodSteps s (c.toNat / 3) → (s.chan c.toNat).rise ≠ (s.chan c.toNat).fall → fbit s (chReg c.toNat) R.BR_CH_HC = false →
    ∃ t, exec (.bridgeEdge c true) s = .next t ∧ fbit t (chReg c.toNat) R.BR_CH_HC = true ∧ (t.chan c.toNat).pinL = false ∧
      (0 < deadTime s c.toNat → (t.chan c.toNat).pinH = (s.chan c.toNat).pinH) ∧ (∀ d, d ≠ c.toNat → t.chan d = s.chan d) ∧ regsOnly (fun a => (∃ i, a = R.BR_STATUS i) ∨ (∃ i j, a = R.BR_CH i j)) s t ∧ onlyParts [.edgeChan] s t) ∧
  (∀ (c : BitVec 5) (s : State), c.toNat < 24 → running s (c.toNat / 3) = true → fbit s (chReg c.toNat) R.BR_CH_ACT = true → fbit s (chReg c.toNat) R.BR_CH_HONLY = false →
    (s.chan c.toNat).fall < periodSteps s (c.toNat / 3) → fbit s (chReg c.toNat) R.BR_CH_HC = true →
    ∃ t, exec (.bridgeEdge c false) s = .next t ∧ fbit t (chReg c.toNat) R.BR_CH_HC = false ∧ (t.chan c.toNat).pinH = false ∧
      (0 < deadTime s c.toNat → (t.chan c.toNat).pinL = (s.chan c.toNat).pinL) ∧ (∀ d, d ≠ c.toNat → t.chan d = s.chan d) ∧ regsOnly (fun a => (∃ i, a = R.BR_STATUS i) ∨ (∃ i j, a = R.BR_CH i j)) s t ∧ onlyParts [.edgeChan] s t) ∧
  (∀ (c : BitVec 5) (s : State), s.edge.frozen = false → (s.chan c.toNat).dead = some true →
    ∃ t, exec (.deadTimeEnd c) s = .next t ∧ t.chan c.toNat = { s.chan c.toNat with pinH := true, dead := none } ∧ (∀ d, d ≠ c.toNat → t.chan d = s.chan d) ∧ regsOnly (fun _ => False) s t ∧ onlyParts [.edgeChan] s t) ∧
  (∀ (c : BitVec 5) (s : State), s.edge.frozen = false → (s.chan c.toNat).dead = some false →
    ∃ t, exec (.deadTimeEnd c) s = .next t ∧ t.chan c.toNat = { s.chan c.toNat with pinL := true, dead := none } ∧ (∀ d, d ≠ c.toNat → t.chan d = s.chan d) ∧ regsOnly (fun _ => False) s t ∧ onlyParts [.edgeChan] s t) ∧
  (∀ (m : BitVec 3) (count : BitVec 16) (s : State), fbit s (R.BR_CTRL m.toNat) R.BR_CTRL_EN = true → fbit s (R.BR_CTRL m.toNat) R.BR_CTRL_SYNC_EN = true → s.edge.frozen = false → m.toNat ∈ s.edge.wait →
    ∃ t, exec (.syncPoint m count) s = .next t ∧ fbit t (R.BR_STATUS m.toNat) R.BR_STATUS_RUN = true ∧ m.toNat ∉ t.edge.wait ∧
      fget t (R.BR_STATUS m.toNat) R.BR_STATUS_COUNT = 0 ∧ regsOnly (fun a => sedAny a ∨ (∃ i, a = R.BR_PERIOD i) ∨ (∃ i, a = R.BR_STATUS i) ∨ (∃ i j, a = R.BR_CH i j)) s t ∧ onlyParts (sedParts.append [.edgeChan, .edgeWait]) s t) ∧
  (∀ (m : BitVec 3) (count : BitVec 16) (s : State), fbit s (R.BR_CTRL m.toNat) R.BR_CTRL_EN = true → fbit s (R.BR_CTRL m.toNat) R.BR_CTRL_SYNC_EN = true → s.edge.frozen = false → m.toNat ∉ s.edge.wait →
    (fget s (R.BR_PERIOD m.toNat) R.BR_PERIOD_ACTIVE + 8 < count.toNat ∨ (0 < count.toNat ∧ count.toNat + 8 < fget s (R.BR_PERIOD m.toNat) R.BR_PERIOD_ACTIVE)) →
    ∃ t, exec (.syncPoint m count) s = .next t ∧ fbit t (R.BR_STATUS m.toNat) R.BR_STATUS_SYNC_CUT = true ∧ fget t (R.BR_STATUS m.toNat) R.BR_STATUS_COUNT = 0 ∧ regsOnly (fun a => sedAny a ∨ (∃ i, a = R.BR_PERIOD i) ∨ (∃ i, a = R.BR_STATUS i) ∨ (∃ i j, a = R.BR_CH i j)) s t ∧ onlyParts (sedParts.append [.edgeChan, .edgeWait]) s t) ∧
  (∀ (m : Nat) (v : Word) (l : List (Nat × Word)) (s : State), m < 8 → s.edge.fly = (R.BR_PERIOD m, v) :: l →
    ∃ t, exec .shadowWriteLand s = .next t ∧ t.edge.fly = l ∧ fget t (R.BR_PERIOD m) R.BR_PERIOD_PERIOD = v.toNat % 65536 ∧ regsOnly (fun a => (∃ i, a = R.BR_PERIOD i) ∨ (∃ i j, a = R.BR_RISE i j) ∨ (∃ i j, a = R.BR_FALL i j)) s t ∧ onlyParts [.edgeFly] s t) ∧
  (∀ (m k : Nat) (v : Word) (l : List (Nat × Word)) (s : State), m < 8 → k < 3 → s.edge.fly = (R.BR_RISE m k, v) :: l →
    ∃ t, exec .shadowWriteLand s = .next t ∧ t.edge.fly = l ∧ rd t (R.BR_RISE m k) = v &&& 0x3FFFFF#32 ∧ regsOnly (fun a => (∃ i, a = R.BR_PERIOD i) ∨ (∃ i j, a = R.BR_RISE i j) ∨ (∃ i j, a = R.BR_FALL i j)) s t ∧ onlyParts [.edgeFly] s t) ∧
  (∀ (m k : Nat) (v : Word) (l : List (Nat × Word)) (s : State), m < 8 → k < 3 → s.edge.fly = (R.BR_FALL m k, v) :: l →
    ∃ t, exec .shadowWriteLand s = .next t ∧ t.edge.fly = l ∧ rd t (R.BR_FALL m k) = v &&& 0x3FFFFF#32 ∧ regsOnly (fun a => (∃ i, a = R.BR_PERIOD i) ∨ (∃ i j, a = R.BR_RISE i j) ∨ (∃ i j, a = R.BR_FALL i j)) s t ∧ onlyParts [.edgeFly] s t) ∧
  (∀ (w : Who) (m : BitVec 3) (s : State), accepted s w (R.BR_CMD m.toNat) 1 →
    ∃ t, exec (.commit w m) s = .next t ∧ fbit t (R.BR_STATUS m.toNat) R.BR_STATUS_PEND = true ∧ t.edge.chan = s.edge.chan ∧ t.host.acc = (0, 0) ∧ regsOnly (fun a => sedAny a ∨ logAddr a ∨ (∃ i, a = R.BR_PERIOD i) ∨ (∃ i, a = R.BR_STATUS i) ∨ (∃ i j, a = R.BR_RISE i j) ∨ (∃ i j, a = R.BR_FALL i j)) s t ∧ onlyParts (sedParts.append (logParts.append [.edgeFly, .hostAcc])) s t) ∧
  (∀ (n : Axis) (b : Nat) (es : List Nat) (s : State), (s.ctx n.toNat).bridge = some b → (s.axl n.toNat).prog = some es →
    ∃ t, exec (.edgeProgrammeLand n) s = .next t ∧ (t.axl n.toNat).prog = none ∧ fbit t (R.BR_STATUS (b / 3)) R.BR_STATUS_PEND = true ∧
      (es = [] → fbit t (chReg b) R.BR_CH_OFF = true) ∧ (es ≠ [] → fbit t (chReg b) R.BR_CH_OFF = false) ∧ regsOnly (fun a => (∃ i, a = R.BR_STATUS i) ∨ (∃ i j, a = R.BR_RISE i j) ∨ (∃ i j, a = R.BR_FALL i j) ∨ (∃ i j, a = R.BR_CH i j)) s t ∧ onlyParts [.lawAx, .edgeChan] s t)

/-- Encoders, sigma-delta channels and samples. ENC_EDGE, INDEX_PULSE, SSI_FRAME_END, ENC_FLT_CLEAR, SINC3_OUTPUT, SD_FLT, SD_FLT_END, STILL_WATER_START and LOCAL_SAMPLE: the counts, samples and fault bits each leaves, and its frame. Rests on: spec/07_edges_steps_outputs.md (R269 to R278). -/
def Obligations.EncodersAndSamplesAct : Prop :=
  (∀ (j : BitVec 4) (bits : List Bool) (s : State), fbit s (R.SD_CTRL j.toNat) R.SD_CTRL_EN = true →
    ∃ t, exec (.sinc3Output j bits) s = .next t ∧ rd t (R.SD_DATA j.toNat) = sinc3 (osr s j.toNat) bits ∧ regsOnly (fun a => (∃ i, a = R.SD_DATA i)) s t ∧ onlyParts [] s t) ∧
  (∀ (j : BitVec 4) (s : State), fbit s (R.SD_STATUS j.toNat) R.SD_STATUS_FLT = false →
    ∃ t, exec (.sdFlt j) s = .next t ∧ fbit t (R.SD_STATUS j.toNat) R.SD_STATUS_FLT = true ∧ fbit t (R.SD_STATUS j.toNat) R.SD_STATUS_SDFLT = true ∧ regsOnly (fun a => sedAny a ∨ (∃ i, a = R.SD_STATUS i)) s t ∧ onlyParts sedParts s t) ∧
  (∀ (j : BitVec 4) (s : State), ∃ t, exec (.sdFltEnd j) s = .next t ∧ fbit t (R.SD_STATUS j.toNat) R.SD_STATUS_FLT = false ∧
    fbit t (R.SD_STATUS j.toNat) R.SD_STATUS_SDFLT = fbit s (R.SD_STATUS j.toNat) R.SD_STATUS_SDFLT ∧ regsOnly (fun a => (∃ i, a = R.SD_STATUS i)) s t ∧ onlyParts [] s t) ∧
  (∀ (k : BitVec 2) (a b : Bool) (s : State), encMode s k.toNat = 1 → (quadrant a b + 4 - quadrant (s.encIf k.toNat).a (s.encIf k.toNat).b) % 4 = 1 →
    ∃ t, exec (.encEdge k a b) s = .next t ∧ (t.encIf k.toNat).cnt = ux 32 ((s.encIf k.toNat).cnt + (if fbit s (R.ENC_CTRL k.toNat) R.ENC_CTRL_DIR then -1 else 1)) ∧
      (t.encIf k.toNat).a = a ∧ (t.encIf k.toNat).b = b ∧ t.regs = s.regs ∧ regsOnly (fun a => sedAny a ∨ a = R.MA_STATUS ∨ (∃ i j, a = R.STATE_TILE i j) ∨ (∃ i, a = R.AX_STATUS i) ∨ (∃ i, a = R.AX_FAULT i) ∨ (∃ i, a = R.PF_STATUS i) ∨ (∃ i j, a = R.PF_POS i j) ∨ (∃ i j, a = R.PF_VEL i j) ∨ (∃ i, a = R.PF_HOME_STATUS i) ∨ (∃ i, a = R.ENC_STATUS i)) s t ∧ onlyParts (sedParts.append [.lawAx, .motGen, .edgeEnc]) s t) ∧
  (∀ (k : BitVec 2) (a b : Bool) (s : State), encMode s k.toNat = 1 → (quadrant a b + 4 - quadrant (s.encIf k.toNat).a (s.encIf k.toNat).b) % 4 = 3 →
    ∃ t, exec (.encEdge k a b) s = .next t ∧ (t.encIf k.toNat).cnt = ux 32 ((s.encIf k.toNat).cnt + (if fbit s (R.ENC_CTRL k.toNat) R.ENC_CTRL_DIR then 1 else -1)) ∧
      (t.encIf k.toNat).a = a ∧ (t.encIf k.toNat).b = b ∧ t.regs = s.regs ∧ regsOnly (fun a => sedAny a ∨ a = R.MA_STATUS ∨ (∃ i j, a = R.STATE_TILE i j) ∨ (∃ i, a = R.AX_STATUS i) ∨ (∃ i, a = R.AX_FAULT i) ∨ (∃ i, a = R.PF_STATUS i) ∨ (∃ i j, a = R.PF_POS i j) ∨ (∃ i j, a = R.PF_VEL i j) ∨ (∃ i, a = R.PF_HOME_STATUS i) ∨ (∃ i, a = R.ENC_STATUS i)) s t ∧ onlyParts (sedParts.append [.lawAx, .motGen, .edgeEnc]) s t) ∧
  (∀ (k : BitVec 2) (a b : Bool) (s : State), encMode s k.toNat = 1 → (quadrant a b + 4 - quadrant (s.encIf k.toNat).a (s.encIf k.toNat).b) % 4 = 2 →
    ∃ t, exec (.encEdge k a b) s = .next t ∧ fbit t (R.ENC_STATUS k.toNat) R.ENC_STATUS_QERR = true ∧ fbit t (R.ENC_STATUS k.toNat) R.ENC_STATUS_FLT = true ∧
      fbit t (R.ENC_STATUS k.toNat) R.ENC_STATUS_VALID = false ∧ (t.encIf k.toNat).cnt = (s.encIf k.toNat).cnt ∧ regsOnly (fun a => sedAny a ∨ a = R.MA_STATUS ∨ (∃ i j, a = R.STATE_TILE i j) ∨ (∃ i, a = R.AX_STATUS i) ∨ (∃ i, a = R.AX_FAULT i) ∨ (∃ i, a = R.PF_STATUS i) ∨ (∃ i j, a = R.PF_POS i j) ∨ (∃ i j, a = R.PF_VEL i j) ∨ (∃ i, a = R.PF_HOME_STATUS i) ∨ (∃ i, a = R.ENC_STATUS i)) s t ∧ onlyParts (sedParts.append [.lawAx, .motGen, .edgeEnc]) s t) ∧
  (∀ (k : BitVec 2) (s : State), encMode s k.toNat = 1 → (fbit s (R.ENC_CTRL k.toNat) R.ENC_CTRL_ZGATE = true → (s.encIf k.toNat).a = true ∧ (s.encIf k.toNat).b = true) →
    ∃ t, exec (.indexPulse k) s = .next t ∧ rd t (R.ENC_INDEX k.toNat) = BitVec.ofNat 32 (s.encIf k.toNat).cnt ∧ fbit t (R.ENC_STATUS k.toNat) R.ENC_STATUS_IDX = true ∧ regsOnly (fun a => sedAny a ∨ (∃ i j, a = R.STATE_TILE i j) ∨ (∃ i, a = R.PF_STATUS i) ∨ (∃ i j, a = R.PF_STOP_POS i j) ∨ (∃ i j, a = R.PF_POS i j) ∨ (∃ i, a = R.PF_HOME_STATUS i) ∨ (∃ i, a = R.ENC_INDEX i) ∨ (∃ i, a = R.ENC_STATUS i)) s t ∧ onlyParts (sedParts.append [.coreFb, .lawAx, .motGen]) s t) ∧
  (∀ (k : BitVec 2) (data : BitVec 40) (v : Nat) (s : State), encMode s k.toNat = 2 → (s.encIf k.toNat).busy = true → (s.encIf k.toNat).ssi = none →
    v = (if fbit s (R.ENC_CTRL k.toNat) R.ENC_CTRL_GRAY then fromGray (ssiBits s k.toNat) (data.toNat % 2 ^ ssiBits s k.toNat) else data.toNat % 2 ^ ssiBits s k.toNat) →
    ∃ t, exec (.ssiFrameEnd k data false false) s = .next t ∧ (t.encIf k.toNat).cnt = v % 2 ^ 32 ∧ (t.encIf k.toNat).ssi = some v ∧
      (t.encIf k.toNat).good = min 2 ((s.encIf k.toNat).good + 1) ∧ (t.encIf k.toNat).busy = false ∧ regsOnly (fun a => sedAny a ∨ a = R.MA_STATUS ∨ (∃ i j, a = R.STATE_TILE i j) ∨ (∃ i, a = R.AX_STATUS i) ∨ (∃ i, a = R.AX_FAULT i) ∨ (∃ i, a = R.PF_STATUS i) ∨ (∃ i j, a = R.PF_POS i j) ∨ (∃ i j, a = R.PF_VEL i j) ∨ (∃ i, a = R.PF_HOME_STATUS i) ∨ (∃ i, a = R.ENC_STATUS i)) s t ∧ onlyParts (sedParts.append [.lawAx, .motGen, .edgeEnc]) s t) ∧
  (∀ (k : BitVec 2) (data : BitVec 40) (err : Bool) (s : State), encMode s k.toNat = 2 → (s.encIf k.toNat).busy = true →
    ∃ t, exec (.ssiFrameEnd k data err true) s = .next t ∧ fbit t (R.ENC_STATUS k.toNat) R.ENC_STATUS_SSIERR = true ∧ fbit t (R.ENC_STATUS k.toNat) R.ENC_STATUS_FLT = true ∧
      fbit t (R.ENC_STATUS k.toNat) R.ENC_STATUS_VALID = false ∧ (t.encIf k.toNat).good = 0 ∧ (t.encIf k.toNat).busy = false ∧ regsOnly (fun a => sedAny a ∨ a = R.MA_STATUS ∨ (∃ i j, a = R.STATE_TILE i j) ∨ (∃ i, a = R.AX_STATUS i) ∨ (∃ i, a = R.AX_FAULT i) ∨ (∃ i, a = R.PF_STATUS i) ∨ (∃ i j, a = R.PF_POS i j) ∨ (∃ i j, a = R.PF_VEL i j) ∨ (∃ i, a = R.PF_HOME_STATUS i) ∨ (∃ i, a = R.ENC_STATUS i)) s t ∧ onlyParts (sedParts.append [.lawAx, .motGen, .edgeEnc]) s t) ∧
  (∀ (w : Who) (k : BitVec 2) (s : State), accepted s w (R.ENC_STATUS k.toNat) 1 → encMode s k.toNat = 1 →
    ∃ t, exec (.encFltClear w k) s = .next t ∧ fbit t (R.ENC_STATUS k.toNat) R.ENC_STATUS_FLT = false ∧ fbit t (R.ENC_STATUS k.toNat) R.ENC_STATUS_VALID = true ∧
      t.host.acc = (0, 0) ∧ regsOnly (fun a => sedAny a ∨ logAddr a ∨ (∃ i, a = R.ENC_STATUS i)) s t ∧ onlyParts (sedParts.append (logParts.append [.hostAcc])) s t) ∧
  (∀ (n : Axis) (ia ib vb : List Bool) (ns ja jb : Nat) (s : State), (s.ctx n.toNat).used = true → (s.ctx n.toNat).cls = 0 → (s.ctx n.toNat).bridge.isSome = true →
    (s.ctx n.toNat).sd = [ja, jb] → (s.ctx n.toNat).sdBus = none → (s.ctx n.toNat).enc = none → levelOne s = false →
    fbit s (R.SD_STATUS ja) R.SD_STATUS_FLT = false → fbit s (R.SD_STATUS jb) R.SD_STATUS_FLT = false →
    ∃ t, exec (.localSample n ia ib vb ns) s = .next t ∧ (t.fb n.toNat).v1 = (sinc3 (osr s ja) ia).toInt ∧ (t.fb n.toNat).v2 = (sinc3 (osr s jb) ib).toInt ∧
      (t.fb n.toNat).miss = 0 ∧ regsOnly (fun a => blockNo a ∈ [1, 2, 6, 11, 14]) s t ∧ onlyParts (sedParts.append [.coreFb, .coreRegion, .schReady, .schUnit, .schOvr, .schOvrHere, .lawAx, .lane, .netAx, .pairRseq, .pairRecs, .hostLog, .hostSeq, .hostSub, .hostLost, .hostFi]) s t) ∧
  (∀ (n : Axis) (ia ib vb : List Bool) (ns ja jb : Nat) (s : State), (s.ctx n.toNat).used = true → (s.ctx n.toNat).cls = 0 → (s.ctx n.toNat).bridge.isSome = true →
    (s.ctx n.toNat).sd = [ja, jb] → fbit s (R.SD_STATUS ja) R.SD_STATUS_FLT = true →
    ∃ t, exec (.localSample n ia ib vb ns) s = .next t ∧ t.fb n.toNat = { s.fb n.toNat with miss := (s.fb n.toNat).miss + 1 } ∧ regsOnly (fun a => blockNo a ∈ [1, 2, 6, 11, 14]) s t ∧ onlyParts (sedParts.append [.coreFb, .coreRegion, .schReady, .schUnit, .schOvr, .schOvrHere, .lawAx, .lane, .netAx, .pairRseq, .pairRecs, .hostLog, .hostSeq, .hostSub, .hostLost, .hostFi]) s t) ∧
  (∀ (n : Axis) (s : State), fbit s (R.SW_CTRL n.toNat) R.SW_CTRL_EN = true → (tget {} s.edge.still n.toNat).k = 0 → 0 < (tget {} s.edge.still n.toNat).n →
    stillDue s n.toNat (tget {} s.edge.still n.toNat).n = true →
    ∃ t, exec (.stillWaterStart n) s = .next t ∧ tget {} t.edge.still n.toNat = { tget {} s.edge.still n.toNat with armed := true } ∧ regsOnly (fun a => (∃ i, a = R.SW_CTRL i)) s t ∧ onlyParts [.edgeStill] s t)

/-- Timed outputs, debug halt and set-points. TO_APPLY, TO_EDGE, STEP_PULSE, DEBUG_HALT, DEBUG_RESUME and SETPOINT_COMPUTE: the pairs, level and pulses each leaves; a debug halt keeps every pin as it is; and their frames. Rests on: spec/07_edges_steps_outputs.md (R261, R263, R279 to R284); spec/04_motion_generation.md (R136). -/
def Obligations.TimedOutputsAct : Prop :=
  (∀ (w : Who) (k : BitVec 5) (s : State), accepted s w (R.TO_CMD k.toNat) 1 → overlapping (shadowPairs s k.toNat) = true →
    ∃ t, exec (.toApply w k) s = .next t ∧ fbit t (R.TO_STATUS k.toNat) R.TO_STATUS_REFUSED = true ∧ t.edge.out = s.edge.out ∧ t.host.acc = (0, 0) ∧ regsOnly (fun a => sedAny a ∨ logAddr a ∨ a = R.SCH_STATUS ∨ (∃ i, a = R.TO_STATUS i)) s t ∧ onlyParts (sedParts.append (logParts.append [.schDl, .schPlaced, .schHeld, .edgeOut, .hostAcc])) s t) ∧
  (∀ (w : Who) (k : BitVec 5) (s : State), accepted s w (R.TO_CMD k.toNat) 1 → overlapping (shadowPairs s k.toNat) = false → toMode s k.toNat ≠ 1 →
    ∃ t, exec (.toApply w k) s = .next t ∧ fbit t (R.TO_STATUS k.toNat) R.TO_STATUS_APPLY_PEND = true ∧
      (t.tout k.toNat).next = some ((voted s / 2 ^ 32 + 1) % 2 ^ 32, shadowPairs s k.toNat) ∧ (t.tout k.toNat).pairs = (s.tout k.toNat).pairs ∧ t.host.acc = (0, 0) ∧ regsOnly (fun a => sedAny a ∨ logAddr a ∨ a = R.SCH_STATUS ∨ (∃ i, a = R.TO_STATUS i)) s t ∧ onlyParts (sedParts.append (logParts.append [.schDl, .schPlaced, .schHeld, .edgeOut, .hostAcc])) s t) ∧
  (∀ (s : State), ∃ t, exec .debugHalt s = .next t ∧ t.edge.frozen = true ∧ fbit t R.PAIR_STATUS R.PAIR_STATUS_LEAD = false ∧ fbit t R.SCH_STATUS R.SCH_STATUS_COND_DEBUG = true ∧
      t.edge.chan = s.edge.chan ∧ t.edge.out = s.edge.out ∧ (∀ k, fbit t (R.TO_STATUS k) R.TO_STATUS_LVL = fbit s (R.TO_STATUS k) R.TO_STATUS_LVL) ∧ regsOnly (fun a => a = R.SCH_STATUS ∨ (∃ i, a = R.BR_STATUS i) ∨ (∃ i j, a = R.BR_CH i j) ∨ (∃ i, a = R.TO_STATUS i) ∨ a = R.PAIR_STATUS) s t ∧ onlyParts [.edgeChan, .edgeFrozen] s t) ∧
  (∀ (s : State), txEnable s = true → ∃ t, exec .debugResume s = .next t ∧ t.edge.frozen = false ∧ t.edge.chan = s.edge.chan ∧ regsOnly (fun a => (∃ i, a = R.BR_STATUS i) ∨ (∃ i j, a = R.BR_CH i j) ∨ (∃ i, a = R.TO_STATUS i)) s t ∧ onlyParts [.edgeChan, .edgeFrozen] s t) ∧
  (∀ (s : State), txEnable s = false → ∃ t, exec .debugResume s = .next t ∧ t.edge.frozen = false ∧ (∀ k < 32, fbit t (R.TO_STATUS k) R.TO_STATUS_LVL = false) ∧ regsOnly (fun a => (∃ i, a = R.BR_STATUS i) ∨ (∃ i j, a = R.BR_CH i j) ∨ (∃ i, a = R.TO_STATUS i)) s t ∧ onlyParts [.edgeChan, .edgeFrozen] s t) ∧
  (∀ (k : BitVec 5) (tm : Nat) (b : Bool) (l : List (Nat × Bool)) (s : State), s.sch.placed = [] → (s.tout k.toNat).placed = (tm, b) :: l → s.edge.frozen = false →
    ∃ t, exec (.toEdge k) s = .next t ∧
      fbit t (R.TO_STATUS k.toNat) R.TO_STATUS_LVL = ((((tm, b) :: l).filter fun p => p.1 / 4 == tm / 4).all (·.2) && !toForced s k.toNat) ∧
      (t.tout k.toNat).placed = ((tm, b) :: l).filter fun p => p.1 / 4 != tm / 4) ∧
  (∀ (k : BitVec 5) (tm : Nat) (b : Bool) (l : List (Nat × Bool)) (s : State), s.sch.placed = [] → (s.tout k.toNat).steps = (tm, b) :: l → s.edge.frozen = false → toForced s k.toNat = false →
    ∃ t, exec (.stepPulse k) s = .next t ∧ (t.tout k.toNat).steps = l ∧ (t.tout k.toNat).pulse = (tm, stepWidth s k.toNat) ∧ (t.tout k.toNat).pulses = (s.tout k.toNat).pulses + 1 ∧
      (∀ j, j ≠ k.toNat → t.tout j = s.tout j) ∧ regsOnly (fun _ => False) s t) ∧
  (∀ (s : State), s.mot.computed = true → exec .setpointCompute s = .next s) ∧
  (∀ (s : State), s.mot.computed = false → ∃ t, exec .setpointCompute s = .next t ∧ t.mot.computed = true)

/-- A link comes up, falls back and goes down. LINK_START, LINK_SYNC, LINK_SYNC_TIMEOUT, LINK_FALLBACK, LINK_ADV_TIMEOUT, LINK_RATE_SWITCH, LINK_LOST, RETRY and MIR_RETRY: the state, version and flags of the port each leaves in its state, and its frame. Rests on: spec/08_network_links_frames.md (R290, R291, R292, R293). -/
def Obligations.LinkBringUpActs : Prop :=
  (∀ (p : NetPort) (s : State), lstate s p.n = 0 → fbit s (R.PORT_CTRL p.n) R.PORT_CTRL_EN = true → (s.link p.n).hold = false →
    ∃ t, exec (.linkStart p) s = .next t ∧ lstate t p.n = 1 ∧ regsOnly (fun a => (∃ i, a = R.PORT_STATUS i)) s t ∧ onlyParts [.netLink] s t) ∧
  (∀ (p : NetPort) (s : State), lstate s p.n = 1 → ∃ t, exec (.linkSync p) s = .next t ∧ lstate t p.n = 2 ∧ regsOnly (fun a => (∃ i, a = R.PORT_STATUS i)) s t ∧ onlyParts [.netLink] s t) ∧
  (∀ (p : NetPort) (s : State), lstate s p.n = 4 → ∃ t, exec (.linkSync p) s = .next t ∧ lstate t p.n = 5 ∧ regsOnly (fun a => (∃ i, a = R.PORT_STATUS i)) s t ∧ onlyParts [.netLink] s t) ∧
  (∀ (p : NetPort) (s : State), lstate s p.n = 1 → ∃ t, exec (.linkSyncTimeout p) s = .next t ∧ lstate t p.n = 0 ∧
      fget t (R.PORT_STATUS p.n) R.PORT_STATUS_VER = 0 ∧ regsOnly (fun a => sedAny a ∨ a = R.NET_STATE ∨ (∃ i, a = R.PORT_STATUS i) ∨ a = R.PAIR_STATUS) s t ∧ onlyParts (sedParts.append [.netLink, .netSeg]) s t) ∧
  (∀ (p : NetPort) (s : State), lstate s p.n = 4 → p ≠ .mir → hopOk s p.n 1 = true → ∃ t, exec (.linkSyncTimeout p) s = .next t ∧ lstate t p.n = 6 ∧
      fget t (R.PORT_STATUS p.n) R.PORT_STATUS_VER = 1 ∧ fbit t (R.PORT_STATUS p.n) R.PORT_STATUS_FALLBACK = true ∧ regsOnly (fun a => sedAny a ∨ a = R.NET_STATE ∨ (∃ i, a = R.PORT_STATUS i) ∨ a = R.PAIR_STATUS) s t ∧ onlyParts (sedParts.append [.netLink, .netSeg]) s t) ∧
  (∀ (p : NetPort) (s : State), lstate s p.n = 4 ∨ lstate s p.n = 5 → p ≠ .mir → hopOk s p.n 1 = true → ∃ t, exec (.linkFallback p) s = .next t ∧ lstate t p.n = 6 ∧
      fget t (R.PORT_STATUS p.n) R.PORT_STATUS_VER = 1 ∧ fbit t (R.PORT_STATUS p.n) R.PORT_STATUS_FALLBACK = true ∧ regsOnly (fun a => sedAny a ∨ a = R.NET_STATE ∨ (∃ i, a = R.PORT_STATUS i) ∨ a = R.PAIR_STATUS) s t ∧ onlyParts (sedParts.append [.netLink, .netSeg]) s t) ∧
  (∀ (s : State), lstate s 4 = 4 ∨ lstate s 4 = 5 → ∃ t, exec (.linkFallback .mir) s = .next t ∧ lstate t 4 = 0 ∧ (t.link 4).hold = true ∧ regsOnly (fun a => sedAny a ∨ a = R.NET_STATE ∨ (∃ i, a = R.PORT_STATUS i) ∨ a = R.PAIR_STATUS) s t ∧ onlyParts (sedParts.append [.netLink, .netSeg]) s t) ∧
  (∀ (p : NetPort) (s : State), lstate s p.n = 2 → ∃ t, exec (.linkAdvTimeout p) s = .next t ∧ lstate t p.n = 0 ∧ regsOnly (fun a => sedAny a ∨ (∃ i, a = R.PORT_STATUS i) ∨ a = R.PAIR_STATUS) s t ∧ onlyParts (sedParts.append [.netLink]) s t) ∧
  (∀ (p : NetPort) (s : State), lstate s p.n = 3 → (s.link p.n).swRx = true → 2 ≤ (s.link p.n).swTx →
    ∃ t, exec (.linkRateSwitch p) s = .next t ∧ lstate t p.n = 4 ∧ regsOnly (fun a => (∃ i, a = R.PORT_STATUS i)) s t ∧ onlyParts [] s t) ∧
  (∀ (p : NetPort) (s : State), 2 ≤ lstate s p.n → ∃ t, exec (.linkLost p) s = .next t ∧ lstate t p.n = 0 ∧
      fbit t (R.PORT_STATUS p.n) R.PORT_STATUS_LINKDROP = true ∧ regsOnly (fun a => sedAny a ∨ (∃ i, a = R.PORT_STATUS i) ∨ (∃ i, a = R.DROPS i) ∨ a = R.PAIR_STATUS) s t ∧ onlyParts (sedParts.append [.netLink]) s t) ∧
  (∀ (w : Who) (p : NetPort) (s : State), accepted s w (R.PORT_CMD p.n) 1 → ∃ t, exec (.retry w p) s = .next t ∧ lstate t p.n = 0 ∧
      (t.link p.n).hold = false ∧ t.host.acc = (0, 0) ∧ regsOnly (fun a => sedAny a ∨ logAddr a ∨ (∃ i, a = R.PORT_STATUS i) ∨ a = R.PAIR_STATUS) s t ∧ onlyParts (sedParts.append (logParts.append [.netLink, .hostAcc])) s t) ∧
  (∀ (s : State), lstate s 4 = 0 → fbit s (R.PORT_CTRL 4) R.PORT_CTRL_EN = true → (s.link 4).hold = true →
    ∃ t, exec .mirRetry s = .next t ∧ lstate t 4 = 1 ∧ (t.link 4).hold = false ∧ regsOnly (fun a => (∃ i, a = R.PORT_STATUS i)) s t ∧ onlyParts [.netLink] s t)

/-- Link frames, bad frames, feedback and trains. LINK_FRAME_TX, LINK_RX, FRAME_RX_INVALID, FEEDBACK_RX, FEEDBACK_WINDOW_END, FBMISS, TRAIN_TX and DIRECT_TX: the frame sent, the counter moved, the count of missing frames, the command handed over, and the stated frames. Rests on: spec/08_network_links_frames.md (R290, R299, R300, R302); spec/09_network_cycle_time.md (R323, R324, R329, R331). -/
def Obligations.LinkFramesAct : Prop :=
  (∀ (p : NetPort) (s : State), lstate s p.n = 2 ∨ lstate s p.n = 5 → ∃ t, exec (.linkFrameTx p) s = .next t ∧
      (t.link p.n).tx = some (stdFrame 0xFD (haddr s) 0x88B5 (halomHdr tLINK 2 (haddr s) (linkPay s p.n false).length (haddr s % 2 == 1) (p.n % 2 == 1)) (linkPay s p.n false)) ∧
      rd t (R.TX_FRAMES p.n) = rd s (R.TX_FRAMES p.n) + 1 ∧ regsOnly (fun a => (∃ i, a = R.TX_FRAMES i)) s t ∧ onlyParts [.netLink] s t) ∧
  (∀ (p : NetPort) (s : State), lstate s p.n = 3 → ((s.link p.n).swRx = false ∨ (s.link p.n).swTx < 2) → ∃ t, exec (.linkFrameTx p) s = .next t ∧
      (t.link p.n).swTx = (s.link p.n).swTx + 1 ∧ regsOnly (fun a => (∃ i, a = R.TX_FRAMES i)) s t ∧ onlyParts [.netLink] s t) ∧
  (∀ (p : NetPort) (mv fl : BitVec 8) (et : BitVec 16) (sn : Word) (pid : BitVec 8) (s : State), lstate s p.n = 2 → (s.link p.n).eq = 2 →
      (s.link p.n).last = some (mv.toNat, sn.toNat, pid.toNat) → maxVer s p.n = 2 → 2 ≤ mv.toNat →
    ∃ t, exec (.linkRx p mv fl et sn pid) s = .next t ∧ lstate t p.n = 3 ∧ rd t (R.PORT_PARTNER p.n) = sn ∧ regsOnly (fun a => a = R.NET_STATE ∨ (∃ i, a = R.PORT_STATUS i) ∨ (∃ i, a = R.PORT_PARTNER i)) s t ∧ onlyParts [.netLink, .netSeg] s t) ∧
  (∀ (p : NetPort) (mv fl : BitVec 8) (et : BitVec 16) (sn : Word) (pid : BitVec 8) (s : State), lstate s p.n = 2 → (s.link p.n).eq < 2 →
    ∃ t, exec (.linkRx p mv fl et sn pid) s = .next t ∧ lstate t p.n = 2 ∧ rd t (R.PORT_PARTNER p.n) = sn ∧ regsOnly (fun a => a = R.NET_STATE ∨ (∃ i, a = R.PORT_STATUS i) ∨ (∃ i, a = R.PORT_PARTNER i)) s t ∧ onlyParts [.netLink, .netSeg] s t) ∧
  (∀ (p : NetPort) (s : State), 2 ≤ lstate s p.n → ∃ t, exec (.frameRxInvalid p .crc) s = .next t ∧ rd t (R.RX_CRC p.n) = rd s (R.RX_CRC p.n) + 1 ∧
      regsOnly (fun a => sedAny a ∨ (∃ i, a = R.PORT_STATUS i) ∨ (∃ i, a = R.RX_CRC i) ∨ (∃ i, a = R.RX_LEN i) ∨ (∃ i, a = R.RX_UNK i) ∨ (∃ i, a = R.CODE_VIOL i)) s t ∧ onlyParts sedParts s t) ∧
  (∀ (p : NetPort) (s : State), 2 ≤ lstate s p.n → ∃ t, exec (.frameRxInvalid p .codeViol) s = .next t ∧ rd t (R.CODE_VIOL p.n) = rd s (R.CODE_VIOL p.n) + 1 ∧
      fbit t (R.PORT_STATUS p.n) R.PORT_STATUS_CODEERR = true ∧ regsOnly (fun a => sedAny a ∨ (∃ i, a = R.PORT_STATUS i) ∨ (∃ i, a = R.RX_CRC i) ∨ (∃ i, a = R.RX_LEN i) ∨ (∃ i, a = R.RX_UNK i) ∨ (∃ i, a = R.CODE_VIOL i)) s t ∧ onlyParts sedParts s t) ∧
  (∀ (p : NetPort) (f : RxFail) (s : State), lstate s p.n < 2 → exec (.frameRxInvalid p f) s = .next s) ∧
  (∀ (r : Rx) (s : State), rxOpen s r.port = true → fbLenOk r.pay = false → ∃ t, exec (.feedbackRx r) s = .next t ∧
      rd t (R.RX_LEN r.port.n) = rd s (R.RX_LEN r.port.n) + 1 ∧ t.node = s.node) ∧
  (∀ (g : Bool) (i : BitVec 10) (s : State), (schedEnt s g.toNat i.toNat).kind = 4 → entActive s (schedEnt s g.toNat i.toNat) = true →
      segState s g.toNat = 6 ∨ segState s g.toNat = 7 → (schedEnt s g.toNat i.toNat).node < 128 →
    ∃ t, exec (.feedbackWindowEnd g i) s = .next t ∧ (t.node (schedEnt s g.toNat i.toNat).node).used = false ∧
      (t.node (schedEnt s g.toNat i.toNat).node).miss =
        (if (s.node (schedEnt s g.toNat i.toNat).node).onA || (s.node (schedEnt s g.toNat i.toNat).node).onB then 0
          else (s.node (schedEnt s g.toNat i.toNat).node).miss + 1)) ∧
  (∀ (n : Axis) (s : State), fbmN s ≤ (s.fb n.toNat).miss → (s.axl n.toNat).causes.testBit 2 = false → reactionOf s n.toNat 3 = 3 →
      fget s (R.AX_STATUS n.toNat) R.AX_STATUS_REACT < 4 →
    ∃ t, exec (.fbmiss n) s = .next t ∧ (t.axl n.toNat).causes.testBit 2 = true ∧ regsOnly (fun a => sedAny a ∨ (∃ i j, a = R.STATE_TILE i j) ∨ (∃ i, a = R.AX_STATUS i) ∨ (∃ i, a = R.AX_FAULT i) ∨ (∃ i, a = R.PF_STATUS i) ∨ (∃ i j, a = R.PF_POS i j) ∨ (∃ i j, a = R.PF_VEL i j) ∨ (∃ i, a = R.PF_HOME_STATUS i)) s t ∧ onlyParts (sedParts.append [.lawAx, .motGen]) s t) ∧
  (∀ (g : Bool) (i : BitVec 10) (s : State), (schedEnt s g.toNat i.toNat).kind = 2 → entActive s (schedEnt s g.toNat i.toNat) = true →
      segState s g.toNat = 7 → ∀ u, setNow (s.time.start + (schedEnt s g.toNat i.toNat).start) s = u →
      trainAxes u g.toNat (schedEnt s g.toNat i.toNat).train = [] → txEnable u = true → lstate u (2 * g.toNat) = 6 → compactNow u (2 * g.toNat) = true → allHn2 u (2 * g.toNat) = true →
    ∃ t, exec (.trainTx g i) s = .next t ∧ (t.link (2 * g.toNat)).tx =
        some (compactFrame (halomHdr tTRAIN 2 (haddr u) 4 (farEnd u) false) (beOf 2 (cycNow u) ++ beOf 1 (schedEnt s g.toNat i.toNat).train ++ beOf 1 0))) ∧
  (∀ (n : Axis) (at' : Nat) (s : State), (s.axn n.toNat).done = false → exec (.directTx n at') s = .next s) ∧
  (∀ (n : Axis) (at' g nd ax cyc : Nat) (tm : Int) (ms : Bool) (s : State), (s.axn n.toNat).done = true → (s.ctx n.toNat).cls = 0 →
      (s.ctx n.toNat).node = some (g, nd, ax) → (s.axn n.toNat).rel = some (cyc, tm, ms) → segState s g = 7 →
    ∃ t, exec (.directTx n at') s = .next t ∧ (t.axn n.toNat).done = false ∧ (t.axn n.toNat).rel = none ∧
      ∃ ctl body, (t.axn n.toNat).cmd = some { cyc := cyc, ctl := ctl, body := body })

/-- Arbitrating windows, polls and delay exchanges. ARB_WINDOW, POLL_TIMEOUT, SVC_RX, DELAY_REQUEST, DELAY_RX and DELAY_TIMEOUT: a window with nothing to send, or a turn that does not fit, ends; a poll without an answer is counted; an answer is kept; a delay exchange starts, ends with the mean of its last 16, or is dropped; and their frames. Rests on: spec/09_network_cycle_time.md (R325, R326, R327, R348). -/
def Obligations.ServiceTrafficActs : Prop :=
  (∀ (g : Bool) (i : BitVec 10) (s : State), segState s g.toNat = 6 ∨ segState s g.toNat = 7 → (schedEnt s g.toNat i.toNat).kind = 5 → entActive s (schedEnt s g.toNat i.toNat) = true →
      (s.seg g.toNat).poll = none → (s.seg g.toNat).todo = [] → (∀ n, (s.node n).req = false) →
    ∃ t, exec (.arbWindow g i) s = .next t ∧ (t.seg g.toNat).window = none ∧ t.net.link = s.net.link ∧ regsOnly (fun a => a = R.TIME_STATUS ∨ (∃ i, a = R.TX_FRAMES i)) s t ∧ onlyParts [.schDlStat, .schRlStat, .schSampled, .netLink, .netSeg, .timeNs, .free] s t) ∧
  (∀ (g : Bool) (i : BitVec 10) (x : Turn) (l : List Turn) (s : State), segState s g.toNat = 6 ∨ segState s g.toNat = 7 → (schedEnt s g.toNat i.toNat).kind = 5 → entActive s (schedEnt s g.toNat i.toNat) = true →
      (s.seg g.toNat).poll = none → (s.seg g.toNat).todo = x :: l → (schedEnt s g.toNat i.toNat).span < wireNs s g.toNat x.pay.length →
    ∃ t, exec (.arbWindow g i) s = .next t ∧ (t.seg g.toNat).window = none ∧ (t.seg g.toNat).todo = x :: l ∧ t.net.link = s.net.link ∧ regsOnly (fun a => a = R.TIME_STATUS ∨ (∃ i, a = R.TX_FRAMES i)) s t ∧ onlyParts [.schDlStat, .schRlStat, .schSampled, .netLink, .netSeg, .timeNs, .free] s t) ∧
  (∀ (g : Bool) (at' e n : Nat) (s : State), (s.seg g.toNat).poll = some (e, n) →
    ∃ t, exec (.pollTimeout g at') s = .next t ∧ fbit t R.NET_STATUS R.NET_STATUS_POLLTO = true ∧
      fget t (R.NODE_CNT n) R.NODE_CNT_POLL_TO = (fget s (R.NODE_CNT n) R.NODE_CNT_POLL_TO + 1) % 2 ^ 8 ∧ regsOnly (fun a => sedAny a ∨ a = R.TIME_STATUS ∨ a = R.NET_STATUS ∨ (∃ i, a = R.TX_FRAMES i) ∨ (∃ i, a = R.NODE_CNT i)) s t ∧ onlyParts (sedParts.append [.schDlStat, .schRlStat, .schSampled, .netLink, .netSeg, .timeNs]) s t) ∧
  (∀ (g : Bool) (at' : Nat) (s : State), (s.seg g.toNat).poll = none → exec (.pollTimeout g at') s = .next s) ∧
  (∀ (r : Rx) (v : State) (e : Nat) (s : State), rxOpen s r.port = true → 4 ≤ r.pay.length → selectCopy tSVC r (reachAt r.last s) = (true, v) →
      (v.seg (r.port.n / 2)).poll = some (e, r.src.toNat) → (v.seg (r.port.n / 2)).window.isSome → (payN r.pay 2 1).testBit 6 = true →
    ∃ t, exec (.svcRx r) s = .next t ∧ (t.seg (r.port.n / 2)).svc = r.pay ∧ (t.seg (r.port.n / 2)).poll = some (e, r.src.toNat) ∧ regsOnly (fun a => blockNo a ∈ [4, 5, 14]) s t ∧ onlyParts (sedParts.append [.schDlStat, .schRlStat, .schSampled, .netLink, .netSeg, .timeNs]) s t) ∧
  (∀ (r : Rx) (s : State), rxOpen s r.port = true → r.pay.length < 4 → ∃ t, exec (.svcRx r) s = .next t ∧
      rd t (R.RX_LEN r.port.n) = rd s (R.RX_LEN r.port.n) + 1 ∧ t.net = s.net ∧ regsOnly (fun a => blockNo a ∈ [4, 5, 14]) s t ∧ onlyParts (sedParts.append [.schDlStat, .schRlStat, .schSampled, .netLink, .netSeg, .timeNs]) s t) ∧
  (∀ (p : NetPort) (at' : Nat) (s : State), 6 ≤ lstate s p.n → (s.link p.n).dreq = none → delayOpen s p.n = true →
    ∃ t, exec (.delayRequest p at') s = .next t ∧ (t.link p.n).dreq = some (((s.link p.n).dseq + 1) % 256, instant s at') ∧
      (t.link p.n).dseq = ((s.link p.n).dseq + 1) % 256 ∧ regsOnly (fun a => a = R.TIME_STATUS ∨ (∃ i, a = R.TX_FRAMES i)) s t ∧ onlyParts [.schDlStat, .schRlStat, .schSampled, .netLink, .timeNs] s t) ∧
  (∀ (p : NetPort) (sq : BitVec 8) (t1 t2 t3 : BitVec 64) (at' an : Nat) (own : Int) (s : State), 6 ≤ lstate s p.n → p ≠ .mir → (s.link p.n).dreq = some (sq.toNat, own) →
    ∀ ds, ((instant s at' - own - (delayT t3 - delayT t2)) :: (s.link p.n).dels).take 16 = ds →
    ∃ t, exec (.delayRx p 2 sq t1 t2 t3 at' an) s = .next t ∧ (t.link p.n).dreq = none ∧ (t.link p.n).dels = ds ∧
      rd t (R.PORT_DELAY p.n) = BitVec.ofNat 32 (ux 32 (rhu ds.sum (2 * ds.length))) ∧ regsOnly (fun a => a = R.TIME_STATUS ∨ (∃ i, a = R.TX_FRAMES i) ∨ (∃ i, a = R.PORT_DELAY i)) s t ∧ onlyParts [.schDlStat, .schRlStat, .schSampled, .netLink, .timeNs] s t) ∧
  (∀ (p : NetPort) (s : State), ∃ t, exec (.delayTimeout p) s = .next t ∧ (t.link p.n).dreq = none ∧ (t.link p.n).dels = (s.link p.n).dels ∧ regsOnly (fun _ => False) s t ∧ onlyParts [.netLink] s t)

/-- Enumeration, adoption and loss of nodes. DISCOVER_ROUND, ENUM_RX, REDISC, REDISCOVER, NODE_ADOPTED, NODE_LOST and SYNC_NODE_TIMEOUT: the round, the alien mark, the node state and status bit each leaves, and its frame. Rests on: spec/09_network_cycle_time.md (R334, R335, R337, R338, R339). -/
def Obligations.EnumerationActs : Prop :=
  (∀ (g : Bool) (s : State), segState s g.toNat = 4 → (s.seg g.toNat).prev ≠ some (s.seg g.toNat).disc →
    ∃ t, exec (.discoverRound g) s = .next t ∧ (t.seg g.toNat).prev = some (s.seg g.toNat).disc ∧ (t.seg g.toNat).disc = [] ∧
      (t.seg g.toNat).todo = (s.seg g.toNat).todo ++ [{ typ := tENUM, pay := discoverPay }] ∧ regsOnly (fun a => blockNo a ∈ [5, 6, 7, 14]) s t ∧ onlyParts (sedParts.append [.lawAx, .motGen, .netSeg, .netNode]) s t) ∧
  (∀ (r : Rx) (v : State) (s : State), rxOpen s r.port = true → 16 ≤ r.pay.length → selectCopy tENUM r (reachAt r.last s) = (true, v) → 4 ≤ segState v (r.port.n / 2) →
      payN r.pay 0 1 = eIDENT → r.src.toNat = 0xFE → (listed v (r.port.n / 2)).find? (fun e => e.pos == payN r.pay 1 1) = none →
    ∃ t, exec (.enumRx r) s = .next t ∧ fbit t R.NET_STATUS R.NET_STATUS_ALIEN = true ∧ (t.seg (r.port.n / 2)).alien = true ∧ regsOnly (fun a => blockNo a ∈ [4, 5, 6, 7, 14]) s t ∧ onlyParts (sedParts.append [.coreFb, .schDlStat, .schRlStat, .schSampled, .lawAx, .motGen, .netSeg, .netNode, .timeNs]) s t) ∧
  (∀ (r : Rx) (s : State), rxOpen s r.port = false → exec (.enumRx r) s = .next s) ∧
  (∀ (w : Who) (s : State), accepted s w R.NET_CMD 4 → 4 ≤ segState s 0 → 4 ≤ segState s 1 →
    ∃ t, exec (.redisc w) s = .next t ∧ (∀ g < 2, (t.seg g).todo = (s.seg g).todo ++ [{ typ := tENUM, pay := discoverPay }] ∧ (t.seg g).disc = []) ∧ t.host.acc = (0, 0) ∧ regsOnly (fun a => sedAny a ∨ logAddr a ∨ a = R.NET_STATE ∨ (∃ i, a = R.PORT_CTRL i) ∨ a = R.PAIR_STATUS) s t ∧ onlyParts (sedParts.append (logParts.append [.netSeg, .netArmed, .pairReq, .pairWait, .hostAcc])) s t) ∧
  (∀ (s : State), (s.seg 0).alien = true → 4 ≤ segState s 0 → ∃ t, exec .rediscover s = .next t ∧
      (t.seg 0).todo = (s.seg 0).todo ++ [{ typ := tENUM, pay := discoverPay }] ∧ regsOnly (fun _ => False) s t ∧ onlyParts [.netSeg] s t) ∧
  (∀ (n : BitVec 7) (s : State), nodeState s n.toNat = 6 → (s.node n.toNat).acked = true → 256 ≤ (s.node n.toNat).run →
    ∃ t, exec (.nodeAdopted n) s = .next t ∧ nodeState t n.toNat = 4 ∧ fbit t R.NET_STATUS R.NET_STATUS_ADOPT = true ∧ regsOnly (fun a => sedAny a ∨ a = R.NET_STATUS ∨ (∃ i, a = R.NODE_INFO i)) s t ∧ onlyParts sedParts s t) ∧
  (∀ (n : BitVec 7) (s : State), nodeState s n.toNat = 4 → fbmN s ≤ (s.node n.toNat).miss →
    ∃ t, exec (.nodeLost n) s = .next t ∧ nodeState t n.toNat = 5 ∧ fbit t R.NET_STATUS R.NET_STATUS_LOST = true ∧ regsOnly (fun a => sedAny a ∨ a = R.NET_STATUS ∨ (∃ i, a = R.NODE_INFO i) ∨ (∃ i j, a = R.STATE_TILE i j) ∨ (∃ i, a = R.AX_STATUS i) ∨ (∃ i, a = R.AX_FAULT i) ∨ (∃ i, a = R.PF_STATUS i) ∨ (∃ i j, a = R.PF_POS i j) ∨ (∃ i j, a = R.PF_VEL i j) ∨ (∃ i, a = R.PF_HOME_STATUS i)) s t ∧ onlyParts (sedParts.append [.lawAx, .motGen]) s t) ∧
  (∀ (n : BitVec 7) (s : State), (s.node n.toNat).miss < fbmN s → exec (.nodeLost n) s = .next s) ∧
  (∀ (n : BitVec 7) (s : State), segState s (fget s (R.NODE_INFO n.toNat) R.NODE_INFO_SEG) = 6 → nodeState s n.toNat = 3 →
      syncLen s + 1024 ≤ (s.seg (fget s (R.NODE_INFO n.toNat) R.NODE_INFO_SEG)).sync → (s.node n.toNat).run < 64 →
    ∃ t, exec (.syncNodeTimeout n) s = .next t ∧ nodeState t n.toNat = 1 ∧ fbit t R.NET_STATUS R.NET_STATUS_SYNC_LATE = true ∧ regsOnly (fun a => sedAny a ∨ a = R.NET_STATUS ∨ (∃ i, a = R.NODE_INFO i) ∨ (∃ i j, a = R.STATE_TILE i j) ∨ (∃ i, a = R.AX_STATUS i) ∨ (∃ i, a = R.AX_FAULT i) ∨ (∃ i, a = R.PF_STATUS i) ∨ (∃ i j, a = R.PF_POS i j) ∨ (∃ i j, a = R.PF_VEL i j) ∨ (∃ i, a = R.PF_HOME_STATUS i)) s t ∧ onlyParts (sedParts.append [.lawAx, .motGen]) s t)

/-- A segment starts, listens, syncs and switches generation. SEGMENT_START, SWITCH, DELAY_STATE_END, SYNC_END and SCHED_SWITCH_APPLY: the segment state or generation each leaves when its condition holds, that it does nothing otherwise, and its frame. Rests on: spec/09_network_cycle_time.md (R322, R333, R336, R337, R354). -/
def Obligations.SegmentStatesAct : Prop :=
  (∀ (w : Who) (g : Bool) (s : State), accepted s w R.NET_CMD (if g then 2 else 1) → segState s g.toNat = 0 → lstate s (2 * g.toNat) < 6 →
    ∃ t, exec (.segmentStart w g) s = .next t ∧ segState t g.toNat = 1 ∧ fbit t (R.PORT_CTRL (2 * g.toNat)) R.PORT_CTRL_EN = true ∧
      fbit t (R.PORT_CTRL (2 * g.toNat + 1)) R.PORT_CTRL_EN = true ∧ t.host.acc = (0, 0) ∧ regsOnly (fun a => sedAny a ∨ logAddr a ∨ a = R.NET_STATE ∨ (∃ i, a = R.PORT_CTRL i) ∨ a = R.PAIR_STATUS) s t ∧ onlyParts (sedParts.append (logParts.append [.netSeg, .netArmed, .pairReq, .pairWait, .hostAcc])) s t) ∧
  (∀ (w : Who) (g : Bool) (s : State), accepted s w R.NET_CMD (if g then 2 else 1) → segState s g.toNat ≠ 0 →
    ∃ t, exec (.segmentStart w g) s = .next t ∧ regsOnly (fun a => logAddr a) s t ∧ t.net.seg = s.net.seg ∧ t.host.acc = (0, 0)) ∧
  (∀ (w : Who) (s : State), accepted s w R.NET_CMD 0x100 → switchOk s = true →
    ∃ t, exec (.switch w) s = .next t ∧ t.net.armed = true ∧ t.host.acc = (0, 0) ∧ regsOnly (fun a => sedAny a ∨ logAddr a ∨ a = R.NET_STATE ∨ (∃ i, a = R.PORT_CTRL i) ∨ a = R.PAIR_STATUS) s t ∧ onlyParts (sedParts.append (logParts.append [.netSeg, .netArmed, .pairReq, .pairWait, .hostAcc])) s t) ∧
  (∀ (g : Bool) (s : State), segState s g.toNat = 2 → role s = 0 →
    ∃ t, exec (.delayStateEnd g) s = .next t ∧ segState t g.toNat = 3 ∧ role t = 3 ∧ regsOnly (fun a => a = R.TIME_STATUS ∨ a = R.NET_STATE) s t ∧ onlyParts [.netSeg] s t) ∧
  (∀ (g : Bool) (s : State), segState s g.toNat = 2 → role s = 1 →
    ∃ t, exec (.delayStateEnd g) s = .next t ∧ segState t g.toNat = 4 ∧ (t.seg g.toNat).todo = [{ typ := tENUM, pay := discoverPay }] ∧ role t = 1 ∧ regsOnly (fun a => a = R.TIME_STATUS ∨ a = R.NET_STATE) s t ∧ onlyParts [.netSeg] s t) ∧
  (∀ (g : Bool) (s : State), segState s g.toNat = 6 → syncLen s ≤ (s.seg g.toNat).sync → roundIdx s = 0 → (∀ n ∈ nodesIn s g.toNat 3, 64 ≤ (s.node n).run) →
    ∃ t, exec (.syncEnd g) s = .next t ∧ segState t g.toNat = 7 ∧ regsOnly (fun a => blockNo a ∈ [1, 5, 6, 7]) s t ∧ onlyParts [.lawAx, .motGen, .bootAutoWait] s t) ∧
  (∀ (g : Bool) (s : State), segState s g.toNat ≠ 6 ∨ (s.seg g.toNat).sync < syncLen s ∨ roundIdx s ≠ 0 → exec (.syncEnd g) s = .next s) ∧
  (∀ (x : SchedGen) (s : State), s.net.armed = true → roundIdx s = 0 → s.net.next = some x →
    ∃ t, exec .schedSwitchApply s = .next t ∧ t.net.gen = some x ∧ t.net.next = none ∧ t.net.armed = false ∧
      fget t R.NET_SGEN R.NET_SGEN_ACTIVE = x.sgen % 2 ^ 16 ∧ fget t R.NET_SGEN R.NET_SGEN_NEXT = 0 ∧ regsOnly (fun a => a = R.NET_SGEN ∨ (∃ i, a = R.PORT_STATUS i) ∨ (∃ i j, a = R.SCHED_TABLE i j) ∨ (∃ i j, a = R.POLL_TABLE i j)) s t ∧ onlyParts [.netNode, .netGen, .netNext, .netArmed] s t) ∧
  (∀ (s : State), s.net.armed = false ∨ roundIdx s ≠ 0 → exec .schedSwitchApply s = .next s)

/-- Reference messages and time masters. TIME_WRAP, ERA_UPDATE, REF_TX, LISTEN_END, REF_RX, REF_WINDOW_MISS and REF_BACKUP_START: the wrap count, the frame sent, the role taken, the yield to a lower rank, the miss count, and their frames. Rests on: spec/09_network_cycle_time.md (R341, R342, R345, R347, R352, R353, R354). -/
def Obligations.ReferenceTimeActs : Prop :=
  (∀ (s : State), s.time.start + tb s < (s.time.ns / 2 ^ 32 + 1) * 2 ^ 32 → exec .timeWrap s = .next s) ∧
  (∀ (s : State), (s.time.ns / 2 ^ 32 + 1) * 2 ^ 32 ≤ s.time.start + tb s → s.time.ns + 2 ^ 32 < 2 ^ 64 → fget s R.TIME_STATUS R.TIME_STATUS_WRAP_PEND < 3 →
    ∃ t, exec .timeWrap s = .next t ∧ t.time.ns = (s.time.ns / 2 ^ 32 + 1) * 2 ^ 32 ∧
      fget t R.TIME_STATUS R.TIME_STATUS_WRAP_PEND = fget s R.TIME_STATUS R.TIME_STATUS_WRAP_PEND + 1 ∧ regsOnly (fun a => a = R.TIME_STATUS) s t ∧ onlyParts [.schDlStat, .schRlStat, .schSampled, .timeNs] s t) ∧
  (∀ (s : State), ∃ t, exec .eraUpdate s = .next t ∧ fget t R.TIME_STATUS R.TIME_STATUS_WRAP_PEND = 0 ∧ t.time = s.time ∧ regsOnly (fun a => a = R.TIME_STATUS) s t ∧ onlyParts [] s t) ∧
  (∀ (g : Bool) (dep : BitVec 10) (s : State), role s = 1 → 4 ≤ segState s g.toNat → txEnable s = true → lstate s (2 * g.toNat) = 6 →
    ∃ t, exec (.refTx g dep) s = .next t ∧ (∀ pay, refPay s dep.toNat = pay →
      (t.link (2 * g.toNat)).tx = some (if compactNow s (2 * g.toNat)
        then compactFrame (halomHdr tREF (if allHn2 s (2 * g.toNat) then 2 else 1) (haddr s) pay.length (farEnd s) false) pay
        else stdFrame 0xFF (haddr s) (s.link (2 * g.toNat)).etype (halomHdr tREF (if allHn2 s (2 * g.toNat) then 2 else 1) (haddr s) pay.length (farEnd s) false) pay)) ∧ regsOnly (fun a => (∃ i, a = R.TX_FRAMES i)) s t ∧ onlyParts [.netLink] s t) ∧
  (∀ (s : State), role s = 3 → txEnable s = true → fbit s R.PTP_CTRL R.PTP_CTRL_FOLLOW = false →
    ∃ t, exec .listenEnd s = .next t ∧ role t = 1 ∧ t.time.grid = some ((s.time.ns + tb s - 1) / tb s * tb s, 0) ∧ rd t R.TIME_MSERIAL = Config.serial ∧ regsOnly (fun a => a = R.TIME_STATUS ∨ a = R.TIME_MSERIAL ∨ a = R.NET_STATE) s t ∧ onlyParts [.schSampled, .netSeg, .timeNs, .timeGrid, .timeInc, .timeMissed] s t) ∧
  (∀ (s : State), role s ≠ 3 ∨ txEnable s = false → exec .listenEnd s = .next s) ∧
  (∀ (r : Rx) (v s : State), rxOpen s r.port = true → 24 ≤ r.pay.length → selectCopy tREF r s = (true, v) → role v = 1 → rank v < payN r.pay 3 1 / 64 →
    exec (.refRx r) s = .next v) ∧
  (∀ (r : Rx) (v s : State), rxOpen s r.port = true → 24 ≤ r.pay.length → selectCopy tREF r s = (true, v) → role v = 1 → payN r.pay 3 1 / 64 < rank v →
    ∃ t, exec (.refRx r) s = .next t ∧ role t = 2 ∧ fbit t R.TIME_STATUS R.TIME_STATUS_YIELD = true ∧
      rd t R.TIME_MSERIAL = BitVec.ofNat 32 (payN r.pay 20 4) ∧ regsOnly (fun a => blockNo a ∈ [4, 5, 8, 9, 12, 14]) s t ∧ onlyParts (sedParts.append [.schSampled, .edgeChan, .netSeg, .netNode, .netGen, .netNext, .netArmed, .timeNs, .timeStart, .timeInc, .timeInteg, .timeNear, .timeFar, .timeMissed, .pairReq]) s t) ∧
  (∀ (s : State), role s = 2 → ∃ t, exec .refWindowMiss s = .next t ∧ rd t R.REF_MISS_CNT = rd s R.REF_MISS_CNT + 1 ∧
      fbit t R.TIME_STATUS R.TIME_STATUS_REFMISS = true ∧ t.time.missed = s.time.missed + 1 ∧ regsOnly (fun a => sedAny a ∨ a = R.TIME_STATUS ∨ a = R.REF_MISS_CNT) s t ∧ onlyParts (sedParts.append [.timeMissed]) s t) ∧
  (∀ (s : State), role s = 2 → 0 < ranksBetween s (fget s R.TIME_STATUS R.TIME_STATUS_MRANK) (rank s) →
      3 * ranksBetween s (fget s R.TIME_STATUS R.TIME_STATUS_MRANK) (rank s) ≤ s.time.missed → txEnable s = true →
    ∃ t, exec .refBackupStart s = .next t ∧ role t = 1 ∧ fbit t R.TIME_STATUS R.TIME_STATUS_TAKEN = true ∧ t.time.ns = s.time.ns ∧ regsOnly (fun a => sedAny a ∨ a = R.TIME_STATUS ∨ a = R.TIME_MSERIAL) s t ∧ onlyParts (sedParts.append [.timeInc, .timeMissed]) s t) ∧
  (∀ (s : State), role s ≠ 2 ∨ txEnable s = false → exec .refBackupStart s = .next s)

/-- The IEEE 1588 port. PTP_MESSAGE_RX, PTP_SYNC_TX and PTP_DELAY_REQUEST: the offset and delay computed, the messages sent, nothing while the port is disabled, and their frames. Rests on: spec/09_network_cycle_time.md (R355, R356). -/
def Obligations.PrecisionTimeActs : Prop :=
  (∀ (d : BitVec 8) (m : PtpMsg) (at' : Nat) (s : State), fbit s R.PTP_CTRL R.PTP_CTRL_EN = false → exec (.ptpMessageRx d m at') s = .next s) ∧
  (∀ (d : BitVec 8) (sq : BitVec 16) (t1 : BitVec 64) (corr : BitVec 64) (at' : Nat) (s : State), fbit s R.PTP_CTRL R.PTP_CTRL_EN = true → d.toNat = ptpDomain s → ptpState s = 3 →
      fbit s R.PTP_CTRL R.PTP_CTRL_FOLLOW = false →
    ∃ t, exec (.ptpMessageRx d (.sync sq false t1 corr) at') s = .next t ∧
      rd t R.PTP_OFS = BitVec.ofNat 32 (ux 32 (sat 32 (rhu (instant s at' * 256 - (t1.toNat * 65536 + corr.toInt) - s.time.ptp.delay) 65536))) ∧
      regsOnly (fun a => sedAny a ∨ a = R.TIME_INC_LO ∨ a = R.TIME_INC_HI ∨ a = R.TIME_STATUS ∨ a = R.PTP_STATUS ∨ a = R.PTP_OFS) s t ∧ onlyParts (sedParts.append [.schDlStat, .schRlStat, .schSampled, .timeNs, .timeInc, .timePtp]) s t) ∧
  (∀ (d : BitVec 8) (sq : BitVec 16) (t4 : BitVec 64) (corr : BitVec 64) (at' : Nat) (t3 t1 t2 : Int) (s : State), fbit s R.PTP_CTRL R.PTP_CTRL_EN = true → d.toNat = ptpDomain s → ptpState s = 3 →
      s.time.ptp.req = some (sq.toNat, t3) → s.time.ptp.t12 = some (t1, t2) →
    ∃ t, exec (.ptpMessageRx d (.delayResp sq t4 corr) at') s = .next t ∧ t.time.ptp.delay = ((t2 - t1) + (t4.toNat * 65536 - corr.toInt - t3)).fdiv 2 ∧
      t.time.ptp.req = none ∧ regsOnly (fun a => sedAny a ∨ a = R.TIME_INC_LO ∨ a = R.TIME_INC_HI ∨ a = R.TIME_STATUS ∨ a = R.PTP_STATUS ∨ a = R.PTP_OFS) s t ∧ onlyParts (sedParts.append [.schDlStat, .schRlStat, .schSampled, .timeNs, .timeInc, .timePtp]) s t) ∧
  (∀ (at' : Nat) (s : State), fbit s R.PTP_CTRL R.PTP_CTRL_EN = true → ptpState s = 2 →
    ∃ t, exec (.ptpSyncTx at') s = .next t ∧
      t.time.ptp.tx = ptpMsg s 0 44 s.time.ptp.syncSeq (ptpCorr (instant s at')) (syncLog s) (ptpStamp (instant s at')) ∧
      t.time.ptp.syncSeq = (s.time.ptp.syncSeq + 1) % 2 ^ 16 ∧ regsOnly (fun a => a = R.TIME_STATUS ∨ a = R.PTP_STATUS) s t ∧ onlyParts [.schDlStat, .schRlStat, .schSampled, .timeNs, .timePtp] s t) ∧
  (∀ (at' : Nat) (s : State), fbit s R.PTP_CTRL R.PTP_CTRL_EN = false → exec (.ptpSyncTx at') s = .next s) ∧
  (∀ (at' : Nat) (s : State), fbit s R.PTP_CTRL R.PTP_CTRL_EN = true → ptpState s = 3 → fbit s R.PTP_CTRL R.PTP_CTRL_P2P = false →
    ∃ t, exec (.ptpDelayRequest at') s = .next t ∧ t.time.ptp.req = some (s.time.ptp.reqSeq, instant s at' * 256) ∧
      t.time.ptp.tx = ptpMsg s 1 44 s.time.ptp.reqSeq 0 0x7F (ptpStamp (instant s at')) ∧
      t.time.ptp.reqSeq = (s.time.ptp.reqSeq + 1) % 2 ^ 16 ∧ regsOnly (fun a => a = R.TIME_STATUS) s t ∧ onlyParts [.schDlStat, .schRlStat, .schSampled, .timeNs, .timePtp] s t)

/-- Register writes, staged pairs, latches, RC fields, BLK_LOCK, records. REGISTER_WRITE, STAGED_WRITE, READ_CLEAR, LATCHED_READ, BLK_LOCK_WRITE and RECORD_APPLY: a refused write changes no register but the sediment queue's and the log's, an accepted one has its effect, a staged low word waits for its high word, a leading read latches for its own port only, an RC field is cleared by a read, the open locks belong to one session. Rests on: spec/00_scope.md (R8, R9); spec/13_host_access_diagnostics.md (R462, R465); spec/14_address_map.md (R484, R488, R489, R490); spec/10_head_pairs.md (R377). -/
def Obligations.RegisterAccessActs : Prop :=
  (∀ (w : Who) (a v : Word) (s : State), addrOk a.toNat = true → judge s w a.toNat v = false →
    ∃ t, exec (.registerWrite w a v) s = .next t ∧ t.host.acc = (2, 0) ∧ regsOnly (fun b => sedAny b ∨ logAddr b) s t ∧ onlyParts (sedParts ++ (logParts ++ [.hostAcc])) s t) ∧
  (∀ (w : Who) (a v : Word) (u s : State), addrOk a.toNat = true → accepted s w a.toNat v → effectOf w (portCode w.port) a.toNat v s = some u →
    ∃ t, exec (.registerWrite w a v) s = .next t ∧ t.host.acc = (0, 0) ∧ regsOnly (fun b => logAddr b) u t ∧ onlyParts (logParts ++ [.hostAcc]) u t) ∧
  (∀ (w : Who) (a v : Word) (s : State), addrOk a.toNat = false → ∃ t, exec (.registerWrite w a v) s = .next t ∧ t.host.acc = (3, 0) ∧ t.regs = s.regs ∧ onlyParts [.hostAcc] s t) ∧
  (∀ (w : Who) (a v : Word) (s : State), a.toNat = R.TIME_INC_LO → accepted s w a.toNat v →
    ∃ t, exec (.stagedWrite w a v) s = .next t ∧ t.host.acc = (0, 0) ∧ stagedLow t (portCode w.port) R.TIME_INC_LO = v ∧ rd t R.TIME_INC_LO = rd s R.TIME_INC_LO ∧
      t.time.inc = s.time.inc ∧ regsOnly (fun b => logAddr b) s t) ∧
  (∀ (w : Who) (a v : Word) (s : State), a.toNat = R.TIME_INC_HI → accepted s w a.toNat v →
    ∃ t, exec (.stagedWrite w a v) s = .next t ∧ t.host.acc = (0, 0) ∧ rd t R.TIME_INC_LO = stagedLow s (portCode w.port) R.TIME_INC_LO ∧
      tget none t.host.staged (stagedKey (portCode w.port) R.TIME_INC_LO) = none) ∧
  (∀ (p : Port) (s : State), ∃ t, exec (.readClear p 0x2000C) s = .next t ∧ t.host.acc = (0, rd s R.TA_MON) ∧ fget t R.TA_MON R.TA_MON_TA_MAX = 0 ∧
      fget t R.TA_MON R.TA_MON_TA_VIOL = fget s R.TA_MON R.TA_MON_TA_VIOL ∧ regsOnly (fun a => a = R.TA_MON) s t) ∧
  (∀ (p : Port) (s : State), ∃ t, exec (.latchedRead p (BitVec.ofNat 32 R.TIME_NS)) s = .next t ∧ t.host.acc = (0, BitVec.ofNat 32 s.time.ns) ∧
      tget 0 t.host.latch (stagedKey (portCode p) R.TIME_ERA) = BitVec.ofNat 32 (s.time.ns / 2 ^ 32) ∧
      (∀ q, q ≠ p → tget 0 t.host.latch (stagedKey (portCode q) R.TIME_ERA) = tget 0 s.host.latch (stagedKey (portCode q) R.TIME_ERA)) ∧ t.regs = s.regs) ∧
  (∀ (p : Port) (s : State), ∃ t, exec (.latchedRead p (BitVec.ofNat 32 R.TIME_ERA)) s = .next t ∧
      t.host.acc = (0, tget 0 s.host.latch (stagedKey (portCode p) R.TIME_ERA)) ∧ t.regs = s.regs ∧ t.host.latch = s.host.latch) ∧
  (∀ (w : Who) (v : Word) (s : State), accepted s w R.BLK_LOCK v → w.port ≠ .steward → fbit s R.BOOT_STATUS R.BOOT_STATUS_MINIMAL = false →
      (fget s R.BLK_LOCK R.BLK_LOCK_LOCK_SESS = 0 ∨ fget s R.BLK_LOCK R.BLK_LOCK_LOCK_SESS = w.sess.toNat) → v.toNat % 65536 &&& 0x1FFE ≠ 0 →
    ∃ t, exec (.blkLockWrite w v) s = .next t ∧ t.host.acc = (0, 0) ∧ fget t R.BLK_LOCK R.BLK_LOCK_LOCK_SESS = w.sess.toNat ∧
      fget t R.BLK_LOCK R.BLK_LOCK_OPEN = v.toNat % 65536 &&& 0x1FFE ∧ regsOnly (fun a => sedAny a ∨ logAddr a ∨ a = R.BLK_LOCK) s t ∧ onlyParts (sedParts.append (logParts.append [.hostAcc])) s t) ∧
  (∀ (w : Who) (v : Word) (s : State), judge s w R.BLK_LOCK v = true → w.port ≠ .steward → fget s R.BLK_LOCK R.BLK_LOCK_LOCK_SESS ≠ 0 → fget s R.BLK_LOCK R.BLK_LOCK_LOCK_SESS ≠ w.sess.toNat →
    ∃ t, exec (.blkLockWrite w v) s = .next t ∧ t.host.acc = (2, 0) ∧ rd t R.BLK_LOCK = rd s R.BLK_LOCK) ∧
  (∀ (s : State), ∃ t, exec .recordApply s = .next t ∧ (s.pair.recs = [] → (∀ r ∈ s.pair.held, later 16 r.eff.toNat (cycNow s) = true) → t.regs = s.regs ∧ t.pair.held = s.pair.held))
end

