-- ==== Sys2Proof/Laws/Table.lean ====
section
/-! SUPPORT. The sparse table: what a key holds after a write, and that a write keeps the canonical form. -/

namespace Sys2Proof

theorem Tbl.get_put_same {α : Type} (d : Nat → α) (t : Tbl α) (k : Nat) (v : α) : Tbl.get d (Tbl.put t k v) k = v := by
  induction t with
  | nil => simp [Tbl.put, Tbl.get]
  | cons e t ih =>
    obtain ⟨j, w⟩ := e
    simp only [Tbl.put]
    split
    · simp [Tbl.get]
    · split
      · simp [Tbl.get]
      · rename_i h; simp only [Tbl.get]; rw [if_neg (fun e => h e.symm)]; exact ih

theorem Tbl.get_put_other {α : Type} (d : Nat → α) (t : Tbl α) (k j : Nat) (v : α) (h : j ≠ k) :
    Tbl.get d (Tbl.put t k v) j = Tbl.get d t j := by
  induction t with
  | nil => simp only [Tbl.put, Tbl.get]; rw [if_neg (Ne.symm h)]
  | cons e t ih =>
    obtain ⟨i, w⟩ := e
    simp only [Tbl.put]
    split
    · simp only [Tbl.get]; rw [if_neg (Ne.symm h)]
    · split
      · rename_i e; subst e; simp only [Tbl.get]; rw [if_neg (Ne.symm h), if_neg (Ne.symm h)]
      · simp only [Tbl.get]; rw [ih]

theorem Tbl.get_del_same {α : Type} (d : Nat → α) (t : Tbl α) (k : Nat) : Tbl.get d (Tbl.del t k) k = d k := by
  induction t with
  | nil => rfl
  | cons e t ih =>
    obtain ⟨j, w⟩ := e
    simp only [Tbl.del]
    split
    · exact ih
    · rename_i h; simp only [Tbl.get]; rw [if_neg h]; exact ih

theorem Tbl.get_del_other {α : Type} (d : Nat → α) (t : Tbl α) (k j : Nat) (h : j ≠ k) :
    Tbl.get d (Tbl.del t k) j = Tbl.get d t j := by
  induction t with
  | nil => rfl
  | cons e t ih =>
    obtain ⟨i, w⟩ := e
    simp only [Tbl.del]
    split
    · rename_i e; subst e; rw [ih]; simp only [Tbl.get]; rw [if_neg (Ne.symm h)]
    · simp only [Tbl.get]; rw [ih]

/-- What a table holds after a write. -/
theorem Tbl.get_set {α : Type} [DecidableEq α] (d : Nat → α) (t : Tbl α) (k j : Nat) (v : α) :
    Tbl.get d (Tbl.set d t k v) j = if j = k then v else Tbl.get d t j := by
  unfold Tbl.set
  split <;> rename_i hv <;> split <;> rename_i hj
  · subst hj; rw [Tbl.get_del_same, hv]
  · exact Tbl.get_del_other d t k j hj
  · subst hj; exact Tbl.get_put_same d t j v
  · exact Tbl.get_put_other d t k j v hj

theorem Tbl.above_mono {α : Type} {i k : Nat} {t : Tbl α} (h : i ≤ k) (ht : Tbl.above k t = true) : Tbl.above i t = true := by
  cases t with
  | nil => rfl
  | cons e t => obtain ⟨j, w⟩ := e; simp only [Tbl.above, Bool.and_eq_true, decide_eq_true_eq] at *; exact ⟨by omega, ht.2⟩

theorem Tbl.above_filter {α : Type} (p : Nat × α → Bool) {i : Nat} {t : Tbl α} (ht : Tbl.above i t = true) :
    Tbl.above i (t.filter p) = true := by
  induction t generalizing i with
  | nil => rfl
  | cons e t ih =>
    obtain ⟨j, w⟩ := e
    simp only [Tbl.above, Bool.and_eq_true, decide_eq_true_eq] at ht
    simp only [List.filter]
    split
    · simp only [Tbl.above, Bool.and_eq_true, decide_eq_true_eq]; exact ⟨ht.1, ih ht.2⟩
    · exact Tbl.above_mono (by omega) (ih ht.2)

theorem Tbl.del_eq_filter {α : Type} (t : Tbl α) (k : Nat) : Tbl.del t k = t.filter fun e => decide (e.1 ≠ k) := by
  induction t with
  | nil => rfl
  | cons e t ih =>
    obtain ⟨j, w⟩ := e
    simp only [Tbl.del, List.filter]
    split
    · rename_i h; subst h; simpa using ih
    · rename_i h; simp [h, ih]

theorem Tbl.above_put {α : Type} {i k : Nat} {v : α} {t : Tbl α} (h : i < k) (ht : Tbl.above i t = true) :
    Tbl.above i (Tbl.put t k v) = true := by
  induction t generalizing i with
  | nil => simp [Tbl.put, Tbl.above, h]
  | cons e t ih =>
    obtain ⟨j, w⟩ := e
    simp only [Tbl.above, Bool.and_eq_true, decide_eq_true_eq] at ht
    simp only [Tbl.put]
    split
    · simp only [Tbl.above, Bool.and_eq_true, decide_eq_true_eq]; exact ⟨h, by assumption, ht.2⟩
    · split
      · rename_i e; subst e; simp only [Tbl.above, Bool.and_eq_true, decide_eq_true_eq]; exact ht
      · simp only [Tbl.above, Bool.and_eq_true, decide_eq_true_eq]; exact ⟨ht.1, ih (by omega) ht.2⟩

theorem Tbl.rising_of_above {α : Type} {i : Nat} {t : Tbl α} (ht : Tbl.above i t = true) : Tbl.rising t = true := by
  cases t with
  | nil => rfl
  | cons e t => obtain ⟨j, w⟩ := e; simp only [Tbl.above, Bool.and_eq_true] at ht; exact ht.2

theorem Tbl.rising_filter {α : Type} (p : Nat × α → Bool) {t : Tbl α} (ht : Tbl.rising t = true) : Tbl.rising (t.filter p) = true := by
  cases t with
  | nil => rfl
  | cons e t =>
    obtain ⟨j, w⟩ := e
    simp only [List.filter]
    split
    · exact Tbl.above_filter p ht
    · exact Tbl.rising_of_above (Tbl.above_filter p ht)

theorem Tbl.rising_put {α : Type} {k : Nat} {v : α} {t : Tbl α} (ht : Tbl.rising t = true) : Tbl.rising (Tbl.put t k v) = true := by
  cases t with
  | nil => rfl
  | cons e t =>
    obtain ⟨j, w⟩ := e
    simp only [Tbl.put]
    split
    · simp only [Tbl.rising, Tbl.above, Bool.and_eq_true, decide_eq_true_eq]; exact ⟨by assumption, ht⟩
    · split
      · rename_i e; subst e; exact ht
      · exact Tbl.above_put (by omega) ht

theorem Tbl.lean_put {α : Type} [DecidableEq α] {d : Nat → α} {k : Nat} {v : α} {t : Tbl α} (hv : v ≠ d k)
    (ht : Tbl.lean d t = true) : Tbl.lean d (Tbl.put t k v) = true := by
  induction t with
  | nil => simp [Tbl.put, Tbl.lean, hv]
  | cons e t ih =>
    obtain ⟨j, w⟩ := e
    simp only [Tbl.lean, List.all_cons, Bool.and_eq_true, decide_eq_true_eq] at *
    simp only [Tbl.put]
    split
    · simp only [List.all_cons, Bool.and_eq_true, decide_eq_true_eq]; exact ⟨hv, ht⟩
    · split
      · simp only [List.all_cons, Bool.and_eq_true, decide_eq_true_eq]; exact ⟨hv, ht.2⟩
      · simp only [List.all_cons, Bool.and_eq_true, decide_eq_true_eq]; exact ⟨ht.1, ih ht.2⟩

theorem Tbl.wf_filter {α : Type} [DecidableEq α] {d : Nat → α} (p : Nat × α → Bool) {t : Tbl α} (ht : Tbl.wf d t = true) :
    Tbl.wf d (t.filter p) = true := by
  simp only [Tbl.wf, Tbl.lean, Bool.and_eq_true, List.all_eq_true] at *
  exact ⟨Tbl.rising_filter p ht.1, fun e he => ht.2 e (List.mem_filter.mp he).1⟩

/-- A write keeps the canonical form. -/
theorem Tbl.wf_set {α : Type} [DecidableEq α] {d : Nat → α} {k : Nat} {v : α} {t : Tbl α} (ht : Tbl.wf d t = true) :
    Tbl.wf d (Tbl.set d t k v) = true := by
  unfold Tbl.set
  split
  · rw [Tbl.del_eq_filter]; exact Tbl.wf_filter _ ht
  · rename_i hv
    simp only [Tbl.wf, Bool.and_eq_true] at *
    exact ⟨Tbl.rising_put ht.1, Tbl.lean_put hv ht.2⟩

end Sys2Proof
end

