-- ==== Sys2Proof/Laws/State.lean ====
section
/-! SUPPORT. What every named update of the state leaves: one lemma per field per update, true by unfolding, and for each indexed table the read after a write. -/

namespace Sys2Proof.Laws
open Sys2Proof Sys2Proof.Machine

variable (s : State)

theorem tget_tset {α : Type} [DecidableEq α] (d : α) (t : Tbl α) (k j : Nat) (v : α) : tget d (tset d t k v) j = if j = k then v else tget d t j :=
  Tbl.get_set _ _ _ _ _

/-! ### A register word -/

theorem rd_wr (a b : Nat) (v : Word) : rd (wr s a v) b = if b = a then v else rd s b := Tbl.get_set _ _ _ _ _
@[simp] theorem rd_wr_same (a : Nat) (v : Word) : rd (wr s a v) a = v := by rw [rd_wr, if_pos rfl]
theorem rd_wr_other {a b : Nat} (v : Word) (h : b ≠ a) : rd (wr s a v) b = rd s b := by rw [rd_wr, if_neg h]
@[simp] theorem wr_core (a : Nat) (v : Word) : (wr s a v).core = s.core := by cases s; rfl
@[simp] theorem wr_ang (a : Nat) (v : Word) : (wr s a v).ang = s.ang := by cases s; rfl
@[simp] theorem wr_sch (a : Nat) (v : Word) : (wr s a v).sch = s.sch := by cases s; rfl
@[simp] theorem wr_law (a : Nat) (v : Word) : (wr s a v).law = s.law := by cases s; rfl
@[simp] theorem wr_mot (a : Nat) (v : Word) : (wr s a v).mot = s.mot := by cases s; rfl
@[simp] theorem wr_lane (a : Nat) (v : Word) : (wr s a v).lane = s.lane := by cases s; rfl
@[simp] theorem wr_edge (a : Nat) (v : Word) : (wr s a v).edge = s.edge := by cases s; rfl
@[simp] theorem wr_net (a : Nat) (v : Word) : (wr s a v).net = s.net := by cases s; rfl
@[simp] theorem wr_time (a : Nat) (v : Word) : (wr s a v).time = s.time := by cases s; rfl
@[simp] theorem wr_pair (a : Nat) (v : Word) : (wr s a v).pair = s.pair := by cases s; rfl
@[simp] theorem wr_safe (a : Nat) (v : Word) : (wr s a v).safe = s.safe := by cases s; rfl
@[simp] theorem wr_boot (a : Nat) (v : Word) : (wr s a v).boot = s.boot := by cases s; rfl
@[simp] theorem wr_host (a : Nat) (v : Word) : (wr s a v).host = s.host := by cases s; rfl
@[simp] theorem wr_freeCtr (a : Nat) (v : Word) : (wr s a v).freeCtr = s.freeCtr := by cases s; rfl
@[simp] theorem wr_pending (a : Nat) (v : Word) : (wr s a v).pending = s.pending := by cases s; rfl
@[simp] theorem ctx_wr (a k : Nat) (v : Word) : (wr s a v).ctx k = s.ctx k := by cases s; rfl
@[simp] theorem fb_wr (a k : Nat) (v : Word) : (wr s a v).fb k = s.fb k := by cases s; rfl
@[simp] theorem region_wr (a k : Nat) (v : Word) : (wr s a v).region k = s.region k := by cases s; rfl
@[simp] theorem src_wr (a k : Nat) (v : Word) : (wr s a v).src k = s.src k := by cases s; rfl
@[simp] theorem dl_wr (a k : Nat) (v : Word) : (wr s a v).dl k = s.dl k := by cases s; rfl
@[simp] theorem unit_wr (a k : Nat) (v : Word) : (wr s a v).unit k = s.unit k := by cases s; rfl
@[simp] theorem axl_wr (a k : Nat) (v : Word) : (wr s a v).axl k = s.axl k := by cases s; rfl
@[simp] theorem gen_wr (a k : Nat) (v : Word) : (wr s a v).gen k = s.gen k := by cases s; rfl
@[simp] theorem co_wr (a k : Nat) (v : Word) : (wr s a v).co k = s.co k := by cases s; rfl
@[simp] theorem link_wr (a k : Nat) (v : Word) : (wr s a v).link k = s.link k := by cases s; rfl
@[simp] theorem seg_wr (a k : Nat) (v : Word) : (wr s a v).seg k = s.seg k := by cases s; rfl
@[simp] theorem node_wr (a k : Nat) (v : Word) : (wr s a v).node k = s.node k := by cases s; rfl
@[simp] theorem axn_wr (a k : Nat) (v : Word) : (wr s a v).axn k = s.axn k := by cases s; rfl
@[simp] theorem hport_wr (a k : Nat) (v : Word) : (wr s a v).hport k = s.hport k := by cases s; rfl
@[simp] theorem tout_wr (a k : Nat) (v : Word) : (wr s a v).tout k = s.tout k := by cases s; rfl
@[simp] theorem zone_wr (a k : Nat) (v : Word) : (wr s a v).zone k = s.zone k := by cases s; rfl
@[simp] theorem lan_wr (a k : Nat) (v : Word) : (wr s a v).lan k = s.lan k := by cases s; rfl
@[simp] theorem chan_wr (a k : Nat) (v : Word) : (wr s a v).chan k = s.chan k := by cases s; rfl
@[simp] theorem encIf_wr (a k : Nat) (v : Word) : (wr s a v).encIf k = s.encIf k := by cases s; rfl
@[simp] theorem shadow_wr (a k : Nat) (v : Word) : (wr s a v).shadow k = s.shadow k := by cases s; rfl

/-! ### Ctx -/

@[simp] theorem rd_setCtx (n : Nat) (x : Ctx) (a : Nat) : rd (s.setCtx n x) a = rd s a := by cases s; rfl
theorem ctx_setCtx (n : Nat) (x : Ctx) (k : Nat) : (s.setCtx n x).ctx k = if k = n then x else s.ctx k := tget_tset _ _ _ _ _
@[simp] theorem ctx_setCtx_same (n : Nat) (x : Ctx) : (s.setCtx n x).ctx n = x := by rw [ctx_setCtx, if_pos rfl]
@[simp] theorem setCtx_regs (n : Nat) (x : Ctx) : (s.setCtx n x).regs = s.regs := by cases s; rfl
@[simp] theorem setCtx_ang (n : Nat) (x : Ctx) : (s.setCtx n x).ang = s.ang := by cases s; rfl
@[simp] theorem setCtx_sch (n : Nat) (x : Ctx) : (s.setCtx n x).sch = s.sch := by cases s; rfl
@[simp] theorem setCtx_law (n : Nat) (x : Ctx) : (s.setCtx n x).law = s.law := by cases s; rfl
@[simp] theorem setCtx_mot (n : Nat) (x : Ctx) : (s.setCtx n x).mot = s.mot := by cases s; rfl
@[simp] theorem setCtx_lane (n : Nat) (x : Ctx) : (s.setCtx n x).lane = s.lane := by cases s; rfl
@[simp] theorem setCtx_edge (n : Nat) (x : Ctx) : (s.setCtx n x).edge = s.edge := by cases s; rfl
@[simp] theorem setCtx_net (n : Nat) (x : Ctx) : (s.setCtx n x).net = s.net := by cases s; rfl
@[simp] theorem setCtx_time (n : Nat) (x : Ctx) : (s.setCtx n x).time = s.time := by cases s; rfl
@[simp] theorem setCtx_pair (n : Nat) (x : Ctx) : (s.setCtx n x).pair = s.pair := by cases s; rfl
@[simp] theorem setCtx_safe (n : Nat) (x : Ctx) : (s.setCtx n x).safe = s.safe := by cases s; rfl
@[simp] theorem setCtx_boot (n : Nat) (x : Ctx) : (s.setCtx n x).boot = s.boot := by cases s; rfl
@[simp] theorem setCtx_host (n : Nat) (x : Ctx) : (s.setCtx n x).host = s.host := by cases s; rfl
@[simp] theorem setCtx_freeCtr (n : Nat) (x : Ctx) : (s.setCtx n x).freeCtr = s.freeCtr := by cases s; rfl
@[simp] theorem setCtx_pending (n : Nat) (x : Ctx) : (s.setCtx n x).pending = s.pending := by cases s; rfl
@[simp] theorem fb_setCtx (n : Nat) (x : Ctx) (k : Nat) : (s.setCtx n x).fb k = s.fb k := by cases s; rfl
@[simp] theorem region_setCtx (n : Nat) (x : Ctx) (k : Nat) : (s.setCtx n x).region k = s.region k := by cases s; rfl

/-! ### Fb -/

@[simp] theorem rd_setFb (n : Nat) (x : Fb) (a : Nat) : rd (s.setFb n x) a = rd s a := by cases s; rfl
theorem fb_setFb (n : Nat) (x : Fb) (k : Nat) : (s.setFb n x).fb k = if k = n then x else s.fb k := tget_tset _ _ _ _ _
@[simp] theorem fb_setFb_same (n : Nat) (x : Fb) : (s.setFb n x).fb n = x := by rw [fb_setFb, if_pos rfl]
@[simp] theorem setFb_regs (n : Nat) (x : Fb) : (s.setFb n x).regs = s.regs := by cases s; rfl
@[simp] theorem setFb_ang (n : Nat) (x : Fb) : (s.setFb n x).ang = s.ang := by cases s; rfl
@[simp] theorem setFb_sch (n : Nat) (x : Fb) : (s.setFb n x).sch = s.sch := by cases s; rfl
@[simp] theorem setFb_law (n : Nat) (x : Fb) : (s.setFb n x).law = s.law := by cases s; rfl
@[simp] theorem setFb_mot (n : Nat) (x : Fb) : (s.setFb n x).mot = s.mot := by cases s; rfl
@[simp] theorem setFb_lane (n : Nat) (x : Fb) : (s.setFb n x).lane = s.lane := by cases s; rfl
@[simp] theorem setFb_edge (n : Nat) (x : Fb) : (s.setFb n x).edge = s.edge := by cases s; rfl
@[simp] theorem setFb_net (n : Nat) (x : Fb) : (s.setFb n x).net = s.net := by cases s; rfl
@[simp] theorem setFb_time (n : Nat) (x : Fb) : (s.setFb n x).time = s.time := by cases s; rfl
@[simp] theorem setFb_pair (n : Nat) (x : Fb) : (s.setFb n x).pair = s.pair := by cases s; rfl
@[simp] theorem setFb_safe (n : Nat) (x : Fb) : (s.setFb n x).safe = s.safe := by cases s; rfl
@[simp] theorem setFb_boot (n : Nat) (x : Fb) : (s.setFb n x).boot = s.boot := by cases s; rfl
@[simp] theorem setFb_host (n : Nat) (x : Fb) : (s.setFb n x).host = s.host := by cases s; rfl
@[simp] theorem setFb_freeCtr (n : Nat) (x : Fb) : (s.setFb n x).freeCtr = s.freeCtr := by cases s; rfl
@[simp] theorem setFb_pending (n : Nat) (x : Fb) : (s.setFb n x).pending = s.pending := by cases s; rfl
@[simp] theorem ctx_setFb (n : Nat) (x : Fb) (k : Nat) : (s.setFb n x).ctx k = s.ctx k := by cases s; rfl
@[simp] theorem region_setFb (n : Nat) (x : Fb) (k : Nat) : (s.setFb n x).region k = s.region k := by cases s; rfl

/-! ### Region -/

@[simp] theorem rd_setRegion (n : Nat) (x : Region) (a : Nat) : rd (s.setRegion n x) a = rd s a := by cases s; rfl
theorem region_setRegion (n : Nat) (x : Region) (k : Nat) : (s.setRegion n x).region k = if k = n then x else s.region k := tget_tset _ _ _ _ _
@[simp] theorem region_setRegion_same (n : Nat) (x : Region) : (s.setRegion n x).region n = x := by rw [region_setRegion, if_pos rfl]
@[simp] theorem setRegion_regs (n : Nat) (x : Region) : (s.setRegion n x).regs = s.regs := by cases s; rfl
@[simp] theorem setRegion_ang (n : Nat) (x : Region) : (s.setRegion n x).ang = s.ang := by cases s; rfl
@[simp] theorem setRegion_sch (n : Nat) (x : Region) : (s.setRegion n x).sch = s.sch := by cases s; rfl
@[simp] theorem setRegion_law (n : Nat) (x : Region) : (s.setRegion n x).law = s.law := by cases s; rfl
@[simp] theorem setRegion_mot (n : Nat) (x : Region) : (s.setRegion n x).mot = s.mot := by cases s; rfl
@[simp] theorem setRegion_lane (n : Nat) (x : Region) : (s.setRegion n x).lane = s.lane := by cases s; rfl
@[simp] theorem setRegion_edge (n : Nat) (x : Region) : (s.setRegion n x).edge = s.edge := by cases s; rfl
@[simp] theorem setRegion_net (n : Nat) (x : Region) : (s.setRegion n x).net = s.net := by cases s; rfl
@[simp] theorem setRegion_time (n : Nat) (x : Region) : (s.setRegion n x).time = s.time := by cases s; rfl
@[simp] theorem setRegion_pair (n : Nat) (x : Region) : (s.setRegion n x).pair = s.pair := by cases s; rfl
@[simp] theorem setRegion_safe (n : Nat) (x : Region) : (s.setRegion n x).safe = s.safe := by cases s; rfl
@[simp] theorem setRegion_boot (n : Nat) (x : Region) : (s.setRegion n x).boot = s.boot := by cases s; rfl
@[simp] theorem setRegion_host (n : Nat) (x : Region) : (s.setRegion n x).host = s.host := by cases s; rfl
@[simp] theorem setRegion_freeCtr (n : Nat) (x : Region) : (s.setRegion n x).freeCtr = s.freeCtr := by cases s; rfl
@[simp] theorem setRegion_pending (n : Nat) (x : Region) : (s.setRegion n x).pending = s.pending := by cases s; rfl
@[simp] theorem ctx_setRegion (n : Nat) (x : Region) (k : Nat) : (s.setRegion n x).ctx k = s.ctx k := by cases s; rfl
@[simp] theorem fb_setRegion (n : Nat) (x : Region) (k : Nat) : (s.setRegion n x).fb k = s.fb k := by cases s; rfl

/-! ### Src -/

@[simp] theorem rd_setSrc (n : Nat) (x : Src) (a : Nat) : rd (s.setSrc n x) a = rd s a := by cases s; rfl
theorem src_setSrc (n : Nat) (x : Src) (k : Nat) : (s.setSrc n x).src k = if k = n then x else s.src k := tget_tset _ _ _ _ _
@[simp] theorem src_setSrc_same (n : Nat) (x : Src) : (s.setSrc n x).src n = x := by rw [src_setSrc, if_pos rfl]
@[simp] theorem setSrc_regs (n : Nat) (x : Src) : (s.setSrc n x).regs = s.regs := by cases s; rfl
@[simp] theorem setSrc_core (n : Nat) (x : Src) : (s.setSrc n x).core = s.core := by cases s; rfl
@[simp] theorem setSrc_sch (n : Nat) (x : Src) : (s.setSrc n x).sch = s.sch := by cases s; rfl
@[simp] theorem setSrc_law (n : Nat) (x : Src) : (s.setSrc n x).law = s.law := by cases s; rfl
@[simp] theorem setSrc_mot (n : Nat) (x : Src) : (s.setSrc n x).mot = s.mot := by cases s; rfl
@[simp] theorem setSrc_lane (n : Nat) (x : Src) : (s.setSrc n x).lane = s.lane := by cases s; rfl
@[simp] theorem setSrc_edge (n : Nat) (x : Src) : (s.setSrc n x).edge = s.edge := by cases s; rfl
@[simp] theorem setSrc_net (n : Nat) (x : Src) : (s.setSrc n x).net = s.net := by cases s; rfl
@[simp] theorem setSrc_time (n : Nat) (x : Src) : (s.setSrc n x).time = s.time := by cases s; rfl
@[simp] theorem setSrc_pair (n : Nat) (x : Src) : (s.setSrc n x).pair = s.pair := by cases s; rfl
@[simp] theorem setSrc_safe (n : Nat) (x : Src) : (s.setSrc n x).safe = s.safe := by cases s; rfl
@[simp] theorem setSrc_boot (n : Nat) (x : Src) : (s.setSrc n x).boot = s.boot := by cases s; rfl
@[simp] theorem setSrc_host (n : Nat) (x : Src) : (s.setSrc n x).host = s.host := by cases s; rfl
@[simp] theorem setSrc_freeCtr (n : Nat) (x : Src) : (s.setSrc n x).freeCtr = s.freeCtr := by cases s; rfl
@[simp] theorem setSrc_pending (n : Nat) (x : Src) : (s.setSrc n x).pending = s.pending := by cases s; rfl

/-! ### Dl -/

@[simp] theorem rd_setDl (n : Nat) (x : List DEnt) (a : Nat) : rd (s.setDl n x) a = rd s a := by cases s; rfl
theorem dl_setDl (n : Nat) (x : List DEnt) (k : Nat) : (s.setDl n x).dl k = if k = n then x else s.dl k := tget_tset _ _ _ _ _
@[simp] theorem dl_setDl_same (n : Nat) (x : List DEnt) : (s.setDl n x).dl n = x := by rw [dl_setDl, if_pos rfl]
@[simp] theorem setDl_regs (n : Nat) (x : List DEnt) : (s.setDl n x).regs = s.regs := by cases s; rfl
@[simp] theorem setDl_core (n : Nat) (x : List DEnt) : (s.setDl n x).core = s.core := by cases s; rfl
@[simp] theorem setDl_ang (n : Nat) (x : List DEnt) : (s.setDl n x).ang = s.ang := by cases s; rfl
@[simp] theorem setDl_law (n : Nat) (x : List DEnt) : (s.setDl n x).law = s.law := by cases s; rfl
@[simp] theorem setDl_mot (n : Nat) (x : List DEnt) : (s.setDl n x).mot = s.mot := by cases s; rfl
@[simp] theorem setDl_lane (n : Nat) (x : List DEnt) : (s.setDl n x).lane = s.lane := by cases s; rfl
@[simp] theorem setDl_edge (n : Nat) (x : List DEnt) : (s.setDl n x).edge = s.edge := by cases s; rfl
@[simp] theorem setDl_net (n : Nat) (x : List DEnt) : (s.setDl n x).net = s.net := by cases s; rfl
@[simp] theorem setDl_time (n : Nat) (x : List DEnt) : (s.setDl n x).time = s.time := by cases s; rfl
@[simp] theorem setDl_pair (n : Nat) (x : List DEnt) : (s.setDl n x).pair = s.pair := by cases s; rfl
@[simp] theorem setDl_safe (n : Nat) (x : List DEnt) : (s.setDl n x).safe = s.safe := by cases s; rfl
@[simp] theorem setDl_boot (n : Nat) (x : List DEnt) : (s.setDl n x).boot = s.boot := by cases s; rfl
@[simp] theorem setDl_host (n : Nat) (x : List DEnt) : (s.setDl n x).host = s.host := by cases s; rfl
@[simp] theorem setDl_freeCtr (n : Nat) (x : List DEnt) : (s.setDl n x).freeCtr = s.freeCtr := by cases s; rfl
@[simp] theorem setDl_pending (n : Nat) (x : List DEnt) : (s.setDl n x).pending = s.pending := by cases s; rfl
@[simp] theorem unit_setDl (n : Nat) (x : List DEnt) (k : Nat) : (s.setDl n x).unit k = s.unit k := by cases s; rfl

/-! ### Unit -/

@[simp] theorem rd_setUnit (n : Nat) (x : UnitSt) (a : Nat) : rd (s.setUnit n x) a = rd s a := by cases s; rfl
theorem unit_setUnit (n : Nat) (x : UnitSt) (k : Nat) : (s.setUnit n x).unit k = if k = n then x else s.unit k := tget_tset _ _ _ _ _
@[simp] theorem unit_setUnit_same (n : Nat) (x : UnitSt) : (s.setUnit n x).unit n = x := by rw [unit_setUnit, if_pos rfl]
@[simp] theorem setUnit_regs (n : Nat) (x : UnitSt) : (s.setUnit n x).regs = s.regs := by cases s; rfl
@[simp] theorem setUnit_core (n : Nat) (x : UnitSt) : (s.setUnit n x).core = s.core := by cases s; rfl
@[simp] theorem setUnit_ang (n : Nat) (x : UnitSt) : (s.setUnit n x).ang = s.ang := by cases s; rfl
@[simp] theorem setUnit_law (n : Nat) (x : UnitSt) : (s.setUnit n x).law = s.law := by cases s; rfl
@[simp] theorem setUnit_mot (n : Nat) (x : UnitSt) : (s.setUnit n x).mot = s.mot := by cases s; rfl
@[simp] theorem setUnit_lane (n : Nat) (x : UnitSt) : (s.setUnit n x).lane = s.lane := by cases s; rfl
@[simp] theorem setUnit_edge (n : Nat) (x : UnitSt) : (s.setUnit n x).edge = s.edge := by cases s; rfl
@[simp] theorem setUnit_net (n : Nat) (x : UnitSt) : (s.setUnit n x).net = s.net := by cases s; rfl
@[simp] theorem setUnit_time (n : Nat) (x : UnitSt) : (s.setUnit n x).time = s.time := by cases s; rfl
@[simp] theorem setUnit_pair (n : Nat) (x : UnitSt) : (s.setUnit n x).pair = s.pair := by cases s; rfl
@[simp] theorem setUnit_safe (n : Nat) (x : UnitSt) : (s.setUnit n x).safe = s.safe := by cases s; rfl
@[simp] theorem setUnit_boot (n : Nat) (x : UnitSt) : (s.setUnit n x).boot = s.boot := by cases s; rfl
@[simp] theorem setUnit_host (n : Nat) (x : UnitSt) : (s.setUnit n x).host = s.host := by cases s; rfl
@[simp] theorem setUnit_freeCtr (n : Nat) (x : UnitSt) : (s.setUnit n x).freeCtr = s.freeCtr := by cases s; rfl
@[simp] theorem setUnit_pending (n : Nat) (x : UnitSt) : (s.setUnit n x).pending = s.pending := by cases s; rfl
@[simp] theorem dl_setUnit (n : Nat) (x : UnitSt) (k : Nat) : (s.setUnit n x).dl k = s.dl k := by cases s; rfl

/-! ### Axl -/

@[simp] theorem rd_setAxl (n : Nat) (x : AxLaw) (a : Nat) : rd (s.setAxl n x) a = rd s a := by cases s; rfl
theorem axl_setAxl (n : Nat) (x : AxLaw) (k : Nat) : (s.setAxl n x).axl k = if k = n then x else s.axl k := tget_tset _ _ _ _ _
@[simp] theorem axl_setAxl_same (n : Nat) (x : AxLaw) : (s.setAxl n x).axl n = x := by rw [axl_setAxl, if_pos rfl]
@[simp] theorem setAxl_regs (n : Nat) (x : AxLaw) : (s.setAxl n x).regs = s.regs := by cases s; rfl
@[simp] theorem setAxl_core (n : Nat) (x : AxLaw) : (s.setAxl n x).core = s.core := by cases s; rfl
@[simp] theorem setAxl_ang (n : Nat) (x : AxLaw) : (s.setAxl n x).ang = s.ang := by cases s; rfl
@[simp] theorem setAxl_sch (n : Nat) (x : AxLaw) : (s.setAxl n x).sch = s.sch := by cases s; rfl
@[simp] theorem setAxl_mot (n : Nat) (x : AxLaw) : (s.setAxl n x).mot = s.mot := by cases s; rfl
@[simp] theorem setAxl_lane (n : Nat) (x : AxLaw) : (s.setAxl n x).lane = s.lane := by cases s; rfl
@[simp] theorem setAxl_edge (n : Nat) (x : AxLaw) : (s.setAxl n x).edge = s.edge := by cases s; rfl
@[simp] theorem setAxl_net (n : Nat) (x : AxLaw) : (s.setAxl n x).net = s.net := by cases s; rfl
@[simp] theorem setAxl_time (n : Nat) (x : AxLaw) : (s.setAxl n x).time = s.time := by cases s; rfl
@[simp] theorem setAxl_pair (n : Nat) (x : AxLaw) : (s.setAxl n x).pair = s.pair := by cases s; rfl
@[simp] theorem setAxl_safe (n : Nat) (x : AxLaw) : (s.setAxl n x).safe = s.safe := by cases s; rfl
@[simp] theorem setAxl_boot (n : Nat) (x : AxLaw) : (s.setAxl n x).boot = s.boot := by cases s; rfl
@[simp] theorem setAxl_host (n : Nat) (x : AxLaw) : (s.setAxl n x).host = s.host := by cases s; rfl
@[simp] theorem setAxl_freeCtr (n : Nat) (x : AxLaw) : (s.setAxl n x).freeCtr = s.freeCtr := by cases s; rfl
@[simp] theorem setAxl_pending (n : Nat) (x : AxLaw) : (s.setAxl n x).pending = s.pending := by cases s; rfl

/-! ### Gen -/

@[simp] theorem rd_setGen (n : Nat) (x : Gen) (a : Nat) : rd (s.setGen n x) a = rd s a := by cases s; rfl
theorem gen_setGen (n : Nat) (x : Gen) (k : Nat) : (s.setGen n x).gen k = if k = n then x else s.gen k := tget_tset _ _ _ _ _
@[simp] theorem gen_setGen_same (n : Nat) (x : Gen) : (s.setGen n x).gen n = x := by rw [gen_setGen, if_pos rfl]
@[simp] theorem setGen_regs (n : Nat) (x : Gen) : (s.setGen n x).regs = s.regs := by cases s; rfl
@[simp] theorem setGen_core (n : Nat) (x : Gen) : (s.setGen n x).core = s.core := by cases s; rfl
@[simp] theorem setGen_ang (n : Nat) (x : Gen) : (s.setGen n x).ang = s.ang := by cases s; rfl
@[simp] theorem setGen_sch (n : Nat) (x : Gen) : (s.setGen n x).sch = s.sch := by cases s; rfl
@[simp] theorem setGen_law (n : Nat) (x : Gen) : (s.setGen n x).law = s.law := by cases s; rfl
@[simp] theorem setGen_lane (n : Nat) (x : Gen) : (s.setGen n x).lane = s.lane := by cases s; rfl
@[simp] theorem setGen_edge (n : Nat) (x : Gen) : (s.setGen n x).edge = s.edge := by cases s; rfl
@[simp] theorem setGen_net (n : Nat) (x : Gen) : (s.setGen n x).net = s.net := by cases s; rfl
@[simp] theorem setGen_time (n : Nat) (x : Gen) : (s.setGen n x).time = s.time := by cases s; rfl
@[simp] theorem setGen_pair (n : Nat) (x : Gen) : (s.setGen n x).pair = s.pair := by cases s; rfl
@[simp] theorem setGen_safe (n : Nat) (x : Gen) : (s.setGen n x).safe = s.safe := by cases s; rfl
@[simp] theorem setGen_boot (n : Nat) (x : Gen) : (s.setGen n x).boot = s.boot := by cases s; rfl
@[simp] theorem setGen_host (n : Nat) (x : Gen) : (s.setGen n x).host = s.host := by cases s; rfl
@[simp] theorem setGen_freeCtr (n : Nat) (x : Gen) : (s.setGen n x).freeCtr = s.freeCtr := by cases s; rfl
@[simp] theorem setGen_pending (n : Nat) (x : Gen) : (s.setGen n x).pending = s.pending := by cases s; rfl
@[simp] theorem co_setGen (n : Nat) (x : Gen) (k : Nat) : (s.setGen n x).co k = s.co k := by cases s; rfl

/-! ### Co -/

@[simp] theorem rd_setCo (n : Nat) (x : CoSlot) (a : Nat) : rd (s.setCo n x) a = rd s a := by cases s; rfl
theorem co_setCo (n : Nat) (x : CoSlot) (k : Nat) : (s.setCo n x).co k = if k = n then x else s.co k := tget_tset _ _ _ _ _
@[simp] theorem co_setCo_same (n : Nat) (x : CoSlot) : (s.setCo n x).co n = x := by rw [co_setCo, if_pos rfl]
@[simp] theorem setCo_regs (n : Nat) (x : CoSlot) : (s.setCo n x).regs = s.regs := by cases s; rfl
@[simp] theorem setCo_core (n : Nat) (x : CoSlot) : (s.setCo n x).core = s.core := by cases s; rfl
@[simp] theorem setCo_ang (n : Nat) (x : CoSlot) : (s.setCo n x).ang = s.ang := by cases s; rfl
@[simp] theorem setCo_sch (n : Nat) (x : CoSlot) : (s.setCo n x).sch = s.sch := by cases s; rfl
@[simp] theorem setCo_law (n : Nat) (x : CoSlot) : (s.setCo n x).law = s.law := by cases s; rfl
@[simp] theorem setCo_lane (n : Nat) (x : CoSlot) : (s.setCo n x).lane = s.lane := by cases s; rfl
@[simp] theorem setCo_edge (n : Nat) (x : CoSlot) : (s.setCo n x).edge = s.edge := by cases s; rfl
@[simp] theorem setCo_net (n : Nat) (x : CoSlot) : (s.setCo n x).net = s.net := by cases s; rfl
@[simp] theorem setCo_time (n : Nat) (x : CoSlot) : (s.setCo n x).time = s.time := by cases s; rfl
@[simp] theorem setCo_pair (n : Nat) (x : CoSlot) : (s.setCo n x).pair = s.pair := by cases s; rfl
@[simp] theorem setCo_safe (n : Nat) (x : CoSlot) : (s.setCo n x).safe = s.safe := by cases s; rfl
@[simp] theorem setCo_boot (n : Nat) (x : CoSlot) : (s.setCo n x).boot = s.boot := by cases s; rfl
@[simp] theorem setCo_host (n : Nat) (x : CoSlot) : (s.setCo n x).host = s.host := by cases s; rfl
@[simp] theorem setCo_freeCtr (n : Nat) (x : CoSlot) : (s.setCo n x).freeCtr = s.freeCtr := by cases s; rfl
@[simp] theorem setCo_pending (n : Nat) (x : CoSlot) : (s.setCo n x).pending = s.pending := by cases s; rfl
@[simp] theorem gen_setCo (n : Nat) (x : CoSlot) (k : Nat) : (s.setCo n x).gen k = s.gen k := by cases s; rfl

/-! ### Link -/

@[simp] theorem rd_setLink (n : Nat) (x : LinkSt) (a : Nat) : rd (s.setLink n x) a = rd s a := by cases s; rfl
theorem link_setLink (n : Nat) (x : LinkSt) (k : Nat) : (s.setLink n x).link k = if k = n then x else s.link k := tget_tset _ _ _ _ _
@[simp] theorem link_setLink_same (n : Nat) (x : LinkSt) : (s.setLink n x).link n = x := by rw [link_setLink, if_pos rfl]
@[simp] theorem setLink_regs (n : Nat) (x : LinkSt) : (s.setLink n x).regs = s.regs := by cases s; rfl
@[simp] theorem setLink_core (n : Nat) (x : LinkSt) : (s.setLink n x).core = s.core := by cases s; rfl
@[simp] theorem setLink_ang (n : Nat) (x : LinkSt) : (s.setLink n x).ang = s.ang := by cases s; rfl
@[simp] theorem setLink_sch (n : Nat) (x : LinkSt) : (s.setLink n x).sch = s.sch := by cases s; rfl
@[simp] theorem setLink_law (n : Nat) (x : LinkSt) : (s.setLink n x).law = s.law := by cases s; rfl
@[simp] theorem setLink_mot (n : Nat) (x : LinkSt) : (s.setLink n x).mot = s.mot := by cases s; rfl
@[simp] theorem setLink_lane (n : Nat) (x : LinkSt) : (s.setLink n x).lane = s.lane := by cases s; rfl
@[simp] theorem setLink_edge (n : Nat) (x : LinkSt) : (s.setLink n x).edge = s.edge := by cases s; rfl
@[simp] theorem setLink_time (n : Nat) (x : LinkSt) : (s.setLink n x).time = s.time := by cases s; rfl
@[simp] theorem setLink_pair (n : Nat) (x : LinkSt) : (s.setLink n x).pair = s.pair := by cases s; rfl
@[simp] theorem setLink_safe (n : Nat) (x : LinkSt) : (s.setLink n x).safe = s.safe := by cases s; rfl
@[simp] theorem setLink_boot (n : Nat) (x : LinkSt) : (s.setLink n x).boot = s.boot := by cases s; rfl
@[simp] theorem setLink_host (n : Nat) (x : LinkSt) : (s.setLink n x).host = s.host := by cases s; rfl
@[simp] theorem setLink_freeCtr (n : Nat) (x : LinkSt) : (s.setLink n x).freeCtr = s.freeCtr := by cases s; rfl
@[simp] theorem setLink_pending (n : Nat) (x : LinkSt) : (s.setLink n x).pending = s.pending := by cases s; rfl
@[simp] theorem seg_setLink (n : Nat) (x : LinkSt) (k : Nat) : (s.setLink n x).seg k = s.seg k := by cases s; rfl
@[simp] theorem node_setLink (n : Nat) (x : LinkSt) (k : Nat) : (s.setLink n x).node k = s.node k := by cases s; rfl
@[simp] theorem axn_setLink (n : Nat) (x : LinkSt) (k : Nat) : (s.setLink n x).axn k = s.axn k := by cases s; rfl

/-! ### Seg -/

@[simp] theorem rd_setSeg (n : Nat) (x : SegSt) (a : Nat) : rd (s.setSeg n x) a = rd s a := by cases s; rfl
theorem seg_setSeg (n : Nat) (x : SegSt) (k : Nat) : (s.setSeg n x).seg k = if k = n then x else s.seg k := tget_tset _ _ _ _ _
@[simp] theorem seg_setSeg_same (n : Nat) (x : SegSt) : (s.setSeg n x).seg n = x := by rw [seg_setSeg, if_pos rfl]
@[simp] theorem setSeg_regs (n : Nat) (x : SegSt) : (s.setSeg n x).regs = s.regs := by cases s; rfl
@[simp] theorem setSeg_core (n : Nat) (x : SegSt) : (s.setSeg n x).core = s.core := by cases s; rfl
@[simp] theorem setSeg_ang (n : Nat) (x : SegSt) : (s.setSeg n x).ang = s.ang := by cases s; rfl
@[simp] theorem setSeg_sch (n : Nat) (x : SegSt) : (s.setSeg n x).sch = s.sch := by cases s; rfl
@[simp] theorem setSeg_law (n : Nat) (x : SegSt) : (s.setSeg n x).law = s.law := by cases s; rfl
@[simp] theorem setSeg_mot (n : Nat) (x : SegSt) : (s.setSeg n x).mot = s.mot := by cases s; rfl
@[simp] theorem setSeg_lane (n : Nat) (x : SegSt) : (s.setSeg n x).lane = s.lane := by cases s; rfl
@[simp] theorem setSeg_edge (n : Nat) (x : SegSt) : (s.setSeg n x).edge = s.edge := by cases s; rfl
@[simp] theorem setSeg_time (n : Nat) (x : SegSt) : (s.setSeg n x).time = s.time := by cases s; rfl
@[simp] theorem setSeg_pair (n : Nat) (x : SegSt) : (s.setSeg n x).pair = s.pair := by cases s; rfl
@[simp] theorem setSeg_safe (n : Nat) (x : SegSt) : (s.setSeg n x).safe = s.safe := by cases s; rfl
@[simp] theorem setSeg_boot (n : Nat) (x : SegSt) : (s.setSeg n x).boot = s.boot := by cases s; rfl
@[simp] theorem setSeg_host (n : Nat) (x : SegSt) : (s.setSeg n x).host = s.host := by cases s; rfl
@[simp] theorem setSeg_freeCtr (n : Nat) (x : SegSt) : (s.setSeg n x).freeCtr = s.freeCtr := by cases s; rfl
@[simp] theorem setSeg_pending (n : Nat) (x : SegSt) : (s.setSeg n x).pending = s.pending := by cases s; rfl
@[simp] theorem link_setSeg (n : Nat) (x : SegSt) (k : Nat) : (s.setSeg n x).link k = s.link k := by cases s; rfl
@[simp] theorem node_setSeg (n : Nat) (x : SegSt) (k : Nat) : (s.setSeg n x).node k = s.node k := by cases s; rfl
@[simp] theorem axn_setSeg (n : Nat) (x : SegSt) (k : Nat) : (s.setSeg n x).axn k = s.axn k := by cases s; rfl

/-! ### Node -/

@[simp] theorem rd_setNode (n : Nat) (x : NodeSt) (a : Nat) : rd (s.setNode n x) a = rd s a := by cases s; rfl
theorem node_setNode (n : Nat) (x : NodeSt) (k : Nat) : (s.setNode n x).node k = if k = n then x else s.node k := tget_tset _ _ _ _ _
@[simp] theorem node_setNode_same (n : Nat) (x : NodeSt) : (s.setNode n x).node n = x := by rw [node_setNode, if_pos rfl]
@[simp] theorem setNode_regs (n : Nat) (x : NodeSt) : (s.setNode n x).regs = s.regs := by cases s; rfl
@[simp] theorem setNode_core (n : Nat) (x : NodeSt) : (s.setNode n x).core = s.core := by cases s; rfl
@[simp] theorem setNode_ang (n : Nat) (x : NodeSt) : (s.setNode n x).ang = s.ang := by cases s; rfl
@[simp] theorem setNode_sch (n : Nat) (x : NodeSt) : (s.setNode n x).sch = s.sch := by cases s; rfl
@[simp] theorem setNode_law (n : Nat) (x : NodeSt) : (s.setNode n x).law = s.law := by cases s; rfl
@[simp] theorem setNode_mot (n : Nat) (x : NodeSt) : (s.setNode n x).mot = s.mot := by cases s; rfl
@[simp] theorem setNode_lane (n : Nat) (x : NodeSt) : (s.setNode n x).lane = s.lane := by cases s; rfl
@[simp] theorem setNode_edge (n : Nat) (x : NodeSt) : (s.setNode n x).edge = s.edge := by cases s; rfl
@[simp] theorem setNode_time (n : Nat) (x : NodeSt) : (s.setNode n x).time = s.time := by cases s; rfl
@[simp] theorem setNode_pair (n : Nat) (x : NodeSt) : (s.setNode n x).pair = s.pair := by cases s; rfl
@[simp] theorem setNode_safe (n : Nat) (x : NodeSt) : (s.setNode n x).safe = s.safe := by cases s; rfl
@[simp] theorem setNode_boot (n : Nat) (x : NodeSt) : (s.setNode n x).boot = s.boot := by cases s; rfl
@[simp] theorem setNode_host (n : Nat) (x : NodeSt) : (s.setNode n x).host = s.host := by cases s; rfl
@[simp] theorem setNode_freeCtr (n : Nat) (x : NodeSt) : (s.setNode n x).freeCtr = s.freeCtr := by cases s; rfl
@[simp] theorem setNode_pending (n : Nat) (x : NodeSt) : (s.setNode n x).pending = s.pending := by cases s; rfl
@[simp] theorem link_setNode (n : Nat) (x : NodeSt) (k : Nat) : (s.setNode n x).link k = s.link k := by cases s; rfl
@[simp] theorem seg_setNode (n : Nat) (x : NodeSt) (k : Nat) : (s.setNode n x).seg k = s.seg k := by cases s; rfl
@[simp] theorem axn_setNode (n : Nat) (x : NodeSt) (k : Nat) : (s.setNode n x).axn k = s.axn k := by cases s; rfl

/-! ### Axn -/

@[simp] theorem rd_setAxn (n : Nat) (x : AxNet) (a : Nat) : rd (s.setAxn n x) a = rd s a := by cases s; rfl
theorem axn_setAxn (n : Nat) (x : AxNet) (k : Nat) : (s.setAxn n x).axn k = if k = n then x else s.axn k := tget_tset _ _ _ _ _
@[simp] theorem axn_setAxn_same (n : Nat) (x : AxNet) : (s.setAxn n x).axn n = x := by rw [axn_setAxn, if_pos rfl]
@[simp] theorem setAxn_regs (n : Nat) (x : AxNet) : (s.setAxn n x).regs = s.regs := by cases s; rfl
@[simp] theorem setAxn_core (n : Nat) (x : AxNet) : (s.setAxn n x).core = s.core := by cases s; rfl
@[simp] theorem setAxn_ang (n : Nat) (x : AxNet) : (s.setAxn n x).ang = s.ang := by cases s; rfl
@[simp] theorem setAxn_sch (n : Nat) (x : AxNet) : (s.setAxn n x).sch = s.sch := by cases s; rfl
@[simp] theorem setAxn_law (n : Nat) (x : AxNet) : (s.setAxn n x).law = s.law := by cases s; rfl
@[simp] theorem setAxn_mot (n : Nat) (x : AxNet) : (s.setAxn n x).mot = s.mot := by cases s; rfl
@[simp] theorem setAxn_lane (n : Nat) (x : AxNet) : (s.setAxn n x).lane = s.lane := by cases s; rfl
@[simp] theorem setAxn_edge (n : Nat) (x : AxNet) : (s.setAxn n x).edge = s.edge := by cases s; rfl
@[simp] theorem setAxn_time (n : Nat) (x : AxNet) : (s.setAxn n x).time = s.time := by cases s; rfl
@[simp] theorem setAxn_pair (n : Nat) (x : AxNet) : (s.setAxn n x).pair = s.pair := by cases s; rfl
@[simp] theorem setAxn_safe (n : Nat) (x : AxNet) : (s.setAxn n x).safe = s.safe := by cases s; rfl
@[simp] theorem setAxn_boot (n : Nat) (x : AxNet) : (s.setAxn n x).boot = s.boot := by cases s; rfl
@[simp] theorem setAxn_host (n : Nat) (x : AxNet) : (s.setAxn n x).host = s.host := by cases s; rfl
@[simp] theorem setAxn_freeCtr (n : Nat) (x : AxNet) : (s.setAxn n x).freeCtr = s.freeCtr := by cases s; rfl
@[simp] theorem setAxn_pending (n : Nat) (x : AxNet) : (s.setAxn n x).pending = s.pending := by cases s; rfl
@[simp] theorem link_setAxn (n : Nat) (x : AxNet) (k : Nat) : (s.setAxn n x).link k = s.link k := by cases s; rfl
@[simp] theorem seg_setAxn (n : Nat) (x : AxNet) (k : Nat) : (s.setAxn n x).seg k = s.seg k := by cases s; rfl
@[simp] theorem node_setAxn (n : Nat) (x : AxNet) (k : Nat) : (s.setAxn n x).node k = s.node k := by cases s; rfl

/-! ### Hport -/

@[simp] theorem rd_setHport (n : Nat) (x : HPort) (a : Nat) : rd (s.setHport n x) a = rd s a := by cases s; rfl
theorem hport_setHport (n : Nat) (x : HPort) (k : Nat) : (s.setHport n x).hport k = if k = n then x else s.hport k := tget_tset _ _ _ _ _
@[simp] theorem hport_setHport_same (n : Nat) (x : HPort) : (s.setHport n x).hport n = x := by rw [hport_setHport, if_pos rfl]
@[simp] theorem setHport_regs (n : Nat) (x : HPort) : (s.setHport n x).regs = s.regs := by cases s; rfl
@[simp] theorem setHport_core (n : Nat) (x : HPort) : (s.setHport n x).core = s.core := by cases s; rfl
@[simp] theorem setHport_ang (n : Nat) (x : HPort) : (s.setHport n x).ang = s.ang := by cases s; rfl
@[simp] theorem setHport_sch (n : Nat) (x : HPort) : (s.setHport n x).sch = s.sch := by cases s; rfl
@[simp] theorem setHport_law (n : Nat) (x : HPort) : (s.setHport n x).law = s.law := by cases s; rfl
@[simp] theorem setHport_mot (n : Nat) (x : HPort) : (s.setHport n x).mot = s.mot := by cases s; rfl
@[simp] theorem setHport_lane (n : Nat) (x : HPort) : (s.setHport n x).lane = s.lane := by cases s; rfl
@[simp] theorem setHport_edge (n : Nat) (x : HPort) : (s.setHport n x).edge = s.edge := by cases s; rfl
@[simp] theorem setHport_net (n : Nat) (x : HPort) : (s.setHport n x).net = s.net := by cases s; rfl
@[simp] theorem setHport_time (n : Nat) (x : HPort) : (s.setHport n x).time = s.time := by cases s; rfl
@[simp] theorem setHport_pair (n : Nat) (x : HPort) : (s.setHport n x).pair = s.pair := by cases s; rfl
@[simp] theorem setHport_safe (n : Nat) (x : HPort) : (s.setHport n x).safe = s.safe := by cases s; rfl
@[simp] theorem setHport_boot (n : Nat) (x : HPort) : (s.setHport n x).boot = s.boot := by cases s; rfl
@[simp] theorem setHport_freeCtr (n : Nat) (x : HPort) : (s.setHport n x).freeCtr = s.freeCtr := by cases s; rfl
@[simp] theorem setHport_pending (n : Nat) (x : HPort) : (s.setHport n x).pending = s.pending := by cases s; rfl

/-! ### Tout -/

@[simp] theorem rd_setTout (n : Nat) (x : TOut) (a : Nat) : rd (s.setTout n x) a = rd s a := by cases s; rfl
theorem tout_setTout (n : Nat) (x : TOut) (k : Nat) : (s.setTout n x).tout k = if k = n then x else s.tout k := tget_tset _ _ _ _ _
@[simp] theorem tout_setTout_same (n : Nat) (x : TOut) : (s.setTout n x).tout n = x := by rw [tout_setTout, if_pos rfl]
@[simp] theorem setTout_regs (n : Nat) (x : TOut) : (s.setTout n x).regs = s.regs := by cases s; rfl
@[simp] theorem setTout_core (n : Nat) (x : TOut) : (s.setTout n x).core = s.core := by cases s; rfl
@[simp] theorem setTout_ang (n : Nat) (x : TOut) : (s.setTout n x).ang = s.ang := by cases s; rfl
@[simp] theorem setTout_sch (n : Nat) (x : TOut) : (s.setTout n x).sch = s.sch := by cases s; rfl
@[simp] theorem setTout_law (n : Nat) (x : TOut) : (s.setTout n x).law = s.law := by cases s; rfl
@[simp] theorem setTout_mot (n : Nat) (x : TOut) : (s.setTout n x).mot = s.mot := by cases s; rfl
@[simp] theorem setTout_lane (n : Nat) (x : TOut) : (s.setTout n x).lane = s.lane := by cases s; rfl
@[simp] theorem setTout_net (n : Nat) (x : TOut) : (s.setTout n x).net = s.net := by cases s; rfl
@[simp] theorem setTout_time (n : Nat) (x : TOut) : (s.setTout n x).time = s.time := by cases s; rfl
@[simp] theorem setTout_pair (n : Nat) (x : TOut) : (s.setTout n x).pair = s.pair := by cases s; rfl
@[simp] theorem setTout_safe (n : Nat) (x : TOut) : (s.setTout n x).safe = s.safe := by cases s; rfl
@[simp] theorem setTout_boot (n : Nat) (x : TOut) : (s.setTout n x).boot = s.boot := by cases s; rfl
@[simp] theorem setTout_host (n : Nat) (x : TOut) : (s.setTout n x).host = s.host := by cases s; rfl
@[simp] theorem setTout_freeCtr (n : Nat) (x : TOut) : (s.setTout n x).freeCtr = s.freeCtr := by cases s; rfl
@[simp] theorem setTout_pending (n : Nat) (x : TOut) : (s.setTout n x).pending = s.pending := by cases s; rfl
@[simp] theorem chan_setTout (n : Nat) (x : TOut) (k : Nat) : (s.setTout n x).chan k = s.chan k := by cases s; rfl
@[simp] theorem encIf_setTout (n : Nat) (x : TOut) (k : Nat) : (s.setTout n x).encIf k = s.encIf k := by cases s; rfl

/-! ### Zone -/

@[simp] theorem rd_setZone (n : Nat) (x : ZoneSt) (a : Nat) : rd (s.setZone n x) a = rd s a := by cases s; rfl
theorem zone_setZone (n : Nat) (x : ZoneSt) (k : Nat) : (s.setZone n x).zone k = if k = n then x else s.zone k := tget_tset _ _ _ _ _
@[simp] theorem zone_setZone_same (n : Nat) (x : ZoneSt) : (s.setZone n x).zone n = x := by rw [zone_setZone, if_pos rfl]
@[simp] theorem setZone_regs (n : Nat) (x : ZoneSt) : (s.setZone n x).regs = s.regs := by cases s; rfl
@[simp] theorem setZone_core (n : Nat) (x : ZoneSt) : (s.setZone n x).core = s.core := by cases s; rfl
@[simp] theorem setZone_ang (n : Nat) (x : ZoneSt) : (s.setZone n x).ang = s.ang := by cases s; rfl
@[simp] theorem setZone_sch (n : Nat) (x : ZoneSt) : (s.setZone n x).sch = s.sch := by cases s; rfl
@[simp] theorem setZone_law (n : Nat) (x : ZoneSt) : (s.setZone n x).law = s.law := by cases s; rfl
@[simp] theorem setZone_mot (n : Nat) (x : ZoneSt) : (s.setZone n x).mot = s.mot := by cases s; rfl
@[simp] theorem setZone_lane (n : Nat) (x : ZoneSt) : (s.setZone n x).lane = s.lane := by cases s; rfl
@[simp] theorem setZone_edge (n : Nat) (x : ZoneSt) : (s.setZone n x).edge = s.edge := by cases s; rfl
@[simp] theorem setZone_net (n : Nat) (x : ZoneSt) : (s.setZone n x).net = s.net := by cases s; rfl
@[simp] theorem setZone_time (n : Nat) (x : ZoneSt) : (s.setZone n x).time = s.time := by cases s; rfl
@[simp] theorem setZone_pair (n : Nat) (x : ZoneSt) : (s.setZone n x).pair = s.pair := by cases s; rfl
@[simp] theorem setZone_boot (n : Nat) (x : ZoneSt) : (s.setZone n x).boot = s.boot := by cases s; rfl
@[simp] theorem setZone_host (n : Nat) (x : ZoneSt) : (s.setZone n x).host = s.host := by cases s; rfl
@[simp] theorem setZone_freeCtr (n : Nat) (x : ZoneSt) : (s.setZone n x).freeCtr = s.freeCtr := by cases s; rfl
@[simp] theorem setZone_pending (n : Nat) (x : ZoneSt) : (s.setZone n x).pending = s.pending := by cases s; rfl

/-! ### Lan -/

@[simp] theorem rd_setLan (n : Nat) (x : Lane) (a : Nat) : rd (s.setLan n x) a = rd s a := by cases s; rfl
theorem lan_setLan (n : Nat) (x : Lane) (k : Nat) : (s.setLan n x).lan k = if k = n then x else s.lan k := tget_tset _ _ _ _ _
@[simp] theorem lan_setLan_same (n : Nat) (x : Lane) : (s.setLan n x).lan n = x := by rw [lan_setLan, if_pos rfl]
@[simp] theorem setLan_regs (n : Nat) (x : Lane) : (s.setLan n x).regs = s.regs := by cases s; rfl
@[simp] theorem setLan_core (n : Nat) (x : Lane) : (s.setLan n x).core = s.core := by cases s; rfl
@[simp] theorem setLan_ang (n : Nat) (x : Lane) : (s.setLan n x).ang = s.ang := by cases s; rfl
@[simp] theorem setLan_sch (n : Nat) (x : Lane) : (s.setLan n x).sch = s.sch := by cases s; rfl
@[simp] theorem setLan_law (n : Nat) (x : Lane) : (s.setLan n x).law = s.law := by cases s; rfl
@[simp] theorem setLan_mot (n : Nat) (x : Lane) : (s.setLan n x).mot = s.mot := by cases s; rfl
@[simp] theorem setLan_edge (n : Nat) (x : Lane) : (s.setLan n x).edge = s.edge := by cases s; rfl
@[simp] theorem setLan_net (n : Nat) (x : Lane) : (s.setLan n x).net = s.net := by cases s; rfl
@[simp] theorem setLan_time (n : Nat) (x : Lane) : (s.setLan n x).time = s.time := by cases s; rfl
@[simp] theorem setLan_pair (n : Nat) (x : Lane) : (s.setLan n x).pair = s.pair := by cases s; rfl
@[simp] theorem setLan_safe (n : Nat) (x : Lane) : (s.setLan n x).safe = s.safe := by cases s; rfl
@[simp] theorem setLan_boot (n : Nat) (x : Lane) : (s.setLan n x).boot = s.boot := by cases s; rfl
@[simp] theorem setLan_host (n : Nat) (x : Lane) : (s.setLan n x).host = s.host := by cases s; rfl
@[simp] theorem setLan_freeCtr (n : Nat) (x : Lane) : (s.setLan n x).freeCtr = s.freeCtr := by cases s; rfl
@[simp] theorem setLan_pending (n : Nat) (x : Lane) : (s.setLan n x).pending = s.pending := by cases s; rfl

/-! ### Chan -/

@[simp] theorem rd_setChan (n : Nat) (x : Chan) (a : Nat) : rd (s.setChan n x) a = rd s a := by cases s; rfl
theorem chan_setChan (n : Nat) (x : Chan) (k : Nat) : (s.setChan n x).chan k = if k = n then x else s.chan k := tget_tset _ _ _ _ _
@[simp] theorem chan_setChan_same (n : Nat) (x : Chan) : (s.setChan n x).chan n = x := by rw [chan_setChan, if_pos rfl]
@[simp] theorem setChan_regs (n : Nat) (x : Chan) : (s.setChan n x).regs = s.regs := by cases s; rfl
@[simp] theorem setChan_core (n : Nat) (x : Chan) : (s.setChan n x).core = s.core := by cases s; rfl
@[simp] theorem setChan_ang (n : Nat) (x : Chan) : (s.setChan n x).ang = s.ang := by cases s; rfl
@[simp] theorem setChan_sch (n : Nat) (x : Chan) : (s.setChan n x).sch = s.sch := by cases s; rfl
@[simp] theorem setChan_law (n : Nat) (x : Chan) : (s.setChan n x).law = s.law := by cases s; rfl
@[simp] theorem setChan_mot (n : Nat) (x : Chan) : (s.setChan n x).mot = s.mot := by cases s; rfl
@[simp] theorem setChan_lane (n : Nat) (x : Chan) : (s.setChan n x).lane = s.lane := by cases s; rfl
@[simp] theorem setChan_net (n : Nat) (x : Chan) : (s.setChan n x).net = s.net := by cases s; rfl
@[simp] theorem setChan_time (n : Nat) (x : Chan) : (s.setChan n x).time = s.time := by cases s; rfl
@[simp] theorem setChan_pair (n : Nat) (x : Chan) : (s.setChan n x).pair = s.pair := by cases s; rfl
@[simp] theorem setChan_safe (n : Nat) (x : Chan) : (s.setChan n x).safe = s.safe := by cases s; rfl
@[simp] theorem setChan_boot (n : Nat) (x : Chan) : (s.setChan n x).boot = s.boot := by cases s; rfl
@[simp] theorem setChan_host (n : Nat) (x : Chan) : (s.setChan n x).host = s.host := by cases s; rfl
@[simp] theorem setChan_freeCtr (n : Nat) (x : Chan) : (s.setChan n x).freeCtr = s.freeCtr := by cases s; rfl
@[simp] theorem setChan_pending (n : Nat) (x : Chan) : (s.setChan n x).pending = s.pending := by cases s; rfl
@[simp] theorem tout_setChan (n : Nat) (x : Chan) (k : Nat) : (s.setChan n x).tout k = s.tout k := by cases s; rfl
@[simp] theorem encIf_setChan (n : Nat) (x : Chan) (k : Nat) : (s.setChan n x).encIf k = s.encIf k := by cases s; rfl

/-! ### EncIf -/

@[simp] theorem rd_setEncIf (n : Nat) (x : EncSt) (a : Nat) : rd (s.setEncIf n x) a = rd s a := by cases s; rfl
theorem encIf_setEncIf (n : Nat) (x : EncSt) (k : Nat) : (s.setEncIf n x).encIf k = if k = n then x else s.encIf k := tget_tset _ _ _ _ _
@[simp] theorem encIf_setEncIf_same (n : Nat) (x : EncSt) : (s.setEncIf n x).encIf n = x := by rw [encIf_setEncIf, if_pos rfl]
@[simp] theorem setEncIf_regs (n : Nat) (x : EncSt) : (s.setEncIf n x).regs = s.regs := by cases s; rfl
@[simp] theorem setEncIf_core (n : Nat) (x : EncSt) : (s.setEncIf n x).core = s.core := by cases s; rfl
@[simp] theorem setEncIf_ang (n : Nat) (x : EncSt) : (s.setEncIf n x).ang = s.ang := by cases s; rfl
@[simp] theorem setEncIf_sch (n : Nat) (x : EncSt) : (s.setEncIf n x).sch = s.sch := by cases s; rfl
@[simp] theorem setEncIf_law (n : Nat) (x : EncSt) : (s.setEncIf n x).law = s.law := by cases s; rfl
@[simp] theorem setEncIf_mot (n : Nat) (x : EncSt) : (s.setEncIf n x).mot = s.mot := by cases s; rfl
@[simp] theorem setEncIf_lane (n : Nat) (x : EncSt) : (s.setEncIf n x).lane = s.lane := by cases s; rfl
@[simp] theorem setEncIf_net (n : Nat) (x : EncSt) : (s.setEncIf n x).net = s.net := by cases s; rfl
@[simp] theorem setEncIf_time (n : Nat) (x : EncSt) : (s.setEncIf n x).time = s.time := by cases s; rfl
@[simp] theorem setEncIf_pair (n : Nat) (x : EncSt) : (s.setEncIf n x).pair = s.pair := by cases s; rfl
@[simp] theorem setEncIf_safe (n : Nat) (x : EncSt) : (s.setEncIf n x).safe = s.safe := by cases s; rfl
@[simp] theorem setEncIf_boot (n : Nat) (x : EncSt) : (s.setEncIf n x).boot = s.boot := by cases s; rfl
@[simp] theorem setEncIf_host (n : Nat) (x : EncSt) : (s.setEncIf n x).host = s.host := by cases s; rfl
@[simp] theorem setEncIf_freeCtr (n : Nat) (x : EncSt) : (s.setEncIf n x).freeCtr = s.freeCtr := by cases s; rfl
@[simp] theorem setEncIf_pending (n : Nat) (x : EncSt) : (s.setEncIf n x).pending = s.pending := by cases s; rfl
@[simp] theorem tout_setEncIf (n : Nat) (x : EncSt) (k : Nat) : (s.setEncIf n x).tout k = s.tout k := by cases s; rfl
@[simp] theorem chan_setEncIf (n : Nat) (x : EncSt) (k : Nat) : (s.setEncIf n x).chan k = s.chan k := by cases s; rfl

/-! ### Shadow -/

@[simp] theorem rd_setShadow (n : Nat) (x : Shadow) (a : Nat) : rd (s.setShadow n x) a = rd s a := by cases s; rfl
theorem shadow_setShadow (n : Nat) (x : Shadow) (k : Nat) : (s.setShadow n x).shadow k = if k = n then x else s.shadow k := tget_tset _ _ _ _ _
@[simp] theorem shadow_setShadow_same (n : Nat) (x : Shadow) : (s.setShadow n x).shadow n = x := by rw [shadow_setShadow, if_pos rfl]
@[simp] theorem setShadow_regs (n : Nat) (x : Shadow) : (s.setShadow n x).regs = s.regs := by cases s; rfl
@[simp] theorem setShadow_core (n : Nat) (x : Shadow) : (s.setShadow n x).core = s.core := by cases s; rfl
@[simp] theorem setShadow_ang (n : Nat) (x : Shadow) : (s.setShadow n x).ang = s.ang := by cases s; rfl
@[simp] theorem setShadow_sch (n : Nat) (x : Shadow) : (s.setShadow n x).sch = s.sch := by cases s; rfl
@[simp] theorem setShadow_law (n : Nat) (x : Shadow) : (s.setShadow n x).law = s.law := by cases s; rfl
@[simp] theorem setShadow_mot (n : Nat) (x : Shadow) : (s.setShadow n x).mot = s.mot := by cases s; rfl
@[simp] theorem setShadow_lane (n : Nat) (x : Shadow) : (s.setShadow n x).lane = s.lane := by cases s; rfl
@[simp] theorem setShadow_edge (n : Nat) (x : Shadow) : (s.setShadow n x).edge = s.edge := by cases s; rfl
@[simp] theorem setShadow_net (n : Nat) (x : Shadow) : (s.setShadow n x).net = s.net := by cases s; rfl
@[simp] theorem setShadow_time (n : Nat) (x : Shadow) : (s.setShadow n x).time = s.time := by cases s; rfl
@[simp] theorem setShadow_safe (n : Nat) (x : Shadow) : (s.setShadow n x).safe = s.safe := by cases s; rfl
@[simp] theorem setShadow_boot (n : Nat) (x : Shadow) : (s.setShadow n x).boot = s.boot := by cases s; rfl
@[simp] theorem setShadow_host (n : Nat) (x : Shadow) : (s.setShadow n x).host = s.host := by cases s; rfl
@[simp] theorem setShadow_freeCtr (n : Nat) (x : Shadow) : (s.setShadow n x).freeCtr = s.freeCtr := by cases s; rfl
@[simp] theorem setShadow_pending (n : Nat) (x : Shadow) : (s.setShadow n x).pending = s.pending := by cases s; rfl

end Sys2Proof.Laws
end

