-- ==== Sys2Proof/Laws/Ops.lean ====
section
/-! SUPPORT. What the shared operations over registers do, each said once: fields of a word, fields of a register, counters, the access result, the sediment queue, the change log and the judgement of a register write. -/

namespace Sys2Proof.Laws
open Sys2Proof Sys2Proof.Machine R

/-! ### Fields of a word -/

/-- A field lies within a word. -/
abbrev fldOk (f : Fld) : Prop := f.lo ≤ f.hi ∧ f.hi < 32

/-- The bits of two fields are apart. -/
abbrev fldApart (f g : Fld) : Prop := f.hi < g.lo ∨ g.hi < f.lo

theorem pow_split {a b : Nat} (h : a ≤ b) : 2 ^ b = 2 ^ a * 2 ^ (b - a) := by rw [← Nat.pow_add]; congr 1; omega

/-- A word in three parts: above a field, the field, below it. -/
theorem withField_toNat {w : Word} {f : Fld} (h : fldOk f) (v : Nat) :
    (withField w f v).toNat = w.toNat / (2 ^ f.lo * 2 ^ (f.hi - f.lo + 1)) * (2 ^ f.lo * 2 ^ (f.hi - f.lo + 1)) +
      v % 2 ^ (f.hi - f.lo + 1) * 2 ^ f.lo + w.toNat % 2 ^ f.lo := by
  obtain ⟨h1, h2⟩ := h
  have hA : 0 < 2 ^ f.lo := by positivity
  have hM : 0 < 2 ^ (f.hi - f.lo + 1) := by positivity
  have hC : 2 ^ 32 = 2 ^ f.lo * 2 ^ (f.hi - f.lo + 1) * 2 ^ (31 - f.hi) := by rw [← Nat.pow_add, ← Nat.pow_add]; congr 1; omega
  have hw : w.toNat < 2 ^ f.lo * 2 ^ (f.hi - f.lo + 1) * 2 ^ (31 - f.hi) := hC ▸ w.isLt
  simp only [withField, fieldOf, BitVec.toNat_ofNat]
  rw [hC]
  generalize 2 ^ f.lo = A at *
  generalize 2 ^ (f.hi - f.lo + 1) = M at *
  generalize 2 ^ (31 - f.hi) = C at *
  generalize w.toNat = n at *
  have e1 := Nat.div_add_mod n A
  have e2 := Nat.div_add_mod (n / A) M
  have e3 : n / (A * M) = n / A / M := (Nat.div_div_eq_div_mul ..).symm
  have hv : v % M < M := Nat.mod_lt _ hM
  have hr : n % A < A := Nat.mod_lt _ hA
  have hq : n / (A * M) < C := Nat.div_lt_of_lt_mul hw
  rw [e3] at hq ⊢
  generalize v % M = x at *
  generalize n / A % M = y at *
  generalize n / A / M = q at *
  generalize n % A = r at *
  have e : n - y * A + x * A = q * (A * M) + x * A + r := by
    rw [← e2] at e1
    have : n = q * (A * M) + y * A + r := by rw [← e1]; ring
    omega
  rw [e, Nat.mod_eq_of_lt]
  have hx : x * A + A ≤ M * A := by nlinarith
  have hq' : q * (A * M) + A * M ≤ C * (A * M) := by nlinarith [Nat.mul_pos hA hM]
  nlinarith

theorem fieldOf_withField {w : Word} {f : Fld} (h : fldOk f) (v : Nat) :
    fieldOf (withField w f v) f = v % 2 ^ (f.hi - f.lo + 1) := by
  have hA : 0 < 2 ^ f.lo := by positivity
  unfold fieldOf
  rw [withField_toNat h]
  generalize 2 ^ f.lo = A at *
  generalize 2 ^ (f.hi - f.lo + 1) = M at *
  rw [show w.toNat / (A * M) * (A * M) + v % M * A + w.toNat % A = w.toNat % A + A * (w.toNat / (A * M) * M + v % M) by ring,
    Nat.add_mul_div_left _ _ hA, Nat.div_eq_of_lt (Nat.mod_lt _ hA), Nat.zero_add, Nat.add_comm, Nat.add_mul_mod_self_right, Nat.mod_mod]

theorem fieldOf_withField_apart {w : Word} {f g : Fld} (h : fldOk f) (hg : fldOk g) (ha : fldApart f g) (v : Nat) :
    fieldOf (withField w f v) g = fieldOf w g := by
  have hA : 0 < 2 ^ f.lo := by positivity
  have hM : 0 < 2 ^ (f.hi - f.lo + 1) := by positivity
  unfold fieldOf
  rw [withField_toNat h]
  rcases ha with ha | ha
  · have e : 2 ^ g.lo = 2 ^ f.lo * 2 ^ (f.hi - f.lo + 1) * 2 ^ (g.lo - f.hi - 1) := by
      rw [← Nat.pow_add, ← Nat.pow_add]; congr 1; have := h.1; omega
    have ed : ∀ x : Nat, x / 2 ^ g.lo = x / (2 ^ f.lo * 2 ^ (f.hi - f.lo + 1)) / 2 ^ (g.lo - f.hi - 1) := fun x => by
      rw [e, Nat.div_div_eq_div_mul]
    rw [ed, ed w.toNat]
    congr 2
    have hr : w.toNat % 2 ^ f.lo < 2 ^ f.lo := Nat.mod_lt _ hA
    have hv : v % 2 ^ (f.hi - f.lo + 1) < 2 ^ (f.hi - f.lo + 1) := Nat.mod_lt _ hM
    generalize 2 ^ f.lo = A at *
    generalize 2 ^ (f.hi - f.lo + 1) = M at *
    rw [show w.toNat / (A * M) * (A * M) + v % M * A + w.toNat % A = (v % M * A + w.toNat % A) + A * M * (w.toNat / (A * M)) by ring,
      Nat.add_mul_div_left _ _ (Nat.mul_pos hA hM), Nat.div_eq_of_lt (by nlinarith), Nat.zero_add]
  · have e : 2 ^ f.lo = 2 ^ g.lo * 2 ^ (g.hi - g.lo + 1) * 2 ^ (f.lo - g.hi - 1) := by
      rw [← Nat.pow_add, ← Nat.pow_add]; congr 1; have := hg.1; omega
    rw [← Nat.mod_mul_right_div_self, ← Nat.mod_mul_right_div_self w.toNat]
    congr 1
    have e2 : w.toNat % (2 ^ g.lo * 2 ^ (g.hi - g.lo + 1)) = w.toNat % 2 ^ f.lo % (2 ^ g.lo * 2 ^ (g.hi - g.lo + 1)) := by
      rw [Nat.mod_mod_of_dvd _ (e ▸ Dvd.intro _ rfl)]
    rw [e2]
    generalize hB : 2 ^ g.lo * 2 ^ (g.hi - g.lo + 1) = B at *
    generalize 2 ^ (f.lo - g.hi - 1) = D at *
    rw [e]
    generalize 2 ^ (f.hi - f.lo + 1) = M at *
    rw [show w.toNat / (B * D * M) * (B * D * M) + v % M * (B * D) + w.toNat % (B * D) =
      w.toNat % (B * D) + B * (w.toNat / (B * D * M) * (D * M) + v % M * D) by ring, Nat.add_mul_mod_self_left]

/-! ### Fields of a register -/

theorem rd_fset (s : State) (a b : Nat) (f : Fld) (v : Nat) : rd (fset s a f v) b = if b = a then withField (rd s a) f v else rd s b := rd_wr ..
theorem rd_fset_other {s : State} {a b : Nat} {f : Fld} {v : Nat} (h : b ≠ a) : rd (fset s a f v) b = rd s b := rd_wr_other _ _ h

theorem fget_fset {s : State} {a : Nat} {f : Fld} (h : fldOk f) (v : Nat) : fget (fset s a f v) a f = v % 2 ^ (f.hi - f.lo + 1) := by
  unfold fget fset; rw [rd_wr_same, fieldOf_withField h]

theorem fget_fset_apart {s : State} {a : Nat} {f g : Fld} (h : fldOk f) (hg : fldOk g) (ha : fldApart f g) (v : Nat) :
    fget (fset s a f v) a g = fget s a g := by unfold fget fset; rw [rd_wr_same, fieldOf_withField_apart h hg ha]

theorem fget_fset_other {s : State} {a b : Nat} {f g : Fld} (h : b ≠ a) (v : Nat) : fget (fset s a f v) b g = fget s b g := by
  unfold fget; rw [rd_fset_other h]

theorem fget_wr_other {s : State} {a b : Nat} {g : Fld} (h : b ≠ a) (v : Word) : fget (wr s a v) b g = fget s b g := by
  unfold fget; rw [rd_wr_other _ _ h]

theorem fget_lt (s : State) (a : Nat) (f : Fld) : fget s a f < 2 ^ (f.hi - f.lo + 1) := Nat.mod_lt _ (by positivity)

theorem fbit_fput {s : State} {a : Nat} {f : Fld} (h : fldOk f) (b : Bool) : fbit (fput s a f b) a f = b := by
  unfold fbit fput; rw [fget_fset h]
  have : 2 ≤ 2 ^ (f.hi - f.lo + 1) := by rw [Nat.pow_succ]; have := Nat.one_le_two_pow (n := f.hi - f.lo); omega
  cases b
  · simp
  · simp [Nat.mod_eq_of_lt (show 1 < 2 ^ (f.hi - f.lo + 1) by omega)]

/-- A saturating counter never passes the field's maximum (and goes up by 1 below it). -/
theorem fget_fincSat {s : State} {a : Nat} {f : Fld} (h : fldOk f) :
    fget (fincSat s a f) a f = min (2 ^ (f.hi - f.lo + 1) - 1) (fget s a f + 1) := by
  unfold fincSat; dsimp only; rw [fget_fset h]
  exact Nat.mod_eq_of_lt (by have : 0 < 2 ^ (f.hi - f.lo + 1) := by positivity
                             omega)

theorem fget_fincWrap {s : State} {a : Nat} {f : Fld} (h : fldOk f) :
    fget (fincWrap s a f) a f = (fget s a f + 1) % 2 ^ (f.hi - f.lo + 1) := by unfold fincWrap; rw [fget_fset h]

/-! ### The access result -/

@[simp] theorem rd_setAcc (st : Nat) (v : Word) (s : State) (a : Nat) : rd (setAcc st v s) a = rd s a := rfl
@[simp] theorem acc_setAcc (st : Nat) (v : Word) (s : State) : (setAcc st v s).host.acc = (st, v) := rfl

/-! ### Sediment queues -/

theorem sedAddr_iff {b a : Nat} : sedAddr b a = true ↔ a = DIAG_STATUS b ∨ ∃ i k, i < 8 ∧ k < 4 ∧ a = SED b i k := by
  simp only [sedAddr, Bool.or_eq_true, beq_iff_eq, List.any_eq_true, List.mem_range]
  constructor
  · rintro (h | ⟨x, hx, h⟩)
    · exact .inl h
    · exact .inr ⟨x / 4, x % 4, by omega, by omega, h⟩
  · rintro (h | ⟨i, k, hi, hk, h⟩)
    · exact .inl h
    · exact .inr ⟨4 * i + k, by omega, by rw [show (4 * i + k) / 4 = i by omega, show (4 * i + k) % 4 = k by omega]; exact h⟩

theorem rd_sendEvent (q : Nat) (takes : Session → Bool) (tag key pay : Nat) (s : State) (a : Nat) :
    rd (sendEvent q takes tag key pay s) a = rd s a := by
  unfold sendEvent
  dsimp only
  generalize s.host.sessions = l
  have : ∀ (l : List Session) (t : State), rd t a = rd s a → rd (l.foldl (fun s' x =>
      if takes x && hspVer s' (portCode x.port) == 2 then
        sendMsg (portCode x.port) { bytes := hspMsg 2 3 x.num x.evSeq 0x40 0 (beOf 1 q ++ beOf 2 tag ++ beOf 8 key ++ beOf 4 pay ++ beOf 4 (rdN s TICK_COUNT)), queue := some (x.num * 256 + q) }
          { s' with host.sessions := s'.host.sessions.map fun y => if y.num = x.num then { y with evSeq := (y.evSeq + 1) % 65536 } else y }
      else s') t) a = rd s a := by
    intro l
    induction l with
    | nil => intro t h; exact h
    | cons x l ih =>
      intro t h
      refine ih _ ?_
      dsimp only
      split
      · exact h
      · exact h
  exact this l s rfl

theorem rd_sendLineEvent (s : State) (a : Nat) : rd (sendLineEvent s) a = rd s a := by
  unfold sendLineEvent
  dsimp only
  split
  · rw [rd_sendEvent]; rfl
  · rfl

theorem rd_withLine (b : Nat) (f : State → State) (s : State) (a : Nat) : rd (withLine b f s) a = rd (f s) a := by
  unfold withLine
  dsimp only
  split
  · rfl
  · exact rd_sendLineEvent ..

theorem rd_wrN_other {s : State} {a b v : Nat} (h : b ≠ a) : rd (wrN s a v) b = rd s b := rd_wr_other _ _ h

/-- An entry touches the registers of its own block's queue only. -/
theorem rd_sediment {b sev code ctx : Nat} {s : State} {a : Nat} (h : ¬ sedAddr b a) : rd (sediment b sev code ctx s) a = rd s a := by
  unfold sediment
  rw [rd_withLine]
  unfold storeEntry
  dsimp only
  have hd : a ≠ DIAG_STATUS b := fun e => h (sedAddr_iff.2 (.inl e))
  have hs : ∀ e k, k < 4 → a ≠ SED b (e % 8) k := fun e k hk e' => h (sedAddr_iff.2 (.inr ⟨_, k, Nat.mod_lt _ (by decide), hk, e'⟩))
  split
  · exact rd_fset_other hd
  · rw [rd_fset_other hd, rd_wrN_other (hs _ 3 (by decide)), rd_wrN_other (hs _ 2 (by decide)), rd_wrN_other (hs _ 1 (by decide)),
      rd_wrN_other (hs _ 0 (by decide)), rd_fset_other hd]

/-- A W1C bit's onset touches its register and its block's queue only. -/
theorem rd_w1cSet {a obj b : Nat} {f : R.Fld} {s : State} (h : b ≠ a) (hs : ¬ sedAddr (blockNo a) b) :
    rd (w1cSet a f obj s) b = rd s b := by
  unfold w1cSet; split
  · rfl
  · dsimp only; rw [rd_sediment hs, rd_fset_other h]

/-- A W1C bit is set after its onset. -/
theorem fget_w1cSet {a obj : Nat} {f : R.Fld} {s : State} (hf : f.lo = f.hi ∧ f.hi < 32) (hs : ¬ sedAddr (blockNo a) a) :
    fget (w1cSet a f obj s) a f = 1 := by
  unfold w1cSet; split
  · assumption
  · dsimp only; unfold fget; rw [rd_sediment hs]
    have : fget (fset s a f 1) a f = 1 % 2 ^ (f.hi - f.lo + 1) := fget_fset ⟨hf.1.le, hf.2⟩ 1
    rw [hf.1, Nat.sub_self] at this
    exact this

/-- The other fields of its register stay. -/
theorem fget_w1cSet_apart {a obj : Nat} {f g : R.Fld} {s : State} (hf : fldOk f) (hg : fldOk g) (ha : fldApart f g)
    (hs : ¬ sedAddr (blockNo a) a) : fget (w1cSet a f obj s) a g = fget s a g := by
  unfold w1cSet; split
  · rfl
  · dsimp only; unfold fget; rw [rd_sediment hs]; exact fget_fset_apart hf hg ha 1

/-! ### The change log -/

theorem logAddr_iff {a : Nat} : logAddr a = true ↔ a = LOG_NVM ∨ a = LOG_LOST ∨ a = LOG_HEAD := by
  simp only [logAddr, Bool.or_eq_true, beq_iff_eq, or_assoc]

theorem rd_ite {c : Bool} {x y s : State} {a : Nat} (hx : x.regs = s.regs) (hy : y.regs = s.regs) :
    rd (if c then x else y) a = rd s a := by unfold rd; cases c <;> simp [hx, hy]

theorem rd_logPush {r : LogRec} {s : State} {a : Nat} (h : ¬ logAddr a) : rd (logPush r s) a = rd s a := by
  have h1 : a ≠ LOG_NVM := fun e => h (logAddr_iff.2 (.inl e))
  have h2 : a ≠ LOG_LOST := fun e => h (logAddr_iff.2 (.inr (.inl e)))
  have h3 : a ≠ LOG_HEAD := fun e => h (logAddr_iff.2 (.inr (.inr e)))
  unfold logPush
  dsimp only
  split
  · exact rd_wrN_other h2
  · rw [rd_wrN_other h3, rd_fset_other h1]
    exact rd_ite rfl rfl

theorem rd_logWrite {w : Who} {x : Nat} {old new : Word} {st : Nat} {s : State} {a : Nat} (h : ¬ logAddr a) :
    rd (logWrite w x old new st s) a = rd s a := by
  unfold logWrite
  split
  · rfl
  dsimp only
  split
  · split
    · split
      · exact rd_logPush h
      · rfl
    · split
      · rw [rd_logPush h, rd_logPush h]; rfl
      · exact rd_logPush h
  · split
    · exact rd_logPush h
    · rfl

theorem rd_logSteward {k r o d : Nat} {s : State} {a : Nat} (h : ¬ logAddr a) : rd (logSteward k r o d s) a = rd s a := rd_logPush h

/-! ### The judgement of a register write -/

/-- An accepted write that no pair records: the effect, then the change log. -/
theorem gated_accepted {w : Who} {a : Nat} {v : Word} {eff : Eff} {s t : State} (hj : judge s w a v = true) (hr : recorded s w a = false)
    (he : eff s = some t) : gated w a v eff s = setAcc 0 0 (logWrite w a (present s w a) v 0 t) := by
  unfold gated; rw [if_pos hj, he]; simp only [hr, Bool.false_eq_true, if_false]

/-- An accepted write of the active head of a pair: a record, and the effect waits. -/
theorem gated_recorded {w : Who} {a : Nat} {v : Word} {eff : Eff} {s t : State} (hj : judge s w a v = true) (hr : recorded s w a = true)
    (he : eff s = some t) :
    gated w a v eff s = setAcc 0 0 (logWrite w a (present s w a) v 0 (addRec 1 w.port (beOf 4 a ++ beBytes v) s)) := by
  unfold gated; rw [if_pos hj, he]; simp only [hr, if_true]

/-- A write refused by lock, role or boot phase. -/
theorem gated_refused {w : Who} {a : Nat} {v : Word} {eff : Eff} {s : State} (hj : judge s w a v = false) :
    gated w a v eff s = refuseWrite w a v 0x0001 s := by unfold gated; rw [hj]; rfl

/-- A write refused by a rule of its block. -/
theorem gated_ruled {w : Who} {a : Nat} {v : Word} {eff : Eff} {s : State} (hj : judge s w a v = true) (he : eff s = none) :
    gated w a v eff s = refuseWrite w a v 0x0004 s := by unfold gated; rw [if_pos hj, he]

/-- An accepted write touches what its effect touches, and the change log. -/
theorem rd_gated_accepted {w : Who} {a : Nat} {v : Word} {eff : Eff} {s t : State} (hj : judge s w a v = true) (hr : recorded s w a = false)
    (he : eff s = some t) {b : Nat} (hb : ¬ logAddr b) : rd (gated w a v eff s) b = rd t b := by
  rw [gated_accepted hj hr he, rd_setAcc, rd_logWrite hb]

/-- A refused write touches the block's sediment queue and the change log, nothing else. -/
theorem rd_refuseWrite {w : Who} {a : Nat} {v : Word} {code : Nat} {s : State} {b : Nat} (hb : ¬ logAddr b)
    (hs : ¬ sedAddr (min (blockNo a) 14) b) : rd (refuseWrite w a v code s) b = rd s b := by
  unfold refuseWrite; rw [rd_setAcc, rd_logWrite hb, rd_sediment hs]

/-- An accepted write that takes effect at once: what its effect gives, and the change log. -/
theorem gated_parts {w : Who} {a : Nat} {v : Word} {eff : Eff} {s t : State} (h : accepted s w a v) (he : eff s = some t) :
    ∃ t', gated w a v eff s = t' ∧ t' = setAcc 0 0 (logWrite w a (present s w a) v 0 t) ∧ t'.host.acc = (0, 0) ∧
      ∀ b, ¬ logAddr b → rd t' b = rd t b :=
  ⟨_, gated_accepted h.1 h.2 he, rfl, acc_setAcc .., fun b hb => by rw [rd_setAcc, rd_logWrite hb]⟩

theorem fget_of_rd {s t : State} {a : Nat} {f : R.Fld} (h : rd t a = rd s a) : fget t a f = fget s a f := by unfold fget; rw [h]

end Sys2Proof.Laws
end

