-- ==== Sys2Proof/Laws/Foot.lean ====
section
/-! SUPPORT. Footprints: the registers of the map by number, and for each register that its address is its own. -/

namespace Sys2Proof.Laws
open Sys2Proof Sys2Proof.Machine

/-- Base and index dimensions of every register, in the order of the map. -/
def clsDims0 : List (Nat × List (Nat × Nat)) :=
  [(0x0, []), (0x4, []), (0x8, []), (0xc, []), (0x10, []), (0x14, []), (0x18, []), (0x20, [(4, 8)]), (0x40, []), (0x44, []), (0x48, []), (0x10000, []), (0x10004, []), (0x10008, []), (0x1000c, []), (0x10010, [(4, 4)]), (0x10020, []), (0x10040, []), (0x10044, []), (0x10048, [])]
def clsDims1 : List (Nat × List (Nat × Nat)) :=
  [(0x1004c, []), (0x10050, []), (0x10054, []), (0x10060, []), (0x10080, []), (0x10084, []), (0x100a0, [(4, 8)]), (0x10400, [(16, 4)]), (0x10404, [(16, 4)]), (0x10408, [(16, 4)]), (0x1040c, [(16, 4)]), (0x20000, []), (0x20004, []), (0x20008, []), (0x2000c, []), (0x20040, []), (0x20044, []), (0x20048, []), (0x2004c, []), (0x20050, [])]
def clsDims2 : List (Nat × List (Nat × Nat)) :=
  [(0x20054, []), (0x20100, [(4, 4)]), (0x20110, [(4, 4)]), (0x20200, [(16, 4), (4, 4)]), (0x20400, [(4, 32)]), (0x30000, []), (0x30004, []), (0x30008, []), (0x30010, []), (0x30014, []), (0x30018, []), (0x3001c, []), (0x30020, []), (0x30024, []), (0x30028, []), (0x30040, [(16, 3)]), (0x30044, [(16, 3)]), (0x30048, [(16, 3)]), (0x3004c, [(16, 3)]), (0x30080, [])]
def clsDims3 : List (Nat × List (Nat × Nat)) :=
  [(0x30084, []), (0x30088, []), (0x3008c, []), (0x30090, []), (0x30094, []), (0x40000, []), (0x40004, []), (0x40008, []), (0x4000c, []), (0x40010, []), (0x40014, []), (0x40018, []), (0x4001c, []), (0x40020, []), (0x40024, []), (0x40028, []), (0x40040, []), (0x40044, []), (0x40048, []), (0x80000, [])]
def clsDims4 : List (Nat × List (Nat × Nat)) :=
  [(0x80004, []), (0x80008, []), (0x8000c, []), (0x80010, []), (0x80014, []), (0x80018, []), (0x80100, [(64, 5)]), (0x80104, [(64, 5)]), (0x80108, [(64, 5)]), (0x8010c, [(64, 5)]), (0x80110, [(64, 5)]), (0x80114, [(64, 5)]), (0x80118, [(64, 5)]), (0x8011c, [(64, 5)]), (0x80120, [(64, 5)]), (0x80124, [(64, 5)]), (0x80128, [(64, 5)]), (0x8012c, [(64, 5)]), (0x80130, [(64, 5)]), (0x80300, [(4, 4)])]
def clsDims5 : List (Nat × List (Nat × Nat)) :=
  [(0x81000, [(4, 128)]), (0x81200, [(4, 128)]), (0x81400, [(4, 128)]), (0x81600, [(4, 128)]), (0x84000, [(16384, 2), (4, 4096)]), (0x8c000, [(1024, 2), (4, 256)]), (0x100000, [(512, 256), (4, 64)]), (0x100100, [(512, 256), (4, 64)]), (0x120000, [(32, 256)]), (0x120004, [(32, 256)]), (0x120008, [(32, 256)]), (0x12000c, [(32, 256)]), (0x120010, [(32, 256)]), (0x120014, [(32, 256)]), (0x120018, [(32, 256)]), (0x12001c, [(32, 256)]), (0x122000, [(4, 64)]), (0x122100, []), (0x122104, []), (0x122108, [])]
def clsDims6 : List (Nat × List (Nat × Nat)) :=
  [(0x12210c, []), (0x122200, [(4, 64)]), (0x122300, [(4, 64)]), (0x200000, [(256, 256)]), (0x200004, [(256, 256)]), (0x200008, [(256, 256), (4, 2)]), (0x200010, [(256, 256), (4, 2)]), (0x200018, [(256, 256), (4, 2)]), (0x200020, [(256, 256), (4, 2)]), (0x200028, [(256, 256), (4, 2)]), (0x200030, [(256, 256), (4, 2)]), (0x200038, [(256, 256), (4, 2)]), (0x200040, [(256, 256), (4, 2)]), (0x200048, [(256, 256)]), (0x20004c, [(256, 256)]), (0x200050, [(256, 256), (4, 2)]), (0x200058, [(256, 256), (4, 2)]), (0x200060, [(256, 256), (4, 2)]), (0x200068, [(256, 256)]), (0x20006c, [(256, 256)])]
def clsDims7 : List (Nat × List (Nat × Nat)) :=
  [(0x200070, [(256, 256)]), (0x200074, [(256, 256)]), (0x200078, [(256, 256), (4, 2)]), (0x200080, [(256, 256)]), (0x200084, [(256, 256)]), (0x200088, [(256, 256), (4, 2)]), (0x200090, [(256, 256), (4, 2)]), (0x200098, [(256, 256), (4, 2)]), (0x2000a0, [(256, 256), (4, 2)]), (0x2000a8, [(256, 256)]), (0x2000ac, [(256, 256)]), (0x210000, [(16, 256)]), (0x210004, [(16, 256)]), (0x210008, [(16, 256)]), (0x211000, [(8, 1536)]), (0x211004, [(8, 1536)]), (0x214000, [(32, 16)]), (0x214004, [(32, 16)]), (0x214008, [(32, 16)]), (0x21400c, [(32, 16)])]
def clsDims8 : List (Nat × List (Nat × Nat)) :=
  [(0x214010, [(32, 16)]), (0x214200, []), (0x300000, [(256, 8)]), (0x300004, [(256, 8)]), (0x300008, [(256, 8)]), (0x30000c, [(256, 8)]), (0x300010, [(256, 8)]), (0x300014, [(256, 8)]), (0x300020, [(256, 8), (16, 3)]), (0x300024, [(256, 8), (16, 3)]), (0x300028, [(256, 8), (16, 3)]), (0x30002c, [(256, 8), (16, 3)]), (0x301000, [(4, 256)]), (0x310000, [(256, 32)]), (0x310004, [(256, 32)]), (0x310008, [(256, 32)]), (0x31000c, [(256, 32)]), (0x310010, [(256, 32)]), (0x310014, [(256, 32)]), (0x310040, [(256, 32), (8, 16)])]
def clsDims9 : List (Nat × List (Nat × Nat)) :=
  [(0x310044, [(256, 32), (8, 16)]), (0x312000, []), (0x320000, [(64, 4)]), (0x320004, [(64, 4)]), (0x320008, [(64, 4)]), (0x32000c, [(64, 4)]), (0x320010, [(64, 4)]), (0x320400, []), (0x320500, [(16, 16)]), (0x320504, [(16, 16)]), (0x320508, [(16, 16)]), (0x400000, [(32768, 32), (4, 4096)]), (0x404000, [(32768, 32), (4, 1024)]), (0x405000, [(32768, 32), (4, 1024)]), (0x407000, [(32768, 32)]), (0x407004, [(32768, 32)]), (0x407008, [(32768, 32)]), (0x40700c, [(32768, 32)]), (0x407040, [(32768, 32), (8, 8)]), (0x407044, [(32768, 32), (8, 8)])]
def clsDims10 : List (Nat × List (Nat × Nat)) :=
  [(0x407080, [(32768, 32), (4, 8)]), (0x4070a0, [(32768, 32)]), (0x4070a4, [(32768, 32)]), (0x4070a8, [(32768, 32)]), (0x4070c0, [(32768, 32), (4, 8)]), (0x4070e0, [(32768, 32), (4, 8)]), (0x407100, [(32768, 32)]), (0x407104, [(32768, 32), (4, 4)]), (0x407114, [(32768, 32), (4, 2)]), (0x40711c, [(32768, 32), (4, 2)]), (0x407124, [(32768, 32), (4, 2)]), (0x40712c, [(32768, 32), (4, 2)]), (0x407134, [(32768, 32)]), (0x407138, [(32768, 32)]), (0x40713c, [(32768, 32)]), (0x500000, []), (0x500004, []), (0x500008, []), (0x50000c, []), (0x500010, [])]
def clsDims11 : List (Nat × List (Nat × Nat)) :=
  [(0x500014, []), (0x500018, []), (0x50001c, []), (0x500020, []), (0x500024, []), (0x500028, []), (0x50002c, []), (0x500030, []), (0x600000, []), (0x600004, []), (0x600008, []), (0x60000c, []), (0x600010, []), (0x600014, []), (0x600018, []), (0x60001c, []), (0x600020, []), (0x600100, [(32, 8)]), (0x600104, [(32, 8)]), (0x600108, [(32, 8)])]
def clsDims12 : List (Nat × List (Nat × Nat)) :=
  [(0x60010c, [(32, 8)]), (0x600110, [(32, 8)]), (0x600114, [(32, 8)]), (0x600400, [(16, 16)]), (0x600404, [(16, 16)]), (0x600800, [(4, 256)]), (0x602000, [(64, 64), (4, 16)]), (0x700000, []), (0x700004, []), (0x700008, []), (0x70000c, []), (0x700010, []), (0x700014, []), (0x700018, []), (0x700020, []), (0x700030, []), (0x700040, []), (0x700044, []), (0x700048, []), (0x700050, [(4, 10)])]
def clsDims13 : List (Nat × List (Nat × Nat)) :=
  [(0x700100, []), (0x700104, []), (0x700108, []), (0x701000, [(256, 15)]), (0x701004, [(256, 15)]), (0x701010, [(256, 15), (16, 8), (4, 4)])]

/-- Base and index dimensions of register k. -/
def clsAt (k : Nat) : Option (Nat × List (Nat × Nat)) :=
  match k / 20 with
  | 0 => clsDims0[k % 20]?
  | 1 => clsDims1[k % 20]?
  | 2 => clsDims2[k % 20]?
  | 3 => clsDims3[k % 20]?
  | 4 => clsDims4[k % 20]?
  | 5 => clsDims5[k % 20]?
  | 6 => clsDims6[k % 20]?
  | 7 => clsDims7[k % 20]?
  | 8 => clsDims8[k % 20]?
  | 9 => clsDims9[k % 20]?
  | 10 => clsDims10[k % 20]?
  | 11 => clsDims11[k % 20]?
  | 12 => clsDims12[k % 20]?
  | 13 => clsDims13[k % 20]?
  | _ => none

theorem clsAt_map : (List.range 266).map clsAt = (R.block0 ++ R.block1 ++ R.block2 ++ R.block3 ++ R.block4 ++ R.block5 ++ R.block6 ++ R.block7 ++ R.block8 ++ R.block9 ++ R.block10 ++ R.block11 ++ R.block12 ++ R.block13 ++ R.block14).map fun c => some (c.base, c.dims) := by decide +kernel

/-- An address is one of register k's; after the registers: any address, the SRAM window, the axes' profile pages, the axes' control words, the lane block, the safety block. -/
def inCls (k a : Nat) : Bool :=
  match clsAt k with
  | some (b, ds) => decide (b ≤ a) && dimsHit ds (a - b)
  | none => match k - 266 with
    | 0 => true
    | 1 => decide (0x1000000 ≤ a)
    | 2 => decide (0x200000 ≤ a) && decide (a < 0x210000)
    | 3 => decide (0x120000 ≤ a) && decide (a < 0x122000)
    | 4 => decide (0x400000 ≤ a) && decide (a < 0x500000)
    | 5 => decide (0x600000 ≤ a) && decide (a < 0x700000)
    | _ => false

/-- A footprint allows a write of an address. -/
def okw (m a : Nat) : Prop := ∃ k, m.testBit (160 + k) = true ∧ inCls k a = true

/-- A footprint holds an address. -/
def foot (m a : Nat) : Bool := (List.range 272).any fun k => m.testBit (160 + k) && inCls k a

theorem inCls_lt {k a : Nat} (h : inCls k a = true) : k < 272 := by
  by_contra hk
  have h1 : clsAt k = none := by
    unfold clsAt
    split
    all_goals first | rfl | omega | exact List.getElem?_eq_none (by show 6 ≤ _; omega)
  unfold inCls at h
  rw [h1] at h
  obtain ⟨j, hj⟩ : ∃ j, k - 266 = j + 6 := ⟨k - 272, by omega⟩
  rw [hj] at h
  exact absurd h (by simp)

theorem foot_of_okw {m a : Nat} (h : okw m a) : foot m a = true := by
  obtain ⟨k, h1, h2⟩ := h
  exact List.any_eq_true.2 ⟨k, List.mem_range.2 (inCls_lt h2), by rw [h1, h2]; rfl⟩

theorem foot_mono {m n a : Nat} (hs : m &&& n = m) (h : foot m a = true) : foot n a = true := by
  obtain ⟨k, h1, h2⟩ := List.any_eq_true.1 h
  rw [Bool.and_eq_true] at h2
  refine List.any_eq_true.2 ⟨k, h1, ?_⟩
  rw [← hs, Nat.testBit_and] at h2
  have h3 := h2.1
  rw [Bool.and_eq_true] at h3
  rw [h3.2, h2.2]; rfl

theorem okw_mono {m n a : Nat} (hs : m &&& n = m) (h : okw m a) : okw n a := by
  obtain ⟨k, h1, h2⟩ := h
  rw [← hs, Nat.testBit_and, Bool.and_eq_true] at h1
  exact ⟨k, h1.2, h2⟩

theorem okw_any {m a : Nat} (h : m.testBit 426 = true) : okw m a := ⟨266, h, rfl⟩
theorem okw_sram {m a : Nat} (h : m.testBit 427 = true) (ha : 0x1000000 ≤ a) : okw m a := ⟨267, h, by show decide _ = true; simpa using ha⟩
theorem okw_pf {m a : Nat} (h : m.testBit 428 = true) (h1 : 0x200000 ≤ a) (h2 : a < 0x210000) : okw m a := ⟨268, h, by show (decide _ && decide _) = true; simp [h1, h2]⟩
theorem okw_ax {m a : Nat} (h : m.testBit 429 = true) (h1 : 0x120000 ≤ a) (h2 : a < 0x122000) : okw m a := ⟨269, h, by show (decide _ && decide _) = true; simp [h1, h2]⟩
theorem okw_lane {m a : Nat} (h : m.testBit 430 = true) (h1 : 0x400000 ≤ a) (h2 : a < 0x500000) : okw m a := ⟨270, h, by show (decide _ && decide _) = true; simp [h1, h2]⟩
theorem okw_safe {m a : Nat} (h : m.testBit 431 = true) (h1 : 0x600000 ≤ a) (h2 : a < 0x700000) : okw m a := ⟨271, h, by show (decide _ && decide _) = true; simp [h1, h2]⟩

theorem hit0 (b : Nat) : (decide (b ≤ b) && dimsHit [] (b - b)) = true := by simp [dimsHit]
theorem hit1 (b st c i : Nat) (hs : 0 < st) (hc : 0 < c) : (decide (b ≤ b + st * (i % c)) && dimsHit [(st, c)] (b + st * (i % c) - b)) = true := by
  have h1 : b + st * (i % c) - b = st * (i % c) := by omega
  have h2 : i % c < c := Nat.mod_lt _ hc
  simp [dimsHit, h1, Nat.mul_div_cancel_left _ hs, h2]
theorem hit2 (b st c i su d j : Nat) (hs : 0 < st) (hc : 0 < c) (hu : 0 < su) (hd : 0 < d) (hx : su * d ≤ st) :
    (decide (b ≤ b + st * (i % c) + su * (j % d)) && dimsHit [(st, c), (su, d)] (b + st * (i % c) + su * (j % d) - b)) = true := by
  have h1 : b + st * (i % c) + su * (j % d) - b = su * (j % d) + st * (i % c) := by omega
  have h2 : i % c < c := Nat.mod_lt _ hc
  have h3 : j % d < d := Nat.mod_lt _ hd
  have h4 : su * (j % d) < st := lt_of_lt_of_le (Nat.mul_lt_mul_of_pos_left h3 hu) hx
  simp [dimsHit, h1, Nat.add_mul_div_left _ _ hs, Nat.div_eq_of_lt h4, h2, Nat.mod_eq_of_lt h4, Nat.mul_div_cancel_left _ hu, h3]
  omega

theorem hit3 (b st c i su d j sv e k : Nat) (hs : 0 < st) (hc : 0 < c) (hu : 0 < su) (hd : 0 < d) (hv : 0 < sv) (he : 0 < e) (hx : su * d ≤ st) (hy : sv * e ≤ su) :
    (decide (b ≤ b + st * (i % c) + su * (j % d) + sv * (k % e)) &&
      dimsHit [(st, c), (su, d), (sv, e)] (b + st * (i % c) + su * (j % d) + sv * (k % e) - b)) = true := by
  have h1 : b + st * (i % c) + su * (j % d) + sv * (k % e) - b = (sv * (k % e) + su * (j % d)) + st * (i % c) := by omega
  have h2 : i % c < c := Nat.mod_lt _ hc
  have h3 : j % d < d := Nat.mod_lt _ hd
  have h5 : k % e < e := Nat.mod_lt _ he
  have h6 : sv * (k % e) < su := lt_of_lt_of_le (Nat.mul_lt_mul_of_pos_left h5 hv) hy
  have h4 : sv * (k % e) + su * (j % d) < st := by
    have : su * (j % d + 1) ≤ su * d := Nat.mul_le_mul_left _ h3
    rw [Nat.mul_add] at this; omega
  simp [dimsHit, h1, Nat.add_mul_div_left _ _ hs, Nat.div_eq_of_lt h4, h2, Nat.mod_eq_of_lt h4, Nat.add_mul_div_left _ _ hu, Nat.div_eq_of_lt h6,
    Nat.mod_eq_of_lt h6, Nat.mul_div_cancel_left _ hv, h3, h5]
  omega

theorem of_hit3 {b st c su d sv e a : Nat} (h : (decide (b ≤ a) && dimsHit [(st, c), (su, d), (sv, e)] (a - b)) = true) :
    ∃ i j k, a = b + st * (i % c) + su * (j % d) + sv * (k % e) := by
  simp only [dimsHit, Bool.and_eq_true, decide_eq_true_eq, beq_iff_eq] at h
  obtain ⟨h1, h2, h3, h7, h5⟩ := h
  have h4 := Nat.div_add_mod (a - b) st
  have h6 := Nat.div_add_mod ((a - b) % st) su
  have h8 := Nat.div_add_mod ((a - b) % st % su) sv
  exact ⟨(a - b) / st, (a - b) % st / su, (a - b) % st % su / sv, by rw [Nat.mod_eq_of_lt h2, Nat.mod_eq_of_lt h3, Nat.mod_eq_of_lt h7]; omega⟩
theorem of_hit0 {b a : Nat} (h : (decide (b ≤ a) && dimsHit [] (a - b)) = true) : a = b := by
  simp [dimsHit] at h; omega
theorem of_hit1 {b st c a : Nat} (h : (decide (b ≤ a) && dimsHit [(st, c)] (a - b)) = true) : ∃ i, a = b + st * (i % c) := by
  simp only [dimsHit, Bool.and_eq_true, decide_eq_true_eq, beq_iff_eq] at h
  obtain ⟨h1, h2, h3⟩ := h
  have h4 := Nat.div_add_mod (a - b) st
  exact ⟨(a - b) / st, by rw [Nat.mod_eq_of_lt h2]; omega⟩
theorem of_hit2 {b st c su d a : Nat} (h : (decide (b ≤ a) && dimsHit [(st, c), (su, d)] (a - b)) = true) :
    ∃ i j, a = b + st * (i % c) + su * (j % d) := by
  simp only [dimsHit, Bool.and_eq_true, decide_eq_true_eq, beq_iff_eq] at h
  obtain ⟨h1, h2, h3, h5⟩ := h
  have h4 := Nat.div_add_mod (a - b) st
  have h6 := Nat.div_add_mod ((a - b) % st) su
  exact ⟨(a - b) / st, (a - b) % st / su, by rw [Nat.mod_eq_of_lt h2, Nat.mod_eq_of_lt h3]; omega⟩

theorem okw_DEV_ID {m : Nat} (h : m.testBit 160 = true) : okw m R.DEV_ID := ⟨0, h, hit0 0x0⟩
theorem of_DEV_ID {a : Nat} (h : inCls 0 a = true) : a = R.DEV_ID := of_hit0 h
theorem okw_DEV_REV {m : Nat} (h : m.testBit 161 = true) : okw m R.DEV_REV := ⟨1, h, hit0 0x4⟩
theorem of_DEV_REV {a : Nat} (h : inCls 1 a = true) : a = R.DEV_REV := of_hit0 h
theorem okw_COMPAT {m : Nat} (h : m.testBit 162 = true) : okw m R.COMPAT := ⟨2, h, hit0 0x8⟩
theorem of_COMPAT {a : Nat} (h : inCls 2 a = true) : a = R.COMPAT := of_hit0 h
theorem okw_DEV_SERIAL {m : Nat} (h : m.testBit 163 = true) : okw m R.DEV_SERIAL := ⟨3, h, hit0 0xc⟩
theorem of_DEV_SERIAL {a : Nat} (h : inCls 3 a = true) : a = R.DEV_SERIAL := of_hit0 h
theorem okw_ROM_VER {m : Nat} (h : m.testBit 164 = true) : okw m R.ROM_VER := ⟨4, h, hit0 0x10⟩
theorem of_ROM_VER {a : Nat} (h : inCls 4 a = true) : a = R.ROM_VER := of_hit0 h
theorem okw_PATCH_STATE {m : Nat} (h : m.testBit 165 = true) : okw m R.PATCH_STATE := ⟨5, h, hit0 0x14⟩
theorem of_PATCH_STATE {a : Nat} (h : inCls 5 a = true) : a = R.PATCH_STATE := of_hit0 h
theorem okw_OTP_STATE {m : Nat} (h : m.testBit 166 = true) : okw m R.OTP_STATE := ⟨6, h, hit0 0x18⟩
theorem of_OTP_STATE {a : Nat} (h : inCls 6 a = true) : a = R.OTP_STATE := of_hit0 h
theorem okw_KEY_HASH {m : Nat} {i : Nat} (h : m.testBit 167 = true) : okw m (R.KEY_HASH i) := ⟨7, h, hit1 0x20 4 8 i (by decide) (by decide)⟩
theorem of_KEY_HASH {a : Nat} (h : inCls 7 a = true) : ∃ i, a = R.KEY_HASH i := of_hit1 h
theorem okw_MAC_HI {m : Nat} (h : m.testBit 168 = true) : okw m R.MAC_HI := ⟨8, h, hit0 0x40⟩
theorem of_MAC_HI {a : Nat} (h : inCls 8 a = true) : a = R.MAC_HI := of_hit0 h
theorem okw_MAC_LO {m : Nat} (h : m.testBit 169 = true) : okw m R.MAC_LO := ⟨9, h, hit0 0x44⟩
theorem of_MAC_LO {a : Nat} (h : inCls 9 a = true) : a = R.MAC_LO := of_hit0 h
theorem okw_INTF_VER {m : Nat} (h : m.testBit 170 = true) : okw m R.INTF_VER := ⟨10, h, hit0 0x48⟩
theorem of_INTF_VER {a : Nat} (h : inCls 10 a = true) : a = R.INTF_VER := of_hit0 h
theorem okw_SYS_CTRL {m : Nat} (h : m.testBit 171 = true) : okw m R.SYS_CTRL := ⟨11, h, hit0 0x10000⟩
theorem of_SYS_CTRL {a : Nat} (h : inCls 11 a = true) : a = R.SYS_CTRL := of_hit0 h
theorem okw_SYS_CMD {m : Nat} (h : m.testBit 172 = true) : okw m R.SYS_CMD := ⟨12, h, hit0 0x10004⟩
theorem of_SYS_CMD {a : Nat} (h : inCls 12 a = true) : a = R.SYS_CMD := of_hit0 h
theorem okw_BOOT_STATUS {m : Nat} (h : m.testBit 173 = true) : okw m R.BOOT_STATUS := ⟨13, h, hit0 0x10008⟩
theorem of_BOOT_STATUS {a : Nat} (h : inCls 13 a = true) : a = R.BOOT_STATUS := of_hit0 h
theorem okw_BOOT_CAUSE {m : Nat} (h : m.testBit 174 = true) : okw m R.BOOT_CAUSE := ⟨14, h, hit0 0x1000c⟩
theorem of_BOOT_CAUSE {a : Nat} (h : inCls 14 a = true) : a = R.BOOT_CAUSE := of_hit0 h
theorem okw_BOOT_HIST {m : Nat} {i : Nat} (h : m.testBit 175 = true) : okw m (R.BOOT_HIST i) := ⟨15, h, hit1 0x10010 4 4 i (by decide) (by decide)⟩
theorem of_BOOT_HIST {a : Nat} (h : inCls 15 a = true) : ∃ i, a = R.BOOT_HIST i := of_hit1 h
theorem okw_BOOT_TIME {m : Nat} (h : m.testBit 176 = true) : okw m R.BOOT_TIME := ⟨16, h, hit0 0x10020⟩
theorem of_BOOT_TIME {a : Nat} (h : inCls 16 a = true) : a = R.BOOT_TIME := of_hit0 h
theorem okw_IMG_IGEN {m : Nat} (h : m.testBit 177 = true) : okw m R.IMG_IGEN := ⟨17, h, hit0 0x10040⟩
theorem of_IMG_IGEN {a : Nat} (h : inCls 17 a = true) : a = R.IMG_IGEN := of_hit0 h
theorem okw_IMG_FMT {m : Nat} (h : m.testBit 178 = true) : okw m R.IMG_FMT := ⟨18, h, hit0 0x10044⟩
theorem of_IMG_FMT {a : Nat} (h : inCls 18 a = true) : a = R.IMG_FMT := of_hit0 h
theorem okw_IMG_CMD {m : Nat} (h : m.testBit 179 = true) : okw m R.IMG_CMD := ⟨19, h, hit0 0x10048⟩
theorem of_IMG_CMD {a : Nat} (h : inCls 19 a = true) : a = R.IMG_CMD := of_hit0 h
theorem okw_IMG_JOB {m : Nat} (h : m.testBit 180 = true) : okw m R.IMG_JOB := ⟨20, h, hit0 0x1004c⟩
theorem of_IMG_JOB {a : Nat} (h : inCls 20 a = true) : a = R.IMG_JOB := of_hit0 h
theorem okw_IMG_SLOTS {m : Nat} (h : m.testBit 181 = true) : okw m R.IMG_SLOTS := ⟨21, h, hit0 0x10050⟩
theorem of_IMG_SLOTS {a : Nat} (h : inCls 21 a = true) : a = R.IMG_SLOTS := of_hit0 h
theorem okw_IMG_FREE_IGEN {m : Nat} (h : m.testBit 182 = true) : okw m R.IMG_FREE_IGEN := ⟨22, h, hit0 0x10054⟩
theorem of_IMG_FREE_IGEN {a : Nat} (h : inCls 22 a = true) : a = R.IMG_FREE_IGEN := of_hit0 h
theorem okw_LOG_NVM {m : Nat} (h : m.testBit 183 = true) : okw m R.LOG_NVM := ⟨23, h, hit0 0x10060⟩
theorem of_LOG_NVM {a : Nat} (h : inCls 23 a = true) : a = R.LOG_NVM := of_hit0 h
theorem okw_RCP_CMD {m : Nat} (h : m.testBit 184 = true) : okw m R.RCP_CMD := ⟨24, h, hit0 0x10080⟩
theorem of_RCP_CMD {a : Nat} (h : inCls 24 a = true) : a = R.RCP_CMD := of_hit0 h
theorem okw_RCP_STATUS {m : Nat} (h : m.testBit 185 = true) : okw m R.RCP_STATUS := ⟨25, h, hit0 0x10084⟩
theorem of_RCP_STATUS {a : Nat} (h : inCls 25 a = true) : a = R.RCP_STATUS := of_hit0 h
theorem okw_RCP_BANK {m : Nat} {i : Nat} (h : m.testBit 186 = true) : okw m (R.RCP_BANK i) := ⟨26, h, hit1 0x100a0 4 8 i (by decide) (by decide)⟩
theorem of_RCP_BANK {a : Nat} (h : inCls 26 a = true) : ∃ i, a = R.RCP_BANK i := of_hit1 h
theorem okw_REGION_CTRL {m : Nat} {i : Nat} (h : m.testBit 187 = true) : okw m (R.REGION_CTRL i) := ⟨27, h, hit1 0x10400 16 4 i (by decide) (by decide)⟩
theorem of_REGION_CTRL {a : Nat} (h : inCls 27 a = true) : ∃ i, a = R.REGION_CTRL i := of_hit1 h
theorem okw_REGION_STATUS {m : Nat} {i : Nat} (h : m.testBit 188 = true) : okw m (R.REGION_STATUS i) := ⟨28, h, hit1 0x10404 16 4 i (by decide) (by decide)⟩
theorem of_REGION_STATUS {a : Nat} (h : inCls 28 a = true) : ∃ i, a = R.REGION_STATUS i := of_hit1 h
theorem okw_REGION_TILE_ERR {m : Nat} {i : Nat} (h : m.testBit 189 = true) : okw m (R.REGION_TILE_ERR i) := ⟨29, h, hit1 0x10408 16 4 i (by decide) (by decide)⟩
theorem of_REGION_TILE_ERR {a : Nat} (h : inCls 29 a = true) : ∃ i, a = R.REGION_TILE_ERR i := of_hit1 h
theorem okw_REGION_CMD {m : Nat} {i : Nat} (h : m.testBit 190 = true) : okw m (R.REGION_CMD i) := ⟨30, h, hit1 0x1040c 16 4 i (by decide) (by decide)⟩
theorem of_REGION_CMD {a : Nat} (h : inCls 30 a = true) : ∃ i, a = R.REGION_CMD i := of_hit1 h
theorem okw_SCH_CTRL {m : Nat} (h : m.testBit 191 = true) : okw m R.SCH_CTRL := ⟨31, h, hit0 0x20000⟩
theorem of_SCH_CTRL {a : Nat} (h : inCls 31 a = true) : a = R.SCH_CTRL := of_hit0 h
theorem okw_SCH_STATUS {m : Nat} (h : m.testBit 192 = true) : okw m R.SCH_STATUS := ⟨32, h, hit0 0x20004⟩
theorem of_SCH_STATUS {a : Nat} (h : inCls 32 a = true) : a = R.SCH_STATUS := of_hit0 h
theorem okw_TICK_COUNT {m : Nat} (h : m.testBit 193 = true) : okw m R.TICK_COUNT := ⟨33, h, hit0 0x20008⟩
theorem of_TICK_COUNT {a : Nat} (h : inCls 33 a = true) : a = R.TICK_COUNT := of_hit0 h
theorem okw_TA_MON {m : Nat} (h : m.testBit 194 = true) : okw m R.TA_MON := ⟨34, h, hit0 0x2000c⟩
theorem of_TA_MON {a : Nat} (h : inCls 34 a = true) : a = R.TA_MON := of_hit0 h
theorem okw_INS_KEY_LO {m : Nat} (h : m.testBit 195 = true) : okw m R.INS_KEY_LO := ⟨35, h, hit0 0x20040⟩
theorem of_INS_KEY_LO {a : Nat} (h : inCls 35 a = true) : a = R.INS_KEY_LO := of_hit0 h
theorem okw_INS_KEY_HI {m : Nat} (h : m.testBit 196 = true) : okw m R.INS_KEY_HI := ⟨36, h, hit0 0x20044⟩
theorem of_INS_KEY_HI {a : Nat} (h : inCls 36 a = true) : a = R.INS_KEY_HI := of_hit0 h
theorem okw_INS_ACT {m : Nat} (h : m.testBit 197 = true) : okw m R.INS_ACT := ⟨37, h, hit0 0x20048⟩
theorem of_INS_ACT {a : Nat} (h : inCls 37 a = true) : a = R.INS_ACT := of_hit0 h
theorem okw_INS_PAY {m : Nat} (h : m.testBit 198 = true) : okw m R.INS_PAY := ⟨38, h, hit0 0x2004c⟩
theorem of_INS_PAY {a : Nat} (h : inCls 38 a = true) : a = R.INS_PAY := of_hit0 h
theorem okw_INS_CMD {m : Nat} (h : m.testBit 199 = true) : okw m R.INS_CMD := ⟨39, h, hit0 0x20050⟩
theorem of_INS_CMD {a : Nat} (h : inCls 39 a = true) : a = R.INS_CMD := of_hit0 h
theorem okw_INS_RESULT {m : Nat} (h : m.testBit 200 = true) : okw m R.INS_RESULT := ⟨40, h, hit0 0x20054⟩
theorem of_INS_RESULT {a : Nat} (h : inCls 40 a = true) : a = R.INS_RESULT := of_hit0 h
theorem okw_DL_DEPTH {m : Nat} {i : Nat} (h : m.testBit 201 = true) : okw m (R.DL_DEPTH i) := ⟨41, h, hit1 0x20100 4 4 i (by decide) (by decide)⟩
theorem of_DL_DEPTH {a : Nat} (h : inCls 41 a = true) : ∃ i, a = R.DL_DEPTH i := of_hit1 h
theorem okw_WAIT {m : Nat} {i : Nat} (h : m.testBit 202 = true) : okw m (R.WAIT i) := ⟨42, h, hit1 0x20110 4 4 i (by decide) (by decide)⟩
theorem of_WAIT {a : Nat} (h : inCls 42 a = true) : ∃ i, a = R.WAIT i := of_hit1 h
theorem okw_RL_DEPTH {m : Nat} {i j : Nat} (h : m.testBit 203 = true) : okw m (R.RL_DEPTH i j) := ⟨43, h, hit2 0x20200 16 4 i 4 4 j (by decide) (by decide) (by decide) (by decide) (by decide)⟩
theorem of_RL_DEPTH {a : Nat} (h : inCls 43 a = true) : ∃ i j, a = R.RL_DEPTH i j := of_hit2 h
theorem okw_UNIT_LOAD {m : Nat} {i : Nat} (h : m.testBit 204 = true) : okw m (R.UNIT_LOAD i) := ⟨44, h, hit1 0x20400 4 32 i (by decide) (by decide)⟩
theorem of_UNIT_LOAD {a : Nat} (h : inCls 44 a = true) : ∃ i, a = R.UNIT_LOAD i := of_hit1 h
theorem okw_MA_CTRL {m : Nat} (h : m.testBit 205 = true) : okw m R.MA_CTRL := ⟨45, h, hit0 0x30000⟩
theorem of_MA_CTRL {a : Nat} (h : inCls 45 a = true) : a = R.MA_CTRL := of_hit0 h
theorem okw_MA_STATUS {m : Nat} (h : m.testBit 206 = true) : okw m R.MA_STATUS := ⟨46, h, hit0 0x30004⟩
theorem of_MA_STATUS {a : Nat} (h : inCls 46 a = true) : a = R.MA_STATUS := of_hit0 h
theorem okw_MA_CMD {m : Nat} (h : m.testBit 207 = true) : okw m R.MA_CMD := ⟨47, h, hit0 0x30008⟩
theorem of_MA_CMD {a : Nat} (h : inCls 47 a = true) : a = R.MA_CMD := of_hit0 h
theorem okw_MA_ANGLE {m : Nat} (h : m.testBit 208 = true) : okw m R.MA_ANGLE := ⟨48, h, hit0 0x30010⟩
theorem of_MA_ANGLE {a : Nat} (h : inCls 48 a = true) : a = R.MA_ANGLE := of_hit0 h
theorem okw_MA_CYCLE {m : Nat} (h : m.testBit 209 = true) : okw m R.MA_CYCLE := ⟨49, h, hit0 0x30014⟩
theorem of_MA_CYCLE {a : Nat} (h : inCls 49 a = true) : a = R.MA_CYCLE := of_hit0 h
theorem okw_MA_FRAC {m : Nat} (h : m.testBit 210 = true) : okw m R.MA_FRAC := ⟨50, h, hit0 0x30018⟩
theorem of_MA_FRAC {a : Nat} (h : inCls 50 a = true) : a = R.MA_FRAC := of_hit0 h
theorem okw_MA_SPEED_LO {m : Nat} (h : m.testBit 211 = true) : okw m R.MA_SPEED_LO := ⟨51, h, hit0 0x3001c⟩
theorem of_MA_SPEED_LO {a : Nat} (h : inCls 51 a = true) : a = R.MA_SPEED_LO := of_hit0 h
theorem okw_MA_SPEED_HI {m : Nat} (h : m.testBit 212 = true) : okw m R.MA_SPEED_HI := ⟨52, h, hit0 0x30020⟩
theorem of_MA_SPEED_HI {a : Nat} (h : inCls 52 a = true) : a = R.MA_SPEED_HI := of_hit0 h
theorem okw_MA_DISC_LIM {m : Nat} (h : m.testBit 213 = true) : okw m R.MA_DISC_LIM := ⟨53, h, hit0 0x30024⟩
theorem of_MA_DISC_LIM {a : Nat} (h : inCls 53 a = true) : a = R.MA_DISC_LIM := of_hit0 h
theorem okw_MA_CYCLE_INIT {m : Nat} (h : m.testBit 214 = true) : okw m R.MA_CYCLE_INIT := ⟨54, h, hit0 0x30028⟩
theorem of_MA_CYCLE_INIT {a : Nat} (h : inCls 54 a = true) : a = R.MA_CYCLE_INIT := of_hit0 h
theorem okw_MA_SRC_CFG {m : Nat} {i : Nat} (h : m.testBit 215 = true) : okw m (R.MA_SRC_CFG i) := ⟨55, h, hit1 0x30040 16 3 i (by decide) (by decide)⟩
theorem of_MA_SRC_CFG {a : Nat} (h : inCls 55 a = true) : ∃ i, a = R.MA_SRC_CFG i := of_hit1 h
theorem okw_MA_SRC_NUM {m : Nat} {i : Nat} (h : m.testBit 216 = true) : okw m (R.MA_SRC_NUM i) := ⟨56, h, hit1 0x30044 16 3 i (by decide) (by decide)⟩
theorem of_MA_SRC_NUM {a : Nat} (h : inCls 56 a = true) : ∃ i, a = R.MA_SRC_NUM i := of_hit1 h
theorem okw_MA_SRC_DEN {m : Nat} {i : Nat} (h : m.testBit 217 = true) : okw m (R.MA_SRC_DEN i) := ⟨57, h, hit1 0x30048 16 3 i (by decide) (by decide)⟩
theorem of_MA_SRC_DEN {a : Nat} (h : inCls 57 a = true) : ∃ i, a = R.MA_SRC_DEN i := of_hit1 h
theorem okw_MA_SRC_OFS {m : Nat} {i : Nat} (h : m.testBit 218 = true) : okw m (R.MA_SRC_OFS i) := ⟨58, h, hit1 0x3004c 16 3 i (by decide) (by decide)⟩
theorem of_MA_SRC_OFS {a : Nat} (h : inCls 58 a = true) : ∃ i, a = R.MA_SRC_OFS i := of_hit1 h
theorem okw_VM_TARGET_LO {m : Nat} (h : m.testBit 219 = true) : okw m R.VM_TARGET_LO := ⟨59, h, hit0 0x30080⟩
theorem of_VM_TARGET_LO {a : Nat} (h : inCls 59 a = true) : a = R.VM_TARGET_LO := of_hit0 h
theorem okw_VM_TARGET_HI {m : Nat} (h : m.testBit 220 = true) : okw m R.VM_TARGET_HI := ⟨60, h, hit0 0x30084⟩
theorem of_VM_TARGET_HI {a : Nat} (h : inCls 60 a = true) : a = R.VM_TARGET_HI := of_hit0 h
theorem okw_VM_ACCEL_LO {m : Nat} (h : m.testBit 221 = true) : okw m R.VM_ACCEL_LO := ⟨61, h, hit0 0x30088⟩
theorem of_VM_ACCEL_LO {a : Nat} (h : inCls 61 a = true) : a = R.VM_ACCEL_LO := of_hit0 h
theorem okw_VM_ACCEL_HI {m : Nat} (h : m.testBit 222 = true) : okw m R.VM_ACCEL_HI := ⟨62, h, hit0 0x3008c⟩
theorem of_VM_ACCEL_HI {a : Nat} (h : inCls 62 a = true) : a = R.VM_ACCEL_HI := of_hit0 h
theorem okw_VM_SPEED_LO {m : Nat} (h : m.testBit 223 = true) : okw m R.VM_SPEED_LO := ⟨63, h, hit0 0x30090⟩
theorem of_VM_SPEED_LO {a : Nat} (h : inCls 63 a = true) : a = R.VM_SPEED_LO := of_hit0 h
theorem okw_VM_SPEED_HI {m : Nat} (h : m.testBit 224 = true) : okw m R.VM_SPEED_HI := ⟨64, h, hit0 0x30094⟩
theorem of_VM_SPEED_HI {a : Nat} (h : inCls 64 a = true) : a = R.VM_SPEED_HI := of_hit0 h
theorem okw_TIME_NS {m : Nat} (h : m.testBit 225 = true) : okw m R.TIME_NS := ⟨65, h, hit0 0x40000⟩
theorem of_TIME_NS {a : Nat} (h : inCls 65 a = true) : a = R.TIME_NS := of_hit0 h
theorem okw_TIME_ERA {m : Nat} (h : m.testBit 226 = true) : okw m R.TIME_ERA := ⟨66, h, hit0 0x40004⟩
theorem of_TIME_ERA {a : Nat} (h : inCls 66 a = true) : a = R.TIME_ERA := of_hit0 h
theorem okw_TIME_INC_LO {m : Nat} (h : m.testBit 227 = true) : okw m R.TIME_INC_LO := ⟨67, h, hit0 0x40008⟩
theorem of_TIME_INC_LO {a : Nat} (h : inCls 67 a = true) : a = R.TIME_INC_LO := of_hit0 h
theorem okw_TIME_INC_HI {m : Nat} (h : m.testBit 228 = true) : okw m R.TIME_INC_HI := ⟨68, h, hit0 0x4000c⟩
theorem of_TIME_INC_HI {a : Nat} (h : inCls 68 a = true) : a = R.TIME_INC_HI := of_hit0 h
theorem okw_TIME_ADJ {m : Nat} (h : m.testBit 229 = true) : okw m R.TIME_ADJ := ⟨69, h, hit0 0x40010⟩
theorem of_TIME_ADJ {a : Nat} (h : inCls 69 a = true) : a = R.TIME_ADJ := of_hit0 h
theorem okw_TIME_CTRL {m : Nat} (h : m.testBit 230 = true) : okw m R.TIME_CTRL := ⟨70, h, hit0 0x40014⟩
theorem of_TIME_CTRL {a : Nat} (h : inCls 70 a = true) : a = R.TIME_CTRL := of_hit0 h
theorem okw_TIME_STATUS {m : Nat} (h : m.testBit 231 = true) : okw m R.TIME_STATUS := ⟨71, h, hit0 0x40018⟩
theorem of_TIME_STATUS {a : Nat} (h : inCls 71 a = true) : a = R.TIME_STATUS := of_hit0 h
theorem okw_TIME_OFS {m : Nat} (h : m.testBit 232 = true) : okw m R.TIME_OFS := ⟨72, h, hit0 0x4001c⟩
theorem of_TIME_OFS {a : Nat} (h : inCls 72 a = true) : a = R.TIME_OFS := of_hit0 h
theorem okw_TIME_MSERIAL {m : Nat} (h : m.testBit 233 = true) : okw m R.TIME_MSERIAL := ⟨73, h, hit0 0x40020⟩
theorem of_TIME_MSERIAL {a : Nat} (h : inCls 73 a = true) : a = R.TIME_MSERIAL := of_hit0 h
theorem okw_TIME_CYC {m : Nat} (h : m.testBit 234 = true) : okw m R.TIME_CYC := ⟨74, h, hit0 0x40024⟩
theorem of_TIME_CYC {a : Nat} (h : inCls 74 a = true) : a = R.TIME_CYC := of_hit0 h
theorem okw_REF_MISS_CNT {m : Nat} (h : m.testBit 235 = true) : okw m R.REF_MISS_CNT := ⟨75, h, hit0 0x40028⟩
theorem of_REF_MISS_CNT {a : Nat} (h : inCls 75 a = true) : a = R.REF_MISS_CNT := of_hit0 h
theorem okw_PTP_CTRL {m : Nat} (h : m.testBit 236 = true) : okw m R.PTP_CTRL := ⟨76, h, hit0 0x40040⟩
theorem of_PTP_CTRL {a : Nat} (h : inCls 76 a = true) : a = R.PTP_CTRL := of_hit0 h
theorem okw_PTP_STATUS {m : Nat} (h : m.testBit 237 = true) : okw m R.PTP_STATUS := ⟨77, h, hit0 0x40044⟩
theorem of_PTP_STATUS {a : Nat} (h : inCls 77 a = true) : a = R.PTP_STATUS := of_hit0 h
theorem okw_PTP_OFS {m : Nat} (h : m.testBit 238 = true) : okw m R.PTP_OFS := ⟨78, h, hit0 0x40048⟩
theorem of_PTP_OFS {a : Nat} (h : inCls 78 a = true) : a = R.PTP_OFS := of_hit0 h
theorem okw_NET_CTRL {m : Nat} (h : m.testBit 239 = true) : okw m R.NET_CTRL := ⟨79, h, hit0 0x80000⟩
theorem of_NET_CTRL {a : Nat} (h : inCls 79 a = true) : a = R.NET_CTRL := of_hit0 h
theorem okw_NET_ID {m : Nat} (h : m.testBit 240 = true) : okw m R.NET_ID := ⟨80, h, hit0 0x80004⟩
theorem of_NET_ID {a : Nat} (h : inCls 80 a = true) : a = R.NET_ID := of_hit0 h
theorem okw_NET_CFG {m : Nat} (h : m.testBit 241 = true) : okw m R.NET_CFG := ⟨81, h, hit0 0x80008⟩
theorem of_NET_CFG {a : Nat} (h : inCls 81 a = true) : a = R.NET_CFG := of_hit0 h
theorem okw_NET_STATE {m : Nat} (h : m.testBit 242 = true) : okw m R.NET_STATE := ⟨82, h, hit0 0x8000c⟩
theorem of_NET_STATE {a : Nat} (h : inCls 82 a = true) : a = R.NET_STATE := of_hit0 h
theorem okw_NET_CMD {m : Nat} (h : m.testBit 243 = true) : okw m R.NET_CMD := ⟨83, h, hit0 0x80010⟩
theorem of_NET_CMD {a : Nat} (h : inCls 83 a = true) : a = R.NET_CMD := of_hit0 h
theorem okw_NET_SGEN {m : Nat} (h : m.testBit 244 = true) : okw m R.NET_SGEN := ⟨84, h, hit0 0x80014⟩
theorem of_NET_SGEN {a : Nat} (h : inCls 84 a = true) : a = R.NET_SGEN := of_hit0 h
theorem okw_NET_STATUS {m : Nat} (h : m.testBit 245 = true) : okw m R.NET_STATUS := ⟨85, h, hit0 0x80018⟩
theorem of_NET_STATUS {a : Nat} (h : inCls 85 a = true) : a = R.NET_STATUS := of_hit0 h
theorem okw_PORT_CTRL {m : Nat} {i : Nat} (h : m.testBit 246 = true) : okw m (R.PORT_CTRL i) := ⟨86, h, hit1 0x80100 64 5 i (by decide) (by decide)⟩
theorem of_PORT_CTRL {a : Nat} (h : inCls 86 a = true) : ∃ i, a = R.PORT_CTRL i := of_hit1 h
theorem okw_PORT_STATUS {m : Nat} {i : Nat} (h : m.testBit 247 = true) : okw m (R.PORT_STATUS i) := ⟨87, h, hit1 0x80104 64 5 i (by decide) (by decide)⟩
theorem of_PORT_STATUS {a : Nat} (h : inCls 87 a = true) : ∃ i, a = R.PORT_STATUS i := of_hit1 h
theorem okw_PORT_PARTNER {m : Nat} {i : Nat} (h : m.testBit 248 = true) : okw m (R.PORT_PARTNER i) := ⟨88, h, hit1 0x80108 64 5 i (by decide) (by decide)⟩
theorem of_PORT_PARTNER {a : Nat} (h : inCls 88 a = true) : ∃ i, a = R.PORT_PARTNER i := of_hit1 h
theorem okw_PORT_CMD {m : Nat} {i : Nat} (h : m.testBit 249 = true) : okw m (R.PORT_CMD i) := ⟨89, h, hit1 0x8010c 64 5 i (by decide) (by decide)⟩
theorem of_PORT_CMD {a : Nat} (h : inCls 89 a = true) : ∃ i, a = R.PORT_CMD i := of_hit1 h
theorem okw_FIRST {m : Nat} {i : Nat} (h : m.testBit 250 = true) : okw m (R.FIRST i) := ⟨90, h, hit1 0x80110 64 5 i (by decide) (by decide)⟩
theorem of_FIRST {a : Nat} (h : inCls 90 a = true) : ∃ i, a = R.FIRST i := of_hit1 h
theorem okw_LATER {m : Nat} {i : Nat} (h : m.testBit 251 = true) : okw m (R.LATER i) := ⟨91, h, hit1 0x80114 64 5 i (by decide) (by decide)⟩
theorem of_LATER {a : Nat} (h : inCls 91 a = true) : ∃ i, a = R.LATER i := of_hit1 h
theorem okw_MISMATCH_CNT {m : Nat} {i : Nat} (h : m.testBit 252 = true) : okw m (R.MISMATCH_CNT i) := ⟨92, h, hit1 0x80118 64 5 i (by decide) (by decide)⟩
theorem of_MISMATCH_CNT {a : Nat} (h : inCls 92 a = true) : ∃ i, a = R.MISMATCH_CNT i := of_hit1 h
theorem okw_RX_CRC {m : Nat} {i : Nat} (h : m.testBit 253 = true) : okw m (R.RX_CRC i) := ⟨93, h, hit1 0x8011c 64 5 i (by decide) (by decide)⟩
theorem of_RX_CRC {a : Nat} (h : inCls 93 a = true) : ∃ i, a = R.RX_CRC i := of_hit1 h
theorem okw_RX_LEN {m : Nat} {i : Nat} (h : m.testBit 254 = true) : okw m (R.RX_LEN i) := ⟨94, h, hit1 0x80120 64 5 i (by decide) (by decide)⟩
theorem of_RX_LEN {a : Nat} (h : inCls 94 a = true) : ∃ i, a = R.RX_LEN i := of_hit1 h
theorem okw_RX_UNK {m : Nat} {i : Nat} (h : m.testBit 255 = true) : okw m (R.RX_UNK i) := ⟨95, h, hit1 0x80124 64 5 i (by decide) (by decide)⟩
theorem of_RX_UNK {a : Nat} (h : inCls 95 a = true) : ∃ i, a = R.RX_UNK i := of_hit1 h
theorem okw_CODE_VIOL {m : Nat} {i : Nat} (h : m.testBit 256 = true) : okw m (R.CODE_VIOL i) := ⟨96, h, hit1 0x80128 64 5 i (by decide) (by decide)⟩
theorem of_CODE_VIOL {a : Nat} (h : inCls 96 a = true) : ∃ i, a = R.CODE_VIOL i := of_hit1 h
theorem okw_TX_FRAMES {m : Nat} {i : Nat} (h : m.testBit 257 = true) : okw m (R.TX_FRAMES i) := ⟨97, h, hit1 0x8012c 64 5 i (by decide) (by decide)⟩
theorem of_TX_FRAMES {a : Nat} (h : inCls 97 a = true) : ∃ i, a = R.TX_FRAMES i := of_hit1 h
theorem okw_DROPS {m : Nat} {i : Nat} (h : m.testBit 258 = true) : okw m (R.DROPS i) := ⟨98, h, hit1 0x80130 64 5 i (by decide) (by decide)⟩
theorem of_DROPS {a : Nat} (h : inCls 98 a = true) : ∃ i, a = R.DROPS i := of_hit1 h
theorem okw_PORT_DELAY {m : Nat} {i : Nat} (h : m.testBit 259 = true) : okw m (R.PORT_DELAY i) := ⟨99, h, hit1 0x80300 4 4 i (by decide) (by decide)⟩
theorem of_PORT_DELAY {a : Nat} (h : inCls 99 a = true) : ∃ i, a = R.PORT_DELAY i := of_hit1 h
theorem okw_NODE_CH {m : Nat} {i : Nat} (h : m.testBit 260 = true) : okw m (R.NODE_CH i) := ⟨100, h, hit1 0x81000 4 128 i (by decide) (by decide)⟩
theorem of_NODE_CH {a : Nat} (h : inCls 100 a = true) : ∃ i, a = R.NODE_CH i := of_hit1 h
theorem okw_NODE_INFO {m : Nat} {i : Nat} (h : m.testBit 261 = true) : okw m (R.NODE_INFO i) := ⟨101, h, hit1 0x81200 4 128 i (by decide) (by decide)⟩
theorem of_NODE_INFO {a : Nat} (h : inCls 101 a = true) : ∃ i, a = R.NODE_INFO i := of_hit1 h
theorem okw_NODE_SLOT {m : Nat} {i : Nat} (h : m.testBit 262 = true) : okw m (R.NODE_SLOT i) := ⟨102, h, hit1 0x81400 4 128 i (by decide) (by decide)⟩
theorem of_NODE_SLOT {a : Nat} (h : inCls 102 a = true) : ∃ i, a = R.NODE_SLOT i := of_hit1 h
theorem okw_NODE_CNT {m : Nat} {i : Nat} (h : m.testBit 263 = true) : okw m (R.NODE_CNT i) := ⟨103, h, hit1 0x81600 4 128 i (by decide) (by decide)⟩
theorem of_NODE_CNT {a : Nat} (h : inCls 103 a = true) : ∃ i, a = R.NODE_CNT i := of_hit1 h
theorem okw_SCHED_TABLE {m : Nat} {i j : Nat} (h : m.testBit 264 = true) : okw m (R.SCHED_TABLE i j) := ⟨104, h, hit2 0x84000 16384 2 i 4 4096 j (by decide) (by decide) (by decide) (by decide) (by decide)⟩
theorem of_SCHED_TABLE {a : Nat} (h : inCls 104 a = true) : ∃ i j, a = R.SCHED_TABLE i j := of_hit2 h
theorem okw_POLL_TABLE {m : Nat} {i j : Nat} (h : m.testBit 265 = true) : okw m (R.POLL_TABLE i j) := ⟨105, h, hit2 0x8c000 1024 2 i 4 256 j (by decide) (by decide) (by decide) (by decide) (by decide)⟩
theorem of_POLL_TABLE {a : Nat} (h : inCls 105 a = true) : ∃ i j, a = R.POLL_TABLE i j := of_hit2 h
theorem okw_LAW_TILE {m : Nat} {i j : Nat} (h : m.testBit 266 = true) : okw m (R.LAW_TILE i j) := ⟨106, h, hit2 0x100000 512 256 i 4 64 j (by decide) (by decide) (by decide) (by decide) (by decide)⟩
theorem of_LAW_TILE {a : Nat} (h : inCls 106 a = true) : ∃ i j, a = R.LAW_TILE i j := of_hit2 h
theorem okw_STATE_TILE {m : Nat} {i j : Nat} (h : m.testBit 267 = true) : okw m (R.STATE_TILE i j) := ⟨107, h, hit2 0x100100 512 256 i 4 64 j (by decide) (by decide) (by decide) (by decide) (by decide)⟩
theorem of_STATE_TILE {a : Nat} (h : inCls 107 a = true) : ∃ i j, a = R.STATE_TILE i j := of_hit2 h
theorem okw_AX_CTRL {m : Nat} {i : Nat} (h : m.testBit 268 = true) : okw m (R.AX_CTRL i) := ⟨108, h, hit1 0x120000 32 256 i (by decide) (by decide)⟩
theorem of_AX_CTRL {a : Nat} (h : inCls 108 a = true) : ∃ i, a = R.AX_CTRL i := of_hit1 h
theorem okw_AX_STATUS {m : Nat} {i : Nat} (h : m.testBit 269 = true) : okw m (R.AX_STATUS i) := ⟨109, h, hit1 0x120004 32 256 i (by decide) (by decide)⟩
theorem of_AX_STATUS {a : Nat} (h : inCls 109 a = true) : ∃ i, a = R.AX_STATUS i := of_hit1 h
theorem okw_AX_FAULT {m : Nat} {i : Nat} (h : m.testBit 270 = true) : okw m (R.AX_FAULT i) := ⟨110, h, hit1 0x120008 32 256 i (by decide) (by decide)⟩
theorem of_AX_FAULT {a : Nat} (h : inCls 110 a = true) : ∃ i, a = R.AX_FAULT i := of_hit1 h
theorem okw_AX_FREACT {m : Nat} {i : Nat} (h : m.testBit 271 = true) : okw m (R.AX_FREACT i) := ⟨111, h, hit1 0x12000c 32 256 i (by decide) (by decide)⟩
theorem of_AX_FREACT {a : Nat} (h : inCls 111 a = true) : ∃ i, a = R.AX_FREACT i := of_hit1 h
theorem okw_AX_MAN_OUT {m : Nat} {i : Nat} (h : m.testBit 272 = true) : okw m (R.AX_MAN_OUT i) := ⟨112, h, hit1 0x120010 32 256 i (by decide) (by decide)⟩
theorem of_AX_MAN_OUT {a : Nat} (h : inCls 112 a = true) : ∃ i, a = R.AX_MAN_OUT i := of_hit1 h
theorem okw_AX_FE_LIM {m : Nat} {i : Nat} (h : m.testBit 273 = true) : okw m (R.AX_FE_LIM i) := ⟨113, h, hit1 0x120014 32 256 i (by decide) (by decide)⟩
theorem of_AX_FE_LIM {a : Nat} (h : inCls 113 a = true) : ∃ i, a = R.AX_FE_LIM i := of_hit1 h
theorem okw_AX_SAT_CNT {m : Nat} {i : Nat} (h : m.testBit 274 = true) : okw m (R.AX_SAT_CNT i) := ⟨114, h, hit1 0x120018 32 256 i (by decide) (by decide)⟩
theorem of_AX_SAT_CNT {a : Nat} (h : inCls 114 a = true) : ∃ i, a = R.AX_SAT_CNT i := of_hit1 h
theorem okw_AX_CMD {m : Nat} {i : Nat} (h : m.testBit 275 = true) : okw m (R.AX_CMD i) := ⟨115, h, hit1 0x12001c 32 256 i (by decide) (by decide)⟩
theorem of_AX_CMD {a : Nat} (h : inCls 115 a = true) : ∃ i, a = R.AX_CMD i := of_hit1 h
theorem okw_LAW_TUB {m : Nat} {i : Nat} (h : m.testBit 276 = true) : okw m (R.LAW_TUB i) := ⟨116, h, hit1 0x122000 4 64 i (by decide) (by decide)⟩
theorem of_LAW_TUB {a : Nat} (h : inCls 116 a = true) : ∃ i, a = R.LAW_TUB i := of_hit1 h
theorem okw_LAW_TUB_CMD {m : Nat} (h : m.testBit 277 = true) : okw m R.LAW_TUB_CMD := ⟨117, h, hit0 0x122100⟩
theorem of_LAW_TUB_CMD {a : Nat} (h : inCls 117 a = true) : a = R.LAW_TUB_CMD := of_hit0 h
theorem okw_LAW_TUB_STATUS {m : Nat} (h : m.testBit 278 = true) : okw m R.LAW_TUB_STATUS := ⟨118, h, hit0 0x122104⟩
theorem of_LAW_TUB_STATUS {a : Nat} (h : inCls 118 a = true) : a = R.LAW_TUB_STATUS := of_hit0 h
theorem okw_LAW_SNAP_STATUS {m : Nat} (h : m.testBit 279 = true) : okw m R.LAW_SNAP_STATUS := ⟨119, h, hit0 0x122108⟩
theorem of_LAW_SNAP_STATUS {a : Nat} (h : inCls 119 a = true) : a = R.LAW_SNAP_STATUS := of_hit0 h
theorem okw_LAW_LIB_ID {m : Nat} (h : m.testBit 280 = true) : okw m R.LAW_LIB_ID := ⟨120, h, hit0 0x12210c⟩
theorem of_LAW_LIB_ID {a : Nat} (h : inCls 120 a = true) : a = R.LAW_LIB_ID := of_hit0 h
theorem okw_LAW_SNAP_LAW {m : Nat} {i : Nat} (h : m.testBit 281 = true) : okw m (R.LAW_SNAP_LAW i) := ⟨121, h, hit1 0x122200 4 64 i (by decide) (by decide)⟩
theorem of_LAW_SNAP_LAW {a : Nat} (h : inCls 121 a = true) : ∃ i, a = R.LAW_SNAP_LAW i := of_hit1 h
theorem okw_LAW_SNAP_STATE {m : Nat} {i : Nat} (h : m.testBit 282 = true) : okw m (R.LAW_SNAP_STATE i) := ⟨122, h, hit1 0x122300 4 64 i (by decide) (by decide)⟩
theorem of_LAW_SNAP_STATE {a : Nat} (h : inCls 122 a = true) : ∃ i, a = R.LAW_SNAP_STATE i := of_hit1 h
theorem okw_PF_CTRL {m : Nat} {i : Nat} (h : m.testBit 283 = true) : okw m (R.PF_CTRL i) := ⟨123, h, hit1 0x200000 256 256 i (by decide) (by decide)⟩
theorem of_PF_CTRL {a : Nat} (h : inCls 123 a = true) : ∃ i, a = R.PF_CTRL i := of_hit1 h
theorem okw_PF_STATUS {m : Nat} {i : Nat} (h : m.testBit 284 = true) : okw m (R.PF_STATUS i) := ⟨124, h, hit1 0x200004 256 256 i (by decide) (by decide)⟩
theorem of_PF_STATUS {a : Nat} (h : inCls 124 a = true) : ∃ i, a = R.PF_STATUS i := of_hit1 h
theorem okw_PF_V_LIM {m : Nat} {i j : Nat} (h : m.testBit 285 = true) : okw m (R.PF_V_LIM i j) := ⟨125, h, hit2 0x200008 256 256 i 4 2 j (by decide) (by decide) (by decide) (by decide) (by decide)⟩
theorem of_PF_V_LIM {a : Nat} (h : inCls 125 a = true) : ∃ i j, a = R.PF_V_LIM i j := of_hit2 h
theorem okw_PF_A_LIM {m : Nat} {i j : Nat} (h : m.testBit 286 = true) : okw m (R.PF_A_LIM i j) := ⟨126, h, hit2 0x200010 256 256 i 4 2 j (by decide) (by decide) (by decide) (by decide) (by decide)⟩
theorem of_PF_A_LIM {a : Nat} (h : inCls 126 a = true) : ∃ i j, a = R.PF_A_LIM i j := of_hit2 h
theorem okw_PF_D_LIM {m : Nat} {i j : Nat} (h : m.testBit 287 = true) : okw m (R.PF_D_LIM i j) := ⟨127, h, hit2 0x200018 256 256 i 4 2 j (by decide) (by decide) (by decide) (by decide) (by decide)⟩
theorem of_PF_D_LIM {a : Nat} (h : inCls 127 a = true) : ∃ i j, a = R.PF_D_LIM i j := of_hit2 h
theorem okw_PF_J_LIM {m : Nat} {i j : Nat} (h : m.testBit 288 = true) : okw m (R.PF_J_LIM i j) := ⟨128, h, hit2 0x200020 256 256 i 4 2 j (by decide) (by decide) (by decide) (by decide) (by decide)⟩
theorem of_PF_J_LIM {a : Nat} (h : inCls 128 a = true) : ∃ i j, a = R.PF_J_LIM i j := of_hit2 h
theorem okw_PF_QS_DEC {m : Nat} {i j : Nat} (h : m.testBit 289 = true) : okw m (R.PF_QS_DEC i j) := ⟨129, h, hit2 0x200028 256 256 i 4 2 j (by decide) (by decide) (by decide) (by decide) (by decide)⟩
theorem of_PF_QS_DEC {a : Nat} (h : inCls 129 a = true) : ∃ i j, a = R.PF_QS_DEC i j := of_hit2 h
theorem okw_PF_MIN {m : Nat} {i j : Nat} (h : m.testBit 290 = true) : okw m (R.PF_MIN i j) := ⟨130, h, hit2 0x200030 256 256 i 4 2 j (by decide) (by decide) (by decide) (by decide) (by decide)⟩
theorem of_PF_MIN {a : Nat} (h : inCls 130 a = true) : ∃ i j, a = R.PF_MIN i j := of_hit2 h
theorem okw_PF_MAX {m : Nat} {i j : Nat} (h : m.testBit 291 = true) : okw m (R.PF_MAX i j) := ⟨131, h, hit2 0x200038 256 256 i 4 2 j (by decide) (by decide) (by decide) (by decide) (by decide)⟩
theorem of_PF_MAX {a : Nat} (h : inCls 131 a = true) : ∃ i j, a = R.PF_MAX i j := of_hit2 h
theorem okw_PF_MV_TGT {m : Nat} {i j : Nat} (h : m.testBit 292 = true) : okw m (R.PF_MV_TGT i j) := ⟨132, h, hit2 0x200040 256 256 i 4 2 j (by decide) (by decide) (by decide) (by decide) (by decide)⟩
theorem of_PF_MV_TGT {a : Nat} (h : inCls 132 a = true) : ∃ i j, a = R.PF_MV_TGT i j := of_hit2 h
theorem okw_PF_MV_CMD {m : Nat} {i : Nat} (h : m.testBit 293 = true) : okw m (R.PF_MV_CMD i) := ⟨133, h, hit1 0x200048 256 256 i (by decide) (by decide)⟩
theorem of_PF_MV_CMD {a : Nat} (h : inCls 133 a = true) : ∃ i, a = R.PF_MV_CMD i := of_hit1 h
theorem okw_PF_RESULT {m : Nat} {i : Nat} (h : m.testBit 294 = true) : okw m (R.PF_RESULT i) := ⟨134, h, hit1 0x20004c 256 256 i (by decide) (by decide)⟩
theorem of_PF_RESULT {a : Nat} (h : inCls 134 a = true) : ∃ i, a = R.PF_RESULT i := of_hit1 h
theorem okw_PF_STOP_POS {m : Nat} {i j : Nat} (h : m.testBit 295 = true) : okw m (R.PF_STOP_POS i j) := ⟨135, h, hit2 0x200050 256 256 i 4 2 j (by decide) (by decide) (by decide) (by decide) (by decide)⟩
theorem of_PF_STOP_POS {a : Nat} (h : inCls 135 a = true) : ∃ i j, a = R.PF_STOP_POS i j := of_hit2 h
theorem okw_PF_POS {m : Nat} {i j : Nat} (h : m.testBit 296 = true) : okw m (R.PF_POS i j) := ⟨136, h, hit2 0x200058 256 256 i 4 2 j (by decide) (by decide) (by decide) (by decide) (by decide)⟩
theorem of_PF_POS {a : Nat} (h : inCls 136 a = true) : ∃ i j, a = R.PF_POS i j := of_hit2 h
theorem okw_PF_VEL {m : Nat} {i j : Nat} (h : m.testBit 297 = true) : okw m (R.PF_VEL i j) := ⟨137, h, hit2 0x200060 256 256 i 4 2 j (by decide) (by decide) (by decide) (by decide) (by decide)⟩
theorem of_PF_VEL {a : Nat} (h : inCls 137 a = true) : ∃ i j, a = R.PF_VEL i j := of_hit2 h
theorem okw_PF_GEAR_NUM {m : Nat} {i : Nat} (h : m.testBit 298 = true) : okw m (R.PF_GEAR_NUM i) := ⟨138, h, hit1 0x200068 256 256 i (by decide) (by decide)⟩
theorem of_PF_GEAR_NUM {a : Nat} (h : inCls 138 a = true) : ∃ i, a = R.PF_GEAR_NUM i := of_hit1 h
theorem okw_PF_GEAR_DEN {m : Nat} {i : Nat} (h : m.testBit 299 = true) : okw m (R.PF_GEAR_DEN i) := ⟨139, h, hit1 0x20006c 256 256 i (by decide) (by decide)⟩
theorem of_PF_GEAR_DEN {a : Nat} (h : inCls 139 a = true) : ∃ i, a = R.PF_GEAR_DEN i := of_hit1 h
theorem okw_PF_CAM {m : Nat} {i : Nat} (h : m.testBit 300 = true) : okw m (R.PF_CAM i) := ⟨140, h, hit1 0x200070 256 256 i (by decide) (by decide)⟩
theorem of_PF_CAM {a : Nat} (h : inCls 140 a = true) : ∃ i, a = R.PF_CAM i := of_hit1 h
theorem okw_PF_CAM_PHASE {m : Nat} {i : Nat} (h : m.testBit 301 = true) : okw m (R.PF_CAM_PHASE i) := ⟨141, h, hit1 0x200074 256 256 i (by decide) (by decide)⟩
theorem of_PF_CAM_PHASE {a : Nat} (h : inCls 141 a = true) : ∃ i, a = R.PF_CAM_PHASE i := of_hit1 h
theorem okw_PF_SH {m : Nat} {i j : Nat} (h : m.testBit 302 = true) : okw m (R.PF_SH i j) := ⟨142, h, hit2 0x200078 256 256 i 4 2 j (by decide) (by decide) (by decide) (by decide) (by decide)⟩
theorem of_PF_SH {a : Nat} (h : inCls 142 a = true) : ∃ i j, a = R.PF_SH i j := of_hit2 h
theorem okw_PF_HOME_CFG {m : Nat} {i : Nat} (h : m.testBit 303 = true) : okw m (R.PF_HOME_CFG i) := ⟨143, h, hit1 0x200080 256 256 i (by decide) (by decide)⟩
theorem of_PF_HOME_CFG {a : Nat} (h : inCls 143 a = true) : ∃ i, a = R.PF_HOME_CFG i := of_hit1 h
theorem okw_PF_SW_SRC {m : Nat} {i : Nat} (h : m.testBit 304 = true) : okw m (R.PF_SW_SRC i) := ⟨144, h, hit1 0x200084 256 256 i (by decide) (by decide)⟩
theorem of_PF_SW_SRC {a : Nat} (h : inCls 144 a = true) : ∃ i, a = R.PF_SW_SRC i := of_hit1 h
theorem okw_PF_HOME_POS {m : Nat} {i j : Nat} (h : m.testBit 305 = true) : okw m (R.PF_HOME_POS i j) := ⟨145, h, hit2 0x200088 256 256 i 4 2 j (by decide) (by decide) (by decide) (by decide) (by decide)⟩
theorem of_PF_HOME_POS {a : Nat} (h : inCls 145 a = true) : ∃ i j, a = R.PF_HOME_POS i j := of_hit2 h
theorem okw_PF_HOME_VFAST {m : Nat} {i j : Nat} (h : m.testBit 306 = true) : okw m (R.PF_HOME_VFAST i j) := ⟨146, h, hit2 0x200090 256 256 i 4 2 j (by decide) (by decide) (by decide) (by decide) (by decide)⟩
theorem of_PF_HOME_VFAST {a : Nat} (h : inCls 146 a = true) : ∃ i j, a = R.PF_HOME_VFAST i j := of_hit2 h
theorem okw_PF_HOME_VSLOW {m : Nat} {i j : Nat} (h : m.testBit 307 = true) : okw m (R.PF_HOME_VSLOW i j) := ⟨147, h, hit2 0x200098 256 256 i 4 2 j (by decide) (by decide) (by decide) (by decide) (by decide)⟩
theorem of_PF_HOME_VSLOW {a : Nat} (h : inCls 147 a = true) : ∃ i j, a = R.PF_HOME_VSLOW i j := of_hit2 h
theorem okw_PF_HOME_SPAN {m : Nat} {i j : Nat} (h : m.testBit 308 = true) : okw m (R.PF_HOME_SPAN i j) := ⟨148, h, hit2 0x2000a0 256 256 i 4 2 j (by decide) (by decide) (by decide) (by decide) (by decide)⟩
theorem of_PF_HOME_SPAN {a : Nat} (h : inCls 148 a = true) : ∃ i j, a = R.PF_HOME_SPAN i j := of_hit2 h
theorem okw_PF_HOME_STATUS {m : Nat} {i : Nat} (h : m.testBit 309 = true) : okw m (R.PF_HOME_STATUS i) := ⟨149, h, hit1 0x2000a8 256 256 i (by decide) (by decide)⟩
theorem of_PF_HOME_STATUS {a : Nat} (h : inCls 149 a = true) : ∃ i, a = R.PF_HOME_STATUS i := of_hit1 h
theorem okw_PF_CMD {m : Nat} {i : Nat} (h : m.testBit 310 = true) : okw m (R.PF_CMD i) := ⟨150, h, hit1 0x2000ac 256 256 i (by decide) (by decide)⟩
theorem of_PF_CMD {a : Nat} (h : inCls 150 a = true) : ∃ i, a = R.PF_CMD i := of_hit1 h
theorem okw_CAM_INFO {m : Nat} {i : Nat} (h : m.testBit 311 = true) : okw m (R.CAM_INFO i) := ⟨151, h, hit1 0x210000 16 256 i (by decide) (by decide)⟩
theorem of_CAM_INFO {a : Nat} (h : inCls 151 a = true) : ∃ i, a = R.CAM_INFO i := of_hit1 h
theorem okw_CAM_STROKE_LO {m : Nat} {i : Nat} (h : m.testBit 312 = true) : okw m (R.CAM_STROKE_LO i) := ⟨152, h, hit1 0x210004 16 256 i (by decide) (by decide)⟩
theorem of_CAM_STROKE_LO {a : Nat} (h : inCls 152 a = true) : ∃ i, a = R.CAM_STROKE_LO i := of_hit1 h
theorem okw_CAM_STROKE_HI {m : Nat} {i : Nat} (h : m.testBit 313 = true) : okw m (R.CAM_STROKE_HI i) := ⟨153, h, hit1 0x210008 16 256 i (by decide) (by decide)⟩
theorem of_CAM_STROKE_HI {a : Nat} (h : inCls 153 a = true) : ∃ i, a = R.CAM_STROKE_HI i := of_hit1 h
theorem okw_TILE_CRC {m : Nat} {i : Nat} (h : m.testBit 314 = true) : okw m (R.TILE_CRC i) := ⟨154, h, hit1 0x211000 8 1536 i (by decide) (by decide)⟩
theorem of_TILE_CRC {a : Nat} (h : inCls 154 a = true) : ∃ i, a = R.TILE_CRC i := of_hit1 h
theorem okw_TILE_INFO {m : Nat} {i : Nat} (h : m.testBit 315 = true) : okw m (R.TILE_INFO i) := ⟨155, h, hit1 0x211004 8 1536 i (by decide) (by decide)⟩
theorem of_TILE_INFO {a : Nat} (h : inCls 155 a = true) : ∃ i, a = R.TILE_INFO i := of_hit1 h
theorem okw_CO_CYCLE {m : Nat} {i : Nat} (h : m.testBit 316 = true) : okw m (R.CO_CYCLE i) := ⟨156, h, hit1 0x214000 32 16 i (by decide) (by decide)⟩
theorem of_CO_CYCLE {a : Nat} (h : inCls 156 a = true) : ∃ i, a = R.CO_CYCLE i := of_hit1 h
theorem okw_CO_ANGLE {m : Nat} {i : Nat} (h : m.testBit 317 = true) : okw m (R.CO_ANGLE i) := ⟨157, h, hit1 0x214004 32 16 i (by decide) (by decide)⟩
theorem of_CO_ANGLE {a : Nat} (h : inCls 157 a = true) : ∃ i, a = R.CO_ANGLE i := of_hit1 h
theorem okw_CO_LEN {m : Nat} {i : Nat} (h : m.testBit 318 = true) : okw m (R.CO_LEN i) := ⟨158, h, hit1 0x214008 32 16 i (by decide) (by decide)⟩
theorem of_CO_LEN {a : Nat} (h : inCls 158 a = true) : ∃ i, a = R.CO_LEN i := of_hit1 h
theorem okw_CO_CTRL {m : Nat} {i : Nat} (h : m.testBit 319 = true) : okw m (R.CO_CTRL i) := ⟨159, h, hit1 0x21400c 32 16 i (by decide) (by decide)⟩
theorem of_CO_CTRL {a : Nat} (h : inCls 159 a = true) : ∃ i, a = R.CO_CTRL i := of_hit1 h
theorem okw_CO_STATUS {m : Nat} {i : Nat} (h : m.testBit 320 = true) : okw m (R.CO_STATUS i) := ⟨160, h, hit1 0x214010 32 16 i (by decide) (by decide)⟩
theorem of_CO_STATUS {a : Nat} (h : inCls 160 a = true) : ∃ i, a = R.CO_STATUS i := of_hit1 h
theorem okw_CO_GEN {m : Nat} (h : m.testBit 321 = true) : okw m R.CO_GEN := ⟨161, h, hit0 0x214200⟩
theorem of_CO_GEN {a : Nat} (h : inCls 161 a = true) : a = R.CO_GEN := of_hit0 h
theorem okw_BR_CTRL {m : Nat} {i : Nat} (h : m.testBit 322 = true) : okw m (R.BR_CTRL i) := ⟨162, h, hit1 0x300000 256 8 i (by decide) (by decide)⟩
theorem of_BR_CTRL {a : Nat} (h : inCls 162 a = true) : ∃ i, a = R.BR_CTRL i := of_hit1 h
theorem okw_BR_PERIOD {m : Nat} {i : Nat} (h : m.testBit 323 = true) : okw m (R.BR_PERIOD i) := ⟨163, h, hit1 0x300004 256 8 i (by decide) (by decide)⟩
theorem of_BR_PERIOD {a : Nat} (h : inCls 163 a = true) : ∃ i, a = R.BR_PERIOD i := of_hit1 h
theorem okw_BR_SYNC_OFS {m : Nat} {i : Nat} (h : m.testBit 324 = true) : okw m (R.BR_SYNC_OFS i) := ⟨164, h, hit1 0x300008 256 8 i (by decide) (by decide)⟩
theorem of_BR_SYNC_OFS {a : Nat} (h : inCls 164 a = true) : ∃ i, a = R.BR_SYNC_OFS i := of_hit1 h
theorem okw_BR_CMD {m : Nat} {i : Nat} (h : m.testBit 325 = true) : okw m (R.BR_CMD i) := ⟨165, h, hit1 0x30000c 256 8 i (by decide) (by decide)⟩
theorem of_BR_CMD {a : Nat} (h : inCls 165 a = true) : ∃ i, a = R.BR_CMD i := of_hit1 h
theorem okw_BR_STATUS {m : Nat} {i : Nat} (h : m.testBit 326 = true) : okw m (R.BR_STATUS i) := ⟨166, h, hit1 0x300010 256 8 i (by decide) (by decide)⟩
theorem of_BR_STATUS {a : Nat} (h : inCls 166 a = true) : ∃ i, a = R.BR_STATUS i := of_hit1 h
theorem okw_BR_SMP {m : Nat} {i : Nat} (h : m.testBit 327 = true) : okw m (R.BR_SMP i) := ⟨167, h, hit1 0x300014 256 8 i (by decide) (by decide)⟩
theorem of_BR_SMP {a : Nat} (h : inCls 167 a = true) : ∃ i, a = R.BR_SMP i := of_hit1 h
theorem okw_BR_RISE {m : Nat} {i j : Nat} (h : m.testBit 328 = true) : okw m (R.BR_RISE i j) := ⟨168, h, hit2 0x300020 256 8 i 16 3 j (by decide) (by decide) (by decide) (by decide) (by decide)⟩
theorem of_BR_RISE {a : Nat} (h : inCls 168 a = true) : ∃ i j, a = R.BR_RISE i j := of_hit2 h
theorem okw_BR_FALL {m : Nat} {i j : Nat} (h : m.testBit 329 = true) : okw m (R.BR_FALL i j) := ⟨169, h, hit2 0x300024 256 8 i 16 3 j (by decide) (by decide) (by decide) (by decide) (by decide)⟩
theorem of_BR_FALL {a : Nat} (h : inCls 169 a = true) : ∃ i j, a = R.BR_FALL i j := of_hit2 h
theorem okw_BR_DT {m : Nat} {i j : Nat} (h : m.testBit 330 = true) : okw m (R.BR_DT i j) := ⟨170, h, hit2 0x300028 256 8 i 16 3 j (by decide) (by decide) (by decide) (by decide) (by decide)⟩
theorem of_BR_DT {a : Nat} (h : inCls 170 a = true) : ∃ i j, a = R.BR_DT i j := of_hit2 h
theorem okw_BR_CH {m : Nat} {i j : Nat} (h : m.testBit 331 = true) : okw m (R.BR_CH i j) := ⟨171, h, hit2 0x30002c 256 8 i 16 3 j (by decide) (by decide) (by decide) (by decide) (by decide)⟩
theorem of_BR_CH {a : Nat} (h : inCls 171 a = true) : ∃ i j, a = R.BR_CH i j := of_hit2 h
theorem okw_SW_CTRL {m : Nat} {i : Nat} (h : m.testBit 332 = true) : okw m (R.SW_CTRL i) := ⟨172, h, hit1 0x301000 4 256 i (by decide) (by decide)⟩
theorem of_SW_CTRL {a : Nat} (h : inCls 172 a = true) : ∃ i, a = R.SW_CTRL i := of_hit1 h
theorem okw_TO_CFG {m : Nat} {i : Nat} (h : m.testBit 333 = true) : okw m (R.TO_CFG i) := ⟨173, h, hit1 0x310000 256 32 i (by decide) (by decide)⟩
theorem of_TO_CFG {a : Nat} (h : inCls 173 a = true) : ∃ i, a = R.TO_CFG i := of_hit1 h
theorem okw_TO_PEN {m : Nat} {i : Nat} (h : m.testBit 334 = true) : okw m (R.TO_PEN i) := ⟨174, h, hit1 0x310004 256 32 i (by decide) (by decide)⟩
theorem of_TO_PEN {a : Nat} (h : inCls 174 a = true) : ∃ i, a = R.TO_PEN i := of_hit1 h
theorem okw_TO_ADV {m : Nat} {i : Nat} (h : m.testBit 335 = true) : okw m (R.TO_ADV i) := ⟨175, h, hit1 0x310008 256 32 i (by decide) (by decide)⟩
theorem of_TO_ADV {a : Nat} (h : inCls 175 a = true) : ∃ i, a = R.TO_ADV i := of_hit1 h
theorem okw_TO_CMD {m : Nat} {i : Nat} (h : m.testBit 336 = true) : okw m (R.TO_CMD i) := ⟨176, h, hit1 0x31000c 256 32 i (by decide) (by decide)⟩
theorem of_TO_CMD {a : Nat} (h : inCls 176 a = true) : ∃ i, a = R.TO_CMD i := of_hit1 h
theorem okw_TO_STATUS {m : Nat} {i : Nat} (h : m.testBit 337 = true) : okw m (R.TO_STATUS i) := ⟨177, h, hit1 0x310010 256 32 i (by decide) (by decide)⟩
theorem of_TO_STATUS {a : Nat} (h : inCls 177 a = true) : ∃ i, a = R.TO_STATUS i := of_hit1 h
theorem okw_TO_STEP {m : Nat} {i : Nat} (h : m.testBit 338 = true) : okw m (R.TO_STEP i) := ⟨178, h, hit1 0x310014 256 32 i (by decide) (by decide)⟩
theorem of_TO_STEP {a : Nat} (h : inCls 178 a = true) : ∃ i, a = R.TO_STEP i := of_hit1 h
theorem okw_TO_ON {m : Nat} {i j : Nat} (h : m.testBit 339 = true) : okw m (R.TO_ON i j) := ⟨179, h, hit2 0x310040 256 32 i 8 16 j (by decide) (by decide) (by decide) (by decide) (by decide)⟩
theorem of_TO_ON {a : Nat} (h : inCls 179 a = true) : ∃ i j, a = R.TO_ON i j := of_hit2 h
theorem okw_TO_OFF {m : Nat} {i j : Nat} (h : m.testBit 340 = true) : okw m (R.TO_OFF i j) := ⟨180, h, hit2 0x310044 256 32 i 8 16 j (by decide) (by decide) (by decide) (by decide) (by decide)⟩
theorem of_TO_OFF {a : Nat} (h : inCls 180 a = true) : ∃ i j, a = R.TO_OFF i j := of_hit2 h
theorem okw_TO_GCTRL {m : Nat} (h : m.testBit 341 = true) : okw m R.TO_GCTRL := ⟨181, h, hit0 0x312000⟩
theorem of_TO_GCTRL {a : Nat} (h : inCls 181 a = true) : a = R.TO_GCTRL := of_hit0 h
theorem okw_ENC_CTRL {m : Nat} {i : Nat} (h : m.testBit 342 = true) : okw m (R.ENC_CTRL i) := ⟨182, h, hit1 0x320000 64 4 i (by decide) (by decide)⟩
theorem of_ENC_CTRL {a : Nat} (h : inCls 182 a = true) : ∃ i, a = R.ENC_CTRL i := of_hit1 h
theorem okw_ENC_SSIDIV {m : Nat} {i : Nat} (h : m.testBit 343 = true) : okw m (R.ENC_SSIDIV i) := ⟨183, h, hit1 0x320004 64 4 i (by decide) (by decide)⟩
theorem of_ENC_SSIDIV {a : Nat} (h : inCls 183 a = true) : ∃ i, a = R.ENC_SSIDIV i := of_hit1 h
theorem okw_ENC_COUNT {m : Nat} {i : Nat} (h : m.testBit 344 = true) : okw m (R.ENC_COUNT i) := ⟨184, h, hit1 0x320008 64 4 i (by decide) (by decide)⟩
theorem of_ENC_COUNT {a : Nat} (h : inCls 184 a = true) : ∃ i, a = R.ENC_COUNT i := of_hit1 h
theorem okw_ENC_INDEX {m : Nat} {i : Nat} (h : m.testBit 345 = true) : okw m (R.ENC_INDEX i) := ⟨185, h, hit1 0x32000c 64 4 i (by decide) (by decide)⟩
theorem of_ENC_INDEX {a : Nat} (h : inCls 185 a = true) : ∃ i, a = R.ENC_INDEX i := of_hit1 h
theorem okw_ENC_STATUS {m : Nat} {i : Nat} (h : m.testBit 346 = true) : okw m (R.ENC_STATUS i) := ⟨186, h, hit1 0x320010 64 4 i (by decide) (by decide)⟩
theorem of_ENC_STATUS {a : Nat} (h : inCls 186 a = true) : ∃ i, a = R.ENC_STATUS i := of_hit1 h
theorem okw_SD_CLK {m : Nat} (h : m.testBit 347 = true) : okw m R.SD_CLK := ⟨187, h, hit0 0x320400⟩
theorem of_SD_CLK {a : Nat} (h : inCls 187 a = true) : a = R.SD_CLK := of_hit0 h
theorem okw_SD_CTRL {m : Nat} {i : Nat} (h : m.testBit 348 = true) : okw m (R.SD_CTRL i) := ⟨188, h, hit1 0x320500 16 16 i (by decide) (by decide)⟩
theorem of_SD_CTRL {a : Nat} (h : inCls 188 a = true) : ∃ i, a = R.SD_CTRL i := of_hit1 h
theorem okw_SD_DATA {m : Nat} {i : Nat} (h : m.testBit 349 = true) : okw m (R.SD_DATA i) := ⟨189, h, hit1 0x320504 16 16 i (by decide) (by decide)⟩
theorem of_SD_DATA {a : Nat} (h : inCls 189 a = true) : ∃ i, a = R.SD_DATA i := of_hit1 h
theorem okw_SD_STATUS {m : Nat} {i : Nat} (h : m.testBit 350 = true) : okw m (R.SD_STATUS i) := ⟨190, h, hit1 0x320508 16 16 i (by decide) (by decide)⟩
theorem of_SD_STATUS {a : Nat} (h : inCls 190 a = true) : ∃ i, a = R.SD_STATUS i := of_hit1 h
theorem okw_PMEM {m : Nat} {i j : Nat} (h : m.testBit 351 = true) : okw m (R.PMEM i j) := ⟨191, h, hit2 0x400000 32768 32 i 4 4096 j (by decide) (by decide) (by decide) (by decide) (by decide)⟩
theorem of_PMEM {a : Nat} (h : inCls 191 a = true) : ∃ i j, a = R.PMEM i j := of_hit2 h
theorem okw_XMEM {m : Nat} {i j : Nat} (h : m.testBit 352 = true) : okw m (R.XMEM i j) := ⟨192, h, hit2 0x404000 32768 32 i 4 1024 j (by decide) (by decide) (by decide) (by decide) (by decide)⟩
theorem of_XMEM {a : Nat} (h : inCls 192 a = true) : ∃ i j, a = R.XMEM i j := of_hit2 h
theorem okw_YMEM {m : Nat} {i j : Nat} (h : m.testBit 353 = true) : okw m (R.YMEM i j) := ⟨193, h, hit2 0x405000 32768 32 i 4 1024 j (by decide) (by decide) (by decide) (by decide) (by decide)⟩
theorem of_YMEM {a : Nat} (h : inCls 193 a = true) : ∃ i j, a = R.YMEM i j := of_hit2 h
theorem okw_LANE_CTRL {m : Nat} {i : Nat} (h : m.testBit 354 = true) : okw m (R.LANE_CTRL i) := ⟨194, h, hit1 0x407000 32768 32 i (by decide) (by decide)⟩
theorem of_LANE_CTRL {a : Nat} (h : inCls 194 a = true) : ∃ i, a = R.LANE_CTRL i := of_hit1 h
theorem okw_LANE_STATUS {m : Nat} {i : Nat} (h : m.testBit 355 = true) : okw m (R.LANE_STATUS i) := ⟨195, h, hit1 0x407004 32768 32 i (by decide) (by decide)⟩
theorem of_LANE_STATUS {a : Nat} (h : inCls 195 a = true) : ∃ i, a = R.LANE_STATUS i := of_hit1 h
theorem okw_LANE_FLAGS {m : Nat} {i : Nat} (h : m.testBit 356 = true) : okw m (R.LANE_FLAGS i) := ⟨196, h, hit1 0x407008 32768 32 i (by decide) (by decide)⟩
theorem of_LANE_FLAGS {a : Nat} (h : inCls 196 a = true) : ∃ i, a = R.LANE_FLAGS i := of_hit1 h
theorem okw_LANE_FAULT {m : Nat} {i : Nat} (h : m.testBit 357 = true) : okw m (R.LANE_FAULT i) := ⟨197, h, hit1 0x40700c 32768 32 i (by decide) (by decide)⟩
theorem of_LANE_FAULT {a : Nat} (h : inCls 197 a = true) : ∃ i, a = R.LANE_FAULT i := of_hit1 h
theorem okw_LT_DESC_A {m : Nat} {i j : Nat} (h : m.testBit 358 = true) : okw m (R.LT_DESC_A i j) := ⟨198, h, hit2 0x407040 32768 32 i 8 8 j (by decide) (by decide) (by decide) (by decide) (by decide)⟩
theorem of_LT_DESC_A {a : Nat} (h : inCls 198 a = true) : ∃ i j, a = R.LT_DESC_A i j := of_hit2 h
theorem okw_LT_DESC_B {m : Nat} {i j : Nat} (h : m.testBit 359 = true) : okw m (R.LT_DESC_B i j) := ⟨199, h, hit2 0x407044 32768 32 i 8 8 j (by decide) (by decide) (by decide) (by decide) (by decide)⟩
theorem of_LT_DESC_B {a : Nat} (h : inCls 199 a = true) : ∃ i j, a = R.LT_DESC_B i j := of_hit2 h
theorem okw_LT_STAT {m : Nat} {i j : Nat} (h : m.testBit 360 = true) : okw m (R.LT_STAT i j) := ⟨200, h, hit2 0x407080 32768 32 i 4 8 j (by decide) (by decide) (by decide) (by decide) (by decide)⟩
theorem of_LT_STAT {a : Nat} (h : inCls 200 a = true) : ∃ i j, a = R.LT_STAT i j := of_hit2 h
theorem okw_HOLDOFF_MAX {m : Nat} {i : Nat} (h : m.testBit 361 = true) : okw m (R.HOLDOFF_MAX i) := ⟨201, h, hit1 0x4070a0 32768 32 i (by decide) (by decide)⟩
theorem of_HOLDOFF_MAX {a : Nat} (h : inCls 201 a = true) : ∃ i, a = R.HOLDOFF_MAX i := of_hit1 h
theorem okw_LANE_PRE {m : Nat} {i : Nat} (h : m.testBit 362 = true) : okw m (R.LANE_PRE i) := ⟨202, h, hit1 0x4070a4 32768 32 i (by decide) (by decide)⟩
theorem of_LANE_PRE {a : Nat} (h : inCls 202 a = true) : ∃ i, a = R.LANE_PRE i := of_hit1 h
theorem okw_LT_CMD {m : Nat} {i : Nat} (h : m.testBit 363 = true) : okw m (R.LT_CMD i) := ⟨203, h, hit1 0x4070a8 32768 32 i (by decide) (by decide)⟩
theorem of_LT_CMD {a : Nat} (h : inCls 203 a = true) : ∃ i, a = R.LT_CMD i := of_hit1 h
theorem okw_LANE_MBOX {m : Nat} {i j : Nat} (h : m.testBit 364 = true) : okw m (R.LANE_MBOX i j) := ⟨204, h, hit2 0x4070c0 32768 32 i 4 8 j (by decide) (by decide) (by decide) (by decide) (by decide)⟩
theorem of_LANE_MBOX {a : Nat} (h : inCls 204 a = true) : ∃ i j, a = R.LANE_MBOX i j := of_hit2 h
theorem okw_LANE_PARAM {m : Nat} {i j : Nat} (h : m.testBit 365 = true) : okw m (R.LANE_PARAM i j) := ⟨205, h, hit2 0x4070e0 32768 32 i 4 8 j (by decide) (by decide) (by decide) (by decide) (by decide)⟩
theorem of_LANE_PARAM {a : Nat} (h : inCls 205 a = true) : ∃ i j, a = R.LANE_PARAM i j := of_hit2 h
theorem okw_SNAP_PC {m : Nat} {i : Nat} (h : m.testBit 366 = true) : okw m (R.SNAP_PC i) := ⟨206, h, hit1 0x407100 32768 32 i (by decide) (by decide)⟩
theorem of_SNAP_PC {a : Nat} (h : inCls 206 a = true) : ∃ i, a = R.SNAP_PC i := of_hit1 h
theorem okw_SNAP_D {m : Nat} {i j : Nat} (h : m.testBit 367 = true) : okw m (R.SNAP_D i j) := ⟨207, h, hit2 0x407104 32768 32 i 4 4 j (by decide) (by decide) (by decide) (by decide) (by decide)⟩
theorem of_SNAP_D {a : Nat} (h : inCls 207 a = true) : ∃ i j, a = R.SNAP_D i j := of_hit2 h
theorem okw_SNAP_A {m : Nat} {i j : Nat} (h : m.testBit 368 = true) : okw m (R.SNAP_A i j) := ⟨208, h, hit2 0x407114 32768 32 i 4 2 j (by decide) (by decide) (by decide) (by decide) (by decide)⟩
theorem of_SNAP_A {a : Nat} (h : inCls 208 a = true) : ∃ i j, a = R.SNAP_A i j := of_hit2 h
theorem okw_SNAP_M {m : Nat} {i j : Nat} (h : m.testBit 369 = true) : okw m (R.SNAP_M i j) := ⟨209, h, hit2 0x40711c 32768 32 i 4 2 j (by decide) (by decide) (by decide) (by decide) (by decide)⟩
theorem of_SNAP_M {a : Nat} (h : inCls 209 a = true) : ∃ i j, a = R.SNAP_M i j := of_hit2 h
theorem okw_SNAP_B {m : Nat} {i j : Nat} (h : m.testBit 370 = true) : okw m (R.SNAP_B i j) := ⟨210, h, hit2 0x407124 32768 32 i 4 2 j (by decide) (by decide) (by decide) (by decide) (by decide)⟩
theorem of_SNAP_B {a : Nat} (h : inCls 210 a = true) : ∃ i j, a = R.SNAP_B i j := of_hit2 h
theorem okw_SNAP_L {m : Nat} {i j : Nat} (h : m.testBit 371 = true) : okw m (R.SNAP_L i j) := ⟨211, h, hit2 0x40712c 32768 32 i 4 2 j (by decide) (by decide) (by decide) (by decide) (by decide)⟩
theorem of_SNAP_L {a : Nat} (h : inCls 211 a = true) : ∃ i j, a = R.SNAP_L i j := of_hit2 h
theorem okw_SNAP_ACC_LO {m : Nat} {i : Nat} (h : m.testBit 372 = true) : okw m (R.SNAP_ACC_LO i) := ⟨212, h, hit1 0x407134 32768 32 i (by decide) (by decide)⟩
theorem of_SNAP_ACC_LO {a : Nat} (h : inCls 212 a = true) : ∃ i, a = R.SNAP_ACC_LO i := of_hit1 h
theorem okw_SNAP_ACC_HI {m : Nat} {i : Nat} (h : m.testBit 373 = true) : okw m (R.SNAP_ACC_HI i) := ⟨213, h, hit1 0x407138 32768 32 i (by decide) (by decide)⟩
theorem of_SNAP_ACC_HI {a : Nat} (h : inCls 213 a = true) : ∃ i, a = R.SNAP_ACC_HI i := of_hit1 h
theorem okw_SNAP_TR {m : Nat} {i : Nat} (h : m.testBit 374 = true) : okw m (R.SNAP_TR i) := ⟨214, h, hit1 0x40713c 32768 32 i (by decide) (by decide)⟩
theorem of_SNAP_TR {a : Nat} (h : inCls 214 a = true) : ∃ i, a = R.SNAP_TR i := of_hit1 h
theorem okw_PAIR_CTRL {m : Nat} (h : m.testBit 375 = true) : okw m R.PAIR_CTRL := ⟨215, h, hit0 0x500000⟩
theorem of_PAIR_CTRL {a : Nat} (h : inCls 215 a = true) : a = R.PAIR_CTRL := of_hit0 h
theorem okw_PAIR_MIRSTART {m : Nat} (h : m.testBit 376 = true) : okw m R.PAIR_MIRSTART := ⟨216, h, hit0 0x500004⟩
theorem of_PAIR_MIRSTART {a : Nat} (h : inCls 216 a = true) : a = R.PAIR_MIRSTART := of_hit0 h
theorem okw_PAIR_STATUS {m : Nat} (h : m.testBit 377 = true) : okw m R.PAIR_STATUS := ⟨217, h, hit0 0x500008⟩
theorem of_PAIR_STATUS {a : Nat} (h : inCls 217 a = true) : a = R.PAIR_STATUS := of_hit0 h
theorem okw_PAIR_CMD {m : Nat} (h : m.testBit 378 = true) : okw m R.PAIR_CMD := ⟨218, h, hit0 0x50000c⟩
theorem of_PAIR_CMD {a : Nat} (h : inCls 218 a = true) : a = R.PAIR_CMD := of_hit0 h
theorem okw_PAIR_CLEAN {m : Nat} (h : m.testBit 379 = true) : okw m R.PAIR_CLEAN := ⟨219, h, hit0 0x500010⟩
theorem of_PAIR_CLEAN {a : Nat} (h : inCls 219 a = true) : a = R.PAIR_CLEAN := of_hit0 h
theorem okw_PAIR_CNT {m : Nat} (h : m.testBit 380 = true) : okw m R.PAIR_CNT := ⟨220, h, hit0 0x500014⟩
theorem of_PAIR_CNT {a : Nat} (h : inCls 220 a = true) : a = R.PAIR_CNT := of_hit0 h
theorem okw_PAIR_DIVAX {m : Nat} (h : m.testBit 381 = true) : okw m R.PAIR_DIVAX := ⟨221, h, hit0 0x500018⟩
theorem of_PAIR_DIVAX {a : Nat} (h : inCls 221 a = true) : a = R.PAIR_DIVAX := of_hit0 h
theorem okw_PAIR_MSEQ {m : Nat} (h : m.testBit 382 = true) : okw m R.PAIR_MSEQ := ⟨222, h, hit0 0x50001c⟩
theorem of_PAIR_MSEQ {a : Nat} (h : inCls 222 a = true) : a = R.PAIR_MSEQ := of_hit0 h
theorem okw_PAIR_RSEQ {m : Nat} (h : m.testBit 383 = true) : okw m R.PAIR_RSEQ := ⟨223, h, hit0 0x500020⟩
theorem of_PAIR_RSEQ {a : Nat} (h : inCls 223 a = true) : a = R.PAIR_RSEQ := of_hit0 h
theorem okw_PAIR_PSERIAL {m : Nat} (h : m.testBit 384 = true) : okw m R.PAIR_PSERIAL := ⟨224, h, hit0 0x500024⟩
theorem of_PAIR_PSERIAL {a : Nat} (h : inCls 224 a = true) : a = R.PAIR_PSERIAL := of_hit0 h
theorem okw_PAIR_LKEY {m : Nat} (h : m.testBit 385 = true) : okw m R.PAIR_LKEY := ⟨225, h, hit0 0x500028⟩
theorem of_PAIR_LKEY {a : Nat} (h : inCls 225 a = true) : a = R.PAIR_LKEY := of_hit0 h
theorem okw_PAIR_PLKEY {m : Nat} (h : m.testBit 386 = true) : okw m R.PAIR_PLKEY := ⟨226, h, hit0 0x50002c⟩
theorem of_PAIR_PLKEY {a : Nat} (h : inCls 226 a = true) : a = R.PAIR_PLKEY := of_hit0 h
theorem okw_PAIR_TAKE {m : Nat} (h : m.testBit 387 = true) : okw m R.PAIR_TAKE := ⟨227, h, hit0 0x500030⟩
theorem of_PAIR_TAKE {a : Nat} (h : inCls 227 a = true) : a = R.PAIR_TAKE := of_hit0 h
theorem okw_SAFE_STATUS {m : Nat} (h : m.testBit 388 = true) : okw m R.SAFE_STATUS := ⟨228, h, hit0 0x600000⟩
theorem of_SAFE_STATUS {a : Nat} (h : inCls 228 a = true) : a = R.SAFE_STATUS := of_hit0 h
theorem okw_SAFE_SIG {m : Nat} (h : m.testBit 389 = true) : okw m R.SAFE_SIG := ⟨229, h, hit0 0x600004⟩
theorem of_SAFE_SIG {a : Nat} (h : inCls 229 a = true) : a = R.SAFE_SIG := of_hit0 h
theorem okw_SAFE_SIG_NEW {m : Nat} (h : m.testBit 390 = true) : okw m R.SAFE_SIG_NEW := ⟨230, h, hit0 0x600008⟩
theorem of_SAFE_SIG_NEW {a : Nat} (h : inCls 230 a = true) : a = R.SAFE_SIG_NEW := of_hit0 h
theorem okw_SAFE_CONFIRM {m : Nat} (h : m.testBit 391 = true) : okw m R.SAFE_CONFIRM := ⟨231, h, hit0 0x60000c⟩
theorem of_SAFE_CONFIRM {a : Nat} (h : inCls 231 a = true) : a = R.SAFE_CONFIRM := of_hit0 h
theorem okw_SAFE_CMD {m : Nat} (h : m.testBit 392 = true) : okw m R.SAFE_CMD := ⟨232, h, hit0 0x600010⟩
theorem of_SAFE_CMD {a : Nat} (h : inCls 232 a = true) : a = R.SAFE_CMD := of_hit0 h
theorem okw_SAFE_RESULT {m : Nat} (h : m.testBit 393 = true) : okw m R.SAFE_RESULT := ⟨233, h, hit0 0x600014⟩
theorem of_SAFE_RESULT {a : Nat} (h : inCls 233 a = true) : a = R.SAFE_RESULT := of_hit0 h
theorem okw_SAFE_PWCNT {m : Nat} (h : m.testBit 394 = true) : okw m R.SAFE_PWCNT := ⟨234, h, hit0 0x600018⟩
theorem of_SAFE_PWCNT {a : Nat} (h : inCls 234 a = true) : a = R.SAFE_PWCNT := of_hit0 h
theorem okw_SAFE_XERR {m : Nat} (h : m.testBit 395 = true) : okw m R.SAFE_XERR := ⟨235, h, hit0 0x60001c⟩
theorem of_SAFE_XERR {a : Nat} (h : inCls 235 a = true) : a = R.SAFE_XERR := of_hit0 h
theorem okw_SLOG_SEQ {m : Nat} (h : m.testBit 396 = true) : okw m R.SLOG_SEQ := ⟨236, h, hit0 0x600020⟩
theorem of_SLOG_SEQ {a : Nat} (h : inCls 236 a = true) : a = R.SLOG_SEQ := of_hit0 h
theorem okw_SZ_CFG {m : Nat} {i : Nat} (h : m.testBit 397 = true) : okw m (R.SZ_CFG i) := ⟨237, h, hit1 0x600100 32 8 i (by decide) (by decide)⟩
theorem of_SZ_CFG {a : Nat} (h : inCls 237 a = true) : ∃ i, a = R.SZ_CFG i := of_hit1 h
theorem okw_SZ_TIME {m : Nat} {i : Nat} (h : m.testBit 398 = true) : okw m (R.SZ_TIME i) := ⟨238, h, hit1 0x600104 32 8 i (by decide) (by decide)⟩
theorem of_SZ_TIME {a : Nat} (h : inCls 238 a = true) : ∃ i, a = R.SZ_TIME i := of_hit1 h
theorem okw_SZ_TP {m : Nat} {i : Nat} (h : m.testBit 399 = true) : okw m (R.SZ_TP i) := ⟨239, h, hit1 0x600108 32 8 i (by decide) (by decide)⟩
theorem of_SZ_TP {a : Nat} (h : inCls 239 a = true) : ∃ i, a = R.SZ_TP i := of_hit1 h
theorem okw_SZ_STILL {m : Nat} {i : Nat} (h : m.testBit 400 = true) : okw m (R.SZ_STILL i) := ⟨240, h, hit1 0x60010c 32 8 i (by decide) (by decide)⟩
theorem of_SZ_STILL {a : Nat} (h : inCls 240 a = true) : ∃ i, a = R.SZ_STILL i := of_hit1 h
theorem okw_SZ_STATUS {m : Nat} {i : Nat} (h : m.testBit 401 = true) : okw m (R.SZ_STATUS i) := ⟨241, h, hit1 0x600110 32 8 i (by decide) (by decide)⟩
theorem of_SZ_STATUS {a : Nat} (h : inCls 241 a = true) : ∃ i, a = R.SZ_STATUS i := of_hit1 h
theorem okw_SZ_CNT {m : Nat} {i : Nat} (h : m.testBit 402 = true) : okw m (R.SZ_CNT i) := ⟨242, h, hit1 0x600114 32 8 i (by decide) (by decide)⟩
theorem of_SZ_CNT {a : Nat} (h : inCls 242 a = true) : ∃ i, a = R.SZ_CNT i := of_hit1 h
theorem okw_SI_CFG {m : Nat} {i : Nat} (h : m.testBit 403 = true) : okw m (R.SI_CFG i) := ⟨243, h, hit1 0x600400 16 16 i (by decide) (by decide)⟩
theorem of_SI_CFG {a : Nat} (h : inCls 243 a = true) : ∃ i, a = R.SI_CFG i := of_hit1 h
theorem okw_SI_STATUS {m : Nat} {i : Nat} (h : m.testBit 404 = true) : okw m (R.SI_STATUS i) := ⟨244, h, hit1 0x600404 16 16 i (by decide) (by decide)⟩
theorem of_SI_STATUS {a : Nat} (h : inCls 244 a = true) : ∃ i, a = R.SI_STATUS i := of_hit1 h
theorem okw_SZ_AX {m : Nat} {i : Nat} (h : m.testBit 405 = true) : okw m (R.SZ_AX i) := ⟨245, h, hit1 0x600800 4 256 i (by decide) (by decide)⟩
theorem of_SZ_AX {a : Nat} (h : inCls 245 a = true) : ∃ i, a = R.SZ_AX i := of_hit1 h
theorem okw_SLOG {m : Nat} {i j : Nat} (h : m.testBit 406 = true) : okw m (R.SLOG i j) := ⟨246, h, hit2 0x602000 64 64 i 4 16 j (by decide) (by decide) (by decide) (by decide) (by decide)⟩
theorem of_SLOG {a : Nat} (h : inCls 246 a = true) : ∃ i j, a = R.SLOG i j := of_hit2 h
theorem okw_HOST_CFG {m : Nat} (h : m.testBit 407 = true) : okw m R.HOST_CFG := ⟨247, h, hit0 0x700000⟩
theorem of_HOST_CFG {a : Nat} (h : inCls 247 a = true) : a = R.HOST_CFG := of_hit0 h
theorem okw_HOST_STATUS {m : Nat} (h : m.testBit 408 = true) : okw m R.HOST_STATUS := ⟨248, h, hit0 0x700004⟩
theorem of_HOST_STATUS {a : Nat} (h : inCls 248 a = true) : a = R.HOST_STATUS := of_hit0 h
theorem okw_HOST_ERR {m : Nat} (h : m.testBit 409 = true) : okw m R.HOST_ERR := ⟨249, h, hit0 0x700008⟩
theorem of_HOST_ERR {a : Nat} (h : inCls 249 a = true) : a = R.HOST_ERR := of_hit0 h
theorem okw_HOST_FOREIGN {m : Nat} (h : m.testBit 410 = true) : okw m R.HOST_FOREIGN := ⟨250, h, hit0 0x70000c⟩
theorem of_HOST_FOREIGN {a : Nat} (h : inCls 250 a = true) : a = R.HOST_FOREIGN := of_hit0 h
theorem okw_ETH_IP {m : Nat} (h : m.testBit 411 = true) : okw m R.ETH_IP := ⟨251, h, hit0 0x700010⟩
theorem of_ETH_IP {a : Nat} (h : inCls 251 a = true) : a = R.ETH_IP := of_hit0 h
theorem okw_ETH_MASK {m : Nat} (h : m.testBit 412 = true) : okw m R.ETH_MASK := ⟨252, h, hit0 0x700014⟩
theorem of_ETH_MASK {a : Nat} (h : inCls 252 a = true) : a = R.ETH_MASK := of_hit0 h
theorem okw_ETH_GW {m : Nat} (h : m.testBit 413 = true) : okw m R.ETH_GW := ⟨253, h, hit0 0x700018⟩
theorem of_ETH_GW {a : Nat} (h : inCls 253 a = true) : a = R.ETH_GW := of_hit0 h
theorem okw_BLK_LOCK {m : Nat} (h : m.testBit 414 = true) : okw m R.BLK_LOCK := ⟨254, h, hit0 0x700020⟩
theorem of_BLK_LOCK {a : Nat} (h : inCls 254 a = true) : a = R.BLK_LOCK := of_hit0 h
theorem okw_IRQ_PEND {m : Nat} (h : m.testBit 415 = true) : okw m R.IRQ_PEND := ⟨255, h, hit0 0x700030⟩
theorem of_IRQ_PEND {a : Nat} (h : inCls 255 a = true) : a = R.IRQ_PEND := of_hit0 h
theorem okw_LOG_HEAD {m : Nat} (h : m.testBit 416 = true) : okw m R.LOG_HEAD := ⟨256, h, hit0 0x700040⟩
theorem of_LOG_HEAD {a : Nat} (h : inCls 256 a = true) : a = R.LOG_HEAD := of_hit0 h
theorem okw_LOG_LOST {m : Nat} (h : m.testBit 417 = true) : okw m R.LOG_LOST := ⟨257, h, hit0 0x700044⟩
theorem of_LOG_LOST {a : Nat} (h : inCls 257 a = true) : a = R.LOG_LOST := of_hit0 h
theorem okw_LOG_SEL {m : Nat} (h : m.testBit 418 = true) : okw m R.LOG_SEL := ⟨258, h, hit0 0x700048⟩
theorem of_LOG_SEL {a : Nat} (h : inCls 258 a = true) : a = R.LOG_SEL := of_hit0 h
theorem okw_LOG_REC {m : Nat} {i : Nat} (h : m.testBit 419 = true) : okw m (R.LOG_REC i) := ⟨259, h, hit1 0x700050 4 10 i (by decide) (by decide)⟩
theorem of_LOG_REC {a : Nat} (h : inCls 259 a = true) : ∃ i, a = R.LOG_REC i := of_hit1 h
theorem okw_TEST_STATUS {m : Nat} (h : m.testBit 420 = true) : okw m R.TEST_STATUS := ⟨260, h, hit0 0x700100⟩
theorem of_TEST_STATUS {a : Nat} (h : inCls 260 a = true) : a = R.TEST_STATUS := of_hit0 h
theorem okw_FI_CMD {m : Nat} (h : m.testBit 421 = true) : okw m R.FI_CMD := ⟨261, h, hit0 0x700104⟩
theorem of_FI_CMD {a : Nat} (h : inCls 261 a = true) : a = R.FI_CMD := of_hit0 h
theorem okw_FI_STATUS {m : Nat} (h : m.testBit 422 = true) : okw m R.FI_STATUS := ⟨262, h, hit0 0x700108⟩
theorem of_FI_STATUS {a : Nat} (h : inCls 262 a = true) : a = R.FI_STATUS := of_hit0 h
theorem okw_DIAG_STATUS {m : Nat} {i : Nat} (h : m.testBit 423 = true) : okw m (R.DIAG_STATUS i) := ⟨263, h, hit1 0x701000 256 15 i (by decide) (by decide)⟩
theorem of_DIAG_STATUS {a : Nat} (h : inCls 263 a = true) : ∃ i, a = R.DIAG_STATUS i := of_hit1 h
theorem okw_DIAG_IEN {m : Nat} {i : Nat} (h : m.testBit 424 = true) : okw m (R.DIAG_IEN i) := ⟨264, h, hit1 0x701004 256 15 i (by decide) (by decide)⟩
theorem of_DIAG_IEN {a : Nat} (h : inCls 264 a = true) : ∃ i, a = R.DIAG_IEN i := of_hit1 h
theorem okw_SED {m : Nat} {i j k : Nat} (h : m.testBit 425 = true) : okw m (R.SED i j k) := ⟨265, h, hit3 0x701010 256 15 i 16 8 j 4 4 k (by decide) (by decide) (by decide) (by decide) (by decide) (by decide) (by decide) (by decide)⟩
theorem of_SED {a : Nat} (h : inCls 265 a = true) : ∃ i j k, a = R.SED i j k := of_hit3 h

end Sys2Proof.Laws
end

