-- ==== Sys2Proof/Laws/Touch.lean ====
section
/-! SUPPORT. What an operation can touch, said once: `Touch m s t` says that `t` differs from `s` in the parts and the registers the footprint `m` names and in no other (and never in the queue), that the register table stays canonical, and that the pins of the bridge channels stay safe. -/

namespace Sys2Proof.Laws
open Sys2Proof Sys2Proof.Machine

/-- The footprint: bit i for the i-th part, bit 160 + k for the k-th register of the map. -/
structure Touch (m : Nat) (s t : State) : Prop where
  same : ∀ p : Part, m.testBit p.ctorIdx = false → samePart s t p
  word : ∀ a, foot m a = false → rd t a = rd s a
  canon : regsCanonical s → regsCanonical t
  pins : pinsSafe s → pinsSafe t
  pending : t.pending = s.pending

/-- The same of an operation that answers a value beside the state. -/
def Touch2 {α : Type} (m : Nat) (s : State) (p : α × State) : Prop := Touch m s p.2
/-- The same of one that answers the state first. -/
def Touch1 {α : Type} (m : Nat) (s : State) (p : State × α) : Prop := Touch m s p.1
/-- The same of one that may refuse. -/
def TouchO (m : Nat) (s : State) (o : Option State) : Prop := ∀ t, o = some t → Touch m s t
/-- The same of a lane instruction's effect. -/
def TouchL (m : Nat) (s : State) (x : LX) : Prop := Touch m s x.s
/-- The same of a command. -/
def TouchX (m : Nat) (s : State) (o : Host.Outcome State Fault Refusal) : Prop := ∀ t, o = .next t → Touch m s t

theorem bit_sub {m n i : Nat} (h : m &&& n = m) (hn : n.testBit i = false) : m.testBit i = false := by
  rw [← h, Nat.testBit_and, hn, Bool.and_false]

theorem sub_trans {a b c : Nat} (h : a &&& b = a) (k : b &&& c = b) : a &&& c = a := by
  rw [← h, Nat.and_assoc, k]

theorem foot_sub {m n a : Nat} (h : m &&& n = m) (hn : foot n a = false) : foot m a = false := by
  by_contra hm
  rw [Bool.not_eq_false] at hm
  rw [foot_mono h hm] at hn
  cases hn

theorem samePart_refl (s : State) (p : Part) : samePart s s p := by cases p <;> rfl
theorem samePart_trans {r s t : State} {p : Part} (h : samePart s t p) (h0 : samePart r s p) : samePart r t p := by
  cases p <;> exact Eq.trans h h0

theorem Touch.refl {m : Nat} {s : State} : Touch m s s := ⟨fun p _ => samePart_refl s p, fun _ _ => rfl, id, id, rfl⟩

/-- An operation after others, within a wider footprint. -/
theorem Touch.then {m n : Nat} {r s t : State} (h : Touch m s t) (hs : m &&& n = m) (h0 : Touch n r s) : Touch n r t where
  same p k := samePart_trans (h.same p (bit_sub hs k)) (h0.same p k)
  word a k := (h.word a (foot_sub hs k)).trans (h0.word a k)
  canon k := h.canon (h0.canon k)
  pins k := h.pins (h0.pins k)
  pending := h.pending.trans h0.pending

/-- A change of hidden state other than the pins. -/
theorem touch_of {m : Nat} {s t : State} (hs : ∀ p : Part, m.testBit p.ctorIdx = false → samePart s t p) (hr : t.regs = s.regs)
    (hc : t.edge.chan = s.edge.chan) (hp : t.pending = s.pending) : Touch m s t :=
  ⟨hs, fun a _ => by unfold rd; rw [hr], fun h => by unfold regsCanonical; rw [hr]; exact h,
   fun h c => by have := h c; unfold State.chan at *; rw [hc]; exact this, hp⟩

theorem Touch.then2 {α : Type} {m n : Nat} {r s : State} {p : α × State} (h : Touch2 m s p) (hs : m &&& n = m) (h0 : Touch n r s) :
    Touch2 n r p := Touch.then h hs h0
theorem Touch.then1 {α : Type} {m n : Nat} {r s : State} {p : State × α} (h : Touch1 m s p) (hs : m &&& n = m) (h0 : Touch n r s) :
    Touch1 n r p := Touch.then h hs h0
theorem Touch.thenO {m n : Nat} {r s : State} {o : Option State} (h : TouchO m s o) (hs : m &&& n = m) (h0 : Touch n r s) :
    TouchO n r o := fun _ e => Touch.then (h _ e) hs h0

/-- The same of an operation that answers a value and a lane instruction's effect. -/
def TouchPL (m : Nat) (s : State) (p : Nat × LX) : Prop := Touch m s p.2.s
theorem touchPL_of {m n : Nat} {s : State} {x : LX} {p : Nat × LX} (e : p = (n, x)) (h : TouchPL m s p) : TouchL m s x := by
  subst e; exact h
theorem touchPL_mk {m n : Nat} {s : State} {x : LX} (h : TouchL m s x) : TouchPL m s (n, x) := h
theorem Touch.thenPL {m n : Nat} {r : State} {x : LX} {y : Nat × LX} (h : TouchPL m x.s y) (hs : m &&& n = m) (h0 : TouchL n r x) :
    TouchPL n r y := Touch.then h hs h0

theorem Touch.thenX {m n : Nat} {r s : State} {o : Host.Outcome State Fault Refusal} (h : TouchX m s o) (hs : m &&& n = m) (h0 : Touch n r s) :
    TouchX n r o := fun _ e => Touch.then (h _ e) hs h0

theorem Touch.thenL {m n : Nat} {r : State} {x y : LX} (h : TouchL m x.s y) (hs : m &&& n = m) (h0 : TouchL n r x) :
    TouchL n r y := Touch.then h hs h0
theorem touchL_refl {m : Nat} {x : LX} : TouchL m x.s x := Touch.refl
theorem Touch.ofL {m : Nat} {s : State} {x : LX} (h : TouchL m s x) : Touch m s x.s := h

theorem Touch.fst {α : Type} {m : Nat} {s : State} {p : State × α} (h : Touch1 m s p) : Touch m s p.1 := h
theorem Touch.snd {α : Type} {m : Nat} {s : State} {p : α × State} (h : Touch2 m s p) : Touch m s p.2 := h
theorem touch_of2 {α : Type} {m : Nat} {s b : State} {p : α × State} {a : α} (e : p = (a, b)) (h : Touch2 m s p) : Touch m s b := by
  subst e; exact h
theorem touch_of1 {α : Type} {m : Nat} {s b : State} {p : State × α} {a : α} (e : p = (b, a)) (h : Touch1 m s p) : Touch m s b := by
  subst e; exact h
theorem touch_ofO {m : Nat} {s b : State} {o : Option State} (e : o = some b) (h : TouchO m s o) : Touch m s b := h b e
theorem touch2_mk {α : Type} {m : Nat} {s b : State} {a : α} (h : Touch m s b) : Touch2 m s (a, b) := h
theorem touch1_mk {α : Type} {m : Nat} {s b : State} {a : α} (h : Touch m s b) : Touch1 m s (b, a) := h
theorem touchO_some {m : Nat} {s b : State} (h : Touch m s b) : TouchO m s (some b) := fun _ e => by cases e; exact h
theorem touchO_none {m : Nat} {s : State} : TouchO m s none := fun _ e => nomatch e
theorem touchO_map {m : Nat} {s : State} {o : Option State} {f : State → State} (h : TouchO m s o)
    (hf : ∀ u, Touch m s u → Touch m s (f u)) : TouchO m s (o.map f) := by
  intro t e; cases o with
  | none => cases e
  | some u => cases e; exact hf u (h u rfl)
theorem touchO_map' {α : Type} {m : Nat} {s : State} {o : Option α} {f : α → State} (hf : ∀ a, Touch m s (f a)) : TouchO m s (o.map f) := by
  intro t e; cases o with
  | none => cases e
  | some a => cases e; exact hf a

/-- The same of a register write's effect at a state. -/
def TouchE (m : Nat) (r s : State) (e : Eff) : Prop := TouchO m r (e s)
theorem TouchE.out {m : Nat} {r s : State} {e : Eff} (h : TouchE m r s e) : TouchO m r (e s) := h
theorem touchE_of {m : Nat} {r s : State} {e : Eff} (h : TouchO m r (e s)) : TouchE m r s e := h

theorem touchX_next {m : Nat} {s b : State} (h : Touch m s b) : TouchX m s (.next b) := fun _ e => by cases e; exact h
theorem touch_getD {m : Nat} {s b : State} {o : Option State} (h : TouchO m s o) (hb : Touch m s b) : Touch m s (o.getD b) := by
  cases o with
  | none => exact hb
  | some u => exact h u rfl

theorem ite_k {α : Type} {P : α → Prop} {c : Prop} [Decidable c] {a b : α} (ha : P a) (hb : P b) : P (if c then a else b) := by
  split <;> assumption
theorem cut_k (A : Prop) {B : Prop} (ha : A) (h : A → B) : B := h ha
theorem foldl_k {α β : Type} {P : β → Prop} {f : β → α → β} {l : List α} {b : β} (h : ∀ b a, P b → P (f b a)) (hb : P b) :
    P (l.foldl f b) := by
  induction l generalizing b with
  | nil => exact hb
  | cons a l ih => exact ih (h _ _ hb)
theorem eachN_k {P : State → Prop} {l : List Nat} {f : Nat → State → State} {s : State} (h : ∀ n t, P t → P (f n t)) (hs : P s) :
    P (eachN l f s) := foldl_k (fun b a hb => h a b hb) hs

/-! ### Register words -/

theorem wr_w {m : Nat} {r s : State} {a : Nat} {v : Word} (h : Touch m r s) (hw : okw m a) : Touch m r (wr s a v) where
  same p k := samePart_trans (by cases p <;> rfl) (h.same p k)
  word b k := by
    rw [rd_wr]
    split
    · rename_i e; subst e; rw [foot_of_okw hw] at k; cases k
    · exact h.word b k
  canon k := Tbl.wf_set (h.canon k)
  pins k := h.pins k
  pending := h.pending
theorem wrN_w {m : Nat} {r s : State} {a v : Nat} (h : Touch m r s) (hw : okw m a) : Touch m r (wrN s a v) := wr_w h hw
theorem fset_w {m : Nat} {r s : State} {a v : Nat} {f : R.Fld} (h : Touch m r s) (hw : okw m a) : Touch m r (fset s a f v) := wr_w h hw
theorem fput_w {m : Nat} {r s : State} {a : Nat} {v : Bool} {f : R.Fld} (h : Touch m r s) (hw : okw m a) : Touch m r (fput s a f v) := wr_w h hw
theorem fincSat_w {m : Nat} {r s : State} {a : Nat} {f : R.Fld} (h : Touch m r s) (hw : okw m a) : Touch m r (fincSat s a f) := wr_w h hw
theorem fincWrap_w {m : Nat} {r s : State} {a : Nat} {f : R.Fld} (h : Touch m r s) (hw : okw m a) : Touch m r (fincWrap s a f) := wr_w h hw
theorem wr64_w {m : Nat} {r s : State} {reg : Nat → Nat} {v : Int} (h : Touch m r s) (hw : okw m (reg 0)) (hx : okw m (reg 1)) :
    Touch m r (wr64 s reg v) := wrN_w (wrN_w h hw) hx
theorem wrAll_w {m : Nat} {r : State} {reg : Nat → Nat} {i : Nat} {l : List Word} {s : State} (h : Touch m r s) (hw : ∀ i, okw m (reg i)) :
    Touch m r (wrAll reg i l s) := by
  induction l generalizing i s with
  | nil => exact h
  | cons v l ih => exact ih (wr_w h (hw i))
theorem wrRange_w {m : Nat} {r : State} {a b : Nat} {l : List (Nat × Word)} {s : State} (h : Touch m r s)
    (hw : ∀ x, a ≤ x → x < b → okw m x) : Touch m r (wrRange a b l s) := by
  unfold wrRange
  refine foldl_k (fun t e ht => ?_) h
  split
  · rename_i k
    rw [Bool.and_eq_true, decide_eq_true_eq, decide_eq_true_eq] at k
    exact wr_w ht (hw _ k.1 k.2)
  · exact ht
theorem imageRewrite_w {m : Nat} {r : State} {a b : Nat} {s : State} (h : Touch m r s) (hw : ∀ x, a ≤ x → x < b → okw m x) :
    Touch m r (imageRewrite a b s) := wrRange_w h hw
theorem resetWords_w {m : Nat} {r : State} {a n : Nat} {s : State} (h : Touch m r s) (hw : ∀ x, a ≤ x → x < a + 4 * n → okw m x) :
    Touch m r (resetWords a n s) := by
  unfold resetWords
  refine imageRewrite_w ?_ hw
  have go : ∀ (l : List Nat) (t : State), (∀ i ∈ l, i < n) → Touch m r t →
      Touch m r (eachN l (fun i s => wr s (a + 4 * i) (regReset (a + 4 * i))) t) := by
    intro l
    induction l with
    | nil => exact fun t _ ht => ht
    | cons i l ih => 
      intro t hl ht
      have hi := hl i (List.mem_cons_self ..)
      exact ih _ (fun j hj => hl j (List.mem_cons_of_mem _ hj)) (wr_w ht (hw _ (by omega) (by omega)))
  exact go _ _ (fun i hi => List.mem_range.1 hi) h
theorem clearPage_w {m : Nat} {r : State} {a n : Nat} {s : State} (h : Touch m r s) (hw : ∀ x, a ≤ x → x < a + n → okw m x) :
    Touch m r (clearPage a n s) where
  same p k := samePart_trans (by cases p <;> rfl) (h.same p k)
  word b k := by
    rw [← h.word b k]
    have hb : ¬ (a ≤ b ∧ b < a + n) := fun e => by rw [foot_of_okw (hw b e.1 e.2)] at k; cases k
    show Tbl.get regReset (s.regs.filter _) b = Tbl.get regReset s.regs b
    generalize s.regs = l
    induction l with
    | nil => rfl
    | cons e l ih =>
      obtain ⟨j, v⟩ := e
      by_cases hj : (!(decide (a ≤ j) && decide (j < a + n))) = true
      · rw [List.filter_cons_of_pos (p := fun e : Nat × Word => !(decide (a ≤ e.1) && decide (e.1 < a + n))) hj]; simp only [Tbl.get]; rw [ih]
      · rw [List.filter_cons_of_neg (p := fun e : Nat × Word => !(decide (a ≤ e.1) && decide (e.1 < a + n))) hj]; simp only [Tbl.get]
        rw [if_neg, ih]
        rintro rfl
        apply hb
        simpa using hj
  canon k := Tbl.wf_filter _ (h.canon k)
  pins k := h.pins k
  pending := h.pending

theorem okr_pf {m n k : Nat} (h : m.testBit 428 = true) (hk : k ≤ 0x100) : ∀ x, R.PF_CTRL n ≤ x → x < R.PF_CTRL n + k → okw m x :=
  fun x h1 h2 => okw_pf h (by unfold R.PF_CTRL at h1; omega) (by unfold R.PF_CTRL at h2; omega)
theorem okr_ax {m n k : Nat} (h : m.testBit 429 = true) (hk : k ≤ 0x1C) : ∀ x, R.AX_STATUS n ≤ x → x < R.AX_STATUS n + k → okw m x :=
  fun x h1 h2 => okw_ax h (by unfold R.AX_STATUS at h1; omega) (by unfold R.AX_STATUS at h2; omega)
theorem okr_lane {m n k : Nat} (h : m.testBit 430 = true) (hk : k ≤ 0x8000) : ∀ x, R.PMEM n 0 ≤ x → x < R.PMEM n 0 + k → okw m x :=
  fun x h1 h2 => okw_lane h (by unfold R.PMEM at h1; omega) (by unfold R.PMEM at h2; omega)
theorem okr_safe {m : Nat} (h : m.testBit 431 = true) : ∀ x, 0x600000 ≤ x → x < 0x700000 → okw m x := fun _ h1 h2 => okw_safe h h1 h2
theorem okw_laneWord {m n k : Nat} (h : m.testBit 430 = true) : okw m (R.PMEM n 0 + k % 0x8000) :=
  okr_lane (n := n) (k := 0x8000) h (by decide) _ (by omega) (by have := Nat.mod_lt k (show 0 < 0x8000 by decide); omega)
theorem okw_camTile {m t : Nat} (h : m.testBit 427 = true) : okw m (camTileAddr t) := okw_sram h (by unfold camTileAddr; omega)
theorem wrWords_sram {m : Nat} {r : State} {a : Nat} {l : List Word} {s : State} (hb : m.testBit 427 = true) (ha : 0x1000000 ≤ a) (h : Touch m r s) :
    Touch m r (wrWords s a l) := by
  induction l generalizing a s with
  | nil => exact h
  | cons v l ih => exact ih (by omega) (wr_w h (okw_sram hb ha))
theorem wrWords_camTile {m : Nat} {r : State} {t : Nat} {l : List Word} {s : State} (h : Touch m r s) (hb : m.testBit 427 = true) :
    Touch m r (wrWords s (camTileAddr t) l) := wrWords_sram hb (by unfold camTileAddr; omega) h
theorem wrWords_any {m : Nat} {r : State} {a : Nat} {l : List Word} {s : State} (h : Touch m r s) (hb : m.testBit 426 = true) :
    Touch m r (wrWords s a l) := by
  induction l generalizing a s with
  | nil => exact h
  | cons v l ih => exact ih (wr_w h (okw_any hb))

/-- `LX.mk` under a name that unification does not look through. -/
def mkL (a : Nat) (b : Bool) (c : Nat) (d e : Lane) (s : State) (f g : Option Nat) : LX := ⟨a, b, c, d, e, s, f, g⟩
theorem mkL_eq {a : Nat} {b : Bool} {c : Nat} {d e : Lane} {s : State} {f g : Option Nat} : LX.mk a b c d e s f g = mkL a b c d e s f g := rfl
theorem touchL_mk {m a c : Nat} {r s : State} {b : Bool} {d e : Lane} {f g : Option Nat} (h : Touch m r s) : TouchL m r (mkL a b c d e s f g) := h

/-- A state put together from its parts: `State.mk` under a name that unification does not look through. -/
def mkS (x0 : Tbl Word) (x1 : CoreSt) (x2 : AngSt) (x3 : SchSt) (x4 : LawSt) (x5 : MotSt) (x6 : Tbl Lane) (x7 : EdgeSt) (x8 : NetSt) (x9 : TimeSt) (x10 : PairSt) (x11 : SafetySt) (x12 : BootSt) (x13 : HostSt) (x14 : Nat) (x15 : List Instr) : State := ⟨x0, x1, x2, x3, x4, x5, x6, x7, x8, x9, x10, x11, x12, x13, x14, x15⟩

theorem mk_eq {x0 : Tbl Word} {x1 : CoreSt} {x2 : AngSt} {x3 : SchSt} {x4 : LawSt} {x5 : MotSt} {x6 : Tbl Lane} {x7 : EdgeSt} {x8 : NetSt} {x9 : TimeSt} {x10 : PairSt} {x11 : SafetySt} {x12 : BootSt} {x13 : HostSt} {x14 : Nat} {x15 : List Instr} : State.mk x0 x1 x2 x3 x4 x5 x6 x7 x8 x9 x10 x11 x12 x13 x14 x15 = mkS x0 x1 x2 x3 x4 x5 x6 x7 x8 x9 x10 x11 x12 x13 x14 x15 := rfl

end Sys2Proof.Laws
end

