-- ==== Sys2Proof/Laws/TouchOps.lean ====
section
/-! SUPPORT. What each operation of Machine/Ops.lean can touch: one lemma per operation, by footprint (Laws/Touch.lean). -/

set_option linter.unusedTactic false
set_option linter.unreachableTactic false
set_option linter.unusedSimpArgs false
set_option linter.unusedVariables false

namespace Sys2Proof.Laws
open Sys2Proof Sys2Proof.Machine R

set_option maxRecDepth 4000 in
theorem touch_core {m : Nat} {s : State} {x : CoreSt} (h_sinceS : m.testBit 0 = false → x.sinceS = s.core.sinceS) (h_sinceC : m.testBit 1 = false → x.sinceC = s.core.sinceC) (h_repeats : m.testBit 2 = false → x.repeats = s.core.repeats) (h_lostS : m.testBit 3 = false → x.lostS = s.core.lostS) (h_lostC : m.testBit 4 = false → x.lostC = s.core.lostC) (h_boost : m.testBit 5 = false → x.boost = s.core.boost) (h_ctx : m.testBit 6 = false → x.ctx = s.core.ctx) (h_fb : m.testBit 7 = false → x.fb = s.core.fb) (h_region : m.testBit 8 = false → x.region = s.core.region) (h_measured : m.testBit 9 = false → x.measured = s.core.measured) : Touch m s { s with core := x } :=
  touch_of (by intro p hp; cases p <;> first | rfl | exact h_sinceS hp | exact h_sinceC hp | exact h_repeats hp | exact h_lostS hp | exact h_lostC hp | exact h_boost hp | exact h_ctx hp | exact h_fb hp | exact h_region hp | exact h_measured hp) rfl rfl rfl
set_option maxRecDepth 4000 in
theorem touch_ang {m : Nat} {s : State} {x : AngSt} (h_key : m.testBit 10 = false → x.key = s.ang.key) (h_speed : m.testBit 11 = false → x.speed = s.ang.speed) (h_vm : m.testBit 12 = false → x.vm = s.ang.vm) (h_src : m.testBit 13 = false → x.src = s.ang.src) (h_differ : m.testBit 14 = false → x.differ = s.ang.differ) (h_run : m.testBit 15 = false → x.run = s.ang.run) (h_ever : m.testBit 16 = false → x.ever = s.ang.ever) (h_resume : m.testBit 17 = false → x.resume = s.ang.resume) : Touch m s { s with ang := x } :=
  touch_of (by intro p hp; cases p <;> first | rfl | exact h_key hp | exact h_speed hp | exact h_vm hp | exact h_src hp | exact h_differ hp | exact h_run hp | exact h_ever hp | exact h_resume hp) rfl rfl rfl
set_option maxRecDepth 4000 in
theorem touch_sch {m : Nat} {s : State} {x : SchSt} (h_started : m.testBit 18 = false → x.started = s.sch.started) (h_dl : m.testBit 19 = false → x.dl = s.sch.dl) (h_ins : m.testBit 20 = false → x.ins = s.sch.ins) (h_placed : m.testBit 21 = false → x.placed = s.sch.placed) (h_held : m.testBit 22 = false → x.held = s.sch.held) (h_ready : m.testBit 23 = false → x.ready = s.sch.ready) (h_unit : m.testBit 24 = false → x.unit = s.sch.unit) (h_ovr : m.testBit 25 = false → x.ovr = s.sch.ovr) (h_ovrHere : m.testBit 26 = false → x.ovrHere = s.sch.ovrHere) (h_dlStat : m.testBit 27 = false → x.dlStat = s.sch.dlStat) (h_rlStat : m.testBit 28 = false → x.rlStat = s.sch.rlStat) (h_waitStat : m.testBit 29 = false → x.waitStat = s.sch.waitStat) (h_sampled : m.testBit 30 = false → x.sampled = s.sch.sampled) (h_published : m.testBit 31 = false → x.published = s.sch.published) : Touch m s { s with sch := x } :=
  touch_of (by intro p hp; cases p <;> first | rfl | exact h_started hp | exact h_dl hp | exact h_ins hp | exact h_placed hp | exact h_held hp | exact h_ready hp | exact h_unit hp | exact h_ovr hp | exact h_ovrHere hp | exact h_dlStat hp | exact h_rlStat hp | exact h_waitStat hp | exact h_sampled hp | exact h_published hp) rfl rfl rfl
set_option maxRecDepth 4000 in
theorem touch_law {m : Nat} {s : State} {x : LawSt} (h_ax : m.testBit 32 = false → x.ax = s.law.ax) (h_store : m.testBit 33 = false → x.store = s.law.store) (h_tub : m.testBit 34 = false → x.tub = s.law.tub) (h_snap : m.testBit 35 = false → x.snap = s.law.snap) : Touch m s { s with law := x } :=
  touch_of (by intro p hp; cases p <;> first | rfl | exact h_ax hp | exact h_store hp | exact h_tub hp | exact h_snap hp) rfl rfl rfl
set_option maxRecDepth 4000 in
theorem touch_mot {m : Nat} {s : State} {x : MotSt} (h_gen : m.testBit 36 = false → x.gen = s.mot.gen) (h_computed : m.testBit 37 = false → x.computed = s.mot.computed) (h_co : m.testBit 38 = false → x.co = s.mot.co) (h_win : m.testBit 39 = false → x.win = s.mot.win) : Touch m s { s with mot := x } :=
  touch_of (by intro p hp; cases p <;> first | rfl | exact h_gen hp | exact h_computed hp | exact h_co hp | exact h_win hp) rfl rfl rfl
theorem touch_lane {m : Nat} {s : State} {x : Tbl Lane} (h : m.testBit 40 = true) : Touch m s { s with lane := x } :=
  touch_of (by intro p hp; cases p <;> first | rfl | (exact absurd (hp.symm.trans h) (by decide))) rfl rfl rfl
set_option maxRecDepth 4000 in
theorem touch_edge {m : Nat} {s : State} {x : EdgeSt} (h_chan : x.chan = s.edge.chan) (h_wait : m.testBit 42 = false → x.wait = s.edge.wait) (h_fly : m.testBit 43 = false → x.fly = s.edge.fly) (h_frozen : m.testBit 44 = false → x.frozen = s.edge.frozen) (h_out : m.testBit 45 = false → x.out = s.edge.out) (h_enc : m.testBit 46 = false → x.enc = s.edge.enc) (h_still : m.testBit 47 = false → x.still = s.edge.still) : Touch m s { s with edge := x } :=
  touch_of (by intro p hp; cases p <;> first | rfl | exact h_chan | exact h_wait hp | exact h_fly hp | exact h_frozen hp | exact h_out hp | exact h_enc hp | exact h_still hp) rfl h_chan rfl
set_option maxRecDepth 4000 in
theorem touch_net {m : Nat} {s : State} {x : NetSt} (h_link : m.testBit 48 = false → x.link = s.net.link) (h_seg : m.testBit 49 = false → x.seg = s.net.seg) (h_node : m.testBit 50 = false → x.node = s.net.node) (h_ax : m.testBit 51 = false → x.ax = s.net.ax) (h_nodes : m.testBit 52 = false → x.nodes = s.net.nodes) (h_ranks : m.testBit 53 = false → x.ranks = s.net.ranks) (h_used : m.testBit 54 = false → x.used = s.net.used) (h_gen : m.testBit 55 = false → x.gen = s.net.gen) (h_next : m.testBit 56 = false → x.next = s.net.next) (h_armed : m.testBit 57 = false → x.armed = s.net.armed) : Touch m s { s with net := x } :=
  touch_of (by intro p hp; cases p <;> first | rfl | exact h_link hp | exact h_seg hp | exact h_node hp | exact h_ax hp | exact h_nodes hp | exact h_ranks hp | exact h_used hp | exact h_gen hp | exact h_next hp | exact h_armed hp) rfl rfl rfl
set_option maxRecDepth 4000 in
theorem touch_time {m : Nat} {s : State} {x : TimeSt} (h_ns : m.testBit 58 = false → x.ns = s.time.ns) (h_start : m.testBit 59 = false → x.start = s.time.start) (h_grid : m.testBit 60 = false → x.grid = s.time.grid) (h_inc : m.testBit 61 = false → x.inc = s.time.inc) (h_integ : m.testBit 62 = false → x.integ = s.time.integ) (h_near : m.testBit 63 = false → x.near = s.time.near) (h_far : m.testBit 64 = false → x.far = s.time.far) (h_missed : m.testBit 65 = false → x.missed = s.time.missed) (h_ptp : m.testBit 66 = false → x.ptp = s.time.ptp) : Touch m s { s with time := x } :=
  touch_of (by intro p hp; cases p <;> first | rfl | exact h_ns hp | exact h_start hp | exact h_grid hp | exact h_inc hp | exact h_integ hp | exact h_near hp | exact h_far hp | exact h_missed hp | exact h_ptp hp) rfl rfl rfl
set_option maxRecDepth 4000 in
theorem touch_pair {m : Nat} {s : State} {x : PairSt} (h_req : m.testBit 67 = false → x.req = s.pair.req) (h_out : m.testBit 68 = false → x.out = s.pair.out) (h_edge : m.testBit 69 = false → x.edge = s.pair.edge) (h_wait : m.testBit 70 = false → x.wait = s.pair.wait) (h_heard : m.testBit 71 = false → x.heard = s.pair.heard) (h_pstrap : m.testBit 72 = false → x.pstrap = s.pair.pstrap) (h_pstate : m.testBit 73 = false → x.pstate = s.pair.pstate) (h_plevel : m.testBit 74 = false → x.plevel = s.pair.plevel) (h_shadow : m.testBit 75 = false → x.shadow = s.pair.shadow) (h_expect : m.testBit 76 = false → x.expect = s.pair.expect) (h_divWin : m.testBit 77 = false → x.divWin = s.pair.divWin) (h_cmp : m.testBit 78 = false → x.cmp = s.pair.cmp) (h_div : m.testBit 79 = false → x.div = s.pair.div) (h_want : m.testBit 80 = false → x.want = s.pair.want) (h_asked : m.testBit 81 = false → x.asked = s.pair.asked) (h_rot : m.testBit 82 = false → x.rot = s.pair.rot) (h_changedC : m.testBit 83 = false → x.changedC = s.pair.changedC) (h_copy : m.testBit 84 = false → x.copy = s.pair.copy) (h_got : m.testBit 85 = false → x.got = s.pair.got) (h_rseq : m.testBit 86 = false → x.rseq = s.pair.rseq) (h_recs : m.testBit 87 = false → x.recs = s.pair.recs) (h_held : m.testBit 88 = false → x.held = s.pair.held) (h_rx : m.testBit 89 = false → x.rx = s.pair.rx) (h_ang : m.testBit 90 = false → x.ang = s.pair.ang) (h_load : m.testBit 91 = false → x.load = s.pair.load) (h_since : m.testBit 92 = false → x.since = s.pair.since) (h_began : m.testBit 93 = false → x.began = s.pair.began) (h_swo : m.testBit 94 = false → x.swo = s.pair.swo) (h_sent : m.testBit 95 = false → x.sent = s.pair.sent) : Touch m s { s with pair := x } :=
  touch_of (by intro p hp; cases p <;> first | rfl | exact h_req hp | exact h_out hp | exact h_edge hp | exact h_wait hp | exact h_heard hp | exact h_pstrap hp | exact h_pstate hp | exact h_plevel hp | exact h_shadow hp | exact h_expect hp | exact h_divWin hp | exact h_cmp hp | exact h_div hp | exact h_want hp | exact h_asked hp | exact h_rot hp | exact h_changedC hp | exact h_copy hp | exact h_got hp | exact h_rseq hp | exact h_recs hp | exact h_held hp | exact h_rx hp | exact h_ang hp | exact h_load hp | exact h_since hp | exact h_began hp | exact h_swo hp | exact h_sent hp) rfl rfl rfl
set_option maxRecDepth 4000 in
theorem touch_safe {m : Nat} {s : State} {x : SafetySt} (h_zone : m.testBit 96 = false → x.zone = s.safe.zone) (h_shown : m.testBit 97 = false → x.shown = s.safe.shown) (h_sentA : m.testBit 98 = false → x.sentA = s.safe.sentA) (h_sentB : m.testBit 99 = false → x.sentB = s.safe.sentB) (h_rxA : m.testBit 100 = false → x.rxA = s.safe.rxA) (h_rxB : m.testBit 101 = false → x.rxB = s.safe.rxB) (h_devA : m.testBit 102 = false → x.devA = s.safe.devA) (h_devB : m.testBit 103 = false → x.devB = s.safe.devB) (h_staged : m.testBit 104 = false → x.staged = s.safe.staged) (h_sess : m.testBit 105 = false → x.sess = s.safe.sess) (h_confirm : m.testBit 106 = false → x.confirm = s.safe.confirm) (h_fails : m.testBit 107 = false → x.fails = s.safe.fails) (h_lockEnd : m.testBit 108 = false → x.lockEnd = s.safe.lockEnd) (h_sec : m.testBit 109 = false → x.sec = s.safe.sec) (h_log : m.testBit 110 = false → x.log = s.safe.log) : Touch m s { s with safe := x } :=
  touch_of (by intro p hp; cases p <;> first | rfl | exact h_zone hp | exact h_shown hp | exact h_sentA hp | exact h_sentB hp | exact h_rxA hp | exact h_rxB hp | exact h_devA hp | exact h_devB hp | exact h_staged hp | exact h_sess hp | exact h_confirm hp | exact h_fails hp | exact h_lockEnd hp | exact h_sec hp | exact h_log hp) rfl rfl rfl
set_option maxRecDepth 4000 in
theorem touch_boot {m : Nat} {s : State} {x : BootSt} (h_flash : m.testBit 111 = false → x.flash = s.boot.flash) (h_img : m.testBit 112 = false → x.img = s.boot.img) (h_modes : m.testBit 113 = false → x.modes = s.boot.modes) (h_autoWait : m.testBit 114 = false → x.autoWait = s.boot.autoWait) (h_bank : m.testBit 115 = false → x.bank = s.boot.bank) (h_load : m.testBit 116 = false → x.load = s.boot.load) (h_travel : m.testBit 117 = false → x.travel = s.boot.travel) (h_lanes : m.testBit 118 = false → x.lanes = s.boot.lanes) (h_recorded : m.testBit 119 = false → x.recorded = s.boot.recorded) (h_test : m.testBit 120 = false → x.test = s.boot.test) (h_ftmWait : m.testBit 121 = false → x.ftmWait = s.boot.ftmWait) (h_held : m.testBit 122 = false → x.held = s.boot.held) (h_ended : m.testBit 123 = false → x.ended = s.boot.ended) : Touch m s { s with boot := x } :=
  touch_of (by intro p hp; cases p <;> first | rfl | exact h_flash hp | exact h_img hp | exact h_modes hp | exact h_autoWait hp | exact h_bank hp | exact h_load hp | exact h_travel hp | exact h_lanes hp | exact h_recorded hp | exact h_test hp | exact h_ftmWait hp | exact h_held hp | exact h_ended hp) rfl rfl rfl
set_option maxRecDepth 4000 in
theorem touch_host {m : Nat} {s : State} {x : HostSt} (h_port : m.testBit 124 = false → x.port = s.host.port) (h_sessions : m.testBit 125 = false → x.sessions = s.host.sessions) (h_lastSess : m.testBit 126 = false → x.lastSess = s.host.lastSess) (h_latch : m.testBit 127 = false → x.latch = s.host.latch) (h_staged : m.testBit 128 = false → x.staged = s.host.staged) (h_insReg : m.testBit 129 = false → x.insReg = s.host.insReg) (h_log : m.testBit 130 = false → x.log = s.host.log) (h_nvm : m.testBit 131 = false → x.nvm = s.host.nvm) (h_merge : m.testBit 132 = false → x.merge = s.host.merge) (h_seq : m.testBit 133 = false → x.seq = s.host.seq) (h_sub : m.testBit 134 = false → x.sub = s.host.sub) (h_lost : m.testBit 135 = false → x.lost = s.host.lost) (h_fi : m.testBit 136 = false → x.fi = s.host.fi) (h_img : m.testBit 137 = false → x.img = s.host.img) (h_spiOut : m.testBit 138 = false → x.spiOut = s.host.spiOut) (h_ethTx : m.testBit 139 = false → x.ethTx = s.host.ethTx) (h_rgmii : m.testBit 140 = false → x.rgmii = s.host.rgmii) (h_acc : m.testBit 141 = false → x.acc = s.host.acc) : Touch m s { s with host := x } :=
  touch_of (by intro p hp; cases p <;> first | rfl | exact h_port hp | exact h_sessions hp | exact h_lastSess hp | exact h_latch hp | exact h_staged hp | exact h_insReg hp | exact h_log hp | exact h_nvm hp | exact h_merge hp | exact h_seq hp | exact h_sub hp | exact h_lost hp | exact h_fi hp | exact h_img hp | exact h_spiOut hp | exact h_ethTx hp | exact h_rgmii hp | exact h_acc hp) rfl rfl rfl
theorem touch_free {m : Nat} {s : State} {x : Nat} (h : m.testBit 142 = true) : Touch m s { s with freeCtr := x } :=
  touch_of (by intro p hp; cases p <;> first | rfl | (exact absurd (hp.symm.trans h) (by decide))) rfl rfl rfl
theorem upd_ang_bootmodes {s : State} {x0 : AngSt} {x1 : List (Nat × Nat)} : Touch 0x2000000000000000000000003fc00 s (mkS s.regs s.core x0 s.sch s.law s.mot s.lane s.edge s.net s.time s.pair s.safe (BootSt.mk s.boot.flash s.boot.img x1 s.boot.autoWait s.boot.bank s.boot.load s.boot.travel s.boot.lanes s.boot.recorded s.boot.test s.boot.ftmWait s.boot.held s.boot.ended) s.host s.freeCtr s.pending) :=
  touch_of (by intro p hp; cases p <;> first | rfl | exact absurd hp (by decide)) rfl rfl rfl
theorem upd_angdiffer {s : State} {x0 : Nat} : Touch 0x4000 s (mkS s.regs s.core (AngSt.mk s.ang.key s.ang.speed s.ang.vm s.ang.src x0 s.ang.run s.ang.ever s.ang.resume) s.sch s.law s.mot s.lane s.edge s.net s.time s.pair s.safe s.boot s.host s.freeCtr s.pending) :=
  touch_ang (fun _ => rfl) (fun _ => rfl) (fun _ => rfl) (fun _ => rfl) (fun h => nomatch h) (fun _ => rfl) (fun _ => rfl) (fun _ => rfl)
theorem upd_angever_angkey {s : State} {x0 : Bool} {x1 : Nat} : Touch 0x10400 s (mkS s.regs s.core (AngSt.mk x1 s.ang.speed s.ang.vm s.ang.src s.ang.differ s.ang.run x0 s.ang.resume) s.sch s.law s.mot s.lane s.edge s.net s.time s.pair s.safe s.boot s.host s.freeCtr s.pending) :=
  touch_ang (fun h => nomatch h) (fun _ => rfl) (fun _ => rfl) (fun _ => rfl) (fun _ => rfl) (fun _ => rfl) (fun h => nomatch h) (fun _ => rfl)
theorem upd_angever_angrun_angspeed_angvm {s : State} {x0 : Bool} {x1 : Bool} {x2 : Int} {x3 : Int} : Touch 0x19800 s (mkS s.regs s.core (AngSt.mk s.ang.key x2 x3 s.ang.src s.ang.differ x1 x0 s.ang.resume) s.sch s.law s.mot s.lane s.edge s.net s.time s.pair s.safe s.boot s.host s.freeCtr s.pending) :=
  touch_ang (fun _ => rfl) (fun h => nomatch h) (fun h => nomatch h) (fun _ => rfl) (fun _ => rfl) (fun h => nomatch h) (fun h => nomatch h) (fun _ => rfl)
theorem upd_angkey {s : State} {x0 : Nat} : Touch 0x400 s (mkS s.regs s.core (AngSt.mk x0 s.ang.speed s.ang.vm s.ang.src s.ang.differ s.ang.run s.ang.ever s.ang.resume) s.sch s.law s.mot s.lane s.edge s.net s.time s.pair s.safe s.boot s.host s.freeCtr s.pending) :=
  touch_ang (fun h => nomatch h) (fun _ => rfl) (fun _ => rfl) (fun _ => rfl) (fun _ => rfl) (fun _ => rfl) (fun _ => rfl) (fun _ => rfl)
theorem upd_angkey_angspeed {s : State} {x0 : Nat} {x1 : Int} : Touch 0xc00 s (mkS s.regs s.core (AngSt.mk x0 x1 s.ang.vm s.ang.src s.ang.differ s.ang.run s.ang.ever s.ang.resume) s.sch s.law s.mot s.lane s.edge s.net s.time s.pair s.safe s.boot s.host s.freeCtr s.pending) :=
  touch_ang (fun h => nomatch h) (fun h => nomatch h) (fun _ => rfl) (fun _ => rfl) (fun _ => rfl) (fun _ => rfl) (fun _ => rfl) (fun _ => rfl)
theorem upd_angkey_angspeed_angvm {s : State} {x0 : Nat} {x1 : Int} {x2 : Int} : Touch 0x1c00 s (mkS s.regs s.core (AngSt.mk x0 x1 x2 s.ang.src s.ang.differ s.ang.run s.ang.ever s.ang.resume) s.sch s.law s.mot s.lane s.edge s.net s.time s.pair s.safe s.boot s.host s.freeCtr s.pending) :=
  touch_ang (fun h => nomatch h) (fun h => nomatch h) (fun h => nomatch h) (fun _ => rfl) (fun _ => rfl) (fun _ => rfl) (fun _ => rfl) (fun _ => rfl)
theorem upd_angresume {s : State} {x0 : Bool} : Touch 0x20000 s (mkS s.regs s.core (AngSt.mk s.ang.key s.ang.speed s.ang.vm s.ang.src s.ang.differ s.ang.run s.ang.ever x0) s.sch s.law s.mot s.lane s.edge s.net s.time s.pair s.safe s.boot s.host s.freeCtr s.pending) :=
  touch_ang (fun _ => rfl) (fun _ => rfl) (fun _ => rfl) (fun _ => rfl) (fun _ => rfl) (fun _ => rfl) (fun _ => rfl) (fun h => nomatch h)
theorem upd_angresume_angspeed_angvm {s : State} {x0 : Bool} {x1 : Int} {x2 : Int} : Touch 0x21800 s (mkS s.regs s.core (AngSt.mk s.ang.key x1 x2 s.ang.src s.ang.differ s.ang.run s.ang.ever x0) s.sch s.law s.mot s.lane s.edge s.net s.time s.pair s.safe s.boot s.host s.freeCtr s.pending) :=
  touch_ang (fun _ => rfl) (fun h => nomatch h) (fun h => nomatch h) (fun _ => rfl) (fun _ => rfl) (fun _ => rfl) (fun _ => rfl) (fun h => nomatch h)
theorem upd_angrun_angspeed {s : State} {x0 : Bool} {x1 : Int} : Touch 0x8800 s (mkS s.regs s.core (AngSt.mk s.ang.key x1 s.ang.vm s.ang.src s.ang.differ x0 s.ang.ever s.ang.resume) s.sch s.law s.mot s.lane s.edge s.net s.time s.pair s.safe s.boot s.host s.freeCtr s.pending) :=
  touch_ang (fun _ => rfl) (fun h => nomatch h) (fun _ => rfl) (fun _ => rfl) (fun _ => rfl) (fun h => nomatch h) (fun _ => rfl) (fun _ => rfl)
theorem upd_angspeed {s : State} {x0 : Int} : Touch 0x800 s (mkS s.regs s.core (AngSt.mk s.ang.key x0 s.ang.vm s.ang.src s.ang.differ s.ang.run s.ang.ever s.ang.resume) s.sch s.law s.mot s.lane s.edge s.net s.time s.pair s.safe s.boot s.host s.freeCtr s.pending) :=
  touch_ang (fun _ => rfl) (fun h => nomatch h) (fun _ => rfl) (fun _ => rfl) (fun _ => rfl) (fun _ => rfl) (fun _ => rfl) (fun _ => rfl)
theorem upd_angsrc {s : State} {x0 : Tbl Src} : Touch 0x2000 s (mkS s.regs s.core (AngSt.mk s.ang.key s.ang.speed s.ang.vm x0 s.ang.differ s.ang.run s.ang.ever s.ang.resume) s.sch s.law s.mot s.lane s.edge s.net s.time s.pair s.safe s.boot s.host s.freeCtr s.pending) :=
  touch_ang (fun _ => rfl) (fun _ => rfl) (fun _ => rfl) (fun h => nomatch h) (fun _ => rfl) (fun _ => rfl) (fun _ => rfl) (fun _ => rfl)
theorem upd_angvm {s : State} {x0 : Int} : Touch 0x1000 s (mkS s.regs s.core (AngSt.mk s.ang.key s.ang.speed x0 s.ang.src s.ang.differ s.ang.run s.ang.ever s.ang.resume) s.sch s.law s.mot s.lane s.edge s.net s.time s.pair s.safe s.boot s.host s.freeCtr s.pending) :=
  touch_ang (fun _ => rfl) (fun _ => rfl) (fun h => nomatch h) (fun _ => rfl) (fun _ => rfl) (fun _ => rfl) (fun _ => rfl) (fun _ => rfl)
theorem upd_bootautoWait {s : State} {x0 : List Nat} : Touch 0x40000000000000000000000000000 s (mkS s.regs s.core s.ang s.sch s.law s.mot s.lane s.edge s.net s.time s.pair s.safe (BootSt.mk s.boot.flash s.boot.img s.boot.modes x0 s.boot.bank s.boot.load s.boot.travel s.boot.lanes s.boot.recorded s.boot.test s.boot.ftmWait s.boot.held s.boot.ended) s.host s.freeCtr s.pending) :=
  touch_boot (fun _ => rfl) (fun _ => rfl) (fun _ => rfl) (fun h => nomatch h) (fun _ => rfl) (fun _ => rfl) (fun _ => rfl) (fun _ => rfl) (fun _ => rfl) (fun _ => rfl) (fun _ => rfl) (fun _ => rfl) (fun _ => rfl)
theorem upd_bootbank {s : State} {x0 : Tbl Recipe} : Touch 0x80000000000000000000000000000 s (mkS s.regs s.core s.ang s.sch s.law s.mot s.lane s.edge s.net s.time s.pair s.safe (BootSt.mk s.boot.flash s.boot.img s.boot.modes s.boot.autoWait x0 s.boot.load s.boot.travel s.boot.lanes s.boot.recorded s.boot.test s.boot.ftmWait s.boot.held s.boot.ended) s.host s.freeCtr s.pending) :=
  touch_boot (fun _ => rfl) (fun _ => rfl) (fun _ => rfl) (fun _ => rfl) (fun h => nomatch h) (fun _ => rfl) (fun _ => rfl) (fun _ => rfl) (fun _ => rfl) (fun _ => rfl) (fun _ => rfl) (fun _ => rfl) (fun _ => rfl)
theorem upd_bootbank_bootload {s : State} {x0 : Tbl Recipe} {x1 : Option (Nat × Nat)} : Touch 0x180000000000000000000000000000 s (mkS s.regs s.core s.ang s.sch s.law s.mot s.lane s.edge s.net s.time s.pair s.safe (BootSt.mk s.boot.flash s.boot.img s.boot.modes s.boot.autoWait x0 x1 s.boot.travel s.boot.lanes s.boot.recorded s.boot.test s.boot.ftmWait s.boot.held s.boot.ended) s.host s.freeCtr s.pending) :=
  touch_boot (fun _ => rfl) (fun _ => rfl) (fun _ => rfl) (fun _ => rfl) (fun h => nomatch h) (fun h => nomatch h) (fun _ => rfl) (fun _ => rfl) (fun _ => rfl) (fun _ => rfl) (fun _ => rfl) (fun _ => rfl) (fun _ => rfl)
theorem upd_bootended {s : State} {x0 : Option (Nat × Nat × Nat)} : Touch 0x8000000000000000000000000000000 s (mkS s.regs s.core s.ang s.sch s.law s.mot s.lane s.edge s.net s.time s.pair s.safe (BootSt.mk s.boot.flash s.boot.img s.boot.modes s.boot.autoWait s.boot.bank s.boot.load s.boot.travel s.boot.lanes s.boot.recorded s.boot.test s.boot.ftmWait s.boot.held x0) s.host s.freeCtr s.pending) :=
  touch_boot (fun _ => rfl) (fun _ => rfl) (fun _ => rfl) (fun _ => rfl) (fun _ => rfl) (fun _ => rfl) (fun _ => rfl) (fun _ => rfl) (fun _ => rfl) (fun _ => rfl) (fun _ => rfl) (fun _ => rfl) (fun h => nomatch h)
theorem upd_bootended_bootload_boottravel_host_schins {s : State} {x0 : Option (Nat × Nat × Nat)} {x1 : Option (Nat × Nat)} {x2 : Option (Nat × Nat × Nat)} {x3 : HostSt} {x4 : Tbl (Option InsOp)} : Touch 0x3ffff8300000000000000000000000100000 s (mkS s.regs s.core s.ang (SchSt.mk s.sch.started s.sch.dl x4 s.sch.placed s.sch.held s.sch.ready s.sch.unit s.sch.ovr s.sch.ovrHere s.sch.dlStat s.sch.rlStat s.sch.waitStat s.sch.sampled s.sch.published) s.law s.mot s.lane s.edge s.net s.time s.pair s.safe (BootSt.mk s.boot.flash s.boot.img s.boot.modes s.boot.autoWait s.boot.bank x1 x2 s.boot.lanes s.boot.recorded s.boot.test s.boot.ftmWait s.boot.held x0) x3 s.freeCtr s.pending) :=
  touch_of (by intro p hp; cases p <;> first | rfl | exact absurd hp (by decide)) rfl rfl rfl
theorem upd_bootflash {s : State} {x0 : Flash} : Touch 0x8000000000000000000000000000 s (mkS s.regs s.core s.ang s.sch s.law s.mot s.lane s.edge s.net s.time s.pair s.safe (BootSt.mk x0 s.boot.img s.boot.modes s.boot.autoWait s.boot.bank s.boot.load s.boot.travel s.boot.lanes s.boot.recorded s.boot.test s.boot.ftmWait s.boot.held s.boot.ended) s.host s.freeCtr s.pending) :=
  touch_boot (fun h => nomatch h) (fun _ => rfl) (fun _ => rfl) (fun _ => rfl) (fun _ => rfl) (fun _ => rfl) (fun _ => rfl) (fun _ => rfl) (fun _ => rfl) (fun _ => rfl) (fun _ => rfl) (fun _ => rfl) (fun _ => rfl)
theorem upd_bootftmWait {s : State} {x0 : Option (BitVec 4 × List Nat)} : Touch 0x2000000000000000000000000000000 s (mkS s.regs s.core s.ang s.sch s.law s.mot s.lane s.edge s.net s.time s.pair s.safe (BootSt.mk s.boot.flash s.boot.img s.boot.modes s.boot.autoWait s.boot.bank s.boot.load s.boot.travel s.boot.lanes s.boot.recorded s.boot.test x0 s.boot.held s.boot.ended) s.host s.freeCtr s.pending) :=
  touch_boot (fun _ => rfl) (fun _ => rfl) (fun _ => rfl) (fun _ => rfl) (fun _ => rfl) (fun _ => rfl) (fun _ => rfl) (fun _ => rfl) (fun _ => rfl) (fun _ => rfl) (fun h => nomatch h) (fun _ => rfl) (fun _ => rfl)
theorem upd_bootheld {s : State} {x0 : Bool} : Touch 0x4000000000000000000000000000000 s (mkS s.regs s.core s.ang s.sch s.law s.mot s.lane s.edge s.net s.time s.pair s.safe (BootSt.mk s.boot.flash s.boot.img s.boot.modes s.boot.autoWait s.boot.bank s.boot.load s.boot.travel s.boot.lanes s.boot.recorded s.boot.test s.boot.ftmWait x0 s.boot.ended) s.host s.freeCtr s.pending) :=
  touch_boot (fun _ => rfl) (fun _ => rfl) (fun _ => rfl) (fun _ => rfl) (fun _ => rfl) (fun _ => rfl) (fun _ => rfl) (fun _ => rfl) (fun _ => rfl) (fun _ => rfl) (fun _ => rfl) (fun h => nomatch h) (fun _ => rfl)
theorem upd_bootimg {s : State} {x0 : List (Nat × Word)} : Touch 0x10000000000000000000000000000 s (mkS s.regs s.core s.ang s.sch s.law s.mot s.lane s.edge s.net s.time s.pair s.safe (BootSt.mk s.boot.flash x0 s.boot.modes s.boot.autoWait s.boot.bank s.boot.load s.boot.travel s.boot.lanes s.boot.recorded s.boot.test s.boot.ftmWait s.boot.held s.boot.ended) s.host s.freeCtr s.pending) :=
  touch_boot (fun _ => rfl) (fun h => nomatch h) (fun _ => rfl) (fun _ => rfl) (fun _ => rfl) (fun _ => rfl) (fun _ => rfl) (fun _ => rfl) (fun _ => rfl) (fun _ => rfl) (fun _ => rfl) (fun _ => rfl) (fun _ => rfl)
theorem upd_bootlanes {s : State} {x0 : List (Nat × LaneTask)} : Touch 0x400000000000000000000000000000 s (mkS s.regs s.core s.ang s.sch s.law s.mot s.lane s.edge s.net s.time s.pair s.safe (BootSt.mk s.boot.flash s.boot.img s.boot.modes s.boot.autoWait s.boot.bank s.boot.load s.boot.travel x0 s.boot.recorded s.boot.test s.boot.ftmWait s.boot.held s.boot.ended) s.host s.freeCtr s.pending) :=
  touch_boot (fun _ => rfl) (fun _ => rfl) (fun _ => rfl) (fun _ => rfl) (fun _ => rfl) (fun _ => rfl) (fun _ => rfl) (fun h => nomatch h) (fun _ => rfl) (fun _ => rfl) (fun _ => rfl) (fun _ => rfl) (fun _ => rfl)
theorem upd_bootload {s : State} {x0 : Option (Nat × Nat)} : Touch 0x100000000000000000000000000000 s (mkS s.regs s.core s.ang s.sch s.law s.mot s.lane s.edge s.net s.time s.pair s.safe (BootSt.mk s.boot.flash s.boot.img s.boot.modes s.boot.autoWait s.boot.bank x0 s.boot.travel s.boot.lanes s.boot.recorded s.boot.test s.boot.ftmWait s.boot.held s.boot.ended) s.host s.freeCtr s.pending) :=
  touch_boot (fun _ => rfl) (fun _ => rfl) (fun _ => rfl) (fun _ => rfl) (fun _ => rfl) (fun h => nomatch h) (fun _ => rfl) (fun _ => rfl) (fun _ => rfl) (fun _ => rfl) (fun _ => rfl) (fun _ => rfl) (fun _ => rfl)
theorem upd_bootrecorded {s : State} {x0 : Bool} : Touch 0x800000000000000000000000000000 s (mkS s.regs s.core s.ang s.sch s.law s.mot s.lane s.edge s.net s.time s.pair s.safe (BootSt.mk s.boot.flash s.boot.img s.boot.modes s.boot.autoWait s.boot.bank s.boot.load s.boot.travel s.boot.lanes x0 s.boot.test s.boot.ftmWait s.boot.held s.boot.ended) s.host s.freeCtr s.pending) :=
  touch_boot (fun _ => rfl) (fun _ => rfl) (fun _ => rfl) (fun _ => rfl) (fun _ => rfl) (fun _ => rfl) (fun _ => rfl) (fun _ => rfl) (fun h => nomatch h) (fun _ => rfl) (fun _ => rfl) (fun _ => rfl) (fun _ => rfl)
theorem upd_boottest {s : State} {x0 : BitVec 2} : Touch 0x1000000000000000000000000000000 s (mkS s.regs s.core s.ang s.sch s.law s.mot s.lane s.edge s.net s.time s.pair s.safe (BootSt.mk s.boot.flash s.boot.img s.boot.modes s.boot.autoWait s.boot.bank s.boot.load s.boot.travel s.boot.lanes s.boot.recorded x0 s.boot.ftmWait s.boot.held s.boot.ended) s.host s.freeCtr s.pending) :=
  touch_boot (fun _ => rfl) (fun _ => rfl) (fun _ => rfl) (fun _ => rfl) (fun _ => rfl) (fun _ => rfl) (fun _ => rfl) (fun _ => rfl) (fun _ => rfl) (fun h => nomatch h) (fun _ => rfl) (fun _ => rfl) (fun _ => rfl)
theorem upd_boottravel {s : State} {x0 : Option (Nat × Nat × Nat)} : Touch 0x200000000000000000000000000000 s (mkS s.regs s.core s.ang s.sch s.law s.mot s.lane s.edge s.net s.time s.pair s.safe (BootSt.mk s.boot.flash s.boot.img s.boot.modes s.boot.autoWait s.boot.bank s.boot.load x0 s.boot.lanes s.boot.recorded s.boot.test s.boot.ftmWait s.boot.held s.boot.ended) s.host s.freeCtr s.pending) :=
  touch_boot (fun _ => rfl) (fun _ => rfl) (fun _ => rfl) (fun _ => rfl) (fun _ => rfl) (fun _ => rfl) (fun h => nomatch h) (fun _ => rfl) (fun _ => rfl) (fun _ => rfl) (fun _ => rfl) (fun _ => rfl) (fun _ => rfl)
theorem upd_coreboost_corelostS {s : State} {x0 : Bool} {x1 : Bool} : Touch 0x28 s (mkS s.regs (CoreSt.mk s.core.sinceS s.core.sinceC s.core.repeats x1 s.core.lostC x0 s.core.ctx s.core.fb s.core.region s.core.measured) s.ang s.sch s.law s.mot s.lane s.edge s.net s.time s.pair s.safe s.boot s.host s.freeCtr s.pending) :=
  touch_core (fun _ => rfl) (fun _ => rfl) (fun _ => rfl) (fun h => nomatch h) (fun _ => rfl) (fun h => nomatch h) (fun _ => rfl) (fun _ => rfl) (fun _ => rfl) (fun _ => rfl)
theorem upd_corectx {s : State} {x0 : Tbl Ctx} : Touch 0x40 s (mkS s.regs (CoreSt.mk s.core.sinceS s.core.sinceC s.core.repeats s.core.lostS s.core.lostC s.core.boost x0 s.core.fb s.core.region s.core.measured) s.ang s.sch s.law s.mot s.lane s.edge s.net s.time s.pair s.safe s.boot s.host s.freeCtr s.pending) :=
  touch_core (fun _ => rfl) (fun _ => rfl) (fun _ => rfl) (fun _ => rfl) (fun _ => rfl) (fun _ => rfl) (fun h => nomatch h) (fun _ => rfl) (fun _ => rfl) (fun _ => rfl)
theorem upd_corefb {s : State} {x0 : Tbl Fb} : Touch 0x80 s (mkS s.regs (CoreSt.mk s.core.sinceS s.core.sinceC s.core.repeats s.core.lostS s.core.lostC s.core.boost s.core.ctx x0 s.core.region s.core.measured) s.ang s.sch s.law s.mot s.lane s.edge s.net s.time s.pair s.safe s.boot s.host s.freeCtr s.pending) :=
  touch_core (fun _ => rfl) (fun _ => rfl) (fun _ => rfl) (fun _ => rfl) (fun _ => rfl) (fun _ => rfl) (fun _ => rfl) (fun h => nomatch h) (fun _ => rfl) (fun _ => rfl)
theorem upd_corelostC {s : State} {x0 : Bool} : Touch 0x10 s (mkS s.regs (CoreSt.mk s.core.sinceS s.core.sinceC s.core.repeats s.core.lostS x0 s.core.boost s.core.ctx s.core.fb s.core.region s.core.measured) s.ang s.sch s.law s.mot s.lane s.edge s.net s.time s.pair s.safe s.boot s.host s.freeCtr s.pending) :=
  touch_core (fun _ => rfl) (fun _ => rfl) (fun _ => rfl) (fun _ => rfl) (fun h => nomatch h) (fun _ => rfl) (fun _ => rfl) (fun _ => rfl) (fun _ => rfl) (fun _ => rfl)
theorem upd_coremeasured {s : State} {x0 : Bool} : Touch 0x200 s (mkS s.regs (CoreSt.mk s.core.sinceS s.core.sinceC s.core.repeats s.core.lostS s.core.lostC s.core.boost s.core.ctx s.core.fb s.core.region x0) s.ang s.sch s.law s.mot s.lane s.edge s.net s.time s.pair s.safe s.boot s.host s.freeCtr s.pending) :=
  touch_core (fun _ => rfl) (fun _ => rfl) (fun _ => rfl) (fun _ => rfl) (fun _ => rfl) (fun _ => rfl) (fun _ => rfl) (fun _ => rfl) (fun _ => rfl) (fun h => nomatch h)
theorem upd_coreregion {s : State} {x0 : Tbl Region} : Touch 0x100 s (mkS s.regs (CoreSt.mk s.core.sinceS s.core.sinceC s.core.repeats s.core.lostS s.core.lostC s.core.boost s.core.ctx s.core.fb x0 s.core.measured) s.ang s.sch s.law s.mot s.lane s.edge s.net s.time s.pair s.safe s.boot s.host s.freeCtr s.pending) :=
  touch_core (fun _ => rfl) (fun _ => rfl) (fun _ => rfl) (fun _ => rfl) (fun _ => rfl) (fun _ => rfl) (fun _ => rfl) (fun _ => rfl) (fun h => nomatch h) (fun _ => rfl)
theorem upd_corerepeats {s : State} {x0 : Nat} : Touch 0x4 s (mkS s.regs (CoreSt.mk s.core.sinceS s.core.sinceC x0 s.core.lostS s.core.lostC s.core.boost s.core.ctx s.core.fb s.core.region s.core.measured) s.ang s.sch s.law s.mot s.lane s.edge s.net s.time s.pair s.safe s.boot s.host s.freeCtr s.pending) :=
  touch_core (fun _ => rfl) (fun _ => rfl) (fun h => nomatch h) (fun _ => rfl) (fun _ => rfl) (fun _ => rfl) (fun _ => rfl) (fun _ => rfl) (fun _ => rfl) (fun _ => rfl)
theorem upd_coresinceC {s : State} {x0 : Nat} : Touch 0x2 s (mkS s.regs (CoreSt.mk s.core.sinceS x0 s.core.repeats s.core.lostS s.core.lostC s.core.boost s.core.ctx s.core.fb s.core.region s.core.measured) s.ang s.sch s.law s.mot s.lane s.edge s.net s.time s.pair s.safe s.boot s.host s.freeCtr s.pending) :=
  touch_core (fun _ => rfl) (fun h => nomatch h) (fun _ => rfl) (fun _ => rfl) (fun _ => rfl) (fun _ => rfl) (fun _ => rfl) (fun _ => rfl) (fun _ => rfl) (fun _ => rfl)
theorem upd_coresinceC_coresinceS {s : State} {x0 : Nat} {x1 : Nat} : Touch 0x3 s (mkS s.regs (CoreSt.mk x1 x0 s.core.repeats s.core.lostS s.core.lostC s.core.boost s.core.ctx s.core.fb s.core.region s.core.measured) s.ang s.sch s.law s.mot s.lane s.edge s.net s.time s.pair s.safe s.boot s.host s.freeCtr s.pending) :=
  touch_core (fun h => nomatch h) (fun h => nomatch h) (fun _ => rfl) (fun _ => rfl) (fun _ => rfl) (fun _ => rfl) (fun _ => rfl) (fun _ => rfl) (fun _ => rfl) (fun _ => rfl)
theorem upd_coresinceS {s : State} {x0 : Nat} : Touch 0x1 s (mkS s.regs (CoreSt.mk x0 s.core.sinceC s.core.repeats s.core.lostS s.core.lostC s.core.boost s.core.ctx s.core.fb s.core.region s.core.measured) s.ang s.sch s.law s.mot s.lane s.edge s.net s.time s.pair s.safe s.boot s.host s.freeCtr s.pending) :=
  touch_core (fun h => nomatch h) (fun _ => rfl) (fun _ => rfl) (fun _ => rfl) (fun _ => rfl) (fun _ => rfl) (fun _ => rfl) (fun _ => rfl) (fun _ => rfl) (fun _ => rfl)
theorem upd_edgeenc {s : State} {x0 : Tbl EncSt} : Touch 0x400000000000 s (mkS s.regs s.core s.ang s.sch s.law s.mot s.lane (EdgeSt.mk s.edge.chan s.edge.wait s.edge.fly s.edge.frozen s.edge.out x0 s.edge.still) s.net s.time s.pair s.safe s.boot s.host s.freeCtr s.pending) :=
  touch_edge rfl (fun _ => rfl) (fun _ => rfl) (fun _ => rfl) (fun _ => rfl) (fun h => nomatch h) (fun _ => rfl)
theorem upd_edgefly {s : State} {x0 : List (Nat × Word)} : Touch 0x80000000000 s (mkS s.regs s.core s.ang s.sch s.law s.mot s.lane (EdgeSt.mk s.edge.chan s.edge.wait x0 s.edge.frozen s.edge.out s.edge.enc s.edge.still) s.net s.time s.pair s.safe s.boot s.host s.freeCtr s.pending) :=
  touch_edge rfl (fun _ => rfl) (fun h => nomatch h) (fun _ => rfl) (fun _ => rfl) (fun _ => rfl) (fun _ => rfl)
theorem upd_edgefrozen {s : State} {x0 : Bool} : Touch 0x100000000000 s (mkS s.regs s.core s.ang s.sch s.law s.mot s.lane (EdgeSt.mk s.edge.chan s.edge.wait s.edge.fly x0 s.edge.out s.edge.enc s.edge.still) s.net s.time s.pair s.safe s.boot s.host s.freeCtr s.pending) :=
  touch_edge rfl (fun _ => rfl) (fun _ => rfl) (fun h => nomatch h) (fun _ => rfl) (fun _ => rfl) (fun _ => rfl)
theorem upd_edgeout {s : State} {x0 : Tbl TOut} : Touch 0x200000000000 s (mkS s.regs s.core s.ang s.sch s.law s.mot s.lane (EdgeSt.mk s.edge.chan s.edge.wait s.edge.fly s.edge.frozen x0 s.edge.enc s.edge.still) s.net s.time s.pair s.safe s.boot s.host s.freeCtr s.pending) :=
  touch_edge rfl (fun _ => rfl) (fun _ => rfl) (fun _ => rfl) (fun h => nomatch h) (fun _ => rfl) (fun _ => rfl)
theorem upd_edgestill {s : State} {x0 : Tbl Still} : Touch 0x800000000000 s (mkS s.regs s.core s.ang s.sch s.law s.mot s.lane (EdgeSt.mk s.edge.chan s.edge.wait s.edge.fly s.edge.frozen s.edge.out s.edge.enc x0) s.net s.time s.pair s.safe s.boot s.host s.freeCtr s.pending) :=
  touch_edge rfl (fun _ => rfl) (fun _ => rfl) (fun _ => rfl) (fun _ => rfl) (fun _ => rfl) (fun h => nomatch h)
theorem upd_edgewait {s : State} {x0 : List Nat} : Touch 0x40000000000 s (mkS s.regs s.core s.ang s.sch s.law s.mot s.lane (EdgeSt.mk s.edge.chan x0 s.edge.fly s.edge.frozen s.edge.out s.edge.enc s.edge.still) s.net s.time s.pair s.safe s.boot s.host s.freeCtr s.pending) :=
  touch_edge rfl (fun h => nomatch h) (fun _ => rfl) (fun _ => rfl) (fun _ => rfl) (fun _ => rfl) (fun _ => rfl)
theorem upd_freeCtr {s : State} {x0 : Nat} : Touch 0x400000000000000000000000000000000000 s (mkS s.regs s.core s.ang s.sch s.law s.mot s.lane s.edge s.net s.time s.pair s.safe s.boot s.host x0 s.pending) :=
  touch_free (by decide)
theorem upd_hostacc {s : State} {x0 : Nat × Word} : Touch 0x200000000000000000000000000000000000 s (mkS s.regs s.core s.ang s.sch s.law s.mot s.lane s.edge s.net s.time s.pair s.safe s.boot (HostSt.mk s.host.port s.host.sessions s.host.lastSess s.host.latch s.host.staged s.host.insReg s.host.log s.host.nvm s.host.merge s.host.seq s.host.sub s.host.lost s.host.fi s.host.img s.host.spiOut s.host.ethTx s.host.rgmii x0) s.freeCtr s.pending) :=
  touch_host (fun _ => rfl) (fun _ => rfl) (fun _ => rfl) (fun _ => rfl) (fun _ => rfl) (fun _ => rfl) (fun _ => rfl) (fun _ => rfl) (fun _ => rfl) (fun _ => rfl) (fun _ => rfl) (fun _ => rfl) (fun _ => rfl) (fun _ => rfl) (fun _ => rfl) (fun _ => rfl) (fun _ => rfl) (fun h => nomatch h)
theorem upd_hostethTx {s : State} {x0 : List (BitVec 8)} : Touch 0x80000000000000000000000000000000000 s (mkS s.regs s.core s.ang s.sch s.law s.mot s.lane s.edge s.net s.time s.pair s.safe s.boot (HostSt.mk s.host.port s.host.sessions s.host.lastSess s.host.latch s.host.staged s.host.insReg s.host.log s.host.nvm s.host.merge s.host.seq s.host.sub s.host.lost s.host.fi s.host.img s.host.spiOut x0 s.host.rgmii s.host.acc) s.freeCtr s.pending) :=
  touch_host (fun _ => rfl) (fun _ => rfl) (fun _ => rfl) (fun _ => rfl) (fun _ => rfl) (fun _ => rfl) (fun _ => rfl) (fun _ => rfl) (fun _ => rfl) (fun _ => rfl) (fun _ => rfl) (fun _ => rfl) (fun _ => rfl) (fun _ => rfl) (fun _ => rfl) (fun h => nomatch h) (fun _ => rfl) (fun _ => rfl)
theorem upd_hostfi {s : State} {x0 : Option (Nat × Nat × Nat)} : Touch 0x10000000000000000000000000000000000 s (mkS s.regs s.core s.ang s.sch s.law s.mot s.lane s.edge s.net s.time s.pair s.safe s.boot (HostSt.mk s.host.port s.host.sessions s.host.lastSess s.host.latch s.host.staged s.host.insReg s.host.log s.host.nvm s.host.merge s.host.seq s.host.sub s.host.lost x0 s.host.img s.host.spiOut s.host.ethTx s.host.rgmii s.host.acc) s.freeCtr s.pending) :=
  touch_host (fun _ => rfl) (fun _ => rfl) (fun _ => rfl) (fun _ => rfl) (fun _ => rfl) (fun _ => rfl) (fun _ => rfl) (fun _ => rfl) (fun _ => rfl) (fun _ => rfl) (fun _ => rfl) (fun _ => rfl) (fun h => nomatch h) (fun _ => rfl) (fun _ => rfl) (fun _ => rfl) (fun _ => rfl) (fun _ => rfl)
theorem upd_hostimg {s : State} {x0 : Option ImgRx} : Touch 0x20000000000000000000000000000000000 s (mkS s.regs s.core s.ang s.sch s.law s.mot s.lane s.edge s.net s.time s.pair s.safe s.boot (HostSt.mk s.host.port s.host.sessions s.host.lastSess s.host.latch s.host.staged s.host.insReg s.host.log s.host.nvm s.host.merge s.host.seq s.host.sub s.host.lost s.host.fi x0 s.host.spiOut s.host.ethTx s.host.rgmii s.host.acc) s.freeCtr s.pending) :=
  touch_host (fun _ => rfl) (fun _ => rfl) (fun _ => rfl) (fun _ => rfl) (fun _ => rfl) (fun _ => rfl) (fun _ => rfl) (fun _ => rfl) (fun _ => rfl) (fun _ => rfl) (fun _ => rfl) (fun _ => rfl) (fun _ => rfl) (fun h => nomatch h) (fun _ => rfl) (fun _ => rfl) (fun _ => rfl) (fun _ => rfl)
theorem upd_hostinsReg {s : State} {x0 : Tbl Word} : Touch 0x200000000000000000000000000000000 s (mkS s.regs s.core s.ang s.sch s.law s.mot s.lane s.edge s.net s.time s.pair s.safe s.boot (HostSt.mk s.host.port s.host.sessions s.host.lastSess s.host.latch s.host.staged x0 s.host.log s.host.nvm s.host.merge s.host.seq s.host.sub s.host.lost s.host.fi s.host.img s.host.spiOut s.host.ethTx s.host.rgmii s.host.acc) s.freeCtr s.pending) :=
  touch_host (fun _ => rfl) (fun _ => rfl) (fun _ => rfl) (fun _ => rfl) (fun _ => rfl) (fun h => nomatch h) (fun _ => rfl) (fun _ => rfl) (fun _ => rfl) (fun _ => rfl) (fun _ => rfl) (fun _ => rfl) (fun _ => rfl) (fun _ => rfl) (fun _ => rfl) (fun _ => rfl) (fun _ => rfl) (fun _ => rfl)
theorem upd_hostinsReg_hostlatch_hoststaged {s : State} {x0 : Tbl Word} {x1 : Tbl Word} {x2 : Tbl (Option Word)} : Touch 0x380000000000000000000000000000000 s (mkS s.regs s.core s.ang s.sch s.law s.mot s.lane s.edge s.net s.time s.pair s.safe s.boot (HostSt.mk s.host.port s.host.sessions s.host.lastSess x1 x2 x0 s.host.log s.host.nvm s.host.merge s.host.seq s.host.sub s.host.lost s.host.fi s.host.img s.host.spiOut s.host.ethTx s.host.rgmii s.host.acc) s.freeCtr s.pending) :=
  touch_host (fun _ => rfl) (fun _ => rfl) (fun _ => rfl) (fun h => nomatch h) (fun h => nomatch h) (fun h => nomatch h) (fun _ => rfl) (fun _ => rfl) (fun _ => rfl) (fun _ => rfl) (fun _ => rfl) (fun _ => rfl) (fun _ => rfl) (fun _ => rfl) (fun _ => rfl) (fun _ => rfl) (fun _ => rfl) (fun _ => rfl)
theorem upd_hostlastSess_hostsessions {s : State} {x0 : Nat} {x1 : List Session} : Touch 0x60000000000000000000000000000000 s (mkS s.regs s.core s.ang s.sch s.law s.mot s.lane s.edge s.net s.time s.pair s.safe s.boot (HostSt.mk s.host.port x1 x0 s.host.latch s.host.staged s.host.insReg s.host.log s.host.nvm s.host.merge s.host.seq s.host.sub s.host.lost s.host.fi s.host.img s.host.spiOut s.host.ethTx s.host.rgmii s.host.acc) s.freeCtr s.pending) :=
  touch_host (fun _ => rfl) (fun h => nomatch h) (fun h => nomatch h) (fun _ => rfl) (fun _ => rfl) (fun _ => rfl) (fun _ => rfl) (fun _ => rfl) (fun _ => rfl) (fun _ => rfl) (fun _ => rfl) (fun _ => rfl) (fun _ => rfl) (fun _ => rfl) (fun _ => rfl) (fun _ => rfl) (fun _ => rfl) (fun _ => rfl)
theorem upd_hostlatch {s : State} {x0 : Tbl Word} : Touch 0x80000000000000000000000000000000 s (mkS s.regs s.core s.ang s.sch s.law s.mot s.lane s.edge s.net s.time s.pair s.safe s.boot (HostSt.mk s.host.port s.host.sessions s.host.lastSess x0 s.host.staged s.host.insReg s.host.log s.host.nvm s.host.merge s.host.seq s.host.sub s.host.lost s.host.fi s.host.img s.host.spiOut s.host.ethTx s.host.rgmii s.host.acc) s.freeCtr s.pending) :=
  touch_host (fun _ => rfl) (fun _ => rfl) (fun _ => rfl) (fun h => nomatch h) (fun _ => rfl) (fun _ => rfl) (fun _ => rfl) (fun _ => rfl) (fun _ => rfl) (fun _ => rfl) (fun _ => rfl) (fun _ => rfl) (fun _ => rfl) (fun _ => rfl) (fun _ => rfl) (fun _ => rfl) (fun _ => rfl) (fun _ => rfl)
theorem upd_hostlog_hostseq_hostsub {s : State} {x0 : List LogRec} {x1 : Nat} {x2 : Nat} : Touch 0x6400000000000000000000000000000000 s (mkS s.regs s.core s.ang s.sch s.law s.mot s.lane s.edge s.net s.time s.pair s.safe s.boot (HostSt.mk s.host.port s.host.sessions s.host.lastSess s.host.latch s.host.staged s.host.insReg x0 s.host.nvm s.host.merge x1 x2 s.host.lost s.host.fi s.host.img s.host.spiOut s.host.ethTx s.host.rgmii s.host.acc) s.freeCtr s.pending) :=
  touch_host (fun _ => rfl) (fun _ => rfl) (fun _ => rfl) (fun _ => rfl) (fun _ => rfl) (fun _ => rfl) (fun h => nomatch h) (fun _ => rfl) (fun _ => rfl) (fun h => nomatch h) (fun h => nomatch h) (fun _ => rfl) (fun _ => rfl) (fun _ => rfl) (fun _ => rfl) (fun _ => rfl) (fun _ => rfl) (fun _ => rfl)
theorem upd_hostlost {s : State} {x0 : Nat} : Touch 0x8000000000000000000000000000000000 s (mkS s.regs s.core s.ang s.sch s.law s.mot s.lane s.edge s.net s.time s.pair s.safe s.boot (HostSt.mk s.host.port s.host.sessions s.host.lastSess s.host.latch s.host.staged s.host.insReg s.host.log s.host.nvm s.host.merge s.host.seq s.host.sub x0 s.host.fi s.host.img s.host.spiOut s.host.ethTx s.host.rgmii s.host.acc) s.freeCtr s.pending) :=
  touch_host (fun _ => rfl) (fun _ => rfl) (fun _ => rfl) (fun _ => rfl) (fun _ => rfl) (fun _ => rfl) (fun _ => rfl) (fun _ => rfl) (fun _ => rfl) (fun _ => rfl) (fun _ => rfl) (fun h => nomatch h) (fun _ => rfl) (fun _ => rfl) (fun _ => rfl) (fun _ => rfl) (fun _ => rfl) (fun _ => rfl)
theorem upd_hostmerge {s : State} {x0 : List LogRec} : Touch 0x1000000000000000000000000000000000 s (mkS s.regs s.core s.ang s.sch s.law s.mot s.lane s.edge s.net s.time s.pair s.safe s.boot (HostSt.mk s.host.port s.host.sessions s.host.lastSess s.host.latch s.host.staged s.host.insReg s.host.log s.host.nvm x0 s.host.seq s.host.sub s.host.lost s.host.fi s.host.img s.host.spiOut s.host.ethTx s.host.rgmii s.host.acc) s.freeCtr s.pending) :=
  touch_host (fun _ => rfl) (fun _ => rfl) (fun _ => rfl) (fun _ => rfl) (fun _ => rfl) (fun _ => rfl) (fun _ => rfl) (fun _ => rfl) (fun h => nomatch h) (fun _ => rfl) (fun _ => rfl) (fun _ => rfl) (fun _ => rfl) (fun _ => rfl) (fun _ => rfl) (fun _ => rfl) (fun _ => rfl) (fun _ => rfl)
theorem upd_hostnvm {s : State} {x0 : List LogRec} : Touch 0x800000000000000000000000000000000 s (mkS s.regs s.core s.ang s.sch s.law s.mot s.lane s.edge s.net s.time s.pair s.safe s.boot (HostSt.mk s.host.port s.host.sessions s.host.lastSess s.host.latch s.host.staged s.host.insReg s.host.log x0 s.host.merge s.host.seq s.host.sub s.host.lost s.host.fi s.host.img s.host.spiOut s.host.ethTx s.host.rgmii s.host.acc) s.freeCtr s.pending) :=
  touch_host (fun _ => rfl) (fun _ => rfl) (fun _ => rfl) (fun _ => rfl) (fun _ => rfl) (fun _ => rfl) (fun _ => rfl) (fun h => nomatch h) (fun _ => rfl) (fun _ => rfl) (fun _ => rfl) (fun _ => rfl) (fun _ => rfl) (fun _ => rfl) (fun _ => rfl) (fun _ => rfl) (fun _ => rfl) (fun _ => rfl)
theorem upd_hostport {s : State} {x0 : Tbl HPort} : Touch 0x10000000000000000000000000000000 s (mkS s.regs s.core s.ang s.sch s.law s.mot s.lane s.edge s.net s.time s.pair s.safe s.boot (HostSt.mk x0 s.host.sessions s.host.lastSess s.host.latch s.host.staged s.host.insReg s.host.log s.host.nvm s.host.merge s.host.seq s.host.sub s.host.lost s.host.fi s.host.img s.host.spiOut s.host.ethTx s.host.rgmii s.host.acc) s.freeCtr s.pending) :=
  touch_host (fun h => nomatch h) (fun _ => rfl) (fun _ => rfl) (fun _ => rfl) (fun _ => rfl) (fun _ => rfl) (fun _ => rfl) (fun _ => rfl) (fun _ => rfl) (fun _ => rfl) (fun _ => rfl) (fun _ => rfl) (fun _ => rfl) (fun _ => rfl) (fun _ => rfl) (fun _ => rfl) (fun _ => rfl) (fun _ => rfl)
theorem upd_hostrgmii {s : State} {x0 : Bool × Nat × Bool} : Touch 0x100000000000000000000000000000000000 s (mkS s.regs s.core s.ang s.sch s.law s.mot s.lane s.edge s.net s.time s.pair s.safe s.boot (HostSt.mk s.host.port s.host.sessions s.host.lastSess s.host.latch s.host.staged s.host.insReg s.host.log s.host.nvm s.host.merge s.host.seq s.host.sub s.host.lost s.host.fi s.host.img s.host.spiOut s.host.ethTx x0 s.host.acc) s.freeCtr s.pending) :=
  touch_host (fun _ => rfl) (fun _ => rfl) (fun _ => rfl) (fun _ => rfl) (fun _ => rfl) (fun _ => rfl) (fun _ => rfl) (fun _ => rfl) (fun _ => rfl) (fun _ => rfl) (fun _ => rfl) (fun _ => rfl) (fun _ => rfl) (fun _ => rfl) (fun _ => rfl) (fun _ => rfl) (fun h => nomatch h) (fun _ => rfl)
theorem upd_hostseq_hostsub {s : State} {x0 : Nat} {x1 : Nat} : Touch 0x6000000000000000000000000000000000 s (mkS s.regs s.core s.ang s.sch s.law s.mot s.lane s.edge s.net s.time s.pair s.safe s.boot (HostSt.mk s.host.port s.host.sessions s.host.lastSess s.host.latch s.host.staged s.host.insReg s.host.log s.host.nvm s.host.merge x0 x1 s.host.lost s.host.fi s.host.img s.host.spiOut s.host.ethTx s.host.rgmii s.host.acc) s.freeCtr s.pending) :=
  touch_host (fun _ => rfl) (fun _ => rfl) (fun _ => rfl) (fun _ => rfl) (fun _ => rfl) (fun _ => rfl) (fun _ => rfl) (fun _ => rfl) (fun _ => rfl) (fun h => nomatch h) (fun h => nomatch h) (fun _ => rfl) (fun _ => rfl) (fun _ => rfl) (fun _ => rfl) (fun _ => rfl) (fun _ => rfl) (fun _ => rfl)
theorem upd_hostsessions {s : State} {x0 : List Session} : Touch 0x20000000000000000000000000000000 s (mkS s.regs s.core s.ang s.sch s.law s.mot s.lane s.edge s.net s.time s.pair s.safe s.boot (HostSt.mk s.host.port x0 s.host.lastSess s.host.latch s.host.staged s.host.insReg s.host.log s.host.nvm s.host.merge s.host.seq s.host.sub s.host.lost s.host.fi s.host.img s.host.spiOut s.host.ethTx s.host.rgmii s.host.acc) s.freeCtr s.pending) :=
  touch_host (fun _ => rfl) (fun h => nomatch h) (fun _ => rfl) (fun _ => rfl) (fun _ => rfl) (fun _ => rfl) (fun _ => rfl) (fun _ => rfl) (fun _ => rfl) (fun _ => rfl) (fun _ => rfl) (fun _ => rfl) (fun _ => rfl) (fun _ => rfl) (fun _ => rfl) (fun _ => rfl) (fun _ => rfl) (fun _ => rfl)
theorem upd_hostspiOut {s : State} {x0 : List (BitVec 8)} : Touch 0x40000000000000000000000000000000000 s (mkS s.regs s.core s.ang s.sch s.law s.mot s.lane s.edge s.net s.time s.pair s.safe s.boot (HostSt.mk s.host.port s.host.sessions s.host.lastSess s.host.latch s.host.staged s.host.insReg s.host.log s.host.nvm s.host.merge s.host.seq s.host.sub s.host.lost s.host.fi s.host.img x0 s.host.ethTx s.host.rgmii s.host.acc) s.freeCtr s.pending) :=
  touch_host (fun _ => rfl) (fun _ => rfl) (fun _ => rfl) (fun _ => rfl) (fun _ => rfl) (fun _ => rfl) (fun _ => rfl) (fun _ => rfl) (fun _ => rfl) (fun _ => rfl) (fun _ => rfl) (fun _ => rfl) (fun _ => rfl) (fun _ => rfl) (fun h => nomatch h) (fun _ => rfl) (fun _ => rfl) (fun _ => rfl)
theorem upd_hoststaged {s : State} {x0 : Tbl (Option Word)} : Touch 0x100000000000000000000000000000000 s (mkS s.regs s.core s.ang s.sch s.law s.mot s.lane s.edge s.net s.time s.pair s.safe s.boot (HostSt.mk s.host.port s.host.sessions s.host.lastSess s.host.latch x0 s.host.insReg s.host.log s.host.nvm s.host.merge s.host.seq s.host.sub s.host.lost s.host.fi s.host.img s.host.spiOut s.host.ethTx s.host.rgmii s.host.acc) s.freeCtr s.pending) :=
  touch_host (fun _ => rfl) (fun _ => rfl) (fun _ => rfl) (fun _ => rfl) (fun h => nomatch h) (fun _ => rfl) (fun _ => rfl) (fun _ => rfl) (fun _ => rfl) (fun _ => rfl) (fun _ => rfl) (fun _ => rfl) (fun _ => rfl) (fun _ => rfl) (fun _ => rfl) (fun _ => rfl) (fun _ => rfl) (fun _ => rfl)
theorem upd_lane {s : State} {x0 : Tbl Lane} : Touch 0x10000000000 s (mkS s.regs s.core s.ang s.sch s.law s.mot x0 s.edge s.net s.time s.pair s.safe s.boot s.host s.freeCtr s.pending) :=
  touch_lane (by decide)
theorem upd_lawax {s : State} {x0 : Tbl AxLaw} : Touch 0x100000000 s (mkS s.regs s.core s.ang s.sch (LawSt.mk x0 s.law.store s.law.tub s.law.snap) s.mot s.lane s.edge s.net s.time s.pair s.safe s.boot s.host s.freeCtr s.pending) :=
  touch_law (fun h => nomatch h) (fun _ => rfl) (fun _ => rfl) (fun _ => rfl)
theorem upd_lawsnap {s : State} {x0 : Option Nat} : Touch 0x800000000 s (mkS s.regs s.core s.ang s.sch (LawSt.mk s.law.ax s.law.store s.law.tub x0) s.mot s.lane s.edge s.net s.time s.pair s.safe s.boot s.host s.freeCtr s.pending) :=
  touch_law (fun _ => rfl) (fun _ => rfl) (fun _ => rfl) (fun h => nomatch h)
theorem upd_lawstore {s : State} {x0 : Tbl (List Word)} : Touch 0x200000000 s (mkS s.regs s.core s.ang s.sch (LawSt.mk s.law.ax x0 s.law.tub s.law.snap) s.mot s.lane s.edge s.net s.time s.pair s.safe s.boot s.host s.freeCtr s.pending) :=
  touch_law (fun _ => rfl) (fun h => nomatch h) (fun _ => rfl) (fun _ => rfl)
theorem upd_lawtub {s : State} {x0 : Option (Nat × Bool × Who)} : Touch 0x400000000 s (mkS s.regs s.core s.ang s.sch (LawSt.mk s.law.ax s.law.store x0 s.law.snap) s.mot s.lane s.edge s.net s.time s.pair s.safe s.boot s.host s.freeCtr s.pending) :=
  touch_law (fun _ => rfl) (fun _ => rfl) (fun h => nomatch h) (fun _ => rfl)
theorem upd_motco {s : State} {x0 : Tbl CoSlot} : Touch 0x4000000000 s (mkS s.regs s.core s.ang s.sch s.law (MotSt.mk s.mot.gen s.mot.computed x0 s.mot.win) s.lane s.edge s.net s.time s.pair s.safe s.boot s.host s.freeCtr s.pending) :=
  touch_mot (fun _ => rfl) (fun _ => rfl) (fun h => nomatch h) (fun _ => rfl)
theorem upd_motcomputed {s : State} {x0 : Bool} : Touch 0x2000000000 s (mkS s.regs s.core s.ang s.sch s.law (MotSt.mk s.mot.gen x0 s.mot.co s.mot.win) s.lane s.edge s.net s.time s.pair s.safe s.boot s.host s.freeCtr s.pending) :=
  touch_mot (fun _ => rfl) (fun h => nomatch h) (fun _ => rfl) (fun _ => rfl)
theorem upd_motgen {s : State} {x0 : Tbl Gen} : Touch 0x1000000000 s (mkS s.regs s.core s.ang s.sch s.law (MotSt.mk x0 s.mot.computed s.mot.co s.mot.win) s.lane s.edge s.net s.time s.pair s.safe s.boot s.host s.freeCtr s.pending) :=
  touch_mot (fun h => nomatch h) (fun _ => rfl) (fun _ => rfl) (fun _ => rfl)
theorem upd_motwin {s : State} {x0 : Tbl (List Nat)} : Touch 0x8000000000 s (mkS s.regs s.core s.ang s.sch s.law (MotSt.mk s.mot.gen s.mot.computed s.mot.co x0) s.lane s.edge s.net s.time s.pair s.safe s.boot s.host s.freeCtr s.pending) :=
  touch_mot (fun _ => rfl) (fun _ => rfl) (fun _ => rfl) (fun h => nomatch h)
theorem upd_netarmed {s : State} {x0 : Bool} : Touch 0x200000000000000 s (mkS s.regs s.core s.ang s.sch s.law s.mot s.lane s.edge (NetSt.mk s.net.link s.net.seg s.net.node s.net.ax s.net.nodes s.net.ranks s.net.used s.net.gen s.net.next x0) s.time s.pair s.safe s.boot s.host s.freeCtr s.pending) :=
  touch_net (fun _ => rfl) (fun _ => rfl) (fun _ => rfl) (fun _ => rfl) (fun _ => rfl) (fun _ => rfl) (fun _ => rfl) (fun _ => rfl) (fun _ => rfl) (fun h => nomatch h)
theorem upd_netarmed_netnext {s : State} {x0 : Bool} {x1 : Option SchedGen} : Touch 0x300000000000000 s (mkS s.regs s.core s.ang s.sch s.law s.mot s.lane s.edge (NetSt.mk s.net.link s.net.seg s.net.node s.net.ax s.net.nodes s.net.ranks s.net.used s.net.gen x1 x0) s.time s.pair s.safe s.boot s.host s.freeCtr s.pending) :=
  touch_net (fun _ => rfl) (fun _ => rfl) (fun _ => rfl) (fun _ => rfl) (fun _ => rfl) (fun _ => rfl) (fun _ => rfl) (fun _ => rfl) (fun h => nomatch h) (fun h => nomatch h)
theorem upd_netax {s : State} {x0 : Tbl AxNet} : Touch 0x8000000000000 s (mkS s.regs s.core s.ang s.sch s.law s.mot s.lane s.edge (NetSt.mk s.net.link s.net.seg s.net.node x0 s.net.nodes s.net.ranks s.net.used s.net.gen s.net.next s.net.armed) s.time s.pair s.safe s.boot s.host s.freeCtr s.pending) :=
  touch_net (fun _ => rfl) (fun _ => rfl) (fun _ => rfl) (fun h => nomatch h) (fun _ => rfl) (fun _ => rfl) (fun _ => rfl) (fun _ => rfl) (fun _ => rfl) (fun _ => rfl)
theorem upd_netgen {s : State} {x0 : Option SchedGen} : Touch 0x80000000000000 s (mkS s.regs s.core s.ang s.sch s.law s.mot s.lane s.edge (NetSt.mk s.net.link s.net.seg s.net.node s.net.ax s.net.nodes s.net.ranks s.net.used x0 s.net.next s.net.armed) s.time s.pair s.safe s.boot s.host s.freeCtr s.pending) :=
  touch_net (fun _ => rfl) (fun _ => rfl) (fun _ => rfl) (fun _ => rfl) (fun _ => rfl) (fun _ => rfl) (fun _ => rfl) (fun h => nomatch h) (fun _ => rfl) (fun _ => rfl)
theorem upd_netlink {s : State} {x0 : Tbl LinkSt} : Touch 0x1000000000000 s (mkS s.regs s.core s.ang s.sch s.law s.mot s.lane s.edge (NetSt.mk x0 s.net.seg s.net.node s.net.ax s.net.nodes s.net.ranks s.net.used s.net.gen s.net.next s.net.armed) s.time s.pair s.safe s.boot s.host s.freeCtr s.pending) :=
  touch_net (fun h => nomatch h) (fun _ => rfl) (fun _ => rfl) (fun _ => rfl) (fun _ => rfl) (fun _ => rfl) (fun _ => rfl) (fun _ => rfl) (fun _ => rfl) (fun _ => rfl)
theorem upd_netnode {s : State} {x0 : Tbl NodeSt} : Touch 0x4000000000000 s (mkS s.regs s.core s.ang s.sch s.law s.mot s.lane s.edge (NetSt.mk s.net.link s.net.seg x0 s.net.ax s.net.nodes s.net.ranks s.net.used s.net.gen s.net.next s.net.armed) s.time s.pair s.safe s.boot s.host s.freeCtr s.pending) :=
  touch_net (fun _ => rfl) (fun _ => rfl) (fun h => nomatch h) (fun _ => rfl) (fun _ => rfl) (fun _ => rfl) (fun _ => rfl) (fun _ => rfl) (fun _ => rfl) (fun _ => rfl)
theorem upd_netnodes_netranks_netused {s : State} {x0 : List NodeEnt} {x1 : List Nat} {x2 : List Nat} : Touch 0x70000000000000 s (mkS s.regs s.core s.ang s.sch s.law s.mot s.lane s.edge (NetSt.mk s.net.link s.net.seg s.net.node s.net.ax x0 x1 x2 s.net.gen s.net.next s.net.armed) s.time s.pair s.safe s.boot s.host s.freeCtr s.pending) :=
  touch_net (fun _ => rfl) (fun _ => rfl) (fun _ => rfl) (fun _ => rfl) (fun h => nomatch h) (fun h => nomatch h) (fun h => nomatch h) (fun _ => rfl) (fun _ => rfl) (fun _ => rfl)
theorem upd_netseg {s : State} {x0 : Tbl SegSt} : Touch 0x2000000000000 s (mkS s.regs s.core s.ang s.sch s.law s.mot s.lane s.edge (NetSt.mk s.net.link x0 s.net.node s.net.ax s.net.nodes s.net.ranks s.net.used s.net.gen s.net.next s.net.armed) s.time s.pair s.safe s.boot s.host s.freeCtr s.pending) :=
  touch_net (fun _ => rfl) (fun h => nomatch h) (fun _ => rfl) (fun _ => rfl) (fun _ => rfl) (fun _ => rfl) (fun _ => rfl) (fun _ => rfl) (fun _ => rfl) (fun _ => rfl)
theorem upd_pairang {s : State} {x0 : Option (Nat × MirAngle)} : Touch 0x40000000000000000000000 s (mkS s.regs s.core s.ang s.sch s.law s.mot s.lane s.edge s.net s.time (PairSt.mk s.pair.req s.pair.out s.pair.edge s.pair.wait s.pair.heard s.pair.pstrap s.pair.pstate s.pair.plevel s.pair.shadow s.pair.expect s.pair.divWin s.pair.cmp s.pair.div s.pair.want s.pair.asked s.pair.rot s.pair.changedC s.pair.copy s.pair.got s.pair.rseq s.pair.recs s.pair.held s.pair.rx x0 s.pair.load s.pair.since s.pair.began s.pair.swo s.pair.sent) s.safe s.boot s.host s.freeCtr s.pending) :=
  touch_pair (fun _ => rfl) (fun _ => rfl) (fun _ => rfl) (fun _ => rfl) (fun _ => rfl) (fun _ => rfl) (fun _ => rfl) (fun _ => rfl) (fun _ => rfl) (fun _ => rfl) (fun _ => rfl) (fun _ => rfl) (fun _ => rfl) (fun _ => rfl) (fun _ => rfl) (fun _ => rfl) (fun _ => rfl) (fun _ => rfl) (fun _ => rfl) (fun _ => rfl) (fun _ => rfl) (fun _ => rfl) (fun _ => rfl) (fun h => nomatch h) (fun _ => rfl) (fun _ => rfl) (fun _ => rfl) (fun _ => rfl) (fun _ => rfl)
theorem upd_pairasked_pairchangedC_paircopy_pairrot {s : State} {x0 : List Nat} {x1 : List Nat} {x2 : List Nat} {x3 : Nat} : Touch 0x1e00000000000000000000 s (mkS s.regs s.core s.ang s.sch s.law s.mot s.lane s.edge s.net s.time (PairSt.mk s.pair.req s.pair.out s.pair.edge s.pair.wait s.pair.heard s.pair.pstrap s.pair.pstate s.pair.plevel s.pair.shadow s.pair.expect s.pair.divWin s.pair.cmp s.pair.div s.pair.want x0 x3 x1 x2 s.pair.got s.pair.rseq s.pair.recs s.pair.held s.pair.rx s.pair.ang s.pair.load s.pair.since s.pair.began s.pair.swo s.pair.sent) s.safe s.boot s.host s.freeCtr s.pending) :=
  touch_pair (fun _ => rfl) (fun _ => rfl) (fun _ => rfl) (fun _ => rfl) (fun _ => rfl) (fun _ => rfl) (fun _ => rfl) (fun _ => rfl) (fun _ => rfl) (fun _ => rfl) (fun _ => rfl) (fun _ => rfl) (fun _ => rfl) (fun _ => rfl) (fun h => nomatch h) (fun h => nomatch h) (fun h => nomatch h) (fun h => nomatch h) (fun _ => rfl) (fun _ => rfl) (fun _ => rfl) (fun _ => rfl) (fun _ => rfl) (fun _ => rfl) (fun _ => rfl) (fun _ => rfl) (fun _ => rfl) (fun _ => rfl) (fun _ => rfl)
theorem upd_pairasked_pairplevel_pairpstate {s : State} {x0 : List Nat} {x1 : Nat} {x2 : Nat} : Touch 0x206000000000000000000 s (mkS s.regs s.core s.ang s.sch s.law s.mot s.lane s.edge s.net s.time (PairSt.mk s.pair.req s.pair.out s.pair.edge s.pair.wait s.pair.heard s.pair.pstrap x2 x1 s.pair.shadow s.pair.expect s.pair.divWin s.pair.cmp s.pair.div s.pair.want x0 s.pair.rot s.pair.changedC s.pair.copy s.pair.got s.pair.rseq s.pair.recs s.pair.held s.pair.rx s.pair.ang s.pair.load s.pair.since s.pair.began s.pair.swo s.pair.sent) s.safe s.boot s.host s.freeCtr s.pending) :=
  touch_pair (fun _ => rfl) (fun _ => rfl) (fun _ => rfl) (fun _ => rfl) (fun _ => rfl) (fun _ => rfl) (fun h => nomatch h) (fun h => nomatch h) (fun _ => rfl) (fun _ => rfl) (fun _ => rfl) (fun _ => rfl) (fun _ => rfl) (fun _ => rfl) (fun h => nomatch h) (fun _ => rfl) (fun _ => rfl) (fun _ => rfl) (fun _ => rfl) (fun _ => rfl) (fun _ => rfl) (fun _ => rfl) (fun _ => rfl) (fun _ => rfl) (fun _ => rfl) (fun _ => rfl) (fun _ => rfl) (fun _ => rfl) (fun _ => rfl)
theorem upd_pairbegan {s : State} {x0 : Bool} : Touch 0x200000000000000000000000 s (mkS s.regs s.core s.ang s.sch s.law s.mot s.lane s.edge s.net s.time (PairSt.mk s.pair.req s.pair.out s.pair.edge s.pair.wait s.pair.heard s.pair.pstrap s.pair.pstate s.pair.plevel s.pair.shadow s.pair.expect s.pair.divWin s.pair.cmp s.pair.div s.pair.want s.pair.asked s.pair.rot s.pair.changedC s.pair.copy s.pair.got s.pair.rseq s.pair.recs s.pair.held s.pair.rx s.pair.ang s.pair.load s.pair.since x0 s.pair.swo s.pair.sent) s.safe s.boot s.host s.freeCtr s.pending) :=
  touch_pair (fun _ => rfl) (fun _ => rfl) (fun _ => rfl) (fun _ => rfl) (fun _ => rfl) (fun _ => rfl) (fun _ => rfl) (fun _ => rfl) (fun _ => rfl) (fun _ => rfl) (fun _ => rfl) (fun _ => rfl) (fun _ => rfl) (fun _ => rfl) (fun _ => rfl) (fun _ => rfl) (fun _ => rfl) (fun _ => rfl) (fun _ => rfl) (fun _ => rfl) (fun _ => rfl) (fun _ => rfl) (fun _ => rfl) (fun _ => rfl) (fun _ => rfl) (fun _ => rfl) (fun h => nomatch h) (fun _ => rfl) (fun _ => rfl)
theorem upd_pairbegan_pairpstate_pairreq_pairswo {s : State} {x0 : Bool} {x1 : Nat} {x2 : Bool} {x3 : Bool} : Touch 0x600002080000000000000000 s (mkS s.regs s.core s.ang s.sch s.law s.mot s.lane s.edge s.net s.time (PairSt.mk x2 s.pair.out s.pair.edge s.pair.wait s.pair.heard s.pair.pstrap x1 s.pair.plevel s.pair.shadow s.pair.expect s.pair.divWin s.pair.cmp s.pair.div s.pair.want s.pair.asked s.pair.rot s.pair.changedC s.pair.copy s.pair.got s.pair.rseq s.pair.recs s.pair.held s.pair.rx s.pair.ang s.pair.load s.pair.since x0 x3 s.pair.sent) s.safe s.boot s.host s.freeCtr s.pending) :=
  touch_pair (fun h => nomatch h) (fun _ => rfl) (fun _ => rfl) (fun _ => rfl) (fun _ => rfl) (fun _ => rfl) (fun h => nomatch h) (fun _ => rfl) (fun _ => rfl) (fun _ => rfl) (fun _ => rfl) (fun _ => rfl) (fun _ => rfl) (fun _ => rfl) (fun _ => rfl) (fun _ => rfl) (fun _ => rfl) (fun _ => rfl) (fun _ => rfl) (fun _ => rfl) (fun _ => rfl) (fun _ => rfl) (fun _ => rfl) (fun _ => rfl) (fun _ => rfl) (fun _ => rfl) (fun h => nomatch h) (fun h => nomatch h) (fun _ => rfl)
theorem upd_paircmp {s : State} {x0 : Nat} : Touch 0x40000000000000000000 s (mkS s.regs s.core s.ang s.sch s.law s.mot s.lane s.edge s.net s.time (PairSt.mk s.pair.req s.pair.out s.pair.edge s.pair.wait s.pair.heard s.pair.pstrap s.pair.pstate s.pair.plevel s.pair.shadow s.pair.expect s.pair.divWin x0 s.pair.div s.pair.want s.pair.asked s.pair.rot s.pair.changedC s.pair.copy s.pair.got s.pair.rseq s.pair.recs s.pair.held s.pair.rx s.pair.ang s.pair.load s.pair.since s.pair.began s.pair.swo s.pair.sent) s.safe s.boot s.host s.freeCtr s.pending) :=
  touch_pair (fun _ => rfl) (fun _ => rfl) (fun _ => rfl) (fun _ => rfl) (fun _ => rfl) (fun _ => rfl) (fun _ => rfl) (fun _ => rfl) (fun _ => rfl) (fun _ => rfl) (fun _ => rfl) (fun h => nomatch h) (fun _ => rfl) (fun _ => rfl) (fun _ => rfl) (fun _ => rfl) (fun _ => rfl) (fun _ => rfl) (fun _ => rfl) (fun _ => rfl) (fun _ => rfl) (fun _ => rfl) (fun _ => rfl) (fun _ => rfl) (fun _ => rfl) (fun _ => rfl) (fun _ => rfl) (fun _ => rfl) (fun _ => rfl)
theorem upd_paircmp_pairdiv_pairsince {s : State} {x0 : Nat} {x1 : Nat} {x2 : Nat} : Touch 0x1000c0000000000000000000 s (mkS s.regs s.core s.ang s.sch s.law s.mot s.lane s.edge s.net s.time (PairSt.mk s.pair.req s.pair.out s.pair.edge s.pair.wait s.pair.heard s.pair.pstrap s.pair.pstate s.pair.plevel s.pair.shadow s.pair.expect s.pair.divWin x0 x1 s.pair.want s.pair.asked s.pair.rot s.pair.changedC s.pair.copy s.pair.got s.pair.rseq s.pair.recs s.pair.held s.pair.rx s.pair.ang s.pair.load x2 s.pair.began s.pair.swo s.pair.sent) s.safe s.boot s.host s.freeCtr s.pending) :=
  touch_pair (fun _ => rfl) (fun _ => rfl) (fun _ => rfl) (fun _ => rfl) (fun _ => rfl) (fun _ => rfl) (fun _ => rfl) (fun _ => rfl) (fun _ => rfl) (fun _ => rfl) (fun _ => rfl) (fun h => nomatch h) (fun h => nomatch h) (fun _ => rfl) (fun _ => rfl) (fun _ => rfl) (fun _ => rfl) (fun _ => rfl) (fun _ => rfl) (fun _ => rfl) (fun _ => rfl) (fun _ => rfl) (fun _ => rfl) (fun _ => rfl) (fun _ => rfl) (fun h => nomatch h) (fun _ => rfl) (fun _ => rfl) (fun _ => rfl)
theorem upd_paircopy {s : State} {x0 : List Nat} : Touch 0x1000000000000000000000 s (mkS s.regs s.core s.ang s.sch s.law s.mot s.lane s.edge s.net s.time (PairSt.mk s.pair.req s.pair.out s.pair.edge s.pair.wait s.pair.heard s.pair.pstrap s.pair.pstate s.pair.plevel s.pair.shadow s.pair.expect s.pair.divWin s.pair.cmp s.pair.div s.pair.want s.pair.asked s.pair.rot s.pair.changedC x0 s.pair.got s.pair.rseq s.pair.recs s.pair.held s.pair.rx s.pair.ang s.pair.load s.pair.since s.pair.began s.pair.swo s.pair.sent) s.safe s.boot s.host s.freeCtr s.pending) :=
  touch_pair (fun _ => rfl) (fun _ => rfl) (fun _ => rfl) (fun _ => rfl) (fun _ => rfl) (fun _ => rfl) (fun _ => rfl) (fun _ => rfl) (fun _ => rfl) (fun _ => rfl) (fun _ => rfl) (fun _ => rfl) (fun _ => rfl) (fun _ => rfl) (fun _ => rfl) (fun _ => rfl) (fun _ => rfl) (fun h => nomatch h) (fun _ => rfl) (fun _ => rfl) (fun _ => rfl) (fun _ => rfl) (fun _ => rfl) (fun _ => rfl) (fun _ => rfl) (fun _ => rfl) (fun _ => rfl) (fun _ => rfl) (fun _ => rfl)
theorem upd_pairdiv_pairdivWin {s : State} {x0 : Nat} {x1 : Nat} : Touch 0xa0000000000000000000 s (mkS s.regs s.core s.ang s.sch s.law s.mot s.lane s.edge s.net s.time (PairSt.mk s.pair.req s.pair.out s.pair.edge s.pair.wait s.pair.heard s.pair.pstrap s.pair.pstate s.pair.plevel s.pair.shadow s.pair.expect x1 s.pair.cmp x0 s.pair.want s.pair.asked s.pair.rot s.pair.changedC s.pair.copy s.pair.got s.pair.rseq s.pair.recs s.pair.held s.pair.rx s.pair.ang s.pair.load s.pair.since s.pair.began s.pair.swo s.pair.sent) s.safe s.boot s.host s.freeCtr s.pending) :=
  touch_pair (fun _ => rfl) (fun _ => rfl) (fun _ => rfl) (fun _ => rfl) (fun _ => rfl) (fun _ => rfl) (fun _ => rfl) (fun _ => rfl) (fun _ => rfl) (fun _ => rfl) (fun h => nomatch h) (fun _ => rfl) (fun h => nomatch h) (fun _ => rfl) (fun _ => rfl) (fun _ => rfl) (fun _ => rfl) (fun _ => rfl) (fun _ => rfl) (fun _ => rfl) (fun _ => rfl) (fun _ => rfl) (fun _ => rfl) (fun _ => rfl) (fun _ => rfl) (fun _ => rfl) (fun _ => rfl) (fun _ => rfl) (fun _ => rfl)
theorem upd_pairdivWin_schdlStat_schpublished_schrlStat_schwaitStat {s : State} {x0 : Nat} {x1 : Tbl Stat} {x2 : Bool} {x3 : Tbl Stat} {x4 : Tbl Stat} : Touch 0x200000000000b8000000 s (mkS s.regs s.core s.ang (SchSt.mk s.sch.started s.sch.dl s.sch.ins s.sch.placed s.sch.held s.sch.ready s.sch.unit s.sch.ovr s.sch.ovrHere x1 x3 x4 s.sch.sampled x2) s.law s.mot s.lane s.edge s.net s.time (PairSt.mk s.pair.req s.pair.out s.pair.edge s.pair.wait s.pair.heard s.pair.pstrap s.pair.pstate s.pair.plevel s.pair.shadow s.pair.expect x0 s.pair.cmp s.pair.div s.pair.want s.pair.asked s.pair.rot s.pair.changedC s.pair.copy s.pair.got s.pair.rseq s.pair.recs s.pair.held s.pair.rx s.pair.ang s.pair.load s.pair.since s.pair.began s.pair.swo s.pair.sent) s.safe s.boot s.host s.freeCtr s.pending) :=
  touch_of (by intro p hp; cases p <;> first | rfl | exact absurd hp (by decide)) rfl rfl rfl
theorem upd_pairedge {s : State} {x0 : Bool} : Touch 0x200000000000000000 s (mkS s.regs s.core s.ang s.sch s.law s.mot s.lane s.edge s.net s.time (PairSt.mk s.pair.req s.pair.out x0 s.pair.wait s.pair.heard s.pair.pstrap s.pair.pstate s.pair.plevel s.pair.shadow s.pair.expect s.pair.divWin s.pair.cmp s.pair.div s.pair.want s.pair.asked s.pair.rot s.pair.changedC s.pair.copy s.pair.got s.pair.rseq s.pair.recs s.pair.held s.pair.rx s.pair.ang s.pair.load s.pair.since s.pair.began s.pair.swo s.pair.sent) s.safe s.boot s.host s.freeCtr s.pending) :=
  touch_pair (fun _ => rfl) (fun _ => rfl) (fun h => nomatch h) (fun _ => rfl) (fun _ => rfl) (fun _ => rfl) (fun _ => rfl) (fun _ => rfl) (fun _ => rfl) (fun _ => rfl) (fun _ => rfl) (fun _ => rfl) (fun _ => rfl) (fun _ => rfl) (fun _ => rfl) (fun _ => rfl) (fun _ => rfl) (fun _ => rfl) (fun _ => rfl) (fun _ => rfl) (fun _ => rfl) (fun _ => rfl) (fun _ => rfl) (fun _ => rfl) (fun _ => rfl) (fun _ => rfl) (fun _ => rfl) (fun _ => rfl) (fun _ => rfl)
theorem upd_pairexpect {s : State} {x0 : List (Nat × Nat × Nat × List (BitVec 8))} : Touch 0x10000000000000000000 s (mkS s.regs s.core s.ang s.sch s.law s.mot s.lane s.edge s.net s.time (PairSt.mk s.pair.req s.pair.out s.pair.edge s.pair.wait s.pair.heard s.pair.pstrap s.pair.pstate s.pair.plevel s.pair.shadow x0 s.pair.divWin s.pair.cmp s.pair.div s.pair.want s.pair.asked s.pair.rot s.pair.changedC s.pair.copy s.pair.got s.pair.rseq s.pair.recs s.pair.held s.pair.rx s.pair.ang s.pair.load s.pair.since s.pair.began s.pair.swo s.pair.sent) s.safe s.boot s.host s.freeCtr s.pending) :=
  touch_pair (fun _ => rfl) (fun _ => rfl) (fun _ => rfl) (fun _ => rfl) (fun _ => rfl) (fun _ => rfl) (fun _ => rfl) (fun _ => rfl) (fun _ => rfl) (fun h => nomatch h) (fun _ => rfl) (fun _ => rfl) (fun _ => rfl) (fun _ => rfl) (fun _ => rfl) (fun _ => rfl) (fun _ => rfl) (fun _ => rfl) (fun _ => rfl) (fun _ => rfl) (fun _ => rfl) (fun _ => rfl) (fun _ => rfl) (fun _ => rfl) (fun _ => rfl) (fun _ => rfl) (fun _ => rfl) (fun _ => rfl) (fun _ => rfl)
theorem upd_pairexpect_pairheard_pairpstate_pairrecs_pairreq_pairrx {s : State} {x0 : List (Nat × Nat × Nat × List (BitVec 8))} {x1 : Bool} {x2 : Nat} {x3 : List OutRec} {x4 : Bool} {x5 : Option MirRx} : Touch 0x28012880000000000000000 s (mkS s.regs s.core s.ang s.sch s.law s.mot s.lane s.edge s.net s.time (PairSt.mk x4 s.pair.out s.pair.edge s.pair.wait x1 s.pair.pstrap x2 s.pair.plevel s.pair.shadow x0 s.pair.divWin s.pair.cmp s.pair.div s.pair.want s.pair.asked s.pair.rot s.pair.changedC s.pair.copy s.pair.got s.pair.rseq x3 s.pair.held x5 s.pair.ang s.pair.load s.pair.since s.pair.began s.pair.swo s.pair.sent) s.safe s.boot s.host s.freeCtr s.pending) :=
  touch_pair (fun h => nomatch h) (fun _ => rfl) (fun _ => rfl) (fun _ => rfl) (fun h => nomatch h) (fun _ => rfl) (fun h => nomatch h) (fun _ => rfl) (fun _ => rfl) (fun h => nomatch h) (fun _ => rfl) (fun _ => rfl) (fun _ => rfl) (fun _ => rfl) (fun _ => rfl) (fun _ => rfl) (fun _ => rfl) (fun _ => rfl) (fun _ => rfl) (fun _ => rfl) (fun h => nomatch h) (fun _ => rfl) (fun h => nomatch h) (fun _ => rfl) (fun _ => rfl) (fun _ => rfl) (fun _ => rfl) (fun _ => rfl) (fun _ => rfl)
theorem upd_pairgot {s : State} {x0 : List Nat} : Touch 0x2000000000000000000000 s (mkS s.regs s.core s.ang s.sch s.law s.mot s.lane s.edge s.net s.time (PairSt.mk s.pair.req s.pair.out s.pair.edge s.pair.wait s.pair.heard s.pair.pstrap s.pair.pstate s.pair.plevel s.pair.shadow s.pair.expect s.pair.divWin s.pair.cmp s.pair.div s.pair.want s.pair.asked s.pair.rot s.pair.changedC s.pair.copy x0 s.pair.rseq s.pair.recs s.pair.held s.pair.rx s.pair.ang s.pair.load s.pair.since s.pair.began s.pair.swo s.pair.sent) s.safe s.boot s.host s.freeCtr s.pending) :=
  touch_pair (fun _ => rfl) (fun _ => rfl) (fun _ => rfl) (fun _ => rfl) (fun _ => rfl) (fun _ => rfl) (fun _ => rfl) (fun _ => rfl) (fun _ => rfl) (fun _ => rfl) (fun _ => rfl) (fun _ => rfl) (fun _ => rfl) (fun _ => rfl) (fun _ => rfl) (fun _ => rfl) (fun _ => rfl) (fun _ => rfl) (fun h => nomatch h) (fun _ => rfl) (fun _ => rfl) (fun _ => rfl) (fun _ => rfl) (fun _ => rfl) (fun _ => rfl) (fun _ => rfl) (fun _ => rfl) (fun _ => rfl) (fun _ => rfl)
theorem upd_pairheard_pairpstrap {s : State} {x0 : Bool} {x1 : Option Bool} : Touch 0x1800000000000000000 s (mkS s.regs s.core s.ang s.sch s.law s.mot s.lane s.edge s.net s.time (PairSt.mk s.pair.req s.pair.out s.pair.edge s.pair.wait x0 x1 s.pair.pstate s.pair.plevel s.pair.shadow s.pair.expect s.pair.divWin s.pair.cmp s.pair.div s.pair.want s.pair.asked s.pair.rot s.pair.changedC s.pair.copy s.pair.got s.pair.rseq s.pair.recs s.pair.held s.pair.rx s.pair.ang s.pair.load s.pair.since s.pair.began s.pair.swo s.pair.sent) s.safe s.boot s.host s.freeCtr s.pending) :=
  touch_pair (fun _ => rfl) (fun _ => rfl) (fun _ => rfl) (fun _ => rfl) (fun h => nomatch h) (fun h => nomatch h) (fun _ => rfl) (fun _ => rfl) (fun _ => rfl) (fun _ => rfl) (fun _ => rfl) (fun _ => rfl) (fun _ => rfl) (fun _ => rfl) (fun _ => rfl) (fun _ => rfl) (fun _ => rfl) (fun _ => rfl) (fun _ => rfl) (fun _ => rfl) (fun _ => rfl) (fun _ => rfl) (fun _ => rfl) (fun _ => rfl) (fun _ => rfl) (fun _ => rfl) (fun _ => rfl) (fun _ => rfl) (fun _ => rfl)
theorem upd_pairheld {s : State} {x0 : List MirRec} : Touch 0x10000000000000000000000 s (mkS s.regs s.core s.ang s.sch s.law s.mot s.lane s.edge s.net s.time (PairSt.mk s.pair.req s.pair.out s.pair.edge s.pair.wait s.pair.heard s.pair.pstrap s.pair.pstate s.pair.plevel s.pair.shadow s.pair.expect s.pair.divWin s.pair.cmp s.pair.div s.pair.want s.pair.asked s.pair.rot s.pair.changedC s.pair.copy s.pair.got s.pair.rseq s.pair.recs x0 s.pair.rx s.pair.ang s.pair.load s.pair.since s.pair.began s.pair.swo s.pair.sent) s.safe s.boot s.host s.freeCtr s.pending) :=
  touch_pair (fun _ => rfl) (fun _ => rfl) (fun _ => rfl) (fun _ => rfl) (fun _ => rfl) (fun _ => rfl) (fun _ => rfl) (fun _ => rfl) (fun _ => rfl) (fun _ => rfl) (fun _ => rfl) (fun _ => rfl) (fun _ => rfl) (fun _ => rfl) (fun _ => rfl) (fun _ => rfl) (fun _ => rfl) (fun _ => rfl) (fun _ => rfl) (fun _ => rfl) (fun _ => rfl) (fun h => nomatch h) (fun _ => rfl) (fun _ => rfl) (fun _ => rfl) (fun _ => rfl) (fun _ => rfl) (fun _ => rfl) (fun _ => rfl)
theorem upd_pairload {s : State} {x0 : Option MirAngle} : Touch 0x80000000000000000000000 s (mkS s.regs s.core s.ang s.sch s.law s.mot s.lane s.edge s.net s.time (PairSt.mk s.pair.req s.pair.out s.pair.edge s.pair.wait s.pair.heard s.pair.pstrap s.pair.pstate s.pair.plevel s.pair.shadow s.pair.expect s.pair.divWin s.pair.cmp s.pair.div s.pair.want s.pair.asked s.pair.rot s.pair.changedC s.pair.copy s.pair.got s.pair.rseq s.pair.recs s.pair.held s.pair.rx s.pair.ang x0 s.pair.since s.pair.began s.pair.swo s.pair.sent) s.safe s.boot s.host s.freeCtr s.pending) :=
  touch_pair (fun _ => rfl) (fun _ => rfl) (fun _ => rfl) (fun _ => rfl) (fun _ => rfl) (fun _ => rfl) (fun _ => rfl) (fun _ => rfl) (fun _ => rfl) (fun _ => rfl) (fun _ => rfl) (fun _ => rfl) (fun _ => rfl) (fun _ => rfl) (fun _ => rfl) (fun _ => rfl) (fun _ => rfl) (fun _ => rfl) (fun _ => rfl) (fun _ => rfl) (fun _ => rfl) (fun _ => rfl) (fun _ => rfl) (fun _ => rfl) (fun h => nomatch h) (fun _ => rfl) (fun _ => rfl) (fun _ => rfl) (fun _ => rfl)
theorem upd_pairout {s : State} {x0 : Bool} : Touch 0x100000000000000000 s (mkS s.regs s.core s.ang s.sch s.law s.mot s.lane s.edge s.net s.time (PairSt.mk s.pair.req x0 s.pair.edge s.pair.wait s.pair.heard s.pair.pstrap s.pair.pstate s.pair.plevel s.pair.shadow s.pair.expect s.pair.divWin s.pair.cmp s.pair.div s.pair.want s.pair.asked s.pair.rot s.pair.changedC s.pair.copy s.pair.got s.pair.rseq s.pair.recs s.pair.held s.pair.rx s.pair.ang s.pair.load s.pair.since s.pair.began s.pair.swo s.pair.sent) s.safe s.boot s.host s.freeCtr s.pending) :=
  touch_pair (fun _ => rfl) (fun h => nomatch h) (fun _ => rfl) (fun _ => rfl) (fun _ => rfl) (fun _ => rfl) (fun _ => rfl) (fun _ => rfl) (fun _ => rfl) (fun _ => rfl) (fun _ => rfl) (fun _ => rfl) (fun _ => rfl) (fun _ => rfl) (fun _ => rfl) (fun _ => rfl) (fun _ => rfl) (fun _ => rfl) (fun _ => rfl) (fun _ => rfl) (fun _ => rfl) (fun _ => rfl) (fun _ => rfl) (fun _ => rfl) (fun _ => rfl) (fun _ => rfl) (fun _ => rfl) (fun _ => rfl) (fun _ => rfl)
theorem upd_pairplevel {s : State} {x0 : Nat} : Touch 0x4000000000000000000 s (mkS s.regs s.core s.ang s.sch s.law s.mot s.lane s.edge s.net s.time (PairSt.mk s.pair.req s.pair.out s.pair.edge s.pair.wait s.pair.heard s.pair.pstrap s.pair.pstate x0 s.pair.shadow s.pair.expect s.pair.divWin s.pair.cmp s.pair.div s.pair.want s.pair.asked s.pair.rot s.pair.changedC s.pair.copy s.pair.got s.pair.rseq s.pair.recs s.pair.held s.pair.rx s.pair.ang s.pair.load s.pair.since s.pair.began s.pair.swo s.pair.sent) s.safe s.boot s.host s.freeCtr s.pending) :=
  touch_pair (fun _ => rfl) (fun _ => rfl) (fun _ => rfl) (fun _ => rfl) (fun _ => rfl) (fun _ => rfl) (fun _ => rfl) (fun h => nomatch h) (fun _ => rfl) (fun _ => rfl) (fun _ => rfl) (fun _ => rfl) (fun _ => rfl) (fun _ => rfl) (fun _ => rfl) (fun _ => rfl) (fun _ => rfl) (fun _ => rfl) (fun _ => rfl) (fun _ => rfl) (fun _ => rfl) (fun _ => rfl) (fun _ => rfl) (fun _ => rfl) (fun _ => rfl) (fun _ => rfl) (fun _ => rfl) (fun _ => rfl) (fun _ => rfl)
theorem upd_pairrecs {s : State} {x0 : List OutRec} : Touch 0x8000000000000000000000 s (mkS s.regs s.core s.ang s.sch s.law s.mot s.lane s.edge s.net s.time (PairSt.mk s.pair.req s.pair.out s.pair.edge s.pair.wait s.pair.heard s.pair.pstrap s.pair.pstate s.pair.plevel s.pair.shadow s.pair.expect s.pair.divWin s.pair.cmp s.pair.div s.pair.want s.pair.asked s.pair.rot s.pair.changedC s.pair.copy s.pair.got s.pair.rseq x0 s.pair.held s.pair.rx s.pair.ang s.pair.load s.pair.since s.pair.began s.pair.swo s.pair.sent) s.safe s.boot s.host s.freeCtr s.pending) :=
  touch_pair (fun _ => rfl) (fun _ => rfl) (fun _ => rfl) (fun _ => rfl) (fun _ => rfl) (fun _ => rfl) (fun _ => rfl) (fun _ => rfl) (fun _ => rfl) (fun _ => rfl) (fun _ => rfl) (fun _ => rfl) (fun _ => rfl) (fun _ => rfl) (fun _ => rfl) (fun _ => rfl) (fun _ => rfl) (fun _ => rfl) (fun _ => rfl) (fun _ => rfl) (fun h => nomatch h) (fun _ => rfl) (fun _ => rfl) (fun _ => rfl) (fun _ => rfl) (fun _ => rfl) (fun _ => rfl) (fun _ => rfl) (fun _ => rfl)
theorem upd_pairrecs_pairrseq {s : State} {x0 : List OutRec} {x1 : Nat} : Touch 0xc000000000000000000000 s (mkS s.regs s.core s.ang s.sch s.law s.mot s.lane s.edge s.net s.time (PairSt.mk s.pair.req s.pair.out s.pair.edge s.pair.wait s.pair.heard s.pair.pstrap s.pair.pstate s.pair.plevel s.pair.shadow s.pair.expect s.pair.divWin s.pair.cmp s.pair.div s.pair.want s.pair.asked s.pair.rot s.pair.changedC s.pair.copy s.pair.got x1 x0 s.pair.held s.pair.rx s.pair.ang s.pair.load s.pair.since s.pair.began s.pair.swo s.pair.sent) s.safe s.boot s.host s.freeCtr s.pending) :=
  touch_pair (fun _ => rfl) (fun _ => rfl) (fun _ => rfl) (fun _ => rfl) (fun _ => rfl) (fun _ => rfl) (fun _ => rfl) (fun _ => rfl) (fun _ => rfl) (fun _ => rfl) (fun _ => rfl) (fun _ => rfl) (fun _ => rfl) (fun _ => rfl) (fun _ => rfl) (fun _ => rfl) (fun _ => rfl) (fun _ => rfl) (fun _ => rfl) (fun h => nomatch h) (fun h => nomatch h) (fun _ => rfl) (fun _ => rfl) (fun _ => rfl) (fun _ => rfl) (fun _ => rfl) (fun _ => rfl) (fun _ => rfl) (fun _ => rfl)
theorem upd_pairrecs_pairsent {s : State} {x0 : List OutRec} {x1 : List MirFrame} : Touch 0x808000000000000000000000 s (mkS s.regs s.core s.ang s.sch s.law s.mot s.lane s.edge s.net s.time (PairSt.mk s.pair.req s.pair.out s.pair.edge s.pair.wait s.pair.heard s.pair.pstrap s.pair.pstate s.pair.plevel s.pair.shadow s.pair.expect s.pair.divWin s.pair.cmp s.pair.div s.pair.want s.pair.asked s.pair.rot s.pair.changedC s.pair.copy s.pair.got s.pair.rseq x0 s.pair.held s.pair.rx s.pair.ang s.pair.load s.pair.since s.pair.began s.pair.swo x1) s.safe s.boot s.host s.freeCtr s.pending) :=
  touch_pair (fun _ => rfl) (fun _ => rfl) (fun _ => rfl) (fun _ => rfl) (fun _ => rfl) (fun _ => rfl) (fun _ => rfl) (fun _ => rfl) (fun _ => rfl) (fun _ => rfl) (fun _ => rfl) (fun _ => rfl) (fun _ => rfl) (fun _ => rfl) (fun _ => rfl) (fun _ => rfl) (fun _ => rfl) (fun _ => rfl) (fun _ => rfl) (fun _ => rfl) (fun h => nomatch h) (fun _ => rfl) (fun _ => rfl) (fun _ => rfl) (fun _ => rfl) (fun _ => rfl) (fun _ => rfl) (fun _ => rfl) (fun h => nomatch h)
theorem upd_pairreq {s : State} {x0 : Bool} : Touch 0x80000000000000000 s (mkS s.regs s.core s.ang s.sch s.law s.mot s.lane s.edge s.net s.time (PairSt.mk x0 s.pair.out s.pair.edge s.pair.wait s.pair.heard s.pair.pstrap s.pair.pstate s.pair.plevel s.pair.shadow s.pair.expect s.pair.divWin s.pair.cmp s.pair.div s.pair.want s.pair.asked s.pair.rot s.pair.changedC s.pair.copy s.pair.got s.pair.rseq s.pair.recs s.pair.held s.pair.rx s.pair.ang s.pair.load s.pair.since s.pair.began s.pair.swo s.pair.sent) s.safe s.boot s.host s.freeCtr s.pending) :=
  touch_pair (fun h => nomatch h) (fun _ => rfl) (fun _ => rfl) (fun _ => rfl) (fun _ => rfl) (fun _ => rfl) (fun _ => rfl) (fun _ => rfl) (fun _ => rfl) (fun _ => rfl) (fun _ => rfl) (fun _ => rfl) (fun _ => rfl) (fun _ => rfl) (fun _ => rfl) (fun _ => rfl) (fun _ => rfl) (fun _ => rfl) (fun _ => rfl) (fun _ => rfl) (fun _ => rfl) (fun _ => rfl) (fun _ => rfl) (fun _ => rfl) (fun _ => rfl) (fun _ => rfl) (fun _ => rfl) (fun _ => rfl) (fun _ => rfl)
theorem upd_pairrx {s : State} {x0 : Option MirRx} : Touch 0x20000000000000000000000 s (mkS s.regs s.core s.ang s.sch s.law s.mot s.lane s.edge s.net s.time (PairSt.mk s.pair.req s.pair.out s.pair.edge s.pair.wait s.pair.heard s.pair.pstrap s.pair.pstate s.pair.plevel s.pair.shadow s.pair.expect s.pair.divWin s.pair.cmp s.pair.div s.pair.want s.pair.asked s.pair.rot s.pair.changedC s.pair.copy s.pair.got s.pair.rseq s.pair.recs s.pair.held x0 s.pair.ang s.pair.load s.pair.since s.pair.began s.pair.swo s.pair.sent) s.safe s.boot s.host s.freeCtr s.pending) :=
  touch_pair (fun _ => rfl) (fun _ => rfl) (fun _ => rfl) (fun _ => rfl) (fun _ => rfl) (fun _ => rfl) (fun _ => rfl) (fun _ => rfl) (fun _ => rfl) (fun _ => rfl) (fun _ => rfl) (fun _ => rfl) (fun _ => rfl) (fun _ => rfl) (fun _ => rfl) (fun _ => rfl) (fun _ => rfl) (fun _ => rfl) (fun _ => rfl) (fun _ => rfl) (fun _ => rfl) (fun _ => rfl) (fun h => nomatch h) (fun _ => rfl) (fun _ => rfl) (fun _ => rfl) (fun _ => rfl) (fun _ => rfl) (fun _ => rfl)
theorem upd_pairsent {s : State} {x0 : List MirFrame} : Touch 0x800000000000000000000000 s (mkS s.regs s.core s.ang s.sch s.law s.mot s.lane s.edge s.net s.time (PairSt.mk s.pair.req s.pair.out s.pair.edge s.pair.wait s.pair.heard s.pair.pstrap s.pair.pstate s.pair.plevel s.pair.shadow s.pair.expect s.pair.divWin s.pair.cmp s.pair.div s.pair.want s.pair.asked s.pair.rot s.pair.changedC s.pair.copy s.pair.got s.pair.rseq s.pair.recs s.pair.held s.pair.rx s.pair.ang s.pair.load s.pair.since s.pair.began s.pair.swo x0) s.safe s.boot s.host s.freeCtr s.pending) :=
  touch_pair (fun _ => rfl) (fun _ => rfl) (fun _ => rfl) (fun _ => rfl) (fun _ => rfl) (fun _ => rfl) (fun _ => rfl) (fun _ => rfl) (fun _ => rfl) (fun _ => rfl) (fun _ => rfl) (fun _ => rfl) (fun _ => rfl) (fun _ => rfl) (fun _ => rfl) (fun _ => rfl) (fun _ => rfl) (fun _ => rfl) (fun _ => rfl) (fun _ => rfl) (fun _ => rfl) (fun _ => rfl) (fun _ => rfl) (fun _ => rfl) (fun _ => rfl) (fun _ => rfl) (fun _ => rfl) (fun _ => rfl) (fun h => nomatch h)
theorem upd_pairsent_pairwant {s : State} {x0 : List MirFrame} {x1 : List Nat} : Touch 0x800100000000000000000000 s (mkS s.regs s.core s.ang s.sch s.law s.mot s.lane s.edge s.net s.time (PairSt.mk s.pair.req s.pair.out s.pair.edge s.pair.wait s.pair.heard s.pair.pstrap s.pair.pstate s.pair.plevel s.pair.shadow s.pair.expect s.pair.divWin s.pair.cmp s.pair.div x1 s.pair.asked s.pair.rot s.pair.changedC s.pair.copy s.pair.got s.pair.rseq s.pair.recs s.pair.held s.pair.rx s.pair.ang s.pair.load s.pair.since s.pair.began s.pair.swo x0) s.safe s.boot s.host s.freeCtr s.pending) :=
  touch_pair (fun _ => rfl) (fun _ => rfl) (fun _ => rfl) (fun _ => rfl) (fun _ => rfl) (fun _ => rfl) (fun _ => rfl) (fun _ => rfl) (fun _ => rfl) (fun _ => rfl) (fun _ => rfl) (fun _ => rfl) (fun _ => rfl) (fun h => nomatch h) (fun _ => rfl) (fun _ => rfl) (fun _ => rfl) (fun _ => rfl) (fun _ => rfl) (fun _ => rfl) (fun _ => rfl) (fun _ => rfl) (fun _ => rfl) (fun _ => rfl) (fun _ => rfl) (fun _ => rfl) (fun _ => rfl) (fun _ => rfl) (fun h => nomatch h)
theorem upd_pairshadow {s : State} {x0 : Tbl Shadow} : Touch 0x8000000000000000000 s (mkS s.regs s.core s.ang s.sch s.law s.mot s.lane s.edge s.net s.time (PairSt.mk s.pair.req s.pair.out s.pair.edge s.pair.wait s.pair.heard s.pair.pstrap s.pair.pstate s.pair.plevel x0 s.pair.expect s.pair.divWin s.pair.cmp s.pair.div s.pair.want s.pair.asked s.pair.rot s.pair.changedC s.pair.copy s.pair.got s.pair.rseq s.pair.recs s.pair.held s.pair.rx s.pair.ang s.pair.load s.pair.since s.pair.began s.pair.swo s.pair.sent) s.safe s.boot s.host s.freeCtr s.pending) :=
  touch_pair (fun _ => rfl) (fun _ => rfl) (fun _ => rfl) (fun _ => rfl) (fun _ => rfl) (fun _ => rfl) (fun _ => rfl) (fun _ => rfl) (fun h => nomatch h) (fun _ => rfl) (fun _ => rfl) (fun _ => rfl) (fun _ => rfl) (fun _ => rfl) (fun _ => rfl) (fun _ => rfl) (fun _ => rfl) (fun _ => rfl) (fun _ => rfl) (fun _ => rfl) (fun _ => rfl) (fun _ => rfl) (fun _ => rfl) (fun _ => rfl) (fun _ => rfl) (fun _ => rfl) (fun _ => rfl) (fun _ => rfl) (fun _ => rfl)
theorem upd_pairsince {s : State} {x0 : Nat} : Touch 0x100000000000000000000000 s (mkS s.regs s.core s.ang s.sch s.law s.mot s.lane s.edge s.net s.time (PairSt.mk s.pair.req s.pair.out s.pair.edge s.pair.wait s.pair.heard s.pair.pstrap s.pair.pstate s.pair.plevel s.pair.shadow s.pair.expect s.pair.divWin s.pair.cmp s.pair.div s.pair.want s.pair.asked s.pair.rot s.pair.changedC s.pair.copy s.pair.got s.pair.rseq s.pair.recs s.pair.held s.pair.rx s.pair.ang s.pair.load x0 s.pair.began s.pair.swo s.pair.sent) s.safe s.boot s.host s.freeCtr s.pending) :=
  touch_pair (fun _ => rfl) (fun _ => rfl) (fun _ => rfl) (fun _ => rfl) (fun _ => rfl) (fun _ => rfl) (fun _ => rfl) (fun _ => rfl) (fun _ => rfl) (fun _ => rfl) (fun _ => rfl) (fun _ => rfl) (fun _ => rfl) (fun _ => rfl) (fun _ => rfl) (fun _ => rfl) (fun _ => rfl) (fun _ => rfl) (fun _ => rfl) (fun _ => rfl) (fun _ => rfl) (fun _ => rfl) (fun _ => rfl) (fun _ => rfl) (fun _ => rfl) (fun h => nomatch h) (fun _ => rfl) (fun _ => rfl) (fun _ => rfl)
theorem upd_pairswo {s : State} {x0 : Bool} : Touch 0x400000000000000000000000 s (mkS s.regs s.core s.ang s.sch s.law s.mot s.lane s.edge s.net s.time (PairSt.mk s.pair.req s.pair.out s.pair.edge s.pair.wait s.pair.heard s.pair.pstrap s.pair.pstate s.pair.plevel s.pair.shadow s.pair.expect s.pair.divWin s.pair.cmp s.pair.div s.pair.want s.pair.asked s.pair.rot s.pair.changedC s.pair.copy s.pair.got s.pair.rseq s.pair.recs s.pair.held s.pair.rx s.pair.ang s.pair.load s.pair.since s.pair.began x0 s.pair.sent) s.safe s.boot s.host s.freeCtr s.pending) :=
  touch_pair (fun _ => rfl) (fun _ => rfl) (fun _ => rfl) (fun _ => rfl) (fun _ => rfl) (fun _ => rfl) (fun _ => rfl) (fun _ => rfl) (fun _ => rfl) (fun _ => rfl) (fun _ => rfl) (fun _ => rfl) (fun _ => rfl) (fun _ => rfl) (fun _ => rfl) (fun _ => rfl) (fun _ => rfl) (fun _ => rfl) (fun _ => rfl) (fun _ => rfl) (fun _ => rfl) (fun _ => rfl) (fun _ => rfl) (fun _ => rfl) (fun _ => rfl) (fun _ => rfl) (fun _ => rfl) (fun h => nomatch h) (fun _ => rfl)
theorem upd_pairwait {s : State} {x0 : Bool} : Touch 0x400000000000000000 s (mkS s.regs s.core s.ang s.sch s.law s.mot s.lane s.edge s.net s.time (PairSt.mk s.pair.req s.pair.out s.pair.edge x0 s.pair.heard s.pair.pstrap s.pair.pstate s.pair.plevel s.pair.shadow s.pair.expect s.pair.divWin s.pair.cmp s.pair.div s.pair.want s.pair.asked s.pair.rot s.pair.changedC s.pair.copy s.pair.got s.pair.rseq s.pair.recs s.pair.held s.pair.rx s.pair.ang s.pair.load s.pair.since s.pair.began s.pair.swo s.pair.sent) s.safe s.boot s.host s.freeCtr s.pending) :=
  touch_pair (fun _ => rfl) (fun _ => rfl) (fun _ => rfl) (fun h => nomatch h) (fun _ => rfl) (fun _ => rfl) (fun _ => rfl) (fun _ => rfl) (fun _ => rfl) (fun _ => rfl) (fun _ => rfl) (fun _ => rfl) (fun _ => rfl) (fun _ => rfl) (fun _ => rfl) (fun _ => rfl) (fun _ => rfl) (fun _ => rfl) (fun _ => rfl) (fun _ => rfl) (fun _ => rfl) (fun _ => rfl) (fun _ => rfl) (fun _ => rfl) (fun _ => rfl) (fun _ => rfl) (fun _ => rfl) (fun _ => rfl) (fun _ => rfl)
theorem upd_pairwant {s : State} {x0 : List Nat} : Touch 0x100000000000000000000 s (mkS s.regs s.core s.ang s.sch s.law s.mot s.lane s.edge s.net s.time (PairSt.mk s.pair.req s.pair.out s.pair.edge s.pair.wait s.pair.heard s.pair.pstrap s.pair.pstate s.pair.plevel s.pair.shadow s.pair.expect s.pair.divWin s.pair.cmp s.pair.div x0 s.pair.asked s.pair.rot s.pair.changedC s.pair.copy s.pair.got s.pair.rseq s.pair.recs s.pair.held s.pair.rx s.pair.ang s.pair.load s.pair.since s.pair.began s.pair.swo s.pair.sent) s.safe s.boot s.host s.freeCtr s.pending) :=
  touch_pair (fun _ => rfl) (fun _ => rfl) (fun _ => rfl) (fun _ => rfl) (fun _ => rfl) (fun _ => rfl) (fun _ => rfl) (fun _ => rfl) (fun _ => rfl) (fun _ => rfl) (fun _ => rfl) (fun _ => rfl) (fun _ => rfl) (fun h => nomatch h) (fun _ => rfl) (fun _ => rfl) (fun _ => rfl) (fun _ => rfl) (fun _ => rfl) (fun _ => rfl) (fun _ => rfl) (fun _ => rfl) (fun _ => rfl) (fun _ => rfl) (fun _ => rfl) (fun _ => rfl) (fun _ => rfl) (fun _ => rfl) (fun _ => rfl)
theorem upd_safeconfirm {s : State} {x0 : Option (List (Nat × Word) × Port × Nat)} : Touch 0x400000000000000000000000000 s (mkS s.regs s.core s.ang s.sch s.law s.mot s.lane s.edge s.net s.time s.pair (SafetySt.mk s.safe.zone s.safe.shown s.safe.sentA s.safe.sentB s.safe.rxA s.safe.rxB s.safe.devA s.safe.devB s.safe.staged s.safe.sess x0 s.safe.fails s.safe.lockEnd s.safe.sec s.safe.log) s.boot s.host s.freeCtr s.pending) :=
  touch_safe (fun _ => rfl) (fun _ => rfl) (fun _ => rfl) (fun _ => rfl) (fun _ => rfl) (fun _ => rfl) (fun _ => rfl) (fun _ => rfl) (fun _ => rfl) (fun _ => rfl) (fun h => nomatch h) (fun _ => rfl) (fun _ => rfl) (fun _ => rfl) (fun _ => rfl)
theorem upd_safedevA {s : State} {x0 : Nat} : Touch 0x40000000000000000000000000 s (mkS s.regs s.core s.ang s.sch s.law s.mot s.lane s.edge s.net s.time s.pair (SafetySt.mk s.safe.zone s.safe.shown s.safe.sentA s.safe.sentB s.safe.rxA s.safe.rxB x0 s.safe.devB s.safe.staged s.safe.sess s.safe.confirm s.safe.fails s.safe.lockEnd s.safe.sec s.safe.log) s.boot s.host s.freeCtr s.pending) :=
  touch_safe (fun _ => rfl) (fun _ => rfl) (fun _ => rfl) (fun _ => rfl) (fun _ => rfl) (fun _ => rfl) (fun h => nomatch h) (fun _ => rfl) (fun _ => rfl) (fun _ => rfl) (fun _ => rfl) (fun _ => rfl) (fun _ => rfl) (fun _ => rfl) (fun _ => rfl)
theorem upd_safedevB {s : State} {x0 : Nat} : Touch 0x80000000000000000000000000 s (mkS s.regs s.core s.ang s.sch s.law s.mot s.lane s.edge s.net s.time s.pair (SafetySt.mk s.safe.zone s.safe.shown s.safe.sentA s.safe.sentB s.safe.rxA s.safe.rxB s.safe.devA x0 s.safe.staged s.safe.sess s.safe.confirm s.safe.fails s.safe.lockEnd s.safe.sec s.safe.log) s.boot s.host s.freeCtr s.pending) :=
  touch_safe (fun _ => rfl) (fun _ => rfl) (fun _ => rfl) (fun _ => rfl) (fun _ => rfl) (fun _ => rfl) (fun _ => rfl) (fun h => nomatch h) (fun _ => rfl) (fun _ => rfl) (fun _ => rfl) (fun _ => rfl) (fun _ => rfl) (fun _ => rfl) (fun _ => rfl)
theorem upd_safefails {s : State} {x0 : Nat} : Touch 0x800000000000000000000000000 s (mkS s.regs s.core s.ang s.sch s.law s.mot s.lane s.edge s.net s.time s.pair (SafetySt.mk s.safe.zone s.safe.shown s.safe.sentA s.safe.sentB s.safe.rxA s.safe.rxB s.safe.devA s.safe.devB s.safe.staged s.safe.sess s.safe.confirm x0 s.safe.lockEnd s.safe.sec s.safe.log) s.boot s.host s.freeCtr s.pending) :=
  touch_safe (fun _ => rfl) (fun _ => rfl) (fun _ => rfl) (fun _ => rfl) (fun _ => rfl) (fun _ => rfl) (fun _ => rfl) (fun _ => rfl) (fun _ => rfl) (fun _ => rfl) (fun _ => rfl) (fun h => nomatch h) (fun _ => rfl) (fun _ => rfl) (fun _ => rfl)
theorem upd_safefails_safelockEnd {s : State} {x0 : Nat} {x1 : Nat} : Touch 0x1800000000000000000000000000 s (mkS s.regs s.core s.ang s.sch s.law s.mot s.lane s.edge s.net s.time s.pair (SafetySt.mk s.safe.zone s.safe.shown s.safe.sentA s.safe.sentB s.safe.rxA s.safe.rxB s.safe.devA s.safe.devB s.safe.staged s.safe.sess s.safe.confirm x0 x1 s.safe.sec s.safe.log) s.boot s.host s.freeCtr s.pending) :=
  touch_safe (fun _ => rfl) (fun _ => rfl) (fun _ => rfl) (fun _ => rfl) (fun _ => rfl) (fun _ => rfl) (fun _ => rfl) (fun _ => rfl) (fun _ => rfl) (fun _ => rfl) (fun _ => rfl) (fun h => nomatch h) (fun h => nomatch h) (fun _ => rfl) (fun _ => rfl)
theorem upd_safefails_safesess {s : State} {x0 : Nat} {x1 : Option (Port × Nat)} : Touch 0xa00000000000000000000000000 s (mkS s.regs s.core s.ang s.sch s.law s.mot s.lane s.edge s.net s.time s.pair (SafetySt.mk s.safe.zone s.safe.shown s.safe.sentA s.safe.sentB s.safe.rxA s.safe.rxB s.safe.devA s.safe.devB s.safe.staged x1 s.safe.confirm x0 s.safe.lockEnd s.safe.sec s.safe.log) s.boot s.host s.freeCtr s.pending) :=
  touch_safe (fun _ => rfl) (fun _ => rfl) (fun _ => rfl) (fun _ => rfl) (fun _ => rfl) (fun _ => rfl) (fun _ => rfl) (fun _ => rfl) (fun _ => rfl) (fun h => nomatch h) (fun _ => rfl) (fun h => nomatch h) (fun _ => rfl) (fun _ => rfl) (fun _ => rfl)
theorem upd_safelockEnd {s : State} {x0 : Nat} : Touch 0x1000000000000000000000000000 s (mkS s.regs s.core s.ang s.sch s.law s.mot s.lane s.edge s.net s.time s.pair (SafetySt.mk s.safe.zone s.safe.shown s.safe.sentA s.safe.sentB s.safe.rxA s.safe.rxB s.safe.devA s.safe.devB s.safe.staged s.safe.sess s.safe.confirm s.safe.fails x0 s.safe.sec s.safe.log) s.boot s.host s.freeCtr s.pending) :=
  touch_safe (fun _ => rfl) (fun _ => rfl) (fun _ => rfl) (fun _ => rfl) (fun _ => rfl) (fun _ => rfl) (fun _ => rfl) (fun _ => rfl) (fun _ => rfl) (fun _ => rfl) (fun _ => rfl) (fun _ => rfl) (fun h => nomatch h) (fun _ => rfl) (fun _ => rfl)
theorem upd_safelog {s : State} {x0 : List SafeRec} : Touch 0x4000000000000000000000000000 s (mkS s.regs s.core s.ang s.sch s.law s.mot s.lane s.edge s.net s.time s.pair (SafetySt.mk s.safe.zone s.safe.shown s.safe.sentA s.safe.sentB s.safe.rxA s.safe.rxB s.safe.devA s.safe.devB s.safe.staged s.safe.sess s.safe.confirm s.safe.fails s.safe.lockEnd s.safe.sec x0) s.boot s.host s.freeCtr s.pending) :=
  touch_safe (fun _ => rfl) (fun _ => rfl) (fun _ => rfl) (fun _ => rfl) (fun _ => rfl) (fun _ => rfl) (fun _ => rfl) (fun _ => rfl) (fun _ => rfl) (fun _ => rfl) (fun _ => rfl) (fun _ => rfl) (fun _ => rfl) (fun _ => rfl) (fun h => nomatch h)
theorem upd_saferxA {s : State} {x0 : Nat} : Touch 0x10000000000000000000000000 s (mkS s.regs s.core s.ang s.sch s.law s.mot s.lane s.edge s.net s.time s.pair (SafetySt.mk s.safe.zone s.safe.shown s.safe.sentA s.safe.sentB x0 s.safe.rxB s.safe.devA s.safe.devB s.safe.staged s.safe.sess s.safe.confirm s.safe.fails s.safe.lockEnd s.safe.sec s.safe.log) s.boot s.host s.freeCtr s.pending) :=
  touch_safe (fun _ => rfl) (fun _ => rfl) (fun _ => rfl) (fun _ => rfl) (fun h => nomatch h) (fun _ => rfl) (fun _ => rfl) (fun _ => rfl) (fun _ => rfl) (fun _ => rfl) (fun _ => rfl) (fun _ => rfl) (fun _ => rfl) (fun _ => rfl) (fun _ => rfl)
theorem upd_saferxB {s : State} {x0 : Nat} : Touch 0x20000000000000000000000000 s (mkS s.regs s.core s.ang s.sch s.law s.mot s.lane s.edge s.net s.time s.pair (SafetySt.mk s.safe.zone s.safe.shown s.safe.sentA s.safe.sentB s.safe.rxA x0 s.safe.devA s.safe.devB s.safe.staged s.safe.sess s.safe.confirm s.safe.fails s.safe.lockEnd s.safe.sec s.safe.log) s.boot s.host s.freeCtr s.pending) :=
  touch_safe (fun _ => rfl) (fun _ => rfl) (fun _ => rfl) (fun _ => rfl) (fun _ => rfl) (fun h => nomatch h) (fun _ => rfl) (fun _ => rfl) (fun _ => rfl) (fun _ => rfl) (fun _ => rfl) (fun _ => rfl) (fun _ => rfl) (fun _ => rfl) (fun _ => rfl)
theorem upd_safesec {s : State} {x0 : Option SafeSec} : Touch 0x2000000000000000000000000000 s (mkS s.regs s.core s.ang s.sch s.law s.mot s.lane s.edge s.net s.time s.pair (SafetySt.mk s.safe.zone s.safe.shown s.safe.sentA s.safe.sentB s.safe.rxA s.safe.rxB s.safe.devA s.safe.devB s.safe.staged s.safe.sess s.safe.confirm s.safe.fails s.safe.lockEnd x0 s.safe.log) s.boot s.host s.freeCtr s.pending) :=
  touch_safe (fun _ => rfl) (fun _ => rfl) (fun _ => rfl) (fun _ => rfl) (fun _ => rfl) (fun _ => rfl) (fun _ => rfl) (fun _ => rfl) (fun _ => rfl) (fun _ => rfl) (fun _ => rfl) (fun _ => rfl) (fun _ => rfl) (fun h => nomatch h) (fun _ => rfl)
theorem upd_safesentA {s : State} {x0 : XFrame} : Touch 0x4000000000000000000000000 s (mkS s.regs s.core s.ang s.sch s.law s.mot s.lane s.edge s.net s.time s.pair (SafetySt.mk s.safe.zone s.safe.shown x0 s.safe.sentB s.safe.rxA s.safe.rxB s.safe.devA s.safe.devB s.safe.staged s.safe.sess s.safe.confirm s.safe.fails s.safe.lockEnd s.safe.sec s.safe.log) s.boot s.host s.freeCtr s.pending) :=
  touch_safe (fun _ => rfl) (fun _ => rfl) (fun h => nomatch h) (fun _ => rfl) (fun _ => rfl) (fun _ => rfl) (fun _ => rfl) (fun _ => rfl) (fun _ => rfl) (fun _ => rfl) (fun _ => rfl) (fun _ => rfl) (fun _ => rfl) (fun _ => rfl) (fun _ => rfl)
theorem upd_safesentB {s : State} {x0 : XFrame} : Touch 0x8000000000000000000000000 s (mkS s.regs s.core s.ang s.sch s.law s.mot s.lane s.edge s.net s.time s.pair (SafetySt.mk s.safe.zone s.safe.shown s.safe.sentA x0 s.safe.rxA s.safe.rxB s.safe.devA s.safe.devB s.safe.staged s.safe.sess s.safe.confirm s.safe.fails s.safe.lockEnd s.safe.sec s.safe.log) s.boot s.host s.freeCtr s.pending) :=
  touch_safe (fun _ => rfl) (fun _ => rfl) (fun _ => rfl) (fun h => nomatch h) (fun _ => rfl) (fun _ => rfl) (fun _ => rfl) (fun _ => rfl) (fun _ => rfl) (fun _ => rfl) (fun _ => rfl) (fun _ => rfl) (fun _ => rfl) (fun _ => rfl) (fun _ => rfl)
theorem upd_safesess {s : State} {x0 : Option (Port × Nat)} : Touch 0x200000000000000000000000000 s (mkS s.regs s.core s.ang s.sch s.law s.mot s.lane s.edge s.net s.time s.pair (SafetySt.mk s.safe.zone s.safe.shown s.safe.sentA s.safe.sentB s.safe.rxA s.safe.rxB s.safe.devA s.safe.devB s.safe.staged x0 s.safe.confirm s.safe.fails s.safe.lockEnd s.safe.sec s.safe.log) s.boot s.host s.freeCtr s.pending) :=
  touch_safe (fun _ => rfl) (fun _ => rfl) (fun _ => rfl) (fun _ => rfl) (fun _ => rfl) (fun _ => rfl) (fun _ => rfl) (fun _ => rfl) (fun _ => rfl) (fun h => nomatch h) (fun _ => rfl) (fun _ => rfl) (fun _ => rfl) (fun _ => rfl) (fun _ => rfl)
theorem upd_safeshown {s : State} {x0 : List Nat} : Touch 0x2000000000000000000000000 s (mkS s.regs s.core s.ang s.sch s.law s.mot s.lane s.edge s.net s.time s.pair (SafetySt.mk s.safe.zone x0 s.safe.sentA s.safe.sentB s.safe.rxA s.safe.rxB s.safe.devA s.safe.devB s.safe.staged s.safe.sess s.safe.confirm s.safe.fails s.safe.lockEnd s.safe.sec s.safe.log) s.boot s.host s.freeCtr s.pending) :=
  touch_safe (fun _ => rfl) (fun h => nomatch h) (fun _ => rfl) (fun _ => rfl) (fun _ => rfl) (fun _ => rfl) (fun _ => rfl) (fun _ => rfl) (fun _ => rfl) (fun _ => rfl) (fun _ => rfl) (fun _ => rfl) (fun _ => rfl) (fun _ => rfl) (fun _ => rfl)
theorem upd_safestaged {s : State} {x0 : Tbl (Option Word)} : Touch 0x100000000000000000000000000 s (mkS s.regs s.core s.ang s.sch s.law s.mot s.lane s.edge s.net s.time s.pair (SafetySt.mk s.safe.zone s.safe.shown s.safe.sentA s.safe.sentB s.safe.rxA s.safe.rxB s.safe.devA s.safe.devB x0 s.safe.sess s.safe.confirm s.safe.fails s.safe.lockEnd s.safe.sec s.safe.log) s.boot s.host s.freeCtr s.pending) :=
  touch_safe (fun _ => rfl) (fun _ => rfl) (fun _ => rfl) (fun _ => rfl) (fun _ => rfl) (fun _ => rfl) (fun _ => rfl) (fun _ => rfl) (fun h => nomatch h) (fun _ => rfl) (fun _ => rfl) (fun _ => rfl) (fun _ => rfl) (fun _ => rfl) (fun _ => rfl)
theorem upd_safezone {s : State} {x0 : Tbl ZoneSt} : Touch 0x1000000000000000000000000 s (mkS s.regs s.core s.ang s.sch s.law s.mot s.lane s.edge s.net s.time s.pair (SafetySt.mk x0 s.safe.shown s.safe.sentA s.safe.sentB s.safe.rxA s.safe.rxB s.safe.devA s.safe.devB s.safe.staged s.safe.sess s.safe.confirm s.safe.fails s.safe.lockEnd s.safe.sec s.safe.log) s.boot s.host s.freeCtr s.pending) :=
  touch_safe (fun h => nomatch h) (fun _ => rfl) (fun _ => rfl) (fun _ => rfl) (fun _ => rfl) (fun _ => rfl) (fun _ => rfl) (fun _ => rfl) (fun _ => rfl) (fun _ => rfl) (fun _ => rfl) (fun _ => rfl) (fun _ => rfl) (fun _ => rfl) (fun _ => rfl)
theorem upd_schdl {s : State} {x0 : Tbl (List DEnt)} : Touch 0x80000 s (mkS s.regs s.core s.ang (SchSt.mk s.sch.started x0 s.sch.ins s.sch.placed s.sch.held s.sch.ready s.sch.unit s.sch.ovr s.sch.ovrHere s.sch.dlStat s.sch.rlStat s.sch.waitStat s.sch.sampled s.sch.published) s.law s.mot s.lane s.edge s.net s.time s.pair s.safe s.boot s.host s.freeCtr s.pending) :=
  touch_sch (fun _ => rfl) (fun h => nomatch h) (fun _ => rfl) (fun _ => rfl) (fun _ => rfl) (fun _ => rfl) (fun _ => rfl) (fun _ => rfl) (fun _ => rfl) (fun _ => rfl) (fun _ => rfl) (fun _ => rfl) (fun _ => rfl) (fun _ => rfl)
theorem upd_schdlStat {s : State} {x0 : Tbl Stat} : Touch 0x8000000 s (mkS s.regs s.core s.ang (SchSt.mk s.sch.started s.sch.dl s.sch.ins s.sch.placed s.sch.held s.sch.ready s.sch.unit s.sch.ovr s.sch.ovrHere x0 s.sch.rlStat s.sch.waitStat s.sch.sampled s.sch.published) s.law s.mot s.lane s.edge s.net s.time s.pair s.safe s.boot s.host s.freeCtr s.pending) :=
  touch_sch (fun _ => rfl) (fun _ => rfl) (fun _ => rfl) (fun _ => rfl) (fun _ => rfl) (fun _ => rfl) (fun _ => rfl) (fun _ => rfl) (fun _ => rfl) (fun h => nomatch h) (fun _ => rfl) (fun _ => rfl) (fun _ => rfl) (fun _ => rfl)
theorem upd_schheld {s : State} {x0 : List Held} : Touch 0x400000 s (mkS s.regs s.core s.ang (SchSt.mk s.sch.started s.sch.dl s.sch.ins s.sch.placed x0 s.sch.ready s.sch.unit s.sch.ovr s.sch.ovrHere s.sch.dlStat s.sch.rlStat s.sch.waitStat s.sch.sampled s.sch.published) s.law s.mot s.lane s.edge s.net s.time s.pair s.safe s.boot s.host s.freeCtr s.pending) :=
  touch_sch (fun _ => rfl) (fun _ => rfl) (fun _ => rfl) (fun _ => rfl) (fun h => nomatch h) (fun _ => rfl) (fun _ => rfl) (fun _ => rfl) (fun _ => rfl) (fun _ => rfl) (fun _ => rfl) (fun _ => rfl) (fun _ => rfl) (fun _ => rfl)
theorem upd_schins {s : State} {x0 : Tbl (Option InsOp)} : Touch 0x100000 s (mkS s.regs s.core s.ang (SchSt.mk s.sch.started s.sch.dl x0 s.sch.placed s.sch.held s.sch.ready s.sch.unit s.sch.ovr s.sch.ovrHere s.sch.dlStat s.sch.rlStat s.sch.waitStat s.sch.sampled s.sch.published) s.law s.mot s.lane s.edge s.net s.time s.pair s.safe s.boot s.host s.freeCtr s.pending) :=
  touch_sch (fun _ => rfl) (fun _ => rfl) (fun h => nomatch h) (fun _ => rfl) (fun _ => rfl) (fun _ => rfl) (fun _ => rfl) (fun _ => rfl) (fun _ => rfl) (fun _ => rfl) (fun _ => rfl) (fun _ => rfl) (fun _ => rfl) (fun _ => rfl)
theorem upd_schovr {s : State} {x0 : Tbl Nat} : Touch 0x2000000 s (mkS s.regs s.core s.ang (SchSt.mk s.sch.started s.sch.dl s.sch.ins s.sch.placed s.sch.held s.sch.ready s.sch.unit x0 s.sch.ovrHere s.sch.dlStat s.sch.rlStat s.sch.waitStat s.sch.sampled s.sch.published) s.law s.mot s.lane s.edge s.net s.time s.pair s.safe s.boot s.host s.freeCtr s.pending) :=
  touch_sch (fun _ => rfl) (fun _ => rfl) (fun _ => rfl) (fun _ => rfl) (fun _ => rfl) (fun _ => rfl) (fun _ => rfl) (fun h => nomatch h) (fun _ => rfl) (fun _ => rfl) (fun _ => rfl) (fun _ => rfl) (fun _ => rfl) (fun _ => rfl)
theorem upd_schovr_schovrHere {s : State} {x0 : Tbl Nat} {x1 : Tbl Bool} : Touch 0x6000000 s (mkS s.regs s.core s.ang (SchSt.mk s.sch.started s.sch.dl s.sch.ins s.sch.placed s.sch.held s.sch.ready s.sch.unit x0 x1 s.sch.dlStat s.sch.rlStat s.sch.waitStat s.sch.sampled s.sch.published) s.law s.mot s.lane s.edge s.net s.time s.pair s.safe s.boot s.host s.freeCtr s.pending) :=
  touch_sch (fun _ => rfl) (fun _ => rfl) (fun _ => rfl) (fun _ => rfl) (fun _ => rfl) (fun _ => rfl) (fun _ => rfl) (fun h => nomatch h) (fun h => nomatch h) (fun _ => rfl) (fun _ => rfl) (fun _ => rfl) (fun _ => rfl) (fun _ => rfl)
theorem upd_schovrHere {s : State} {x0 : Tbl Bool} : Touch 0x4000000 s (mkS s.regs s.core s.ang (SchSt.mk s.sch.started s.sch.dl s.sch.ins s.sch.placed s.sch.held s.sch.ready s.sch.unit s.sch.ovr x0 s.sch.dlStat s.sch.rlStat s.sch.waitStat s.sch.sampled s.sch.published) s.law s.mot s.lane s.edge s.net s.time s.pair s.safe s.boot s.host s.freeCtr s.pending) :=
  touch_sch (fun _ => rfl) (fun _ => rfl) (fun _ => rfl) (fun _ => rfl) (fun _ => rfl) (fun _ => rfl) (fun _ => rfl) (fun _ => rfl) (fun h => nomatch h) (fun _ => rfl) (fun _ => rfl) (fun _ => rfl) (fun _ => rfl) (fun _ => rfl)
theorem upd_schplaced {s : State} {x0 : List (DEnt × Nat)} : Touch 0x200000 s (mkS s.regs s.core s.ang (SchSt.mk s.sch.started s.sch.dl s.sch.ins x0 s.sch.held s.sch.ready s.sch.unit s.sch.ovr s.sch.ovrHere s.sch.dlStat s.sch.rlStat s.sch.waitStat s.sch.sampled s.sch.published) s.law s.mot s.lane s.edge s.net s.time s.pair s.safe s.boot s.host s.freeCtr s.pending) :=
  touch_sch (fun _ => rfl) (fun _ => rfl) (fun _ => rfl) (fun h => nomatch h) (fun _ => rfl) (fun _ => rfl) (fun _ => rfl) (fun _ => rfl) (fun _ => rfl) (fun _ => rfl) (fun _ => rfl) (fun _ => rfl) (fun _ => rfl) (fun _ => rfl)
theorem upd_schpublished {s : State} {x0 : Bool} : Touch 0x80000000 s (mkS s.regs s.core s.ang (SchSt.mk s.sch.started s.sch.dl s.sch.ins s.sch.placed s.sch.held s.sch.ready s.sch.unit s.sch.ovr s.sch.ovrHere s.sch.dlStat s.sch.rlStat s.sch.waitStat s.sch.sampled x0) s.law s.mot s.lane s.edge s.net s.time s.pair s.safe s.boot s.host s.freeCtr s.pending) :=
  touch_sch (fun _ => rfl) (fun _ => rfl) (fun _ => rfl) (fun _ => rfl) (fun _ => rfl) (fun _ => rfl) (fun _ => rfl) (fun _ => rfl) (fun _ => rfl) (fun _ => rfl) (fun _ => rfl) (fun _ => rfl) (fun _ => rfl) (fun h => nomatch h)
theorem upd_schready {s : State} {x0 : Tbl (List REnt)} : Touch 0x800000 s (mkS s.regs s.core s.ang (SchSt.mk s.sch.started s.sch.dl s.sch.ins s.sch.placed s.sch.held x0 s.sch.unit s.sch.ovr s.sch.ovrHere s.sch.dlStat s.sch.rlStat s.sch.waitStat s.sch.sampled s.sch.published) s.law s.mot s.lane s.edge s.net s.time s.pair s.safe s.boot s.host s.freeCtr s.pending) :=
  touch_sch (fun _ => rfl) (fun _ => rfl) (fun _ => rfl) (fun _ => rfl) (fun _ => rfl) (fun h => nomatch h) (fun _ => rfl) (fun _ => rfl) (fun _ => rfl) (fun _ => rfl) (fun _ => rfl) (fun _ => rfl) (fun _ => rfl) (fun _ => rfl)
theorem upd_schrlStat {s : State} {x0 : Tbl Stat} : Touch 0x10000000 s (mkS s.regs s.core s.ang (SchSt.mk s.sch.started s.sch.dl s.sch.ins s.sch.placed s.sch.held s.sch.ready s.sch.unit s.sch.ovr s.sch.ovrHere s.sch.dlStat x0 s.sch.waitStat s.sch.sampled s.sch.published) s.law s.mot s.lane s.edge s.net s.time s.pair s.safe s.boot s.host s.freeCtr s.pending) :=
  touch_sch (fun _ => rfl) (fun _ => rfl) (fun _ => rfl) (fun _ => rfl) (fun _ => rfl) (fun _ => rfl) (fun _ => rfl) (fun _ => rfl) (fun _ => rfl) (fun _ => rfl) (fun h => nomatch h) (fun _ => rfl) (fun _ => rfl) (fun _ => rfl)
theorem upd_schsampled {s : State} {x0 : Nat} : Touch 0x40000000 s (mkS s.regs s.core s.ang (SchSt.mk s.sch.started s.sch.dl s.sch.ins s.sch.placed s.sch.held s.sch.ready s.sch.unit s.sch.ovr s.sch.ovrHere s.sch.dlStat s.sch.rlStat s.sch.waitStat x0 s.sch.published) s.law s.mot s.lane s.edge s.net s.time s.pair s.safe s.boot s.host s.freeCtr s.pending) :=
  touch_sch (fun _ => rfl) (fun _ => rfl) (fun _ => rfl) (fun _ => rfl) (fun _ => rfl) (fun _ => rfl) (fun _ => rfl) (fun _ => rfl) (fun _ => rfl) (fun _ => rfl) (fun _ => rfl) (fun _ => rfl) (fun h => nomatch h) (fun _ => rfl)
theorem upd_schsampled_timefar_timeinteg_timenear_timens_timestart {s : State} {x0 : Nat} {x1 : Nat} {x2 : Int} {x3 : Nat} {x4 : Nat} {x5 : Nat} : Touch 0x1cc00000040000000 s (mkS s.regs s.core s.ang (SchSt.mk s.sch.started s.sch.dl s.sch.ins s.sch.placed s.sch.held s.sch.ready s.sch.unit s.sch.ovr s.sch.ovrHere s.sch.dlStat s.sch.rlStat s.sch.waitStat x0 s.sch.published) s.law s.mot s.lane s.edge s.net (TimeSt.mk x4 x5 s.time.grid s.time.inc x2 x3 x1 s.time.missed s.time.ptp) s.pair s.safe s.boot s.host s.freeCtr s.pending) :=
  touch_of (by intro p hp; cases p <;> first | rfl | exact absurd hp (by decide)) rfl rfl rfl
theorem upd_schsampled_timens {s : State} {x0 : Nat} {x1 : Nat} : Touch 0x400000040000000 s (mkS s.regs s.core s.ang (SchSt.mk s.sch.started s.sch.dl s.sch.ins s.sch.placed s.sch.held s.sch.ready s.sch.unit s.sch.ovr s.sch.ovrHere s.sch.dlStat s.sch.rlStat s.sch.waitStat x0 s.sch.published) s.law s.mot s.lane s.edge s.net (TimeSt.mk x1 s.time.start s.time.grid s.time.inc s.time.integ s.time.near s.time.far s.time.missed s.time.ptp) s.pair s.safe s.boot s.host s.freeCtr s.pending) :=
  touch_of (by intro p hp; cases p <;> first | rfl | exact absurd hp (by decide)) rfl rfl rfl
theorem upd_schstarted {s : State} {x0 : Bool} : Touch 0x40000 s (mkS s.regs s.core s.ang (SchSt.mk x0 s.sch.dl s.sch.ins s.sch.placed s.sch.held s.sch.ready s.sch.unit s.sch.ovr s.sch.ovrHere s.sch.dlStat s.sch.rlStat s.sch.waitStat s.sch.sampled s.sch.published) s.law s.mot s.lane s.edge s.net s.time s.pair s.safe s.boot s.host s.freeCtr s.pending) :=
  touch_sch (fun h => nomatch h) (fun _ => rfl) (fun _ => rfl) (fun _ => rfl) (fun _ => rfl) (fun _ => rfl) (fun _ => rfl) (fun _ => rfl) (fun _ => rfl) (fun _ => rfl) (fun _ => rfl) (fun _ => rfl) (fun _ => rfl) (fun _ => rfl)
theorem upd_schunit {s : State} {x0 : Tbl UnitSt} : Touch 0x1000000 s (mkS s.regs s.core s.ang (SchSt.mk s.sch.started s.sch.dl s.sch.ins s.sch.placed s.sch.held s.sch.ready x0 s.sch.ovr s.sch.ovrHere s.sch.dlStat s.sch.rlStat s.sch.waitStat s.sch.sampled s.sch.published) s.law s.mot s.lane s.edge s.net s.time s.pair s.safe s.boot s.host s.freeCtr s.pending) :=
  touch_sch (fun _ => rfl) (fun _ => rfl) (fun _ => rfl) (fun _ => rfl) (fun _ => rfl) (fun _ => rfl) (fun h => nomatch h) (fun _ => rfl) (fun _ => rfl) (fun _ => rfl) (fun _ => rfl) (fun _ => rfl) (fun _ => rfl) (fun _ => rfl)
theorem upd_schwaitStat {s : State} {x0 : Tbl Stat} : Touch 0x20000000 s (mkS s.regs s.core s.ang (SchSt.mk s.sch.started s.sch.dl s.sch.ins s.sch.placed s.sch.held s.sch.ready s.sch.unit s.sch.ovr s.sch.ovrHere s.sch.dlStat s.sch.rlStat x0 s.sch.sampled s.sch.published) s.law s.mot s.lane s.edge s.net s.time s.pair s.safe s.boot s.host s.freeCtr s.pending) :=
  touch_sch (fun _ => rfl) (fun _ => rfl) (fun _ => rfl) (fun _ => rfl) (fun _ => rfl) (fun _ => rfl) (fun _ => rfl) (fun _ => rfl) (fun _ => rfl) (fun _ => rfl) (fun _ => rfl) (fun h => nomatch h) (fun _ => rfl) (fun _ => rfl)
theorem upd_timefar_timeinteg_timemissed_timenear {s : State} {x0 : Nat} {x1 : Int} {x2 : Nat} {x3 : Nat} : Touch 0x3c000000000000000 s (mkS s.regs s.core s.ang s.sch s.law s.mot s.lane s.edge s.net (TimeSt.mk s.time.ns s.time.start s.time.grid s.time.inc x1 x3 x0 x2 s.time.ptp) s.pair s.safe s.boot s.host s.freeCtr s.pending) :=
  touch_time (fun _ => rfl) (fun _ => rfl) (fun _ => rfl) (fun _ => rfl) (fun h => nomatch h) (fun h => nomatch h) (fun h => nomatch h) (fun h => nomatch h) (fun _ => rfl)
theorem upd_timefar_timenear {s : State} {x0 : Nat} {x1 : Nat} : Touch 0x18000000000000000 s (mkS s.regs s.core s.ang s.sch s.law s.mot s.lane s.edge s.net (TimeSt.mk s.time.ns s.time.start s.time.grid s.time.inc s.time.integ x1 x0 s.time.missed s.time.ptp) s.pair s.safe s.boot s.host s.freeCtr s.pending) :=
  touch_time (fun _ => rfl) (fun _ => rfl) (fun _ => rfl) (fun _ => rfl) (fun _ => rfl) (fun h => nomatch h) (fun h => nomatch h) (fun _ => rfl) (fun _ => rfl)
theorem upd_timegrid {s : State} {x0 : Option (Nat × Nat)} : Touch 0x1000000000000000 s (mkS s.regs s.core s.ang s.sch s.law s.mot s.lane s.edge s.net (TimeSt.mk s.time.ns s.time.start x0 s.time.inc s.time.integ s.time.near s.time.far s.time.missed s.time.ptp) s.pair s.safe s.boot s.host s.freeCtr s.pending) :=
  touch_time (fun _ => rfl) (fun _ => rfl) (fun h => nomatch h) (fun _ => rfl) (fun _ => rfl) (fun _ => rfl) (fun _ => rfl) (fun _ => rfl) (fun _ => rfl)
theorem upd_timegrid_timestart {s : State} {x0 : Option (Nat × Nat)} {x1 : Nat} : Touch 0x1800000000000000 s (mkS s.regs s.core s.ang s.sch s.law s.mot s.lane s.edge s.net (TimeSt.mk s.time.ns x1 x0 s.time.inc s.time.integ s.time.near s.time.far s.time.missed s.time.ptp) s.pair s.safe s.boot s.host s.freeCtr s.pending) :=
  touch_time (fun _ => rfl) (fun h => nomatch h) (fun h => nomatch h) (fun _ => rfl) (fun _ => rfl) (fun _ => rfl) (fun _ => rfl) (fun _ => rfl) (fun _ => rfl)
theorem upd_timeinc {s : State} {x0 : Nat} : Touch 0x2000000000000000 s (mkS s.regs s.core s.ang s.sch s.law s.mot s.lane s.edge s.net (TimeSt.mk s.time.ns s.time.start s.time.grid x0 s.time.integ s.time.near s.time.far s.time.missed s.time.ptp) s.pair s.safe s.boot s.host s.freeCtr s.pending) :=
  touch_time (fun _ => rfl) (fun _ => rfl) (fun _ => rfl) (fun h => nomatch h) (fun _ => rfl) (fun _ => rfl) (fun _ => rfl) (fun _ => rfl) (fun _ => rfl)
theorem upd_timeinteg {s : State} {x0 : Int} : Touch 0x4000000000000000 s (mkS s.regs s.core s.ang s.sch s.law s.mot s.lane s.edge s.net (TimeSt.mk s.time.ns s.time.start s.time.grid s.time.inc x0 s.time.near s.time.far s.time.missed s.time.ptp) s.pair s.safe s.boot s.host s.freeCtr s.pending) :=
  touch_time (fun _ => rfl) (fun _ => rfl) (fun _ => rfl) (fun _ => rfl) (fun h => nomatch h) (fun _ => rfl) (fun _ => rfl) (fun _ => rfl) (fun _ => rfl)
theorem upd_timemissed {s : State} {x0 : Nat} : Touch 0x20000000000000000 s (mkS s.regs s.core s.ang s.sch s.law s.mot s.lane s.edge s.net (TimeSt.mk s.time.ns s.time.start s.time.grid s.time.inc s.time.integ s.time.near s.time.far x0 s.time.ptp) s.pair s.safe s.boot s.host s.freeCtr s.pending) :=
  touch_time (fun _ => rfl) (fun _ => rfl) (fun _ => rfl) (fun _ => rfl) (fun _ => rfl) (fun _ => rfl) (fun _ => rfl) (fun h => nomatch h) (fun _ => rfl)
theorem upd_timens {s : State} {x0 : Nat} : Touch 0x400000000000000 s (mkS s.regs s.core s.ang s.sch s.law s.mot s.lane s.edge s.net (TimeSt.mk x0 s.time.start s.time.grid s.time.inc s.time.integ s.time.near s.time.far s.time.missed s.time.ptp) s.pair s.safe s.boot s.host s.freeCtr s.pending) :=
  touch_time (fun h => nomatch h) (fun _ => rfl) (fun _ => rfl) (fun _ => rfl) (fun _ => rfl) (fun _ => rfl) (fun _ => rfl) (fun _ => rfl) (fun _ => rfl)
theorem upd_timeptp {s : State} {x0 : PtpSt} : Touch 0x40000000000000000 s (mkS s.regs s.core s.ang s.sch s.law s.mot s.lane s.edge s.net (TimeSt.mk s.time.ns s.time.start s.time.grid s.time.inc s.time.integ s.time.near s.time.far s.time.missed x0) s.pair s.safe s.boot s.host s.freeCtr s.pending) :=
  touch_time (fun _ => rfl) (fun _ => rfl) (fun _ => rfl) (fun _ => rfl) (fun _ => rfl) (fun _ => rfl) (fun _ => rfl) (fun _ => rfl) (fun h => nomatch h)

/-! Footprints. -/
def k_wr : Nat := 0x0
def k_wrN : Nat := 0x0
def k_fset : Nat := 0x0
def k_fput : Nat := 0x0
def k_fincSat : Nat := 0x0
def k_fincWrap : Nat := 0x0
def k_wr64 : Nat := 0x0
def k_wrWords : Nat := 0x0
def k_wrRange : Nat := 0x0
def k_wrAll : Nat := 0x0
def k_State_setCtx : Nat := 0x40
def k_State_setFb : Nat := 0x80
def k_State_setRegion : Nat := 0x100
def k_State_setSrc : Nat := 0x2000
def k_State_setDl : Nat := 0x80000
def k_State_setReady : Nat := 0x800000
def k_State_setUnit : Nat := 0x1000000
def k_State_setAxl : Nat := 0x100000000
def k_State_setGen : Nat := 0x1000000000
def k_State_setCo : Nat := 0x4000000000
def k_State_setLink : Nat := 0x1000000000000
def k_State_setSeg : Nat := 0x2000000000000
def k_State_setNode : Nat := 0x4000000000000
def k_State_setAxn : Nat := 0x8000000000000
def k_State_setHport : Nat := 0x10000000000000000000000000000000
def k_eachN : Nat := 0x0
def k_takeFree : Nat := 0x400000000000000000000000000000000000
def k_takeFreeBool : Nat := 0x400000000000000000000000000000000000
def k_addDepths : Nat := 0x18000000
def k_sampleDepths : Nat := 0x58000000
def k_setNow : Nat := 0x8000000000000000000000000000000000000000000400000058000000
def k_reachAt : Nat := 0x8000000000000000000000000000000000000000000400000058000000
def k_sendMsg : Nat := 0x10000000000000000000000000000000
def k_sendEvent : Nat := 0x30000000000000000000000000000000
def k_sendLineEvent : Nat := 0x400030000000000000000000000000000000
def k_withLine : Nat := 0x400030000000000000000000000000000000
def k_storeEntry : Nat := 0x28000000000000000000000000000000000000000000000000000000000000000000000000000000000000000000000000000000000
def k_sediment : Nat := 0x28000000000000000000000000000000000000000000000000000000000000000000000400030000000000000000000000000000000
def k_sedRule : Nat := 0x28000000000000000000000000000000000000000000000000000000000000000000000400030000000000000000000000000000000
def k_sedBusy : Nat := 0x28000000000000000000000000000000000000000000000000000000000000000000000400030000000000000000000000000000000
def k_w1cSet : Nat := 0x28000000000000000000000000000000000000000000000000000000000000000000000400030000000000000000000000000000000
def k_cause : Nat := 0x28000000000000000000000000000000000000000000000000000000000000000000000400030000000000000000000000000000000
def k_addRec : Nat := 0xc000000000000000000000
def k_logPush : Nat := 0x30000000000000000000000000000000000000000000000000000000000800000000000e40000000000c000000000000000000000
def k_logFlush : Nat := 0x30000000000000000000000000000000000000000000000000000000000800000000000f40000000000c000000000000000000000
def k_logSteward : Nat := 0x30000000000000000000000000000000000000000000000000000000000800000000000e40000000000c000000000000000000000
def k_logWrite : Nat := 0x30000000000000000000000000000000000000000000000000000000000800000000000f40000000000c000000000000000000000
def k_setAcc : Nat := 0x200000000000000000000000000000000000
def k_refuseWrite : Nat := 0x2830000000000000000000000000000000000000000000000000000000000800000000060f43000000000c000000000000000000000
def k_gated : Nat := 0x2830000000000000000000000000000000000000000000000000000000000800000000060f43000000000c000000000000000000000
def k_plainEff : Nat := 0x0





















theorem State_setCtx_touch (s : State) (n : Nat) (c : Ctx) : Touch k_State_setCtx s (State.setCtx s n c) := by
  unfold State.setCtx
  simp -zeta -beta -eta only [mk_eq]
  repeat' first
    | ((first | lift_lets -underBinder | skip); with_reducible intro zz; first | ((first | (have _q : CoreSt := zz; clear _q)); dsimp -zeta only [zz]; clear zz) | (refine cut_k (Touch k_State_setCtx s zz) ?_ (fun _ => ?_); rotate_left; clear_value zz; rotate_right) | clear_value zz)
    | with_reducible exact Touch.refl
    | with_reducible assumption
    | decide
    | with_reducible apply Touch.then (upd_corectx ..)

theorem State_setFb_touch (s : State) (n : Nat) (c : Fb) : Touch k_State_setFb s (State.setFb s n c) := by
  unfold State.setFb
  simp -zeta -beta -eta only [mk_eq]
  repeat' first
    | ((first | lift_lets -underBinder | skip); with_reducible intro zz; first | ((first | (have _q : CoreSt := zz; clear _q)); dsimp -zeta only [zz]; clear zz) | (refine cut_k (Touch k_State_setFb s zz) ?_ (fun _ => ?_); rotate_left; clear_value zz; rotate_right) | clear_value zz)
    | with_reducible exact Touch.refl
    | with_reducible assumption
    | decide
    | with_reducible apply Touch.then (upd_corefb ..)

theorem State_setRegion_touch (s : State) (g : Nat) (r : Region) : Touch k_State_setRegion s (State.setRegion s g r) := by
  unfold State.setRegion
  simp -zeta -beta -eta only [mk_eq]
  repeat' first
    | ((first | lift_lets -underBinder | skip); with_reducible intro zz; first | ((first | (have _q : CoreSt := zz; clear _q)); dsimp -zeta only [zz]; clear zz) | (refine cut_k (Touch k_State_setRegion s zz) ?_ (fun _ => ?_); rotate_left; clear_value zz; rotate_right) | clear_value zz)
    | with_reducible exact Touch.refl
    | with_reducible assumption
    | decide
    | with_reducible apply Touch.then (upd_coreregion ..)

theorem State_setSrc_touch (s : State) (n : Nat) (r : Src) : Touch k_State_setSrc s (State.setSrc s n r) := by
  unfold State.setSrc
  simp -zeta -beta -eta only [mk_eq]
  repeat' first
    | ((first | lift_lets -underBinder | skip); with_reducible intro zz; first | ((first | (have _q : AngSt := zz; clear _q)); dsimp -zeta only [zz]; clear zz) | (refine cut_k (Touch k_State_setSrc s zz) ?_ (fun _ => ?_); rotate_left; clear_value zz; rotate_right) | clear_value zz)
    | with_reducible exact Touch.refl
    | with_reducible assumption
    | decide
    | with_reducible apply Touch.then (upd_angsrc ..)

theorem State_setDl_touch (s : State) (n : Nat) (l : List DEnt) : Touch k_State_setDl s (State.setDl s n l) := by
  unfold State.setDl
  simp -zeta -beta -eta only [mk_eq]
  repeat' first
    | ((first | lift_lets -underBinder | skip); with_reducible intro zz; first | ((first | (have _q : SchSt := zz; clear _q)); dsimp -zeta only [zz]; clear zz) | (refine cut_k (Touch k_State_setDl s zz) ?_ (fun _ => ?_); rotate_left; clear_value zz; rotate_right) | clear_value zz)
    | with_reducible exact Touch.refl
    | with_reducible assumption
    | decide
    | with_reducible apply Touch.then (upd_schdl ..)

theorem State_setReady_touch (s : State) (g : Nat) (c : Nat) (l : List REnt) : Touch k_State_setReady s (State.setReady s g c l) := by
  unfold State.setReady
  simp -zeta -beta -eta only [mk_eq]
  repeat' first
    | ((first | lift_lets -underBinder | skip); with_reducible intro zz; first | ((first | (have _q : SchSt := zz; clear _q)); dsimp -zeta only [zz]; clear zz) | (refine cut_k (Touch k_State_setReady s zz) ?_ (fun _ => ?_); rotate_left; clear_value zz; rotate_right) | clear_value zz)
    | with_reducible exact Touch.refl
    | with_reducible assumption
    | decide
    | with_reducible apply Touch.then (upd_schready ..)

theorem State_setUnit_touch (s : State) (u : Nat) (x : UnitSt) : Touch k_State_setUnit s (State.setUnit s u x) := by
  unfold State.setUnit
  simp -zeta -beta -eta only [mk_eq]
  repeat' first
    | ((first | lift_lets -underBinder | skip); with_reducible intro zz; first | ((first | (have _q : SchSt := zz; clear _q)); dsimp -zeta only [zz]; clear zz) | (refine cut_k (Touch k_State_setUnit s zz) ?_ (fun _ => ?_); rotate_left; clear_value zz; rotate_right) | clear_value zz)
    | with_reducible exact Touch.refl
    | with_reducible assumption
    | decide
    | with_reducible apply Touch.then (upd_schunit ..)

theorem State_setAxl_touch (s : State) (n : Nat) (x : AxLaw) : Touch k_State_setAxl s (State.setAxl s n x) := by
  unfold State.setAxl
  simp -zeta -beta -eta only [mk_eq]
  repeat' first
    | ((first | lift_lets -underBinder | skip); with_reducible intro zz; first | ((first | (have _q : LawSt := zz; clear _q)); dsimp -zeta only [zz]; clear zz) | (refine cut_k (Touch k_State_setAxl s zz) ?_ (fun _ => ?_); rotate_left; clear_value zz; rotate_right) | clear_value zz)
    | with_reducible exact Touch.refl
    | with_reducible assumption
    | decide
    | with_reducible apply Touch.then (upd_lawax ..)

theorem State_setGen_touch (s : State) (n : Nat) (x : Gen) : Touch k_State_setGen s (State.setGen s n x) := by
  unfold State.setGen
  simp -zeta -beta -eta only [mk_eq]
  repeat' first
    | ((first | lift_lets -underBinder | skip); with_reducible intro zz; first | ((first | (have _q : MotSt := zz; clear _q)); dsimp -zeta only [zz]; clear zz) | (refine cut_k (Touch k_State_setGen s zz) ?_ (fun _ => ?_); rotate_left; clear_value zz; rotate_right) | clear_value zz)
    | with_reducible exact Touch.refl
    | with_reducible assumption
    | decide
    | with_reducible apply Touch.then (upd_motgen ..)

theorem State_setCo_touch (s : State) (n : Nat) (x : CoSlot) : Touch k_State_setCo s (State.setCo s n x) := by
  unfold State.setCo
  simp -zeta -beta -eta only [mk_eq]
  repeat' first
    | ((first | lift_lets -underBinder | skip); with_reducible intro zz; first | ((first | (have _q : MotSt := zz; clear _q)); dsimp -zeta only [zz]; clear zz) | (refine cut_k (Touch k_State_setCo s zz) ?_ (fun _ => ?_); rotate_left; clear_value zz; rotate_right) | clear_value zz)
    | with_reducible exact Touch.refl
    | with_reducible assumption
    | decide
    | with_reducible apply Touch.then (upd_motco ..)

theorem State_setLink_touch (s : State) (p : Nat) (x : LinkSt) : Touch k_State_setLink s (State.setLink s p x) := by
  unfold State.setLink
  simp -zeta -beta -eta only [mk_eq]
  repeat' first
    | ((first | lift_lets -underBinder | skip); with_reducible intro zz; first | ((first | (have _q : NetSt := zz; clear _q)); dsimp -zeta only [zz]; clear zz) | (refine cut_k (Touch k_State_setLink s zz) ?_ (fun _ => ?_); rotate_left; clear_value zz; rotate_right) | clear_value zz)
    | with_reducible exact Touch.refl
    | with_reducible assumption
    | decide
    | with_reducible apply Touch.then (upd_netlink ..)

theorem State_setSeg_touch (s : State) (g : Nat) (x : SegSt) : Touch k_State_setSeg s (State.setSeg s g x) := by
  unfold State.setSeg
  simp -zeta -beta -eta only [mk_eq]
  repeat' first
    | ((first | lift_lets -underBinder | skip); with_reducible intro zz; first | ((first | (have _q : NetSt := zz; clear _q)); dsimp -zeta only [zz]; clear zz) | (refine cut_k (Touch k_State_setSeg s zz) ?_ (fun _ => ?_); rotate_left; clear_value zz; rotate_right) | clear_value zz)
    | with_reducible exact Touch.refl
    | with_reducible assumption
    | decide
    | with_reducible apply Touch.then (upd_netseg ..)

theorem State_setNode_touch (s : State) (n : Nat) (x : NodeSt) : Touch k_State_setNode s (State.setNode s n x) := by
  unfold State.setNode
  simp -zeta -beta -eta only [mk_eq]
  repeat' first
    | ((first | lift_lets -underBinder | skip); with_reducible intro zz; first | ((first | (have _q : NetSt := zz; clear _q)); dsimp -zeta only [zz]; clear zz) | (refine cut_k (Touch k_State_setNode s zz) ?_ (fun _ => ?_); rotate_left; clear_value zz; rotate_right) | clear_value zz)
    | with_reducible exact Touch.refl
    | with_reducible assumption
    | decide
    | with_reducible apply Touch.then (upd_netnode ..)

theorem State_setAxn_touch (s : State) (n : Nat) (x : AxNet) : Touch k_State_setAxn s (State.setAxn s n x) := by
  unfold State.setAxn
  simp -zeta -beta -eta only [mk_eq]
  repeat' first
    | ((first | lift_lets -underBinder | skip); with_reducible intro zz; first | ((first | (have _q : NetSt := zz; clear _q)); dsimp -zeta only [zz]; clear zz) | (refine cut_k (Touch k_State_setAxn s zz) ?_ (fun _ => ?_); rotate_left; clear_value zz; rotate_right) | clear_value zz)
    | with_reducible exact Touch.refl
    | with_reducible assumption
    | decide
    | with_reducible apply Touch.then (upd_netax ..)

theorem State_setHport_touch (s : State) (p : Nat) (x : HPort) : Touch k_State_setHport s (State.setHport s p x) := by
  unfold State.setHport
  simp -zeta -beta -eta only [mk_eq]
  repeat' first
    | ((first | lift_lets -underBinder | skip); with_reducible intro zz; first | ((first | (have _q : HostSt := zz; clear _q)); dsimp -zeta only [zz]; clear zz) | (refine cut_k (Touch k_State_setHport s zz) ?_ (fun _ => ?_); rotate_left; clear_value zz; rotate_right) | clear_value zz)
    | with_reducible exact Touch.refl
    | with_reducible assumption
    | decide
    | with_reducible apply Touch.then (upd_hostport ..)



theorem takeFree_touch (s : State) : Touch2 k_takeFree s (takeFree s) := by
  unfold takeFree
  simp -zeta -beta -eta only [mk_eq]
  repeat' first
    | ((first | lift_lets -underBinder | skip); with_reducible intro zz; first | (refine cut_k (Touch k_takeFree s zz) ?_ (fun _ => ?_); rotate_left; clear_value zz; rotate_right) | (refine cut_k (Touch2 k_takeFree s zz) ?_ (fun _ => ?_); rotate_left; clear_value zz; rotate_right) | clear_value zz)
    | with_reducible exact Touch.refl
    | with_reducible assumption
    | decide
    | with_reducible refine Touch.snd ?_
    | with_reducible refine touch2_mk ?_
    | exact touch_of2 rfl ‹Touch2 _ _ (_, _)›
    | refine touch_of2 (by assumption) ?_
    | with_reducible apply Touch.then (upd_freeCtr ..)

theorem takeFreeBool_touch (s : State) : Touch2 k_takeFreeBool s (takeFreeBool s) := by
  unfold takeFreeBool
  simp -zeta -beta -eta only [mk_eq]
  repeat' first
    | ((first | lift_lets -underBinder | skip); with_reducible intro zz; first | (refine cut_k (Touch k_takeFreeBool s zz) ?_ (fun _ => ?_); rotate_left; clear_value zz; rotate_right) | (refine cut_k (Touch2 k_takeFreeBool s zz) ?_ (fun _ => ?_); rotate_left; clear_value zz; rotate_right) | clear_value zz)
    | with_reducible exact Touch.refl
    | with_reducible assumption
    | decide
    | with_reducible refine Touch.snd ?_
    | with_reducible refine touch2_mk ?_
    | exact touch_of2 rfl ‹Touch2 _ _ (_, _)›
    | refine touch_of2 (by assumption) ?_
    | with_reducible apply Touch.then (upd_freeCtr ..)

theorem addDepths_touch (k : Nat) (s : State) : Touch k_addDepths s (addDepths k s) := by
  unfold addDepths
  simp -zeta -beta -eta only [mk_eq]
  repeat' first
    | ((first | lift_lets -underBinder | skip); with_reducible intro zz; first | ((first | (have _q : SchSt := zz; clear _q)); dsimp -zeta only [zz]; clear zz) | (refine cut_k (Touch k_addDepths s zz) ?_ (fun _ => ?_); rotate_left; clear_value zz; rotate_right) | clear_value zz)
    | with_reducible exact Touch.refl
    | with_reducible assumption
    | decide
    | with_reducible refine ite_k ?_ ?_
    | with_reducible refine eachN_k (fun _ _ _ => ?_) ?_
    | unfold zz; try dsimp -zeta only
    | with_reducible apply Touch.then (upd_schdlStat ..)
    | with_reducible apply Touch.then (upd_schrlStat ..)

theorem sampleDepths_touch (ns : Nat) (s : State) : Touch k_sampleDepths s (sampleDepths ns s) := by
  unfold sampleDepths
  simp -zeta -beta -eta only [mk_eq]
  repeat' first
    | ((first | lift_lets -underBinder | skip); with_reducible intro zz; first | ((first | (have _q : SchSt := zz; clear _q)); dsimp -zeta only [zz]; clear zz) | (refine cut_k (Touch k_sampleDepths s zz) ?_ (fun _ => ?_); rotate_left; clear_value zz; rotate_right) | clear_value zz)
    | with_reducible exact Touch.refl
    | with_reducible assumption
    | decide
    | with_reducible refine ite_k ?_ ?_
    | with_reducible apply Touch.then (addDepths_touch ..)
    | unfold zz; try dsimp -zeta only
    | with_reducible apply Touch.then (upd_schsampled ..)

theorem setNow_touch (ns : Nat) (s : State) : Touch k_setNow s (setNow ns s) := by
  unfold setNow
  simp -zeta -beta -eta only [mk_eq]
  repeat' first
    | ((first | lift_lets -underBinder | skip); with_reducible intro zz; first | ((first | (have _q : TimeSt := zz; clear _q)); dsimp -zeta only [zz]; clear zz) | (refine cut_k (Touch k_setNow s zz) ?_ (fun _ => ?_); rotate_left; clear_value zz; rotate_right) | clear_value zz)
    | with_reducible exact Touch.refl
    | with_reducible assumption
    | decide
    | with_reducible exact okw_TIME_STATUS (by decide)
    | with_reducible refine ite_k ?_ ?_
    | with_reducible refine fset_w ?_ ?_
    | with_reducible apply Touch.then (sampleDepths_touch ..)
    | unfold zz; try dsimp -zeta only
    | with_reducible apply Touch.then (upd_timens ..)

theorem reachAt_touch (ofs : Nat) (s : State) : Touch k_reachAt s (reachAt ofs s) := by
  unfold reachAt
  repeat' first
    | with_reducible exact Touch.refl
    | with_reducible assumption
    | decide
    | with_reducible apply Touch.then (setNow_touch ..)

theorem sendMsg_touch (p : Nat) (m : Msg) (s : State) : Touch k_sendMsg s (sendMsg p m s) := by
  unfold sendMsg
  repeat' first
    | ((first | lift_lets -underBinder | skip); with_reducible intro zz; first | (refine cut_k (Touch k_sendMsg s zz) ?_ (fun _ => ?_); rotate_left; clear_value zz; rotate_right) | clear_value zz)
    | with_reducible exact Touch.refl
    | with_reducible assumption
    | decide
    | with_reducible refine ite_k ?_ ?_
    | with_reducible apply Touch.then (State_setHport_touch ..)
    | unfold zz; try dsimp -zeta only

theorem sendEvent_touch (q : Nat) (takes : Session → Bool) (tag : Nat) (key : Nat) (pay : Nat) (s : State) : Touch k_sendEvent s (sendEvent q takes tag key pay s) := by
  unfold sendEvent
  simp -zeta -beta -eta only [mk_eq]
  repeat' first
    | ((first | lift_lets -underBinder | skip); with_reducible intro zz; first | ((first | (have _q : HostSt := zz; clear _q)); dsimp -zeta only [zz]; clear zz) | (refine cut_k (Touch k_sendEvent s zz) ?_ (fun _ => ?_); rotate_left; clear_value zz; rotate_right) | clear_value zz)
    | with_reducible exact Touch.refl
    | with_reducible assumption
    | decide
    | with_reducible refine foldl_k (fun _ _ _ => ?_) ?_
    | with_reducible refine ite_k ?_ ?_
    | with_reducible apply Touch.then (sendMsg_touch ..)
    | unfold zz; try dsimp -zeta only
    | with_reducible apply Touch.then (upd_hostsessions ..)

theorem sendLineEvent_touch (s : State) : Touch k_sendLineEvent s (sendLineEvent s) := by
  unfold sendLineEvent
  simp -zeta -beta -eta only [mk_eq]
  repeat' first
    | ((first | lift_lets -underBinder | skip); with_reducible intro zz; first | (refine cut_k (Touch k_sendLineEvent s zz) ?_ (fun _ => ?_); rotate_left; clear_value zz; rotate_right) | clear_value zz)
    | with_reducible exact Touch.refl
    | with_reducible assumption
    | decide
    | with_reducible refine ite_k ?_ ?_
    | with_reducible apply Touch.then (sendEvent_touch ..)
    | unfold zz; try dsimp -zeta only
    | with_reducible apply Touch.then (upd_freeCtr ..)

theorem withLine_k {m : Nat} {r : State} {b : Nat} {f : State → State} {s : State} (hm : k_withLine &&& m = k_withLine) (hf : ∀ t, Touch m r t → Touch m r (f t))
    (hs : Touch m r s) : Touch m r (withLine b f s) := by
  unfold withLine
  exact ite_k (hf s hs) (Touch.then (sendLineEvent_touch _) hm (hf s hs))

theorem storeEntry_touch (b : Nat) (sev : Nat) (code : Nat) (ctx : Nat) (s : State) : Touch k_storeEntry s (storeEntry b sev code ctx s) := by
  unfold storeEntry
  repeat' first
    | ((first | lift_lets -underBinder | skip); with_reducible intro zz; first | (refine cut_k (Touch k_storeEntry s zz) ?_ (fun _ => ?_); rotate_left; clear_value zz; rotate_right) | clear_value zz)
    | with_reducible exact Touch.refl
    | with_reducible assumption
    | decide
    | with_reducible exact okw_DIAG_STATUS (by decide)
    | with_reducible exact okw_SED (by decide)
    | with_reducible refine ite_k ?_ ?_
    | with_reducible refine fset_w ?_ ?_
    | with_reducible refine wrN_w ?_ ?_
    | unfold zz; try dsimp -zeta only

theorem sediment_touch (b : Nat) (sev : Nat) (code : Nat) (ctx : Nat) (s : State) : Touch k_sediment s (sediment b sev code ctx s) := by
  unfold sediment
  repeat' first
    | with_reducible exact Touch.refl
    | with_reducible assumption
    | decide
    | with_reducible apply Touch.then (storeEntry_touch ..)
    | with_reducible refine withLine_k ?_ (fun _ _ => ?_) ?_

theorem sedRule_touch (a : Nat) (s : State) : Touch k_sedRule s (sedRule a s) := by
  unfold sedRule
  repeat' first
    | with_reducible exact Touch.refl
    | with_reducible assumption
    | decide
    | with_reducible apply Touch.then (sediment_touch ..)

theorem sedBusy_touch (a : Nat) (s : State) : Touch k_sedBusy s (sedBusy a s) := by
  unfold sedBusy
  repeat' first
    | with_reducible exact Touch.refl
    | with_reducible assumption
    | decide
    | with_reducible apply Touch.then (sediment_touch ..)

theorem w1cSet_w {m : Nat} {r s : State} {a obj : Nat} {f : R.Fld} (hm : k_w1cSet &&& m = k_w1cSet) (h : Touch m r s) (hw : okw m a) :
    Touch m r (w1cSet a f obj s) := by
  unfold w1cSet
  exact ite_k h (Touch.then (sediment_touch ..) hm (fset_w h hw))

theorem cause_touch (code : Nat) (detail : Nat) (s : State) : Touch k_cause s (cause code detail s) := by
  unfold cause
  repeat' first
    | with_reducible exact Touch.refl
    | with_reducible assumption
    | decide
    | with_reducible refine ite_k ?_ ?_
    | with_reducible apply Touch.then (sediment_touch ..)

theorem addRec_touch (kind : Nat) (port : Port) (data : List (BitVec 8)) (s : State) : Touch k_addRec s (addRec kind port data s) := by
  unfold addRec
  simp -zeta -beta -eta only [mk_eq]
  repeat' first
    | ((first | lift_lets -underBinder | skip); with_reducible intro zz; first | ((first | (have _q : PairSt := zz; clear _q)); dsimp -zeta only [zz]; clear zz) | (refine cut_k (Touch k_addRec s zz) ?_ (fun _ => ?_); rotate_left; clear_value zz; rotate_right) | clear_value zz)
    | with_reducible exact Touch.refl
    | with_reducible assumption
    | decide
    | unfold zz; try dsimp -zeta only
    | with_reducible apply Touch.then (upd_pairrecs_pairrseq ..)

theorem logPush_touch (r : LogRec) (s : State) : Touch k_logPush s (logPush r s) := by
  unfold logPush
  simp -zeta -beta -eta only [mk_eq]
  repeat' first
    | ((first | lift_lets -underBinder | skip); with_reducible intro zz; first | ((first | (have _q : HostSt := zz; clear _q)); dsimp -zeta only [zz]; clear zz) | (refine cut_k (okw k_logPush zz) (by with_reducible first | exact okw_LOG_LOST (by decide) | exact okw_LOG_HEAD (by decide) | exact okw_LOG_NVM (by decide)) (fun _ => ?_); clear_value zz) | (refine cut_k (Touch k_logPush s zz) ?_ (fun _ => ?_); rotate_left; clear_value zz; rotate_right) | clear_value zz)
    | with_reducible exact Touch.refl
    | with_reducible assumption
    | decide
    | with_reducible exact okw_LOG_LOST (by decide)
    | with_reducible exact okw_LOG_HEAD (by decide)
    | with_reducible exact okw_LOG_NVM (by decide)
    | with_reducible refine ite_k ?_ ?_
    | with_reducible refine fset_w ?_ ?_
    | with_reducible refine wrN_w ?_ ?_
    | with_reducible apply Touch.then (addRec_touch ..)
    | unfold zz; try dsimp -zeta only
    | with_reducible apply Touch.then (upd_hostlost ..)
    | with_reducible apply Touch.then (upd_hostlog_hostseq_hostsub ..)

theorem logFlush_touch (s : State) : Touch k_logFlush s (logFlush s) := by
  unfold logFlush
  simp -zeta -beta -eta only [mk_eq]
  repeat' first
    | ((first | lift_lets -underBinder | skip); with_reducible intro zz; first | ((first | (have _q : HostSt := zz; clear _q)); dsimp -zeta only [zz]; clear zz) | (refine cut_k (Touch k_logFlush s zz) ?_ (fun _ => ?_); rotate_left; clear_value zz; rotate_right) | clear_value zz)
    | with_reducible exact Touch.refl
    | with_reducible assumption
    | decide
    | with_reducible refine foldl_k (fun _ _ _ => ?_) ?_
    | with_reducible apply Touch.then (logPush_touch ..)
    | with_reducible apply Touch.then (upd_hostmerge ..)

theorem logSteward_touch (kind : Nat) (result : Nat) (object : Nat) (detail : Nat) (s : State) : Touch k_logSteward s (logSteward kind result object detail s) := by
  unfold logSteward
  repeat' first
    | with_reducible exact Touch.refl
    | with_reducible assumption
    | decide
    | with_reducible apply Touch.then (logPush_touch ..)

theorem logWrite_touch (w : Who) (a : Nat) (old : Word) (new : Word) (status : Nat) (s : State) : Touch k_logWrite s (logWrite w a old new status s) := by
  unfold logWrite
  simp -zeta -beta -eta only [mk_eq]
  repeat' first
    | ((first | lift_lets -underBinder | skip); with_reducible intro zz; first | ((first | (have _q : HostSt := zz; clear _q)); dsimp -zeta only [zz]; clear zz) | (refine cut_k (Touch k_logWrite s zz) ?_ (fun _ => ?_); rotate_left; clear_value zz; rotate_right) | clear_value zz)
    | with_reducible exact Touch.refl
    | with_reducible assumption
    | decide
    | with_reducible refine ite_k ?_ ?_
    | with_reducible apply Touch.then (logPush_touch ..)
    | unfold zz; try dsimp -zeta only
    | split
    | with_reducible apply Touch.then (upd_hostmerge ..)

theorem setAcc_touch (st : Nat) (v : Word) (s : State) : Touch k_setAcc s (setAcc st v s) := by
  unfold setAcc
  simp -zeta -beta -eta only [mk_eq]
  repeat' first
    | ((first | lift_lets -underBinder | skip); with_reducible intro zz; first | ((first | (have _q : HostSt := zz; clear _q)); dsimp -zeta only [zz]; clear zz) | (refine cut_k (Touch k_setAcc s zz) ?_ (fun _ => ?_); rotate_left; clear_value zz; rotate_right) | clear_value zz)
    | with_reducible exact Touch.refl
    | with_reducible assumption
    | decide
    | with_reducible apply Touch.then (upd_hostacc ..)

theorem refuseWrite_touch (w : Who) (a : Nat) (v : Word) (code : Nat) (s : State) : Touch k_refuseWrite s (refuseWrite w a v code s) := by
  unfold refuseWrite
  repeat' first
    | with_reducible exact Touch.refl
    | with_reducible assumption
    | decide
    | with_reducible apply Touch.then (sediment_touch ..)
    | with_reducible apply Touch.then (logWrite_touch ..)
    | with_reducible apply Touch.then (setAcc_touch ..)

theorem gated_k {m : Nat} {r : State} {w : Who} {a : Nat} {v : Word} {eff : Eff} {s : State} (hm : k_gated &&& m = k_gated) (he : TouchO m r (eff s))
    (hs : Touch m r s) : Touch m r (gated w a v eff s) := by
  unfold gated
  refine ite_k ?_ (Touch.then (refuseWrite_touch ..) hm hs)
  split
  · rename_i t ht
    exact Touch.then (Touch.then (setAcc_touch ..) rfl (Touch.then (logWrite_touch ..) rfl Touch.refl)) hm
      (ite_k (Touch.then (addRec_touch ..) (sub_trans (b := k_gated) rfl hm) hs) (he t ht))
  · exact Touch.then (refuseWrite_touch ..) hm hs

theorem plainEff_w {m : Nat} {r s : State} {a : Nat} {v : Word} (h : Touch m r s) (hw : okw m a) : TouchO m r (plainEff a v s) := by
  unfold plainEff
  intro t e
  skip
  split at e
  · cases e; exact h
  · cases e; exact wr_w h hw

end Sys2Proof.Laws
end

