-- ==== Sys2Proof/Laws/TouchAxisOps.lean ====
section
/-! SUPPORT. What each operation of Machine/AxisOps.lean can touch: one lemma per operation, by footprint (Laws/Touch.lean). -/

set_option linter.unusedTactic false
set_option linter.unreachableTactic false
set_option linter.unusedSimpArgs false
set_option linter.unusedVariables false

namespace Sys2Proof.Laws
open Sys2Proof Sys2Proof.Machine R

/-! Footprints. -/
def k_putState : Nat := 0x8000000000000000000000000000000000000000000000000000000000000000000
def k_clearInit : Nat := 0x28000000000000000000000000000000000000000000000000000000000000000000
def k_pfEvent : Nat := 0x28000000000000000000000000000000000100000000000000000000000000000000000400030000000000000000000000000000000
def k_setQueue : Nat := 0x100000000000000000000000000000000000000000000000000000000000001000000000
def k_setGmode : Nat := 0x100000000000000000000000000000000000000000000000000000000000000000000000
def k_showGen : Nat := 0x300000000000000000000000000000000000000000000000000000000000000000000000000
def k_genOff : Nat := 0x200300100000000000000000000000000000000000000000000000000000000000001000000000
def k_imageRewrite : Nat := 0x0
def k_resetWords : Nat := 0x0
def k_outputsOff : Nat := 0x100000000
def k_showSrc : Nat := 0x20000000000000000000000000000000000000000000000000000000000000000000
def k_react : Nat := 0x28000000000000000000000000000200300100028000000000000000000000000000000400030000000000000000000001100000000
def k_raiseCause : Nat := 0x28000000000000000000000000000200300100068000000000000000000000000000000400030000000000000000000001100000000
def k_endCause : Nat := 0x20000000000000000000000000000000000000000000000000000000000100000000
def k_judgeCause : Nat := 0x28000000000000000000000000000200300100068000000000000000000000000000000400030000000000000000000001100000000
def k_setCond : Nat := 0x1000000000000000000000000000000000000000000000000
def k_enterOff : Nat := 0x200300100038000000000000000000000000000000000000000000000000000000001100000000
def k_setRegState : Nat := 0x100000000000000000000000000000000000000000000000
def k_showContexts : Nat := 0x100000000000000000000000000000000000000000000000
def k_startQuarantine : Nat := 0x2830000000000000000000000000000000000000000000000000000000010800000000040e43000000000c000000000000000000100
def k_tileError : Nat := 0x2830000000000000000000000000000000000000000000000000000000030800000000040e43000000000c000000000000000000100
def k_startJob : Nat := 0x1000000000000000000000000000000000000000000000
def k_endJob : Nat := 0x1000000000000000000000000000000000000000000000
def k_startTornErase : Nat := 0x1000000000000000000000000000000000000000000000
def k_fiHit : Nat := 0x4000000000000000000000000000000000000000000000000000000000000000000000010000000000000000000000000000000000

theorem putState_touch (s : State) (n : Nat) (t : List Word) : Touch k_putState s (putState s n t) := by
  unfold putState
  repeat' first
    | with_reducible exact Touch.refl
    | with_reducible assumption
    | decide
    | with_reducible exact okw_STATE_TILE (by decide)
    | with_reducible exact fun _ => okw_STATE_TILE (by decide)
    | with_reducible refine wrAll_w ?_ ?_

theorem clearInit_touch (n : Nat) (s : State) : Touch k_clearInit s (clearInit n s) := by
  unfold clearInit
  repeat' first
    | ((first | lift_lets -underBinder | skip); with_reducible intro zz; first | (refine cut_k (Touch k_clearInit s zz) ?_ (fun _ => ?_); rotate_left; clear_value zz; rotate_right) | (refine cut_k (∀ t, Touch k_clearInit s t → Touch k_clearInit s (zz t)) (fun _ _ => ?_) (fun _ => ?_); rotate_left; clear_value zz; rotate_right) | (refine cut_k (∀ a t, Touch k_clearInit s t → Touch k_clearInit s (zz a t)) (fun _ _ _ => ?_) (fun _ => ?_); rotate_left; clear_value zz; rotate_right) | (refine cut_k (∀ a b t, Touch k_clearInit s t → Touch k_clearInit s (zz a b t)) (fun _ _ _ _ => ?_) (fun _ => ?_); rotate_left; clear_value zz; rotate_right) | (refine cut_k (∀ a b c d t, Touch k_clearInit s t → Touch k_clearInit s (zz a b c d t)) (fun _ _ _ _ _ _ => ?_) (fun _ => ?_); rotate_left; clear_value zz; rotate_right) | clear_value zz)
    | with_reducible exact Touch.refl
    | with_reducible assumption
    | decide
    | with_reducible exact okw_AX_STATUS (by decide)
    | with_reducible refine fput_w ?_ ?_
    | with_reducible apply Touch.then (putState_touch ..)
    | unfold zz; try dsimp -zeta only
    | with_reducible apply_assumption

theorem pfEvent_touch (n : Nat) (code : Nat) (f : Option Fld) (s : State) : Touch k_pfEvent s (pfEvent n code f s) := by
  unfold pfEvent
  repeat' first
    | ((first | lift_lets -underBinder | skip); with_reducible intro zz; first | (refine cut_k (Touch k_pfEvent s zz) ?_ (fun _ => ?_); rotate_left; clear_value zz; rotate_right) | clear_value zz)
    | with_reducible exact Touch.refl
    | with_reducible assumption
    | decide
    | with_reducible exact okw_PF_STATUS (by decide)
    | with_reducible refine w1cSet_w ?_ ?_ ?_
    | with_reducible refine fset_w ?_ ?_
    | unfold zz; try dsimp -zeta only
    | split

theorem setQueue_touch (n : Nat) (q : List Int) (s : State) : Touch k_setQueue s (setQueue n q s) := by
  unfold setQueue
  repeat' first
    | ((first | lift_lets -underBinder | skip); with_reducible intro zz; first | (refine cut_k (Touch k_setQueue s zz) ?_ (fun _ => ?_); rotate_left; clear_value zz; rotate_right) | clear_value zz)
    | with_reducible exact Touch.refl
    | with_reducible assumption
    | decide
    | with_reducible exact okw_PF_STATUS (by decide)
    | with_reducible refine fput_w ?_ ?_
    | with_reducible refine fset_w ?_ ?_
    | with_reducible apply Touch.then (State_setGen_touch ..)
    | unfold zz; try dsimp -zeta only

theorem setGmode_touch (n : Nat) (m : Nat) (s : State) : Touch k_setGmode s (setGmode n m s) := by
  unfold setGmode
  repeat' first
    | with_reducible exact Touch.refl
    | with_reducible assumption
    | decide
    | with_reducible exact okw_PF_STATUS (by decide)
    | with_reducible refine fset_w ?_ ?_

theorem showGen_touch (n : Nat) (vel : Int) (s : State) : Touch k_showGen s (showGen n vel s) := by
  unfold showGen
  repeat' first
    | with_reducible exact Touch.refl
    | with_reducible assumption
    | decide
    | with_reducible exact okw_PF_VEL (by decide)
    | with_reducible exact okw_PF_POS (by decide)
    | with_reducible refine wr64_w ?_ ?_ ?_

theorem genOff_touch (n : Nat) (s : State) : Touch k_genOff s (genOff n s) := by
  unfold genOff
  repeat' first
    | ((first | lift_lets -underBinder | skip); with_reducible intro zz; first | (refine cut_k (Touch k_genOff s zz) ?_ (fun _ => ?_); rotate_left; clear_value zz; rotate_right) | clear_value zz)
    | with_reducible exact Touch.refl
    | with_reducible assumption
    | decide
    | with_reducible exact okw_PF_STATUS (by decide)
    | with_reducible exact okw_PF_HOME_STATUS (by decide)
    | with_reducible refine fput_w ?_ ?_
    | with_reducible refine fset_w ?_ ?_
    | with_reducible apply Touch.then (State_setGen_touch ..)
    | with_reducible apply Touch.then (setQueue_touch ..)
    | with_reducible apply Touch.then (setGmode_touch ..)
    | with_reducible apply Touch.then (showGen_touch ..)
    | unfold zz; try dsimp -zeta only





theorem outputsOff_touch (n : Nat) (s : State) : Touch k_outputsOff s (outputsOff n s) := by
  unfold outputsOff
  repeat' first
    | ((first | lift_lets -underBinder | skip); with_reducible intro zz; first | (refine cut_k (Touch k_outputsOff s zz) ?_ (fun _ => ?_); rotate_left; clear_value zz; rotate_right) | clear_value zz)
    | with_reducible exact Touch.refl
    | with_reducible assumption
    | decide
    | with_reducible refine ite_k ?_ ?_
    | with_reducible apply Touch.then (State_setAxl_touch ..)
    | unfold zz; try dsimp -zeta only

theorem showSrc_touch (n : Nat) (s : State) : Touch k_showSrc s (showSrc n s) := by
  unfold showSrc
  repeat' first
    | with_reducible exact Touch.refl
    | with_reducible assumption
    | decide
    | with_reducible exact okw_AX_STATUS (by decide)
    | with_reducible refine fset_w ?_ ?_

theorem react_touch (n : Nat) (code : Nat) (r : Nat) (s : State) : Touch k_react s (react n code r s) := by
  unfold react
  repeat' first
    | ((first | lift_lets -underBinder | skip); with_reducible intro zz; first | (refine cut_k (okw k_react zz) (by with_reducible first | exact okw_AX_STATUS (by decide) | exact okw_PF_HOME_STATUS (by decide)) (fun _ => ?_); clear_value zz) | (refine cut_k (Touch k_react s zz) ?_ (fun _ => ?_); rotate_left; clear_value zz; rotate_right) | clear_value zz)
    | with_reducible exact Touch.refl
    | with_reducible assumption
    | decide
    | with_reducible exact okw_AX_STATUS (by decide)
    | with_reducible exact okw_PF_HOME_STATUS (by decide)
    | with_reducible refine ite_k ?_ ?_
    | with_reducible refine fset_w ?_ ?_
    | with_reducible apply Touch.then (State_setGen_touch ..)
    | with_reducible apply Touch.then (outputsOff_touch ..)
    | with_reducible apply Touch.then (clearInit_touch ..)
    | with_reducible apply Touch.then (sediment_touch ..)
    | with_reducible apply Touch.then (pfEvent_touch ..)
    | with_reducible apply Touch.then (showSrc_touch ..)
    | with_reducible apply Touch.then (genOff_touch ..)
    | unfold zz; try dsimp -zeta only
    | split

theorem raiseCause_touch (n : Nat) (code : Nat) (s : State) : Touch k_raiseCause s (raiseCause n code s) := by
  unfold raiseCause
  repeat' first
    | ((first | lift_lets -underBinder | skip); with_reducible intro zz; first | (refine cut_k (Touch k_raiseCause s zz) ?_ (fun _ => ?_); rotate_left; clear_value zz; rotate_right) | clear_value zz)
    | with_reducible exact Touch.refl
    | with_reducible assumption
    | decide
    | with_reducible exact okw_AX_FAULT (by decide)
    | with_reducible refine ite_k ?_ ?_
    | with_reducible refine fincSat_w ?_ ?_
    | with_reducible refine w1cSet_w ?_ ?_ ?_
    | with_reducible refine fset_w ?_ ?_
    | with_reducible apply Touch.then (State_setAxl_touch ..)
    | with_reducible apply Touch.then (sediment_touch ..)
    | with_reducible apply Touch.then (react_touch ..)
    | unfold zz; try dsimp -zeta only

theorem endCause_touch (n : Nat) (code : Nat) (s : State) : Touch k_endCause s (endCause n code s) := by
  unfold endCause
  repeat' first
    | ((first | lift_lets -underBinder | skip); with_reducible intro zz; first | (refine cut_k (Touch k_endCause s zz) ?_ (fun _ => ?_); rotate_left; clear_value zz; rotate_right) | clear_value zz)
    | with_reducible exact Touch.refl
    | with_reducible assumption
    | decide
    | with_reducible exact okw_AX_STATUS (by decide)
    | with_reducible refine ite_k ?_ ?_
    | with_reducible refine fset_w ?_ ?_
    | with_reducible apply Touch.then (State_setAxl_touch ..)
    | with_reducible apply Touch.then (showSrc_touch ..)
    | unfold zz; try dsimp -zeta only

theorem judgeCause_touch (n : Nat) (code : Nat) (found : Bool) (s : State) : Touch k_judgeCause s (judgeCause n code found s) := by
  unfold judgeCause
  repeat' first
    | with_reducible exact Touch.refl
    | with_reducible assumption
    | decide
    | with_reducible refine ite_k ?_ ?_
    | with_reducible apply Touch.then (raiseCause_touch ..)
    | with_reducible apply Touch.then (endCause_touch ..)

theorem setCond_touch (f : Fld) (b : Bool) (s : State) : Touch k_setCond s (setCond f b s) := by
  unfold setCond
  repeat' first
    | ((first | lift_lets -underBinder | skip); with_reducible intro zz; first | (refine cut_k (Touch k_setCond s zz) ?_ (fun _ => ?_); rotate_left; clear_value zz; rotate_right) | clear_value zz)
    | with_reducible exact Touch.refl
    | with_reducible assumption
    | decide
    | with_reducible exact okw_SCH_STATUS (by decide)
    | with_reducible refine fput_w ?_ ?_
    | unfold zz; try dsimp -zeta only

theorem enterOff_touch (n : Nat) (s : State) : Touch k_enterOff s (enterOff n s) := by
  unfold enterOff
  repeat' first
    | with_reducible exact Touch.refl
    | with_reducible assumption
    | decide
    | with_reducible exact okw_AX_CTRL (by decide)
    | with_reducible refine fset_w ?_ ?_
    | with_reducible apply Touch.then (outputsOff_touch ..)
    | with_reducible apply Touch.then (clearInit_touch ..)
    | with_reducible apply Touch.then (showSrc_touch ..)
    | with_reducible apply Touch.then (genOff_touch ..)

theorem setRegState_touch (g : Nat) (x : Nat) (s : State) : Touch k_setRegState s (setRegState g x s) := by
  unfold setRegState
  repeat' first
    | with_reducible exact Touch.refl
    | with_reducible assumption
    | decide
    | with_reducible exact okw_REGION_STATUS (by decide)
    | with_reducible refine fset_w ?_ ?_

theorem showContexts_touch (s : State) : Touch k_showContexts s (showContexts s) := by
  unfold showContexts
  repeat' first
    | with_reducible exact Touch.refl
    | with_reducible assumption
    | decide
    | with_reducible exact okw_REGION_STATUS (by decide)
    | with_reducible refine fset_w ?_ ?_
    | with_reducible refine eachN_k (fun _ _ _ => ?_) ?_

theorem startQuarantine_touch (g : Nat) (s : State) : Touch k_startQuarantine s (startQuarantine g s) := by
  unfold startQuarantine
  repeat' first
    | ((first | lift_lets -underBinder | skip); with_reducible intro zz; first | (refine cut_k (Touch k_startQuarantine s zz) ?_ (fun _ => ?_); rotate_left; clear_value zz; rotate_right) | clear_value zz)
    | with_reducible exact Touch.refl
    | with_reducible assumption
    | decide
    | with_reducible apply Touch.then (State_setRegion_touch ..)
    | with_reducible apply Touch.then (setRegState_touch ..)
    | with_reducible apply Touch.then (logSteward_touch ..)
    | with_reducible apply Touch.then (cause_touch ..)
    | unfold zz; try dsimp -zeta only
    | split

theorem tileError_touch (g : Nat) (s : State) : Touch k_tileError s (tileError g s) := by
  unfold tileError
  repeat' first
    | ((first | lift_lets -underBinder | skip); with_reducible intro zz; first | (refine cut_k (Touch k_tileError s zz) ?_ (fun _ => ?_); rotate_left; clear_value zz; rotate_right) | clear_value zz)
    | with_reducible exact Touch.refl
    | with_reducible assumption
    | decide
    | with_reducible exact okw_REGION_TILE_ERR (by decide)
    | with_reducible refine ite_k ?_ ?_
    | with_reducible refine fincSat_w ?_ ?_
    | with_reducible apply Touch.then (startQuarantine_touch ..)
    | unfold zz; try dsimp -zeta only

theorem startJob_touch (kind : Nat) (s : State) : Touch k_startJob s (startJob kind s) := by
  unfold startJob
  repeat' first
    | with_reducible exact Touch.refl
    | with_reducible assumption
    | decide
    | with_reducible exact okw_IMG_JOB (by decide)
    | with_reducible refine wrN_w ?_ ?_

theorem endJob_touch (result : Nat) (s : State) : Touch k_endJob s (endJob result s) := by
  unfold endJob
  repeat' first
    | ((first | lift_lets -underBinder | skip); with_reducible intro zz; first | (refine cut_k (Touch k_endJob s zz) ?_ (fun _ => ?_); rotate_left; clear_value zz; rotate_right) | clear_value zz)
    | with_reducible exact Touch.refl
    | with_reducible assumption
    | decide
    | with_reducible exact okw_IMG_JOB (by decide)
    | with_reducible refine ite_k ?_ ?_
    | with_reducible refine fput_w ?_ ?_
    | with_reducible refine fset_w ?_ ?_
    | unfold zz; try dsimp -zeta only

theorem startTornErase_touch (s : State) : Touch k_startTornErase s (startTornErase s) := by
  unfold startTornErase
  repeat' first
    | with_reducible exact Touch.refl
    | with_reducible assumption
    | decide
    | with_reducible refine ite_k ?_ ?_
    | with_reducible apply Touch.then (startJob_touch ..)

theorem fiHit_touch (target : Nat) (idx : Nat) (s : State) : Touch2 k_fiHit s (fiHit target idx s) := by
  unfold fiHit
  simp -zeta -beta -eta only [mk_eq]
  repeat' first
    | ((first | lift_lets -underBinder | skip); with_reducible intro zz; first | ((first | (have _q : HostSt := zz; clear _q)); dsimp -zeta only [zz]; clear zz) | (refine cut_k (Touch k_fiHit s zz) ?_ (fun _ => ?_); rotate_left; clear_value zz; rotate_right) | (refine cut_k (Touch2 k_fiHit s zz) ?_ (fun _ => ?_); rotate_left; clear_value zz; rotate_right) | clear_value zz)
    | with_reducible exact Touch.refl
    | with_reducible assumption
    | decide
    | with_reducible exact okw_FI_STATUS (by decide)
    | with_reducible refine ite_k ?_ ?_
    | with_reducible refine fput_w ?_ ?_
    | with_reducible refine Touch.snd ?_
    | split
    | with_reducible refine touch2_mk ?_
    | exact touch_of2 rfl ‹Touch2 _ _ (_, _)›
    | refine touch_of2 (by assumption) ?_
    | with_reducible apply Touch.then (upd_hostfi ..)

end Sys2Proof.Laws
end

