-- ==== Sys2Proof/Laws/TouchAngle.lean ====
section
/-! SUPPORT. What each operation of Machine/Angle.lean can touch: one lemma per operation, by footprint (Laws/Touch.lean). -/

set_option linter.unusedTactic false
set_option linter.unreachableTactic false
set_option linter.unusedSimpArgs false
set_option linter.unusedVariables false

namespace Sys2Proof.Laws
open Sys2Proof Sys2Proof.Machine R

/-! Footprints. -/
def k_setTrust : Nat := 0x4000000000000000000000000000000000000000000000000000
def k_restartSrc : Nat := 0x28000000000000000000000000000000000000000000000000000004000000000000000400030000000000000000000000000003000
def k_loseSrc : Nat := 0x28000000000000000000000000000000000000000000000000000004000000000000000400030000000000000000000000000000000
def k_capture : Nat := 0x28000000000000000000000000000000000000000000000000000004000000000000000400030000000000000000000000000003000
def k_distrust : Nat := 0x4000000000000000000000000000000000000000000000000000
def k_suspect : Nat := 0x28000000000000000000000000000000000000000000000000000004000000000000000400030000000000000000000000000002000
def k_autoRetrustSrc : Nat := 0x4000000000000000000000000000000000000000000000002000
def k_holdAngle : Nat := 0x28000000000000000000000000000000000000000000000000018004000000000000000400030000000000000000000000000021800
def k_angleTick : Nat := 0x2800000000000000000000000000000000000000000000000001800400000000000000040003000000000000000000000000003fc00
def k_execSourceDistrusted : Nat := 0x4000000000000000000000000000000000000000000000000000
def k_execNetSourceLost : Nat := 0x28000000000000000000000000000000000000000000000000000004000000000000000400030000000000000000000000000000000
def k_execAngleHold : Nat := 0x28000000000000000000000000000000000000000000000000018004000000000000000400030000000000000000000000000021800
def k_resumeEff : Nat := 0x28000000000000000000000000000000000000000000000000000000000000000000000400030000000000000000000000000020000
def k_retrustEff : Nat := 0x4000000000000000000000000000000000000000000000002000
def k_maCmdEff : Nat := 0x28000000000000000000000000000000000000000000000000000004000000000000000400030000000000000000000000000022000
def k_execResume : Nat := 0x2830000000000000000000000000000000000000000000000000000400000800000000060f43000000000c000000000000000022000
def k_execRetrust : Nat := 0x2830000000000000000000000000000000000000000000000000000400000800000000060f43000000000c000000000000000022000
def k_execAutoRetrust : Nat := 0x4000000000000000000000000000000000000000000000002000
def k_execSourceRestart : Nat := 0x28000000000000000000000000000000000000000000000000000004000000000000000400030000000000000000000000000003000

theorem setTrust_touch (n : Nat) (t : Nat) (s : State) : Touch k_setTrust s (setTrust n t s) := by
  unfold setTrust
  repeat' first
    | with_reducible exact Touch.refl
    | with_reducible assumption
    | decide
    | with_reducible exact okw_MA_STATUS (by decide)
    | with_reducible refine fset_w ?_ ?_

theorem restartSrc_touch (atStart : Bool) (n : Nat) (s : State) : Touch k_restartSrc s (restartSrc atStart n s) := by
  unfold restartSrc
  simp -zeta -beta -eta only [mk_eq]
  repeat' first
    | ((first | lift_lets -underBinder | skip); with_reducible intro zz; first | ((first | (have _q : AngSt := zz; clear _q)); dsimp -zeta only [zz]; clear zz) | (refine cut_k (okw k_restartSrc zz) (by with_reducible first | exact okw_MA_STATUS (by decide)) (fun _ => ?_); clear_value zz) | (refine cut_k (Touch k_restartSrc s zz) ?_ (fun _ => ?_); rotate_left; clear_value zz; rotate_right) | clear_value zz)
    | with_reducible exact Touch.refl
    | with_reducible assumption
    | decide
    | with_reducible exact okw_MA_STATUS (by decide)
    | with_reducible refine ite_k ?_ ?_
    | with_reducible refine w1cSet_w ?_ ?_ ?_
    | with_reducible apply Touch.then (State_setSrc_touch ..)
    | with_reducible apply Touch.then (setTrust_touch ..)
    | unfold zz; try dsimp -zeta only
    | with_reducible apply Touch.then (upd_angvm ..)

theorem loseSrc_touch (n : Nat) (s : State) : Touch k_loseSrc s (loseSrc n s) := by
  unfold loseSrc
  repeat' first
    | with_reducible exact Touch.refl
    | with_reducible assumption
    | decide
    | with_reducible exact okw_MA_STATUS (by decide)
    | with_reducible refine ite_k ?_ ?_
    | with_reducible refine w1cSet_w ?_ ?_ ?_
    | with_reducible apply Touch.then (setTrust_touch ..)

theorem capture_touch (n : Nat) (s : State) : Touch k_capture s (capture n s) := by
  unfold capture
  simp -zeta -beta -eta only [mk_eq]
  repeat' first
    | ((first | lift_lets -underBinder | skip); with_reducible intro zz; first | ((first | (have _q : AngSt := zz; clear _q)); dsimp -zeta only [zz]; clear zz) | (refine cut_k (Touch k_capture s zz) ?_ (fun _ => ?_); rotate_left; clear_value zz; rotate_right) | clear_value zz)
    | with_reducible exact Touch.refl
    | with_reducible assumption
    | decide
    | with_reducible refine ite_k ?_ ?_
    | with_reducible apply Touch.then (State_setSrc_touch ..)
    | with_reducible apply Touch.then (restartSrc_touch ..)
    | with_reducible apply Touch.then (loseSrc_touch ..)
    | unfold zz; try dsimp -zeta only
    | split
    | with_reducible apply Touch.then (upd_angvm ..)

theorem distrust_touch (n : Nat) (s : State) : Touch k_distrust s (distrust n s) := by
  unfold distrust
  repeat' first
    | with_reducible exact Touch.refl
    | with_reducible assumption
    | decide
    | with_reducible refine ite_k ?_ ?_
    | with_reducible apply Touch.then (setTrust_touch ..)

theorem suspect_touch (us : List Nat) (n : Nat) (s : State) : Touch k_suspect s (suspect us n s) := by
  unfold suspect
  repeat' first
    | ((first | lift_lets -underBinder | skip); with_reducible intro zz; first | (refine cut_k (Touch k_suspect s zz) ?_ (fun _ => ?_); rotate_left; clear_value zz; rotate_right) | clear_value zz)
    | with_reducible exact Touch.refl
    | with_reducible assumption
    | decide
    | with_reducible exact okw_MA_STATUS (by decide)
    | with_reducible refine ite_k ?_ ?_
    | with_reducible refine w1cSet_w ?_ ?_ ?_
    | with_reducible apply Touch.then (State_setSrc_touch ..)
    | with_reducible apply Touch.then (setTrust_touch ..)
    | unfold zz; try dsimp -zeta only
    | split

theorem autoRetrustSrc_touch (n : Nat) (s : State) : Touch k_autoRetrustSrc s (autoRetrustSrc n s) := by
  unfold autoRetrustSrc
  repeat' first
    | with_reducible exact Touch.refl
    | with_reducible assumption
    | decide
    | with_reducible refine ite_k ?_ ?_
    | with_reducible apply Touch.then (State_setSrc_touch ..)
    | with_reducible apply Touch.then (setTrust_touch ..)

theorem holdAngle_touch (s : State) : Touch k_holdAngle s (holdAngle s) := by
  unfold holdAngle
  simp -zeta -beta -eta only [mk_eq]
  repeat' first
    | ((first | lift_lets -underBinder | skip); with_reducible intro zz; first | ((first | (have _q : AngSt := zz; clear _q)); dsimp -zeta only [zz]; clear zz) | (refine cut_k (Touch k_holdAngle s zz) ?_ (fun _ => ?_); rotate_left; clear_value zz; rotate_right) | clear_value zz)
    | with_reducible exact Touch.refl
    | with_reducible assumption
    | decide
    | with_reducible exact okw_VM_TARGET_HI (by decide)
    | with_reducible exact okw_VM_TARGET_LO (by decide)
    | with_reducible exact okw_MA_STATUS (by decide)
    | with_reducible refine ite_k ?_ ?_
    | with_reducible refine fput_w ?_ ?_
    | with_reducible refine wrN_w ?_ ?_
    | with_reducible apply Touch.then (sediment_touch ..)
    | unfold zz; try dsimp -zeta only
    | with_reducible apply Touch.then (upd_angresume_angspeed_angvm ..)

theorem angleTick_touch (s : State) : Touch k_angleTick s (angleTick s) := by
  unfold angleTick
  simp -zeta -beta -eta only [mk_eq]
  repeat' first
    | ((first | lift_lets -underBinder | skip); with_reducible intro zz; first | ((first | (have _q : AngSt := zz; clear _q)); dsimp -zeta only [zz]; clear zz) | (refine cut_k (okw k_angleTick zz) (by with_reducible first | exact okw_MA_STATUS (by decide)) (fun _ => ?_); clear_value zz) | (refine cut_k (Touch k_angleTick s zz) ?_ (fun _ => ?_); rotate_left; clear_value zz; rotate_right) | clear_value zz)
    | with_reducible exact Touch.refl
    | with_reducible assumption
    | decide
    | with_reducible exact okw_MA_STATUS (by decide)
    | with_reducible refine ite_k ?_ ?_
    | with_reducible refine fput_w ?_ ?_
    | with_reducible apply Touch.then (autoRetrustSrc_touch ..)
    | with_reducible apply Touch.then (State_setSrc_touch ..)
    | with_reducible apply Touch.then (restartSrc_touch ..)
    | with_reducible apply Touch.then (holdAngle_touch ..)
    | with_reducible apply Touch.then (distrust_touch ..)
    | with_reducible apply Touch.then (capture_touch ..)
    | with_reducible apply Touch.then (suspect_touch ..)
    | with_reducible refine eachN_k (fun _ _ _ => ?_) ?_
    | unfold zz; try dsimp -zeta only
    | split
    | with_reducible apply Touch.then (upd_angever_angkey ..)
    | with_reducible apply Touch.then (upd_angrun_angspeed ..)
    | with_reducible apply Touch.then (upd_angkey ..)
    | with_reducible apply Touch.then (upd_angever_angrun_angspeed_angvm ..)
    | with_reducible apply Touch.then (upd_angdiffer ..)
    | with_reducible apply Touch.then (upd_angresume ..)
    | with_reducible apply Touch.then (upd_angspeed ..)
    | with_reducible apply Touch.then (upd_angkey_angspeed ..)

theorem execSourceDistrusted_touch (n : Slot) (s : State) : TouchX k_execSourceDistrusted s (execSourceDistrusted n s) := by
  unfold execSourceDistrusted
  repeat' first
    | with_reducible exact Touch.refl
    | with_reducible assumption
    | decide
    | with_reducible refine touchX_next ?_
    | with_reducible apply Touch.then (distrust_touch ..)

theorem execNetSourceLost_touch (n : Slot) (s : State) : TouchX k_execNetSourceLost s (execNetSourceLost n s) := by
  unfold execNetSourceLost
  repeat' first
    | with_reducible exact Touch.refl
    | with_reducible assumption
    | decide
    | with_reducible refine touchX_next ?_
    | with_reducible refine ite_k ?_ ?_
    | with_reducible apply Touch.then (loseSrc_touch ..)

theorem execAngleHold_touch (s : State) : TouchX k_execAngleHold s (execAngleHold s) := by
  unfold execAngleHold
  repeat' first
    | with_reducible exact Touch.refl
    | with_reducible assumption
    | decide
    | with_reducible refine touchX_next ?_
    | with_reducible refine ite_k ?_ ?_
    | with_reducible apply Touch.then (holdAngle_touch ..)

theorem resumeEff_touch (s : State) : Touch k_resumeEff s (resumeEff s) := by
  unfold resumeEff
  simp -zeta -beta -eta only [mk_eq]
  repeat' first
    | ((first | lift_lets -underBinder | skip); with_reducible intro zz; first | ((first | (have _q : AngSt := zz; clear _q)); dsimp -zeta only [zz]; clear zz) | (refine cut_k (Touch k_resumeEff s zz) ?_ (fun _ => ?_); rotate_left; clear_value zz; rotate_right) | clear_value zz)
    | with_reducible exact Touch.refl
    | with_reducible assumption
    | decide
    | with_reducible refine ite_k ?_ ?_
    | with_reducible apply Touch.then (sedRule_touch ..)
    | with_reducible apply Touch.then (upd_angresume ..)

theorem retrustEff_touch (n : Nat) (s : State) : Touch k_retrustEff s (retrustEff n s) := by
  unfold retrustEff
  repeat' first
    | with_reducible exact Touch.refl
    | with_reducible assumption
    | decide
    | with_reducible refine ite_k ?_ ?_
    | with_reducible apply Touch.then (State_setSrc_touch ..)
    | with_reducible apply Touch.then (setTrust_touch ..)

theorem maCmdEff_touch (v : Word) (s : State) : TouchO k_maCmdEff s (maCmdEff v s) := by
  unfold maCmdEff
  repeat' first
    | ((first | lift_lets -underBinder | skip); with_reducible intro zz; first | (refine cut_k (Touch k_maCmdEff s zz) ?_ (fun _ => ?_); rotate_left; clear_value zz; rotate_right) | (refine cut_k (TouchO k_maCmdEff s zz) ?_ (fun _ => ?_); rotate_left; clear_value zz; rotate_right) | clear_value zz)
    | with_reducible exact Touch.refl
    | with_reducible assumption
    | decide
    | with_reducible exact touchO_none
    | with_reducible refine touchO_some ?_
    | with_reducible refine touchO_map ?_ (fun _ _ => ?_)
    | with_reducible refine touch_getD ?_ ?_
    | with_reducible refine ite_k ?_ ?_
    | with_reducible apply Touch.then (retrustEff_touch ..)
    | with_reducible apply Touch.then (resumeEff_touch ..)
    | with_reducible refine eachN_k (fun _ _ _ => ?_) ?_
    | unfold zz; try dsimp -zeta only
    | exact touch_ofO rfl ‹TouchO _ _ (some _)›
    | with_reducible refine touchO_map' (fun _ => ?_)
    | refine touch_ofO (by assumption) ?_

theorem execResume_touch (w : Who) (s : State) : TouchX k_execResume s (execResume w s) := by
  unfold execResume
  repeat' first
    | with_reducible exact Touch.refl
    | with_reducible assumption
    | decide
    | with_reducible refine touchX_next ?_
    | with_reducible exact touchO_none
    | with_reducible refine touchO_some ?_
    | with_reducible refine touchO_map ?_ (fun _ _ => ?_)
    | with_reducible refine touch_getD ?_ ?_
    | with_reducible apply Touch.thenO (maCmdEff_touch ..)
    | with_reducible refine gated_k ?_ ?_ ?_
    | exact touch_ofO rfl ‹TouchO _ _ (some _)›
    | with_reducible refine touchO_map' (fun _ => ?_)
    | refine touch_ofO (by assumption) ?_

theorem execRetrust_touch (w : Who) (m : BitVec 3) (s : State) : TouchX k_execRetrust s (execRetrust w m s) := by
  unfold execRetrust
  repeat' first
    | with_reducible exact Touch.refl
    | with_reducible assumption
    | decide
    | with_reducible refine touchX_next ?_
    | with_reducible exact touchO_none
    | with_reducible refine touchO_some ?_
    | with_reducible refine touchO_map ?_ (fun _ _ => ?_)
    | with_reducible refine touch_getD ?_ ?_
    | with_reducible apply Touch.thenO (maCmdEff_touch ..)
    | with_reducible refine gated_k ?_ ?_ ?_
    | exact touch_ofO rfl ‹TouchO _ _ (some _)›
    | with_reducible refine touchO_map' (fun _ => ?_)
    | refine touch_ofO (by assumption) ?_

theorem execAutoRetrust_touch (n : Slot) (s : State) : TouchX k_execAutoRetrust s (execAutoRetrust n s) := by
  unfold execAutoRetrust
  repeat' first
    | with_reducible exact Touch.refl
    | with_reducible assumption
    | decide
    | with_reducible refine touchX_next ?_
    | with_reducible apply Touch.then (autoRetrustSrc_touch ..)

theorem execSourceRestart_touch (s : State) : TouchX k_execSourceRestart s (execSourceRestart s) := by
  unfold execSourceRestart
  repeat' first
    | with_reducible exact Touch.refl
    | with_reducible assumption
    | decide
    | with_reducible refine touchX_next ?_
    | with_reducible refine ite_k ?_ ?_
    | with_reducible apply Touch.then (restartSrc_touch ..)
    | with_reducible refine eachN_k (fun _ _ _ => ?_) ?_

end Sys2Proof.Laws
end

