-- ==== Sys2Proof/Laws/TouchDelayList.lean ====
section
/-! SUPPORT. What each operation of Machine/DelayList.lean can touch: one lemma per operation, by footprint (Laws/Touch.lean). -/

set_option linter.unusedTactic false
set_option linter.unreachableTactic false
set_option linter.unusedSimpArgs false
set_option linter.unusedVariables false

namespace Sys2Proof.Laws
open Sys2Proof Sys2Proof.Machine R

/-! Footprints. -/
def k_setLate : Nat := 0x28000000000000000000000000000000000000000000000000000000001000000000000400030000000000000000000000000000000
def k_insertEnt : Nat := 0x28000000000000000000000000000000000000000000000000000000001000000000000400030000000000000000000000000280000
def k_cancelEnt : Nat := 0x80000
def k_prodRefused : Nat := 0x28000000000000000000000000000000000000000000000000000000000000000000000400030000000000000000000000000000000
def k_opTime : Nat := 0x400000000000000000000000000000000000
def k_lateOut : Nat := 0x28000000000000000000002000000000000000000000000000000000000000000000000400030000000000000000000000000000000
def k_produce : Nat := 0x28000000000000000000002000000000000000000000000000000000001000000000000400030000000000000000000000000680000
def k_retryHeld : Nat := 0x28000000000000000000002000000000000000000000000000000000001000000000000400030000000000000000000000000680000
def k_setInsReg : Nat := 0x200000000000000000000000000000000
def k_insCmdEff : Nat := 0x28000000000000000000000000000000000000000000000000000000000000000000000400230000000000000000000000000100000
def k_opDone : Nat := 0x28000000000000000000000000000000000000000000000000000000001000000000000400230000000000000000000000000380000
def k_execDlInsert : Nat := 0x2830000000000000000000000000000000000000000000000000000000000800000000060f63000000000c000000000000000100000
def k_execDlCancel : Nat := 0x2830000000000000000000000000000000000000000000000000000000000800000000060f63000000000c000000000000000100000
def k_execBpStall : Nat := 0x28000000000000000000000000000000000000000000000000000000001000000000000400030000000000000000000000000000000

theorem setLate_touch (l : Nat) (s : State) : Touch k_setLate s (setLate l s) := by
  unfold setLate
  repeat' first
    | with_reducible exact Touch.refl
    | with_reducible assumption
    | decide
    | with_reducible exact okw_SCH_STATUS (by decide)
    | with_reducible refine w1cSet_w ?_ ?_ ?_

theorem insertEnt_touch (l : Nat) (e : DEnt) (done : Nat) (s : State) : Touch2 k_insertEnt s (insertEnt l e done s) := by
  unfold insertEnt
  simp -zeta -beta -eta only [mk_eq]
  repeat' first
    | ((first | lift_lets -underBinder | skip); with_reducible intro zz; first | ((first | (have _q : SchSt := zz; clear _q)); dsimp -zeta only [zz]; clear zz) | (refine cut_k (Touch k_insertEnt s zz) ?_ (fun _ => ?_); rotate_left; clear_value zz; rotate_right) | (refine cut_k (Touch2 k_insertEnt s zz) ?_ (fun _ => ?_); rotate_left; clear_value zz; rotate_right) | clear_value zz)
    | with_reducible exact Touch.refl
    | with_reducible assumption
    | decide
    | with_reducible refine ite_k ?_ ?_
    | with_reducible apply Touch.then (State_setDl_touch ..)
    | with_reducible apply Touch.then (setLate_touch ..)
    | with_reducible refine Touch.snd ?_
    | unfold zz; try dsimp -zeta only
    | with_reducible refine touch2_mk ?_
    | exact touch_of2 rfl ‹Touch2 _ _ (_, _)›
    | refine touch_of2 (by assumption) ?_
    | with_reducible apply Touch.then (upd_schplaced ..)

theorem cancelEnt_touch (l : Nat) (tag : Nat) (s : State) : Touch2 k_cancelEnt s (cancelEnt l tag s) := by
  unfold cancelEnt
  repeat' first
    | with_reducible exact Touch.refl
    | with_reducible assumption
    | decide
    | with_reducible apply Touch.then (State_setDl_touch ..)
    | with_reducible refine Touch.snd ?_
    | split
    | with_reducible refine touch2_mk ?_
    | exact touch_of2 rfl ‹Touch2 _ _ (_, _)›
    | refine touch_of2 (by assumption) ?_

theorem prodRefused_touch (p : Prod) (obj : Nat) (l : Nat) (e : DEnt) (s : State) : Touch k_prodRefused s (prodRefused p obj l e s) := by
  unfold prodRefused
  repeat' first
    | with_reducible exact Touch.refl
    | with_reducible assumption
    | decide
    | with_reducible apply Touch.then (sediment_touch ..)

theorem opTime_touch (s : State) : Touch2 k_opTime s (opTime s) := by
  unfold opTime
  repeat' first
    | ((first | lift_lets -underBinder | skip); with_reducible intro zz; first | (refine cut_k (Touch k_opTime s zz) ?_ (fun _ => ?_); rotate_left; clear_value zz; rotate_right) | (refine cut_k (Touch2 k_opTime s zz) ?_ (fun _ => ?_); rotate_left; clear_value zz; rotate_right) | clear_value zz)
    | with_reducible exact Touch.refl
    | with_reducible assumption
    | decide
    | with_reducible apply Touch.then2 (takeFree_touch ..)
    | with_reducible refine Touch.snd ?_
    | unfold zz; try dsimp -zeta only
    | split
    | with_reducible refine touch2_mk ?_
    | exact touch_of2 rfl ‹Touch2 _ _ (_, _)›
    | refine touch_of2 (by assumption) ?_

theorem lateOut_touch (p : Prod) (obj : Nat) (s : State) : Touch k_lateOut s (lateOut p obj s) := by
  unfold lateOut
  repeat' first
    | with_reducible exact Touch.refl
    | with_reducible assumption
    | decide
    | with_reducible exact okw_TO_STATUS (by decide)
    | with_reducible refine ite_k ?_ ?_
    | with_reducible refine w1cSet_w ?_ ?_ ?_

theorem produce_touch (p : Prod) (obj : Nat) (l : Nat) (e : DEnt) (s : State) : Touch k_produce s (produce p obj l e s) := by
  unfold produce
  simp -zeta -beta -eta only [mk_eq]
  repeat' first
    | ((first | lift_lets -underBinder | skip); with_reducible intro zz; first | ((first | (have _q : SchSt := zz; clear _q)); dsimp -zeta only [zz]; clear zz) | (refine cut_k (Touch k_produce s zz) ?_ (fun _ => ?_); rotate_left; clear_value zz; rotate_right) | (refine cut_k (Touch2 k_produce s zz) ?_ (fun _ => ?_); rotate_left; clear_value zz; rotate_right) | clear_value zz)
    | with_reducible exact Touch.refl
    | with_reducible assumption
    | decide
    | with_reducible apply Touch.then (prodRefused_touch ..)
    | with_reducible apply Touch.then2 (insertEnt_touch ..)
    | with_reducible apply Touch.then (lateOut_touch ..)
    | with_reducible apply Touch.then2 (opTime_touch ..)
    | with_reducible refine Touch.snd ?_
    | unfold zz; try dsimp -zeta only
    | split
    | with_reducible refine touch2_mk ?_
    | exact touch_of2 rfl ‹Touch2 _ _ (_, _)›
    | refine touch_of2 (by assumption) ?_
    | with_reducible apply Touch.then (upd_schheld ..)

theorem retryHeld_touch (s : State) : Touch k_retryHeld s (retryHeld s) := by
  unfold retryHeld
  simp -zeta -beta -eta only [mk_eq]
  repeat' first
    | ((first | lift_lets -underBinder | skip); with_reducible intro zz; first | ((first | (have _q : SchSt := zz; clear _q)); dsimp -zeta only [zz]; clear zz) | (refine cut_k (Touch k_retryHeld s zz) ?_ (fun _ => ?_); rotate_left; clear_value zz; rotate_right) | (refine cut_k (Touch2 k_retryHeld s zz) ?_ (fun _ => ?_); rotate_left; clear_value zz; rotate_right) | clear_value zz)
    | with_reducible exact Touch.refl
    | with_reducible assumption
    | decide
    | with_reducible refine foldl_k (fun _ _ _ => ?_) ?_
    | with_reducible apply Touch.then (prodRefused_touch ..)
    | with_reducible apply Touch.then2 (insertEnt_touch ..)
    | with_reducible apply Touch.then (lateOut_touch ..)
    | with_reducible apply Touch.then2 (opTime_touch ..)
    | with_reducible refine Touch.snd ?_
    | unfold zz; try dsimp -zeta only
    | split
    | with_reducible refine touch2_mk ?_
    | exact touch_of2 rfl ‹Touch2 _ _ (_, _)›
    | refine touch_of2 (by assumption) ?_
    | with_reducible apply Touch.then (upd_schheld ..)

theorem setInsReg_touch (p : Nat) (i : Nat) (v : Word) (s : State) : Touch k_setInsReg s (setInsReg p i v s) := by
  unfold setInsReg
  simp -zeta -beta -eta only [mk_eq]
  repeat' first
    | ((first | lift_lets -underBinder | skip); with_reducible intro zz; first | ((first | (have _q : HostSt := zz; clear _q)); dsimp -zeta only [zz]; clear zz) | (refine cut_k (Touch k_setInsReg s zz) ?_ (fun _ => ?_); rotate_left; clear_value zz; rotate_right) | clear_value zz)
    | with_reducible exact Touch.refl
    | with_reducible assumption
    | decide
    | with_reducible apply Touch.then (upd_hostinsReg ..)

theorem insCmdEff_touch (p : Nat) (v : Word) (s : State) : TouchO k_insCmdEff s (insCmdEff p v s) := by
  unfold insCmdEff
  simp -zeta -beta -eta only [mk_eq]
  repeat' first
    | ((first | lift_lets -underBinder | skip); with_reducible intro zz; first | ((first | (have _q : SchSt := zz; clear _q)); dsimp -zeta only [zz]; clear zz) | (refine cut_k (Touch k_insCmdEff s zz) ?_ (fun _ => ?_); rotate_left; clear_value zz; rotate_right) | (refine cut_k (TouchO k_insCmdEff s zz) ?_ (fun _ => ?_); rotate_left; clear_value zz; rotate_right) | clear_value zz)
    | with_reducible exact Touch.refl
    | with_reducible assumption
    | decide
    | with_reducible exact touchO_none
    | with_reducible refine touchO_some ?_
    | with_reducible refine touchO_map ?_ (fun _ _ => ?_)
    | with_reducible refine touch_getD ?_ ?_
    | with_reducible refine ite_k ?_ ?_
    | with_reducible apply Touch.then (setInsReg_touch ..)
    | with_reducible apply Touch.then (sedBusy_touch ..)
    | unfold zz; try dsimp -zeta only
    | split
    | exact touch_ofO rfl ‹TouchO _ _ (some _)›
    | with_reducible refine touchO_map' (fun _ => ?_)
    | refine touch_ofO (by assumption) ?_
    | with_reducible apply Touch.then (upd_schins ..)

theorem opDone_touch (p : Nat) (ns : Nat) (s : State) : Touch k_opDone s (opDone p ns s) := by
  unfold opDone
  simp -zeta -beta -eta only [mk_eq]
  repeat' first
    | ((first | lift_lets -underBinder | skip); with_reducible intro zz; first | ((first | (have _q : SchSt := zz; clear _q)); dsimp -zeta only [zz]; clear zz) | (refine cut_k (Touch k_opDone s zz) ?_ (fun _ => ?_); rotate_left; clear_value zz; rotate_right) | (refine cut_k (Touch2 k_opDone s zz) ?_ (fun _ => ?_); rotate_left; clear_value zz; rotate_right) | clear_value zz)
    | with_reducible exact Touch.refl
    | with_reducible assumption
    | decide
    | with_reducible refine ite_k ?_ ?_
    | with_reducible apply Touch.then2 (cancelEnt_touch ..)
    | with_reducible apply Touch.then2 (insertEnt_touch ..)
    | with_reducible apply Touch.then (setInsReg_touch ..)
    | with_reducible refine Touch.snd ?_
    | unfold zz; try dsimp -zeta only
    | split
    | with_reducible refine touch2_mk ?_
    | exact touch_of2 rfl ‹Touch2 _ _ (_, _)›
    | refine touch_of2 (by assumption) ?_
    | with_reducible apply Touch.then (upd_schins ..)

theorem execDlInsert_touch (w : Who) (l : BitVec 2) (s : State) : TouchX k_execDlInsert s (execDlInsert w l s) := by
  unfold execDlInsert
  repeat' first
    | ((first | lift_lets -underBinder | skip); with_reducible intro zz; first | (refine cut_k (Touch k_execDlInsert s zz) ?_ (fun _ => ?_); rotate_left; clear_value zz; rotate_right) | (refine cut_k (TouchO k_execDlInsert s zz) ?_ (fun _ => ?_); rotate_left; clear_value zz; rotate_right) | clear_value zz)
    | with_reducible exact Touch.refl
    | with_reducible assumption
    | decide
    | with_reducible refine touchX_next ?_
    | with_reducible exact touchO_none
    | with_reducible refine touchO_some ?_
    | with_reducible refine touchO_map ?_ (fun _ _ => ?_)
    | with_reducible refine touch_getD ?_ ?_
    | with_reducible apply Touch.thenO (insCmdEff_touch ..)
    | with_reducible refine gated_k ?_ ?_ ?_
    | unfold zz; try dsimp -zeta only
    | exact touch_ofO rfl ‹TouchO _ _ (some _)›
    | with_reducible refine touchO_map' (fun _ => ?_)
    | refine touch_ofO (by assumption) ?_

theorem execDlCancel_touch (w : Who) (l : BitVec 2) (s : State) : TouchX k_execDlCancel s (execDlCancel w l s) := by
  unfold execDlCancel
  repeat' first
    | ((first | lift_lets -underBinder | skip); with_reducible intro zz; first | (refine cut_k (Touch k_execDlCancel s zz) ?_ (fun _ => ?_); rotate_left; clear_value zz; rotate_right) | (refine cut_k (TouchO k_execDlCancel s zz) ?_ (fun _ => ?_); rotate_left; clear_value zz; rotate_right) | clear_value zz)
    | with_reducible exact Touch.refl
    | with_reducible assumption
    | decide
    | with_reducible refine touchX_next ?_
    | with_reducible exact touchO_none
    | with_reducible refine touchO_some ?_
    | with_reducible refine touchO_map ?_ (fun _ _ => ?_)
    | with_reducible refine touch_getD ?_ ?_
    | with_reducible apply Touch.thenO (insCmdEff_touch ..)
    | with_reducible refine gated_k ?_ ?_ ?_
    | unfold zz; try dsimp -zeta only
    | exact touch_ofO rfl ‹TouchO _ _ (some _)›
    | with_reducible refine touchO_map' (fun _ => ?_)
    | refine touch_ofO (by assumption) ?_

theorem execBpStall_touch (i : Nat) (s : State) : TouchX k_execBpStall s (execBpStall i s) := by
  unfold execBpStall
  repeat' first
    | with_reducible exact Touch.refl
    | with_reducible assumption
    | decide
    | with_reducible exact okw_SCH_STATUS (by decide)
    | with_reducible refine touchX_next ?_
    | with_reducible refine ite_k ?_ ?_
    | with_reducible refine w1cSet_w ?_ ?_ ?_
    | with_reducible apply Touch.then (sediment_touch ..)
    | split

end Sys2Proof.Laws
end

