-- ==== Sys2Proof/Laws/TouchLawMath.lean ====
section
/-! SUPPORT. What each operation of Machine/LawMath.lean can touch: one lemma per operation, by footprint (Laws/Touch.lean). -/

set_option linter.unusedTactic false
set_option linter.unreachableTactic false
set_option linter.unusedSimpArgs false
set_option linter.unusedVariables false

namespace Sys2Proof.Laws
open Sys2Proof Sys2Proof.Machine R

/-! Footprints. -/


end Sys2Proof.Laws
end

