-- ==== Sys2Proof/Laws/TouchLaw.lean ====
section
/-! SUPPORT. What each operation of Machine/Law.lean can touch: one lemma per operation, by footprint (Laws/Touch.lean). -/

set_option linter.unusedTactic false
set_option linter.unreachableTactic false
set_option linter.unusedSimpArgs false
set_option linter.unusedVariables false

namespace Sys2Proof.Laws
open Sys2Proof Sys2Proof.Machine R

/-! Footprints. -/
def k_checkLaw : Nat := 0x4000000000000000000000000000000000000000000000000000000000000000000000010000000000000000000000000000000000
def k_checkState : Nat := 0x4000000000000000000000000000000000000000000000000000000000000000000000010000000000000000000000000000000000
def k_lawMismatch : Nat := 0x2830000000000000000000000000020030010006800000000000000000030800000000040e43000000000c000000000001100000100
def k_stateMismatch : Nat := 0x2830000000000000000000000000020030010006800000000000000000030800000000040e43000000000c000000000001100000100
def k_stillSample : Nat := 0x100000000
def k_showFlags : Nat := 0x28000000000000000000000000000000000000020000000000000000000000000000000400030000000000000000000000000000000
def k_finishSample : Nat := 0x28000000000000000000000000000200300100468000000000000000000000000000000400030000000000000000000001100000000
def k_runLaws : Nat := 0x28000000000000000000000000000200300100468000000000000000000000000000000400030000000000000000000001100000000
def k_runLG : Nat := 0x28000000000000000000000000000200300100468000000000000000000000000000000400030000000000000000000001100000000
def k_idleSample : Nat := 0x2830000000000000000000000000020030010006800000000000000000030800000000040e43000000000c000000000001100000100
def k_lawDone : Nat := 0x2c30000000000000000000000000020030010046800000000000000000030800000000041e43000000000c000000000001100000100
def k_freeUnit : Nat := 0x1000000
def k_execSatur : Nat := 0x28000000000000000000000000000200300100068000000000000000000000000000000400030000000000000000000001100000000
def k_execHoldTimeout : Nat := 0x28000000000000000000000000000200300100028000000000000000000000000000000400030000000000000000000001100000000
def k_rebuildLaw : Nat := 0x2830000000000000000000000000020030010003c00000000000000000000800000000040e43000000000c000000000001100000000
def k_execLawTileRebuild : Nat := 0x2830000000000000000000000000020030010003c00000000000000000000800000000040e43000000000c000000000001100000000
def k_axCtrlEff : Nat := 0x200300100138000000000000000000000000000000000000000000000000000000001100000000
def k_execModeWrite : Nat := 0x2830000000000000000000000000020030010013800000000000000000000800000000060f43000000000c000000000001100000000
def k_snapEff : Nat := 0x8000000000000000000000000000000000000000000000000000000000000800000000
def k_srEff : Nat := 0x28000000000000000000000000000000000000020000000000000000000000000000000400030000000000000000000000100000000
def k_rstEff : Nat := 0x32830000000000000000000000000020030010003c00000000000000000000800000000040e43000000000c000000000001106000080
def k_fclrEff : Nat := 0x28000000000000000000000000000200300100038000000000000000000000000000000400030000000000000000000001100000000
def k_axCmdEff : Nat := 0x32830000000000000000000000000020030010803c00000000000000000000800000000040e43000000000c000000000001906000080
def k_execSnap : Nat := 0x32830000000000000000000000000020030010803c00000000000000000000800000000060f43000000000c000000000001906000080
def k_execSnapCopy : Nat := 0x68000000000000000000000000000000000000000000000000000000000000800000000
def k_execSr : Nat := 0x32830000000000000000000000000020030010803c00000000000000000000800000000060f43000000000c000000000001906000080
def k_execRst : Nat := 0x32830000000000000000000000000020030010803c00000000000000000000800000000060f43000000000c000000000001906000080
def k_execFclr : Nat := 0x32830000000000000000000000000020030010803c00000000000000000000800000000060f43000000000c000000000001906000080
def k_execSpringRampHandover : Nat := 0x28000000000000000000000000000000000000000000000000000000000100000000
def k_tubCmdEff : Nat := 0x2800000000000000000000000000000000000400000000000000000000000000000000040003000000000c000000000000400000000
def k_execLawTubCommit : Nat := 0x2830000000000000000000000000000000000400000000000000000000000800000000060f43000000000c000000000000400000000
def k_installLaw : Nat := 0x4000000000000000000000000000000000000000000000000000000000300000000
def k_installTub : Nat := 0x30000000000000000000000000000000000400400000000000000000000800000000000e40000000000c000000000000700000000
def k_execLawTileInstall : Nat := 0x30000000000000000000000000000000000400400000000000000000000800000000000e40000000000c000000000000700000000

theorem checkLaw_touch (n : Nat) (s : State) : Touch2 k_checkLaw s (checkLaw n s) := by
  unfold checkLaw
  repeat' first
    | ((first | lift_lets -underBinder | skip); with_reducible intro zz; first | (refine cut_k (Touch k_checkLaw s zz) ?_ (fun _ => ?_); rotate_left; clear_value zz; rotate_right) | (refine cut_k (Touch2 k_checkLaw s zz) ?_ (fun _ => ?_); rotate_left; clear_value zz; rotate_right) | clear_value zz)
    | with_reducible exact Touch.refl
    | with_reducible assumption
    | decide
    | with_reducible apply Touch.then2 (fiHit_touch ..)
    | with_reducible refine Touch.snd ?_
    | unfold zz; try dsimp -zeta only
    | split
    | with_reducible refine touch2_mk ?_
    | exact touch_of2 rfl ‹Touch2 _ _ (_, _)›
    | refine touch_of2 (by assumption) ?_

theorem checkState_touch (n : Nat) (s : State) : Touch2 k_checkState s (checkState n s) := by
  unfold checkState
  repeat' first
    | ((first | lift_lets -underBinder | skip); with_reducible intro zz; first | (refine cut_k (Touch k_checkState s zz) ?_ (fun _ => ?_); rotate_left; clear_value zz; rotate_right) | (refine cut_k (Touch2 k_checkState s zz) ?_ (fun _ => ?_); rotate_left; clear_value zz; rotate_right) | clear_value zz)
    | with_reducible exact Touch.refl
    | with_reducible assumption
    | decide
    | with_reducible apply Touch.then2 (fiHit_touch ..)
    | with_reducible refine Touch.snd ?_
    | unfold zz; try dsimp -zeta only
    | split
    | with_reducible refine touch2_mk ?_
    | exact touch_of2 rfl ‹Touch2 _ _ (_, _)›
    | refine touch_of2 (by assumption) ?_

theorem lawMismatch_touch (n : Nat) (s : State) : Touch k_lawMismatch s (lawMismatch n s) := by
  unfold lawMismatch
  repeat' first
    | with_reducible exact Touch.refl
    | with_reducible assumption
    | decide
    | with_reducible apply Touch.then (raiseCause_touch ..)
    | with_reducible apply Touch.then (tileError_touch ..)

theorem stateMismatch_touch (n : Nat) (s : State) : Touch k_stateMismatch s (stateMismatch n s) := by
  unfold stateMismatch
  repeat' first
    | with_reducible exact Touch.refl
    | with_reducible assumption
    | decide
    | with_reducible apply Touch.then (raiseCause_touch ..)
    | with_reducible apply Touch.then (tileError_touch ..)
    | with_reducible apply Touch.then (clearInit_touch ..)

theorem stillSample_touch (n : Nat) (pos : Int) (s : State) : Touch k_stillSample s (stillSample n pos s) := by
  unfold stillSample
  repeat' first
    | ((first | lift_lets -underBinder | skip); with_reducible intro zz; first | (refine cut_k (Touch k_stillSample s zz) ?_ (fun _ => ?_); rotate_left; clear_value zz; rotate_right) | clear_value zz)
    | with_reducible exact Touch.refl
    | with_reducible assumption
    | decide
    | with_reducible refine ite_k ?_ ?_
    | with_reducible apply Touch.then (State_setAxl_touch ..)
    | unfold zz; try dsimp -zeta only

theorem showFlags_touch (n : Nat) (x : Pipe) (fe : Bool) (s : State) : Touch k_showFlags s (showFlags n x fe s) := by
  unfold showFlags
  repeat' first
    | ((first | lift_lets -underBinder | skip); with_reducible intro zz; first | (refine cut_k (okw k_showFlags zz) (by with_reducible first | exact okw_AX_STATUS (by decide)) (fun _ => ?_); clear_value zz) | (refine cut_k (Touch k_showFlags s zz) ?_ (fun _ => ?_); rotate_left; clear_value zz; rotate_right) | (refine cut_k (∀ t, Touch k_showFlags s t → Touch k_showFlags s (zz t)) (fun _ _ => ?_) (fun _ => ?_); rotate_left; clear_value zz; rotate_right) | (refine cut_k (∀ a t, Touch k_showFlags s t → Touch k_showFlags s (zz a t)) (fun _ _ _ => ?_) (fun _ => ?_); rotate_left; clear_value zz; rotate_right) | (refine cut_k (∀ a b t, Touch k_showFlags s t → Touch k_showFlags s (zz a b t)) (fun _ _ _ _ => ?_) (fun _ => ?_); rotate_left; clear_value zz; rotate_right) | (refine cut_k (∀ a b c d t, Touch k_showFlags s t → Touch k_showFlags s (zz a b c d t)) (fun _ _ _ _ _ _ => ?_) (fun _ => ?_); rotate_left; clear_value zz; rotate_right) | clear_value zz)
    | with_reducible exact Touch.refl
    | with_reducible assumption
    | decide
    | with_reducible exact okw_AX_STATUS (by decide)
    | with_reducible refine ite_k ?_ ?_
    | with_reducible refine w1cSet_w ?_ ?_ ?_
    | unfold zz; try dsimp -zeta only
    | with_reducible apply_assumption

theorem finishSample_touch (n : Nat) (pSet : Int) (pMeas : Int) (srOn : Bool) (x : Pipe) (u : Int) (es : List Nat) (vSet : Int) (s : State) : Touch k_finishSample s (finishSample n pSet pMeas srOn x u es vSet s) := by
  unfold finishSample
  repeat' first
    | ((first | lift_lets -underBinder | skip); with_reducible intro zz; first | (refine cut_k (okw k_finishSample zz) (by with_reducible first | exact okw_AX_STATUS (by decide) | exact okw_AX_SAT_CNT (by decide)) (fun _ => ?_); clear_value zz) | (refine cut_k (Touch k_finishSample s zz) ?_ (fun _ => ?_); rotate_left; clear_value zz; rotate_right) | (refine cut_k (∀ t, Touch k_finishSample s t → Touch k_finishSample s (zz t)) (fun _ _ => ?_) (fun _ => ?_); rotate_left; clear_value zz; rotate_right) | (refine cut_k (∀ a t, Touch k_finishSample s t → Touch k_finishSample s (zz a t)) (fun _ _ _ => ?_) (fun _ => ?_); rotate_left; clear_value zz; rotate_right) | (refine cut_k (∀ a b t, Touch k_finishSample s t → Touch k_finishSample s (zz a b t)) (fun _ _ _ _ => ?_) (fun _ => ?_); rotate_left; clear_value zz; rotate_right) | (refine cut_k (∀ a b c d t, Touch k_finishSample s t → Touch k_finishSample s (zz a b c d t)) (fun _ _ _ _ _ _ => ?_) (fun _ => ?_); rotate_left; clear_value zz; rotate_right) | clear_value zz)
    | with_reducible exact Touch.refl
    | with_reducible assumption
    | decide
    | with_reducible exact okw_AX_STATUS (by decide)
    | with_reducible exact okw_AX_SAT_CNT (by decide)
    | with_reducible refine ite_k ?_ ?_
    | with_reducible refine fincSat_w ?_ ?_
    | with_reducible refine fput_w ?_ ?_
    | with_reducible apply Touch.then (State_setAxl_touch ..)
    | with_reducible apply Touch.then (judgeCause_touch ..)
    | with_reducible apply Touch.then (showFlags_touch ..)
    | with_reducible apply Touch.then (putState_touch ..)
    | with_reducible apply Touch.then (endCause_touch ..)
    | with_reducible apply Touch.then (showSrc_touch ..)
    | with_reducible apply Touch.then (react_touch ..)
    | unfold zz; try dsimp -zeta only
    | with_reducible apply_assumption

theorem runLaws_touch (i : LawIn) (s : State) : Touch k_runLaws s (runLaws i s) := by
  unfold runLaws
  repeat' first
    | ((first | lift_lets -underBinder | skip); with_reducible intro zz; first | (refine cut_k (Touch k_runLaws s zz) ?_ (fun _ => ?_); rotate_left; clear_value zz; rotate_right) | clear_value zz)
    | with_reducible exact Touch.refl
    | with_reducible assumption
    | decide
    | with_reducible refine ite_k ?_ ?_
    | with_reducible apply Touch.then (finishSample_touch ..)
    | with_reducible apply Touch.then (raiseCause_touch ..)
    | unfold zz; try dsimp -zeta only
    | split

theorem runLG_touch (i : LawIn) (j : LawSnd) (s : State) : Touch k_runLG s (runLG i j s) := by
  unfold runLG
  repeat' first
    | ((first | lift_lets -underBinder | skip); with_reducible intro zz; first | (refine cut_k (Touch k_runLG s zz) ?_ (fun _ => ?_); rotate_left; clear_value zz; rotate_right) | clear_value zz)
    | with_reducible exact Touch.refl
    | with_reducible assumption
    | decide
    | with_reducible refine ite_k ?_ ?_
    | with_reducible apply Touch.then (finishSample_touch ..)
    | unfold zz; try dsimp -zeta only
    | split

theorem idleSample_touch (n : Nat) (pMeas : Int) (ok : Bool) (s : State) : Touch k_idleSample s (idleSample n pMeas ok s) := by
  unfold idleSample
  repeat' first
    | ((first | lift_lets -underBinder | skip); with_reducible intro zz; first | (refine cut_k (Touch k_idleSample s zz) ?_ (fun _ => ?_); rotate_left; clear_value zz; rotate_right) | clear_value zz)
    | with_reducible exact Touch.refl
    | with_reducible assumption
    | decide
    | with_reducible refine ite_k ?_ ?_
    | with_reducible apply Touch.then (State_setAxl_touch ..)
    | with_reducible apply Touch.then (lawMismatch_touch ..)
    | with_reducible apply Touch.then (endCause_touch ..)
    | with_reducible apply Touch.then (genOff_touch ..)
    | unfold zz; try dsimp -zeta only
    | split

theorem lawDone_touch (i : LawIn) (s : State) : Touch k_lawDone s (lawDone i s) := by
  unfold lawDone
  repeat' first
    | ((first | lift_lets -underBinder | skip); with_reducible intro zz; first | (refine cut_k (Touch k_lawDone s zz) ?_ (fun _ => ?_); rotate_left; clear_value zz; rotate_right) | (refine cut_k (Touch2 k_lawDone s zz) ?_ (fun _ => ?_); rotate_left; clear_value zz; rotate_right) | clear_value zz)
    | with_reducible exact Touch.refl
    | with_reducible assumption
    | decide
    | with_reducible refine foldl_k (fun _ _ _ => ?_) ?_
    | with_reducible refine ite_k ?_ ?_
    | with_reducible apply Touch.then (stateMismatch_touch ..)
    | with_reducible apply Touch.then (State_setAxl_touch ..)
    | with_reducible apply Touch.then (stillSample_touch ..)
    | with_reducible apply Touch.then (lawMismatch_touch ..)
    | with_reducible apply Touch.then (idleSample_touch ..)
    | with_reducible apply Touch.then (raiseCause_touch ..)
    | with_reducible apply Touch.then2 (checkState_touch ..)
    | with_reducible apply Touch.then (clearInit_touch ..)
    | with_reducible apply Touch.then2 (checkLaw_touch ..)
    | with_reducible apply Touch.then (runLaws_touch ..)
    | with_reducible apply Touch.then (runLG_touch ..)
    | with_reducible refine Touch.snd ?_
    | unfold zz; try dsimp -zeta only
    | split
    | with_reducible refine touch2_mk ?_
    | exact touch_of2 rfl ‹Touch2 _ _ (_, _)›
    | refine touch_of2 (by assumption) ?_

theorem freeUnit_touch (u : Nat) (ns : Nat) (s : State) : Touch k_freeUnit s (freeUnit u ns s) := by
  unfold freeUnit
  repeat' first
    | ((first | lift_lets -underBinder | skip); with_reducible intro zz; first | (refine cut_k (Touch k_freeUnit s zz) ?_ (fun _ => ?_); rotate_left; clear_value zz; rotate_right) | clear_value zz)
    | with_reducible exact Touch.refl
    | with_reducible assumption
    | decide
    | with_reducible apply Touch.then (State_setUnit_touch ..)
    | unfold zz; try dsimp -zeta only

theorem execSatur_touch (n : Axis) (s : State) : TouchX k_execSatur s (execSatur n s) := by
  unfold execSatur
  repeat' first
    | ((first | lift_lets -underBinder | skip); with_reducible intro zz; first | (refine cut_k (Touch k_execSatur s zz) ?_ (fun _ => ?_); rotate_left; clear_value zz; rotate_right) | clear_value zz)
    | with_reducible exact Touch.refl
    | with_reducible assumption
    | decide
    | with_reducible refine touchX_next ?_
    | with_reducible refine ite_k ?_ ?_
    | with_reducible apply Touch.then (raiseCause_touch ..)
    | unfold zz; try dsimp -zeta only

theorem execHoldTimeout_touch (n : Axis) (s : State) : TouchX k_execHoldTimeout s (execHoldTimeout n s) := by
  unfold execHoldTimeout
  repeat' first
    | ((first | lift_lets -underBinder | skip); with_reducible intro zz; first | (refine cut_k (Touch k_execHoldTimeout s zz) ?_ (fun _ => ?_); rotate_left; clear_value zz; rotate_right) | clear_value zz)
    | with_reducible exact Touch.refl
    | with_reducible assumption
    | decide
    | with_reducible refine touchX_next ?_
    | with_reducible refine ite_k ?_ ?_
    | with_reducible apply Touch.then (react_touch ..)
    | unfold zz; try dsimp -zeta only

theorem rebuildLaw_touch (n : Nat) (s : State) : Touch k_rebuildLaw s (rebuildLaw n s) := by
  unfold rebuildLaw
  repeat' first
    | ((first | lift_lets -underBinder | skip); with_reducible intro zz; first | (refine cut_k (Touch k_rebuildLaw s zz) ?_ (fun _ => ?_); rotate_left; clear_value zz; rotate_right) | clear_value zz)
    | with_reducible exact Touch.refl
    | with_reducible assumption
    | decide
    | with_reducible exact okw_LAW_TILE (by decide)
    | with_reducible exact fun _ => okw_LAW_TILE (by decide)
    | with_reducible exact okw_AX_STATUS (by decide)
    | with_reducible refine ite_k ?_ ?_
    | with_reducible refine w1cSet_w ?_ ?_ ?_
    | with_reducible refine wrAll_w ?_ ?_
    | with_reducible apply Touch.then (logSteward_touch ..)
    | with_reducible apply Touch.then (enterOff_touch ..)
    | unfold zz; try dsimp -zeta only

theorem execLawTileRebuild_touch (n : Axis) (s : State) : TouchX k_execLawTileRebuild s (execLawTileRebuild n s) := by
  unfold execLawTileRebuild
  repeat' first
    | with_reducible exact Touch.refl
    | with_reducible assumption
    | decide
    | with_reducible refine touchX_next ?_
    | with_reducible refine ite_k ?_ ?_
    | with_reducible apply Touch.then (rebuildLaw_touch ..)

theorem axCtrlEff_touch (n : Nat) (v : Word) (s : State) : TouchO k_axCtrlEff s (axCtrlEff n v s) := by
  unfold axCtrlEff
  repeat' first
    | ((first | lift_lets -underBinder | skip); with_reducible intro zz; first | (refine cut_k (okw k_axCtrlEff zz) (by with_reducible first | exact okw_AX_CTRL (by decide) | exact okw_AX_MAN_OUT (by decide)) (fun _ => ?_); clear_value zz) | (refine cut_k (Touch k_axCtrlEff s zz) ?_ (fun _ => ?_); rotate_left; clear_value zz; rotate_right) | (refine cut_k (TouchO k_axCtrlEff s zz) ?_ (fun _ => ?_); rotate_left; clear_value zz; rotate_right) | (refine cut_k (∀ t, Touch k_axCtrlEff s t → Touch k_axCtrlEff s (zz t)) (fun _ _ => ?_) (fun _ => ?_); rotate_left; clear_value zz; rotate_right) | (refine cut_k (∀ a t, Touch k_axCtrlEff s t → Touch k_axCtrlEff s (zz a t)) (fun _ _ _ => ?_) (fun _ => ?_); rotate_left; clear_value zz; rotate_right) | (refine cut_k (∀ a b t, Touch k_axCtrlEff s t → Touch k_axCtrlEff s (zz a b t)) (fun _ _ _ _ => ?_) (fun _ => ?_); rotate_left; clear_value zz; rotate_right) | (refine cut_k (∀ a b c d t, Touch k_axCtrlEff s t → Touch k_axCtrlEff s (zz a b c d t)) (fun _ _ _ _ _ _ => ?_) (fun _ => ?_); rotate_left; clear_value zz; rotate_right) | clear_value zz)
    | with_reducible exact Touch.refl
    | with_reducible assumption
    | decide
    | with_reducible exact okw_AX_CTRL (by decide)
    | with_reducible exact okw_AX_MAN_OUT (by decide)
    | with_reducible exact touchO_none
    | with_reducible refine touchO_some ?_
    | with_reducible refine touchO_map ?_ (fun _ _ => ?_)
    | with_reducible refine touch_getD ?_ ?_
    | with_reducible refine ite_k ?_ ?_
    | with_reducible refine wr_w ?_ ?_
    | with_reducible apply Touch.then (State_setAxl_touch ..)
    | with_reducible apply Touch.then (enterOff_touch ..)
    | with_reducible apply Touch.then (showSrc_touch ..)
    | unfold zz; try dsimp -zeta only
    | with_reducible apply_assumption
    | exact touch_ofO rfl ‹TouchO _ _ (some _)›
    | with_reducible refine touchO_map' (fun _ => ?_)
    | refine touch_ofO (by assumption) ?_

theorem execModeWrite_touch (w : Who) (n : Axis) (v : Word) (s : State) : TouchX k_execModeWrite s (execModeWrite w n v s) := by
  unfold execModeWrite
  repeat' first
    | with_reducible exact Touch.refl
    | with_reducible assumption
    | decide
    | with_reducible refine touchX_next ?_
    | with_reducible exact touchO_none
    | with_reducible refine touchO_some ?_
    | with_reducible refine touchO_map ?_ (fun _ _ => ?_)
    | with_reducible refine touch_getD ?_ ?_
    | with_reducible apply Touch.thenO (axCtrlEff_touch ..)
    | with_reducible refine gated_k ?_ ?_ ?_
    | exact touch_ofO rfl ‹TouchO _ _ (some _)›
    | with_reducible refine touchO_map' (fun _ => ?_)
    | refine touch_ofO (by assumption) ?_

theorem snapEff_touch (n : Nat) (s : State) : Touch k_snapEff s (snapEff n s) := by
  unfold snapEff
  simp -zeta -beta -eta only [mk_eq]
  repeat' first
    | ((first | lift_lets -underBinder | skip); with_reducible intro zz; first | ((first | (have _q : LawSt := zz; clear _q)); dsimp -zeta only [zz]; clear zz) | (refine cut_k (Touch k_snapEff s zz) ?_ (fun _ => ?_); rotate_left; clear_value zz; rotate_right) | clear_value zz)
    | with_reducible exact Touch.refl
    | with_reducible assumption
    | decide
    | with_reducible exact okw_LAW_SNAP_STATUS (by decide)
    | with_reducible refine fput_w ?_ ?_
    | with_reducible apply Touch.then (upd_lawsnap ..)

theorem srEff_touch (n : Nat) (s : State) : Touch k_srEff s (srEff n s) := by
  unfold srEff
  repeat' first
    | with_reducible exact Touch.refl
    | with_reducible assumption
    | decide
    | with_reducible refine ite_k ?_ ?_
    | with_reducible apply Touch.then (State_setAxl_touch ..)
    | with_reducible apply Touch.then (showSrc_touch ..)
    | with_reducible apply Touch.then (sedRule_touch ..)

theorem rstEff_touch (n : Nat) (s : State) : Touch k_rstEff s (rstEff n s) := by
  unfold rstEff
  simp -zeta -beta -eta only [mk_eq]
  repeat' first
    | ((first | lift_lets -underBinder | skip); with_reducible intro zz; first | ((first | (have _q : SchSt := zz; clear _q)); dsimp -zeta only [zz]; clear zz) | (refine cut_k (okw k_rstEff zz) (by with_reducible first | exact okr_ax (by decide) (by decide) | exact okr_pf (by decide) (by decide)) (fun _ => ?_); clear_value zz) | (refine cut_k (Touch k_rstEff s zz) ?_ (fun _ => ?_); rotate_left; clear_value zz; rotate_right) | clear_value zz)
    | with_reducible exact Touch.refl
    | with_reducible assumption
    | decide
    | with_reducible exact okr_ax (by decide) (by decide)
    | with_reducible exact okr_pf (by decide) (by decide)
    | with_reducible refine ite_k ?_ ?_
    | with_reducible refine resetWords_w ?_ ?_
    | with_reducible apply Touch.then (State_setAxl_touch ..)
    | with_reducible apply Touch.then (State_setFb_touch ..)
    | with_reducible apply Touch.then (rebuildLaw_touch ..)
    | with_reducible apply Touch.then (clearInit_touch ..)
    | with_reducible apply Touch.then (enterOff_touch ..)
    | with_reducible apply Touch.then (genOff_touch ..)
    | unfold zz; try dsimp -zeta only
    | with_reducible apply Touch.then (upd_schovr_schovrHere ..)

theorem fclrEff_touch (n : Nat) (s : State) : Touch k_fclrEff s (fclrEff n s) := by
  unfold fclrEff
  repeat' first
    | ((first | lift_lets -underBinder | skip); with_reducible intro zz; first | (refine cut_k (Touch k_fclrEff s zz) ?_ (fun _ => ?_); rotate_left; clear_value zz; rotate_right) | (refine cut_k (∀ t, Touch k_fclrEff s t → Touch k_fclrEff s (zz t)) (fun _ _ => ?_) (fun _ => ?_); rotate_left; clear_value zz; rotate_right) | (refine cut_k (∀ a t, Touch k_fclrEff s t → Touch k_fclrEff s (zz a t)) (fun _ _ _ => ?_) (fun _ => ?_); rotate_left; clear_value zz; rotate_right) | (refine cut_k (∀ a b t, Touch k_fclrEff s t → Touch k_fclrEff s (zz a b t)) (fun _ _ _ _ => ?_) (fun _ => ?_); rotate_left; clear_value zz; rotate_right) | (refine cut_k (∀ a b c d t, Touch k_fclrEff s t → Touch k_fclrEff s (zz a b c d t)) (fun _ _ _ _ _ _ => ?_) (fun _ => ?_); rotate_left; clear_value zz; rotate_right) | clear_value zz)
    | with_reducible exact Touch.refl
    | with_reducible assumption
    | decide
    | with_reducible exact okw_AX_STATUS (by decide)
    | with_reducible refine ite_k ?_ ?_
    | with_reducible refine fset_w ?_ ?_
    | with_reducible apply Touch.then (State_setAxl_touch ..)
    | with_reducible apply Touch.then (enterOff_touch ..)
    | with_reducible apply Touch.then (sedRule_touch ..)
    | with_reducible apply Touch.then (showSrc_touch ..)
    | unfold zz; try dsimp -zeta only
    | with_reducible apply_assumption

theorem axCmdEff_touch (n : Nat) (v : Word) (s : State) : TouchO k_axCmdEff s (axCmdEff n v s) := by
  unfold axCmdEff
  repeat' first
    | ((first | lift_lets -underBinder | skip); with_reducible intro zz; first | (refine cut_k (Touch k_axCmdEff s zz) ?_ (fun _ => ?_); rotate_left; clear_value zz; rotate_right) | (refine cut_k (TouchO k_axCmdEff s zz) ?_ (fun _ => ?_); rotate_left; clear_value zz; rotate_right) | clear_value zz)
    | with_reducible exact Touch.refl
    | with_reducible assumption
    | decide
    | with_reducible exact touchO_none
    | with_reducible refine touchO_some ?_
    | with_reducible refine touchO_map ?_ (fun _ _ => ?_)
    | with_reducible refine touch_getD ?_ ?_
    | with_reducible refine ite_k ?_ ?_
    | with_reducible apply Touch.then (fclrEff_touch ..)
    | with_reducible apply Touch.then (snapEff_touch ..)
    | with_reducible apply Touch.then (rstEff_touch ..)
    | with_reducible apply Touch.then (srEff_touch ..)
    | unfold zz; try dsimp -zeta only
    | exact touch_ofO rfl ‹TouchO _ _ (some _)›
    | with_reducible refine touchO_map' (fun _ => ?_)
    | refine touch_ofO (by assumption) ?_

theorem execSnap_touch (w : Who) (n : Axis) (s : State) : TouchX k_execSnap s (execSnap w n s) := by
  unfold execSnap
  repeat' first
    | with_reducible exact Touch.refl
    | with_reducible assumption
    | decide
    | with_reducible refine touchX_next ?_
    | with_reducible exact touchO_none
    | with_reducible refine touchO_some ?_
    | with_reducible refine touchO_map ?_ (fun _ _ => ?_)
    | with_reducible refine touch_getD ?_ ?_
    | with_reducible apply Touch.thenO (axCmdEff_touch ..)
    | with_reducible refine gated_k ?_ ?_ ?_
    | exact touch_ofO rfl ‹TouchO _ _ (some _)›
    | with_reducible refine touchO_map' (fun _ => ?_)
    | refine touch_ofO (by assumption) ?_

theorem execSnapCopy_touch (s : State) : TouchX k_execSnapCopy s (execSnapCopy s) := by
  unfold execSnapCopy
  simp -zeta -beta -eta only [mk_eq]
  repeat' first
    | ((first | lift_lets -underBinder | skip); with_reducible intro zz; first | ((first | (have _q : LawSt := zz; clear _q)); dsimp -zeta only [zz]; clear zz) | (refine cut_k (Touch k_execSnapCopy s zz) ?_ (fun _ => ?_); rotate_left; clear_value zz; rotate_right) | clear_value zz)
    | with_reducible exact Touch.refl
    | with_reducible assumption
    | decide
    | with_reducible exact okw_LAW_SNAP_STATE (by decide)
    | with_reducible exact fun _ => okw_LAW_SNAP_STATE (by decide)
    | with_reducible exact okw_LAW_SNAP_LAW (by decide)
    | with_reducible exact fun _ => okw_LAW_SNAP_LAW (by decide)
    | with_reducible exact okw_LAW_SNAP_STATUS (by decide)
    | with_reducible refine touchX_next ?_
    | with_reducible refine ite_k ?_ ?_
    | with_reducible refine wrAll_w ?_ ?_
    | with_reducible refine fput_w ?_ ?_
    | with_reducible refine fset_w ?_ ?_
    | unfold zz; try dsimp -zeta only
    | split
    | with_reducible apply Touch.then (upd_lawsnap ..)

theorem execSr_touch (w : Who) (n : Axis) (s : State) : TouchX k_execSr s (execSr w n s) := by
  unfold execSr
  repeat' first
    | with_reducible exact Touch.refl
    | with_reducible assumption
    | decide
    | with_reducible refine touchX_next ?_
    | with_reducible exact touchO_none
    | with_reducible refine touchO_some ?_
    | with_reducible refine touchO_map ?_ (fun _ _ => ?_)
    | with_reducible refine touch_getD ?_ ?_
    | with_reducible apply Touch.thenO (axCmdEff_touch ..)
    | with_reducible refine gated_k ?_ ?_ ?_
    | exact touch_ofO rfl ‹TouchO _ _ (some _)›
    | with_reducible refine touchO_map' (fun _ => ?_)
    | refine touch_ofO (by assumption) ?_

theorem execRst_touch (w : Who) (n : Axis) (s : State) : TouchX k_execRst s (execRst w n s) := by
  unfold execRst
  repeat' first
    | with_reducible exact Touch.refl
    | with_reducible assumption
    | decide
    | with_reducible refine touchX_next ?_
    | with_reducible exact touchO_none
    | with_reducible refine touchO_some ?_
    | with_reducible refine touchO_map ?_ (fun _ _ => ?_)
    | with_reducible refine touch_getD ?_ ?_
    | with_reducible apply Touch.thenO (axCmdEff_touch ..)
    | with_reducible refine gated_k ?_ ?_ ?_
    | exact touch_ofO rfl ‹TouchO _ _ (some _)›
    | with_reducible refine touchO_map' (fun _ => ?_)
    | refine touch_ofO (by assumption) ?_

theorem execFclr_touch (w : Who) (n : Axis) (s : State) : TouchX k_execFclr s (execFclr w n s) := by
  unfold execFclr
  repeat' first
    | with_reducible exact Touch.refl
    | with_reducible assumption
    | decide
    | with_reducible refine touchX_next ?_
    | with_reducible exact touchO_none
    | with_reducible refine touchO_some ?_
    | with_reducible refine touchO_map ?_ (fun _ _ => ?_)
    | with_reducible refine touch_getD ?_ ?_
    | with_reducible apply Touch.thenO (axCmdEff_touch ..)
    | with_reducible refine gated_k ?_ ?_ ?_
    | exact touch_ofO rfl ‹TouchO _ _ (some _)›
    | with_reducible refine touchO_map' (fun _ => ?_)
    | refine touch_ofO (by assumption) ?_

theorem execSpringRampHandover_touch (n : Axis) (s : State) : TouchX k_execSpringRampHandover s (execSpringRampHandover n s) := by
  unfold execSpringRampHandover
  repeat' first
    | ((first | lift_lets -underBinder | skip); with_reducible intro zz; first | (refine cut_k (Touch k_execSpringRampHandover s zz) ?_ (fun _ => ?_); rotate_left; clear_value zz; rotate_right) | (refine cut_k (∀ t, Touch k_execSpringRampHandover s t → Touch k_execSpringRampHandover s (zz t)) (fun _ _ => ?_) (fun _ => ?_); rotate_left; clear_value zz; rotate_right) | (refine cut_k (∀ a t, Touch k_execSpringRampHandover s t → Touch k_execSpringRampHandover s (zz a t)) (fun _ _ _ => ?_) (fun _ => ?_); rotate_left; clear_value zz; rotate_right) | (refine cut_k (∀ a b t, Touch k_execSpringRampHandover s t → Touch k_execSpringRampHandover s (zz a b t)) (fun _ _ _ _ => ?_) (fun _ => ?_); rotate_left; clear_value zz; rotate_right) | (refine cut_k (∀ a b c d t, Touch k_execSpringRampHandover s t → Touch k_execSpringRampHandover s (zz a b c d t)) (fun _ _ _ _ _ _ => ?_) (fun _ => ?_); rotate_left; clear_value zz; rotate_right) | clear_value zz)
    | with_reducible exact Touch.refl
    | with_reducible assumption
    | decide
    | with_reducible refine touchX_next ?_
    | with_reducible refine ite_k ?_ ?_
    | with_reducible apply Touch.then (State_setAxl_touch ..)
    | with_reducible apply Touch.then (putState_touch ..)
    | with_reducible apply Touch.then (showSrc_touch ..)
    | unfold zz; try dsimp -zeta only
    | with_reducible apply_assumption

theorem tubCmdEff_touch (w : Who) (v : Word) (s : State) : TouchO k_tubCmdEff s (tubCmdEff w v s) := by
  unfold tubCmdEff
  simp -zeta -beta -eta only [mk_eq]
  repeat' first
    | ((first | lift_lets -underBinder | skip); with_reducible intro zz; first | ((first | (have _q : LawSt := zz; clear _q)); dsimp -zeta only [zz]; clear zz) | (refine cut_k (okw k_tubCmdEff zz) (by with_reducible first | exact okw_LAW_TUB_STATUS (by decide)) (fun _ => ?_); clear_value zz) | (refine cut_k (Touch k_tubCmdEff s zz) ?_ (fun _ => ?_); rotate_left; clear_value zz; rotate_right) | (refine cut_k (TouchO k_tubCmdEff s zz) ?_ (fun _ => ?_); rotate_left; clear_value zz; rotate_right) | clear_value zz)
    | with_reducible exact Touch.refl
    | with_reducible assumption
    | decide
    | with_reducible exact okw_LAW_TUB_STATUS (by decide)
    | with_reducible exact touchO_none
    | with_reducible refine touchO_some ?_
    | with_reducible refine touchO_map ?_ (fun _ _ => ?_)
    | with_reducible refine touch_getD ?_ ?_
    | with_reducible refine ite_k ?_ ?_
    | with_reducible refine fset_w ?_ ?_
    | with_reducible refine fput_w ?_ ?_
    | with_reducible refine wr_w ?_ ?_
    | with_reducible apply Touch.then (sedBusy_touch ..)
    | with_reducible apply Touch.then (addRec_touch ..)
    | unfold zz; try dsimp -zeta only
    | exact touch_ofO rfl ‹TouchO _ _ (some _)›
    | with_reducible refine touchO_map' (fun _ => ?_)
    | refine touch_ofO (by assumption) ?_
    | with_reducible apply Touch.then (upd_lawtub ..)

theorem execLawTubCommit_touch (w : Who) (n : Axis) (bl : Bool) (s : State) : TouchX k_execLawTubCommit s (execLawTubCommit w n bl s) := by
  unfold execLawTubCommit
  repeat' first
    | ((first | lift_lets -underBinder | skip); with_reducible intro zz; first | (refine cut_k (Touch k_execLawTubCommit s zz) ?_ (fun _ => ?_); rotate_left; clear_value zz; rotate_right) | (refine cut_k (TouchO k_execLawTubCommit s zz) ?_ (fun _ => ?_); rotate_left; clear_value zz; rotate_right) | clear_value zz)
    | with_reducible exact Touch.refl
    | with_reducible assumption
    | decide
    | with_reducible refine touchX_next ?_
    | with_reducible exact touchO_none
    | with_reducible refine touchO_some ?_
    | with_reducible refine touchO_map ?_ (fun _ _ => ?_)
    | with_reducible refine touch_getD ?_ ?_
    | with_reducible apply Touch.thenO (tubCmdEff_touch ..)
    | with_reducible refine gated_k ?_ ?_ ?_
    | unfold zz; try dsimp -zeta only
    | exact touch_ofO rfl ‹TouchO _ _ (some _)›
    | with_reducible refine touchO_map' (fun _ => ?_)
    | refine touch_ofO (by assumption) ?_

theorem installLaw_touch (n : Nat) (t : List Word) (bl : Bool) (s : State) : Touch k_installLaw s (installLaw n t bl s) := by
  unfold installLaw
  simp -zeta -beta -eta only [mk_eq]
  repeat' first
    | ((first | lift_lets -underBinder | skip); with_reducible intro zz; first | ((first | (have _q : LawSt := zz; clear _q)); dsimp -zeta only [zz]; clear zz) | (refine cut_k (Touch k_installLaw s zz) ?_ (fun _ => ?_); rotate_left; clear_value zz; rotate_right) | clear_value zz)
    | with_reducible exact Touch.refl
    | with_reducible assumption
    | decide
    | with_reducible exact okw_LAW_TILE (by decide)
    | with_reducible exact fun _ => okw_LAW_TILE (by decide)
    | with_reducible refine wrAll_w ?_ ?_
    | with_reducible apply Touch.then (State_setAxl_touch ..)
    | unfold zz; try dsimp -zeta only
    | with_reducible apply Touch.then (upd_lawstore ..)

theorem installTub_touch (s : State) : Touch k_installTub s (installTub s) := by
  unfold installTub
  simp -zeta -beta -eta only [mk_eq]
  repeat' first
    | ((first | lift_lets -underBinder | skip); with_reducible intro zz; first | ((first | (have _q : LawSt := zz; clear _q)); dsimp -zeta only [zz]; clear zz) | (refine cut_k (Touch k_installTub s zz) ?_ (fun _ => ?_); rotate_left; clear_value zz; rotate_right) | clear_value zz)
    | with_reducible exact Touch.refl
    | with_reducible assumption
    | decide
    | with_reducible exact okw_LAW_TUB_STATUS (by decide)
    | with_reducible refine ite_k ?_ ?_
    | with_reducible refine wr_w ?_ ?_
    | with_reducible apply Touch.then (installLaw_touch ..)
    | with_reducible apply Touch.then (logPush_touch ..)
    | unfold zz; try dsimp -zeta only
    | split
    | with_reducible apply Touch.then (upd_lawtub ..)

theorem execLawTileInstall_touch (s : State) : TouchX k_execLawTileInstall s (execLawTileInstall s) := by
  unfold execLawTileInstall
  repeat' first
    | with_reducible exact Touch.refl
    | with_reducible assumption
    | decide
    | with_reducible refine touchX_next ?_
    | with_reducible refine ite_k ?_ ?_
    | with_reducible apply Touch.then (installTub_touch ..)

end Sys2Proof.Laws
end

