-- ==== Sys2Proof/Laws/TouchMotion.lean ====
section
/-! SUPPORT. What each operation of Machine/Motion.lean can touch: one lemma per operation, by footprint (Laws/Touch.lean). -/

set_option linter.unusedTactic false
set_option linter.unreachableTactic false
set_option linter.unusedSimpArgs false
set_option linter.unusedVariables false

namespace Sys2Proof.Laws
open Sys2Proof Sys2Proof.Machine R

/-! Footprints. -/
def k_modGen : Nat := 0x1000000000
def k_endCoupling : Nat := 0x100000000000000000000000000000000000000000000000000000000000009000000000
def k_substituted : Nat := 0x28000000000000000000000000000000000000000000000000000000000000000000000400030000000000000000000000000000000
def k_stopPlan : Nat := 0x28000000000000000000000000000000080000000000000000000000000000000000000400030000000000000000000001000000000
def k_afterStop : Nat := 0x100000000000000000000000000000000000000000000000000000000000001000000000
def k_homeAbort : Nat := 0x28000000000000000000000000000200000100000000000000000000000000000000000400030000000000000000000000000000000
def k_beginStop : Nat := 0x28000000000000000000000000000200080100000000000000000000000000000000000400030000000000000000000009000000000
def k_beginQuick : Nat := 0x28000000000000000000000000000200000100000000000000000000000000000000000400030000000000000000000009000000000
def k_rebase : Nat := 0x100100008000000000000000000000000000000000000000000000000000000001100000080
def k_setHomeState : Nat := 0x200000000000000000000000000000000000000000000000000000000000000000000000000000
def k_homeRun : Nat := 0x1000000000
def k_homeStop : Nat := 0x28000000000000000000000000000000080000000000000000000000000000000000000400030000000000000000000001000000000
def k_homeDone : Nat := 0x200000100000000000000000000000000000000000000000000000000000000000001000000000
def k_homeLatch : Nat := 0x28000000000000000000000000000200180100008000000000000000000000000000000400030000000000000000000001100000080
def k_homeRelease : Nat := 0x28000000000000000000000000000200180100008000000000000000000000000000000400030000000000000000000001100000080
def k_homeBegin : Nat := 0x28000000000000000000000000000200100100008000000000000000000000000000000400030000000000000000000001100000080
def k_homeAbortStop : Nat := 0x28000000000000000000000000000200080100000000000000000000000000000000000400030000000000000000000009000000000
def k_homeSwitch : Nat := 0x28000000000000000000000000000200180100008000000000000000000000000000000400030000000000000000000009100000080
def k_homeIndex : Nat := 0x28000000000000000000000000000200180100008000000000000000000000000000000400030000000000000000000001100000080
def k_limitChange : Nat := 0x28000000000000000000000000000000000100000000000000000000000000000000000400030000000000000000000001000000000
def k_tryMove : Nat := 0x28000000000000000000000000000000000100000000000000000000000000000000000400030000000000000000000001000000000
def k_activate : Nat := 0x28000000000000000000000000000000000100000000000000000000000000000000000400030000000000000000000001000000000
def k_deliver : Nat := 0x1000000000
def k_quickSample : Nat := 0x1000000000
def k_planSample : Nat := 0x1000000000
def k_gearDemand : Nat := 0x1000000000
def k_trimWindow : Nat := 0x8000000000
def k_camDemand : Nat := 0x9000000000
def k_shiftReplan : Nat := 0x100000000000000000000000000000000000000000000000000000000000001000000000
def k_shiftSample : Nat := 0x100000000000000000000000000000000000000000000000000000000000001000000000
def k_tracker : Nat := 0x28000000000000000000000000000000000100000000000000000000000000000000000400030000000000000000000001000000000
def k_virtualStop : Nat := 0x28000000000000000000000000000000080100000000000000000000000000000000000400030000000000000000000009000000000
def k_stoppingSample : Nat := 0x100000000000000000000000000000000000000000000000000000000000001000000000
def k_coupledSample : Nat := 0x28000000000000000000000000000000080100000000000000000000000000000000000400030000000000000000000009000000000
def k_homingSample : Nat := 0x28000000000000000000000000000200080100000000000000000000000000000000000400030000000000000000000009000000000
def k_actReq : Nat := 0x28000000000000000000000000000200180100008000000000000000000000000000000400030000000000000000000009100000080
def k_ripen : Nat := 0x28000000000000000000000000000200180100008000000000000000000000000000000400030000000000000000000009100000080
def k_genSample : Nat := 0x28000000000000000000000000000200380100008000000000000000000000000000000400030000000000000000000009100000080
def k_setCoState : Nat := 0x100000000000000000000000000000000000000000000000000000000000000000000000000000000
def k_releaseTiles : Nat := 0xc000000000000000000000000000000000000000000000000000000000000000000000000000000
def k_placeCam : Nat := 0x8000000000000000000000000000c000000000000000000000000000000000000000000000000000000000000000000000000000000
def k_describeCam : Nat := 0x3800000000000000000000000000000000000000000000000000000000000000000000000000000
def k_coRequestEff : Nat := 0x28000000000000000000002000100000000000000000000000000000001000000000000400030000000000000000000004000680000
def k_coCancelEff : Nat := 0x10c000000000000000000000000000000000000000000000000000000000000000000004000480000
def k_coCtrlEff : Nat := 0x2800000000000000000000200010c000000000000000000000000000001000000000000400030000000000000000000004000680000
def k_execCoRequest : Nat := 0x2830000000000000000000200010c00000000000000000000000000000100800000000060f43000000000c000000000004000680000
def k_execCoCancel : Nat := 0x2830000000000000000000200010c00000000000000000000000000000100800000000060f43000000000c000000000004000680000
def k_execCoStaged : Nat := 0x8030000000000000000000000010c00000000000000000000000000000000800000000000e40000000000c000000000004000000000
def k_coAbort : Nat := 0x2800000000000000000000000010c000000100000000000000000000000000000000000400030000000000000000000004000000000
def k_coFinish : Nat := 0x2830000000000000000000000030c00000010000000000000000000000000800000000040e43000000000c000000000004000000000
def k_coTransition : Nat := 0x3800000000000000000000000000000000000000000000000000000000000000000001000000000
def k_coAxis : Nat := 0x100000000000000000000000000003800000000004000000000000000000000000000000000000000000000000000000001300000000
def k_coTrigger : Nat := 0x12830000000000000000000000030f80000010000400000000000000000000800000000040e43000000000c000000000005300000000
def k_coAdvance : Nat := 0x2830000000000000000000000030c00000010000000000000000000000000800000000040e43000000000c000000000004000000000
def k_setpoints : Nat := 0x2830000000000000000000000030c20038010000800000000000000000000800000000040e43000000000c00000000000f100000080
def k_handOver : Nat := 0x3000000000
def k_pfResult : Nat := 0x40000000000000000000000000000000000000000000000000000000000000000000000000
def k_insertMove : Nat := 0x40100000000000000000000000000000000000000000000000000000000000001000000000
def k_flushQueue : Nat := 0x40100000000000000000000000000000000000000000000000000000000000001000000000
def k_mvCmdEff : Nat := 0x40100000000000000000000000000000000000000000000000000000000000001000000000
def k_request : Nat := 0x40000000000000000000000000000000000000000000000000000000000000001000000000
def k_pfCmdEff : Nat := 0x140100008000000000000000000000000000000000000000000000000000000001100000080
def k_sendPf : Nat := 0x2830000000000000000000000000000014010000800000000000000000000800000000060f43000000000c000000000001100000080
def k_sendMv : Nat := 0x2830000000000000000000000000000004010000000000000000000000000800000000060f43000000000c000000000001000000000
def k_execMoveInsertAbs : Nat := 0x2830000000000000000000000000000004010000000000000000000000000800000000060f43000000000c000000000001000000000
def k_execMoveInsertRel : Nat := 0x2830000000000000000000000000000004010000000000000000000000000800000000060f43000000000c000000000001000000000
def k_execFlush : Nat := 0x2830000000000000000000000000000004010000000000000000000000000800000000060f43000000000c000000000001000000000
def k_execStop : Nat := 0x2830000000000000000000000000000014010000800000000000000000000800000000060f43000000000c000000000001100000080
def k_execQstop : Nat := 0x2830000000000000000000000000000014010000800000000000000000000800000000060f43000000000c000000000001100000080
def k_execGear : Nat := 0x2830000000000000000000000000000014010000800000000000000000000800000000060f43000000000c000000000001100000080
def k_execCam : Nat := 0x2830000000000000000000000000000014010000800000000000000000000800000000060f43000000000c000000000001100000080
def k_execHome : Nat := 0x2830000000000000000000000000000014010000800000000000000000000800000000060f43000000000c000000000001100000080
def k_execSetpos : Nat := 0x2830000000000000000000000000000014010000800000000000000000000800000000060f43000000000c000000000001100000080
def k_execShclr : Nat := 0x2830000000000000000000000000000014010000800000000000000000000800000000060f43000000000c000000000001100000080
def k_execLimitChange : Nat := 0x28000000000000000000000000000000000100000000000000000000000000000000000400030000000000000000000001000000000
def k_gearDenEff : Nat := 0x800000000000000000000000000000000000000000000000000000000000000001000000000
def k_execGearRatioWrite : Nat := 0x2830000000000000000000000000000080000000000000000000000000000800000000060f43000000000c000000000001000000000
def k_setStaged : Nat := 0x100000000000000000000000000000000
def k_virtualLimitEff : Nat := 0xc000000000000000000000000000000000000000100000000000000000000000000000000
def k_execVirtualLimitWrite : Nat := 0x2830000000000000000000000000000000c00000000000000000000000000800000000060f53000000000c000000000000000000000
def k_execSwitchEdgeRaw : Nat := 0x28000000000000000000000000000200080100000000000000000000000000000000000400030000000000000000000009000000000
def k_execSwitchDebounced : Nat := 0x28000000000000000000000000000200180100008000000000000000000000000000000400030000000000000000000009100000080
def k_execCamTileVerify : Nat := 0x2c30000000000000000000000000000000000000000000000000000000030800000000041e43000000000c000000000008000000100
def k_execCamTileRebuild : Nat := 0x8030000000000000000000000000400000000000000000000000000000000800000000000e40000000000c000000000000000000000
def k_shiftRequest : Nat := 0x40000000000000000000000000000000000000000000000000000000000000001000000000
def k_shiftEff : Nat := 0x40000000000000000000000000000000000000000100000000000000000000001000000000
def k_execShiftRequest : Nat := 0x2830000000000000000000000000000004000000000000000000000000000800000000060f53000000000c000000000001000000000
def k_ripenAll : Nat := 0x1000000000

theorem modGen_touch (n : Nat) (f : Gen → Gen) (s : State) : Touch k_modGen s (modGen n f s) := by
  unfold modGen
  repeat' first
    | with_reducible exact Touch.refl
    | with_reducible assumption
    | decide
    | with_reducible apply Touch.then (State_setGen_touch ..)

theorem endCoupling_touch (n : Nat) (s : State) : Touch k_endCoupling s (endCoupling n s) := by
  unfold endCoupling
  simp -zeta -beta -eta only [mk_eq]
  repeat' first
    | ((first | lift_lets -underBinder | skip); with_reducible intro zz; first | ((first | (have _q : MotSt := zz; clear _q)); dsimp -zeta only [zz]; clear zz) | (refine cut_k (Touch k_endCoupling s zz) ?_ (fun _ => ?_); rotate_left; clear_value zz; rotate_right) | clear_value zz)
    | with_reducible exact Touch.refl
    | with_reducible assumption
    | decide
    | with_reducible exact okw_PF_STATUS (by decide)
    | with_reducible refine fput_w ?_ ?_
    | with_reducible apply Touch.then (modGen_touch ..)
    | unfold zz; try dsimp -zeta only
    | with_reducible apply Touch.then (upd_motwin ..)

theorem substituted_touch (n : Nat) (s : State) : Touch k_substituted s (substituted n s) := by
  unfold substituted
  repeat' first
    | with_reducible exact Touch.refl
    | with_reducible assumption
    | decide
    | with_reducible apply Touch.then (sediment_touch ..)

theorem stopPlan_touch (n : Nat) (s : State) : Touch k_stopPlan s (stopPlan n s) := by
  unfold stopPlan
  repeat' first
    | ((first | lift_lets -underBinder | skip); with_reducible intro zz; first | (refine cut_k (Touch k_stopPlan s zz) ?_ (fun _ => ?_); rotate_left; clear_value zz; rotate_right) | clear_value zz)
    | with_reducible exact Touch.refl
    | with_reducible assumption
    | decide
    | with_reducible exact okw_PF_STOP_POS (by decide)
    | with_reducible refine ite_k ?_ ?_
    | with_reducible refine wr64_w ?_ ?_ ?_
    | with_reducible apply Touch.then (substituted_touch ..)
    | with_reducible apply Touch.then (modGen_touch ..)
    | unfold zz; try dsimp -zeta only

theorem afterStop_touch (n : Nat) (s : State) : Touch k_afterStop s (afterStop n s) := by
  unfold afterStop
  repeat' first
    | ((first | lift_lets -underBinder | skip); with_reducible intro zz; first | (refine cut_k (Touch k_afterStop s zz) ?_ (fun _ => ?_); rotate_left; clear_value zz; rotate_right) | clear_value zz)
    | with_reducible exact Touch.refl
    | with_reducible assumption
    | decide
    | with_reducible refine ite_k ?_ ?_
    | with_reducible apply Touch.then (setGmode_touch ..)
    | with_reducible apply Touch.then (modGen_touch ..)
    | unfold zz; try dsimp -zeta only

theorem homeAbort_touch (n : Nat) (code : Nat) (s : State) : Touch k_homeAbort s (homeAbort n code s) := by
  unfold homeAbort
  repeat' first
    | ((first | lift_lets -underBinder | skip); with_reducible intro zz; first | (refine cut_k (Touch k_homeAbort s zz) ?_ (fun _ => ?_); rotate_left; clear_value zz; rotate_right) | clear_value zz)
    | with_reducible exact Touch.refl
    | with_reducible assumption
    | decide
    | with_reducible exact okw_PF_HOME_STATUS (by decide)
    | with_reducible refine fput_w ?_ ?_
    | with_reducible refine fset_w ?_ ?_
    | with_reducible apply Touch.then (sediment_touch ..)
    | with_reducible apply Touch.then (pfEvent_touch ..)
    | unfold zz; try dsimp -zeta only

theorem beginStop_touch (n : Nat) (fl : Bool) (s : State) : Touch k_beginStop s (beginStop n fl s) := by
  unfold beginStop
  repeat' first
    | ((first | lift_lets -underBinder | skip); with_reducible intro zz; first | (refine cut_k (Touch k_beginStop s zz) ?_ (fun _ => ?_); rotate_left; clear_value zz; rotate_right) | clear_value zz)
    | with_reducible exact Touch.refl
    | with_reducible assumption
    | decide
    | with_reducible refine ite_k ?_ ?_
    | with_reducible apply Touch.then (endCoupling_touch ..)
    | with_reducible apply Touch.then (homeAbort_touch ..)
    | with_reducible apply Touch.then (stopPlan_touch ..)
    | with_reducible apply Touch.then (setGmode_touch ..)
    | with_reducible apply Touch.then (setQueue_touch ..)
    | unfold zz; try dsimp -zeta only

theorem beginQuick_touch (n : Nat) (s : State) : Touch k_beginQuick s (beginQuick n s) := by
  unfold beginQuick
  repeat' first
    | ((first | lift_lets -underBinder | skip); with_reducible intro zz; first | (refine cut_k (Touch k_beginQuick s zz) ?_ (fun _ => ?_); rotate_left; clear_value zz; rotate_right) | clear_value zz)
    | with_reducible exact Touch.refl
    | with_reducible assumption
    | decide
    | with_reducible refine ite_k ?_ ?_
    | with_reducible apply Touch.then (substituted_touch ..)
    | with_reducible apply Touch.then (endCoupling_touch ..)
    | with_reducible apply Touch.then (homeAbort_touch ..)
    | with_reducible apply Touch.then (setGmode_touch ..)
    | with_reducible apply Touch.then (setQueue_touch ..)
    | with_reducible apply Touch.then (modGen_touch ..)
    | unfold zz; try dsimp -zeta only

theorem rebase_touch (n : Nat) (δ : Int) (s : State) : Touch k_rebase s (rebase n δ s) := by
  unfold rebase
  repeat' first
    | ((first | lift_lets -underBinder | skip); with_reducible intro zz; first | (refine cut_k (Touch k_rebase s zz) ?_ (fun _ => ?_); rotate_left; clear_value zz; rotate_right) | (refine cut_k (∀ t, Touch k_rebase s t → Touch k_rebase s (zz t)) (fun _ _ => ?_) (fun _ => ?_); rotate_left; clear_value zz; rotate_right) | (refine cut_k (∀ a t, Touch k_rebase s t → Touch k_rebase s (zz a t)) (fun _ _ _ => ?_) (fun _ => ?_); rotate_left; clear_value zz; rotate_right) | (refine cut_k (∀ a b t, Touch k_rebase s t → Touch k_rebase s (zz a b t)) (fun _ _ _ _ => ?_) (fun _ => ?_); rotate_left; clear_value zz; rotate_right) | (refine cut_k (∀ a b c d t, Touch k_rebase s t → Touch k_rebase s (zz a b c d t)) (fun _ _ _ _ _ _ => ?_) (fun _ => ?_); rotate_left; clear_value zz; rotate_right) | clear_value zz)
    | with_reducible exact Touch.refl
    | with_reducible assumption
    | decide
    | with_reducible exact okw_PF_POS (by decide)
    | with_reducible refine wr64_w ?_ ?_ ?_
    | with_reducible apply Touch.then (State_setAxl_touch ..)
    | with_reducible apply Touch.then (State_setGen_touch ..)
    | with_reducible apply Touch.then (State_setFb_touch ..)
    | with_reducible apply Touch.then (setQueue_touch ..)
    | with_reducible apply Touch.then (putState_touch ..)
    | with_reducible apply Touch.then (modGen_touch ..)
    | with_reducible refine eachN_k (fun _ _ _ => ?_) ?_
    | unfold zz; try dsimp -zeta only
    | with_reducible apply_assumption

theorem setHomeState_touch (n : Nat) (x : Nat) (s : State) : Touch k_setHomeState s (setHomeState n x s) := by
  unfold setHomeState
  repeat' first
    | with_reducible exact Touch.refl
    | with_reducible assumption
    | decide
    | with_reducible exact okw_PF_HOME_STATUS (by decide)
    | with_reducible refine fset_w ?_ ?_

theorem homeRun_touch (n : Nat) (dir : Int) (vel : Nat) (s : State) : Touch k_homeRun s (homeRun n dir vel s) := by
  unfold homeRun
  repeat' first
    | ((first | lift_lets -underBinder | skip); with_reducible intro zz; first | (refine cut_k (Touch k_homeRun s zz) ?_ (fun _ => ?_); rotate_left; clear_value zz; rotate_right) | clear_value zz)
    | with_reducible exact Touch.refl
    | with_reducible assumption
    | decide
    | with_reducible apply Touch.then (modGen_touch ..)
    | unfold zz; try dsimp -zeta only

theorem homeStop_touch (n : Nat) (s : State) : Touch k_homeStop s (homeStop n s) := by
  unfold homeStop
  repeat' first
    | with_reducible exact Touch.refl
    | with_reducible assumption
    | decide
    | with_reducible apply Touch.then (stopPlan_touch ..)

theorem homeDone_touch (n : Nat) (s : State) : Touch k_homeDone s (homeDone n s) := by
  unfold homeDone
  repeat' first
    | ((first | lift_lets -underBinder | skip); with_reducible intro zz; first | (refine cut_k (Touch k_homeDone s zz) ?_ (fun _ => ?_); rotate_left; clear_value zz; rotate_right) | (refine cut_k (∀ t, Touch k_homeDone s t → Touch k_homeDone s (zz t)) (fun _ _ => ?_) (fun _ => ?_); rotate_left; clear_value zz; rotate_right) | (refine cut_k (∀ a t, Touch k_homeDone s t → Touch k_homeDone s (zz a t)) (fun _ _ _ => ?_) (fun _ => ?_); rotate_left; clear_value zz; rotate_right) | (refine cut_k (∀ a b t, Touch k_homeDone s t → Touch k_homeDone s (zz a b t)) (fun _ _ _ _ => ?_) (fun _ => ?_); rotate_left; clear_value zz; rotate_right) | (refine cut_k (∀ a b c d t, Touch k_homeDone s t → Touch k_homeDone s (zz a b c d t)) (fun _ _ _ _ _ _ => ?_) (fun _ => ?_); rotate_left; clear_value zz; rotate_right) | clear_value zz)
    | with_reducible exact Touch.refl
    | with_reducible assumption
    | decide
    | with_reducible exact okw_PF_STATUS (by decide)
    | with_reducible exact okw_PF_HOME_STATUS (by decide)
    | with_reducible refine fput_w ?_ ?_
    | with_reducible apply Touch.then (setHomeState_touch ..)
    | with_reducible apply Touch.then (setGmode_touch ..)
    | with_reducible apply Touch.then (modGen_touch ..)
    | unfold zz; try dsimp -zeta only
    | with_reducible apply_assumption

theorem homeLatch_touch (n : Nat) (pRef : Int) (s : State) : Touch k_homeLatch s (homeLatch n pRef s) := by
  unfold homeLatch
  repeat' first
    | ((first | lift_lets -underBinder | skip); with_reducible intro zz; first | (refine cut_k (Touch k_homeLatch s zz) ?_ (fun _ => ?_); rotate_left; clear_value zz; rotate_right) | clear_value zz)
    | with_reducible exact Touch.refl
    | with_reducible assumption
    | decide
    | with_reducible apply Touch.then (setHomeState_touch ..)
    | with_reducible apply Touch.then (homeStop_touch ..)
    | with_reducible apply Touch.then (rebase_touch ..)
    | unfold zz; try dsimp -zeta only

theorem homeRelease_touch (n : Nat) (p : Int) (s : State) : Touch k_homeRelease s (homeRelease n p s) := by
  unfold homeRelease
  repeat' first
    | with_reducible exact Touch.refl
    | with_reducible assumption
    | decide
    | with_reducible refine ite_k ?_ ?_
    | with_reducible apply Touch.then (setHomeState_touch ..)
    | with_reducible apply Touch.then (homeLatch_touch ..)

theorem homeBegin_touch (n : Nat) (s : State) : Touch k_homeBegin s (homeBegin n s) := by
  unfold homeBegin
  repeat' first
    | ((first | lift_lets -underBinder | skip); with_reducible intro zz; first | (refine cut_k (Touch k_homeBegin s zz) ?_ (fun _ => ?_); rotate_left; clear_value zz; rotate_right) | (refine cut_k (∀ t, Touch k_homeBegin s t → Touch k_homeBegin s (zz t)) (fun _ _ => ?_) (fun _ => ?_); rotate_left; clear_value zz; rotate_right) | (refine cut_k (∀ a t, Touch k_homeBegin s t → Touch k_homeBegin s (zz a t)) (fun _ _ _ => ?_) (fun _ => ?_); rotate_left; clear_value zz; rotate_right) | (refine cut_k (∀ a b t, Touch k_homeBegin s t → Touch k_homeBegin s (zz a b t)) (fun _ _ _ _ => ?_) (fun _ => ?_); rotate_left; clear_value zz; rotate_right) | (refine cut_k (∀ a b c d t, Touch k_homeBegin s t → Touch k_homeBegin s (zz a b c d t)) (fun _ _ _ _ _ _ => ?_) (fun _ => ?_); rotate_left; clear_value zz; rotate_right) | clear_value zz)
    | with_reducible exact Touch.refl
    | with_reducible assumption
    | decide
    | with_reducible exact okw_PF_STATUS (by decide)
    | with_reducible exact okw_PF_HOME_STATUS (by decide)
    | with_reducible refine ite_k ?_ ?_
    | with_reducible refine fput_w ?_ ?_
    | with_reducible refine fset_w ?_ ?_
    | with_reducible apply Touch.then (setHomeState_touch ..)
    | with_reducible apply Touch.then (homeAbort_touch ..)
    | with_reducible apply Touch.then (setGmode_touch ..)
    | with_reducible apply Touch.then (homeDone_touch ..)
    | with_reducible apply Touch.then (homeRun_touch ..)
    | with_reducible apply Touch.then (modGen_touch ..)
    | with_reducible apply Touch.then (rebase_touch ..)
    | unfold zz; try dsimp -zeta only
    | split
    | with_reducible apply_assumption

theorem homeAbortStop_touch (n : Nat) (code : Nat) (s : State) : Touch k_homeAbortStop s (homeAbortStop n code s) := by
  unfold homeAbortStop
  repeat' first
    | ((first | lift_lets -underBinder | skip); with_reducible intro zz; first | (refine cut_k (Touch k_homeAbortStop s zz) ?_ (fun _ => ?_); rotate_left; clear_value zz; rotate_right) | clear_value zz)
    | with_reducible exact Touch.refl
    | with_reducible assumption
    | decide
    | with_reducible refine ite_k ?_ ?_
    | with_reducible apply Touch.then (beginQuick_touch ..)
    | with_reducible apply Touch.then (homeAbort_touch ..)
    | with_reducible apply Touch.then (stopPlan_touch ..)
    | with_reducible apply Touch.then (setGmode_touch ..)
    | with_reducible apply Touch.then (setQueue_touch ..)
    | unfold zz; try dsimp -zeta only

theorem homeSwitch_touch (n : Nat) (k : Nat) (act : Bool) (p : Int) (s : State) : Touch k_homeSwitch s (homeSwitch n k act p s) := by
  unfold homeSwitch
  repeat' first
    | ((first | lift_lets -underBinder | skip); with_reducible intro zz; first | (refine cut_k (Touch k_homeSwitch s zz) ?_ (fun _ => ?_); rotate_left; clear_value zz; rotate_right) | (refine cut_k (∀ t, Touch k_homeSwitch s t → Touch k_homeSwitch s (zz t)) (fun _ _ => ?_) (fun _ => ?_); rotate_left; clear_value zz; rotate_right) | (refine cut_k (∀ a t, Touch k_homeSwitch s t → Touch k_homeSwitch s (zz a t)) (fun _ _ _ => ?_) (fun _ => ?_); rotate_left; clear_value zz; rotate_right) | (refine cut_k (∀ a b t, Touch k_homeSwitch s t → Touch k_homeSwitch s (zz a b t)) (fun _ _ _ _ => ?_) (fun _ => ?_); rotate_left; clear_value zz; rotate_right) | (refine cut_k (∀ a b c d t, Touch k_homeSwitch s t → Touch k_homeSwitch s (zz a b c d t)) (fun _ _ _ _ _ _ => ?_) (fun _ => ?_); rotate_left; clear_value zz; rotate_right) | clear_value zz)
    | with_reducible exact Touch.refl
    | with_reducible assumption
    | decide
    | with_reducible refine ite_k ?_ ?_
    | with_reducible apply Touch.then (homeAbortStop_touch ..)
    | with_reducible apply Touch.then (setHomeState_touch ..)
    | with_reducible apply Touch.then (homeRelease_touch ..)
    | with_reducible apply Touch.then (homeStop_touch ..)
    | unfold zz; try dsimp -zeta only
    | with_reducible apply_assumption

theorem homeIndex_touch (n : Nat) (p : Int) (s : State) : Touch k_homeIndex s (homeIndex n p s) := by
  unfold homeIndex
  repeat' first
    | with_reducible exact Touch.refl
    | with_reducible assumption
    | decide
    | with_reducible refine ite_k ?_ ?_
    | with_reducible apply Touch.then (homeLatch_touch ..)

theorem limitChange_touch (n : Nat) (s : State) : Touch k_limitChange s (limitChange n s) := by
  unfold limitChange
  repeat' first
    | ((first | lift_lets -underBinder | skip); with_reducible intro zz; first | (refine cut_k (Touch k_limitChange s zz) ?_ (fun _ => ?_); rotate_left; clear_value zz; rotate_right) | clear_value zz)
    | with_reducible exact Touch.refl
    | with_reducible assumption
    | decide
    | with_reducible refine foldl_k (fun _ _ _ => ?_) ?_
    | with_reducible refine ite_k ?_ ?_
    | with_reducible apply Touch.then (pfEvent_touch ..)
    | with_reducible apply Touch.then (modGen_touch ..)
    | unfold zz; try dsimp -zeta only
    | split

theorem tryMove_touch (n : Nat) (t : Int) (rest : List Int) (s : State) : Touch2 k_tryMove s (tryMove n t rest s) := by
  unfold tryMove
  repeat' first
    | ((first | lift_lets -underBinder | skip); with_reducible intro zz; first | (refine cut_k (Touch k_tryMove s zz) ?_ (fun _ => ?_); rotate_left; clear_value zz; rotate_right) | (refine cut_k (Touch2 k_tryMove s zz) ?_ (fun _ => ?_); rotate_left; clear_value zz; rotate_right) | clear_value zz)
    | with_reducible exact Touch.refl
    | with_reducible assumption
    | decide
    | with_reducible refine ite_k ?_ ?_
    | with_reducible apply Touch.then (setQueue_touch ..)
    | with_reducible apply Touch.then (setGmode_touch ..)
    | with_reducible apply Touch.then (pfEvent_touch ..)
    | with_reducible apply Touch.then (modGen_touch ..)
    | with_reducible refine Touch.snd ?_
    | unfold zz; try dsimp -zeta only
    | split
    | with_reducible refine touch2_mk ?_
    | exact touch_of2 rfl ‹Touch2 _ _ (_, _)›
    | refine touch_of2 (by assumption) ?_

theorem activate_touch (n b0 : Nat) (s : State) : Touch k_activate s (activate n b0 s) := by
  induction b0 generalizing s with
  | zero => unfold activate; exact Touch.refl
  | succ f ih =>
    unfold activate
    split
    · exact Touch.then (setGmode_touch ..) (by decide) Touch.refl
    · refine ite_k ?_ ?_
      · exact Touch.then (tryMove_touch ..) (by decide) Touch.refl
      · exact Touch.then (ih _) (by decide) (Touch.then (tryMove_touch ..) (by decide) Touch.refl)

theorem deliver_touch (n : Nat) (p : Int) (v : Int) (a : Int) (s : State) : Touch k_deliver s (deliver n p v a s) := by
  unfold deliver
  repeat' first
    | with_reducible exact Touch.refl
    | with_reducible assumption
    | decide
    | with_reducible apply Touch.then (modGen_touch ..)

theorem quickSample_touch (n : Nat) (s : State) : Touch1 k_quickSample s (quickSample n s) := by
  unfold quickSample
  repeat' first
    | ((first | lift_lets -underBinder | skip); with_reducible intro zz; first | (refine cut_k (Touch k_quickSample s zz) ?_ (fun _ => ?_); rotate_left; clear_value zz; rotate_right) | clear_value zz)
    | with_reducible exact Touch.refl
    | with_reducible assumption
    | decide
    | with_reducible refine ite_k ?_ ?_
    | with_reducible apply Touch.then (deliver_touch ..)
    | with_reducible refine Touch.fst ?_
    | unfold zz; try dsimp -zeta only
    | with_reducible refine touch1_mk ?_
    | refine touch_of1 (by assumption) ?_

theorem planSample_touch (n : Nat) (s : State) : Touch1 k_planSample s (planSample n s) := by
  unfold planSample
  repeat' first
    | ((first | lift_lets -underBinder | skip); with_reducible intro zz; first | (refine cut_k (Touch k_planSample s zz) ?_ (fun _ => ?_); rotate_left; clear_value zz; rotate_right) | clear_value zz)
    | with_reducible exact Touch.refl
    | with_reducible assumption
    | decide
    | with_reducible refine ite_k ?_ ?_
    | with_reducible apply Touch.then1 (quickSample_touch ..)
    | with_reducible apply Touch.then (deliver_touch ..)
    | with_reducible apply Touch.then (modGen_touch ..)
    | with_reducible refine Touch.fst ?_
    | unfold zz; try dsimp -zeta only
    | split
    | with_reducible refine touch1_mk ?_
    | refine touch_of1 (by assumption) ?_

theorem gearDemand_touch (n : Nat) (s : State) : Touch k_gearDemand s (gearDemand n s) := by
  unfold gearDemand
  repeat' first
    | ((first | lift_lets -underBinder | skip); with_reducible intro zz; first | (refine cut_k (Touch k_gearDemand s zz) ?_ (fun _ => ?_); rotate_left; clear_value zz; rotate_right) | clear_value zz)
    | with_reducible exact Touch.refl
    | with_reducible assumption
    | decide
    | with_reducible refine ite_k ?_ ?_
    | with_reducible apply Touch.then (modGen_touch ..)
    | unfold zz; try dsimp -zeta only
    | split

theorem trimWindow_touch (n : Nat) (i : Nat) (x : Nat) (s : State) : Touch k_trimWindow s (trimWindow n i x s) := by
  unfold trimWindow
  simp -zeta -beta -eta only [mk_eq]
  repeat' first
    | ((first | lift_lets -underBinder | skip); with_reducible intro zz; first | ((first | (have _q : MotSt := zz; clear _q)); dsimp -zeta only [zz]; clear zz) | (refine cut_k (Touch k_trimWindow s zz) ?_ (fun _ => ?_); rotate_left; clear_value zz; rotate_right) | clear_value zz)
    | with_reducible exact Touch.refl
    | with_reducible assumption
    | decide
    | with_reducible refine ite_k ?_ ?_
    | unfold zz; try dsimp -zeta only
    | with_reducible apply Touch.then (upd_motwin ..)

theorem camDemand_touch (n : Nat) (s : State) : Touch k_camDemand s (camDemand n s) := by
  unfold camDemand
  repeat' first
    | ((first | lift_lets -underBinder | skip); with_reducible intro zz; first | (refine cut_k (Touch k_camDemand s zz) ?_ (fun _ => ?_); rotate_left; clear_value zz; rotate_right) | clear_value zz)
    | with_reducible exact Touch.refl
    | with_reducible assumption
    | decide
    | with_reducible refine ite_k ?_ ?_
    | with_reducible apply Touch.then (trimWindow_touch ..)
    | with_reducible apply Touch.then (modGen_touch ..)
    | unfold zz; try dsimp -zeta only
    | split

theorem shiftReplan_touch (n : Nat) (s : State) : Touch k_shiftReplan s (shiftReplan n s) := by
  unfold shiftReplan
  repeat' first
    | ((first | lift_lets -underBinder | skip); with_reducible intro zz; first | (refine cut_k (Touch k_shiftReplan s zz) ?_ (fun _ => ?_); rotate_left; clear_value zz; rotate_right) | clear_value zz)
    | with_reducible exact Touch.refl
    | with_reducible assumption
    | decide
    | with_reducible exact okw_PF_STATUS (by decide)
    | with_reducible refine ite_k ?_ ?_
    | with_reducible refine fput_w ?_ ?_
    | with_reducible apply Touch.then (modGen_touch ..)
    | unfold zz; try dsimp -zeta only
    | split

theorem shiftSample_touch (n : Nat) (s : State) : Touch k_shiftSample s (shiftSample n s) := by
  unfold shiftSample
  repeat' first
    | ((first | lift_lets -underBinder | skip); with_reducible intro zz; first | (refine cut_k (Touch k_shiftSample s zz) ?_ (fun _ => ?_); rotate_left; clear_value zz; rotate_right) | clear_value zz)
    | with_reducible exact Touch.refl
    | with_reducible assumption
    | decide
    | with_reducible exact okw_PF_STATUS (by decide)
    | with_reducible refine ite_k ?_ ?_
    | with_reducible refine fput_w ?_ ?_
    | with_reducible apply Touch.then (modGen_touch ..)
    | unfold zz; try dsimp -zeta only
    | split

theorem tracker_touch (n : Nat) (pd : Int) (vd : Int) (ad : Int) (s : State) : Touch1 k_tracker s (tracker n pd vd ad s) := by
  unfold tracker
  repeat' first
    | ((first | lift_lets -underBinder | skip); with_reducible intro zz; first | (refine cut_k (okw k_tracker zz) (by with_reducible first | exact okw_PF_STATUS (by decide)) (fun _ => ?_); clear_value zz) | (refine cut_k (Touch k_tracker s zz) ?_ (fun _ => ?_); rotate_left; clear_value zz; rotate_right) | clear_value zz)
    | with_reducible exact Touch.refl
    | with_reducible assumption
    | decide
    | with_reducible exact okw_PF_STATUS (by decide)
    | with_reducible refine ite_k ?_ ?_
    | with_reducible refine w1cSet_w ?_ ?_ ?_
    | with_reducible apply Touch.then (pfEvent_touch ..)
    | with_reducible apply Touch.then (modGen_touch ..)
    | with_reducible refine Touch.fst ?_
    | unfold zz; try dsimp -zeta only
    | split
    | with_reducible refine touch1_mk ?_
    | refine touch_of1 (by assumption) ?_

theorem virtualStop_touch (n : Nat) (lim : Int) (s : State) : Touch k_virtualStop s (virtualStop n lim s) := by
  unfold virtualStop
  repeat' first
    | ((first | lift_lets -underBinder | skip); with_reducible intro zz; first | (refine cut_k (Touch k_virtualStop s zz) ?_ (fun _ => ?_); rotate_left; clear_value zz; rotate_right) | clear_value zz)
    | with_reducible exact Touch.refl
    | with_reducible assumption
    | decide
    | with_reducible refine ite_k ?_ ?_
    | with_reducible apply Touch.then (endCoupling_touch ..)
    | with_reducible apply Touch.then (stopPlan_touch ..)
    | with_reducible apply Touch.then (setGmode_touch ..)
    | with_reducible apply Touch.then (pfEvent_touch ..)
    | with_reducible apply Touch.then (modGen_touch ..)
    | unfold zz; try dsimp -zeta only

theorem stoppingSample_touch (n : Nat) (s : State) : Touch k_stoppingSample s (stoppingSample n s) := by
  unfold stoppingSample
  repeat' first
    | ((first | lift_lets -underBinder | skip); with_reducible intro zz; first | (refine cut_k (Touch k_stoppingSample s zz) ?_ (fun _ => ?_); rotate_left; clear_value zz; rotate_right) | clear_value zz)
    | with_reducible exact Touch.refl
    | with_reducible assumption
    | decide
    | with_reducible refine ite_k ?_ ?_
    | with_reducible apply Touch.then1 (planSample_touch ..)
    | with_reducible apply Touch.then (afterStop_touch ..)
    | with_reducible refine Touch.fst ?_
    | unfold zz; try dsimp -zeta only
    | split
    | with_reducible refine touch1_mk ?_
    | refine touch_of1 (by assumption) ?_

theorem coupledSample_touch (n : Nat) (s : State) : Touch k_coupledSample s (coupledSample n s) := by
  unfold coupledSample
  repeat' first
    | ((first | lift_lets -underBinder | skip); with_reducible intro zz; first | (refine cut_k (Touch k_coupledSample s zz) ?_ (fun _ => ?_); rotate_left; clear_value zz; rotate_right) | clear_value zz)
    | with_reducible exact Touch.refl
    | with_reducible assumption
    | decide
    | with_reducible refine ite_k ?_ ?_
    | with_reducible apply Touch.then (stoppingSample_touch ..)
    | with_reducible apply Touch.then (virtualStop_touch ..)
    | with_reducible apply Touch.then (shiftSample_touch ..)
    | with_reducible apply Touch.then (endCoupling_touch ..)
    | with_reducible apply Touch.then (gearDemand_touch ..)
    | with_reducible apply Touch.then (camDemand_touch ..)
    | with_reducible apply Touch.then (stopPlan_touch ..)
    | with_reducible apply Touch.then (setGmode_touch ..)
    | with_reducible apply Touch.then (pfEvent_touch ..)
    | with_reducible apply Touch.then (deliver_touch ..)
    | with_reducible apply Touch.then1 (tracker_touch ..)
    | with_reducible refine Touch.fst ?_
    | unfold zz; try dsimp -zeta only
    | split
    | with_reducible refine touch1_mk ?_
    | refine touch_of1 (by assumption) ?_

theorem homingSample_touch (n : Nat) (s : State) : Touch k_homingSample s (homingSample n s) := by
  unfold homingSample
  repeat' first
    | ((first | lift_lets -underBinder | skip); with_reducible intro zz; first | (refine cut_k (Touch k_homingSample s zz) ?_ (fun _ => ?_); rotate_left; clear_value zz; rotate_right) | (refine cut_k (∀ t, Touch k_homingSample s t → Touch k_homingSample s (zz t)) (fun _ _ => ?_) (fun _ => ?_); rotate_left; clear_value zz; rotate_right) | (refine cut_k (∀ a t, Touch k_homingSample s t → Touch k_homingSample s (zz a t)) (fun _ _ _ => ?_) (fun _ => ?_); rotate_left; clear_value zz; rotate_right) | (refine cut_k (∀ a b t, Touch k_homingSample s t → Touch k_homingSample s (zz a b t)) (fun _ _ _ _ => ?_) (fun _ => ?_); rotate_left; clear_value zz; rotate_right) | (refine cut_k (∀ a b c d t, Touch k_homingSample s t → Touch k_homingSample s (zz a b c d t)) (fun _ _ _ _ _ _ => ?_) (fun _ => ?_); rotate_left; clear_value zz; rotate_right) | clear_value zz)
    | with_reducible exact Touch.refl
    | with_reducible assumption
    | decide
    | with_reducible refine ite_k ?_ ?_
    | with_reducible apply Touch.then (homeAbortStop_touch ..)
    | with_reducible apply Touch.then (setHomeState_touch ..)
    | with_reducible apply Touch.then1 (planSample_touch ..)
    | with_reducible apply Touch.then (homeDone_touch ..)
    | with_reducible apply Touch.then (homeRun_touch ..)
    | with_reducible refine Touch.fst ?_
    | unfold zz; try dsimp -zeta only
    | split
    | with_reducible apply_assumption
    | with_reducible refine touch1_mk ?_
    | refine touch_of1 (by assumption) ?_

theorem actReq_touch (n : Nat) (r : GReq) (s : State) : Touch k_actReq s (actReq n r s) := by
  unfold actReq
  repeat' first
    | ((first | lift_lets -underBinder | skip); with_reducible intro zz; first | (refine cut_k (Touch k_actReq s zz) ?_ (fun _ => ?_); rotate_left; clear_value zz; rotate_right) | clear_value zz)
    | with_reducible exact Touch.refl
    | with_reducible assumption
    | decide
    | with_reducible refine ite_k ?_ ?_
    | with_reducible apply Touch.then (beginQuick_touch ..)
    | with_reducible apply Touch.then (beginStop_touch ..)
    | with_reducible apply Touch.then (homeBegin_touch ..)
    | with_reducible apply Touch.then (setGmode_touch ..)
    | with_reducible apply Touch.then (setQueue_touch ..)
    | with_reducible apply Touch.then (modGen_touch ..)
    | unfold zz; try dsimp -zeta only
    | split

theorem ripen_touch (n : Nat) (s : State) : Touch k_ripen s (ripen n s) := by
  unfold ripen
  repeat' first
    | ((first | lift_lets -underBinder | skip); with_reducible intro zz; first | (refine cut_k (Touch k_ripen s zz) ?_ (fun _ => ?_); rotate_left; clear_value zz; rotate_right) | clear_value zz)
    | with_reducible exact Touch.refl
    | with_reducible assumption
    | decide
    | with_reducible refine ite_k ?_ ?_
    | with_reducible apply Touch.then (limitChange_touch ..)
    | with_reducible apply Touch.then (shiftReplan_touch ..)
    | with_reducible apply Touch.then (actReq_touch ..)
    | with_reducible apply Touch.then (modGen_touch ..)
    | unfold zz; try dsimp -zeta only
    | split

theorem genSample_touch (n : Nat) (s : State) : Touch k_genSample s (genSample n s) := by
  unfold genSample
  repeat' first
    | ((first | lift_lets -underBinder | skip); with_reducible intro zz; first | (refine cut_k (Touch k_genSample s zz) ?_ (fun _ => ?_); rotate_left; clear_value zz; rotate_right) | clear_value zz)
    | with_reducible exact Touch.refl
    | with_reducible assumption
    | decide
    | with_reducible refine ite_k ?_ ?_
    | with_reducible apply Touch.then (stoppingSample_touch ..)
    | with_reducible apply Touch.then (coupledSample_touch ..)
    | with_reducible apply Touch.then (homingSample_touch ..)
    | with_reducible apply Touch.then1 (planSample_touch ..)
    | with_reducible apply Touch.then (setGmode_touch ..)
    | with_reducible apply Touch.then (activate_touch ..)
    | with_reducible apply Touch.then (setQueue_touch ..)
    | with_reducible apply Touch.then (showGen_touch ..)
    | with_reducible apply Touch.then (deliver_touch ..)
    | with_reducible apply Touch.then (modGen_touch ..)
    | with_reducible apply Touch.then (genOff_touch ..)
    | with_reducible apply Touch.then (ripen_touch ..)
    | with_reducible refine Touch.fst ?_
    | unfold zz; try dsimp -zeta only
    | split
    | with_reducible refine touch1_mk ?_
    | refine touch_of1 (by assumption) ?_

theorem setCoState_touch (g : Nat) (st : Nat) (r : Nat) (s : State) : Touch k_setCoState s (setCoState g st r s) := by
  unfold setCoState
  repeat' first
    | with_reducible exact Touch.refl
    | with_reducible assumption
    | decide
    | with_reducible exact okw_CO_STATUS (by decide)
    | with_reducible refine fset_w ?_ ?_

theorem releaseTiles_touch (ts : List Nat) (s : State) : Touch k_releaseTiles s (releaseTiles ts s) := by
  unfold releaseTiles
  repeat' first
    | with_reducible exact Touch.refl
    | with_reducible assumption
    | decide
    | with_reducible exact okw_TILE_CRC (by decide)
    | with_reducible exact okw_TILE_INFO (by decide)
    | with_reducible refine wr_w ?_ ?_
    | with_reducible refine eachN_k (fun _ _ _ => ?_) ?_

theorem placeCam_touch (c : CamRec) (ts : List Nat) (st : Bool) (s : State) : Touch k_placeCam s (placeCam c ts st s) := by
  unfold placeCam
  repeat' first
    | ((first | lift_lets -underBinder | skip); with_reducible intro zz; first | (refine cut_k (Touch k_placeCam s zz) ?_ (fun _ => ?_); rotate_left; clear_value zz; rotate_right) | clear_value zz)
    | with_reducible exact Touch.refl
    | with_reducible assumption
    | decide
    | with_reducible exact okw_camTile (by decide)
    | with_reducible exact okw_TILE_CRC (by decide)
    | with_reducible exact okw_TILE_INFO (by decide)
    | with_reducible refine foldl_k (fun _ _ _ => ?_) ?_
    | with_reducible refine wrWords_camTile ?_ (by decide)
    | with_reducible refine wrN_w ?_ ?_
    | with_reducible refine wr_w ?_ ?_
    | unfold zz; try dsimp -zeta only

theorem describeCam_touch (c : CamRec) (recipe : Nat) (first : Nat) (s : State) : Touch k_describeCam s (describeCam c recipe first s) := by
  unfold describeCam
  repeat' first
    | ((first | lift_lets -underBinder | skip); with_reducible intro zz; first | (refine cut_k (Touch k_describeCam s zz) ?_ (fun _ => ?_); rotate_left; clear_value zz; rotate_right) | clear_value zz)
    | with_reducible exact Touch.refl
    | with_reducible assumption
    | decide
    | with_reducible exact okw_CAM_INFO (by decide)
    | with_reducible exact okw_CAM_STROKE_HI (by decide)
    | with_reducible exact okw_CAM_STROKE_LO (by decide)
    | with_reducible refine wrN_w ?_ ?_
    | unfold zz; try dsimp -zeta only

theorem coRequestEff_touch (g : Nat) (v : Word) (b0 : State) : Touch k_coRequestEff b0 (coRequestEff g v b0) := by
  unfold coRequestEff
  repeat' first
    | ((first | lift_lets -underBinder | skip); with_reducible intro zz; first | (refine cut_k (Touch k_coRequestEff b0 zz) ?_ (fun _ => ?_); rotate_left; clear_value zz; rotate_right) | clear_value zz)
    | with_reducible exact Touch.refl
    | with_reducible assumption
    | decide
    | with_reducible exact okw_CO_STATUS (by decide)
    | with_reducible refine fset_w ?_ ?_
    | with_reducible apply Touch.then (State_setCo_touch ..)
    | with_reducible apply Touch.then (setCoState_touch ..)
    | with_reducible apply Touch.then (produce_touch ..)
    | unfold zz; try dsimp -zeta only
    | split

theorem coCancelEff_touch (g : Nat) (b0 : State) : Touch k_coCancelEff b0 (coCancelEff g b0) := by
  unfold coCancelEff
  simp -zeta -beta -eta only [mk_eq]
  repeat' first
    | ((first | lift_lets -underBinder | skip); with_reducible intro zz; first | ((first | (have _q : SchSt := zz; clear _q)); dsimp -zeta only [zz]; clear zz) | (refine cut_k (Touch k_coCancelEff b0 zz) ?_ (fun _ => ?_); rotate_left; clear_value zz; rotate_right) | clear_value zz)
    | with_reducible exact Touch.refl
    | with_reducible assumption
    | decide
    | with_reducible refine ite_k ?_ ?_
    | with_reducible apply Touch.then (releaseTiles_touch ..)
    | with_reducible apply Touch.then (State_setCo_touch ..)
    | with_reducible apply Touch.then (State_setDl_touch ..)
    | with_reducible apply Touch.then (setCoState_touch ..)
    | unfold zz; try dsimp -zeta only
    | with_reducible apply Touch.then (upd_schheld ..)

theorem coCtrlEff_touch (g : Nat) (v : Word) (s : State) : TouchO k_coCtrlEff s (coCtrlEff g v s) := by
  unfold coCtrlEff
  repeat' first
    | with_reducible exact Touch.refl
    | with_reducible assumption
    | decide
    | with_reducible exact touchO_none
    | with_reducible refine touchO_some ?_
    | with_reducible refine touchO_map ?_ (fun _ _ => ?_)
    | with_reducible refine touch_getD ?_ ?_
    | with_reducible apply Touch.then (coRequestEff_touch ..)
    | with_reducible apply Touch.then (coCancelEff_touch ..)
    | split
    | exact touch_ofO rfl ‹TouchO _ _ (some _)›
    | with_reducible refine touchO_map' (fun _ => ?_)
    | refine touch_ofO (by assumption) ?_

theorem execCoRequest_touch (w : Who) (g : BitVec 4) (v : Word) (s : State) : TouchX k_execCoRequest s (execCoRequest w g v s) := by
  unfold execCoRequest
  repeat' first
    | ((first | lift_lets -underBinder | skip); with_reducible intro zz; first | (refine cut_k (Touch k_execCoRequest s zz) ?_ (fun _ => ?_); rotate_left; clear_value zz; rotate_right) | (refine cut_k (TouchO k_execCoRequest s zz) ?_ (fun _ => ?_); rotate_left; clear_value zz; rotate_right) | clear_value zz)
    | with_reducible exact Touch.refl
    | with_reducible assumption
    | decide
    | with_reducible refine touchX_next ?_
    | with_reducible exact touchO_none
    | with_reducible refine touchO_some ?_
    | with_reducible refine touchO_map ?_ (fun _ _ => ?_)
    | with_reducible refine touch_getD ?_ ?_
    | with_reducible apply Touch.thenO (coCtrlEff_touch ..)
    | with_reducible refine gated_k ?_ ?_ ?_
    | unfold zz; try dsimp -zeta only
    | exact touch_ofO rfl ‹TouchO _ _ (some _)›
    | with_reducible refine touchO_map' (fun _ => ?_)
    | refine touch_ofO (by assumption) ?_

theorem execCoCancel_touch (w : Who) (g : BitVec 4) (s : State) : TouchX k_execCoCancel s (execCoCancel w g s) := by
  unfold execCoCancel
  repeat' first
    | ((first | lift_lets -underBinder | skip); with_reducible intro zz; first | (refine cut_k (Touch k_execCoCancel s zz) ?_ (fun _ => ?_); rotate_left; clear_value zz; rotate_right) | (refine cut_k (TouchO k_execCoCancel s zz) ?_ (fun _ => ?_); rotate_left; clear_value zz; rotate_right) | clear_value zz)
    | with_reducible exact Touch.refl
    | with_reducible assumption
    | decide
    | with_reducible refine touchX_next ?_
    | with_reducible exact touchO_none
    | with_reducible refine touchO_some ?_
    | with_reducible refine touchO_map ?_ (fun _ _ => ?_)
    | with_reducible refine touch_getD ?_ ?_
    | with_reducible apply Touch.thenO (coCtrlEff_touch ..)
    | with_reducible refine gated_k ?_ ?_ ?_
    | unfold zz; try dsimp -zeta only
    | exact touch_ofO rfl ‹TouchO _ _ (some _)›
    | with_reducible refine touchO_map' (fun _ => ?_)
    | refine touch_ofO (by assumption) ?_

theorem execCoStaged_touch (g : BitVec 4) (s : State) : TouchX k_execCoStaged s (execCoStaged g s) := by
  unfold execCoStaged
  repeat' first
    | ((first | lift_lets -underBinder | skip); with_reducible intro zz; first | (refine cut_k (Touch k_execCoStaged s zz) ?_ (fun _ => ?_); rotate_left; clear_value zz; rotate_right) | clear_value zz)
    | with_reducible exact Touch.refl
    | with_reducible assumption
    | decide
    | with_reducible refine touchX_next ?_
    | with_reducible refine foldl_k (fun _ _ _ => ?_) ?_
    | with_reducible refine ite_k ?_ ?_
    | with_reducible apply Touch.then (State_setCo_touch ..)
    | with_reducible apply Touch.then (setCoState_touch ..)
    | with_reducible apply Touch.then (logSteward_touch ..)
    | with_reducible apply Touch.then (placeCam_touch ..)
    | unfold zz; try dsimp -zeta only

theorem coAbort_touch (g : Nat) (r : Nat) (s : State) : Touch k_coAbort s (coAbort g r s) := by
  unfold coAbort
  repeat' first
    | ((first | lift_lets -underBinder | skip); with_reducible intro zz; first | (refine cut_k (Touch k_coAbort s zz) ?_ (fun _ => ?_); rotate_left; clear_value zz; rotate_right) | clear_value zz)
    | with_reducible exact Touch.refl
    | with_reducible assumption
    | decide
    | with_reducible apply Touch.then (releaseTiles_touch ..)
    | with_reducible apply Touch.then (State_setCo_touch ..)
    | with_reducible apply Touch.then (setCoState_touch ..)
    | with_reducible apply Touch.then (pfEvent_touch ..)
    | with_reducible refine eachN_k (fun _ _ _ => ?_) ?_
    | unfold zz; try dsimp -zeta only

theorem coFinish_touch (g : Nat) (s : State) : Touch k_coFinish s (coFinish g s) := by
  unfold coFinish
  repeat' first
    | ((first | lift_lets -underBinder | skip); with_reducible intro zz; first | (refine cut_k (Touch k_coFinish s zz) ?_ (fun _ => ?_); rotate_left; clear_value zz; rotate_right) | (refine cut_k (∀ t, Touch k_coFinish s t → Touch k_coFinish s (zz t)) (fun _ _ => ?_) (fun _ => ?_); rotate_left; clear_value zz; rotate_right) | (refine cut_k (∀ a t, Touch k_coFinish s t → Touch k_coFinish s (zz a t)) (fun _ _ _ => ?_) (fun _ => ?_); rotate_left; clear_value zz; rotate_right) | (refine cut_k (∀ a b t, Touch k_coFinish s t → Touch k_coFinish s (zz a b t)) (fun _ _ _ _ => ?_) (fun _ => ?_); rotate_left; clear_value zz; rotate_right) | (refine cut_k (∀ a b c d t, Touch k_coFinish s t → Touch k_coFinish s (zz a b c d t)) (fun _ _ _ _ _ _ => ?_) (fun _ => ?_); rotate_left; clear_value zz; rotate_right) | clear_value zz)
    | with_reducible exact Touch.refl
    | with_reducible assumption
    | decide
    | with_reducible exact okw_CO_STATUS (by decide)
    | with_reducible exact okw_CO_GEN (by decide)
    | with_reducible refine fset_w ?_ ?_
    | with_reducible apply Touch.then (releaseTiles_touch ..)
    | with_reducible apply Touch.then (State_setCo_touch ..)
    | with_reducible apply Touch.then (setCoState_touch ..)
    | with_reducible apply Touch.then (logSteward_touch ..)
    | with_reducible apply Touch.then (pfEvent_touch ..)
    | with_reducible refine eachN_k (fun _ _ _ => ?_) ?_
    | unfold zz; try dsimp -zeta only
    | with_reducible apply_assumption

theorem coTransition_touch (g : Nat) (n : Nat) (r : Recipe) (firsts : List (Nat × Nat)) (y : Int × Int × Int) (p : Couple) (s : State) : Touch k_coTransition s (coTransition g n r firsts y p s) := by
  unfold coTransition
  repeat' first
    | ((first | lift_lets -underBinder | skip); with_reducible intro zz; first | (refine cut_k (Touch k_coTransition s zz) ?_ (fun _ => ?_); rotate_left; clear_value zz; rotate_right) | clear_value zz)
    | with_reducible exact Touch.refl
    | with_reducible assumption
    | decide
    | with_reducible refine ite_k ?_ ?_
    | with_reducible apply Touch.then (describeCam_touch ..)
    | with_reducible apply Touch.then (modGen_touch ..)
    | unfold zz; try dsimp -zeta only
    | split

theorem coAxis_touch (g : Nat) (n : Nat) (r : Recipe) (firsts : List (Nat × Nat)) (s : State) : Touch k_coAxis s (coAxis g n r firsts s) := by
  unfold coAxis
  repeat' first
    | ((first | lift_lets -underBinder | skip); with_reducible intro zz; first | (refine cut_k (Touch k_coAxis s zz) ?_ (fun _ => ?_); rotate_left; clear_value zz; rotate_right) | clear_value zz)
    | with_reducible exact Touch.refl
    | with_reducible assumption
    | decide
    | with_reducible exact okr_pf (by decide) (by decide)
    | with_reducible refine ite_k ?_ ?_
    | with_reducible refine wrRange_w ?_ ?_
    | with_reducible apply Touch.then (coTransition_touch ..)
    | with_reducible apply Touch.then (installLaw_touch ..)
    | with_reducible apply Touch.then (modGen_touch ..)
    | unfold zz; try dsimp -zeta only
    | split

theorem coTrigger_touch (g : Nat) (s : State) : Touch k_coTrigger s (coTrigger g s) := by
  unfold coTrigger
  repeat' first
    | ((first | lift_lets -underBinder | skip); with_reducible intro zz; first | (refine cut_k (Touch k_coTrigger s zz) ?_ (fun _ => ?_); rotate_left; clear_value zz; rotate_right) | (refine cut_k (∀ t, Touch k_coTrigger s t → Touch k_coTrigger s (zz t)) (fun _ _ => ?_) (fun _ => ?_); rotate_left; clear_value zz; rotate_right) | (refine cut_k (∀ a t, Touch k_coTrigger s t → Touch k_coTrigger s (zz a t)) (fun _ _ _ => ?_) (fun _ => ?_); rotate_left; clear_value zz; rotate_right) | (refine cut_k (∀ a b t, Touch k_coTrigger s t → Touch k_coTrigger s (zz a b t)) (fun _ _ _ _ => ?_) (fun _ => ?_); rotate_left; clear_value zz; rotate_right) | (refine cut_k (∀ a b c d t, Touch k_coTrigger s t → Touch k_coTrigger s (zz a b c d t)) (fun _ _ _ _ _ _ => ?_) (fun _ => ?_); rotate_left; clear_value zz; rotate_right) | clear_value zz)
    | with_reducible exact Touch.refl
    | with_reducible assumption
    | decide
    | with_reducible exact okw_TILE_INFO (by decide)
    | with_reducible refine foldl_k (fun _ _ _ => ?_) ?_
    | with_reducible refine ite_k ?_ ?_
    | with_reducible refine fput_w ?_ ?_
    | with_reducible apply Touch.then (describeCam_touch ..)
    | with_reducible apply Touch.then (setCoState_touch ..)
    | with_reducible apply Touch.then (coFinish_touch ..)
    | with_reducible apply Touch.then (coAbort_touch ..)
    | with_reducible apply Touch.then (coAxis_touch ..)
    | with_reducible refine eachN_k (fun _ _ _ => ?_) ?_
    | unfold zz; try dsimp -zeta only
    | split
    | with_reducible apply_assumption

theorem coAdvance_touch (s : State) : Touch k_coAdvance s (coAdvance s) := by
  unfold coAdvance
  repeat' first
    | ((first | lift_lets -underBinder | skip); with_reducible intro zz; first | (refine cut_k (Touch k_coAdvance s zz) ?_ (fun _ => ?_); rotate_left; clear_value zz; rotate_right) | clear_value zz)
    | with_reducible exact Touch.refl
    | with_reducible assumption
    | decide
    | with_reducible refine ite_k ?_ ?_
    | with_reducible apply Touch.then (coFinish_touch ..)
    | with_reducible refine eachN_k (fun _ _ _ => ?_) ?_
    | unfold zz; try dsimp -zeta only
    | split

theorem setpoints_touch (s : State) : Touch k_setpoints s (setpoints s) := by
  unfold setpoints
  simp -zeta -beta -eta only [mk_eq]
  repeat' first
    | ((first | lift_lets -underBinder | skip); with_reducible intro zz; first | ((first | (have _q : MotSt := zz; clear _q)); dsimp -zeta only [zz]; clear zz) | (refine cut_k (Touch k_setpoints s zz) ?_ (fun _ => ?_); rotate_left; clear_value zz; rotate_right) | clear_value zz)
    | with_reducible exact Touch.refl
    | with_reducible assumption
    | decide
    | with_reducible apply Touch.then (genSample_touch ..)
    | with_reducible apply Touch.then (coAdvance_touch ..)
    | with_reducible refine eachN_k (fun _ _ _ => ?_) ?_
    | with_reducible apply Touch.then (upd_motcomputed ..)

theorem handOver_touch (s : State) : Touch k_handOver s (handOver s) := by
  unfold handOver
  simp -zeta -beta -eta only [mk_eq]
  repeat' first
    | ((first | lift_lets -underBinder | skip); with_reducible intro zz; first | ((first | (have _q : MotSt := zz; clear _q)); dsimp -zeta only [zz]; clear zz) | (refine cut_k (Touch k_handOver s zz) ?_ (fun _ => ?_); rotate_left; clear_value zz; rotate_right) | clear_value zz)
    | with_reducible exact Touch.refl
    | with_reducible assumption
    | decide
    | with_reducible apply Touch.then (modGen_touch ..)
    | with_reducible refine eachN_k (fun _ _ _ => ?_) ?_
    | split
    | with_reducible apply Touch.then (upd_motcomputed ..)

theorem pfResult_touch (n : Nat) (code : Nat) (s : State) : Touch k_pfResult s (pfResult n code s) := by
  unfold pfResult
  repeat' first
    | with_reducible exact Touch.refl
    | with_reducible assumption
    | decide
    | with_reducible exact okw_PF_RESULT (by decide)
    | with_reducible refine wrN_w ?_ ?_

theorem insertMove_touch (n : Nat) (rel : Bool) (s : State) : Touch k_insertMove s (insertMove n rel s) := by
  unfold insertMove
  repeat' first
    | ((first | lift_lets -underBinder | skip); with_reducible intro zz; first | (refine cut_k (Touch k_insertMove s zz) ?_ (fun _ => ?_); rotate_left; clear_value zz; rotate_right) | clear_value zz)
    | with_reducible exact Touch.refl
    | with_reducible assumption
    | decide
    | with_reducible refine ite_k ?_ ?_
    | with_reducible apply Touch.then (setQueue_touch ..)
    | with_reducible apply Touch.then (pfResult_touch ..)
    | unfold zz; try dsimp -zeta only
    | split

theorem flushQueue_touch (n : Nat) (s : State) : Touch k_flushQueue s (flushQueue n s) := by
  unfold flushQueue
  repeat' first
    | with_reducible exact Touch.refl
    | with_reducible assumption
    | decide
    | with_reducible refine ite_k ?_ ?_
    | with_reducible apply Touch.then (setQueue_touch ..)
    | with_reducible apply Touch.then (pfResult_touch ..)

theorem mvCmdEff_touch (n : Nat) (v : Word) (s : State) : TouchO k_mvCmdEff s (mvCmdEff n v s) := by
  unfold mvCmdEff
  repeat' first
    | ((first | lift_lets -underBinder | skip); with_reducible intro zz; first | (refine cut_k (Touch k_mvCmdEff s zz) ?_ (fun _ => ?_); rotate_left; clear_value zz; rotate_right) | (refine cut_k (TouchO k_mvCmdEff s zz) ?_ (fun _ => ?_); rotate_left; clear_value zz; rotate_right) | clear_value zz)
    | with_reducible exact Touch.refl
    | with_reducible assumption
    | decide
    | with_reducible exact okw_PF_RESULT (by decide)
    | with_reducible exact touchO_none
    | with_reducible refine touchO_some ?_
    | with_reducible refine touchO_map ?_ (fun _ _ => ?_)
    | with_reducible refine touch_getD ?_ ?_
    | with_reducible refine wr_w ?_ ?_
    | with_reducible apply Touch.then (insertMove_touch ..)
    | with_reducible apply Touch.then (flushQueue_touch ..)
    | unfold zz; try dsimp -zeta only
    | split
    | exact touch_ofO rfl ‹TouchO _ _ (some _)›
    | with_reducible refine touchO_map' (fun _ => ?_)
    | refine touch_ofO (by assumption) ?_

theorem request_touch (n : Nat) (r : GReq) (s : State) : Touch k_request s (request n r s) := by
  unfold request
  repeat' first
    | with_reducible exact Touch.refl
    | with_reducible assumption
    | decide
    | with_reducible apply Touch.then (pfResult_touch ..)
    | with_reducible apply Touch.then (modGen_touch ..)

theorem pfCmdEff_touch (n : Nat) (v : Word) (s : State) : TouchO k_pfCmdEff s (pfCmdEff n v s) := by
  unfold pfCmdEff
  repeat' first
    | ((first | lift_lets -underBinder | skip); with_reducible intro zz; first | (refine cut_k (okw k_pfCmdEff zz) (by with_reducible first | exact okw_PF_RESULT (by decide) | exact okw_PF_STATUS (by decide)) (fun _ => ?_); clear_value zz) | (refine cut_k (Touch k_pfCmdEff s zz) ?_ (fun _ => ?_); rotate_left; clear_value zz; rotate_right) | (refine cut_k (TouchO k_pfCmdEff s zz) ?_ (fun _ => ?_); rotate_left; clear_value zz; rotate_right) | clear_value zz)
    | with_reducible exact Touch.refl
    | with_reducible assumption
    | decide
    | with_reducible exact okw_PF_RESULT (by decide)
    | with_reducible exact okw_PF_STATUS (by decide)
    | with_reducible exact touchO_none
    | with_reducible refine touchO_some ?_
    | with_reducible refine touchO_map ?_ (fun _ _ => ?_)
    | with_reducible refine touch_getD ?_ ?_
    | with_reducible refine ite_k ?_ ?_
    | with_reducible refine fput_w ?_ ?_
    | with_reducible refine wr_w ?_ ?_
    | with_reducible apply Touch.then (pfResult_touch ..)
    | with_reducible apply Touch.then (request_touch ..)
    | with_reducible apply Touch.then (modGen_touch ..)
    | with_reducible apply Touch.then (rebase_touch ..)
    | unfold zz; try dsimp -zeta only
    | split
    | exact touch_ofO rfl ‹TouchO _ _ (some _)›
    | with_reducible refine touchO_map' (fun _ => ?_)
    | refine touch_ofO (by assumption) ?_

theorem sendPf_touch (w : Who) (n : Axis) (v : Word) (s : State) : Touch k_sendPf s (sendPf w n v s) := by
  unfold sendPf
  repeat' first
    | with_reducible exact Touch.refl
    | with_reducible assumption
    | decide
    | with_reducible exact touchO_none
    | with_reducible refine touchO_some ?_
    | with_reducible refine touchO_map ?_ (fun _ _ => ?_)
    | with_reducible refine touch_getD ?_ ?_
    | with_reducible apply Touch.thenO (pfCmdEff_touch ..)
    | with_reducible refine gated_k ?_ ?_ ?_
    | exact touch_ofO rfl ‹TouchO _ _ (some _)›
    | with_reducible refine touchO_map' (fun _ => ?_)
    | refine touch_ofO (by assumption) ?_

theorem sendMv_touch (w : Who) (n : Axis) (op : Nat) (s : State) : Touch k_sendMv s (sendMv w n op s) := by
  unfold sendMv
  repeat' first
    | with_reducible exact Touch.refl
    | with_reducible assumption
    | decide
    | with_reducible exact touchO_none
    | with_reducible refine touchO_some ?_
    | with_reducible refine touchO_map ?_ (fun _ _ => ?_)
    | with_reducible refine touch_getD ?_ ?_
    | with_reducible apply Touch.thenO (mvCmdEff_touch ..)
    | with_reducible refine gated_k ?_ ?_ ?_
    | exact touch_ofO rfl ‹TouchO _ _ (some _)›
    | with_reducible refine touchO_map' (fun _ => ?_)
    | refine touch_ofO (by assumption) ?_

theorem execMoveInsertAbs_touch (w : Who) (n : Axis) (s : State) : TouchX k_execMoveInsertAbs s (execMoveInsertAbs w n s) := by
  unfold execMoveInsertAbs
  repeat' first
    | with_reducible exact Touch.refl
    | with_reducible assumption
    | decide
    | with_reducible refine touchX_next ?_
    | with_reducible apply Touch.then (sendMv_touch ..)

theorem execMoveInsertRel_touch (w : Who) (n : Axis) (s : State) : TouchX k_execMoveInsertRel s (execMoveInsertRel w n s) := by
  unfold execMoveInsertRel
  repeat' first
    | with_reducible exact Touch.refl
    | with_reducible assumption
    | decide
    | with_reducible refine touchX_next ?_
    | with_reducible apply Touch.then (sendMv_touch ..)

theorem execFlush_touch (w : Who) (n : Axis) (s : State) : TouchX k_execFlush s (execFlush w n s) := by
  unfold execFlush
  repeat' first
    | with_reducible exact Touch.refl
    | with_reducible assumption
    | decide
    | with_reducible refine touchX_next ?_
    | with_reducible apply Touch.then (sendMv_touch ..)

theorem execStop_touch (w : Who) (n : Axis) (fl : Bool) (s : State) : TouchX k_execStop s (execStop w n fl s) := by
  unfold execStop
  repeat' first
    | with_reducible exact Touch.refl
    | with_reducible assumption
    | decide
    | with_reducible refine touchX_next ?_
    | with_reducible apply Touch.then (sendPf_touch ..)

theorem execQstop_touch (w : Who) (n : Axis) (s : State) : TouchX k_execQstop s (execQstop w n s) := by
  unfold execQstop
  repeat' first
    | with_reducible exact Touch.refl
    | with_reducible assumption
    | decide
    | with_reducible refine touchX_next ?_
    | with_reducible apply Touch.then (sendPf_touch ..)

theorem execGear_touch (w : Who) (n : Axis) (s : State) : TouchX k_execGear s (execGear w n s) := by
  unfold execGear
  repeat' first
    | with_reducible exact Touch.refl
    | with_reducible assumption
    | decide
    | with_reducible refine touchX_next ?_
    | with_reducible apply Touch.then (sendPf_touch ..)

theorem execCam_touch (w : Who) (n : Axis) (rel : Bool) (s : State) : TouchX k_execCam s (execCam w n rel s) := by
  unfold execCam
  repeat' first
    | with_reducible exact Touch.refl
    | with_reducible assumption
    | decide
    | with_reducible refine touchX_next ?_
    | with_reducible apply Touch.then (sendPf_touch ..)

theorem execHome_touch (w : Who) (n : Axis) (s : State) : TouchX k_execHome s (execHome w n s) := by
  unfold execHome
  repeat' first
    | with_reducible exact Touch.refl
    | with_reducible assumption
    | decide
    | with_reducible refine touchX_next ?_
    | with_reducible apply Touch.then (sendPf_touch ..)

theorem execSetpos_touch (w : Who) (n : Axis) (s : State) : TouchX k_execSetpos s (execSetpos w n s) := by
  unfold execSetpos
  repeat' first
    | with_reducible exact Touch.refl
    | with_reducible assumption
    | decide
    | with_reducible refine touchX_next ?_
    | with_reducible apply Touch.then (sendPf_touch ..)

theorem execShclr_touch (w : Who) (n : Axis) (s : State) : TouchX k_execShclr s (execShclr w n s) := by
  unfold execShclr
  repeat' first
    | with_reducible exact Touch.refl
    | with_reducible assumption
    | decide
    | with_reducible refine touchX_next ?_
    | with_reducible apply Touch.then (sendPf_touch ..)

theorem execLimitChange_touch (n : Axis) (s : State) : TouchX k_execLimitChange s (execLimitChange n s) := by
  unfold execLimitChange
  repeat' first
    | with_reducible exact Touch.refl
    | with_reducible assumption
    | decide
    | with_reducible refine touchX_next ?_
    | with_reducible refine ite_k ?_ ?_
    | with_reducible apply Touch.then (limitChange_touch ..)

theorem gearDenEff_touch (n : Nat) (v : Word) (s : State) : TouchO k_gearDenEff s (gearDenEff n v s) := by
  unfold gearDenEff
  repeat' first
    | ((first | lift_lets -underBinder | skip); with_reducible intro zz; first | (refine cut_k (Touch k_gearDenEff s zz) ?_ (fun _ => ?_); rotate_left; clear_value zz; rotate_right) | (refine cut_k (TouchO k_gearDenEff s zz) ?_ (fun _ => ?_); rotate_left; clear_value zz; rotate_right) | clear_value zz)
    | with_reducible exact Touch.refl
    | with_reducible assumption
    | decide
    | with_reducible exact okw_PF_GEAR_DEN (by decide)
    | with_reducible exact touchO_none
    | with_reducible refine touchO_some ?_
    | with_reducible refine touchO_map ?_ (fun _ _ => ?_)
    | with_reducible refine touch_getD ?_ ?_
    | with_reducible refine ite_k ?_ ?_
    | with_reducible refine wr_w ?_ ?_
    | with_reducible apply Touch.then (modGen_touch ..)
    | unfold zz; try dsimp -zeta only
    | exact touch_ofO rfl ‹TouchO _ _ (some _)›
    | with_reducible refine touchO_map' (fun _ => ?_)
    | refine touch_ofO (by assumption) ?_

theorem execGearRatioWrite_touch (w : Who) (n : Axis) (v : Word) (s : State) : TouchX k_execGearRatioWrite s (execGearRatioWrite w n v s) := by
  unfold execGearRatioWrite
  repeat' first
    | with_reducible exact Touch.refl
    | with_reducible assumption
    | decide
    | with_reducible refine touchX_next ?_
    | with_reducible exact touchO_none
    | with_reducible refine touchO_some ?_
    | with_reducible refine touchO_map ?_ (fun _ _ => ?_)
    | with_reducible refine touch_getD ?_ ?_
    | with_reducible apply Touch.thenO (gearDenEff_touch ..)
    | with_reducible refine gated_k ?_ ?_ ?_
    | exact touch_ofO rfl ‹TouchO _ _ (some _)›
    | with_reducible refine touchO_map' (fun _ => ?_)
    | refine touch_ofO (by assumption) ?_

theorem setStaged_touch (p : Nat) (a : Nat) (v : Option Word) (s : State) : Touch k_setStaged s (setStaged p a v s) := by
  unfold setStaged
  simp -zeta -beta -eta only [mk_eq]
  repeat' first
    | ((first | lift_lets -underBinder | skip); with_reducible intro zz; first | ((first | (have _q : HostSt := zz; clear _q)); dsimp -zeta only [zz]; clear zz) | (refine cut_k (Touch k_setStaged s zz) ?_ (fun _ => ?_); rotate_left; clear_value zz; rotate_right) | clear_value zz)
    | with_reducible exact Touch.refl
    | with_reducible assumption
    | decide
    | with_reducible apply Touch.then (upd_hoststaged ..)

theorem virtualLimitEff_touch (p : Nat) (n : Nat) (v : Word) (s : State) : TouchO k_virtualLimitEff s (virtualLimitEff p n v s) := by
  unfold virtualLimitEff
  repeat' first
    | ((first | lift_lets -underBinder | skip); with_reducible intro zz; first | (refine cut_k (Touch k_virtualLimitEff s zz) ?_ (fun _ => ?_); rotate_left; clear_value zz; rotate_right) | (refine cut_k (TouchO k_virtualLimitEff s zz) ?_ (fun _ => ?_); rotate_left; clear_value zz; rotate_right) | clear_value zz)
    | with_reducible exact Touch.refl
    | with_reducible assumption
    | decide
    | with_reducible exact okw_PF_MAX (by decide)
    | with_reducible exact okw_PF_MIN (by decide)
    | with_reducible exact touchO_none
    | with_reducible refine touchO_some ?_
    | with_reducible refine touchO_map ?_ (fun _ _ => ?_)
    | with_reducible refine touch_getD ?_ ?_
    | with_reducible refine ite_k ?_ ?_
    | with_reducible refine wr_w ?_ ?_
    | with_reducible apply Touch.then (setStaged_touch ..)
    | unfold zz; try dsimp -zeta only
    | exact touch_ofO rfl ‹TouchO _ _ (some _)›
    | with_reducible refine touchO_map' (fun _ => ?_)
    | refine touch_ofO (by assumption) ?_

theorem execVirtualLimitWrite_touch (w : Who) (n : Axis) (v : Word) (s : State) : TouchX k_execVirtualLimitWrite s (execVirtualLimitWrite w n v s) := by
  unfold execVirtualLimitWrite
  repeat' first
    | with_reducible exact Touch.refl
    | with_reducible assumption
    | decide
    | with_reducible refine touchX_next ?_
    | with_reducible exact touchO_none
    | with_reducible refine touchO_some ?_
    | with_reducible refine touchO_map ?_ (fun _ _ => ?_)
    | with_reducible refine touch_getD ?_ ?_
    | with_reducible apply Touch.thenO (virtualLimitEff_touch ..)
    | with_reducible refine gated_k ?_ ?_ ?_
    | exact touch_ofO rfl ‹TouchO _ _ (some _)›
    | with_reducible refine touchO_map' (fun _ => ?_)
    | refine touch_ofO (by assumption) ?_

theorem execSwitchEdgeRaw_touch (n : Axis) (s : State) : TouchX k_execSwitchEdgeRaw s (execSwitchEdgeRaw n s) := by
  unfold execSwitchEdgeRaw
  repeat' first
    | ((first | lift_lets -underBinder | skip); with_reducible intro zz; first | (refine cut_k (Touch k_execSwitchEdgeRaw s zz) ?_ (fun _ => ?_); rotate_left; clear_value zz; rotate_right) | clear_value zz)
    | with_reducible exact Touch.refl
    | with_reducible assumption
    | decide
    | with_reducible exact okw_PF_HOME_STATUS (by decide)
    | with_reducible exact okw_PF_STATUS (by decide)
    | with_reducible refine touchX_next ?_
    | with_reducible refine ite_k ?_ ?_
    | with_reducible refine fincSat_w ?_ ?_
    | with_reducible refine w1cSet_w ?_ ?_ ?_
    | with_reducible apply Touch.then (homeAbortStop_touch ..)
    | unfold zz; try dsimp -zeta only

theorem execSwitchDebounced_touch (n : Axis) (sw : Switch) (level : Bool) (dt : Nat) (span : Nat) (s : State) : TouchX k_execSwitchDebounced s (execSwitchDebounced n sw level dt span s) := by
  unfold execSwitchDebounced
  repeat' first
    | ((first | lift_lets -underBinder | skip); with_reducible intro zz; first | (refine cut_k (Touch k_execSwitchDebounced s zz) ?_ (fun _ => ?_); rotate_left; clear_value zz; rotate_right) | clear_value zz)
    | with_reducible exact Touch.refl
    | with_reducible assumption
    | decide
    | with_reducible refine touchX_next ?_
    | with_reducible refine ite_k ?_ ?_
    | with_reducible apply Touch.then (homeSwitch_touch ..)
    | with_reducible apply Touch.then (modGen_touch ..)
    | unfold zz; try dsimp -zeta only

theorem execCamTileVerify_touch (n : Axis) (t : BitVec 11) (s : State) : TouchX k_execCamTileVerify s (execCamTileVerify n t s) := by
  unfold execCamTileVerify
  simp -zeta -beta -eta only [mk_eq]
  repeat' first
    | ((first | lift_lets -underBinder | skip); with_reducible intro zz; first | ((first | (have _q : MotSt := zz; clear _q)); dsimp -zeta only [zz]; clear zz) | (refine cut_k (Touch k_execCamTileVerify s zz) ?_ (fun _ => ?_); rotate_left; clear_value zz; rotate_right) | (refine cut_k (Touch2 k_execCamTileVerify s zz) ?_ (fun _ => ?_); rotate_left; clear_value zz; rotate_right) | clear_value zz)
    | with_reducible exact Touch.refl
    | with_reducible assumption
    | decide
    | with_reducible refine touchX_next ?_
    | with_reducible refine ite_k ?_ ?_
    | with_reducible apply Touch.then (tileError_touch ..)
    | with_reducible apply Touch.then2 (fiHit_touch ..)
    | with_reducible refine Touch.snd ?_
    | unfold zz; try dsimp -zeta only
    | split
    | with_reducible refine touch2_mk ?_
    | exact touch_of2 rfl ‹Touch2 _ _ (_, _)›
    | refine touch_of2 (by assumption) ?_
    | with_reducible apply Touch.then (upd_motwin ..)

theorem execCamTileRebuild_touch (t : BitVec 11) (s : State) : TouchX k_execCamTileRebuild s (execCamTileRebuild t s) := by
  unfold execCamTileRebuild
  repeat' first
    | ((first | lift_lets -underBinder | skip); with_reducible intro zz; first | (refine cut_k (Touch k_execCamTileRebuild s zz) ?_ (fun _ => ?_); rotate_left; clear_value zz; rotate_right) | clear_value zz)
    | with_reducible exact Touch.refl
    | with_reducible assumption
    | decide
    | with_reducible exact okw_TILE_CRC (by decide)
    | with_reducible exact okw_camTile (by decide)
    | with_reducible refine touchX_next ?_
    | with_reducible refine ite_k ?_ ?_
    | with_reducible refine wrWords_camTile ?_ (by decide)
    | with_reducible refine wr_w ?_ ?_
    | with_reducible apply Touch.then (logSteward_touch ..)
    | unfold zz; try dsimp -zeta only
    | split

theorem shiftRequest_touch (n : Nat) (d : Int) (s : State) : Touch k_shiftRequest s (shiftRequest n d s) := by
  unfold shiftRequest
  repeat' first
    | with_reducible exact Touch.refl
    | with_reducible assumption
    | decide
    | with_reducible refine ite_k ?_ ?_
    | with_reducible apply Touch.then (pfResult_touch ..)
    | with_reducible apply Touch.then (modGen_touch ..)

theorem shiftEff_touch (p : Nat) (n : Nat) (v : Word) (s : State) : TouchO k_shiftEff s (shiftEff p n v s) := by
  unfold shiftEff
  repeat' first
    | ((first | lift_lets -underBinder | skip); with_reducible intro zz; first | (refine cut_k (Touch k_shiftEff s zz) ?_ (fun _ => ?_); rotate_left; clear_value zz; rotate_right) | (refine cut_k (TouchO k_shiftEff s zz) ?_ (fun _ => ?_); rotate_left; clear_value zz; rotate_right) | clear_value zz)
    | with_reducible exact Touch.refl
    | with_reducible assumption
    | decide
    | with_reducible exact touchO_none
    | with_reducible refine touchO_some ?_
    | with_reducible refine touchO_map ?_ (fun _ _ => ?_)
    | with_reducible refine touch_getD ?_ ?_
    | with_reducible apply Touch.then (shiftRequest_touch ..)
    | with_reducible apply Touch.then (setStaged_touch ..)
    | unfold zz; try dsimp -zeta only
    | split
    | exact touch_ofO rfl ‹TouchO _ _ (some _)›
    | with_reducible refine touchO_map' (fun _ => ?_)
    | refine touch_ofO (by assumption) ?_

theorem execShiftRequest_touch (w : Who) (n : Axis) (v : Word) (s : State) : TouchX k_execShiftRequest s (execShiftRequest w n v s) := by
  unfold execShiftRequest
  repeat' first
    | with_reducible exact Touch.refl
    | with_reducible assumption
    | decide
    | with_reducible refine touchX_next ?_
    | with_reducible exact touchO_none
    | with_reducible refine touchO_some ?_
    | with_reducible refine touchO_map ?_ (fun _ _ => ?_)
    | with_reducible refine touch_getD ?_ ?_
    | with_reducible apply Touch.thenO (shiftEff_touch ..)
    | with_reducible refine gated_k ?_ ?_ ?_
    | exact touch_ofO rfl ‹TouchO _ _ (some _)›
    | with_reducible refine touchO_map' (fun _ => ?_)
    | refine touch_ofO (by assumption) ?_

theorem ripenAll_touch (s : State) : Touch k_ripenAll s (ripenAll s) := by
  unfold ripenAll
  repeat' first
    | ((first | lift_lets -underBinder | skip); with_reducible intro zz; first | (refine cut_k (Touch k_ripenAll s zz) ?_ (fun _ => ?_); rotate_left; clear_value zz; rotate_right) | clear_value zz)
    | with_reducible exact Touch.refl
    | with_reducible assumption
    | decide
    | with_reducible refine ite_k ?_ ?_
    | with_reducible apply Touch.then (modGen_touch ..)
    | with_reducible refine eachN_k (fun _ _ _ => ?_) ?_
    | unfold zz; try dsimp -zeta only

end Sys2Proof.Laws
end

