-- ==== Sys2Proof/Laws/TouchLane.lean ====
section
/-! SUPPORT. What each operation of Machine/Lane.lean can touch: one lemma per operation, by footprint (Laws/Touch.lean). -/

set_option linter.unusedTactic false
set_option linter.unreachableTactic false
set_option linter.unusedSimpArgs false
set_option linter.unusedVariables false

namespace Sys2Proof.Laws
open Sys2Proof Sys2Proof.Machine R

/-! Footprints. -/
def k_State_setLan : Nat := 0x10000000000
def k_lwr : Nat := 0x30000000000000000000000000000000000000000000000000000000000000000000000000000000000000000
def k_releaseLane : Nat := 0x28000000000000001000000000000000000000000000000000000000000000000000000400030000000000000000000000000800000
def k_releaseAxrel : Nat := 0x28000000000000001000000000000000000000000000000000000000000000000000000400030000000000000000000000000800000
def k_orFlags : Nat := 0x28000000000000000100000000000000000000000000000000000000000000000000000400030000000000000000000000000000000
def k_laneFree : Nat := 0x1000000
def k_laneTaskEnd : Nat := 0x28000000000000001180000000000000000000000000000000000000000000000000000400030000000000000000000010001000000
def k_snapFour : Nat := 0x0
def k_laneSnap : Nat := 0x7fc0000000000000000000000000000000000000000000000000000000000000000000000000000000000000000000
def k_laneFault : Nat := 0x28000000000007fc1380000000000000000000000000000000000000000000000000000400030000000000000000000010001000000
def k_laneParity : Nat := 0x28300000000007fc138000000000000000000000000000000000000000030800000000040e43000000000c000000000010001000100
def k_countPre : Nat := 0x4000000000000000000000000000000000000000000000000000000000000000000000000000000000000000000
def k_laneSuspend : Nat := 0x5000000000000000000000000000000000000000000000000000000000000000000000000000000010001000000
def k_laneResume : Nat := 0x1000000000000000000000000000000000000000000000000000000000000000000000000000000010000000000
def k_shadowSave : Nat := 0x1000000000000000000000000000000000000000000000000000000000000000000000000000000010000000000
def k_shadowRestore : Nat := 0x1000000000000000000000000000000000000000000000000000000000000000000000000000000010000000000
def k_laneStart : Nat := 0x1080000000000000000000000000000000000000000000000000000000000000000000000000000010000000000
def k_laneIssue : Nat := 0x2c300000000007fc138000000000000000000000000000000000000000030800000000041e43000000000c000000000010001000100
def k_LX_mod : Nat := 0x0
def k_LX_setD : Nat := 0x0
def k_LX_setStat : Nat := 0x0
def k_LX_fail : Nat := 0x0
def k_LX_flags : Nat := 0x0
def k_LX_arith : Nat := 0x0
def k_LX_logic : Nat := 0x0
def k_LX_accWrite : Nat := 0x0
def k_LX_postModify : Nat := 0x0
def k_LX_store : Nat := 0x30000000000000000000000000000000000000000000000000000000000000000000000000000000000000000
def k_LX_fetchTo : Nat := 0x0
def k_LX_fetches : Nat := 0x0

theorem State_setLan_touch (s : State) (u : Nat) (l : Lane) : Touch k_State_setLan s (State.setLan s u l) := by
  unfold State.setLan
  simp -zeta -beta -eta only [mk_eq]
  repeat' first
    | ((first | lift_lets -underBinder | skip); with_reducible intro zz; first | (refine cut_k (Touch k_State_setLan s zz) ?_ (fun _ => ?_); rotate_left; clear_value zz; rotate_right) | clear_value zz)
    | with_reducible exact Touch.refl
    | with_reducible assumption
    | decide
    | with_reducible apply Touch.then (upd_lane ..)

theorem lwr_touch (wide : Bool) (u : Nat) (y : Bool) (a v : Nat) (s : State) : Touch k_lwr s (lwr wide u y a v s) := by
  unfold lwr dataAt
  refine wr_w Touch.refl ?_
  cases y
  · exact okw_XMEM (by decide)
  · exact okw_YMEM (by decide)

theorem releaseLane_touch (t : Nat) (d0 : Word) (d1 : Word) (rel : Nat) (s : State) : Touch k_releaseLane s (releaseLane t d0 d1 rel s) := by
  unfold releaseLane
  repeat' first
    | ((first | lift_lets -underBinder | skip); with_reducible intro zz; first | (refine cut_k (okw k_releaseLane zz) (by with_reducible first | exact okw_LT_STAT (by decide)) (fun _ => ?_); clear_value zz) | (refine cut_k (Touch k_releaseLane s zz) ?_ (fun _ => ?_); rotate_left; clear_value zz; rotate_right) | clear_value zz)
    | with_reducible exact Touch.refl
    | with_reducible assumption
    | decide
    | with_reducible exact okw_LT_STAT (by decide)
    | with_reducible refine ite_k ?_ ?_
    | with_reducible refine fincSat_w ?_ ?_
    | with_reducible refine w1cSet_w ?_ ?_ ?_
    | with_reducible refine fput_w ?_ ?_
    | with_reducible apply Touch.then (State_setReady_touch ..)
    | unfold zz; try dsimp -zeta only
    | split

theorem releaseAxrel_touch (n : Nat) (rel : Nat) (s : State) : Touch k_releaseAxrel s (releaseAxrel n rel s) := by
  unfold releaseAxrel
  repeat' first
    | ((first | lift_lets -underBinder | skip); with_reducible intro zz; first | (refine cut_k (Touch k_releaseAxrel s zz) ?_ (fun _ => ?_); rotate_left; clear_value zz; rotate_right) | clear_value zz)
    | with_reducible exact Touch.refl
    | with_reducible assumption
    | decide
    | with_reducible refine ite_k ?_ ?_
    | with_reducible apply Touch.then (releaseLane_touch ..)
    | with_reducible refine eachN_k (fun _ _ _ => ?_) ?_
    | unfold zz; try dsimp -zeta only

theorem orFlags_touch (u : Nat) (w : BitVec 16) (s : State) : Touch k_orFlags s (orFlags u w s) := by
  unfold orFlags
  repeat' first
    | ((first | lift_lets -underBinder | skip); with_reducible intro zz; first | (refine cut_k (Touch k_orFlags s zz) ?_ (fun _ => ?_); rotate_left; clear_value zz; rotate_right) | (refine cut_k (∀ t, Touch k_orFlags s t → Touch k_orFlags s (zz t)) (fun _ _ => ?_) (fun _ => ?_); rotate_left; clear_value zz; rotate_right) | (refine cut_k (∀ a t, Touch k_orFlags s t → Touch k_orFlags s (zz a t)) (fun _ _ _ => ?_) (fun _ => ?_); rotate_left; clear_value zz; rotate_right) | (refine cut_k (∀ a b t, Touch k_orFlags s t → Touch k_orFlags s (zz a b t)) (fun _ _ _ _ => ?_) (fun _ => ?_); rotate_left; clear_value zz; rotate_right) | (refine cut_k (∀ a b c d t, Touch k_orFlags s t → Touch k_orFlags s (zz a b c d t)) (fun _ _ _ _ _ _ => ?_) (fun _ => ?_); rotate_left; clear_value zz; rotate_right) | clear_value zz)
    | with_reducible exact Touch.refl
    | with_reducible assumption
    | decide
    | with_reducible exact okw_LANE_FLAGS (by decide)
    | with_reducible refine ite_k ?_ ?_
    | with_reducible refine w1cSet_w ?_ ?_ ?_
    | unfold zz; try dsimp -zeta only
    | with_reducible apply_assumption

theorem laneFree_touch (u : Nat) (cycles : Nat) (s : State) : Touch k_laneFree s (laneFree u cycles s) := by
  unfold laneFree
  repeat' first
    | ((first | lift_lets -underBinder | skip); with_reducible intro zz; first | (refine cut_k (Touch k_laneFree s zz) ?_ (fun _ => ?_); rotate_left; clear_value zz; rotate_right) | clear_value zz)
    | with_reducible exact Touch.refl
    | with_reducible assumption
    | decide
    | with_reducible apply Touch.then (State_setUnit_touch ..)
    | with_reducible refine eachN_k (fun _ _ _ => ?_) ?_
    | unfold zz; try dsimp -zeta only

theorem laneTaskEnd_touch (u : Nat) (s : State) : Touch k_laneTaskEnd s (laneTaskEnd u s) := by
  unfold laneTaskEnd
  repeat' first
    | ((first | lift_lets -underBinder | skip); with_reducible intro zz; first | (refine cut_k (Touch k_laneTaskEnd s zz) ?_ (fun _ => ?_); rotate_left; clear_value zz; rotate_right) | clear_value zz)
    | with_reducible exact Touch.refl
    | with_reducible assumption
    | decide
    | with_reducible exact okw_LT_STAT (by decide)
    | with_reducible exact okw_LANE_STATUS (by decide)
    | with_reducible refine fput_w ?_ ?_
    | with_reducible apply Touch.then (State_setLan_touch ..)
    | with_reducible apply Touch.then (laneFree_touch ..)
    | with_reducible apply Touch.then (orFlags_touch ..)
    | with_reducible refine eachN_k (fun _ _ _ => ?_) ?_
    | unfold zz; try dsimp -zeta only
    | split

theorem snapFour_w {m : Nat} {r s : State} {reg f : Nat → Nat} {n k : Nat} (h : Touch m r s) (hw : ∀ i, okw m (reg i)) :
    Touch m r (snapFour reg f n k s) := by
  unfold snapFour
  exact eachN_k (fun i t ht => wrN_w ht (hw i)) h

theorem laneSnap_touch (u : Nat) (pc : Nat) (s : State) : Touch k_laneSnap s (laneSnap u pc s) := by
  unfold laneSnap
  repeat' first
    | ((first | lift_lets -underBinder | skip); with_reducible intro zz; first | (refine cut_k (okw k_laneSnap zz) (by with_reducible first | exact okw_SNAP_PC (by decide) | exact okw_SNAP_D (by decide) | exact fun _ => okw_SNAP_D (by decide) | exact okw_SNAP_A (by decide) | exact fun _ => okw_SNAP_A (by decide) | exact okw_SNAP_M (by decide) | exact fun _ => okw_SNAP_M (by decide) | exact okw_SNAP_B (by decide) | exact fun _ => okw_SNAP_B (by decide) | exact okw_SNAP_L (by decide) | exact fun _ => okw_SNAP_L (by decide) | exact okw_SNAP_TR (by decide) | exact okw_SNAP_ACC_HI (by decide) | exact okw_SNAP_ACC_LO (by decide)) (fun _ => ?_); clear_value zz) | (refine cut_k (Touch k_laneSnap s zz) ?_ (fun _ => ?_); rotate_left; clear_value zz; rotate_right) | clear_value zz)
    | with_reducible exact Touch.refl
    | with_reducible assumption
    | decide
    | with_reducible exact okw_SNAP_PC (by decide)
    | with_reducible exact okw_SNAP_D (by decide)
    | with_reducible exact fun _ => okw_SNAP_D (by decide)
    | with_reducible exact okw_SNAP_A (by decide)
    | with_reducible exact fun _ => okw_SNAP_A (by decide)
    | with_reducible exact okw_SNAP_M (by decide)
    | with_reducible exact fun _ => okw_SNAP_M (by decide)
    | with_reducible exact okw_SNAP_B (by decide)
    | with_reducible exact fun _ => okw_SNAP_B (by decide)
    | with_reducible exact okw_SNAP_L (by decide)
    | with_reducible exact fun _ => okw_SNAP_L (by decide)
    | with_reducible exact okw_SNAP_TR (by decide)
    | with_reducible exact okw_SNAP_ACC_HI (by decide)
    | with_reducible exact okw_SNAP_ACC_LO (by decide)
    | with_reducible refine ite_k ?_ ?_
    | with_reducible refine snapFour_w ?_ ?_
    | with_reducible refine wrN_w ?_ ?_
    | with_reducible refine wr_w ?_ ?_
    | unfold zz; try dsimp -zeta only

theorem laneFault_touch (u : Nat) (code : Nat) (pc : Nat) (s : State) : Touch k_laneFault s (laneFault u code pc s) := by
  unfold laneFault
  repeat' first
    | ((first | lift_lets -underBinder | skip); with_reducible intro zz; first | (refine cut_k (okw k_laneFault zz) (by with_reducible first | exact okw_LANE_FAULT (by decide) | exact okw_LANE_FLAGS (by decide) | exact okw_LT_STAT (by decide)) (fun _ => ?_); clear_value zz) | (refine cut_k (Touch k_laneFault s zz) ?_ (fun _ => ?_); rotate_left; clear_value zz; rotate_right) | clear_value zz)
    | with_reducible exact Touch.refl
    | with_reducible assumption
    | decide
    | with_reducible exact okw_LANE_FAULT (by decide)
    | with_reducible exact okw_LANE_FLAGS (by decide)
    | with_reducible exact okw_LT_STAT (by decide)
    | with_reducible refine ite_k ?_ ?_
    | with_reducible refine w1cSet_w ?_ ?_ ?_
    | with_reducible refine fput_w ?_ ?_
    | with_reducible refine wrN_w ?_ ?_
    | with_reducible apply Touch.then (State_setLan_touch ..)
    | with_reducible apply Touch.then (laneTaskEnd_touch ..)
    | with_reducible apply Touch.then (sediment_touch ..)
    | with_reducible apply Touch.then (laneSnap_touch ..)
    | with_reducible refine eachN_k (fun _ _ _ => ?_) ?_
    | unfold zz; try dsimp -zeta only
    | split

theorem laneParity_touch (u : Nat) (pc : Nat) (s : State) : Touch k_laneParity s (laneParity u pc s) := by
  unfold laneParity
  repeat' first
    | with_reducible exact Touch.refl
    | with_reducible assumption
    | decide
    | with_reducible apply Touch.then (laneFault_touch ..)
    | with_reducible apply Touch.then (tileError_touch ..)

theorem countPre_touch (u : Nat) (hold : Nat) (s : State) : Touch k_countPre s (countPre u hold s) := by
  unfold countPre
  repeat' first
    | ((first | lift_lets -underBinder | skip); with_reducible intro zz; first | (refine cut_k (okw k_countPre zz) (by with_reducible first | exact okw_LANE_PRE (by decide)) (fun _ => ?_); clear_value zz) | (refine cut_k (Touch k_countPre s zz) ?_ (fun _ => ?_); rotate_left; clear_value zz; rotate_right) | clear_value zz)
    | with_reducible exact Touch.refl
    | with_reducible assumption
    | decide
    | with_reducible exact okw_LANE_PRE (by decide)
    | with_reducible refine fincSat_w ?_ ?_
    | with_reducible refine fset_w ?_ ?_
    | unfold zz; try dsimp -zeta only

theorem laneSuspend_touch (u : Nat) (s : State) : Touch k_laneSuspend s (laneSuspend u s) := by
  unfold laneSuspend
  repeat' first
    | ((first | lift_lets -underBinder | skip); with_reducible intro zz; first | (refine cut_k (Touch k_laneSuspend s zz) ?_ (fun _ => ?_); rotate_left; clear_value zz; rotate_right) | clear_value zz)
    | with_reducible exact Touch.refl
    | with_reducible assumption
    | decide
    | with_reducible exact okw_LT_STAT (by decide)
    | with_reducible refine fput_w ?_ ?_
    | with_reducible apply Touch.then (State_setLan_touch ..)
    | with_reducible apply Touch.then (countPre_touch ..)
    | with_reducible apply Touch.then (laneFree_touch ..)
    | unfold zz; try dsimp -zeta only
    | split

theorem laneResume_touch (u : Nat) (s : State) : Touch k_laneResume s (laneResume u s) := by
  unfold laneResume
  repeat' first
    | ((first | lift_lets -underBinder | skip); with_reducible intro zz; first | (refine cut_k (Touch k_laneResume s zz) ?_ (fun _ => ?_); rotate_left; clear_value zz; rotate_right) | clear_value zz)
    | with_reducible exact Touch.refl
    | with_reducible assumption
    | decide
    | with_reducible exact okw_LT_STAT (by decide)
    | with_reducible refine fput_w ?_ ?_
    | with_reducible apply Touch.then (State_setLan_touch ..)
    | unfold zz; try dsimp -zeta only
    | split

theorem shadowSave_touch (u : Nat) (s : State) : Touch k_shadowSave s (shadowSave u s) := by
  unfold shadowSave
  repeat' first
    | ((first | lift_lets -underBinder | skip); with_reducible intro zz; first | (refine cut_k (Touch k_shadowSave s zz) ?_ (fun _ => ?_); rotate_left; clear_value zz; rotate_right) | clear_value zz)
    | with_reducible exact Touch.refl
    | with_reducible assumption
    | decide
    | with_reducible exact okw_LT_STAT (by decide)
    | with_reducible refine fput_w ?_ ?_
    | with_reducible apply Touch.then (State_setLan_touch ..)
    | unfold zz; try dsimp -zeta only
    | split

theorem shadowRestore_touch (u : Nat) (s : State) : Touch k_shadowRestore s (shadowRestore u s) := by
  unfold shadowRestore
  repeat' first
    | ((first | lift_lets -underBinder | skip); with_reducible intro zz; first | (refine cut_k (Touch k_shadowRestore s zz) ?_ (fun _ => ?_); rotate_left; clear_value zz; rotate_right) | clear_value zz)
    | with_reducible exact Touch.refl
    | with_reducible assumption
    | decide
    | with_reducible exact okw_LT_STAT (by decide)
    | with_reducible refine fput_w ?_ ?_
    | with_reducible apply Touch.then (State_setLan_touch ..)
    | unfold zz; try dsimp -zeta only
    | split

theorem laneStart_touch (u : Nat) (k : Nat) (e : REnt) (s : State) : Touch k_laneStart s (laneStart u k e s) := by
  unfold laneStart
  repeat' first
    | ((first | lift_lets -underBinder | skip); with_reducible intro zz; first | (refine cut_k (okw k_laneStart zz) (by with_reducible first | exact okw_LT_STAT (by decide) | exact okw_LANE_STATUS (by decide)) (fun _ => ?_); clear_value zz) | (refine cut_k (Touch k_laneStart s zz) ?_ (fun _ => ?_); rotate_left; clear_value zz; rotate_right) | clear_value zz)
    | with_reducible exact Touch.refl
    | with_reducible assumption
    | decide
    | with_reducible exact okw_LT_STAT (by decide)
    | with_reducible exact okw_LANE_STATUS (by decide)
    | with_reducible refine ite_k ?_ ?_
    | with_reducible refine fset_w ?_ ?_
    | with_reducible refine fput_w ?_ ?_
    | with_reducible apply Touch.then (State_setLan_touch ..)
    | with_reducible refine eachN_k (fun _ _ _ => ?_) ?_
    | unfold zz; try dsimp -zeta only

theorem laneIssue_k {m : Nat} {r : State} {u mask val : Nat} {fx : LX → LX} {s : State} (hm : k_laneIssue &&& m = k_laneIssue)
    (hf : ∀ x, TouchL m r x → TouchL m r (fx x)) (hs : Touch m r s) : Touch m r (laneIssue u mask val fx s) := by
  unfold laneIssue
  try simp -zeta -beta -eta only [mkL_eq]
  repeat' first
    | ((first | lift_lets -underBinder | skip); with_reducible intro zz; first | (refine cut_k (TouchL m r zz) ?_ (fun _ => ?_); rotate_left; clear_value zz; rotate_right) | clear_value zz)
    | with_reducible assumption
    | with_reducible refine ite_k ?_ ?_
    | exact sub_trans (b := k_laneIssue) (by decide) hm
    | with_reducible apply hf
    | with_reducible refine touchL_mk ?_
    | with_reducible apply Touch.then (laneFault_touch ..)
    | with_reducible apply Touch.then (laneParity_touch ..)
    | with_reducible apply Touch.then (laneTaskEnd_touch ..)
    | with_reducible apply Touch.then (State_setLan_touch ..)
    | with_reducible apply Touch.then2 (fiHit_touch ..)
    | with_reducible refine Touch.snd ?_
    | with_reducible refine Touch.ofL ?_
    | unfold zz; try dsimp -zeta only
    | split
    | refine touch_of2 (by assumption) ?_

theorem LX_mod_touch (x : LX) (f : LaneRegs → LaneRegs) : TouchL k_LX_mod x.s (LX.mod x f) := by
  unfold LX.mod
  try simp -zeta -beta -eta only [mkL_eq]
  repeat' first
    | with_reducible exact Touch.refl
    | with_reducible assumption
    | decide
    | with_reducible exact touchL_refl
    | with_reducible refine Touch.ofL ?_
    | with_reducible refine touchL_mk ?_

theorem LX_setD_touch (x : LX) (n : Nat) (v : Nat) : TouchL k_LX_setD x.s (LX.setD x n v) := by
  unfold LX.setD
  try simp -zeta -beta -eta only [mkL_eq]
  repeat' first
    | with_reducible exact Touch.refl
    | with_reducible assumption
    | decide
    | with_reducible exact touchL_refl
    | with_reducible apply Touch.thenL (LX_mod_touch ..)
    | with_reducible refine Touch.ofL ?_
    | with_reducible refine touchL_mk ?_

theorem LX_setStat_touch (x : LX) (i : Nat) (b : Bool) : TouchL k_LX_setStat x.s (LX.setStat x i b) := by
  unfold LX.setStat
  try simp -zeta -beta -eta only [mkL_eq]
  repeat' first
    | with_reducible exact Touch.refl
    | with_reducible assumption
    | decide
    | with_reducible exact touchL_refl
    | with_reducible apply Touch.thenL (LX_mod_touch ..)
    | with_reducible refine Touch.ofL ?_
    | with_reducible refine touchL_mk ?_

theorem LX_fail_touch (x : LX) (c : Nat) : TouchL k_LX_fail x.s (LX.fail x c) := by
  unfold LX.fail
  try simp -zeta -beta -eta only [mkL_eq]
  repeat' first
    | with_reducible exact Touch.refl
    | with_reducible assumption
    | decide
    | with_reducible exact touchL_refl
    | with_reducible refine Touch.ofL ?_
    | with_reducible refine touchL_mk ?_

theorem LX_flags_touch (x : LX) (val : Nat) (c : Bool) (v : Bool) : TouchL k_LX_flags x.s (LX.flags x val c v) := by
  unfold LX.flags
  repeat' first
    | with_reducible exact Touch.refl
    | with_reducible assumption
    | decide
    | with_reducible exact touchL_refl
    | with_reducible apply Touch.thenL (LX_setStat_touch ..)
    | with_reducible refine Touch.ofL ?_

theorem LX_arith_touch (x : LX) (d : Option Nat) (e : Int) (c : Bool) : TouchL k_LX_arith x.s (LX.arith x d e c) := by
  unfold LX.arith
  repeat' first
    | ((first | lift_lets -underBinder | skip); with_reducible intro zz; first | (refine cut_k (Touch k_LX_arith x.s zz) ?_ (fun _ => ?_); rotate_left; clear_value zz; rotate_right) | (refine cut_k (TouchL k_LX_arith x.s zz) ?_ (fun _ => ?_); rotate_left; clear_value zz; rotate_right) | clear_value zz)
    | with_reducible exact Touch.refl
    | with_reducible assumption
    | decide
    | with_reducible exact touchL_refl
    | with_reducible apply Touch.thenL (LX_flags_touch ..)
    | with_reducible apply Touch.thenL (LX_setD_touch ..)
    | with_reducible refine Touch.ofL ?_
    | unfold zz; try dsimp -zeta only
    | split

theorem LX_logic_touch (x : LX) (d : Nat) (v : Nat) : TouchL k_LX_logic x.s (LX.logic x d v) := by
  unfold LX.logic
  repeat' first
    | with_reducible exact Touch.refl
    | with_reducible assumption
    | decide
    | with_reducible exact touchL_refl
    | with_reducible apply Touch.thenL (LX_flags_touch ..)
    | with_reducible apply Touch.thenL (LX_setD_touch ..)
    | with_reducible refine Touch.ofL ?_

theorem LX_accWrite_touch (x : LX) (e : Int) : TouchL k_LX_accWrite x.s (LX.accWrite x e) := by
  unfold LX.accWrite
  try simp -zeta -beta -eta only [mkL_eq]
  repeat' first
    | ((first | lift_lets -underBinder | skip); with_reducible intro zz; first | (refine cut_k (Touch k_LX_accWrite x.s zz) ?_ (fun _ => ?_); rotate_left; clear_value zz; rotate_right) | (refine cut_k (TouchL k_LX_accWrite x.s zz) ?_ (fun _ => ?_); rotate_left; clear_value zz; rotate_right) | clear_value zz)
    | with_reducible exact Touch.refl
    | with_reducible assumption
    | decide
    | with_reducible exact touchL_refl
    | with_reducible refine ite_k ?_ ?_
    | with_reducible refine Touch.ofL ?_
    | unfold zz; try dsimp -zeta only
    | split
    | with_reducible refine touchL_mk ?_

theorem LX_postModify_touch (x : LX) (n : Nat) (step : Int) : TouchL k_LX_postModify x.s (x.postModify n step) := by
  unfold LX.postModify
  dsimp only
  repeat' first
    | exact touchL_refl
    | split

theorem LX_store_touch (x : LX) (y : Bool) (w32 : Bool) (a : Nat) (v : Nat) : TouchL k_LX_store x.s (LX.store x y w32 a v) := by
  unfold LX.store
  try simp -zeta -beta -eta only [mkL_eq]
  repeat' first
    | ((first | lift_lets -underBinder | skip); with_reducible intro zz; first | (refine cut_k (Touch k_LX_store x.s zz) ?_ (fun _ => ?_); rotate_left; clear_value zz; rotate_right) | (refine cut_k (TouchL k_LX_store x.s zz) ?_ (fun _ => ?_); rotate_left; clear_value zz; rotate_right) | clear_value zz)
    | with_reducible exact Touch.refl
    | with_reducible assumption
    | decide
    | with_reducible exact touchL_refl
    | with_reducible refine ite_k ?_ ?_
    | with_reducible apply Touch.then (lwr_touch ..)
    | with_reducible refine Touch.ofL ?_
    | unfold zz; try dsimp -zeta only
    | with_reducible refine touchL_mk ?_

theorem LX_fetchTo_touch (x : LX) (on : Bool) (y : Bool) (n : Nat) (md : Nat) (d : Nat) : TouchL k_LX_fetchTo x.s (LX.fetchTo x on y n md d) := by
  unfold LX.fetchTo
  repeat' first
    | with_reducible exact Touch.refl
    | with_reducible assumption
    | decide
    | with_reducible exact touchL_refl
    | with_reducible refine ite_k ?_ ?_
    | with_reducible apply Touch.thenL (LX_postModify_touch ..)
    | with_reducible apply Touch.thenL (LX_setD_touch ..)
    | with_reducible refine Touch.ofL ?_

theorem LX_fetches_touch (x : LX) (f : Fetch) : TouchL k_LX_fetches x.s (LX.fetches x f) := by
  unfold LX.fetches
  repeat' first
    | with_reducible exact Touch.refl
    | with_reducible assumption
    | decide
    | with_reducible exact touchL_refl
    | with_reducible apply Touch.thenL (LX_fetchTo_touch ..)
    | with_reducible refine Touch.ofL ?_

end Sys2Proof.Laws
end

