-- ==== Sys2Proof/Laws/TouchLaneIsa.lean ====
section
/-! SUPPORT. What each operation of Machine/LaneIsa.lean can touch: one lemma per operation, by footprint (Laws/Touch.lean). -/

set_option linter.unusedTactic false
set_option linter.unreachableTactic false
set_option linter.unusedSimpArgs false
set_option linter.unusedVariables false

namespace Sys2Proof.Laws
open Sys2Proof Sys2Proof.Machine R

/-! Footprints. -/
def k_issued : Nat := 0x2c300000000007fc138000000000000000000000000000000000000000030800000000041e43000000000c000000000010001000100
def k_execNop : Nat := 0x2c300000000007fc138000000000000000000000000000000000000000030800000000041e43000000000c000000000010001000100
def k_execLdi : Nat := 0x2c300000000007fc138000000000000000000000000000000000000000030800000000041e43000000000c000000000010001000100
def k_execLdih : Nat := 0x2c300000000007fc138000000000000000000000000000000000000000030800000000041e43000000000c000000000010001000100
def k_execMov : Nat := 0x2c300000000007fc138000000000000000000000000000000000000000030800000000041e43000000000c000000000010001000100
def k_execLd : Nat := 0x2c300000000007fc138000000000000000000000000000000000000000030800000000041e43000000000c000000000010001000100
def k_execSt : Nat := 0x2c300000000007fc13b000000000000000000000000000000000000000030800000000041e43000000000c000000000010001000100
def k_specWrite : Nat := 0x0
def k_execMts : Nat := 0x2c300000000007fc138000000000000000000000000000000000000000030800000000041e43000000000c000000000010001000100
def k_execMfs : Nat := 0x2c300000000007fc138000000000000000000000000000000000000000030800000000041e43000000000c000000000010001000100
def k_execAdd : Nat := 0x2c300000000007fc138000000000000000000000000000000000000000030800000000041e43000000000c000000000010001000100
def k_execSub : Nat := 0x2c300000000007fc138000000000000000000000000000000000000000030800000000041e43000000000c000000000010001000100
def k_execAddi : Nat := 0x2c300000000007fc138000000000000000000000000000000000000000030800000000041e43000000000c000000000010001000100
def k_execLand : Nat := 0x2c300000000007fc138000000000000000000000000000000000000000030800000000041e43000000000c000000000010001000100
def k_execLor : Nat := 0x2c300000000007fc138000000000000000000000000000000000000000030800000000041e43000000000c000000000010001000100
def k_execLxor : Nat := 0x2c300000000007fc138000000000000000000000000000000000000000030800000000041e43000000000c000000000010001000100
def k_execAndi : Nat := 0x2c300000000007fc138000000000000000000000000000000000000000030800000000041e43000000000c000000000010001000100
def k_execOri : Nat := 0x2c300000000007fc138000000000000000000000000000000000000000030800000000041e43000000000c000000000010001000100
def k_execXori : Nat := 0x2c300000000007fc138000000000000000000000000000000000000000030800000000041e43000000000c000000000010001000100
def k_execShl : Nat := 0x2c300000000007fc138000000000000000000000000000000000000000030800000000041e43000000000c000000000010001000100
def k_execShr : Nat := 0x2c300000000007fc138000000000000000000000000000000000000000030800000000041e43000000000c000000000010001000100
def k_execSra : Nat := 0x2c300000000007fc138000000000000000000000000000000000000000030800000000041e43000000000c000000000010001000100
def k_execCmp : Nat := 0x2c300000000007fc138000000000000000000000000000000000000000030800000000041e43000000000c000000000010001000100
def k_execNeg : Nat := 0x2c300000000007fc138000000000000000000000000000000000000000030800000000041e43000000000c000000000010001000100
def k_execAbs : Nat := 0x2c300000000007fc138000000000000000000000000000000000000000030800000000041e43000000000c000000000010001000100
def k_execLnot : Nat := 0x2c300000000007fc138000000000000000000000000000000000000000030800000000041e43000000000c000000000010001000100
def k_execMin : Nat := 0x2c300000000007fc138000000000000000000000000000000000000000030800000000041e43000000000c000000000010001000100
def k_execMax : Nat := 0x2c300000000007fc138000000000000000000000000000000000000000030800000000041e43000000000c000000000010001000100
def k_LX_setLate : Nat := 0x0
def k_execNrm : Nat := 0x2c300000000007fc138000000000000000000000000000000000000000130800000000041e43000000000c000000000010001000100
def k_execQstep : Nat := 0x2c300000000007fc138000000000000000000000000000000000000000130800000000041e43000000000c000000000010001000100
def k_execMac : Nat := 0x2c300000000007fc138000000000000000000000000000000000000000030800000000041e43000000000c000000000010001000100
def k_execMsu : Nat := 0x2c300000000007fc138000000000000000000000000000000000000000030800000000041e43000000000c000000000010001000100
def k_execMpy : Nat := 0x2c300000000007fc138000000000000000000000000000000000000000030800000000041e43000000000c000000000010001000100
def k_execFetch : Nat := 0x2c300000000007fc138000000000000000000000000000000000000000030800000000041e43000000000c000000000010001000100
def k_execAcs : Nat := 0x2c300000000007fc138000000000000000000000000000000000000000030800000000041e43000000000c000000000010001000100
def k_execClra : Nat := 0x2c300000000007fc138000000000000000000000000000000000000000030800000000041e43000000000c000000000010001000100
def k_execAdda : Nat := 0x2c300000000007fc138000000000000000000000000000000000000000030800000000041e43000000000c000000000010001000100
def k_execSuba : Nat := 0x2c300000000007fc138000000000000000000000000000000000000000030800000000041e43000000000c000000000010001000100
def k_execNega : Nat := 0x2c300000000007fc138000000000000000000000000000000000000000030800000000041e43000000000c000000000010001000100
def k_execAbsa : Nat := 0x2c300000000007fc138000000000000000000000000000000000000000030800000000041e43000000000c000000000010001000100
def k_execShla : Nat := 0x2c300000000007fc138000000000000000000000000000000000000000030800000000041e43000000000c000000000010001000100
def k_execShra : Nat := 0x2c300000000007fc138000000000000000000000000000000000000000030800000000041e43000000000c000000000010001000100
def k_mvaHigh : Nat := 0x0
def k_execMvaH : Nat := 0x2c300000000007fc138000000000000000000000000000000000000000030800000000041e43000000000c000000000010001000100
def k_execMvaT : Nat := 0x2c300000000007fc138000000000000000000000000000000000000000030800000000041e43000000000c000000000010001000100
def k_execMvaL : Nat := 0x2c300000000007fc138000000000000000000000000000000000000000030800000000041e43000000000c000000000010001000100
def k_LX_after2 : Nat := 0x0
def k_execBr : Nat := 0x2c300000000007fc138000000000000000000000000000000000000000030800000000041e43000000000c000000000010001000100
def k_execCall : Nat := 0x2c300000000007fc138000000000000000000000000000000000000000030800000000041e43000000000c000000000010001000100
def k_execRet : Nat := 0x2c300000000007fc138000000000000000000000000000000000000000030800000000041e43000000000c000000000010001000100
def k_execRpt : Nat := 0x2c300000000007fc138000000000000000000000000000000000000000030800000000041e43000000000c000000000010001000100
def k_openLoop : Nat := 0x0
def k_execLoop : Nat := 0x2c300000000007fc138000000000000000000000000000000000000000030800000000041e43000000000c000000000010001000100
def k_execLaneEnd : Nat := 0x2c300000000007fc138000000000000000000000000000000000000000030800000000041e43000000000c000000000010001000100
def k_portRead : Nat := 0x0
def k_execPortIn : Nat := 0x2c300000000007fc138000000000000000000000000000000000000000030800000000041e43000000000c000000000010001000100
def k_execPortOut : Nat := 0x2c300000000007fd138000000000000000000000000000000000000000030800000000041e43000000000c000000000010001000100
def k_LX_post : Nat := 0x0
def k_execPostEntry : Nat := 0x2c300000000007fc138000200000000000000000000000000000000000130800000000041e43000000000c000000000010001680100
def k_execPostShift : Nat := 0x2c300000000007fc138000000000000004000000000000000000000000030800000000041e43000000000c000000000011001000100
def k_execPostRelease : Nat := 0x2c300000000007fc138000000000000000000000000000000000000000030800000000041e43000000000c000000000010001800100
def k_laneCtrlEff : Nat := 0x28000000000000000040000000000000000000000000000000000000000000000000000400030000000000000000000000000000000
def k_execLagoonRequest : Nat := 0x2830000000000000004000000000000000000000000000000000000000000800000000060f43000000000c000000000000000000000
def k_lagoonJoin : Nat := 0x80000000000000000000000000000000000000000000000000000000000000000000000000000010000000000
def k_lagoonPart : Nat := 0x80000000000000000000000000000000000000000000000000000400000000000000000000000010000000000
def k_lagoonAct : Nat := 0x80000000000000000000000000000000000000000000000000000400000000000000000000000010000000000
def k_execLagoonApply : Nat := 0x80000000000000000000000000000000000000000000000000000400000000000000000000000010000000000
def k_ltCmdEff : Nat := 0x1000000000000000000000000000000000000000000000000000000000000000000000000000000000000800000
def k_execRearm : Nat := 0x2830000000000000100000000000000000000000000000000000000000000800000000060f43000000000c000000000000000800000
def k_condHoldoff : Nat := 0x1000000000000000000000000000000000000000000000000
def k_holdoffAct : Nat := 0x1000000000000000000000000000000000000010000000000
def k_execHoldoffMaxApply : Nat := 0x1000000000000000000000000000000000000010000000000
def k_execLaneCapture : Nat := 0x28000000000000001000000000000000000000000000000000000000000000000000000400030000000000000000000010000000000

theorem issued_k {m : Nat} {r : State} {u : UnitNo} {mask val : Nat} {fx : LX → LX} {s : State} (hm : k_issued &&& m = k_issued)
    (hf : ∀ x, TouchL m r x → TouchL m r (fx x)) (hs : Touch m r s) : TouchX m r (issued u mask val fx s) :=
  touchX_next (laneIssue_k hm hf hs)

theorem execNop_touch (u : UnitNo) (s : State) : TouchX k_execNop s (execNop u s) := by
  unfold execNop
  exact issued_k (by decide) (fun _ h => h) Touch.refl

theorem execLdi_touch (u : UnitNo) (d : BitVec 3) (imm : BitVec 16) (s : State) : TouchX k_execLdi s (execLdi u d imm s) := by
  unfold execLdi
  repeat' first
    | with_reducible exact Touch.refl
    | with_reducible assumption
    | decide
    | with_reducible exact touchL_refl
    | with_reducible refine touchX_next ?_
    | with_reducible apply Touch.thenL (LX_setD_touch ..)
    | with_reducible refine issued_k ?_ (fun _ _ => ?_) ?_
    | with_reducible refine Touch.ofL ?_

theorem execLdih_touch (u : UnitNo) (d : BitVec 3) (imm : BitVec 16) (s : State) : TouchX k_execLdih s (execLdih u d imm s) := by
  unfold execLdih
  repeat' first
    | with_reducible exact Touch.refl
    | with_reducible assumption
    | decide
    | with_reducible exact touchL_refl
    | with_reducible refine touchX_next ?_
    | with_reducible apply Touch.thenL (LX_setD_touch ..)
    | with_reducible refine issued_k ?_ (fun _ _ => ?_) ?_
    | with_reducible refine Touch.ofL ?_

theorem execMov_touch (u : UnitNo) (d : BitVec 3) (a : BitVec 3) (s : State) : TouchX k_execMov s (execMov u d a s) := by
  unfold execMov
  repeat' first
    | with_reducible exact Touch.refl
    | with_reducible assumption
    | decide
    | with_reducible exact touchL_refl
    | with_reducible refine touchX_next ?_
    | with_reducible apply Touch.thenL (LX_setD_touch ..)
    | with_reducible refine issued_k ?_ (fun _ _ => ?_) ?_
    | with_reducible refine Touch.ofL ?_

theorem execLd_touch (u : UnitNo) (d : BitVec 3) (y : Bool) (w : Bool) (ea : Ea) (s : State) : TouchX k_execLd s (execLd u d y w ea s) := by
  unfold execLd
  repeat' first
    | ((first | lift_lets -underBinder | skip); with_reducible intro zz; first | (refine cut_k (Touch k_execLd s zz) ?_ (fun _ => ?_); rotate_left; clear_value zz; rotate_right) | (refine cut_k (TouchL k_execLd s zz) ?_ (fun _ => ?_); rotate_left; clear_value zz; rotate_right) | clear_value zz)
    | with_reducible exact Touch.refl
    | with_reducible assumption
    | decide
    | with_reducible exact touchL_refl
    | with_reducible refine touchX_next ?_
    | with_reducible refine ite_k ?_ ?_
    | with_reducible apply Touch.thenL (LX_postModify_touch ..)
    | with_reducible apply Touch.thenL (LX_setD_touch ..)
    | with_reducible refine issued_k ?_ (fun _ _ => ?_) ?_
    | with_reducible refine Touch.ofL ?_
    | unfold zz; try dsimp -zeta only
    | split

theorem execSt_touch (u : UnitNo) (a : BitVec 3) (y : Bool) (w : Bool) (ea : Ea) (s : State) : TouchX k_execSt s (execSt u a y w ea s) := by
  unfold execSt
  repeat' first
    | ((first | lift_lets -underBinder | skip); with_reducible intro zz; first | (refine cut_k (Touch k_execSt s zz) ?_ (fun _ => ?_); rotate_left; clear_value zz; rotate_right) | (refine cut_k (TouchL k_execSt s zz) ?_ (fun _ => ?_); rotate_left; clear_value zz; rotate_right) | clear_value zz)
    | with_reducible exact Touch.refl
    | with_reducible assumption
    | decide
    | with_reducible exact touchL_refl
    | with_reducible refine touchX_next ?_
    | with_reducible apply Touch.thenL (LX_postModify_touch ..)
    | with_reducible apply Touch.thenL (LX_store_touch ..)
    | with_reducible refine issued_k ?_ (fun _ _ => ?_) ?_
    | with_reducible refine Touch.ofL ?_
    | unfold zz; try dsimp -zeta only
    | split

theorem specWrite_touch (x : LX) (k : Nat) (v : Nat) : TouchL k_specWrite x.s (specWrite x k v) := by
  unfold specWrite
  try simp -zeta -beta -eta only [mkL_eq]
  repeat' first
    | ((first | lift_lets -underBinder | skip); with_reducible intro zz; first | (refine cut_k (Touch k_specWrite x.s zz) ?_ (fun _ => ?_); rotate_left; clear_value zz; rotate_right) | (refine cut_k (TouchL k_specWrite x.s zz) ?_ (fun _ => ?_); rotate_left; clear_value zz; rotate_right) | clear_value zz)
    | with_reducible exact Touch.refl
    | with_reducible assumption
    | decide
    | with_reducible exact touchL_refl
    | with_reducible refine ite_k ?_ ?_
    | with_reducible apply Touch.thenL (LX_mod_touch ..)
    | with_reducible refine Touch.ofL ?_
    | unfold zz; try dsimp -zeta only
    | split
    | with_reducible refine touchL_mk ?_

theorem execMts_touch (u : UnitNo) (k : BitVec 5) (a : BitVec 3) (s : State) : TouchX k_execMts s (execMts u k a s) := by
  unfold execMts
  repeat' first
    | with_reducible exact Touch.refl
    | with_reducible assumption
    | decide
    | with_reducible exact touchL_refl
    | with_reducible refine touchX_next ?_
    | with_reducible apply Touch.thenL (specWrite_touch ..)
    | with_reducible refine issued_k ?_ (fun _ _ => ?_) ?_
    | with_reducible refine Touch.ofL ?_

theorem execMfs_touch (u : UnitNo) (d : BitVec 3) (k : BitVec 5) (s : State) : TouchX k_execMfs s (execMfs u d k s) := by
  unfold execMfs
  repeat' first
    | with_reducible exact Touch.refl
    | with_reducible assumption
    | decide
    | with_reducible exact touchL_refl
    | with_reducible refine touchX_next ?_
    | with_reducible apply Touch.thenL (LX_setD_touch ..)
    | with_reducible refine issued_k ?_ (fun _ _ => ?_) ?_
    | with_reducible refine Touch.ofL ?_

theorem execAdd_touch (u : UnitNo) (d : BitVec 3) (a : BitVec 3) (b : BitVec 3) (s : State) : TouchX k_execAdd s (execAdd u d a b s) := by
  unfold execAdd
  repeat' first
    | with_reducible exact Touch.refl
    | with_reducible assumption
    | decide
    | with_reducible exact touchL_refl
    | with_reducible refine touchX_next ?_
    | with_reducible apply Touch.thenL (LX_arith_touch ..)
    | with_reducible refine issued_k ?_ (fun _ _ => ?_) ?_
    | with_reducible refine Touch.ofL ?_

theorem execSub_touch (u : UnitNo) (d : BitVec 3) (a : BitVec 3) (b : BitVec 3) (s : State) : TouchX k_execSub s (execSub u d a b s) := by
  unfold execSub
  repeat' first
    | with_reducible exact Touch.refl
    | with_reducible assumption
    | decide
    | with_reducible exact touchL_refl
    | with_reducible refine touchX_next ?_
    | with_reducible apply Touch.thenL (LX_arith_touch ..)
    | with_reducible refine issued_k ?_ (fun _ _ => ?_) ?_
    | with_reducible refine Touch.ofL ?_

theorem execAddi_touch (u : UnitNo) (d : BitVec 3) (a : BitVec 3) (imm : BitVec 16) (s : State) : TouchX k_execAddi s (execAddi u d a imm s) := by
  unfold execAddi
  repeat' first
    | with_reducible exact Touch.refl
    | with_reducible assumption
    | decide
    | with_reducible exact touchL_refl
    | with_reducible refine touchX_next ?_
    | with_reducible apply Touch.thenL (LX_arith_touch ..)
    | with_reducible refine issued_k ?_ (fun _ _ => ?_) ?_
    | with_reducible refine Touch.ofL ?_

theorem execLand_touch (u : UnitNo) (d : BitVec 3) (a : BitVec 3) (b : BitVec 3) (s : State) : TouchX k_execLand s (execLand u d a b s) := by
  unfold execLand
  repeat' first
    | with_reducible exact Touch.refl
    | with_reducible assumption
    | decide
    | with_reducible exact touchL_refl
    | with_reducible refine touchX_next ?_
    | with_reducible apply Touch.thenL (LX_logic_touch ..)
    | with_reducible refine issued_k ?_ (fun _ _ => ?_) ?_
    | with_reducible refine Touch.ofL ?_

theorem execLor_touch (u : UnitNo) (d : BitVec 3) (a : BitVec 3) (b : BitVec 3) (s : State) : TouchX k_execLor s (execLor u d a b s) := by
  unfold execLor
  repeat' first
    | with_reducible exact Touch.refl
    | with_reducible assumption
    | decide
    | with_reducible exact touchL_refl
    | with_reducible refine touchX_next ?_
    | with_reducible apply Touch.thenL (LX_logic_touch ..)
    | with_reducible refine issued_k ?_ (fun _ _ => ?_) ?_
    | with_reducible refine Touch.ofL ?_

theorem execLxor_touch (u : UnitNo) (d : BitVec 3) (a : BitVec 3) (b : BitVec 3) (s : State) : TouchX k_execLxor s (execLxor u d a b s) := by
  unfold execLxor
  repeat' first
    | with_reducible exact Touch.refl
    | with_reducible assumption
    | decide
    | with_reducible exact touchL_refl
    | with_reducible refine touchX_next ?_
    | with_reducible apply Touch.thenL (LX_logic_touch ..)
    | with_reducible refine issued_k ?_ (fun _ _ => ?_) ?_
    | with_reducible refine Touch.ofL ?_

theorem execAndi_touch (u : UnitNo) (d : BitVec 3) (a : BitVec 3) (imm : BitVec 16) (s : State) : TouchX k_execAndi s (execAndi u d a imm s) := by
  unfold execAndi
  repeat' first
    | with_reducible exact Touch.refl
    | with_reducible assumption
    | decide
    | with_reducible exact touchL_refl
    | with_reducible refine touchX_next ?_
    | with_reducible apply Touch.thenL (LX_logic_touch ..)
    | with_reducible refine issued_k ?_ (fun _ _ => ?_) ?_
    | with_reducible refine Touch.ofL ?_

theorem execOri_touch (u : UnitNo) (d : BitVec 3) (a : BitVec 3) (imm : BitVec 16) (s : State) : TouchX k_execOri s (execOri u d a imm s) := by
  unfold execOri
  repeat' first
    | with_reducible exact Touch.refl
    | with_reducible assumption
    | decide
    | with_reducible exact touchL_refl
    | with_reducible refine touchX_next ?_
    | with_reducible apply Touch.thenL (LX_logic_touch ..)
    | with_reducible refine issued_k ?_ (fun _ _ => ?_) ?_
    | with_reducible refine Touch.ofL ?_

theorem execXori_touch (u : UnitNo) (d : BitVec 3) (a : BitVec 3) (imm : BitVec 16) (s : State) : TouchX k_execXori s (execXori u d a imm s) := by
  unfold execXori
  repeat' first
    | with_reducible exact Touch.refl
    | with_reducible assumption
    | decide
    | with_reducible exact touchL_refl
    | with_reducible refine touchX_next ?_
    | with_reducible apply Touch.thenL (LX_logic_touch ..)
    | with_reducible refine issued_k ?_ (fun _ _ => ?_) ?_
    | with_reducible refine Touch.ofL ?_

theorem execShl_touch (u : UnitNo) (d : BitVec 3) (a : BitVec 3) (n : BitVec 5) (s : State) : TouchX k_execShl s (execShl u d a n s) := by
  unfold execShl
  repeat' first
    | with_reducible exact Touch.refl
    | with_reducible assumption
    | decide
    | with_reducible exact touchL_refl
    | with_reducible refine touchX_next ?_
    | with_reducible apply Touch.thenL (LX_logic_touch ..)
    | with_reducible refine issued_k ?_ (fun _ _ => ?_) ?_
    | with_reducible refine Touch.ofL ?_

theorem execShr_touch (u : UnitNo) (d : BitVec 3) (a : BitVec 3) (n : BitVec 5) (s : State) : TouchX k_execShr s (execShr u d a n s) := by
  unfold execShr
  repeat' first
    | with_reducible exact Touch.refl
    | with_reducible assumption
    | decide
    | with_reducible exact touchL_refl
    | with_reducible refine touchX_next ?_
    | with_reducible apply Touch.thenL (LX_logic_touch ..)
    | with_reducible refine issued_k ?_ (fun _ _ => ?_) ?_
    | with_reducible refine Touch.ofL ?_

theorem execSra_touch (u : UnitNo) (d : BitVec 3) (a : BitVec 3) (n : BitVec 5) (s : State) : TouchX k_execSra s (execSra u d a n s) := by
  unfold execSra
  repeat' first
    | with_reducible exact Touch.refl
    | with_reducible assumption
    | decide
    | with_reducible exact touchL_refl
    | with_reducible refine touchX_next ?_
    | with_reducible apply Touch.thenL (LX_logic_touch ..)
    | with_reducible refine issued_k ?_ (fun _ _ => ?_) ?_
    | with_reducible refine Touch.ofL ?_

theorem execCmp_touch (u : UnitNo) (a : BitVec 3) (b : BitVec 3) (s : State) : TouchX k_execCmp s (execCmp u a b s) := by
  unfold execCmp
  repeat' first
    | with_reducible exact Touch.refl
    | with_reducible assumption
    | decide
    | with_reducible exact touchL_refl
    | with_reducible refine touchX_next ?_
    | with_reducible apply Touch.thenL (LX_arith_touch ..)
    | with_reducible refine issued_k ?_ (fun _ _ => ?_) ?_
    | with_reducible refine Touch.ofL ?_

theorem execNeg_touch (u : UnitNo) (d : BitVec 3) (a : BitVec 3) (s : State) : TouchX k_execNeg s (execNeg u d a s) := by
  unfold execNeg
  repeat' first
    | with_reducible exact Touch.refl
    | with_reducible assumption
    | decide
    | with_reducible exact touchL_refl
    | with_reducible refine touchX_next ?_
    | with_reducible apply Touch.thenL (LX_arith_touch ..)
    | with_reducible refine issued_k ?_ (fun _ _ => ?_) ?_
    | with_reducible refine Touch.ofL ?_

theorem execAbs_touch (u : UnitNo) (d : BitVec 3) (a : BitVec 3) (s : State) : TouchX k_execAbs s (execAbs u d a s) := by
  unfold execAbs
  repeat' first
    | ((first | lift_lets -underBinder | skip); with_reducible intro zz; first | (refine cut_k (Touch k_execAbs s zz) ?_ (fun _ => ?_); rotate_left; clear_value zz; rotate_right) | (refine cut_k (TouchL k_execAbs s zz) ?_ (fun _ => ?_); rotate_left; clear_value zz; rotate_right) | clear_value zz)
    | with_reducible exact Touch.refl
    | with_reducible assumption
    | decide
    | with_reducible exact touchL_refl
    | with_reducible refine touchX_next ?_
    | with_reducible refine ite_k ?_ ?_
    | with_reducible apply Touch.thenL (LX_arith_touch ..)
    | with_reducible refine issued_k ?_ (fun _ _ => ?_) ?_
    | with_reducible refine Touch.ofL ?_
    | unfold zz; try dsimp -zeta only

theorem execLnot_touch (u : UnitNo) (d : BitVec 3) (a : BitVec 3) (s : State) : TouchX k_execLnot s (execLnot u d a s) := by
  unfold execLnot
  repeat' first
    | with_reducible exact Touch.refl
    | with_reducible assumption
    | decide
    | with_reducible exact touchL_refl
    | with_reducible refine touchX_next ?_
    | with_reducible apply Touch.thenL (LX_logic_touch ..)
    | with_reducible refine issued_k ?_ (fun _ _ => ?_) ?_
    | with_reducible refine Touch.ofL ?_

theorem execMin_touch (u : UnitNo) (d : BitVec 3) (a : BitVec 3) (b : BitVec 3) (s : State) : TouchX k_execMin s (execMin u d a b s) := by
  unfold execMin
  repeat' first
    | with_reducible exact Touch.refl
    | with_reducible assumption
    | decide
    | with_reducible exact touchL_refl
    | with_reducible refine touchX_next ?_
    | with_reducible refine ite_k ?_ ?_
    | with_reducible apply Touch.thenL (LX_logic_touch ..)
    | with_reducible refine issued_k ?_ (fun _ _ => ?_) ?_
    | with_reducible refine Touch.ofL ?_

theorem execMax_touch (u : UnitNo) (d : BitVec 3) (a : BitVec 3) (b : BitVec 3) (s : State) : TouchX k_execMax s (execMax u d a b s) := by
  unfold execMax
  repeat' first
    | with_reducible exact Touch.refl
    | with_reducible assumption
    | decide
    | with_reducible exact touchL_refl
    | with_reducible refine touchX_next ?_
    | with_reducible refine ite_k ?_ ?_
    | with_reducible apply Touch.thenL (LX_logic_touch ..)
    | with_reducible refine issued_k ?_ (fun _ _ => ?_) ?_
    | with_reducible refine Touch.ofL ?_

theorem LX_setLate_touch (x : LX) (d : Nat) (v : Nat) : TouchL k_LX_setLate x.s (LX.setLate x d v) := by
  unfold LX.setLate
  try simp -zeta -beta -eta only [mkL_eq]
  repeat' first
    | ((first | lift_lets -underBinder | skip); with_reducible intro zz; first | (refine cut_k (Touch k_LX_setLate x.s zz) ?_ (fun _ => ?_); rotate_left; clear_value zz; rotate_right) | (refine cut_k (TouchL k_LX_setLate x.s zz) ?_ (fun _ => ?_); rotate_left; clear_value zz; rotate_right) | clear_value zz)
    | with_reducible exact Touch.refl
    | with_reducible assumption
    | decide
    | with_reducible exact touchL_refl
    | with_reducible apply Touch.thenL (LX_setD_touch ..)
    | with_reducible refine Touch.ofL ?_
    | unfold zz; try dsimp -zeta only
    | with_reducible refine touchL_mk ?_

theorem execNrm_touch (u : UnitNo) (d : BitVec 3) (s : State) : TouchX k_execNrm s (execNrm u d s) := by
  unfold execNrm
  try simp -zeta -beta -eta only [mkL_eq]
  repeat' first
    | ((first | lift_lets -underBinder | skip); with_reducible intro zz; first | (refine cut_k (Touch k_execNrm s zz) ?_ (fun _ => ?_); rotate_left; clear_value zz; rotate_right) | (refine cut_k (TouchL k_execNrm s zz) ?_ (fun _ => ?_); rotate_left; clear_value zz; rotate_right) | clear_value zz)
    | with_reducible exact Touch.refl
    | with_reducible assumption
    | decide
    | with_reducible exact touchL_refl
    | with_reducible refine touchX_next ?_
    | with_reducible refine ite_k ?_ ?_
    | with_reducible apply Touch.thenL (LX_setLate_touch ..)
    | with_reducible apply Touch.then (setLate_touch ..)
    | with_reducible apply Touch.thenL (LX_mod_touch ..)
    | with_reducible refine issued_k ?_ (fun _ _ => ?_) ?_
    | with_reducible refine Touch.ofL ?_
    | unfold zz; try dsimp -zeta only
    | split
    | with_reducible refine touchL_mk ?_

theorem execQstep_touch (u : UnitNo) (d : BitVec 3) (a : BitVec 3) (s : State) : TouchX k_execQstep s (execQstep u d a s) := by
  unfold execQstep
  try simp -zeta -beta -eta only [mkL_eq]
  repeat' first
    | ((first | lift_lets -underBinder | skip); with_reducible intro zz; first | (refine cut_k (Touch k_execQstep s zz) ?_ (fun _ => ?_); rotate_left; clear_value zz; rotate_right) | (refine cut_k (TouchL k_execQstep s zz) ?_ (fun _ => ?_); rotate_left; clear_value zz; rotate_right) | clear_value zz)
    | with_reducible exact Touch.refl
    | with_reducible assumption
    | decide
    | with_reducible exact touchL_refl
    | with_reducible refine touchX_next ?_
    | with_reducible refine ite_k ?_ ?_
    | with_reducible apply Touch.thenL (LX_setLate_touch ..)
    | with_reducible apply Touch.then (setLate_touch ..)
    | with_reducible apply Touch.thenL (LX_mod_touch ..)
    | with_reducible refine issued_k ?_ (fun _ _ => ?_) ?_
    | with_reducible refine Touch.ofL ?_
    | unfold zz; try dsimp -zeta only
    | with_reducible refine touchL_mk ?_

theorem execMac_touch (u : UnitNo) (f : Fetch) (a : BitVec 3) (b : BitVec 3) (ua : Bool) (ub : Bool) (hb : Bool) (s : State) : TouchX k_execMac s (execMac u f a b ua ub hb s) := by
  unfold execMac
  repeat' first
    | with_reducible exact Touch.refl
    | with_reducible assumption
    | decide
    | with_reducible exact touchL_refl
    | with_reducible refine touchX_next ?_
    | with_reducible apply Touch.thenL (LX_accWrite_touch ..)
    | with_reducible apply Touch.thenL (LX_fetches_touch ..)
    | with_reducible refine issued_k ?_ (fun _ _ => ?_) ?_
    | with_reducible refine Touch.ofL ?_

theorem execMsu_touch (u : UnitNo) (f : Fetch) (a : BitVec 3) (b : BitVec 3) (ua : Bool) (ub : Bool) (hb : Bool) (s : State) : TouchX k_execMsu s (execMsu u f a b ua ub hb s) := by
  unfold execMsu
  repeat' first
    | with_reducible exact Touch.refl
    | with_reducible assumption
    | decide
    | with_reducible exact touchL_refl
    | with_reducible refine touchX_next ?_
    | with_reducible apply Touch.thenL (LX_accWrite_touch ..)
    | with_reducible apply Touch.thenL (LX_fetches_touch ..)
    | with_reducible refine issued_k ?_ (fun _ _ => ?_) ?_
    | with_reducible refine Touch.ofL ?_

theorem execMpy_touch (u : UnitNo) (f : Fetch) (a : BitVec 3) (b : BitVec 3) (ua : Bool) (ub : Bool) (hb : Bool) (s : State) : TouchX k_execMpy s (execMpy u f a b ua ub hb s) := by
  unfold execMpy
  repeat' first
    | with_reducible exact Touch.refl
    | with_reducible assumption
    | decide
    | with_reducible exact touchL_refl
    | with_reducible refine touchX_next ?_
    | with_reducible apply Touch.thenL (LX_accWrite_touch ..)
    | with_reducible apply Touch.thenL (LX_fetches_touch ..)
    | with_reducible refine issued_k ?_ (fun _ _ => ?_) ?_
    | with_reducible refine Touch.ofL ?_

theorem execFetch_touch (u : UnitNo) (f : Fetch) (s : State) : TouchX k_execFetch s (execFetch u f s) := by
  unfold execFetch
  repeat' first
    | with_reducible exact Touch.refl
    | with_reducible assumption
    | decide
    | with_reducible exact touchL_refl
    | with_reducible refine touchX_next ?_
    | with_reducible apply Touch.thenL (LX_fetches_touch ..)
    | with_reducible refine issued_k ?_ (fun _ _ => ?_) ?_
    | with_reducible refine Touch.ofL ?_

theorem execAcs_touch (u : UnitNo) (d : BitVec 3) (a : BitVec 3) (b : BitVec 3) (c : BitVec 3) (neg : Bool) (mx : Bool) (fx : Bool) (xa : Bool) (xm : BitVec 2) (dx : BitVec 3) (s : State) : TouchX k_execAcs s (execAcs u d a b c neg mx fx xa xm dx s) := by
  unfold execAcs
  try simp -zeta -beta -eta only [mkL_eq]
  repeat' first
    | ((first | lift_lets -underBinder | skip); with_reducible intro zz; first | (refine cut_k (Touch k_execAcs s zz) ?_ (fun _ => ?_); rotate_left; clear_value zz; rotate_right) | (refine cut_k (TouchL k_execAcs s zz) ?_ (fun _ => ?_); rotate_left; clear_value zz; rotate_right) | clear_value zz)
    | with_reducible exact Touch.refl
    | with_reducible assumption
    | decide
    | with_reducible exact touchL_refl
    | with_reducible refine touchX_next ?_
    | with_reducible refine ite_k ?_ ?_
    | with_reducible apply Touch.thenL (LX_fetchTo_touch ..)
    | with_reducible apply Touch.thenL (LX_flags_touch ..)
    | with_reducible apply Touch.thenL (LX_setD_touch ..)
    | with_reducible apply Touch.thenL (LX_mod_touch ..)
    | with_reducible refine issued_k ?_ (fun _ _ => ?_) ?_
    | with_reducible refine Touch.ofL ?_
    | unfold zz; try dsimp -zeta only
    | with_reducible refine touchL_mk ?_

theorem execClra_touch (u : UnitNo) (s : State) : TouchX k_execClra s (execClra u s) := by
  unfold execClra
  try simp -zeta -beta -eta only [mkL_eq]
  repeat' first
    | with_reducible exact Touch.refl
    | with_reducible assumption
    | decide
    | with_reducible exact touchL_refl
    | with_reducible refine touchX_next ?_
    | with_reducible apply Touch.thenL (LX_mod_touch ..)
    | with_reducible refine issued_k ?_ (fun _ _ => ?_) ?_
    | with_reducible refine Touch.ofL ?_
    | with_reducible refine touchL_mk ?_

theorem execAdda_touch (u : UnitNo) (a : BitVec 3) (s : State) : TouchX k_execAdda s (execAdda u a s) := by
  unfold execAdda
  repeat' first
    | with_reducible exact Touch.refl
    | with_reducible assumption
    | decide
    | with_reducible exact touchL_refl
    | with_reducible refine touchX_next ?_
    | with_reducible apply Touch.thenL (LX_accWrite_touch ..)
    | with_reducible refine issued_k ?_ (fun _ _ => ?_) ?_
    | with_reducible refine Touch.ofL ?_

theorem execSuba_touch (u : UnitNo) (a : BitVec 3) (s : State) : TouchX k_execSuba s (execSuba u a s) := by
  unfold execSuba
  repeat' first
    | with_reducible exact Touch.refl
    | with_reducible assumption
    | decide
    | with_reducible exact touchL_refl
    | with_reducible refine touchX_next ?_
    | with_reducible apply Touch.thenL (LX_accWrite_touch ..)
    | with_reducible refine issued_k ?_ (fun _ _ => ?_) ?_
    | with_reducible refine Touch.ofL ?_

theorem execNega_touch (u : UnitNo) (s : State) : TouchX k_execNega s (execNega u s) := by
  unfold execNega
  repeat' first
    | with_reducible exact Touch.refl
    | with_reducible assumption
    | decide
    | with_reducible exact touchL_refl
    | with_reducible refine touchX_next ?_
    | with_reducible apply Touch.thenL (LX_accWrite_touch ..)
    | with_reducible refine issued_k ?_ (fun _ _ => ?_) ?_
    | with_reducible refine Touch.ofL ?_

theorem execAbsa_touch (u : UnitNo) (s : State) : TouchX k_execAbsa s (execAbsa u s) := by
  unfold execAbsa
  repeat' first
    | with_reducible exact Touch.refl
    | with_reducible assumption
    | decide
    | with_reducible exact touchL_refl
    | with_reducible refine touchX_next ?_
    | with_reducible refine ite_k ?_ ?_
    | with_reducible apply Touch.thenL (LX_accWrite_touch ..)
    | with_reducible refine issued_k ?_ (fun _ _ => ?_) ?_
    | with_reducible refine Touch.ofL ?_

theorem execShla_touch (u : UnitNo) (n : BitVec 5) (s : State) : TouchX k_execShla s (execShla u n s) := by
  unfold execShla
  repeat' first
    | with_reducible exact Touch.refl
    | with_reducible assumption
    | decide
    | with_reducible exact touchL_refl
    | with_reducible refine touchX_next ?_
    | with_reducible apply Touch.thenL (LX_accWrite_touch ..)
    | with_reducible refine issued_k ?_ (fun _ _ => ?_) ?_
    | with_reducible refine Touch.ofL ?_

theorem execShra_touch (u : UnitNo) (n : BitVec 5) (s : State) : TouchX k_execShra s (execShra u n s) := by
  unfold execShra
  repeat' first
    | with_reducible exact Touch.refl
    | with_reducible assumption
    | decide
    | with_reducible exact touchL_refl
    | with_reducible refine touchX_next ?_
    | with_reducible apply Touch.thenL (LX_accWrite_touch ..)
    | with_reducible refine issued_k ?_ (fun _ _ => ?_) ?_
    | with_reducible refine Touch.ofL ?_

theorem mvaHigh_touch (x : LX) (d : Nat) (e : Int) : TouchL k_mvaHigh x.s (mvaHigh x d e) := by
  unfold mvaHigh
  repeat' first
    | ((first | lift_lets -underBinder | skip); with_reducible intro zz; first | (refine cut_k (Touch k_mvaHigh x.s zz) ?_ (fun _ => ?_); rotate_left; clear_value zz; rotate_right) | (refine cut_k (TouchL k_mvaHigh x.s zz) ?_ (fun _ => ?_); rotate_left; clear_value zz; rotate_right) | clear_value zz)
    | with_reducible exact Touch.refl
    | with_reducible assumption
    | decide
    | with_reducible exact touchL_refl
    | with_reducible apply Touch.thenL (LX_flags_touch ..)
    | with_reducible apply Touch.thenL (LX_setD_touch ..)
    | with_reducible refine Touch.ofL ?_
    | unfold zz; try dsimp -zeta only
    | split

theorem execMvaH_touch (u : UnitNo) (d : BitVec 3) (s : State) : TouchX k_execMvaH s (execMvaH u d s) := by
  unfold execMvaH
  repeat' first
    | with_reducible exact Touch.refl
    | with_reducible assumption
    | decide
    | with_reducible exact touchL_refl
    | with_reducible refine touchX_next ?_
    | with_reducible apply Touch.thenL (mvaHigh_touch ..)
    | with_reducible refine issued_k ?_ (fun _ _ => ?_) ?_
    | with_reducible refine Touch.ofL ?_

theorem execMvaT_touch (u : UnitNo) (d : BitVec 3) (s : State) : TouchX k_execMvaT s (execMvaT u d s) := by
  unfold execMvaT
  repeat' first
    | with_reducible exact Touch.refl
    | with_reducible assumption
    | decide
    | with_reducible exact touchL_refl
    | with_reducible refine touchX_next ?_
    | with_reducible apply Touch.thenL (mvaHigh_touch ..)
    | with_reducible refine issued_k ?_ (fun _ _ => ?_) ?_
    | with_reducible refine Touch.ofL ?_

theorem execMvaL_touch (u : UnitNo) (d : BitVec 3) (s : State) : TouchX k_execMvaL s (execMvaL u d s) := by
  unfold execMvaL
  repeat' first
    | with_reducible exact Touch.refl
    | with_reducible assumption
    | decide
    | with_reducible exact touchL_refl
    | with_reducible refine touchX_next ?_
    | with_reducible apply Touch.thenL (LX_logic_touch ..)
    | with_reducible refine issued_k ?_ (fun _ _ => ?_) ?_
    | with_reducible refine Touch.ofL ?_

theorem LX_after2_touch (x : LX) (a : After) : TouchL k_LX_after2 x.s (LX.after2 x a) := by
  unfold LX.after2
  try simp -zeta -beta -eta only [mkL_eq]
  repeat' first
    | with_reducible exact Touch.refl
    | with_reducible assumption
    | decide
    | with_reducible exact touchL_refl
    | with_reducible refine Touch.ofL ?_
    | with_reducible refine touchL_mk ?_

theorem execBr_touch (u : UnitNo) (c : BitVec 4) (t : BitVec 13) (s : State) : TouchX k_execBr s (execBr u c t s) := by
  unfold execBr
  try simp -zeta -beta -eta only [mkL_eq]
  repeat' first
    | ((first | lift_lets -underBinder | skip); with_reducible intro zz; first | (refine cut_k (Touch k_execBr s zz) ?_ (fun _ => ?_); rotate_left; clear_value zz; rotate_right) | (refine cut_k (TouchL k_execBr s zz) ?_ (fun _ => ?_); rotate_left; clear_value zz; rotate_right) | clear_value zz)
    | with_reducible exact Touch.refl
    | with_reducible assumption
    | decide
    | with_reducible exact touchL_refl
    | with_reducible refine touchX_next ?_
    | with_reducible refine ite_k ?_ ?_
    | with_reducible apply Touch.thenL (LX_after2_touch ..)
    | with_reducible refine issued_k ?_ (fun _ _ => ?_) ?_
    | with_reducible refine Touch.ofL ?_
    | unfold zz; try dsimp -zeta only
    | with_reducible refine touchL_mk ?_

theorem execCall_touch (u : UnitNo) (c : BitVec 4) (t : BitVec 13) (s : State) : TouchX k_execCall s (execCall u c t s) := by
  unfold execCall
  try simp -zeta -beta -eta only [mkL_eq]
  repeat' first
    | with_reducible exact Touch.refl
    | with_reducible assumption
    | decide
    | with_reducible exact touchL_refl
    | with_reducible refine touchX_next ?_
    | with_reducible refine ite_k ?_ ?_
    | with_reducible apply Touch.thenL (LX_after2_touch ..)
    | with_reducible apply Touch.thenL (LX_fail_touch ..)
    | with_reducible apply Touch.thenL (LX_mod_touch ..)
    | with_reducible refine issued_k ?_ (fun _ _ => ?_) ?_
    | with_reducible refine Touch.ofL ?_
    | with_reducible refine touchL_mk ?_

theorem execRet_touch (u : UnitNo) (c : BitVec 4) (s : State) : TouchX k_execRet s (execRet u c s) := by
  unfold execRet
  try simp -zeta -beta -eta only [mkL_eq]
  repeat' first
    | with_reducible exact Touch.refl
    | with_reducible assumption
    | decide
    | with_reducible exact touchL_refl
    | with_reducible refine touchX_next ?_
    | with_reducible refine ite_k ?_ ?_
    | with_reducible apply Touch.thenL (LX_after2_touch ..)
    | with_reducible apply Touch.thenL (LX_fail_touch ..)
    | with_reducible apply Touch.thenL (LX_mod_touch ..)
    | with_reducible refine issued_k ?_ (fun _ _ => ?_) ?_
    | with_reducible refine Touch.ofL ?_
    | split
    | with_reducible refine touchL_mk ?_

theorem execRpt_touch (u : UnitNo) (n : RptN) (s : State) : TouchX k_execRpt s (execRpt u n s) := by
  unfold execRpt
  try simp -zeta -beta -eta only [mkL_eq]
  repeat' first
    | ((first | lift_lets -underBinder | skip); with_reducible intro zz; first | (refine cut_k (Touch k_execRpt s zz) ?_ (fun _ => ?_); rotate_left; clear_value zz; rotate_right) | (refine cut_k (TouchL k_execRpt s zz) ?_ (fun _ => ?_); rotate_left; clear_value zz; rotate_right) | clear_value zz)
    | with_reducible exact Touch.refl
    | with_reducible assumption
    | decide
    | with_reducible exact touchL_refl
    | with_reducible refine touchX_next ?_
    | with_reducible refine ite_k ?_ ?_
    | with_reducible apply Touch.thenL (LX_setStat_touch ..)
    | with_reducible refine issued_k ?_ (fun _ _ => ?_) ?_
    | with_reducible refine Touch.ofL ?_
    | unfold zz; try dsimp -zeta only
    | split
    | with_reducible refine touchL_mk ?_

theorem openLoop_touch (x : LX) (n : Nat) (e : Nat) : TouchL k_openLoop x.s (openLoop x n e) := by
  unfold openLoop
  try simp -zeta -beta -eta only [mkL_eq]
  repeat' first
    | ((first | lift_lets -underBinder | skip); with_reducible intro zz; first | (refine cut_k (Touch k_openLoop x.s zz) ?_ (fun _ => ?_); rotate_left; clear_value zz; rotate_right) | (refine cut_k (TouchL k_openLoop x.s zz) ?_ (fun _ => ?_); rotate_left; clear_value zz; rotate_right) | clear_value zz)
    | with_reducible exact Touch.refl
    | with_reducible assumption
    | decide
    | with_reducible exact touchL_refl
    | with_reducible refine ite_k ?_ ?_
    | with_reducible apply Touch.thenL (LX_fail_touch ..)
    | with_reducible apply Touch.thenL (LX_mod_touch ..)
    | with_reducible refine Touch.ofL ?_
    | unfold zz; try dsimp -zeta only
    | with_reducible refine touchL_mk ?_

theorem execLoop_touch (u : UnitNo) (n : LoopN) (e : BitVec 13) (s : State) : TouchX k_execLoop s (execLoop u n e s) := by
  unfold execLoop
  repeat' first
    | with_reducible exact Touch.refl
    | with_reducible assumption
    | decide
    | with_reducible exact touchL_refl
    | with_reducible refine touchX_next ?_
    | with_reducible apply Touch.thenL (openLoop_touch ..)
    | with_reducible refine issued_k ?_ (fun _ _ => ?_) ?_
    | with_reducible refine Touch.ofL ?_
    | split

theorem execLaneEnd_touch (u : UnitNo) (s : State) : TouchX k_execLaneEnd s (execLaneEnd u s) := by
  unfold execLaneEnd
  repeat' first
    | with_reducible exact Touch.refl
    | with_reducible assumption
    | decide
    | with_reducible exact touchL_refl
    | with_reducible refine touchX_next ?_
    | with_reducible apply Touch.thenL (LX_after2_touch ..)
    | with_reducible refine issued_k ?_ (fun _ _ => ?_) ?_
    | with_reducible refine Touch.ofL ?_

theorem portRead_touch (x : LX) (p : Nat) : TouchPL k_portRead x.s (portRead x p) := by
  unfold portRead
  dsimp only
  repeat' first
    | exact (Touch.refl : Touch k_portRead x.s x.s)
    | split

theorem execPortIn_touch (u : UnitNo) (d : BitVec 3) (p : BitVec 6) (s : State) : TouchX k_execPortIn s (execPortIn u d p s) := by
  unfold execPortIn
  refine issued_k (by decide) (fun x hx => ?_) Touch.refl
  dsimp only
  have h : TouchL k_execPortIn s (portRead x p.toNat).2 := Touch.then (portRead_touch x p.toNat) (by decide) hx
  split
  · refine Touch.thenL (LX_setD_touch ..) (by decide) ?_
    exact Touch.then (takeFree_touch ..) (by decide) h
  · exact Touch.thenL (LX_setD_touch ..) (by decide) h

theorem execPortOut_touch (u : UnitNo) (p : BitVec 6) (a : BitVec 3) (s : State) : TouchX k_execPortOut s (execPortOut u p a s) := by
  unfold execPortOut
  try simp -zeta -beta -eta only [mkL_eq]
  repeat' first
    | with_reducible exact Touch.refl
    | with_reducible assumption
    | decide
    | with_reducible exact okw_LANE_MBOX (by decide)
    | with_reducible exact touchL_refl
    | with_reducible refine touchX_next ?_
    | with_reducible refine ite_k ?_ ?_
    | with_reducible refine wrN_w ?_ ?_
    | with_reducible refine issued_k ?_ (fun _ _ => ?_) ?_
    | with_reducible refine Touch.ofL ?_
    | with_reducible refine touchL_mk ?_

theorem LX_post_k {m : Nat} {r : State} {x : LX} {f : State → State} (_ : k_LX_post &&& m = k_LX_post) (hf : ∀ t, Touch m r t → Touch m r (f t))
    (hx : TouchL m r x) : TouchL m r (x.post f) := by
  unfold LX.post
  split
  · exact Touch.thenL (LX_setStat_touch ..) (Nat.zero_and m) hx
  · exact Touch.thenL (LX_setStat_touch ..) (Nat.zero_and m) (hf _ hx : TouchL m r { x with s := f x.s })

theorem execPostEntry_touch (u : UnitNo) (l : BitVec 2) (s : State) : TouchX k_execPostEntry s (execPostEntry u l s) := by
  unfold execPostEntry
  repeat' first
    | with_reducible exact Touch.refl
    | with_reducible assumption
    | decide
    | with_reducible exact touchL_refl
    | with_reducible refine touchX_next ?_
    | with_reducible refine LX_post_k ?_ (fun _ _ => ?_) ?_
    | with_reducible apply Touch.then (produce_touch ..)
    | with_reducible refine issued_k ?_ (fun _ _ => ?_) ?_
    | with_reducible refine Touch.ofL ?_

theorem execPostShift_touch (u : UnitNo) (s : State) : TouchX k_execPostShift s (execPostShift u s) := by
  unfold execPostShift
  repeat' first
    | with_reducible exact Touch.refl
    | with_reducible assumption
    | decide
    | with_reducible exact touchL_refl
    | with_reducible refine touchX_next ?_
    | with_reducible apply Touch.then (shiftRequest_touch ..)
    | with_reducible refine LX_post_k ?_ (fun _ _ => ?_) ?_
    | with_reducible refine issued_k ?_ (fun _ _ => ?_) ?_
    | with_reducible refine Touch.ofL ?_
    | split

theorem execPostRelease_touch (u : UnitNo) (s : State) : TouchX k_execPostRelease s (execPostRelease u s) := by
  unfold execPostRelease
  repeat' first
    | with_reducible exact Touch.refl
    | with_reducible assumption
    | decide
    | with_reducible exact touchL_refl
    | with_reducible refine touchX_next ?_
    | with_reducible apply Touch.then (releaseLane_touch ..)
    | with_reducible refine LX_post_k ?_ (fun _ _ => ?_) ?_
    | with_reducible refine issued_k ?_ (fun _ _ => ?_) ?_
    | with_reducible refine Touch.ofL ?_

theorem laneCtrlEff_touch (u : Nat) (v : Word) (s : State) : TouchO k_laneCtrlEff s (laneCtrlEff u v s) := by
  unfold laneCtrlEff
  repeat' first
    | with_reducible exact Touch.refl
    | with_reducible assumption
    | decide
    | with_reducible exact okw_LANE_CTRL (by decide)
    | with_reducible exact touchO_none
    | with_reducible refine touchO_some ?_
    | with_reducible refine touchO_map ?_ (fun _ _ => ?_)
    | with_reducible refine touch_getD ?_ ?_
    | with_reducible refine ite_k ?_ ?_
    | with_reducible refine fput_w ?_ ?_
    | with_reducible apply Touch.then (sedRule_touch ..)
    | exact touch_ofO rfl ‹TouchO _ _ (some _)›
    | with_reducible refine touchO_map' (fun _ => ?_)
    | refine touch_ofO (by assumption) ?_

theorem execLagoonRequest_touch (w : Who) (u : UnitNo) (v : Word) (s : State) : TouchX k_execLagoonRequest s (execLagoonRequest w u v s) := by
  unfold execLagoonRequest
  repeat' first
    | with_reducible exact Touch.refl
    | with_reducible assumption
    | decide
    | with_reducible refine touchX_next ?_
    | with_reducible exact touchO_none
    | with_reducible refine touchO_some ?_
    | with_reducible refine touchO_map ?_ (fun _ _ => ?_)
    | with_reducible refine touch_getD ?_ ?_
    | with_reducible apply Touch.thenO (laneCtrlEff_touch ..)
    | with_reducible refine gated_k ?_ ?_ ?_
    | exact touch_ofO rfl ‹TouchO _ _ (some _)›
    | with_reducible refine touchO_map' (fun _ => ?_)
    | refine touch_ofO (by assumption) ?_

theorem lagoonJoin_touch (u : Nat) (s : State) : Touch k_lagoonJoin s (lagoonJoin u s) := by
  unfold lagoonJoin
  repeat' first
    | ((first | lift_lets -underBinder | skip); with_reducible intro zz; first | (refine cut_k (okw k_lagoonJoin zz) (by with_reducible first | exact okw_LANE_STATUS (by decide)) (fun _ => ?_); clear_value zz) | (refine cut_k (Touch k_lagoonJoin s zz) ?_ (fun _ => ?_); rotate_left; clear_value zz; rotate_right) | clear_value zz)
    | with_reducible exact Touch.refl
    | with_reducible assumption
    | decide
    | with_reducible exact okw_LANE_STATUS (by decide)
    | with_reducible refine fput_w ?_ ?_
    | with_reducible apply Touch.then (State_setLan_touch ..)
    | unfold zz; try dsimp -zeta only

theorem lagoonPart_touch (u : Nat) (s : State) : Touch k_lagoonPart s (lagoonPart u s) := by
  unfold lagoonPart
  repeat' first
    | ((first | lift_lets -underBinder | skip); with_reducible intro zz; first | (refine cut_k (okw k_lagoonPart zz) (by with_reducible first | exact okw_LANE_STATUS (by decide)) (fun _ => ?_); clear_value zz) | (refine cut_k (Touch k_lagoonPart s zz) ?_ (fun _ => ?_); rotate_left; clear_value zz; rotate_right) | (refine cut_k (Touch2 k_lagoonPart s zz) ?_ (fun _ => ?_); rotate_left; clear_value zz; rotate_right) | clear_value zz)
    | with_reducible exact Touch.refl
    | with_reducible assumption
    | decide
    | with_reducible exact okw_LANE_STATUS (by decide)
    | with_reducible refine ite_k ?_ ?_
    | with_reducible refine fput_w ?_ ?_
    | with_reducible apply Touch.then (State_setLan_touch ..)
    | with_reducible apply Touch.then2 (takeFree_touch ..)
    | with_reducible refine Touch.snd ?_
    | unfold zz; try dsimp -zeta only
    | split
    | with_reducible refine touch2_mk ?_
    | exact touch_of2 rfl ‹Touch2 _ _ (_, _)›
    | refine touch_of2 (by assumption) ?_

theorem lagoonAct_touch (u : Nat) (s : State) : Touch k_lagoonAct s (lagoonAct u s) := by
  unfold lagoonAct
  repeat' first
    | ((first | lift_lets -underBinder | skip); with_reducible intro zz; first | (refine cut_k (Touch k_lagoonAct s zz) ?_ (fun _ => ?_); rotate_left; clear_value zz; rotate_right) | clear_value zz)
    | with_reducible exact Touch.refl
    | with_reducible assumption
    | decide
    | with_reducible refine ite_k ?_ ?_
    | with_reducible apply Touch.then (lagoonPart_touch ..)
    | with_reducible apply Touch.then (lagoonJoin_touch ..)
    | unfold zz; try dsimp -zeta only

theorem execLagoonApply_touch (u : UnitNo) (s : State) : TouchX k_execLagoonApply s (execLagoonApply u s) := by
  unfold execLagoonApply
  repeat' first
    | with_reducible exact Touch.refl
    | with_reducible assumption
    | decide
    | with_reducible refine touchX_next ?_
    | with_reducible apply Touch.then (lagoonAct_touch ..)

theorem ltCmdEff_touch (u : Nat) (v : Word) (s : State) : TouchO k_ltCmdEff s (ltCmdEff u v s) := by
  unfold ltCmdEff
  repeat' first
    | ((first | lift_lets -underBinder | skip); with_reducible intro zz; first | (refine cut_k (Touch k_ltCmdEff s zz) ?_ (fun _ => ?_); rotate_left; clear_value zz; rotate_right) | (refine cut_k (TouchO k_ltCmdEff s zz) ?_ (fun _ => ?_); rotate_left; clear_value zz; rotate_right) | clear_value zz)
    | with_reducible exact Touch.refl
    | with_reducible assumption
    | decide
    | with_reducible exact okw_LT_STAT (by decide)
    | with_reducible exact touchO_none
    | with_reducible refine touchO_some ?_
    | with_reducible refine touchO_map ?_ (fun _ _ => ?_)
    | with_reducible refine touch_getD ?_ ?_
    | with_reducible refine ite_k ?_ ?_
    | with_reducible refine fput_w ?_ ?_
    | with_reducible apply Touch.then (State_setReady_touch ..)
    | unfold zz; try dsimp -zeta only
    | exact touch_ofO rfl ‹TouchO _ _ (some _)›
    | with_reducible refine touchO_map' (fun _ => ?_)
    | refine touch_ofO (by assumption) ?_

theorem execRearm_touch (w : Who) (u : UnitNo) (k : BitVec 3) (s : State) : TouchX k_execRearm s (execRearm w u k s) := by
  unfold execRearm
  repeat' first
    | ((first | lift_lets -underBinder | skip); with_reducible intro zz; first | (refine cut_k (Touch k_execRearm s zz) ?_ (fun _ => ?_); rotate_left; clear_value zz; rotate_right) | (refine cut_k (TouchO k_execRearm s zz) ?_ (fun _ => ?_); rotate_left; clear_value zz; rotate_right) | clear_value zz)
    | with_reducible exact Touch.refl
    | with_reducible assumption
    | decide
    | with_reducible refine touchX_next ?_
    | with_reducible exact touchO_none
    | with_reducible refine touchO_some ?_
    | with_reducible refine touchO_map ?_ (fun _ _ => ?_)
    | with_reducible refine touch_getD ?_ ?_
    | with_reducible apply Touch.thenO (ltCmdEff_touch ..)
    | with_reducible refine gated_k ?_ ?_ ?_
    | unfold zz; try dsimp -zeta only
    | exact touch_ofO rfl ‹TouchO _ _ (some _)›
    | with_reducible refine touchO_map' (fun _ => ?_)
    | refine touch_ofO (by assumption) ?_

theorem condHoldoff_touch (s : State) : Touch k_condHoldoff s (condHoldoff s) := by
  unfold condHoldoff
  repeat' first
    | ((first | lift_lets -underBinder | skip); with_reducible intro zz; first | (refine cut_k (Touch k_condHoldoff s zz) ?_ (fun _ => ?_); rotate_left; clear_value zz; rotate_right) | clear_value zz)
    | with_reducible exact Touch.refl
    | with_reducible assumption
    | decide
    | with_reducible apply Touch.then (setCond_touch ..)
    | unfold zz; try dsimp -zeta only

theorem holdoffAct_touch (u : Nat) (s : State) : Touch k_holdoffAct s (holdoffAct u s) := by
  unfold holdoffAct
  repeat' first
    | ((first | lift_lets -underBinder | skip); with_reducible intro zz; first | (refine cut_k (Touch k_holdoffAct s zz) ?_ (fun _ => ?_); rotate_left; clear_value zz; rotate_right) | clear_value zz)
    | with_reducible exact Touch.refl
    | with_reducible assumption
    | decide
    | with_reducible refine ite_k ?_ ?_
    | with_reducible apply Touch.then (State_setLan_touch ..)
    | with_reducible apply Touch.then (condHoldoff_touch ..)
    | unfold zz; try dsimp -zeta only

theorem execHoldoffMaxApply_touch (u : UnitNo) (s : State) : TouchX k_execHoldoffMaxApply s (execHoldoffMaxApply u s) := by
  unfold execHoldoffMaxApply
  repeat' first
    | with_reducible exact Touch.refl
    | with_reducible assumption
    | decide
    | with_reducible refine touchX_next ?_
    | with_reducible apply Touch.then (holdoffAct_touch ..)

theorem execLaneCapture_touch (u : UnitNo) (k : BitVec 3) (dt : Nat) (span : Nat) (s : State) : TouchX k_execLaneCapture s (execLaneCapture u k dt span s) := by
  unfold execLaneCapture
  repeat' first
    | ((first | lift_lets -underBinder | skip); with_reducible intro zz; first | (refine cut_k (Touch k_execLaneCapture s zz) ?_ (fun _ => ?_); rotate_left; clear_value zz; rotate_right) | (refine cut_k (Touch2 k_execLaneCapture s zz) ?_ (fun _ => ?_); rotate_left; clear_value zz; rotate_right) | clear_value zz)
    | with_reducible exact Touch.refl
    | with_reducible assumption
    | decide
    | with_reducible exact okw_LT_STAT (by decide)
    | with_reducible refine touchX_next ?_
    | with_reducible refine ite_k ?_ ?_
    | with_reducible refine w1cSet_w ?_ ?_ ?_
    | with_reducible apply Touch.then (State_setLan_touch ..)
    | with_reducible apply Touch.then2 (takeFree_touch ..)
    | with_reducible refine Touch.snd ?_
    | unfold zz; try dsimp -zeta only
    | split
    | with_reducible refine touch2_mk ?_
    | exact touch_of2 rfl ‹Touch2 _ _ (_, _)›
    | refine touch_of2 (by assumption) ?_

end Sys2Proof.Laws
end

