-- ==== Sys2Proof/Laws/TouchRelease.lean ====
section
/-! SUPPORT. What each operation of Machine/Release.lean can touch: one lemma per operation, by footprint (Laws/Touch.lean). -/

set_option linter.unusedTactic false
set_option linter.unreachableTactic false
set_option linter.unusedSimpArgs false
set_option linter.unusedVariables false

namespace Sys2Proof.Laws
open Sys2Proof Sys2Proof.Machine R

/-! Footprints. -/
def k_countOverrun : Nat := 0x28000000000000000000000000000000000000000000000000000000001000000000000400030000000000000000000000006000000
def k_judgeOverrun : Nat := 0x28000000000000000000000000000200300100068000000000000000000000000000000400030000000000000000000001100000000
def k_askYield : Nat := 0x2c300000000007fc138000000000000000000000000000000000000000030800000000041e43000000000c000000000010001000100
def k_releaseAxis : Nat := 0x2c300000000007fc138000000000000000000002000000000000000000130800000000041e43000000000c000000008010107800100
def k_release : Nat := 0x2c300000000007fc138000000000000000000002000000000000000000130800000000041e43000000000c000000008010107800100
def k_fbMissing : Nat := 0x80
def k_fbPresent : Nat := 0x20000000000000000000000000000000000000000000000000000000000100000080
def k_judgeMissing : Nat := 0x28000000000000000000000000000200300100068000000000000000000000000000000400030000000000000000000001100000000
def k_acceptPos : Nat := 0x80
def k_execOverrun : Nat := 0x28000000000000000000000000000200300100068000000000000000000000000000000400030000000000000000000001100000000

theorem countOverrun_touch (n : Nat) (s : State) : Touch k_countOverrun s (countOverrun n s) := by
  unfold countOverrun
  simp -zeta -beta -eta only [mk_eq]
  repeat' first
    | ((first | lift_lets -underBinder | skip); with_reducible intro zz; first | ((first | (have _q : SchSt := zz; clear _q)); dsimp -zeta only [zz]; clear zz) | (refine cut_k (Touch k_countOverrun s zz) ?_ (fun _ => ?_); rotate_left; clear_value zz; rotate_right) | clear_value zz)
    | with_reducible exact Touch.refl
    | with_reducible assumption
    | decide
    | with_reducible exact okw_SCH_STATUS (by decide)
    | with_reducible refine ite_k ?_ ?_
    | with_reducible refine w1cSet_w ?_ ?_ ?_
    | unfold zz; try dsimp -zeta only
    | with_reducible apply Touch.then (upd_schovr_schovrHere ..)

theorem judgeOverrun_touch (n : Nat) (s : State) : Touch k_judgeOverrun s (judgeOverrun n s) := by
  unfold judgeOverrun
  repeat' first
    | with_reducible exact Touch.refl
    | with_reducible assumption
    | decide
    | with_reducible refine ite_k ?_ ?_
    | with_reducible apply Touch.then (raiseCause_touch ..)

theorem askYield_touch (n : Nat) (s : State) : Touch k_askYield s (askYield n s) := by
  unfold askYield
  repeat' first
    | ((first | lift_lets -underBinder | skip); with_reducible intro zz; first | (refine cut_k (Touch k_askYield s zz) ?_ (fun _ => ?_); rotate_left; clear_value zz; rotate_right) | (refine cut_k (TouchL k_askYield s zz) ?_ (fun _ => ?_); rotate_left; clear_value zz; rotate_right) | clear_value zz)
    | with_reducible exact Touch.refl
    | with_reducible assumption
    | decide
    | with_reducible exact touchL_refl
    | with_reducible refine touchX_next ?_
    | with_reducible refine ite_k ?_ ?_
    | with_reducible apply Touch.then (State_setUnit_touch ..)
    | with_reducible apply Touch.then (State_setLan_touch ..)
    | with_reducible refine issued_k ?_ (fun _ _ => ?_) ?_
    | with_reducible refine eachN_k (fun _ _ _ => ?_) ?_
    | with_reducible refine Touch.ofL ?_
    | unfold zz; try dsimp -zeta only

theorem releaseAxis_touch (n : Nat) (rel : Nat) (s : State) : Touch k_releaseAxis s (releaseAxis n rel s) := by
  unfold releaseAxis
  simp -zeta -beta -eta only [mk_eq]
  repeat' first
    | ((first | lift_lets -underBinder | skip); with_reducible intro zz; first | ((first | (have _q : SchSt := zz; clear _q)); dsimp -zeta only [zz]; clear zz) | (refine cut_k (Touch k_releaseAxis s zz) ?_ (fun _ => ?_); rotate_left; clear_value zz; rotate_right) | clear_value zz)
    | with_reducible exact Touch.refl
    | with_reducible assumption
    | decide
    | with_reducible refine ite_k ?_ ?_
    | with_reducible apply Touch.then (State_setReady_touch ..)
    | with_reducible apply Touch.then (State_setAxn_touch ..)
    | with_reducible apply Touch.then (countOverrun_touch ..)
    | with_reducible apply Touch.then (askYield_touch ..)
    | with_reducible apply Touch.then (endCause_touch ..)
    | unfold zz; try dsimp -zeta only
    | with_reducible apply Touch.then (upd_schovr ..)
    | with_reducible apply Touch.then (upd_schovrHere ..)

theorem release_touch (n : Nat) (cyc : Nat) (t : Int) (missing : Bool) (s : State) : Touch k_release s (release n cyc t missing s) := by
  unfold release
  repeat' first
    | with_reducible exact Touch.refl
    | with_reducible assumption
    | decide
    | with_reducible apply Touch.then (State_setAxn_touch ..)
    | with_reducible apply Touch.then (releaseAxis_touch ..)

theorem fbMissing_touch (n : Nat) (s : State) : Touch k_fbMissing s (fbMissing n s) := by
  unfold fbMissing
  repeat' first
    | with_reducible exact Touch.refl
    | with_reducible assumption
    | decide
    | with_reducible apply Touch.then (State_setFb_touch ..)

theorem fbPresent_touch (n : Nat) (s : State) : Touch k_fbPresent s (fbPresent n s) := by
  unfold fbPresent
  repeat' first
    | with_reducible exact Touch.refl
    | with_reducible assumption
    | decide
    | with_reducible apply Touch.then (State_setFb_touch ..)
    | with_reducible apply Touch.then (endCause_touch ..)

theorem judgeMissing_touch (n : Nat) (s : State) : Touch k_judgeMissing s (judgeMissing n s) := by
  unfold judgeMissing
  repeat' first
    | with_reducible exact Touch.refl
    | with_reducible assumption
    | decide
    | with_reducible refine ite_k ?_ ?_
    | with_reducible apply Touch.then (raiseCause_touch ..)

theorem acceptPos_touch (n : Nat) (raw : Nat) (s : State) : Touch k_acceptPos s (acceptPos n raw s) := by
  unfold acceptPos
  repeat' first
    | ((first | lift_lets -underBinder | skip); with_reducible intro zz; first | (refine cut_k (Touch k_acceptPos s zz) ?_ (fun _ => ?_); rotate_left; clear_value zz; rotate_right) | clear_value zz)
    | with_reducible exact Touch.refl
    | with_reducible assumption
    | decide
    | with_reducible refine ite_k ?_ ?_
    | with_reducible apply Touch.then (State_setFb_touch ..)
    | unfold zz; try dsimp -zeta only

theorem execOverrun_touch (n : Axis) (s : State) : TouchX k_execOverrun s (execOverrun n s) := by
  unfold execOverrun
  repeat' first
    | with_reducible exact Touch.refl
    | with_reducible assumption
    | decide
    | with_reducible refine touchX_next ?_
    | with_reducible apply Touch.then (judgeOverrun_touch ..)

end Sys2Proof.Laws
end

