-- ==== Sys2Proof/Laws/TouchEdges.lean ====
section
/-! SUPPORT. What each operation of Machine/Edges.lean can touch: one lemma per operation, by footprint (Laws/Touch.lean). -/

set_option linter.unusedTactic false
set_option linter.unreachableTactic false
set_option linter.unusedSimpArgs false
set_option linter.unusedVariables false

namespace Sys2Proof.Laws
open Sys2Proof Sys2Proof.Machine R

/-! Footprints. -/
def k_State_setChan : Nat := 0x20000000000
def k_driveHc : Nat := 0x80000000000000000000000000000000000000000000000000000000000000000000000020000000000
def k_chanOff : Nat := 0x80000000000000000000000000000000000000000000000000000000000000000000000020000000000
def k_chanReload : Nat := 0x80000000000000000000000000000000000000000000000000000000000000000000000020000000000
def k_reload : Nat := 0x84800000000000000000000000000000000000000000000000000000000000000000000020000000000
def k_execBridgeReload : Nat := 0x84800000000000000000000000000000000000000000000000000000000000000000000020000000000
def k_execBridgeEdge : Nat := 0x84000000000000000000000000000000000000000000000000000000000000000000000020000000000
def k_execDeadTimeEnd : Nat := 0x20000000000
def k_execSyncPoint : Nat := 0x28000000000000000000000084800000000000000000000000000000000000000000000400030000000000000000000060000000000
def k_landOne : Nat := 0x30800000000000000000000000000000000000000000000000000000000000000000000080000000000
def k_landAll : Nat := 0x30800000000000000000000000000000000000000000000000000000000000000000000080000000000
def k_execShadowWriteLand : Nat := 0x30800000000000000000000000000000000000000000000000000000000000000000000080000000000
def k_shadowEff : Nat := 0x80000000000
def k_commitEff : Nat := 0x34800000000000000000000000000000000000000000000000000000000000000000000080000000000
def k_execCommit : Nat := 0x2830000000000000000000003480000000000000000000000000000000000800000000060f43000000000c000000000080000000000
def k_chEff : Nat := 0x80000000000000000000000000000000000000000000000000000000000000000000000020000000000
def k_brCtrlEff : Nat := 0xb4c000000000000000000000000000000000000000000000000000000000000000000000e0000000000
def k_landProgramme : Nat := 0xb4000000000000000000000000000000000000000000000000000000000000000000000020100000000
def k_execEdgeProgrammeLand : Nat := 0xb4000000000000000000000000000000000000000000000000000000000000000000000020100000000
def k_showFrozen : Nat := 0x4000000000000000000000000000000000000000000000000000000000000000000000100000000000
def k_forceModule : Nat := 0x84000000000000000000000000000000000000000000000000000000000000000000000020000000000
def k_execSinc3Output : Nat := 0x2000000000000000000000000000000000000000000000000000000000000000000000000000000000000000
def k_execSdFlt : Nat := 0x28000000000000000004000000000000000000000000000000000000000000000000000400030000000000000000000000000000000
def k_execSdFltEnd : Nat := 0x4000000000000000000000000000000000000000000000000000000000000000000000000000000000000000
def k_State_setEncIf : Nat := 0x400000000000
def k_encFail : Nat := 0x28000000000000000000400000000200300100068000000000000004000000000000000400030000000000000000000001100000000
def k_execEncEdge : Nat := 0x28000000000000000000400000000200300100068000000000000004000000000000000400030000000000000000000401100000000
def k_execIndexPulse : Nat := 0x28000000000000000000600000000200180100008000000000000000000000000000000400030000000000000000000001100000080
def k_encTick : Nat := 0x100000000000000000000000000000000000000000000000000000000000000000000000000400000000000
def k_execSsiFrameEnd : Nat := 0x28000000000000000000400000000200300100068000000000000004000000000000000400030000000000000000000401100000000
def k_encStatusEff : Nat := 0x400000000000000000000000000000000000000000000000000000000000000000000000000000000000000
def k_execEncFltClear : Nat := 0x2830000000000000000040000000000000000000000000000000000000000800000000060f43000000000c000000000000000000000
def k_encCtrlEff : Nat := 0x440000000000000000000000000000000000000000000000000000000000000000000000000400000000000
def k_execLocalSample : Nat := 0x2c300000000007fc138000000000000000000002000000000000000000130800000000041e43000000000c000000008010107800180
def k_localInputs : Nat := 0x80
def k_putStill : Nat := 0x100000000000000000000000000000000000000000000000000000000000000000000000800000000000
def k_stillSampleSw : Nat := 0x100000000000000000000000000000000000000000000000000000000000000000000000800000000000
def k_execStillWaterStart : Nat := 0x100000000000000000000000000000000000000000000000000000000000000000000000800000000000

theorem chanSafe_default : chanSafe {} := ⟨rfl, fun h => (nomatch h), fun h => (nomatch h)⟩

theorem get_setChan (s : State) (c k : Nat) (x : Chan) : (s.setChan c x).chan k = if k = c then x else s.chan k :=
  Tbl.get_set _ _ _ _ _

/-- A channel's pins change to a safe level. -/
theorem setChan_touch (s : State) (c : Nat) (x : Chan) (hx : pinsSafe s → chanSafe x) : Touch k_State_setChan s (s.setChan c x) where
  same p h := by cases p <;> first | rfl | exact absurd h (by decide)
  word _ _ := rfl
  canon h := h
  pins h k := by rw [get_setChan]; split; exact hx h; exact h k
  pending := rfl

theorem driveHc_touch (c : Nat) (on : Bool) (s : State) : Touch k_driveHc s (driveHc c on s) := by
  unfold driveHc
  dsimp only
  have h0 : Touch k_driveHc s (fput s (chReg c) BR_CH_HC on) := fput_w Touch.refl (okw_BR_CH (by decide))
  have hc : (fput s (chReg c) BR_CH_HC on).chan c = s.chan c := rfl
  generalize fput s (chReg c) BR_CH_HC on = t at *
  rw [← hc]
  have go : ∀ x, (pinsSafe t → chanSafe x) → Touch k_driveHc s (t.setChan c x) := fun x hx => Touch.then (setChan_touch t c x hx) (by decide) h0
  refine ite_k (go _ fun _ => ⟨by simp, by simp, by simp⟩) (ite_k (go _ fun _ => ⟨by cases on <;> rfl, by simp, by simp⟩)
    (ite_k (go _ fun _ => ⟨by simp, by simp, ?_⟩) (go _ fun _ => ⟨by simp, ?_, by simp⟩)))
  · intro h; dsimp only at h; split at h <;> cases h
  · intro h; dsimp only at h; split at h <;> cases h

theorem chanOff_touch (c : Nat) (s : State) : Touch k_chanOff s (chanOff c s) := by
  unfold chanOff
  exact fput_w (fput_w (Touch.then (setChan_touch s c _ fun _ => ⟨rfl, by simp, by simp⟩) (by decide) Touch.refl) (okw_BR_CH (by decide)))
    (okw_BR_CH (by decide))

theorem chanReload_touch (c : Nat) (s : State) : Touch k_chanReload s (chanReload c s) := by
  unfold chanReload
  repeat' first
    | ((first | lift_lets -underBinder | skip); with_reducible intro zz; first | (refine cut_k (Touch k_chanReload s zz) ?_ (fun _ => ?_); rotate_left; clear_value zz; rotate_right) | clear_value zz)
    | with_reducible exact Touch.refl
    | with_reducible assumption
    | decide
    | with_reducible exact okw_BR_CH (by decide)
    | with_reducible refine ite_k ?_ ?_
    | with_reducible refine fput_w ?_ ?_
    | with_reducible apply Touch.then (driveHc_touch ..)
    | unfold zz; try dsimp -zeta only
    | (show okw _ (BR_CH _ _); exact okw_BR_CH (by decide))
    | (show okw _ (SW_CTRL _); exact okw_SW_CTRL (by decide))

theorem reload_touch (m : Nat) (s : State) : Touch k_reload s (reload m s) := by
  unfold reload
  dsimp only
  refine eachN_k (fun n t h => Touch.then (chanReload_touch n t) (by decide) h) ?_
  refine fset_w (ite_k ?_ Touch.refl) (okw_BR_STATUS (by decide))
  refine eachN_k (fun n t h => Touch.then (setChan_touch t n _ fun hp => ?_) (by decide) h) ?_
  · exact hp n
  · exact fset_w (fput_w Touch.refl (okw_BR_STATUS (by decide))) (okw_BR_PERIOD (by decide))

theorem execBridgeReload_touch (m : BitVec 3) (s : State) : TouchX k_execBridgeReload s (execBridgeReload m s) := by
  unfold execBridgeReload
  repeat' first
    | with_reducible exact Touch.refl
    | with_reducible assumption
    | decide
    | with_reducible refine touchX_next ?_
    | with_reducible refine ite_k ?_ ?_
    | with_reducible apply Touch.then (reload_touch ..)

theorem execBridgeEdge_touch (c : BitVec 5) (rise : Bool) (s : State) : TouchX k_execBridgeEdge s (execBridgeEdge c rise s) := by
  unfold execBridgeEdge
  repeat' first
    | ((first | lift_lets -underBinder | skip); with_reducible intro zz; first | (refine cut_k (Touch k_execBridgeEdge s zz) ?_ (fun _ => ?_); rotate_left; clear_value zz; rotate_right) | clear_value zz)
    | with_reducible exact Touch.refl
    | with_reducible assumption
    | decide
    | with_reducible exact okw_BR_STATUS (by decide)
    | with_reducible refine touchX_next ?_
    | with_reducible refine ite_k ?_ ?_
    | with_reducible refine fset_w ?_ ?_
    | with_reducible apply Touch.then (driveHc_touch ..)
    | unfold zz; try dsimp -zeta only

theorem execDeadTimeEnd_touch (c : BitVec 5) (s : State) : TouchX k_execDeadTimeEnd s (execDeadTimeEnd c s) := by
  unfold execDeadTimeEnd
  dsimp only
  refine touchX_next (ite_k Touch.refl ?_)
  split
  · rename_i hd
    exact Touch.then (setChan_touch _ _ _ fun h => ⟨by simp [(h c.toNat).2.1 hd], by simp, by simp⟩) (by decide) Touch.refl
  · rename_i hd
    exact Touch.then (setChan_touch _ _ _ fun h => ⟨by simp [(h c.toNat).2.2 hd], by simp, by simp⟩) (by decide) Touch.refl
  · exact Touch.refl

theorem execSyncPoint_touch (m : BitVec 3) (count : BitVec 16) (s : State) : TouchX k_execSyncPoint s (execSyncPoint m count s) := by
  unfold execSyncPoint
  simp -zeta -beta -eta only [mk_eq]
  repeat' first
    | ((first | lift_lets -underBinder | skip); with_reducible intro zz; first | ((first | (have _q : EdgeSt := zz; clear _q)); dsimp -zeta only [zz]; clear zz) | (refine cut_k (okw k_execSyncPoint zz) (by with_reducible first | exact okw_BR_STATUS (by decide)) (fun _ => ?_); clear_value zz) | (refine cut_k (Touch k_execSyncPoint s zz) ?_ (fun _ => ?_); rotate_left; clear_value zz; rotate_right) | clear_value zz)
    | with_reducible exact Touch.refl
    | with_reducible assumption
    | decide
    | with_reducible exact okw_BR_STATUS (by decide)
    | with_reducible refine touchX_next ?_
    | with_reducible refine ite_k ?_ ?_
    | with_reducible refine w1cSet_w ?_ ?_ ?_
    | with_reducible refine fput_w ?_ ?_
    | with_reducible apply Touch.then (reload_touch ..)
    | unfold zz; try dsimp -zeta only
    | with_reducible apply Touch.then (upd_edgewait ..)

theorem landOne_touch (s : State) : Touch k_landOne s (landOne s) := by
  unfold landOne
  simp -zeta -beta -eta only [mk_eq]
  repeat' first
    | ((first | lift_lets -underBinder | skip); with_reducible intro zz; first | ((first | (have _q : EdgeSt := zz; clear _q)); dsimp -zeta only [zz]; clear zz) | (refine cut_k (Touch k_landOne s zz) ?_ (fun _ => ?_); rotate_left; clear_value zz; rotate_right) | clear_value zz)
    | with_reducible exact Touch.refl
    | with_reducible assumption
    | decide
    | with_reducible exact okw_BR_PERIOD (by decide)
    | with_reducible exact okw_BR_FALL (by decide)
    | with_reducible exact okw_BR_RISE (by decide)
    | with_reducible refine ite_k ?_ ?_
    | with_reducible refine fset_w ?_ ?_
    | with_reducible refine wr_w ?_ ?_
    | unfold zz; try dsimp -zeta only
    | split
    | with_reducible apply Touch.then (upd_edgefly ..)

theorem landAll_touch (s : State) : Touch k_landAll s (landAll s) := by
  unfold landAll
  repeat' first
    | with_reducible exact Touch.refl
    | with_reducible assumption
    | decide
    | with_reducible refine foldl_k (fun _ _ _ => ?_) ?_
    | with_reducible apply Touch.then (landOne_touch ..)

theorem execShadowWriteLand_touch (s : State) : TouchX k_execShadowWriteLand s (execShadowWriteLand s) := by
  unfold execShadowWriteLand
  repeat' first
    | with_reducible exact Touch.refl
    | with_reducible assumption
    | decide
    | with_reducible refine touchX_next ?_
    | with_reducible apply Touch.then (landOne_touch ..)

theorem shadowEff_touch (w : Who) (a : Nat) (v : Word) (s : State) : TouchO k_shadowEff s (shadowEff w a v s) := by
  unfold shadowEff
  simp -zeta -beta -eta only [mk_eq]
  repeat' first
    | ((first | lift_lets -underBinder | skip); with_reducible intro zz; first | ((first | (have _q : EdgeSt := zz; clear _q)); dsimp -zeta only [zz]; clear zz) | (refine cut_k (Touch k_shadowEff s zz) ?_ (fun _ => ?_); rotate_left; clear_value zz; rotate_right) | (refine cut_k (TouchO k_shadowEff s zz) ?_ (fun _ => ?_); rotate_left; clear_value zz; rotate_right) | clear_value zz)
    | with_reducible exact Touch.refl
    | with_reducible assumption
    | decide
    | with_reducible exact touchO_none
    | with_reducible refine touchO_some ?_
    | with_reducible refine touchO_map ?_ (fun _ _ => ?_)
    | with_reducible refine touch_getD ?_ ?_
    | with_reducible refine ite_k ?_ ?_
    | unfold zz; try dsimp -zeta only
    | exact touch_ofO rfl ‹TouchO _ _ (some _)›
    | with_reducible refine touchO_map' (fun _ => ?_)
    | refine touch_ofO (by assumption) ?_
    | with_reducible apply Touch.then (upd_edgefly ..)

theorem commitEff_touch (m : Nat) (v : Word) (s : State) : TouchO k_commitEff s (commitEff m v s) := by
  unfold commitEff
  repeat' first
    | with_reducible exact Touch.refl
    | with_reducible assumption
    | decide
    | with_reducible exact okw_BR_STATUS (by decide)
    | with_reducible exact touchO_none
    | with_reducible refine touchO_some ?_
    | with_reducible refine touchO_map ?_ (fun _ _ => ?_)
    | with_reducible refine touch_getD ?_ ?_
    | with_reducible refine ite_k ?_ ?_
    | with_reducible refine fput_w ?_ ?_
    | with_reducible apply Touch.then (landAll_touch ..)
    | exact touch_ofO rfl ‹TouchO _ _ (some _)›
    | with_reducible refine touchO_map' (fun _ => ?_)
    | refine touch_ofO (by assumption) ?_

theorem execCommit_touch (w : Who) (m : BitVec 3) (s : State) : TouchX k_execCommit s (execCommit w m s) := by
  unfold execCommit
  repeat' first
    | with_reducible exact Touch.refl
    | with_reducible assumption
    | decide
    | with_reducible refine touchX_next ?_
    | with_reducible exact touchO_none
    | with_reducible refine touchO_some ?_
    | with_reducible refine touchO_map ?_ (fun _ _ => ?_)
    | with_reducible refine touch_getD ?_ ?_
    | with_reducible apply Touch.thenO (commitEff_touch ..)
    | with_reducible refine gated_k ?_ ?_ ?_
    | exact touch_ofO rfl ‹TouchO _ _ (some _)›
    | with_reducible refine touchO_map' (fun _ => ?_)
    | refine touch_ofO (by assumption) ?_

theorem chEff_touch (c : Nat) (v : Word) (s : State) : TouchO k_chEff s (chEff c v s) := by
  unfold chEff
  repeat' first
    | with_reducible exact Touch.refl
    | with_reducible assumption
    | decide
    | with_reducible exact okw_BR_CH (by decide)
    | with_reducible exact touchO_none
    | with_reducible refine touchO_some ?_
    | with_reducible refine touchO_map ?_ (fun _ _ => ?_)
    | with_reducible refine touch_getD ?_ ?_
    | with_reducible refine ite_k ?_ ?_
    | with_reducible refine plainEff_w ?_ ?_
    | with_reducible apply Touch.then (chanOff_touch ..)
    | split
    | (show okw _ (BR_CH _ _); exact okw_BR_CH (by decide))
    | (show okw _ (SW_CTRL _); exact okw_SW_CTRL (by decide))
    | exact touch_ofO rfl ‹TouchO _ _ (some _)›
    | with_reducible refine touchO_map' (fun _ => ?_)
    | refine touch_ofO (by assumption) ?_

theorem brCtrlEff_touch (m : Nat) (v : Word) (s : State) : TouchO k_brCtrlEff s (brCtrlEff m v s) := by
  unfold brCtrlEff
  simp -zeta -beta -eta only [mk_eq]
  repeat' first
    | ((first | lift_lets -underBinder | skip); with_reducible intro zz; first | ((first | (have _q : EdgeSt := zz; clear _q)); dsimp -zeta only [zz]; clear zz) | (refine cut_k (Touch k_brCtrlEff s zz) ?_ (fun _ => ?_); rotate_left; clear_value zz; rotate_right) | (refine cut_k (TouchO k_brCtrlEff s zz) ?_ (fun _ => ?_); rotate_left; clear_value zz; rotate_right) | clear_value zz)
    | with_reducible exact Touch.refl
    | with_reducible assumption
    | decide
    | with_reducible exact okw_BR_CTRL (by decide)
    | with_reducible exact okw_BR_STATUS (by decide)
    | with_reducible exact touchO_none
    | with_reducible refine touchO_some ?_
    | with_reducible refine touchO_map ?_ (fun _ _ => ?_)
    | with_reducible refine touch_getD ?_ ?_
    | with_reducible refine ite_k ?_ ?_
    | with_reducible refine plainEff_w ?_ ?_
    | with_reducible refine fput_w ?_ ?_
    | with_reducible refine fset_w ?_ ?_
    | with_reducible apply Touch.then (landAll_touch ..)
    | with_reducible apply Touch.then (chanOff_touch ..)
    | with_reducible apply Touch.then (reload_touch ..)
    | with_reducible refine eachN_k (fun _ _ _ => ?_) ?_
    | unfold zz; try dsimp -zeta only
    | split
    | exact touch_ofO rfl ‹TouchO _ _ (some _)›
    | with_reducible refine touchO_map' (fun _ => ?_)
    | refine touch_ofO (by assumption) ?_
    | with_reducible apply Touch.then (upd_edgewait ..)

theorem landProgramme_touch (n : Nat) (s : State) : Touch k_landProgramme s (landProgramme n s) := by
  unfold landProgramme
  repeat' first
    | ((first | lift_lets -underBinder | skip); with_reducible intro zz; first | (refine cut_k (okw k_landProgramme zz) (by with_reducible first | exact okw_BR_CH (by decide) | exact okw_BR_RISE (by decide) | exact okw_BR_FALL (by decide) | exact okw_BR_STATUS (by decide)) (fun _ => ?_); clear_value zz) | (refine cut_k (Touch k_landProgramme s zz) ?_ (fun _ => ?_); rotate_left; clear_value zz; rotate_right) | clear_value zz)
    | with_reducible exact Touch.refl
    | with_reducible assumption
    | decide
    | with_reducible exact okw_BR_CH (by decide)
    | with_reducible exact okw_BR_RISE (by decide)
    | with_reducible exact okw_BR_FALL (by decide)
    | with_reducible exact okw_BR_STATUS (by decide)
    | with_reducible refine ite_k ?_ ?_
    | with_reducible refine fput_w ?_ ?_
    | with_reducible refine wrN_w ?_ ?_
    | with_reducible apply Touch.then (State_setAxl_touch ..)
    | with_reducible apply Touch.then (chanOff_touch ..)
    | with_reducible refine eachN_k (fun _ _ _ => ?_) ?_
    | unfold zz; try dsimp -zeta only
    | split
    | (show okw _ (BR_CH _ _); exact okw_BR_CH (by decide))
    | (show okw _ (SW_CTRL _); exact okw_SW_CTRL (by decide))

theorem execEdgeProgrammeLand_touch (n : Axis) (s : State) : TouchX k_execEdgeProgrammeLand s (execEdgeProgrammeLand n s) := by
  unfold execEdgeProgrammeLand
  repeat' first
    | with_reducible exact Touch.refl
    | with_reducible assumption
    | decide
    | with_reducible refine touchX_next ?_
    | with_reducible apply Touch.then (landProgramme_touch ..)

theorem showFrozen_touch (b : Bool) (s : State) : Touch k_showFrozen s (showFrozen b s) := by
  unfold showFrozen
  simp -zeta -beta -eta only [mk_eq]
  repeat' first
    | ((first | lift_lets -underBinder | skip); with_reducible intro zz; first | ((first | (have _q : EdgeSt := zz; clear _q)); dsimp -zeta only [zz]; clear zz) | (refine cut_k (Touch k_showFrozen s zz) ?_ (fun _ => ?_); rotate_left; clear_value zz; rotate_right) | clear_value zz)
    | with_reducible exact Touch.refl
    | with_reducible assumption
    | decide
    | with_reducible exact okw_BR_STATUS (by decide)
    | with_reducible refine fput_w ?_ ?_
    | with_reducible refine eachN_k (fun _ _ _ => ?_) ?_
    | with_reducible apply Touch.then (upd_edgefrozen ..)

theorem forceModule_touch (m : Nat) (b : Bool) (s : State) : Touch k_forceModule s (forceModule m b s) := by
  unfold forceModule
  repeat' first
    | ((first | lift_lets -underBinder | skip); with_reducible intro zz; first | (refine cut_k (Touch k_forceModule s zz) ?_ (fun _ => ?_); rotate_left; clear_value zz; rotate_right) | clear_value zz)
    | with_reducible exact Touch.refl
    | with_reducible assumption
    | decide
    | with_reducible exact okw_BR_STATUS (by decide)
    | with_reducible refine ite_k ?_ ?_
    | with_reducible refine fput_w ?_ ?_
    | with_reducible apply Touch.then (chanOff_touch ..)
    | with_reducible refine eachN_k (fun _ _ _ => ?_) ?_
    | unfold zz; try dsimp -zeta only

theorem execSinc3Output_touch (j : BitVec 4) (bits : List Bool) (s : State) : TouchX k_execSinc3Output s (execSinc3Output j bits s) := by
  unfold execSinc3Output
  repeat' first
    | ((first | lift_lets -underBinder | skip); with_reducible intro zz; first | (refine cut_k (Touch k_execSinc3Output s zz) ?_ (fun _ => ?_); rotate_left; clear_value zz; rotate_right) | clear_value zz)
    | with_reducible exact Touch.refl
    | with_reducible assumption
    | decide
    | with_reducible exact okw_SD_DATA (by decide)
    | with_reducible refine touchX_next ?_
    | with_reducible refine ite_k ?_ ?_
    | with_reducible refine wr_w ?_ ?_
    | unfold zz; try dsimp -zeta only

theorem execSdFlt_touch (j : BitVec 4) (s : State) : TouchX k_execSdFlt s (execSdFlt j s) := by
  unfold execSdFlt
  repeat' first
    | ((first | lift_lets -underBinder | skip); with_reducible intro zz; first | (refine cut_k (Touch k_execSdFlt s zz) ?_ (fun _ => ?_); rotate_left; clear_value zz; rotate_right) | clear_value zz)
    | with_reducible exact Touch.refl
    | with_reducible assumption
    | decide
    | with_reducible exact okw_SD_STATUS (by decide)
    | with_reducible refine touchX_next ?_
    | with_reducible refine ite_k ?_ ?_
    | with_reducible refine w1cSet_w ?_ ?_ ?_
    | with_reducible refine fput_w ?_ ?_
    | unfold zz; try dsimp -zeta only

theorem execSdFltEnd_touch (j : BitVec 4) (s : State) : TouchX k_execSdFltEnd s (execSdFltEnd j s) := by
  unfold execSdFltEnd
  repeat' first
    | with_reducible exact Touch.refl
    | with_reducible assumption
    | decide
    | with_reducible exact okw_SD_STATUS (by decide)
    | with_reducible refine touchX_next ?_
    | with_reducible refine fput_w ?_ ?_

theorem State_setEncIf_touch (s : State) (k : Nat) (e : EncSt) : Touch k_State_setEncIf s (State.setEncIf s k e) := by
  unfold State.setEncIf
  simp -zeta -beta -eta only [mk_eq]
  repeat' first
    | ((first | lift_lets -underBinder | skip); with_reducible intro zz; first | ((first | (have _q : EdgeSt := zz; clear _q)); dsimp -zeta only [zz]; clear zz) | (refine cut_k (Touch k_State_setEncIf s zz) ?_ (fun _ => ?_); rotate_left; clear_value zz; rotate_right) | clear_value zz)
    | with_reducible exact Touch.refl
    | with_reducible assumption
    | decide
    | with_reducible apply Touch.then (upd_edgeenc ..)

theorem encFail_touch (k : Nat) (f : Fld) (s : State) : Touch k_encFail s (encFail k f s) := by
  unfold encFail
  repeat' first
    | ((first | lift_lets -underBinder | skip); with_reducible intro zz; first | (refine cut_k (Touch k_encFail s zz) ?_ (fun _ => ?_); rotate_left; clear_value zz; rotate_right) | clear_value zz)
    | with_reducible exact Touch.refl
    | with_reducible assumption
    | decide
    | with_reducible exact okw_ENC_STATUS (by decide)
    | with_reducible refine w1cSet_w ?_ ?_ ?_
    | with_reducible refine fput_w ?_ ?_
    | with_reducible apply Touch.then (raiseCause_touch ..)
    | with_reducible apply Touch.then (loseSrc_touch ..)
    | with_reducible refine eachN_k (fun _ _ _ => ?_) ?_
    | unfold zz; try dsimp -zeta only

theorem execEncEdge_touch (k : BitVec 2) (a : Bool) (b : Bool) (s : State) : TouchX k_execEncEdge s (execEncEdge k a b s) := by
  unfold execEncEdge
  repeat' first
    | ((first | lift_lets -underBinder | skip); with_reducible intro zz; first | (refine cut_k (Touch k_execEncEdge s zz) ?_ (fun _ => ?_); rotate_left; clear_value zz; rotate_right) | clear_value zz)
    | with_reducible exact Touch.refl
    | with_reducible assumption
    | decide
    | with_reducible refine touchX_next ?_
    | with_reducible refine ite_k ?_ ?_
    | with_reducible apply Touch.then (State_setEncIf_touch ..)
    | with_reducible apply Touch.then (encFail_touch ..)
    | unfold zz; try dsimp -zeta only

theorem execIndexPulse_touch (k : BitVec 2) (s : State) : TouchX k_execIndexPulse s (execIndexPulse k s) := by
  unfold execIndexPulse
  repeat' first
    | ((first | lift_lets -underBinder | skip); with_reducible intro zz; first | (refine cut_k (Touch k_execIndexPulse s zz) ?_ (fun _ => ?_); rotate_left; clear_value zz; rotate_right) | clear_value zz)
    | with_reducible exact Touch.refl
    | with_reducible assumption
    | decide
    | with_reducible exact okw_ENC_STATUS (by decide)
    | with_reducible exact okw_ENC_INDEX (by decide)
    | with_reducible refine touchX_next ?_
    | with_reducible refine ite_k ?_ ?_
    | with_reducible refine w1cSet_w ?_ ?_ ?_
    | with_reducible refine wrN_w ?_ ?_
    | with_reducible apply Touch.then (homeIndex_touch ..)
    | with_reducible refine eachN_k (fun _ _ _ => ?_) ?_
    | unfold zz; try dsimp -zeta only

theorem encTick_touch (s : State) : Touch k_encTick s (encTick s) := by
  unfold encTick
  repeat' first
    | ((first | lift_lets -underBinder | skip); with_reducible intro zz; first | (refine cut_k (Touch k_encTick s zz) ?_ (fun _ => ?_); rotate_left; clear_value zz; rotate_right) | clear_value zz)
    | with_reducible exact Touch.refl
    | with_reducible assumption
    | decide
    | with_reducible exact okw_ENC_COUNT (by decide)
    | with_reducible refine ite_k ?_ ?_
    | with_reducible refine wrN_w ?_ ?_
    | with_reducible apply Touch.then (State_setEncIf_touch ..)
    | with_reducible refine eachN_k (fun _ _ _ => ?_) ?_
    | unfold zz; try dsimp -zeta only

theorem execSsiFrameEnd_touch (k : BitVec 2) (data : BitVec 40) (err : Bool) (low : Bool) (s : State) : TouchX k_execSsiFrameEnd s (execSsiFrameEnd k data err low s) := by
  unfold execSsiFrameEnd
  repeat' first
    | ((first | lift_lets -underBinder | skip); with_reducible intro zz; first | (refine cut_k (okw k_execSsiFrameEnd zz) (by with_reducible first | exact okw_ENC_STATUS (by decide)) (fun _ => ?_); clear_value zz) | (refine cut_k (Touch k_execSsiFrameEnd s zz) ?_ (fun _ => ?_); rotate_left; clear_value zz; rotate_right) | clear_value zz)
    | with_reducible exact Touch.refl
    | with_reducible assumption
    | decide
    | with_reducible exact okw_ENC_STATUS (by decide)
    | with_reducible refine touchX_next ?_
    | with_reducible refine ite_k ?_ ?_
    | with_reducible refine fput_w ?_ ?_
    | with_reducible apply Touch.then (State_setEncIf_touch ..)
    | with_reducible apply Touch.then (encFail_touch ..)
    | unfold zz; try dsimp -zeta only
    | split

theorem encStatusEff_touch (k : Nat) (v : Word) (s : State) : TouchO k_encStatusEff s (encStatusEff k v s) := by
  unfold encStatusEff
  repeat' first
    | ((first | lift_lets -underBinder | skip); with_reducible intro zz; first | (refine cut_k (okw k_encStatusEff zz) (by with_reducible first | exact okw_ENC_STATUS (by decide)) (fun _ => ?_); clear_value zz) | (refine cut_k (Touch k_encStatusEff s zz) ?_ (fun _ => ?_); rotate_left; clear_value zz; rotate_right) | (refine cut_k (TouchO k_encStatusEff s zz) ?_ (fun _ => ?_); rotate_left; clear_value zz; rotate_right) | clear_value zz)
    | with_reducible exact Touch.refl
    | with_reducible assumption
    | decide
    | with_reducible exact okw_ENC_STATUS (by decide)
    | with_reducible exact touchO_none
    | with_reducible refine touchO_some ?_
    | with_reducible refine touchO_map ?_ (fun _ _ => ?_)
    | with_reducible refine touch_getD ?_ ?_
    | with_reducible refine ite_k ?_ ?_
    | with_reducible refine fput_w ?_ ?_
    | with_reducible refine wr_w ?_ ?_
    | unfold zz; try dsimp -zeta only
    | exact touch_ofO rfl ‹TouchO _ _ (some _)›
    | with_reducible refine touchO_map' (fun _ => ?_)
    | refine touch_ofO (by assumption) ?_

theorem execEncFltClear_touch (w : Who) (k : BitVec 2) (s : State) : TouchX k_execEncFltClear s (execEncFltClear w k s) := by
  unfold execEncFltClear
  repeat' first
    | with_reducible exact Touch.refl
    | with_reducible assumption
    | decide
    | with_reducible refine touchX_next ?_
    | with_reducible exact touchO_none
    | with_reducible refine touchO_some ?_
    | with_reducible refine touchO_map ?_ (fun _ _ => ?_)
    | with_reducible refine touch_getD ?_ ?_
    | with_reducible apply Touch.thenO (encStatusEff_touch ..)
    | with_reducible refine gated_k ?_ ?_ ?_
    | exact touch_ofO rfl ‹TouchO _ _ (some _)›
    | with_reducible refine touchO_map' (fun _ => ?_)
    | refine touch_ofO (by assumption) ?_

theorem encCtrlEff_touch (k : Nat) (v : Word) (s : State) : TouchO k_encCtrlEff s (encCtrlEff k v s) := by
  unfold encCtrlEff
  repeat' first
    | ((first | lift_lets -underBinder | skip); with_reducible intro zz; first | (refine cut_k (Touch k_encCtrlEff s zz) ?_ (fun _ => ?_); rotate_left; clear_value zz; rotate_right) | (refine cut_k (TouchO k_encCtrlEff s zz) ?_ (fun _ => ?_); rotate_left; clear_value zz; rotate_right) | clear_value zz)
    | with_reducible exact Touch.refl
    | with_reducible assumption
    | decide
    | with_reducible exact okw_ENC_CTRL (by decide)
    | with_reducible exact okw_ENC_STATUS (by decide)
    | with_reducible exact touchO_none
    | with_reducible refine touchO_some ?_
    | with_reducible refine touchO_map ?_ (fun _ _ => ?_)
    | with_reducible refine touch_getD ?_ ?_
    | with_reducible refine ite_k ?_ ?_
    | with_reducible refine plainEff_w ?_ ?_
    | with_reducible refine fput_w ?_ ?_
    | with_reducible apply Touch.then (State_setEncIf_touch ..)
    | unfold zz; try dsimp -zeta only
    | split
    | exact touch_ofO rfl ‹TouchO _ _ (some _)›
    | with_reducible refine touchO_map' (fun _ => ?_)
    | refine touch_ofO (by assumption) ?_

theorem execLocalSample_touch (n : Axis) (ia : List Bool) (ib : List Bool) (vb : List Bool) (ns : Nat) (s : State) : TouchX k_execLocalSample s (execLocalSample n ia ib vb ns s) := by
  unfold execLocalSample
  repeat' first
    | ((first | lift_lets -underBinder | skip); with_reducible intro zz; first | (refine cut_k (Touch k_execLocalSample s zz) ?_ (fun _ => ?_); rotate_left; clear_value zz; rotate_right) | clear_value zz)
    | with_reducible exact Touch.refl
    | with_reducible assumption
    | decide
    | with_reducible refine touchX_next ?_
    | with_reducible refine ite_k ?_ ?_
    | with_reducible apply Touch.then (State_setFb_touch ..)
    | with_reducible apply Touch.then (fbMissing_touch ..)
    | with_reducible apply Touch.then (acceptPos_touch ..)
    | with_reducible apply Touch.then (fbPresent_touch ..)
    | with_reducible apply Touch.then (release_touch ..)
    | unfold zz; try dsimp -zeta only
    | split

theorem localInputs_touch (n : Nat) (s : State) : Touch k_localInputs s (localInputs n s) := by
  unfold localInputs
  repeat' first
    | ((first | lift_lets -underBinder | skip); with_reducible intro zz; first | (refine cut_k (Touch k_localInputs s zz) ?_ (fun _ => ?_); rotate_left; clear_value zz; rotate_right) | clear_value zz)
    | with_reducible exact Touch.refl
    | with_reducible assumption
    | decide
    | with_reducible apply Touch.then (State_setFb_touch ..)
    | with_reducible apply Touch.then (acceptPos_touch ..)
    | unfold zz; try dsimp -zeta only
    | split

theorem putStill_touch (n : Nat) (x : Still) (s : State) : Touch k_putStill s (putStill n x s) := by
  unfold putStill
  simp -zeta -beta -eta only [mk_eq]
  repeat' first
    | ((first | lift_lets -underBinder | skip); with_reducible intro zz; first | ((first | (have _q : EdgeSt := zz; clear _q)); dsimp -zeta only [zz]; clear zz) | (refine cut_k (Touch k_putStill s zz) ?_ (fun _ => ?_); rotate_left; clear_value zz; rotate_right) | clear_value zz)
    | with_reducible exact Touch.refl
    | with_reducible assumption
    | decide
    | with_reducible exact okw_SW_CTRL (by decide)
    | with_reducible refine fput_w ?_ ?_
    | (show okw _ (BR_CH _ _); exact okw_BR_CH (by decide))
    | (show okw _ (SW_CTRL _); exact okw_SW_CTRL (by decide))
    | with_reducible apply Touch.then (upd_edgestill ..)

theorem stillSampleSw_touch (n : Nat) (vSet : Int) (aSet : Int) (s : State) : Touch k_stillSampleSw s (stillSampleSw n vSet aSet s) := by
  unfold stillSampleSw
  repeat' first
    | ((first | lift_lets -underBinder | skip); with_reducible intro zz; first | (refine cut_k (Touch k_stillSampleSw s zz) ?_ (fun _ => ?_); rotate_left; clear_value zz; rotate_right) | clear_value zz)
    | with_reducible exact Touch.refl
    | with_reducible assumption
    | decide
    | with_reducible refine ite_k ?_ ?_
    | with_reducible apply Touch.then (putStill_touch ..)
    | unfold zz; try dsimp -zeta only

theorem execStillWaterStart_touch (n : Axis) (s : State) : TouchX k_execStillWaterStart s (execStillWaterStart n s) := by
  unfold execStillWaterStart
  repeat' first
    | ((first | lift_lets -underBinder | skip); with_reducible intro zz; first | (refine cut_k (Touch k_execStillWaterStart s zz) ?_ (fun _ => ?_); rotate_left; clear_value zz; rotate_right) | clear_value zz)
    | with_reducible exact Touch.refl
    | with_reducible assumption
    | decide
    | with_reducible refine touchX_next ?_
    | with_reducible refine ite_k ?_ ?_
    | with_reducible apply Touch.then (putStill_touch ..)
    | unfold zz; try dsimp -zeta only

end Sys2Proof.Laws
end

