-- ==== Sys2Proof/Laws/TouchTimedOut.lean ====
section
/-! SUPPORT. What each operation of Machine/TimedOut.lean can touch: one lemma per operation, by footprint (Laws/Touch.lean). -/

set_option linter.unusedTactic false
set_option linter.unreachableTactic false
set_option linter.unusedSimpArgs false
set_option linter.unusedVariables false

namespace Sys2Proof.Laws
open Sys2Proof Sys2Proof.Machine R

/-! Footprints. -/
def k_State_setTout : Nat := 0x200000000000
def k_putEdge : Nat := 0x28000000000000000000002000000000000000000000000000000000001000000000000400030000000000000000000200000680000
def k_insertNext : Nat := 0x28000000000000000000002000000000000000000000000000000000001000000000000400030000000000000000000200000680000
def k_cancelEdge : Nat := 0x200000480000
def k_toTick : Nat := 0x28000000000000000000002000000000000000000000000000000000001000000000000400030000000000000000000200000680000
def k_startEdges : Nat := 0x28000000000000000000002000000000000000000000000000000000001000000000000400030000000000000000000200000680000
def k_stopEdges : Nat := 0x2000000000000000000000000000000000000000000000000000000000000000000000000200000480000
def k_toCfgEff : Nat := 0x28000000000000000000002200000000000000000000000000000000001000000000000400030000000000000000000200000680000
def k_toInstall : Nat := 0x28000000000000000000002000000000000000000000000000000000001000000000000400030000000000000000000200000680000
def k_toCmdEff : Nat := 0x28000000000000000000002000000000000000000000000000000000001000000000000400030000000000000000000200000680000
def k_execToApply : Nat := 0x2830000000000000000000200000000000000000000000000000000000100800000000060f43000000000c000000000200000680000
def k_toAction : Nat := 0x28000000000000000000002000000000000000000000000000000000001000000000000400030000000000000000000200000680000
def k_forceOut : Nat := 0x2000000000000000000000000000000000000000000000000000000000000000000000000000000000000
def k_holdOff : Nat := 0x2080000000000000000000000000000000000000000000000000000000000000000000000020000000000
def k_stopLead : Nat := 0x20000000002080000000000000000000000000000000000000000000000000000000000000000000000020000000000
def k_execDebugHalt : Nat := 0x20000000002084000000000000000000000000000000001000000000000000000000000000000000000120000000000
def k_execDebugResume : Nat := 0x2084000000000000000000000000000000000000000000000000000000000000000000000120000000000
def k_stepSample : Nat := 0x28000000000000000000002000000000000000000000000000000000001000000000000400030000000000000000000200000680000
def k_stepAction : Nat := 0x2000000000000000000000000000000000000000000000000000000000000000000000000200000000000
def k_entAction : Nat := 0x12c300000000007fc138000200030f80000010002400000000000000000130800000000041e43000000000c000000008215307e80180
def k_runPlaced : Nat := 0x12c300000000007fc138000200030f80000010002400000000000000000130800000000041e43000000000c000000008215307e80180
def k_execToEdge : Nat := 0x12c300000000007fc138000200030f80000010002400000000000000000130800000000041e43000000000c000000008215307e80180
def k_execStepPulse : Nat := 0x12c300000000007fc138000200030f80000010002400000000000000000130800000000041e43000000000c000000008215307e80180
def k_computeCycle : Nat := 0x12c300000000007fc138000200030fa0038010002c00000000000000000130800000000041e43000000000c00000000821f307e80180
def k_execSetpointCompute : Nat := 0x12c300000000007fc138000200030fa0038010002c00000000000000000130800000000041e43000000000c00000000821f307e80180

theorem State_setTout_touch (s : State) (k : Nat) (x : TOut) : Touch k_State_setTout s (State.setTout s k x) := by
  unfold State.setTout
  simp -zeta -beta -eta only [mk_eq]
  repeat' first
    | ((first | lift_lets -underBinder | skip); with_reducible intro zz; first | ((first | (have _q : EdgeSt := zz; clear _q)); dsimp -zeta only [zz]; clear zz) | (refine cut_k (Touch k_State_setTout s zz) ?_ (fun _ => ?_); rotate_left; clear_value zz; rotate_right) | clear_value zz)
    | with_reducible exact Touch.refl
    | with_reducible assumption
    | decide
    | with_reducible apply Touch.then (upd_edgeout ..)

theorem putEdge_touch (k : Nat) (on : Bool) (raw : Nat) (s : State) : Touch k_putEdge s (putEdge k on raw s) := by
  unfold putEdge
  repeat' first
    | ((first | lift_lets -underBinder | skip); with_reducible intro zz; first | (refine cut_k (Touch k_putEdge s zz) ?_ (fun _ => ?_); rotate_left; clear_value zz; rotate_right) | clear_value zz)
    | with_reducible exact Touch.refl
    | with_reducible assumption
    | decide
    | with_reducible apply Touch.then (State_setTout_touch ..)
    | with_reducible apply Touch.then (produce_touch ..)
    | unfold zz; try dsimp -zeta only

theorem insertNext_touch (k : Nat) (on : Bool) (after : Nat) (s : State) : Touch k_insertNext s (insertNext k on after s) := by
  unfold insertNext
  repeat' first
    | with_reducible exact Touch.refl
    | with_reducible assumption
    | decide
    | with_reducible apply Touch.then (State_setTout_touch ..)
    | with_reducible apply Touch.then (putEdge_touch ..)
    | split

theorem cancelEdge_touch (k : Nat) (on : Bool) (s : State) : Touch k_cancelEdge s (cancelEdge k on s) := by
  unfold cancelEdge
  simp -zeta -beta -eta only [mk_eq]
  repeat' first
    | ((first | lift_lets -underBinder | skip); with_reducible intro zz; first | ((first | (have _q : SchSt := zz; clear _q)); dsimp -zeta only [zz]; clear zz) | (refine cut_k (Touch k_cancelEdge s zz) ?_ (fun _ => ?_); rotate_left; clear_value zz; rotate_right) | clear_value zz)
    | with_reducible exact Touch.refl
    | with_reducible assumption
    | decide
    | with_reducible apply Touch.then (State_setTout_touch ..)
    | with_reducible apply Touch.then (State_setDl_touch ..)
    | unfold zz; try dsimp -zeta only
    | split
    | with_reducible apply Touch.then (upd_schheld ..)

theorem toTick_touch (s : State) : Touch k_toTick s (toTick s) := by
  unfold toTick
  repeat' first
    | ((first | lift_lets -underBinder | skip); with_reducible intro zz; first | (refine cut_k (Touch k_toTick s zz) ?_ (fun _ => ?_); rotate_left; clear_value zz; rotate_right) | (refine cut_k (∀ t, Touch k_toTick s t → Touch k_toTick s (zz t)) (fun _ _ => ?_) (fun _ => ?_); rotate_left; clear_value zz; rotate_right) | (refine cut_k (∀ a t, Touch k_toTick s t → Touch k_toTick s (zz a t)) (fun _ _ _ => ?_) (fun _ => ?_); rotate_left; clear_value zz; rotate_right) | (refine cut_k (∀ a b t, Touch k_toTick s t → Touch k_toTick s (zz a b t)) (fun _ _ _ _ => ?_) (fun _ => ?_); rotate_left; clear_value zz; rotate_right) | (refine cut_k (∀ a b c d t, Touch k_toTick s t → Touch k_toTick s (zz a b c d t)) (fun _ _ _ _ _ _ => ?_) (fun _ => ?_); rotate_left; clear_value zz; rotate_right) | clear_value zz)
    | with_reducible exact Touch.refl
    | with_reducible assumption
    | decide
    | with_reducible exact okw_TO_STATUS (by decide)
    | with_reducible refine ite_k ?_ ?_
    | with_reducible refine fput_w ?_ ?_
    | with_reducible apply Touch.then (State_setTout_touch ..)
    | with_reducible apply Touch.then (cancelEdge_touch ..)
    | with_reducible apply Touch.then (putEdge_touch ..)
    | with_reducible refine eachN_k (fun _ _ _ => ?_) ?_
    | unfold zz; try dsimp -zeta only
    | split
    | with_reducible apply_assumption

theorem startEdges_touch (k : Nat) (s : State) : Touch k_startEdges s (startEdges k s) := by
  unfold startEdges
  repeat' first
    | with_reducible exact Touch.refl
    | with_reducible assumption
    | decide
    | with_reducible apply Touch.then (insertNext_touch ..)

theorem stopEdges_touch (k : Nat) (s : State) : Touch k_stopEdges s (stopEdges k s) := by
  unfold stopEdges
  repeat' first
    | ((first | lift_lets -underBinder | skip); with_reducible intro zz; first | (refine cut_k (Touch k_stopEdges s zz) ?_ (fun _ => ?_); rotate_left; clear_value zz; rotate_right) | clear_value zz)
    | with_reducible exact Touch.refl
    | with_reducible assumption
    | decide
    | with_reducible exact okw_TO_STATUS (by decide)
    | with_reducible refine fput_w ?_ ?_
    | with_reducible apply Touch.then (State_setTout_touch ..)
    | with_reducible apply Touch.then (cancelEdge_touch ..)
    | unfold zz; try dsimp -zeta only

theorem toCfgEff_touch (k : Nat) (v : Word) (s : State) : TouchO k_toCfgEff s (toCfgEff k v s) := by
  unfold toCfgEff
  repeat' first
    | ((first | lift_lets -underBinder | skip); with_reducible intro zz; first | (refine cut_k (okw k_toCfgEff zz) (by with_reducible first | exact okw_TO_CFG (by decide)) (fun _ => ?_); clear_value zz) | (refine cut_k (Touch k_toCfgEff s zz) ?_ (fun _ => ?_); rotate_left; clear_value zz; rotate_right) | (refine cut_k (TouchO k_toCfgEff s zz) ?_ (fun _ => ?_); rotate_left; clear_value zz; rotate_right) | clear_value zz)
    | with_reducible exact Touch.refl
    | with_reducible assumption
    | decide
    | with_reducible exact okw_TO_CFG (by decide)
    | with_reducible exact touchO_none
    | with_reducible refine touchO_some ?_
    | with_reducible refine touchO_map ?_ (fun _ _ => ?_)
    | with_reducible refine touch_getD ?_ ?_
    | with_reducible refine ite_k ?_ ?_
    | with_reducible refine plainEff_w ?_ ?_
    | with_reducible apply Touch.then (startEdges_touch ..)
    | with_reducible apply Touch.then (stopEdges_touch ..)
    | unfold zz; try dsimp -zeta only
    | split
    | exact touch_ofO rfl ‹TouchO _ _ (some _)›
    | with_reducible refine touchO_map' (fun _ => ?_)
    | refine touch_ofO (by assumption) ?_

theorem toInstall_touch (k : Nat) (s : State) : Touch k_toInstall s (toInstall k s) := by
  unfold toInstall
  repeat' first
    | ((first | lift_lets -underBinder | skip); with_reducible intro zz; first | (refine cut_k (Touch k_toInstall s zz) ?_ (fun _ => ?_); rotate_left; clear_value zz; rotate_right) | clear_value zz)
    | with_reducible exact Touch.refl
    | with_reducible assumption
    | decide
    | with_reducible refine ite_k ?_ ?_
    | with_reducible apply Touch.then (State_setTout_touch ..)
    | with_reducible apply Touch.then (startEdges_touch ..)
    | unfold zz; try dsimp -zeta only

theorem toCmdEff_touch (k : Nat) (v : Word) (s : State) : TouchO k_toCmdEff s (toCmdEff k v s) := by
  unfold toCmdEff
  repeat' first
    | ((first | lift_lets -underBinder | skip); with_reducible intro zz; first | (refine cut_k (Touch k_toCmdEff s zz) ?_ (fun _ => ?_); rotate_left; clear_value zz; rotate_right) | (refine cut_k (TouchO k_toCmdEff s zz) ?_ (fun _ => ?_); rotate_left; clear_value zz; rotate_right) | (refine cut_k (∀ t, Touch k_toCmdEff s t → Touch k_toCmdEff s (zz t)) (fun _ _ => ?_) (fun _ => ?_); rotate_left; clear_value zz; rotate_right) | (refine cut_k (∀ a t, Touch k_toCmdEff s t → Touch k_toCmdEff s (zz a t)) (fun _ _ _ => ?_) (fun _ => ?_); rotate_left; clear_value zz; rotate_right) | (refine cut_k (∀ a b t, Touch k_toCmdEff s t → Touch k_toCmdEff s (zz a b t)) (fun _ _ _ _ => ?_) (fun _ => ?_); rotate_left; clear_value zz; rotate_right) | (refine cut_k (∀ a b c d t, Touch k_toCmdEff s t → Touch k_toCmdEff s (zz a b c d t)) (fun _ _ _ _ _ _ => ?_) (fun _ => ?_); rotate_left; clear_value zz; rotate_right) | clear_value zz)
    | with_reducible exact Touch.refl
    | with_reducible assumption
    | decide
    | with_reducible exact okw_TO_STATUS (by decide)
    | with_reducible exact touchO_none
    | with_reducible refine touchO_some ?_
    | with_reducible refine touchO_map ?_ (fun _ _ => ?_)
    | with_reducible refine touch_getD ?_ ?_
    | with_reducible refine ite_k ?_ ?_
    | with_reducible refine w1cSet_w ?_ ?_ ?_
    | with_reducible refine fput_w ?_ ?_
    | with_reducible apply Touch.then (State_setTout_touch ..)
    | with_reducible apply Touch.then (cancelEdge_touch ..)
    | with_reducible apply Touch.then (insertNext_touch ..)
    | unfold zz; try dsimp -zeta only
    | split
    | with_reducible apply_assumption
    | exact touch_ofO rfl ‹TouchO _ _ (some _)›
    | with_reducible refine touchO_map' (fun _ => ?_)
    | refine touch_ofO (by assumption) ?_

theorem execToApply_touch (w : Who) (k : BitVec 5) (s : State) : TouchX k_execToApply s (execToApply w k s) := by
  unfold execToApply
  repeat' first
    | with_reducible exact Touch.refl
    | with_reducible assumption
    | decide
    | with_reducible refine touchX_next ?_
    | with_reducible exact touchO_none
    | with_reducible refine touchO_some ?_
    | with_reducible refine touchO_map ?_ (fun _ _ => ?_)
    | with_reducible refine touch_getD ?_ ?_
    | with_reducible apply Touch.thenO (toCmdEff_touch ..)
    | with_reducible refine gated_k ?_ ?_ ?_
    | exact touch_ofO rfl ‹TouchO _ _ (some _)›
    | with_reducible refine touchO_map' (fun _ => ?_)
    | refine touch_ofO (by assumption) ?_

theorem toAction_touch (e : DEnt) (ofs : Nat) (s : State) : Touch k_toAction s (toAction e ofs s) := by
  unfold toAction
  repeat' first
    | ((first | lift_lets -underBinder | skip); with_reducible intro zz; first | (refine cut_k (Touch k_toAction s zz) ?_ (fun _ => ?_); rotate_left; clear_value zz; rotate_right) | (refine cut_k (Touch2 k_toAction s zz) ?_ (fun _ => ?_); rotate_left; clear_value zz; rotate_right) | (refine cut_k (∀ t, Touch k_toAction s t → Touch k_toAction s (zz t)) (fun _ _ => ?_) (fun _ => ?_); rotate_left; clear_value zz; rotate_right) | (refine cut_k (∀ a t, Touch k_toAction s t → Touch k_toAction s (zz a t)) (fun _ _ _ => ?_) (fun _ => ?_); rotate_left; clear_value zz; rotate_right) | (refine cut_k (∀ a b t, Touch k_toAction s t → Touch k_toAction s (zz a b t)) (fun _ _ _ _ => ?_) (fun _ => ?_); rotate_left; clear_value zz; rotate_right) | (refine cut_k (∀ a b c d t, Touch k_toAction s t → Touch k_toAction s (zz a b c d t)) (fun _ _ _ _ _ _ => ?_) (fun _ => ?_); rotate_left; clear_value zz; rotate_right) | clear_value zz)
    | with_reducible exact Touch.refl
    | with_reducible assumption
    | decide
    | with_reducible refine ite_k ?_ ?_
    | with_reducible apply Touch.then (State_setTout_touch ..)
    | with_reducible apply Touch.then2 (takeFreeBool_touch ..)
    | with_reducible apply Touch.then (insertNext_touch ..)
    | with_reducible refine Touch.snd ?_
    | unfold zz; try dsimp -zeta only
    | split
    | with_reducible apply_assumption
    | with_reducible refine touch2_mk ?_
    | exact touch_of2 rfl ‹Touch2 _ _ (_, _)›
    | refine touch_of2 (by assumption) ?_

theorem forceOut_touch (k : Nat) (b : Bool) (s : State) : Touch k_forceOut s (forceOut k b s) := by
  unfold forceOut
  repeat' first
    | ((first | lift_lets -underBinder | skip); with_reducible intro zz; first | (refine cut_k (Touch k_forceOut s zz) ?_ (fun _ => ?_); rotate_left; clear_value zz; rotate_right) | clear_value zz)
    | with_reducible exact Touch.refl
    | with_reducible assumption
    | decide
    | with_reducible exact okw_TO_STATUS (by decide)
    | with_reducible refine ite_k ?_ ?_
    | with_reducible refine fput_w ?_ ?_
    | unfold zz; try dsimp -zeta only

theorem holdOff_touch (s : State) : Touch k_holdOff s (holdOff s) := by
  unfold holdOff
  repeat' first
    | ((first | lift_lets -underBinder | skip); with_reducible intro zz; first | (refine cut_k (Touch k_holdOff s zz) ?_ (fun _ => ?_); rotate_left; clear_value zz; rotate_right) | clear_value zz)
    | with_reducible exact Touch.refl
    | with_reducible assumption
    | decide
    | with_reducible exact okw_TO_STATUS (by decide)
    | with_reducible refine fput_w ?_ ?_
    | with_reducible apply Touch.then (chanOff_touch ..)
    | with_reducible refine eachN_k (fun _ _ _ => ?_) ?_
    | unfold zz; try dsimp -zeta only

theorem stopLead_touch (s : State) : Touch k_stopLead s (stopLead s) := by
  unfold stopLead
  repeat' first
    | ((first | lift_lets -underBinder | skip); with_reducible intro zz; first | (refine cut_k (Touch k_stopLead s zz) ?_ (fun _ => ?_); rotate_left; clear_value zz; rotate_right) | clear_value zz)
    | with_reducible exact Touch.refl
    | with_reducible assumption
    | decide
    | with_reducible exact okw_PAIR_STATUS (by decide)
    | with_reducible refine ite_k ?_ ?_
    | with_reducible refine fput_w ?_ ?_
    | with_reducible apply Touch.then (holdOff_touch ..)
    | unfold zz; try dsimp -zeta only

theorem execDebugHalt_touch (s : State) : TouchX k_execDebugHalt s (execDebugHalt s) := by
  unfold execDebugHalt
  repeat' first
    | with_reducible exact Touch.refl
    | with_reducible assumption
    | decide
    | with_reducible refine touchX_next ?_
    | with_reducible apply Touch.then (showFrozen_touch ..)
    | with_reducible apply Touch.then (stopLead_touch ..)
    | with_reducible apply Touch.then (setCond_touch ..)

theorem execDebugResume_touch (s : State) : TouchX k_execDebugResume s (execDebugResume s) := by
  unfold execDebugResume
  repeat' first
    | ((first | lift_lets -underBinder | skip); with_reducible intro zz; first | (refine cut_k (Touch k_execDebugResume s zz) ?_ (fun _ => ?_); rotate_left; clear_value zz; rotate_right) | clear_value zz)
    | with_reducible exact Touch.refl
    | with_reducible assumption
    | decide
    | with_reducible refine touchX_next ?_
    | with_reducible refine ite_k ?_ ?_
    | with_reducible apply Touch.then (showFrozen_touch ..)
    | with_reducible apply Touch.then (holdOff_touch ..)
    | unfold zz; try dsimp -zeta only

theorem stepSample_touch (k : Nat) (s : State) : Touch k_stepSample s (stepSample k s) := by
  unfold stepSample
  repeat' first
    | ((first | lift_lets -underBinder | skip); with_reducible intro zz; first | (refine cut_k (okw k_stepSample zz) (by with_reducible first | exact okw_TO_STATUS (by decide)) (fun _ => ?_); clear_value zz) | (refine cut_k (Touch k_stepSample s zz) ?_ (fun _ => ?_); rotate_left; clear_value zz; rotate_right) | clear_value zz)
    | with_reducible exact Touch.refl
    | with_reducible assumption
    | decide
    | with_reducible exact okw_TO_STATUS (by decide)
    | with_reducible refine ite_k ?_ ?_
    | with_reducible refine w1cSet_w ?_ ?_ ?_
    | with_reducible apply Touch.then (State_setTout_touch ..)
    | with_reducible apply Touch.then (produce_touch ..)
    | unfold zz; try dsimp -zeta only
    | split

theorem stepAction_touch (e : DEnt) (ofs : Nat) (s : State) : Touch k_stepAction s (stepAction e ofs s) := by
  unfold stepAction
  repeat' first
    | ((first | lift_lets -underBinder | skip); with_reducible intro zz; first | (refine cut_k (Touch k_stepAction s zz) ?_ (fun _ => ?_); rotate_left; clear_value zz; rotate_right) | clear_value zz)
    | with_reducible exact Touch.refl
    | with_reducible assumption
    | decide
    | with_reducible exact okw_TO_STATUS (by decide)
    | with_reducible refine fput_w ?_ ?_
    | with_reducible apply Touch.then (State_setTout_touch ..)
    | unfold zz; try dsimp -zeta only

theorem entAction_touch (e : DEnt) (ofs : Nat) (rel : Nat) (s : State) : TouchO k_entAction s (entAction e ofs rel s) := by
  unfold entAction
  repeat' first
    | ((first | lift_lets -underBinder | skip); with_reducible intro zz; first | (refine cut_k (Touch k_entAction s zz) ?_ (fun _ => ?_); rotate_left; clear_value zz; rotate_right) | (refine cut_k (TouchO k_entAction s zz) ?_ (fun _ => ?_); rotate_left; clear_value zz; rotate_right) | clear_value zz)
    | with_reducible exact Touch.refl
    | with_reducible assumption
    | decide
    | with_reducible exact touchO_none
    | with_reducible refine touchO_some ?_
    | with_reducible refine touchO_map ?_ (fun _ _ => ?_)
    | with_reducible refine touch_getD ?_ ?_
    | with_reducible refine ite_k ?_ ?_
    | with_reducible apply Touch.then (releaseLane_touch ..)
    | with_reducible apply Touch.then (localInputs_touch ..)
    | with_reducible apply Touch.then (stepAction_touch ..)
    | with_reducible apply Touch.then (sendEvent_touch ..)
    | with_reducible apply Touch.then (coTrigger_touch ..)
    | with_reducible apply Touch.then (toAction_touch ..)
    | with_reducible refine withLine_k ?_ (fun _ _ => ?_) ?_
    | with_reducible apply Touch.then (release_touch ..)
    | unfold zz; try dsimp -zeta only
    | split
    | exact touch_ofO rfl ‹TouchO _ _ (some _)›
    | with_reducible refine touchO_map' (fun _ => ?_)
    | refine touch_ofO (by assumption) ?_

theorem runPlaced_touch (s : State) : Touch k_runPlaced s (runPlaced s) := by
  unfold runPlaced
  simp -zeta -beta -eta only [mk_eq]
  repeat' first
    | ((first | lift_lets -underBinder | skip); with_reducible intro zz; first | ((first | (have _q : SchSt := zz; clear _q)); dsimp -zeta only [zz]; clear zz) | (refine cut_k (Touch k_runPlaced s zz) ?_ (fun _ => ?_); rotate_left; clear_value zz; rotate_right) | (refine cut_k (TouchO k_runPlaced s zz) ?_ (fun _ => ?_); rotate_left; clear_value zz; rotate_right) | clear_value zz)
    | with_reducible exact Touch.refl
    | with_reducible assumption
    | decide
    | with_reducible exact touchO_none
    | with_reducible refine touchO_some ?_
    | with_reducible refine touchO_map ?_ (fun _ _ => ?_)
    | with_reducible refine touch_getD ?_ ?_
    | with_reducible refine foldl_k (fun _ _ _ => ?_) ?_
    | with_reducible apply Touch.thenO (entAction_touch ..)
    | split
    | exact touch_ofO rfl ‹TouchO _ _ (some _)›
    | with_reducible refine touchO_map' (fun _ => ?_)
    | refine touch_ofO (by assumption) ?_
    | with_reducible apply Touch.then (upd_schplaced ..)

theorem execToEdge_touch (k : BitVec 5) (s : State) : TouchX k_execToEdge s (execToEdge k s) := by
  unfold execToEdge
  repeat' first
    | ((first | lift_lets -underBinder | skip); with_reducible intro zz; first | (refine cut_k (Touch k_execToEdge s zz) ?_ (fun _ => ?_); rotate_left; clear_value zz; rotate_right) | clear_value zz)
    | with_reducible exact Touch.refl
    | with_reducible assumption
    | decide
    | with_reducible exact okw_TO_STATUS (by decide)
    | with_reducible refine touchX_next ?_
    | with_reducible refine ite_k ?_ ?_
    | with_reducible refine fput_w ?_ ?_
    | with_reducible apply Touch.then (State_setTout_touch ..)
    | with_reducible apply Touch.then (runPlaced_touch ..)
    | unfold zz; try dsimp -zeta only
    | split

theorem execStepPulse_touch (k : BitVec 5) (s : State) : TouchX k_execStepPulse s (execStepPulse k s) := by
  unfold execStepPulse
  repeat' first
    | ((first | lift_lets -underBinder | skip); with_reducible intro zz; first | (refine cut_k (Touch k_execStepPulse s zz) ?_ (fun _ => ?_); rotate_left; clear_value zz; rotate_right) | clear_value zz)
    | with_reducible exact Touch.refl
    | with_reducible assumption
    | decide
    | with_reducible refine touchX_next ?_
    | with_reducible refine ite_k ?_ ?_
    | with_reducible apply Touch.then (State_setTout_touch ..)
    | with_reducible apply Touch.then (runPlaced_touch ..)
    | unfold zz; try dsimp -zeta only
    | split

theorem computeCycle_touch (s : State) : Touch k_computeCycle s (computeCycle s) := by
  unfold computeCycle
  repeat' first
    | ((first | lift_lets -underBinder | skip); with_reducible intro zz; first | (refine cut_k (Touch k_computeCycle s zz) ?_ (fun _ => ?_); rotate_left; clear_value zz; rotate_right) | clear_value zz)
    | with_reducible exact Touch.refl
    | with_reducible assumption
    | decide
    | with_reducible refine ite_k ?_ ?_
    | with_reducible apply Touch.then (stepSample_touch ..)
    | with_reducible apply Touch.then (setpoints_touch ..)
    | with_reducible apply Touch.then (runPlaced_touch ..)
    | with_reducible refine eachN_k (fun _ _ _ => ?_) ?_
    | unfold zz; try dsimp -zeta only

theorem execSetpointCompute_touch (s : State) : TouchX k_execSetpointCompute s (execSetpointCompute s) := by
  unfold execSetpointCompute
  repeat' first
    | with_reducible exact Touch.refl
    | with_reducible assumption
    | decide
    | with_reducible refine touchX_next ?_
    | with_reducible apply Touch.then (computeCycle_touch ..)

end Sys2Proof.Laws
end

