-- ==== Sys2Proof/Laws/TouchLink.lean ====
section
/-! SUPPORT. What each operation of Machine/Link.lean can touch: one lemma per operation, by footprint (Laws/Touch.lean). -/

set_option linter.unusedTactic false
set_option linter.unreachableTactic false
set_option linter.unusedSimpArgs false
set_option linter.unusedVariables false

namespace Sys2Proof.Laws
open Sys2Proof Sys2Proof.Machine R

/-! Footprints. -/
def k_setLstate : Nat := 0x80000000000000000000000000000000000000000000000000000000000000
def k_sendOn : Nat := 0x20000000000000000000000000000000000000000000000000001000000000000
def k_sendHop : Nat := 0x20000000000000000000000000000000000000000000000000001000000000000
def k_showCompact : Nat := 0x80000000000000000000000000000000000000000000000000000000000000
def k_sendLine : Nat := 0x20000000000000000000000000000000000000000000000000001000000000000
def k_setSegState : Nat := 0x4000000000000000000000000000000000000000000000000000000000000
def k_linksDone : Nat := 0x4000000000000000000000000000000000000000000000000000000000000
def k_mirDown : Nat := 0x28000000000020000000000000000000000000000000000000000000000000000000000400030000000000000000000000000000000
def k_portDown : Nat := 0x28000000000020000000000000000000000000000000080000000000000000000000000400030000000000000000001000000000000
def k_comeUp : Nat := 0x84000000000000000000000000000000000000000000000002000000000000
def k_rejudge : Nat := 0x80000000000000000000000000000000000000000000000000000000000000
def k_execLinkStart : Nat := 0x80000000000000000000000000000000000000000000000001000000000000
def k_execLinkSync : Nat := 0x80000000000000000000000000000000000000000000000001000000000000
def k_fallback : Nat := 0x28000000000020000000000000000000000000000000084000000000000000000000000400030000000000000000003000000000000
def k_execLinkSyncTimeout : Nat := 0x28000000000020000000000000000000000000000000084000000000000000000000000400030000000000000000003000000000000
def k_execLinkFallback : Nat := 0x28000000000020000000000000000000000000000000084000000000000000000000000400030000000000000000003000000000000
def k_execLinkFrameTx : Nat := 0x20000000000000000000000000000000000000000000000000001000000000000
def k_execLinkRx : Nat := 0x184000000000000000000000000000000000000000000000003000000000000
def k_execLinkAdvTimeout : Nat := 0x28000000000020000000000000000000000000000000080000000000000000000000000400030000000000000000001000000000000
def k_execLinkRateSwitch : Nat := 0x80000000000000000000000000000000000000000000000000000000000000
def k_execLinkLost : Nat := 0x28000000000020000000000000000000000000000040080000000000000000000000000400030000000000000000001000000000000
def k_portCtrlEff : Nat := 0x280000000000200000000000000000000000000000000c0000000000000000000000000400030000000000000000001000000000000
def k_portCmdEff : Nat := 0x28000000000020000000000000000000000000000000080000000000000000000000000400030000000000000000001000000000000
def k_execRetry : Nat := 0x2830000000002000000000000000000000000000000008000000000000000800000000060f43000000000c000000001000000000000
def k_execMirRetry : Nat := 0x80000000000000000000000000000000000000000000000001000000000000
def k_countBad : Nat := 0x2800000000000000000000000000000000000000001e080000000000000000000000000400030000000000000000000000000000000
def k_execFrameRxInvalid : Nat := 0x2800000000000000000000000000000000000000001e080000000000000000000000000400030000000000000000000000000000000

theorem setLstate_touch (p : Nat) (x : Nat) (s : State) : Touch k_setLstate s (setLstate p x s) := by
  unfold setLstate
  repeat' first
    | with_reducible exact Touch.refl
    | with_reducible assumption
    | decide
    | with_reducible exact okw_PORT_STATUS (by decide)
    | with_reducible refine fset_w ?_ ?_

theorem sendOn_touch (p : Nat) (f : TxFrame) (s : State) : Touch k_sendOn s (sendOn p f s) := by
  unfold sendOn
  repeat' first
    | with_reducible exact Touch.refl
    | with_reducible assumption
    | decide
    | with_reducible exact okw_TX_FRAMES (by decide)
    | with_reducible refine wrN_w ?_ ?_
    | with_reducible apply Touch.then (State_setLink_touch ..)

theorem sendHop_touch (p : Nat) (typ : Nat) (pay : List (BitVec 8)) (s : State) : Touch k_sendHop s (sendHop p typ pay s) := by
  unfold sendHop
  repeat' first
    | with_reducible exact Touch.refl
    | with_reducible assumption
    | decide
    | with_reducible refine ite_k ?_ ?_
    | with_reducible apply Touch.then (sendOn_touch ..)

theorem showCompact_touch (p : Nat) (s : State) : Touch k_showCompact s (showCompact p s) := by
  unfold showCompact
  repeat' first
    | with_reducible exact Touch.refl
    | with_reducible assumption
    | decide
    | with_reducible exact okw_PORT_STATUS (by decide)
    | with_reducible refine fput_w ?_ ?_

theorem sendLine_touch (g : Nat) (typ : Nat) (da : Nat) (pay : List (BitVec 8)) (s : State) : Touch k_sendLine s (sendLine g typ da pay s) := by
  unfold sendLine
  repeat' first
    | ((first | lift_lets -underBinder | skip); with_reducible intro zz; first | (refine cut_k (Touch k_sendLine s zz) ?_ (fun _ => ?_); rotate_left; clear_value zz; rotate_right) | clear_value zz)
    | with_reducible exact Touch.refl
    | with_reducible assumption
    | decide
    | with_reducible refine ite_k ?_ ?_
    | with_reducible apply Touch.then (sendOn_touch ..)
    | with_reducible refine eachN_k (fun _ _ _ => ?_) ?_
    | unfold zz; try dsimp -zeta only

theorem setSegState_touch (g : Nat) (x : Nat) (s : State) : Touch k_setSegState s (setSegState g x s) := by
  unfold setSegState
  repeat' first
    | ((first | lift_lets -underBinder | skip); with_reducible intro zz; first | (refine cut_k (Touch k_setSegState s zz) ?_ (fun _ => ?_); rotate_left; clear_value zz; rotate_right) | clear_value zz)
    | with_reducible exact Touch.refl
    | with_reducible assumption
    | decide
    | with_reducible exact okw_NET_STATE (by decide)
    | with_reducible refine ite_k ?_ ?_
    | with_reducible refine fset_w ?_ ?_
    | with_reducible refine fput_w ?_ ?_
    | unfold zz; try dsimp -zeta only

theorem linksDone_touch (g : Nat) (s : State) : Touch k_linksDone s (linksDone g s) := by
  unfold linksDone
  repeat' first
    | with_reducible exact Touch.refl
    | with_reducible assumption
    | decide
    | with_reducible refine ite_k ?_ ?_
    | with_reducible apply Touch.then (setSegState_touch ..)

theorem mirDown_touch (s : State) : Touch k_mirDown s (mirDown s) := by
  unfold mirDown
  repeat' first
    | ((first | lift_lets -underBinder | skip); with_reducible intro zz; first | (refine cut_k (Touch k_mirDown s zz) ?_ (fun _ => ?_); rotate_left; clear_value zz; rotate_right) | clear_value zz)
    | with_reducible exact Touch.refl
    | with_reducible assumption
    | decide
    | with_reducible exact okw_PAIR_STATUS (by decide)
    | with_reducible refine ite_k ?_ ?_
    | with_reducible refine w1cSet_w ?_ ?_ ?_
    | with_reducible refine fset_w ?_ ?_
    | with_reducible refine fput_w ?_ ?_
    | unfold zz; try dsimp -zeta only

theorem portDown_touch (p : Nat) (s : State) : Touch k_portDown s (portDown p s) := by
  unfold portDown
  repeat' first
    | ((first | lift_lets -underBinder | skip); with_reducible intro zz; first | (refine cut_k (Touch k_portDown s zz) ?_ (fun _ => ?_); rotate_left; clear_value zz; rotate_right) | clear_value zz)
    | with_reducible exact Touch.refl
    | with_reducible assumption
    | decide
    | with_reducible exact okw_PORT_STATUS (by decide)
    | with_reducible refine ite_k ?_ ?_
    | with_reducible refine fset_w ?_ ?_
    | with_reducible apply Touch.then (State_setLink_touch ..)
    | with_reducible apply Touch.then (showCompact_touch ..)
    | with_reducible apply Touch.then (setLstate_touch ..)
    | with_reducible apply Touch.then (mirDown_touch ..)
    | unfold zz; try dsimp -zeta only

theorem comeUp_touch (p : Nat) (ver : Nat) (s : State) : Touch k_comeUp s (comeUp p ver s) := by
  unfold comeUp
  repeat' first
    | ((first | lift_lets -underBinder | skip); with_reducible intro zz; first | (refine cut_k (Touch k_comeUp s zz) ?_ (fun _ => ?_); rotate_left; clear_value zz; rotate_right) | clear_value zz)
    | with_reducible exact Touch.refl
    | with_reducible assumption
    | decide
    | with_reducible exact okw_PORT_STATUS (by decide)
    | with_reducible refine ite_k ?_ ?_
    | with_reducible refine fset_w ?_ ?_
    | with_reducible apply Touch.then (State_setSeg_touch ..)
    | with_reducible apply Touch.then (showCompact_touch ..)
    | with_reducible apply Touch.then (setSegState_touch ..)
    | with_reducible apply Touch.then (setLstate_touch ..)
    | with_reducible apply Touch.then (linksDone_touch ..)
    | unfold zz; try dsimp -zeta only

theorem rejudge_touch (p : Nat) (s : State) : Touch k_rejudge s (rejudge p s) := by
  unfold rejudge
  repeat' first
    | with_reducible exact Touch.refl
    | with_reducible assumption
    | decide
    | with_reducible refine ite_k ?_ ?_
    | with_reducible apply Touch.then (showCompact_touch ..)
    | with_reducible apply Touch.then (setLstate_touch ..)

theorem execLinkStart_touch (p : NetPort) (s : State) : TouchX k_execLinkStart s (execLinkStart p s) := by
  unfold execLinkStart
  repeat' first
    | with_reducible exact Touch.refl
    | with_reducible assumption
    | decide
    | with_reducible refine touchX_next ?_
    | with_reducible refine ite_k ?_ ?_
    | with_reducible apply Touch.then (State_setLink_touch ..)
    | with_reducible apply Touch.then (setLstate_touch ..)

theorem execLinkSync_touch (p : NetPort) (s : State) : TouchX k_execLinkSync s (execLinkSync p s) := by
  unfold execLinkSync
  repeat' first
    | ((first | lift_lets -underBinder | skip); with_reducible intro zz; first | (refine cut_k (Touch k_execLinkSync s zz) ?_ (fun _ => ?_); rotate_left; clear_value zz; rotate_right) | (refine cut_k (∀ t, Touch k_execLinkSync s t → Touch k_execLinkSync s (zz t)) (fun _ _ => ?_) (fun _ => ?_); rotate_left; clear_value zz; rotate_right) | (refine cut_k (∀ a t, Touch k_execLinkSync s t → Touch k_execLinkSync s (zz a t)) (fun _ _ _ => ?_) (fun _ => ?_); rotate_left; clear_value zz; rotate_right) | (refine cut_k (∀ a b t, Touch k_execLinkSync s t → Touch k_execLinkSync s (zz a b t)) (fun _ _ _ _ => ?_) (fun _ => ?_); rotate_left; clear_value zz; rotate_right) | (refine cut_k (∀ a b c d t, Touch k_execLinkSync s t → Touch k_execLinkSync s (zz a b c d t)) (fun _ _ _ _ _ _ => ?_) (fun _ => ?_); rotate_left; clear_value zz; rotate_right) | clear_value zz)
    | with_reducible exact Touch.refl
    | with_reducible assumption
    | decide
    | with_reducible refine touchX_next ?_
    | with_reducible refine ite_k ?_ ?_
    | with_reducible apply Touch.then (State_setLink_touch ..)
    | with_reducible apply Touch.then (setLstate_touch ..)
    | unfold zz; try dsimp -zeta only
    | with_reducible apply_assumption

theorem fallback_touch (p : Nat) (s : State) : Touch k_fallback s (fallback p s) := by
  unfold fallback
  repeat' first
    | with_reducible exact Touch.refl
    | with_reducible assumption
    | decide
    | with_reducible exact okw_PORT_STATUS (by decide)
    | with_reducible refine ite_k ?_ ?_
    | with_reducible refine w1cSet_w ?_ ?_ ?_
    | with_reducible apply Touch.then (State_setLink_touch ..)
    | with_reducible apply Touch.then (portDown_touch ..)
    | with_reducible apply Touch.then (comeUp_touch ..)

theorem execLinkSyncTimeout_touch (p : NetPort) (s : State) : TouchX k_execLinkSyncTimeout s (execLinkSyncTimeout p s) := by
  unfold execLinkSyncTimeout
  repeat' first
    | with_reducible exact Touch.refl
    | with_reducible assumption
    | decide
    | with_reducible refine touchX_next ?_
    | with_reducible refine ite_k ?_ ?_
    | with_reducible apply Touch.then (portDown_touch ..)
    | with_reducible apply Touch.then (fallback_touch ..)

theorem execLinkFallback_touch (p : NetPort) (s : State) : TouchX k_execLinkFallback s (execLinkFallback p s) := by
  unfold execLinkFallback
  repeat' first
    | with_reducible exact Touch.refl
    | with_reducible assumption
    | decide
    | with_reducible refine touchX_next ?_
    | with_reducible refine ite_k ?_ ?_
    | with_reducible apply Touch.then (fallback_touch ..)

theorem execLinkFrameTx_touch (p : NetPort) (s : State) : TouchX k_execLinkFrameTx s (execLinkFrameTx p s) := by
  unfold execLinkFrameTx
  repeat' first
    | ((first | lift_lets -underBinder | skip); with_reducible intro zz; first | (refine cut_k (Touch k_execLinkFrameTx s zz) ?_ (fun _ => ?_); rotate_left; clear_value zz; rotate_right) | clear_value zz)
    | with_reducible exact Touch.refl
    | with_reducible assumption
    | decide
    | with_reducible refine touchX_next ?_
    | with_reducible refine ite_k ?_ ?_
    | with_reducible apply Touch.then (State_setLink_touch ..)
    | with_reducible apply Touch.then (sendHop_touch ..)
    | unfold zz; try dsimp -zeta only

theorem execLinkRx_touch (p : NetPort) (maxver : BitVec 8) (flg : BitVec 8) (_etype : BitVec 16) (serial : Word) (portid : BitVec 8) (s : State) : TouchX k_execLinkRx s (execLinkRx p maxver flg _etype serial portid s) := by
  unfold execLinkRx
  repeat' first
    | ((first | lift_lets -underBinder | skip); with_reducible intro zz; first | (refine cut_k (okw k_execLinkRx zz) (by with_reducible first | exact okw_PORT_PARTNER (by decide) | exact okw_PORT_STATUS (by decide)) (fun _ => ?_); clear_value zz) | (refine cut_k (Touch k_execLinkRx s zz) ?_ (fun _ => ?_); rotate_left; clear_value zz; rotate_right) | clear_value zz)
    | with_reducible exact Touch.refl
    | with_reducible assumption
    | decide
    | with_reducible exact okw_PORT_PARTNER (by decide)
    | with_reducible exact okw_PORT_STATUS (by decide)
    | with_reducible refine touchX_next ?_
    | with_reducible refine ite_k ?_ ?_
    | with_reducible refine fset_w ?_ ?_
    | with_reducible refine wr_w ?_ ?_
    | with_reducible apply Touch.then (State_setLink_touch ..)
    | with_reducible apply Touch.then (setLstate_touch ..)
    | with_reducible apply Touch.then (comeUp_touch ..)
    | unfold zz; try dsimp -zeta only

theorem execLinkAdvTimeout_touch (p : NetPort) (s : State) : TouchX k_execLinkAdvTimeout s (execLinkAdvTimeout p s) := by
  unfold execLinkAdvTimeout
  repeat' first
    | with_reducible exact Touch.refl
    | with_reducible assumption
    | decide
    | with_reducible refine touchX_next ?_
    | with_reducible refine ite_k ?_ ?_
    | with_reducible apply Touch.then (portDown_touch ..)

theorem execLinkRateSwitch_touch (p : NetPort) (s : State) : TouchX k_execLinkRateSwitch s (execLinkRateSwitch p s) := by
  unfold execLinkRateSwitch
  repeat' first
    | with_reducible exact Touch.refl
    | with_reducible assumption
    | decide
    | with_reducible refine touchX_next ?_
    | with_reducible refine ite_k ?_ ?_
    | with_reducible apply Touch.then (setLstate_touch ..)

theorem execLinkLost_touch (p : NetPort) (s : State) : TouchX k_execLinkLost s (execLinkLost p s) := by
  unfold execLinkLost
  repeat' first
    | ((first | lift_lets -underBinder | skip); with_reducible intro zz; first | (refine cut_k (Touch k_execLinkLost s zz) ?_ (fun _ => ?_); rotate_left; clear_value zz; rotate_right) | clear_value zz)
    | with_reducible exact Touch.refl
    | with_reducible assumption
    | decide
    | with_reducible exact okw_PORT_STATUS (by decide)
    | with_reducible exact okw_DROPS (by decide)
    | with_reducible refine touchX_next ?_
    | with_reducible refine ite_k ?_ ?_
    | with_reducible refine w1cSet_w ?_ ?_ ?_
    | with_reducible refine wrN_w ?_ ?_
    | with_reducible apply Touch.then (portDown_touch ..)
    | unfold zz; try dsimp -zeta only

theorem portCtrlEff_touch (p : Nat) (v : Word) (s : State) : TouchO k_portCtrlEff s (portCtrlEff p v s) := by
  unfold portCtrlEff
  repeat' first
    | with_reducible exact Touch.refl
    | with_reducible assumption
    | decide
    | with_reducible exact okw_PORT_CTRL (by decide)
    | with_reducible exact touchO_none
    | with_reducible refine touchO_some ?_
    | with_reducible refine touchO_map ?_ (fun _ _ => ?_)
    | with_reducible refine touch_getD ?_ ?_
    | with_reducible refine ite_k ?_ ?_
    | with_reducible refine plainEff_w ?_ ?_
    | with_reducible apply Touch.then (portDown_touch ..)
    | split
    | exact touch_ofO rfl ‹TouchO _ _ (some _)›
    | with_reducible refine touchO_map' (fun _ => ?_)
    | refine touch_ofO (by assumption) ?_

theorem portCmdEff_touch (p : Nat) (v : Word) (s : State) : TouchO k_portCmdEff s (portCmdEff p v s) := by
  unfold portCmdEff
  repeat' first
    | with_reducible exact Touch.refl
    | with_reducible assumption
    | decide
    | with_reducible exact touchO_none
    | with_reducible refine touchO_some ?_
    | with_reducible refine touchO_map ?_ (fun _ _ => ?_)
    | with_reducible refine touch_getD ?_ ?_
    | with_reducible refine ite_k ?_ ?_
    | with_reducible apply Touch.then (State_setLink_touch ..)
    | with_reducible apply Touch.then (portDown_touch ..)
    | exact touch_ofO rfl ‹TouchO _ _ (some _)›
    | with_reducible refine touchO_map' (fun _ => ?_)
    | refine touch_ofO (by assumption) ?_

theorem execRetry_touch (w : Who) (p : NetPort) (s : State) : TouchX k_execRetry s (execRetry w p s) := by
  unfold execRetry
  repeat' first
    | with_reducible exact Touch.refl
    | with_reducible assumption
    | decide
    | with_reducible refine touchX_next ?_
    | with_reducible exact touchO_none
    | with_reducible refine touchO_some ?_
    | with_reducible refine touchO_map ?_ (fun _ _ => ?_)
    | with_reducible refine touch_getD ?_ ?_
    | with_reducible apply Touch.thenO (portCmdEff_touch ..)
    | with_reducible refine gated_k ?_ ?_ ?_
    | exact touch_ofO rfl ‹TouchO _ _ (some _)›
    | with_reducible refine touchO_map' (fun _ => ?_)
    | refine touch_ofO (by assumption) ?_

theorem execMirRetry_touch (s : State) : TouchX k_execMirRetry s (execMirRetry s) := by
  unfold execMirRetry
  repeat' first
    | with_reducible exact Touch.refl
    | with_reducible assumption
    | decide
    | with_reducible refine touchX_next ?_
    | with_reducible refine ite_k ?_ ?_
    | with_reducible apply Touch.then (State_setLink_touch ..)
    | with_reducible apply Touch.then (setLstate_touch ..)

theorem countBad_touch (p : Nat) (f : RxFail) (s : State) : Touch k_countBad s (countBad p f s) := by
  unfold countBad
  repeat' first
    | with_reducible exact Touch.refl
    | with_reducible assumption
    | decide
    | with_reducible exact okw_PORT_STATUS (by decide)
    | with_reducible exact okw_CODE_VIOL (by decide)
    | with_reducible exact okw_RX_LEN (by decide)
    | with_reducible exact okw_RX_CRC (by decide)
    | with_reducible exact okw_RX_UNK (by decide)
    | with_reducible refine w1cSet_w ?_ ?_ ?_
    | with_reducible refine wrN_w ?_ ?_
    | split

theorem execFrameRxInvalid_touch (p : NetPort) (f : RxFail) (s : State) : TouchX k_execFrameRxInvalid s (execFrameRxInvalid p f s) := by
  unfold execFrameRxInvalid
  repeat' first
    | with_reducible exact Touch.refl
    | with_reducible assumption
    | decide
    | with_reducible refine touchX_next ?_
    | with_reducible refine ite_k ?_ ?_
    | with_reducible apply Touch.then (countBad_touch ..)

end Sys2Proof.Laws
end

