-- ==== Sys2Proof/Laws/TouchNetRx.lean ====
section
/-! SUPPORT. What each operation of Machine/NetRx.lean can touch: one lemma per operation, by footprint (Laws/Touch.lean). -/

set_option linter.unusedTactic false
set_option linter.unreachableTactic false
set_option linter.unusedSimpArgs false
set_option linter.unusedVariables false

namespace Sys2Proof.Laws
open Sys2Proof Sys2Proof.Machine R

/-! Footprints. -/
def k_setCyc : Nat := 0x40000000000000000000000000000000000000000000000000000000000
def k_selectCopy : Nat := 0x28000000000000000000000000000000000000000001c00000000000000000000000000400030000000000000000002000000000000
def k_setNodeState : Nat := 0x200000000000000000000000000000000000000000000000000000000000000000
def k_releaseFb : Nat := 0x2c300000000007fc138000000000000000000002000000000000000000130800000000041e43000000000c000000008010107800100
def k_fbRecord : Nat := 0x2c300000000007fc138000000000020038010006800000000000000000130800000000041e43000000000c00000000c011107800180
def k_fbSource : Nat := 0x2000
def k_useFeedback : Nat := 0x2c300000000007fc138000000000020038010006800000000000000000130800000000041e43000000000c00000000c011107802180
def k_showDev : Nat := 0x400000000000000000000000000000000000000000000000000000000000000000
def k_slotOut : Nat := 0x28000000000000000000000000000000000000000800020000000000000000000000000400030000000000000000000000000000000
def k_execFeedbackRx : Nat := 0x2c300000000007fc1380000000000200380100068c1fca000800000000130800000000041e43000000000c00000040e01115f802180
def k_substitute : Nat := 0x80
def k_missSample : Nat := 0x2c300000000007fc138000000000020030010006800000000000000000130800000000041e43000000000c000000008011107800180
def k_axesMissing : Nat := 0x28000000000000000000000000000200300100068000000000000000000000000000000400030000000000000000000001100000000
def k_judgeLost : Nat := 0x28000000000000000000000000000200300100068200020000000000000000000000000400030000000000000000000001100000000
def k_windowEnd : Nat := 0x2c300000000007fc138000000000020030010006830002000800000000130800000000041e43000000000c00000040c01115f800180
def k_execFeedbackWindowEnd : Nat := 0x2c300000000007fc138000000000020030010006830002000800000000130800000000041e43000000000c00000040c01115f800180
def k_execFbmiss : Nat := 0x28000000000000000000000000000200300100068000000000000000000000000000000400030000000000000000000001100000000
def k_freeCompares : Nat := 0x400000000000000000000000000000000000
def k_descriptor : Nat := 0x400000000000000000000008000000000000
def k_recordBody : Nat := 0x400000000000000000000008000000000000
def k_trainRecord : Nat := 0x28000000000000000000000000000000000000000000000000000000001000000000000400030000000000000000008000006000000
def k_execTrainTx : Nat := 0x2800000000000000000000000000000000000000002000000800000000100000000000040003000000000000000040900005e000000
def k_showTurnaround : Nat := 0x28000000000000000000000000000000000000000000000000000000004000000000000400030000000000000000000000000000000
def k_execDirectTx : Nat := 0x28000000000000000000000000000000000000000020000008000000004000000000000400030000000000000000409000058000000

theorem setCyc_touch (c : Nat) (s : State) : Touch k_setCyc s (setCyc c s) := by
  unfold setCyc
  repeat' first
    | with_reducible exact Touch.refl
    | with_reducible assumption
    | decide
    | with_reducible exact okw_TIME_CYC (by decide)
    | with_reducible refine fset_w ?_ ?_

theorem selectCopy_touch (typ : Nat) (r : Rx) (s : State) : Touch2 k_selectCopy s (selectCopy typ r s) := by
  unfold selectCopy
  repeat' first
    | ((first | lift_lets -underBinder | skip); with_reducible intro zz; first | (refine cut_k (Touch k_selectCopy s zz) ?_ (fun _ => ?_); rotate_left; clear_value zz; rotate_right) | (refine cut_k (Touch2 k_selectCopy s zz) ?_ (fun _ => ?_); rotate_left; clear_value zz; rotate_right) | clear_value zz)
    | with_reducible exact Touch.refl
    | with_reducible assumption
    | decide
    | with_reducible exact okw_LATER (by decide)
    | with_reducible exact okw_MISMATCH_CNT (by decide)
    | with_reducible exact okw_FIRST (by decide)
    | with_reducible refine ite_k ?_ ?_
    | with_reducible refine wrN_w ?_ ?_
    | with_reducible apply Touch.then (State_setSeg_touch ..)
    | with_reducible apply Touch.then (sediment_touch ..)
    | with_reducible refine Touch.snd ?_
    | unfold zz; try dsimp -zeta only
    | split
    | with_reducible refine touch2_mk ?_
    | exact touch_of2 rfl ‹Touch2 _ _ (_, _)›
    | refine touch_of2 (by assumption) ?_

theorem setNodeState_touch (n : Nat) (x : Nat) (s : State) : Touch k_setNodeState s (setNodeState n x s) := by
  unfold setNodeState
  repeat' first
    | with_reducible exact Touch.refl
    | with_reducible assumption
    | decide
    | with_reducible exact okw_NODE_INFO (by decide)
    | with_reducible refine fset_w ?_ ?_

theorem releaseFb_touch (g : Nat) (k : Nat) (cyc : Nat) (t : Int) (missing : Bool) (s : State) : Touch k_releaseFb s (releaseFb g k cyc t missing s) := by
  unfold releaseFb
  repeat' first
    | with_reducible exact Touch.refl
    | with_reducible assumption
    | decide
    | with_reducible refine ite_k ?_ ?_
    | with_reducible apply Touch.then (release_touch ..)

theorem fbRecord_touch (g : Nat) (n : Nat) (cyc : Nat) (t : Int) (r : List (BitVec 8)) (s : State) : Touch k_fbRecord s (fbRecord g n cyc t r s) := by
  unfold fbRecord
  repeat' first
    | ((first | lift_lets -underBinder | skip); with_reducible intro zz; first | (refine cut_k (Touch k_fbRecord s zz) ?_ (fun _ => ?_); rotate_left; clear_value zz; rotate_right) | clear_value zz)
    | with_reducible exact Touch.refl
    | with_reducible assumption
    | decide
    | with_reducible refine ite_k ?_ ?_
    | with_reducible apply Touch.then (State_setNode_touch ..)
    | with_reducible apply Touch.then (State_setFb_touch ..)
    | with_reducible apply Touch.then (judgeCause_touch ..)
    | with_reducible apply Touch.then (homeIndex_touch ..)
    | with_reducible apply Touch.then (fbPresent_touch ..)
    | with_reducible apply Touch.then (acceptPos_touch ..)
    | with_reducible apply Touch.then (releaseFb_touch ..)
    | unfold zz; try dsimp -zeta only
    | split

theorem fbSource_touch (n : Nat) (smpt : Nat) (recs : List (List (BitVec 8))) (j : Nat) (s : State) : Touch k_fbSource s (fbSource n smpt recs j s) := by
  unfold fbSource
  repeat' first
    | ((first | lift_lets -underBinder | skip); with_reducible intro zz; first | (refine cut_k (Touch k_fbSource s zz) ?_ (fun _ => ?_); rotate_left; clear_value zz; rotate_right) | clear_value zz)
    | with_reducible exact Touch.refl
    | with_reducible assumption
    | decide
    | with_reducible refine ite_k ?_ ?_
    | with_reducible apply Touch.then (State_setSrc_touch ..)
    | unfold zz; try dsimp -zeta only
    | split

theorem useFeedback_touch (g : Nat) (n : Nat) (r : Rx) (s : State) : Touch k_useFeedback s (useFeedback g n r s) := by
  unfold useFeedback
  repeat' first
    | ((first | lift_lets -underBinder | skip); with_reducible intro zz; first | (refine cut_k (Touch k_useFeedback s zz) ?_ (fun _ => ?_); rotate_left; clear_value zz; rotate_right) | clear_value zz)
    | with_reducible exact Touch.refl
    | with_reducible assumption
    | decide
    | with_reducible refine foldl_k (fun _ _ _ => ?_) ?_
    | with_reducible refine ite_k ?_ ?_
    | with_reducible apply Touch.then (State_setNode_touch ..)
    | with_reducible apply Touch.then (fbRecord_touch ..)
    | with_reducible apply Touch.then (fbSource_touch ..)
    | with_reducible refine eachN_k (fun _ _ _ => ?_) ?_
    | unfold zz; try dsimp -zeta only

theorem showDev_touch (n : Nat) (chB : Bool) (d : Int) (s : State) : Touch k_showDev s (showDev n chB d s) := by
  unfold showDev
  repeat' first
    | ((first | lift_lets -underBinder | skip); with_reducible intro zz; first | (refine cut_k (okw k_showDev zz) (by with_reducible first | exact okw_NODE_SLOT (by decide)) (fun _ => ?_); clear_value zz) | (refine cut_k (Touch k_showDev s zz) ?_ (fun _ => ?_); rotate_left; clear_value zz; rotate_right) | clear_value zz)
    | with_reducible exact Touch.refl
    | with_reducible assumption
    | decide
    | with_reducible exact okw_NODE_SLOT (by decide)
    | with_reducible refine ite_k ?_ ?_
    | with_reducible refine fset_w ?_ ?_
    | unfold zz; try dsimp -zeta only

theorem slotOut_touch (n : Nat) (s : State) : Touch k_slotOut s (slotOut n s) := by
  unfold slotOut
  repeat' first
    | with_reducible exact Touch.refl
    | with_reducible assumption
    | decide
    | with_reducible exact okw_NET_STATUS (by decide)
    | with_reducible exact okw_NODE_CNT (by decide)
    | with_reducible refine fincWrap_w ?_ ?_
    | with_reducible refine w1cSet_w ?_ ?_ ?_

theorem execFeedbackRx_touch (r : Rx) (s : State) : TouchX k_execFeedbackRx s (execFeedbackRx r s) := by
  unfold execFeedbackRx
  repeat' first
    | ((first | lift_lets -underBinder | skip); with_reducible intro zz; first | (refine cut_k (okw k_execFeedbackRx zz) (by with_reducible first | exact okw_NET_STATUS (by decide) | exact okw_NODE_CNT (by decide)) (fun _ => ?_); clear_value zz) | (refine cut_k (Touch k_execFeedbackRx s zz) ?_ (fun _ => ?_); rotate_left; clear_value zz; rotate_right) | (refine cut_k (Touch2 k_execFeedbackRx s zz) ?_ (fun _ => ?_); rotate_left; clear_value zz; rotate_right) | clear_value zz)
    | with_reducible exact Touch.refl
    | with_reducible assumption
    | decide
    | with_reducible exact okw_NET_STATUS (by decide)
    | with_reducible exact okw_NODE_CNT (by decide)
    | with_reducible refine touchX_next ?_
    | with_reducible refine ite_k ?_ ?_
    | with_reducible refine fincWrap_w ?_ ?_
    | with_reducible refine w1cSet_w ?_ ?_ ?_
    | with_reducible apply Touch.then (State_setNode_touch ..)
    | with_reducible apply Touch.then (useFeedback_touch ..)
    | with_reducible apply Touch.then2 (selectCopy_touch ..)
    | with_reducible apply Touch.then (countBad_touch ..)
    | with_reducible apply Touch.then (slotOut_touch ..)
    | with_reducible apply Touch.then (reachAt_touch ..)
    | with_reducible apply Touch.then (showDev_touch ..)
    | with_reducible refine Touch.snd ?_
    | unfold zz; try dsimp -zeta only
    | split
    | with_reducible refine touch2_mk ?_
    | exact touch_of2 rfl ‹Touch2 _ _ (_, _)›
    | refine touch_of2 (by assumption) ?_

theorem substitute_touch (k : Nat) (s : State) : Touch k_substitute s (substitute k s) := by
  unfold substitute
  repeat' first
    | ((first | lift_lets -underBinder | skip); with_reducible intro zz; first | (refine cut_k (Touch k_substitute s zz) ?_ (fun _ => ?_); rotate_left; clear_value zz; rotate_right) | clear_value zz)
    | with_reducible exact Touch.refl
    | with_reducible assumption
    | decide
    | with_reducible apply Touch.then (State_setFb_touch ..)
    | unfold zz; try dsimp -zeta only

theorem missSample_touch (g : Nat) (k : Nat) (t : Int) (s : State) : Touch k_missSample s (missSample g k t s) := by
  unfold missSample
  repeat' first
    | with_reducible exact Touch.refl
    | with_reducible assumption
    | decide
    | with_reducible apply Touch.then (judgeMissing_touch ..)
    | with_reducible apply Touch.then (substitute_touch ..)
    | with_reducible apply Touch.then (releaseFb_touch ..)
    | with_reducible apply Touch.then (fbMissing_touch ..)

theorem axesMissing_touch (g : Nat) (n : Nat) (s : State) : Touch k_axesMissing s (axesMissing g n s) := by
  unfold axesMissing
  repeat' first
    | with_reducible exact Touch.refl
    | with_reducible assumption
    | decide
    | with_reducible apply Touch.then (raiseCause_touch ..)
    | with_reducible refine eachN_k (fun _ _ _ => ?_) ?_

theorem judgeLost_touch (n : Nat) (s : State) : Touch k_judgeLost s (judgeLost n s) := by
  unfold judgeLost
  repeat' first
    | ((first | lift_lets -underBinder | skip); with_reducible intro zz; first | (refine cut_k (Touch k_judgeLost s zz) ?_ (fun _ => ?_); rotate_left; clear_value zz; rotate_right) | (refine cut_k (∀ t, Touch k_judgeLost s t → Touch k_judgeLost s (zz t)) (fun _ _ => ?_) (fun _ => ?_); rotate_left; clear_value zz; rotate_right) | (refine cut_k (∀ a t, Touch k_judgeLost s t → Touch k_judgeLost s (zz a t)) (fun _ _ _ => ?_) (fun _ => ?_); rotate_left; clear_value zz; rotate_right) | (refine cut_k (∀ a b t, Touch k_judgeLost s t → Touch k_judgeLost s (zz a b t)) (fun _ _ _ _ => ?_) (fun _ => ?_); rotate_left; clear_value zz; rotate_right) | (refine cut_k (∀ a b c d t, Touch k_judgeLost s t → Touch k_judgeLost s (zz a b c d t)) (fun _ _ _ _ _ _ => ?_) (fun _ => ?_); rotate_left; clear_value zz; rotate_right) | clear_value zz)
    | with_reducible exact Touch.refl
    | with_reducible assumption
    | decide
    | with_reducible exact okw_NET_STATUS (by decide)
    | with_reducible refine ite_k ?_ ?_
    | with_reducible refine w1cSet_w ?_ ?_ ?_
    | with_reducible apply Touch.then (setNodeState_touch ..)
    | with_reducible apply Touch.then (axesMissing_touch ..)
    | unfold zz; try dsimp -zeta only
    | with_reducible apply_assumption

theorem windowEnd_touch (g : Nat) (i : Nat) (s : State) : Touch k_windowEnd s (windowEnd g i s) := by
  unfold windowEnd
  repeat' first
    | ((first | lift_lets -underBinder | skip); with_reducible intro zz; first | (refine cut_k (okw k_windowEnd zz) (by with_reducible first | exact okw_NODE_CH (by decide)) (fun _ => ?_); clear_value zz) | (refine cut_k (Touch k_windowEnd s zz) ?_ (fun _ => ?_); rotate_left; clear_value zz; rotate_right) | clear_value zz)
    | with_reducible exact Touch.refl
    | with_reducible assumption
    | decide
    | with_reducible exact okw_NODE_CH (by decide)
    | with_reducible refine ite_k ?_ ?_
    | with_reducible refine fincWrap_w ?_ ?_
    | with_reducible apply Touch.then (State_setNode_touch ..)
    | with_reducible apply Touch.then (missSample_touch ..)
    | with_reducible apply Touch.then (judgeLost_touch ..)
    | with_reducible apply Touch.then (setNow_touch ..)
    | with_reducible refine eachN_k (fun _ _ _ => ?_) ?_
    | unfold zz; try dsimp -zeta only

theorem execFeedbackWindowEnd_touch (g : Bool) (i : BitVec 10) (s : State) : TouchX k_execFeedbackWindowEnd s (execFeedbackWindowEnd g i s) := by
  unfold execFeedbackWindowEnd
  repeat' first
    | with_reducible exact Touch.refl
    | with_reducible assumption
    | decide
    | with_reducible refine touchX_next ?_
    | with_reducible apply Touch.then (windowEnd_touch ..)

theorem execFbmiss_touch (n : Axis) (s : State) : TouchX k_execFbmiss s (execFbmiss n s) := by
  unfold execFbmiss
  repeat' first
    | with_reducible exact Touch.refl
    | with_reducible assumption
    | decide
    | with_reducible refine touchX_next ?_
    | with_reducible apply Touch.then (judgeMissing_touch ..)

theorem freeCompares_touch (b0 : Nat) (s : State) : Touch2 k_freeCompares s (freeCompares b0 s) := by
  induction b0 generalizing s with
  | zero => exact Touch.refl
  | succ n ih => exact Touch.then (ih _) (by decide) (Touch.then (takeFree_touch ..) (by decide) Touch.refl)

theorem descriptor_touch (k : Nat) (apply : Nat) (s : State) : Touch2 k_descriptor s (descriptor k apply s) := by
  unfold descriptor
  repeat' first
    | ((first | lift_lets -underBinder | skip); with_reducible intro zz; first | (refine cut_k (Touch k_descriptor s zz) ?_ (fun _ => ?_); rotate_left; clear_value zz; rotate_right) | (refine cut_k (Touch2 k_descriptor s zz) ?_ (fun _ => ?_); rotate_left; clear_value zz; rotate_right) | clear_value zz)
    | with_reducible exact Touch.refl
    | with_reducible assumption
    | decide
    | with_reducible refine ite_k ?_ ?_
    | with_reducible apply Touch.then2 (freeCompares_touch ..)
    | with_reducible apply Touch.then (State_setAxn_touch ..)
    | with_reducible refine Touch.snd ?_
    | unfold zz; try dsimp -zeta only
    | split
    | with_reducible refine touch2_mk ?_
    | exact touch_of2 rfl ‹Touch2 _ _ (_, _)›
    | refine touch_of2 (by assumption) ?_

theorem recordBody_touch (k : Nat) (apply : Nat) (s : State) : Touch2 k_recordBody s (recordBody k apply s) := by
  unfold recordBody
  repeat' first
    | ((first | lift_lets -underBinder | skip); with_reducible intro zz; first | (refine cut_k (Touch k_recordBody s zz) ?_ (fun _ => ?_); rotate_left; clear_value zz; rotate_right) | (refine cut_k (Touch2 k_recordBody s zz) ?_ (fun _ => ?_); rotate_left; clear_value zz; rotate_right) | clear_value zz)
    | with_reducible exact Touch.refl
    | with_reducible assumption
    | decide
    | with_reducible refine ite_k ?_ ?_
    | with_reducible apply Touch.then2 (descriptor_touch ..)
    | with_reducible refine Touch.snd ?_
    | unfold zz; try dsimp -zeta only
    | split
    | with_reducible refine touch2_mk ?_
    | exact touch_of2 rfl ‹Touch2 _ _ (_, _)›
    | refine touch_of2 (by assumption) ?_

theorem trainRecord_touch (apply : Nat) (k : Nat) (acc : List (BitVec 8) × Nat) (s : State) : Touch2 k_trainRecord s (trainRecord apply k acc s) := by
  unfold trainRecord
  repeat' first
    | ((first | lift_lets -underBinder | skip); with_reducible intro zz; first | (refine cut_k (Touch k_trainRecord s zz) ?_ (fun _ => ?_); rotate_left; clear_value zz; rotate_right) | (refine cut_k (Touch2 k_trainRecord s zz) ?_ (fun _ => ?_); rotate_left; clear_value zz; rotate_right) | clear_value zz)
    | with_reducible exact Touch.refl
    | with_reducible assumption
    | decide
    | with_reducible refine ite_k ?_ ?_
    | with_reducible apply Touch.then (countOverrun_touch ..)
    | with_reducible apply Touch.then (State_setAxn_touch ..)
    | with_reducible apply Touch.then2 (recordBody_touch ..)
    | with_reducible refine Touch.snd ?_
    | unfold zz; try dsimp -zeta only
    | split
    | with_reducible refine touch2_mk ?_
    | exact touch_of2 rfl ‹Touch2 _ _ (_, _)›
    | refine touch_of2 (by assumption) ?_

theorem execTrainTx_touch (g : Bool) (i : BitVec 10) (s : State) : TouchX k_execTrainTx s (execTrainTx g i s) := by
  unfold execTrainTx
  repeat' first
    | ((first | lift_lets -underBinder | skip); with_reducible intro zz; first | (refine cut_k (Touch k_execTrainTx s zz) ?_ (fun _ => ?_); rotate_left; clear_value zz; rotate_right) | (refine cut_k (Touch2 k_execTrainTx s zz) ?_ (fun _ => ?_); rotate_left; clear_value zz; rotate_right) | clear_value zz)
    | with_reducible exact Touch.refl
    | with_reducible assumption
    | decide
    | with_reducible refine touchX_next ?_
    | with_reducible refine foldl_k (fun _ _ _ => ?_) ?_
    | with_reducible refine ite_k ?_ ?_
    | with_reducible apply Touch.then2 (trainRecord_touch ..)
    | with_reducible apply Touch.then (sendLine_touch ..)
    | with_reducible apply Touch.then (setNow_touch ..)
    | with_reducible refine Touch.snd ?_
    | unfold zz; try dsimp -zeta only
    | split
    | with_reducible refine touch2_mk ?_
    | exact touch_of2 rfl ‹Touch2 _ _ (_, _)›
    | refine touch_of2 (by assumption) ?_

theorem showTurnaround_touch (k : Nat) (ns : Nat) (s : State) : Touch k_showTurnaround s (showTurnaround k ns s) := by
  unfold showTurnaround
  repeat' first
    | ((first | lift_lets -underBinder | skip); with_reducible intro zz; first | (refine cut_k (Touch k_showTurnaround s zz) ?_ (fun _ => ?_); rotate_left; clear_value zz; rotate_right) | clear_value zz)
    | with_reducible exact Touch.refl
    | with_reducible assumption
    | decide
    | with_reducible exact okw_TA_MON (by decide)
    | with_reducible refine ite_k ?_ ?_
    | with_reducible refine fincSat_w ?_ ?_
    | with_reducible refine fset_w ?_ ?_
    | with_reducible apply Touch.then (sediment_touch ..)
    | unfold zz; try dsimp -zeta only

theorem execDirectTx_touch (n : Axis) (at' : Nat) (s : State) : TouchX k_execDirectTx s (execDirectTx n at' s) := by
  unfold execDirectTx
  repeat' first
    | ((first | lift_lets -underBinder | skip); with_reducible intro zz; first | (refine cut_k (Touch k_execDirectTx s zz) ?_ (fun _ => ?_); rotate_left; clear_value zz; rotate_right) | (refine cut_k (Touch2 k_execDirectTx s zz) ?_ (fun _ => ?_); rotate_left; clear_value zz; rotate_right) | clear_value zz)
    | with_reducible exact Touch.refl
    | with_reducible assumption
    | decide
    | with_reducible refine touchX_next ?_
    | with_reducible refine ite_k ?_ ?_
    | with_reducible apply Touch.then (showTurnaround_touch ..)
    | with_reducible apply Touch.then (State_setAxn_touch ..)
    | with_reducible apply Touch.then2 (descriptor_touch ..)
    | with_reducible apply Touch.then (sendLine_touch ..)
    | with_reducible apply Touch.then (reachAt_touch ..)
    | with_reducible refine Touch.snd ?_
    | unfold zz; try dsimp -zeta only
    | split
    | with_reducible refine touch2_mk ?_
    | exact touch_of2 rfl ‹Touch2 _ _ (_, _)›
    | refine touch_of2 (by assumption) ?_

end Sys2Proof.Laws
end

