-- ==== Sys2Proof/Laws/TouchSegments.lean ====
section
/-! SUPPORT. What each operation of Machine/Segments.lean can touch: one lemma per operation, by footprint (Laws/Touch.lean). -/

set_option linter.unusedTactic false
set_option linter.unreachableTactic false
set_option linter.unusedSimpArgs false
set_option linter.unusedVariables false

namespace Sys2Proof.Laws
open Sys2Proof Sys2Proof.Machine R

/-! Footprints. -/
def k_enqueue : Nat := 0x2000000000000
def k_download : Nat := 0x2000000000000
def k_serve : Nat := 0x20000000000000000000000000000400000000000000000000003000000000000
def k_execArbWindow : Nat := 0x20000008000000000000000000000400000000000000000000403000058000000
def k_pollEnd : Nat := 0x20000000000000000000000000000400000000000000000000003000000000000
def k_execPollTimeout : Nat := 0x28000000000000000000000000000000000000000820020008000000000000000000000400030000000000000000403000058000000
def k_execSvcRx : Nat := 0x2800000000000000000000000000000000000000003fc80008000000000000000000000400030000000000000000403000058000000
def k_execDelayRequest : Nat := 0x20000008000000000000000000000000000000000000000000401000058000000
def k_execDelayRx : Nat := 0xa0000008000000000000000000000000000000000000000000401000058000000
def k_execDelayTimeout : Nat := 0x1000000000000
def k_enterEnum : Nat := 0x4000000000000000000000000000000000000000000000002000000000000
def k_listenDone : Nat := 0x4000000000000000000000000000000000000000000000002000000000000
def k_makeAbsent : Nat := 0x28000000000000000000000000000200300100068200000000000000000000000000000400030000000000000000000001100000000
def k_enterSync : Nat := 0x28000000000000000000000000000200300100068000004000000000000000000000000400030000000000000000006001100000000
def k_judgeDownload : Nat := 0x28000000000000000000000000000200300100068000004000000000000000000000000400030000000000000000006001100000000
def k_downloadFailed : Nat := 0x28000000000000000000000000000200300100068200020000000000000000000000000400030000000000000000006001100000000
def k_enterDownload : Nat := 0x28000000000000000000000000000200300100068200004000000000000000000000000400030000000000000000006001100000000
def k_execDiscoverRound : Nat := 0x28000000000000000000000000000200300100068200024000000000000000000000000400030000000000000000006001100000000
def k_ident : Nat := 0x28000000000000000000000000000000000000000200020000000000000000000000000400030000000000000000006000000000080
def k_schedAck : Nat := 0x28000000000000000000000000000200300100068200024000000000000000000000000400030000000000000000006001100000000
def k_execEnumRx : Nat := 0x2800000000000000000000000000020030010006821fca4008000000000000000000000400030000000000000000406001158000080
def k_roleTake : Nat := 0x20000000000000000000000000000000000000000000000000000000000000000000000000000480000000000000000
def k_startSeg : Nat := 0x20000000000000000000000000000000044000000000000000000000000000000000000000000480000000000000000
def k_rediscover : Nat := 0x2000000000000
def k_netCmdEff : Nat := 0x20000000000000000000000000000000044000000000000000000000000000000000000000000480202000000000000
def k_netCfgEff : Nat := 0x28000000000000000000000000000000000000000000002000000000000000000000000400030000000000000000000000000000000
def k_execSegmentStart : Nat := 0x2830000000002000000000000000000000000000000004400000000000000800000000060f43000000000c000480202000000000000
def k_execRedisc : Nat := 0x2830000000002000000000000000000000000000000004400000000000000800000000060f43000000000c000480202000000000000
def k_execSwitch : Nat := 0x2830000000002000000000000000000000000000000004400000000000000800000000060f43000000000c000480202000000000000
def k_linksTimeout : Nat := 0x4000000000000000000000000000000000000000000000000000000000000
def k_execDelayStateEnd : Nat := 0x4008000000000000000000000000000000000000000000002000000000000
def k_takeModeOf : Nat := 0x200300100138000000000000000000000000000000000000040000000000000000001100000000
def k_takeModes : Nat := 0x200300100138000000000000000000000000000000000000040000000000000000001100000000
def k_bootSuccess : Nat := 0x200300100138000000000000000000001120000000000000040000000000000000001100000000
def k_syncEnd : Nat := 0x200300100138200004000000000000001120000000000000040000000000000000001100000000
def k_execSyncEnd : Nat := 0x200300100138200004000000000000001120000000000000040000000000000000001100000000
def k_execSyncNodeTimeout : Nat := 0x28000000000000000000000000000200300100068200020000000000000000000000000400030000000000000000000001100000000
def k_execNodeLost : Nat := 0x28000000000000000000000000000200300100068200020000000000000000000000000400030000000000000000000001100000000
def k_execRediscover : Nat := 0x2000000000000
def k_execNodeAdopted : Nat := 0x28000000000000000000000000000000000000000200020000000000000000000000000400030000000000000000000000000000000
def k_loadGen : Nat := 0x3000090000000000000000000000000000000000000000000000080000000000000
def k_takeNext : Nat := 0x3000090000000000000000000000000000000000000000000000384000000000000
def k_offerNext : Nat := 0x10000000000000000000000000000000000000000000000306000000000000
def k_switchApply : Nat := 0x3000090000000000000000000000000000000000000000000000384000000000000
def k_execSchedSwitchApply : Nat := 0x3000090000000000000000000000000000000000000000000000384000000000000

theorem enqueue_touch (g : Nat) (typ : Nat) (pay : List (BitVec 8)) (s : State) : Touch k_enqueue s (enqueue g typ pay s) := by
  unfold enqueue
  repeat' first
    | ((first | lift_lets -underBinder | skip); with_reducible intro zz; first | (refine cut_k (Touch k_enqueue s zz) ?_ (fun _ => ?_); rotate_left; clear_value zz; rotate_right) | clear_value zz)
    | with_reducible exact Touch.refl
    | with_reducible assumption
    | decide
    | with_reducible apply Touch.then (State_setSeg_touch ..)
    | unfold zz; try dsimp -zeta only

theorem download_touch (g : Nat) (n : Nat) (x : SchedGen) (s : State) : Touch k_download s (download g n x s) := by
  unfold download
  repeat' first
    | with_reducible exact Touch.refl
    | with_reducible assumption
    | decide
    | with_reducible refine foldl_k (fun _ _ _ => ?_) ?_
    | with_reducible apply Touch.then (enqueue_touch ..)

theorem serve_touch (g b0 b1 : Nat) (b2 : State) : Touch k_serve b2 (serve g b0 b1 b2) := by
  induction b0 generalizing b1 b2 with
  | zero => unfold serve; exact Touch.refl
  | succ f ih =>
    unfold serve
    dsimp only
    repeat' first
      | with_reducible exact Touch.refl
      | with_reducible assumption
      | decide
      | with_reducible refine ite_k ?_ ?_
      | with_reducible apply Touch.then (ih ..)
      | with_reducible apply Touch.then (sendLine_touch ..)
      | with_reducible apply Touch.then (State_setSeg_touch ..)
      | with_reducible apply Touch.then (takeFreeBool_touch ..)
      | split
      | exact Touch.then (takeFreeBool_touch ..) (by decide) Touch.refl

theorem execArbWindow_touch (g : Bool) (i : BitVec 10) (s : State) : TouchX k_execArbWindow s (execArbWindow g i s) := by
  unfold execArbWindow
  repeat' first
    | ((first | lift_lets -underBinder | skip); with_reducible intro zz; first | (refine cut_k (Touch k_execArbWindow s zz) ?_ (fun _ => ?_); rotate_left; clear_value zz; rotate_right) | (refine cut_k (∀ t, Touch k_execArbWindow s t → Touch k_execArbWindow s (zz t)) (fun _ _ => ?_) (fun _ => ?_); rotate_left; clear_value zz; rotate_right) | (refine cut_k (∀ a t, Touch k_execArbWindow s t → Touch k_execArbWindow s (zz a t)) (fun _ _ _ => ?_) (fun _ => ?_); rotate_left; clear_value zz; rotate_right) | (refine cut_k (∀ a b t, Touch k_execArbWindow s t → Touch k_execArbWindow s (zz a b t)) (fun _ _ _ _ => ?_) (fun _ => ?_); rotate_left; clear_value zz; rotate_right) | (refine cut_k (∀ a b c d t, Touch k_execArbWindow s t → Touch k_execArbWindow s (zz a b c d t)) (fun _ _ _ _ _ _ => ?_) (fun _ => ?_); rotate_left; clear_value zz; rotate_right) | clear_value zz)
    | with_reducible exact Touch.refl
    | with_reducible assumption
    | decide
    | with_reducible refine touchX_next ?_
    | with_reducible refine ite_k ?_ ?_
    | with_reducible apply Touch.then (State_setSeg_touch ..)
    | with_reducible apply Touch.then (setNow_touch ..)
    | with_reducible apply Touch.then (serve_touch ..)
    | unfold zz; try dsimp -zeta only
    | with_reducible apply_assumption

theorem pollEnd_touch (g : Nat) (ofs : Nat) (s : State) : Touch k_pollEnd s (pollEnd g ofs s) := by
  unfold pollEnd
  repeat' first
    | ((first | lift_lets -underBinder | skip); with_reducible intro zz; first | (refine cut_k (Touch k_pollEnd s zz) ?_ (fun _ => ?_); rotate_left; clear_value zz; rotate_right) | clear_value zz)
    | with_reducible exact Touch.refl
    | with_reducible assumption
    | decide
    | with_reducible apply Touch.then (State_setSeg_touch ..)
    | with_reducible apply Touch.then (serve_touch ..)
    | unfold zz; try dsimp -zeta only
    | split

theorem execPollTimeout_touch (g : Bool) (at' : Nat) (s : State) : TouchX k_execPollTimeout s (execPollTimeout g at' s) := by
  unfold execPollTimeout
  repeat' first
    | ((first | lift_lets -underBinder | skip); with_reducible intro zz; first | (refine cut_k (Touch k_execPollTimeout s zz) ?_ (fun _ => ?_); rotate_left; clear_value zz; rotate_right) | clear_value zz)
    | with_reducible exact Touch.refl
    | with_reducible assumption
    | decide
    | with_reducible exact okw_NET_STATUS (by decide)
    | with_reducible exact okw_NODE_CNT (by decide)
    | with_reducible refine touchX_next ?_
    | with_reducible refine fincWrap_w ?_ ?_
    | with_reducible refine w1cSet_w ?_ ?_ ?_
    | with_reducible apply Touch.then (reachAt_touch ..)
    | with_reducible apply Touch.then (pollEnd_touch ..)
    | unfold zz; try dsimp -zeta only
    | split

theorem execSvcRx_touch (r : Rx) (s : State) : TouchX k_execSvcRx s (execSvcRx r s) := by
  unfold execSvcRx
  repeat' first
    | ((first | lift_lets -underBinder | skip); with_reducible intro zz; first | (refine cut_k (Touch k_execSvcRx s zz) ?_ (fun _ => ?_); rotate_left; clear_value zz; rotate_right) | (refine cut_k (Touch2 k_execSvcRx s zz) ?_ (fun _ => ?_); rotate_left; clear_value zz; rotate_right) | clear_value zz)
    | with_reducible exact Touch.refl
    | with_reducible assumption
    | decide
    | with_reducible refine touchX_next ?_
    | with_reducible refine ite_k ?_ ?_
    | with_reducible apply Touch.then (State_setSeg_touch ..)
    | with_reducible apply Touch.then2 (selectCopy_touch ..)
    | with_reducible apply Touch.then (countBad_touch ..)
    | with_reducible apply Touch.then (reachAt_touch ..)
    | with_reducible apply Touch.then (pollEnd_touch ..)
    | with_reducible refine Touch.snd ?_
    | unfold zz; try dsimp -zeta only
    | split
    | with_reducible refine touch2_mk ?_
    | exact touch_of2 rfl ‹Touch2 _ _ (_, _)›
    | refine touch_of2 (by assumption) ?_

theorem execDelayRequest_touch (p : NetPort) (at' : Nat) (s : State) : TouchX k_execDelayRequest s (execDelayRequest p at' s) := by
  unfold execDelayRequest
  repeat' first
    | ((first | lift_lets -underBinder | skip); with_reducible intro zz; first | (refine cut_k (Touch k_execDelayRequest s zz) ?_ (fun _ => ?_); rotate_left; clear_value zz; rotate_right) | clear_value zz)
    | with_reducible exact Touch.refl
    | with_reducible assumption
    | decide
    | with_reducible refine touchX_next ?_
    | with_reducible refine ite_k ?_ ?_
    | with_reducible apply Touch.then (State_setLink_touch ..)
    | with_reducible apply Touch.then (sendHop_touch ..)
    | with_reducible apply Touch.then (reachAt_touch ..)
    | unfold zz; try dsimp -zeta only

theorem execDelayRx_touch (p : NetPort) (op : BitVec 8) (seq : BitVec 8) (t1 : BitVec 64) (t2 : BitVec 64) (t3 : BitVec 64) (at' : Nat) (answer : Nat) (s : State) : TouchX k_execDelayRx s (execDelayRx p op seq t1 t2 t3 at' answer s) := by
  unfold execDelayRx
  repeat' first
    | ((first | lift_lets -underBinder | skip); with_reducible intro zz; first | (refine cut_k (Touch k_execDelayRx s zz) ?_ (fun _ => ?_); rotate_left; clear_value zz; rotate_right) | clear_value zz)
    | with_reducible exact Touch.refl
    | with_reducible assumption
    | decide
    | with_reducible exact okw_PORT_DELAY (by decide)
    | with_reducible refine touchX_next ?_
    | with_reducible refine ite_k ?_ ?_
    | with_reducible refine wrN_w ?_ ?_
    | with_reducible apply Touch.then (State_setLink_touch ..)
    | with_reducible apply Touch.then (sendHop_touch ..)
    | with_reducible apply Touch.then (reachAt_touch ..)
    | unfold zz; try dsimp -zeta only
    | split

theorem execDelayTimeout_touch (p : NetPort) (s : State) : TouchX k_execDelayTimeout s (execDelayTimeout p s) := by
  unfold execDelayTimeout
  repeat' first
    | with_reducible exact Touch.refl
    | with_reducible assumption
    | decide
    | with_reducible refine touchX_next ?_
    | with_reducible apply Touch.then (State_setLink_touch ..)

theorem enterEnum_touch (g : Nat) (s : State) : Touch k_enterEnum s (enterEnum g s) := by
  unfold enterEnum
  repeat' first
    | with_reducible exact Touch.refl
    | with_reducible assumption
    | decide
    | with_reducible apply Touch.then (State_setSeg_touch ..)
    | with_reducible apply Touch.then (setSegState_touch ..)

theorem listenDone_touch (s : State) : Touch k_listenDone s (listenDone s) := by
  unfold listenDone
  repeat' first
    | with_reducible exact Touch.refl
    | with_reducible assumption
    | decide
    | with_reducible refine ite_k ?_ ?_
    | with_reducible apply Touch.then (enterEnum_touch ..)
    | with_reducible refine eachN_k (fun _ _ _ => ?_) ?_

theorem makeAbsent_touch (g : Nat) (n : Nat) (s : State) : Touch k_makeAbsent s (makeAbsent g n s) := by
  unfold makeAbsent
  repeat' first
    | ((first | lift_lets -underBinder | skip); with_reducible intro zz; first | (refine cut_k (Touch k_makeAbsent s zz) ?_ (fun _ => ?_); rotate_left; clear_value zz; rotate_right) | (refine cut_k (∀ t, Touch k_makeAbsent s t → Touch k_makeAbsent s (zz t)) (fun _ _ => ?_) (fun _ => ?_); rotate_left; clear_value zz; rotate_right) | (refine cut_k (∀ a t, Touch k_makeAbsent s t → Touch k_makeAbsent s (zz a t)) (fun _ _ _ => ?_) (fun _ => ?_); rotate_left; clear_value zz; rotate_right) | (refine cut_k (∀ a b t, Touch k_makeAbsent s t → Touch k_makeAbsent s (zz a b t)) (fun _ _ _ _ => ?_) (fun _ => ?_); rotate_left; clear_value zz; rotate_right) | (refine cut_k (∀ a b c d t, Touch k_makeAbsent s t → Touch k_makeAbsent s (zz a b c d t)) (fun _ _ _ _ _ _ => ?_) (fun _ => ?_); rotate_left; clear_value zz; rotate_right) | clear_value zz)
    | with_reducible exact Touch.refl
    | with_reducible assumption
    | decide
    | with_reducible refine ite_k ?_ ?_
    | with_reducible apply Touch.then (setNodeState_touch ..)
    | with_reducible apply Touch.then (axesMissing_touch ..)
    | unfold zz; try dsimp -zeta only
    | with_reducible apply_assumption

theorem enterSync_touch (g : Nat) (s : State) : Touch k_enterSync s (enterSync g s) := by
  unfold enterSync
  repeat' first
    | ((first | lift_lets -underBinder | skip); with_reducible intro zz; first | (refine cut_k (Touch k_enterSync s zz) ?_ (fun _ => ?_); rotate_left; clear_value zz; rotate_right) | (refine cut_k (∀ t, Touch k_enterSync s t → Touch k_enterSync s (zz t)) (fun _ _ => ?_) (fun _ => ?_); rotate_left; clear_value zz; rotate_right) | (refine cut_k (∀ a t, Touch k_enterSync s t → Touch k_enterSync s (zz a t)) (fun _ _ _ => ?_) (fun _ => ?_); rotate_left; clear_value zz; rotate_right) | (refine cut_k (∀ a b t, Touch k_enterSync s t → Touch k_enterSync s (zz a b t)) (fun _ _ _ _ => ?_) (fun _ => ?_); rotate_left; clear_value zz; rotate_right) | (refine cut_k (∀ a b c d t, Touch k_enterSync s t → Touch k_enterSync s (zz a b c d t)) (fun _ _ _ _ _ _ => ?_) (fun _ => ?_); rotate_left; clear_value zz; rotate_right) | clear_value zz)
    | with_reducible exact Touch.refl
    | with_reducible assumption
    | decide
    | with_reducible apply Touch.then (State_setNode_touch ..)
    | with_reducible apply Touch.then (State_setSeg_touch ..)
    | with_reducible apply Touch.then (setSegState_touch ..)
    | with_reducible apply Touch.then (axesMissing_touch ..)
    | with_reducible refine eachN_k (fun _ _ _ => ?_) ?_
    | unfold zz; try dsimp -zeta only
    | with_reducible apply_assumption

theorem judgeDownload_touch (g : Nat) (s : State) : Touch k_judgeDownload s (judgeDownload g s) := by
  unfold judgeDownload
  repeat' first
    | with_reducible exact Touch.refl
    | with_reducible assumption
    | decide
    | with_reducible refine ite_k ?_ ?_
    | with_reducible apply Touch.then (enterSync_touch ..)

theorem downloadFailed_touch (g : Nat) (n : Nat) (s : State) : Touch k_downloadFailed s (downloadFailed g n s) := by
  unfold downloadFailed
  repeat' first
    | ((first | lift_lets -underBinder | skip); with_reducible intro zz; first | (refine cut_k (Touch k_downloadFailed s zz) ?_ (fun _ => ?_); rotate_left; clear_value zz; rotate_right) | clear_value zz)
    | with_reducible exact Touch.refl
    | with_reducible assumption
    | decide
    | with_reducible exact okw_NET_STATUS (by decide)
    | with_reducible refine ite_k ?_ ?_
    | with_reducible refine w1cSet_w ?_ ?_ ?_
    | with_reducible apply Touch.then (State_setNode_touch ..)
    | with_reducible apply Touch.then (setNodeState_touch ..)
    | with_reducible apply Touch.then (makeAbsent_touch ..)
    | with_reducible apply Touch.then (download_touch ..)
    | unfold zz; try dsimp -zeta only
    | split

theorem enterDownload_touch (g : Nat) (s : State) : Touch k_enterDownload s (enterDownload g s) := by
  unfold enterDownload
  repeat' first
    | ((first | lift_lets -underBinder | skip); with_reducible intro zz; first | (refine cut_k (Touch k_enterDownload s zz) ?_ (fun _ => ?_); rotate_left; clear_value zz; rotate_right) | (refine cut_k (∀ t, Touch k_enterDownload s t → Touch k_enterDownload s (zz t)) (fun _ _ => ?_) (fun _ => ?_); rotate_left; clear_value zz; rotate_right) | (refine cut_k (∀ a t, Touch k_enterDownload s t → Touch k_enterDownload s (zz a t)) (fun _ _ _ => ?_) (fun _ => ?_); rotate_left; clear_value zz; rotate_right) | (refine cut_k (∀ a b t, Touch k_enterDownload s t → Touch k_enterDownload s (zz a b t)) (fun _ _ _ _ => ?_) (fun _ => ?_); rotate_left; clear_value zz; rotate_right) | (refine cut_k (∀ a b c d t, Touch k_enterDownload s t → Touch k_enterDownload s (zz a b c d t)) (fun _ _ _ _ _ _ => ?_) (fun _ => ?_); rotate_left; clear_value zz; rotate_right) | clear_value zz)
    | with_reducible exact Touch.refl
    | with_reducible assumption
    | decide
    | with_reducible apply Touch.then (judgeDownload_touch ..)
    | with_reducible apply Touch.then (State_setNode_touch ..)
    | with_reducible apply Touch.then (setSegState_touch ..)
    | with_reducible apply Touch.then (makeAbsent_touch ..)
    | with_reducible apply Touch.then (download_touch ..)
    | with_reducible refine eachN_k (fun _ _ _ => ?_) ?_
    | unfold zz; try dsimp -zeta only
    | split
    | with_reducible apply_assumption

theorem execDiscoverRound_touch (g : Bool) (s : State) : TouchX k_execDiscoverRound s (execDiscoverRound g s) := by
  unfold execDiscoverRound
  repeat' first
    | ((first | lift_lets -underBinder | skip); with_reducible intro zz; first | (refine cut_k (Touch k_execDiscoverRound s zz) ?_ (fun _ => ?_); rotate_left; clear_value zz; rotate_right) | clear_value zz)
    | with_reducible exact Touch.refl
    | with_reducible assumption
    | decide
    | with_reducible refine touchX_next ?_
    | with_reducible refine ite_k ?_ ?_
    | with_reducible apply Touch.then (downloadFailed_touch ..)
    | with_reducible apply Touch.then (judgeDownload_touch ..)
    | with_reducible apply Touch.then (enterDownload_touch ..)
    | with_reducible apply Touch.then (State_setSeg_touch ..)
    | with_reducible apply Touch.then (enqueue_touch ..)
    | with_reducible refine eachN_k (fun _ _ _ => ?_) ?_
    | unfold zz; try dsimp -zeta only

theorem ident_touch (g : Nat) (r : Rx) (s : State) : Touch k_ident s (ident g r s) := by
  unfold ident
  repeat' first
    | ((first | lift_lets -underBinder | skip); with_reducible intro zz; first | (refine cut_k (okw k_ident zz) (by with_reducible first | exact okw_NET_STATUS (by decide) | exact okw_NODE_INFO (by decide)) (fun _ => ?_); clear_value zz) | (refine cut_k (Touch k_ident s zz) ?_ (fun _ => ?_); rotate_left; clear_value zz; rotate_right) | (refine cut_k (∀ t, Touch k_ident s t → Touch k_ident s (zz t)) (fun _ _ => ?_) (fun _ => ?_); rotate_left; clear_value zz; rotate_right) | (refine cut_k (∀ a t, Touch k_ident s t → Touch k_ident s (zz a t)) (fun _ _ _ => ?_) (fun _ => ?_); rotate_left; clear_value zz; rotate_right) | (refine cut_k (∀ a b t, Touch k_ident s t → Touch k_ident s (zz a b t)) (fun _ _ _ _ => ?_) (fun _ => ?_); rotate_left; clear_value zz; rotate_right) | (refine cut_k (∀ a b c d t, Touch k_ident s t → Touch k_ident s (zz a b c d t)) (fun _ _ _ _ _ _ => ?_) (fun _ => ?_); rotate_left; clear_value zz; rotate_right) | clear_value zz)
    | with_reducible exact Touch.refl
    | with_reducible assumption
    | decide
    | with_reducible exact okw_NET_STATUS (by decide)
    | with_reducible exact okw_NODE_INFO (by decide)
    | with_reducible refine ite_k ?_ ?_
    | with_reducible refine w1cSet_w ?_ ?_ ?_
    | with_reducible refine fset_w ?_ ?_
    | with_reducible apply Touch.then (State_setNode_touch ..)
    | with_reducible apply Touch.then (setNodeState_touch ..)
    | with_reducible apply Touch.then (State_setSeg_touch ..)
    | with_reducible apply Touch.then (State_setFb_touch ..)
    | with_reducible apply Touch.then (download_touch ..)
    | with_reducible apply Touch.then (enqueue_touch ..)
    | with_reducible refine eachN_k (fun _ _ _ => ?_) ?_
    | unfold zz; try dsimp -zeta only
    | split
    | with_reducible apply_assumption

theorem schedAck_touch (g : Nat) (r : Rx) (s : State) : Touch k_schedAck s (schedAck g r s) := by
  unfold schedAck
  repeat' first
    | ((first | lift_lets -underBinder | skip); with_reducible intro zz; first | (refine cut_k (Touch k_schedAck s zz) ?_ (fun _ => ?_); rotate_left; clear_value zz; rotate_right) | clear_value zz)
    | with_reducible exact Touch.refl
    | with_reducible assumption
    | decide
    | with_reducible refine ite_k ?_ ?_
    | with_reducible apply Touch.then (downloadFailed_touch ..)
    | with_reducible apply Touch.then (State_setNode_touch ..)
    | with_reducible apply Touch.then (judgeDownload_touch ..)
    | with_reducible apply Touch.then (download_touch ..)
    | unfold zz; try dsimp -zeta only
    | split

theorem execEnumRx_touch (r : Rx) (s : State) : TouchX k_execEnumRx s (execEnumRx r s) := by
  unfold execEnumRx
  repeat' first
    | ((first | lift_lets -underBinder | skip); with_reducible intro zz; first | (refine cut_k (Touch k_execEnumRx s zz) ?_ (fun _ => ?_); rotate_left; clear_value zz; rotate_right) | (refine cut_k (Touch2 k_execEnumRx s zz) ?_ (fun _ => ?_); rotate_left; clear_value zz; rotate_right) | clear_value zz)
    | with_reducible exact Touch.refl
    | with_reducible assumption
    | decide
    | with_reducible refine touchX_next ?_
    | with_reducible refine ite_k ?_ ?_
    | with_reducible apply Touch.then2 (selectCopy_touch ..)
    | with_reducible apply Touch.then (countBad_touch ..)
    | with_reducible apply Touch.then (schedAck_touch ..)
    | with_reducible apply Touch.then (reachAt_touch ..)
    | with_reducible apply Touch.then (ident_touch ..)
    | with_reducible refine Touch.snd ?_
    | unfold zz; try dsimp -zeta only
    | split
    | with_reducible refine touch2_mk ?_
    | exact touch_of2 rfl ‹Touch2 _ _ (_, _)›
    | refine touch_of2 (by assumption) ?_

theorem roleTake_touch (s : State) : Touch k_roleTake s (roleTake s) := by
  unfold roleTake
  simp -zeta -beta -eta only [mk_eq]
  repeat' first
    | ((first | lift_lets -underBinder | skip); with_reducible intro zz; first | ((first | (have _q : PairSt := zz; clear _q)); dsimp -zeta only [zz]; clear zz) | (refine cut_k (Touch k_roleTake s zz) ?_ (fun _ => ?_); rotate_left; clear_value zz; rotate_right) | clear_value zz)
    | with_reducible exact Touch.refl
    | with_reducible assumption
    | decide
    | with_reducible exact okw_PAIR_STATUS (by decide)
    | with_reducible refine ite_k ?_ ?_
    | with_reducible refine fset_w ?_ ?_
    | unfold zz; try dsimp -zeta only
    | with_reducible apply Touch.then (upd_pairreq ..)
    | with_reducible apply Touch.then (upd_pairwait ..)

theorem startSeg_touch (g : Nat) (s : State) : Touch k_startSeg s (startSeg g s) := by
  unfold startSeg
  repeat' first
    | ((first | lift_lets -underBinder | skip); with_reducible intro zz; first | (refine cut_k (Touch k_startSeg s zz) ?_ (fun _ => ?_); rotate_left; clear_value zz; rotate_right) | (refine cut_k (∀ t, Touch k_startSeg s t → Touch k_startSeg s (zz t)) (fun _ _ => ?_) (fun _ => ?_); rotate_left; clear_value zz; rotate_right) | (refine cut_k (∀ a t, Touch k_startSeg s t → Touch k_startSeg s (zz a t)) (fun _ _ _ => ?_) (fun _ => ?_); rotate_left; clear_value zz; rotate_right) | (refine cut_k (∀ a b t, Touch k_startSeg s t → Touch k_startSeg s (zz a b t)) (fun _ _ _ _ => ?_) (fun _ => ?_); rotate_left; clear_value zz; rotate_right) | (refine cut_k (∀ a b c d t, Touch k_startSeg s t → Touch k_startSeg s (zz a b c d t)) (fun _ _ _ _ _ _ => ?_) (fun _ => ?_); rotate_left; clear_value zz; rotate_right) | clear_value zz)
    | with_reducible exact Touch.refl
    | with_reducible assumption
    | decide
    | with_reducible exact okw_PORT_CTRL (by decide)
    | with_reducible refine ite_k ?_ ?_
    | with_reducible refine fput_w ?_ ?_
    | with_reducible apply Touch.then (setSegState_touch ..)
    | with_reducible apply Touch.then (linksDone_touch ..)
    | with_reducible apply Touch.then (roleTake_touch ..)
    | with_reducible refine eachN_k (fun _ _ _ => ?_) ?_
    | unfold zz; try dsimp -zeta only
    | with_reducible apply_assumption

theorem rediscover_touch (g : Nat) (s : State) : Touch k_rediscover s (rediscover g s) := by
  unfold rediscover
  repeat' first
    | with_reducible exact Touch.refl
    | with_reducible assumption
    | decide
    | with_reducible refine ite_k ?_ ?_
    | with_reducible apply Touch.then (State_setSeg_touch ..)
    | with_reducible apply Touch.then (enqueue_touch ..)

theorem netCmdEff_touch (v : Word) (s : State) : TouchO k_netCmdEff s (netCmdEff v s) := by
  unfold netCmdEff
  simp -zeta -beta -eta only [mk_eq]
  repeat' first
    | ((first | lift_lets -underBinder | skip); with_reducible intro zz; first | ((first | (have _q : NetSt := zz; clear _q)); dsimp -zeta only [zz]; clear zz) | (refine cut_k (Touch k_netCmdEff s zz) ?_ (fun _ => ?_); rotate_left; clear_value zz; rotate_right) | (refine cut_k (TouchO k_netCmdEff s zz) ?_ (fun _ => ?_); rotate_left; clear_value zz; rotate_right) | clear_value zz)
    | with_reducible exact Touch.refl
    | with_reducible assumption
    | decide
    | with_reducible exact touchO_none
    | with_reducible refine touchO_some ?_
    | with_reducible refine touchO_map ?_ (fun _ _ => ?_)
    | with_reducible refine touch_getD ?_ ?_
    | with_reducible refine ite_k ?_ ?_
    | with_reducible apply Touch.then (rediscover_touch ..)
    | with_reducible apply Touch.then (startSeg_touch ..)
    | unfold zz; try dsimp -zeta only
    | exact touch_ofO rfl ‹TouchO _ _ (some _)›
    | with_reducible refine touchO_map' (fun _ => ?_)
    | refine touch_ofO (by assumption) ?_
    | with_reducible apply Touch.then (upd_netarmed ..)

theorem netCfgEff_touch (v : Word) (s : State) : TouchO k_netCfgEff s (netCfgEff v s) := by
  unfold netCfgEff
  repeat' first
    | with_reducible exact Touch.refl
    | with_reducible assumption
    | decide
    | with_reducible exact okw_NET_CFG (by decide)
    | with_reducible exact touchO_none
    | with_reducible refine touchO_some ?_
    | with_reducible refine touchO_map ?_ (fun _ _ => ?_)
    | with_reducible refine touch_getD ?_ ?_
    | with_reducible refine ite_k ?_ ?_
    | with_reducible refine plainEff_w ?_ ?_
    | with_reducible apply Touch.then (sedRule_touch ..)
    | exact touch_ofO rfl ‹TouchO _ _ (some _)›
    | with_reducible refine touchO_map' (fun _ => ?_)
    | refine touch_ofO (by assumption) ?_

theorem execSegmentStart_touch (w : Who) (g : Bool) (s : State) : TouchX k_execSegmentStart s (execSegmentStart w g s) := by
  unfold execSegmentStart
  repeat' first
    | ((first | lift_lets -underBinder | skip); with_reducible intro zz; first | (refine cut_k (Touch k_execSegmentStart s zz) ?_ (fun _ => ?_); rotate_left; clear_value zz; rotate_right) | (refine cut_k (TouchO k_execSegmentStart s zz) ?_ (fun _ => ?_); rotate_left; clear_value zz; rotate_right) | clear_value zz)
    | with_reducible exact Touch.refl
    | with_reducible assumption
    | decide
    | with_reducible refine touchX_next ?_
    | with_reducible exact touchO_none
    | with_reducible refine touchO_some ?_
    | with_reducible refine touchO_map ?_ (fun _ _ => ?_)
    | with_reducible refine touch_getD ?_ ?_
    | with_reducible refine ite_k ?_ ?_
    | with_reducible apply Touch.thenO (netCmdEff_touch ..)
    | with_reducible refine gated_k ?_ ?_ ?_
    | unfold zz; try dsimp -zeta only
    | exact touch_ofO rfl ‹TouchO _ _ (some _)›
    | with_reducible refine touchO_map' (fun _ => ?_)
    | refine touch_ofO (by assumption) ?_

theorem execRedisc_touch (w : Who) (s : State) : TouchX k_execRedisc s (execRedisc w s) := by
  unfold execRedisc
  repeat' first
    | with_reducible exact Touch.refl
    | with_reducible assumption
    | decide
    | with_reducible refine touchX_next ?_
    | with_reducible exact touchO_none
    | with_reducible refine touchO_some ?_
    | with_reducible refine touchO_map ?_ (fun _ _ => ?_)
    | with_reducible refine touch_getD ?_ ?_
    | with_reducible apply Touch.thenO (netCmdEff_touch ..)
    | with_reducible refine gated_k ?_ ?_ ?_
    | exact touch_ofO rfl ‹TouchO _ _ (some _)›
    | with_reducible refine touchO_map' (fun _ => ?_)
    | refine touch_ofO (by assumption) ?_

theorem execSwitch_touch (w : Who) (s : State) : TouchX k_execSwitch s (execSwitch w s) := by
  unfold execSwitch
  repeat' first
    | with_reducible exact Touch.refl
    | with_reducible assumption
    | decide
    | with_reducible refine touchX_next ?_
    | with_reducible exact touchO_none
    | with_reducible refine touchO_some ?_
    | with_reducible refine touchO_map ?_ (fun _ _ => ?_)
    | with_reducible refine touch_getD ?_ ?_
    | with_reducible apply Touch.thenO (netCmdEff_touch ..)
    | with_reducible refine gated_k ?_ ?_ ?_
    | exact touch_ofO rfl ‹TouchO _ _ (some _)›
    | with_reducible refine touchO_map' (fun _ => ?_)
    | refine touch_ofO (by assumption) ?_

theorem linksTimeout_touch (g : Nat) (s : State) : Touch k_linksTimeout s (linksTimeout g s) := by
  unfold linksTimeout
  repeat' first
    | with_reducible exact Touch.refl
    | with_reducible assumption
    | decide
    | with_reducible refine ite_k ?_ ?_
    | with_reducible apply Touch.then (setSegState_touch ..)

theorem execDelayStateEnd_touch (g : Bool) (s : State) : TouchX k_execDelayStateEnd s (execDelayStateEnd g s) := by
  unfold execDelayStateEnd
  repeat' first
    | ((first | lift_lets -underBinder | skip); with_reducible intro zz; first | (refine cut_k (okw k_execDelayStateEnd zz) (by with_reducible first | exact okw_TIME_STATUS (by decide)) (fun _ => ?_); clear_value zz) | (refine cut_k (Touch k_execDelayStateEnd s zz) ?_ (fun _ => ?_); rotate_left; clear_value zz; rotate_right) | (refine cut_k (∀ t, Touch k_execDelayStateEnd s t → Touch k_execDelayStateEnd s (zz t)) (fun _ _ => ?_) (fun _ => ?_); rotate_left; clear_value zz; rotate_right) | (refine cut_k (∀ a t, Touch k_execDelayStateEnd s t → Touch k_execDelayStateEnd s (zz a t)) (fun _ _ _ => ?_) (fun _ => ?_); rotate_left; clear_value zz; rotate_right) | (refine cut_k (∀ a b t, Touch k_execDelayStateEnd s t → Touch k_execDelayStateEnd s (zz a b t)) (fun _ _ _ _ => ?_) (fun _ => ?_); rotate_left; clear_value zz; rotate_right) | (refine cut_k (∀ a b c d t, Touch k_execDelayStateEnd s t → Touch k_execDelayStateEnd s (zz a b c d t)) (fun _ _ _ _ _ _ => ?_) (fun _ => ?_); rotate_left; clear_value zz; rotate_right) | clear_value zz)
    | with_reducible exact Touch.refl
    | with_reducible assumption
    | decide
    | with_reducible exact okw_TIME_STATUS (by decide)
    | with_reducible refine touchX_next ?_
    | with_reducible refine ite_k ?_ ?_
    | with_reducible refine fset_w ?_ ?_
    | with_reducible apply Touch.then (setSegState_touch ..)
    | with_reducible apply Touch.then (listenDone_touch ..)
    | unfold zz; try dsimp -zeta only
    | with_reducible apply_assumption

theorem takeModeOf_touch (l : List Nat) (s : State) : Touch k_takeModeOf s (takeModeOf l s) := by
  unfold takeModeOf
  simp -zeta -beta -eta only [mk_eq]
  repeat' first
    | ((first | lift_lets -underBinder | skip); with_reducible intro zz; first | ((first | (have _q : BootSt := zz; clear _q)); dsimp -zeta only [zz]; clear zz) | (refine cut_k (Touch k_takeModeOf s zz) ?_ (fun _ => ?_); rotate_left; clear_value zz; rotate_right) | (refine cut_k (TouchO k_takeModeOf s zz) ?_ (fun _ => ?_); rotate_left; clear_value zz; rotate_right) | clear_value zz)
    | with_reducible exact Touch.refl
    | with_reducible assumption
    | decide
    | with_reducible exact touchO_none
    | with_reducible refine touchO_some ?_
    | with_reducible refine touchO_map ?_ (fun _ _ => ?_)
    | with_reducible refine touch_getD ?_ ?_
    | with_reducible refine ite_k ?_ ?_
    | with_reducible apply Touch.thenO (axCtrlEff_touch ..)
    | with_reducible refine eachN_k (fun _ _ _ => ?_) ?_
    | split
    | exact touch_ofO rfl ‹TouchO _ _ (some _)›
    | with_reducible refine touchO_map' (fun _ => ?_)
    | refine touch_ofO (by assumption) ?_
    | with_reducible apply Touch.then (upd_bootautoWait ..)

theorem takeModes_touch (g : Nat) (s : State) : Touch k_takeModes s (takeModes g s) := by
  unfold takeModes
  repeat' first
    | with_reducible exact Touch.refl
    | with_reducible assumption
    | decide
    | with_reducible apply Touch.then (takeModeOf_touch ..)

theorem bootSuccess_touch (s : State) : Touch k_bootSuccess s (bootSuccess s) := by
  unfold bootSuccess
  repeat' first
    | ((first | lift_lets -underBinder | skip); with_reducible intro zz; first | (refine cut_k (Touch k_bootSuccess s zz) ?_ (fun _ => ?_); rotate_left; clear_value zz; rotate_right) | clear_value zz)
    | with_reducible exact Touch.refl
    | with_reducible assumption
    | decide
    | with_reducible exact okw_BOOT_STATUS (by decide)
    | with_reducible exact okw_BOOT_TIME (by decide)
    | with_reducible refine ite_k ?_ ?_
    | with_reducible refine fput_w ?_ ?_
    | with_reducible refine fset_w ?_ ?_
    | with_reducible apply Touch.then (startTornErase_touch ..)
    | with_reducible apply Touch.then (takeModeOf_touch ..)
    | unfold zz; try dsimp -zeta only

theorem syncEnd_touch (g : Nat) (s : State) : Touch k_syncEnd s (syncEnd g s) := by
  unfold syncEnd
  repeat' first
    | ((first | lift_lets -underBinder | skip); with_reducible intro zz; first | (refine cut_k (Touch k_syncEnd s zz) ?_ (fun _ => ?_); rotate_left; clear_value zz; rotate_right) | (refine cut_k (∀ t, Touch k_syncEnd s t → Touch k_syncEnd s (zz t)) (fun _ _ => ?_) (fun _ => ?_); rotate_left; clear_value zz; rotate_right) | (refine cut_k (∀ a t, Touch k_syncEnd s t → Touch k_syncEnd s (zz a t)) (fun _ _ _ => ?_) (fun _ => ?_); rotate_left; clear_value zz; rotate_right) | (refine cut_k (∀ a b t, Touch k_syncEnd s t → Touch k_syncEnd s (zz a b t)) (fun _ _ _ _ => ?_) (fun _ => ?_); rotate_left; clear_value zz; rotate_right) | (refine cut_k (∀ a b c d t, Touch k_syncEnd s t → Touch k_syncEnd s (zz a b c d t)) (fun _ _ _ _ _ _ => ?_) (fun _ => ?_); rotate_left; clear_value zz; rotate_right) | clear_value zz)
    | with_reducible exact Touch.refl
    | with_reducible assumption
    | decide
    | with_reducible refine ite_k ?_ ?_
    | with_reducible apply Touch.then (setNodeState_touch ..)
    | with_reducible apply Touch.then (setSegState_touch ..)
    | with_reducible apply Touch.then (bootSuccess_touch ..)
    | with_reducible apply Touch.then (takeModes_touch ..)
    | with_reducible refine eachN_k (fun _ _ _ => ?_) ?_
    | unfold zz; try dsimp -zeta only
    | with_reducible apply_assumption

theorem execSyncEnd_touch (g : Bool) (s : State) : TouchX k_execSyncEnd s (execSyncEnd g s) := by
  unfold execSyncEnd
  repeat' first
    | with_reducible exact Touch.refl
    | with_reducible assumption
    | decide
    | with_reducible refine touchX_next ?_
    | with_reducible apply Touch.then (syncEnd_touch ..)

theorem execSyncNodeTimeout_touch (n : BitVec 7) (s : State) : TouchX k_execSyncNodeTimeout s (execSyncNodeTimeout n s) := by
  unfold execSyncNodeTimeout
  repeat' first
    | ((first | lift_lets -underBinder | skip); with_reducible intro zz; first | (refine cut_k (Touch k_execSyncNodeTimeout s zz) ?_ (fun _ => ?_); rotate_left; clear_value zz; rotate_right) | clear_value zz)
    | with_reducible exact Touch.refl
    | with_reducible assumption
    | decide
    | with_reducible exact okw_NET_STATUS (by decide)
    | with_reducible refine touchX_next ?_
    | with_reducible refine ite_k ?_ ?_
    | with_reducible refine w1cSet_w ?_ ?_ ?_
    | with_reducible apply Touch.then (makeAbsent_touch ..)
    | unfold zz; try dsimp -zeta only

theorem execNodeLost_touch (n : BitVec 7) (s : State) : TouchX k_execNodeLost s (execNodeLost n s) := by
  unfold execNodeLost
  repeat' first
    | with_reducible exact Touch.refl
    | with_reducible assumption
    | decide
    | with_reducible refine touchX_next ?_
    | with_reducible apply Touch.then (judgeLost_touch ..)

theorem execRediscover_touch (s : State) : TouchX k_execRediscover s (execRediscover s) := by
  unfold execRediscover
  repeat' first
    | with_reducible exact Touch.refl
    | with_reducible assumption
    | decide
    | with_reducible refine touchX_next ?_
    | with_reducible refine ite_k ?_ ?_
    | with_reducible apply Touch.then (rediscover_touch ..)
    | with_reducible refine eachN_k (fun _ _ _ => ?_) ?_

theorem execNodeAdopted_touch (n : BitVec 7) (s : State) : TouchX k_execNodeAdopted s (execNodeAdopted n s) := by
  unfold execNodeAdopted
  repeat' first
    | ((first | lift_lets -underBinder | skip); with_reducible intro zz; first | (refine cut_k (Touch k_execNodeAdopted s zz) ?_ (fun _ => ?_); rotate_left; clear_value zz; rotate_right) | clear_value zz)
    | with_reducible exact Touch.refl
    | with_reducible assumption
    | decide
    | with_reducible exact okw_NET_STATUS (by decide)
    | with_reducible refine touchX_next ?_
    | with_reducible refine ite_k ?_ ?_
    | with_reducible refine w1cSet_w ?_ ?_ ?_
    | with_reducible apply Touch.then (setNodeState_touch ..)
    | unfold zz; try dsimp -zeta only

theorem loadGen_touch (x : SchedGen) (s : State) : Touch k_loadGen s (loadGen x s) := by
  unfold loadGen
  simp -zeta -beta -eta only [mk_eq]
  repeat' first
    | ((first | lift_lets -underBinder | skip); with_reducible intro zz; first | ((first | (have _q : NetSt := zz; clear _q)); dsimp -zeta only [zz]; clear zz) | (refine cut_k (Touch k_loadGen s zz) ?_ (fun _ => ?_); rotate_left; clear_value zz; rotate_right) | clear_value zz)
    | with_reducible exact Touch.refl
    | with_reducible assumption
    | decide
    | with_reducible exact okw_SCHED_TABLE (by decide)
    | with_reducible exact fun _ => okw_SCHED_TABLE (by decide)
    | with_reducible exact okw_POLL_TABLE (by decide)
    | with_reducible exact fun _ => okw_POLL_TABLE (by decide)
    | with_reducible exact okw_NET_SGEN (by decide)
    | with_reducible refine foldl_k (fun _ _ _ => ?_) ?_
    | with_reducible refine wrAll_w ?_ ?_
    | with_reducible refine fset_w ?_ ?_
    | with_reducible apply Touch.then (rejudge_touch ..)
    | with_reducible refine eachN_k (fun _ _ _ => ?_) ?_
    | unfold zz; try dsimp -zeta only
    | with_reducible apply Touch.then (upd_netgen ..)

theorem takeNext_touch (s : State) : Touch k_takeNext s (takeNext s) := by
  unfold takeNext
  simp -zeta -beta -eta only [mk_eq]
  repeat' first
    | ((first | lift_lets -underBinder | skip); with_reducible intro zz; first | ((first | (have _q : NetSt := zz; clear _q)); dsimp -zeta only [zz]; clear zz) | (refine cut_k (Touch k_takeNext s zz) ?_ (fun _ => ?_); rotate_left; clear_value zz; rotate_right) | clear_value zz)
    | with_reducible exact Touch.refl
    | with_reducible assumption
    | decide
    | with_reducible exact okw_NET_SGEN (by decide)
    | with_reducible refine fset_w ?_ ?_
    | with_reducible apply Touch.then (State_setNode_touch ..)
    | with_reducible apply Touch.then (loadGen_touch ..)
    | with_reducible refine eachN_k (fun _ _ _ => ?_) ?_
    | unfold zz; try dsimp -zeta only
    | split
    | with_reducible apply Touch.then (upd_netarmed_netnext ..)

theorem offerNext_touch (x : SchedGen) (s : State) : Touch k_offerNext s (offerNext x s) := by
  unfold offerNext
  simp -zeta -beta -eta only [mk_eq]
  repeat' first
    | ((first | lift_lets -underBinder | skip); with_reducible intro zz; first | ((first | (have _q : NetSt := zz; clear _q)); dsimp -zeta only [zz]; clear zz) | (refine cut_k (Touch k_offerNext s zz) ?_ (fun _ => ?_); rotate_left; clear_value zz; rotate_right) | clear_value zz)
    | with_reducible exact Touch.refl
    | with_reducible assumption
    | decide
    | with_reducible exact okw_NET_SGEN (by decide)
    | with_reducible refine ite_k ?_ ?_
    | with_reducible refine fset_w ?_ ?_
    | with_reducible apply Touch.then (State_setNode_touch ..)
    | with_reducible apply Touch.then (download_touch ..)
    | with_reducible refine eachN_k (fun _ _ _ => ?_) ?_
    | unfold zz; try dsimp -zeta only
    | with_reducible apply Touch.then (upd_netarmed_netnext ..)

theorem switchApply_touch (s : State) : Touch k_switchApply s (switchApply s) := by
  unfold switchApply
  repeat' first
    | with_reducible exact Touch.refl
    | with_reducible assumption
    | decide
    | with_reducible refine ite_k ?_ ?_
    | with_reducible apply Touch.then (takeNext_touch ..)

theorem execSchedSwitchApply_touch (s : State) : TouchX k_execSchedSwitchApply s (execSchedSwitchApply s) := by
  unfold execSchedSwitchApply
  repeat' first
    | with_reducible exact Touch.refl
    | with_reducible assumption
    | decide
    | with_reducible refine touchX_next ?_
    | with_reducible apply Touch.then (switchApply_touch ..)

end Sys2Proof.Laws
end

