-- ==== Sys2Proof/Laws/TouchTimeUnit.lean ====
section
/-! SUPPORT. What each operation of Machine/TimeUnit.lean can touch: one lemma per operation, by footprint (Laws/Touch.lean). -/

set_option linter.unusedTactic false
set_option linter.unreachableTactic false
set_option linter.unusedSimpArgs false
set_option linter.unusedVariables false

namespace Sys2Proof.Laws
open Sys2Proof Sys2Proof.Machine R

/-! Footprints. -/
def k_execTimeWrap : Nat := 0x8000000000000000000000000000000000000000000400000058000000
def k_execEraUpdate : Nat := 0x8000000000000000000000000000000000000000000000000000000000
def k_applyInc : Nat := 0x2000000000000000
def k_becomeMaster : Nat := 0x28000000000000000000000000000000000000000022000000000000000
def k_becomeSlave : Nat := 0x2800000000000000000000000000000000000000003c000000000000000
def k_execRefTx : Nat := 0x20000000000000000000000000000000000000000000000000001000000000000
def k_execListenEnd : Nat := 0x4028000000000000000000000000000000000000000023402000040000000
def k_servo : Nat := 0x2800000000000000000000000000000000000000000000005a00000000000000000000040003000000000000001ec00000040000000
def k_dropLead : Nat := 0x28000000000020000000002080000000000000000000000000000000000000000000000400030000000000000080000020000000000
def k_judgeRank : Nat := 0x280000000000200000000020800000000000000000000000280000000000000000000004000300000000000000bc000020000000000
def k_useRef : Nat := 0x2800000000000000000000000000000000000000300009007a00000000000000000000040003000000000000003ef84000040000000
def k_execRefRx : Nat := 0x2800000000002000000000208000000000000000301fc9407a0000000000000000000004000300000000000000bef86020040000000
def k_execRefWindowMiss : Nat := 0x28000000000000000000000000000000000000000000000088000000000000000000000400030000000000000020000000000000000
def k_execRefBackupStart : Nat := 0x28000000000000000000000000000000000000000000000028000000000000000000000400030000000000000022000000000000000
def k_setPtpState : Nat := 0x200000000000000000000000000000000000000000000000000000000000
def k_ptpSend : Nat := 0x40000000000000000
def k_ptpDecide : Nat := 0x200000000000000000000000000000000000000000000000000000000000
def k_ptpSteer : Nat := 0x28000000000000000000000000000000000000000000000201800000000000000000000400030000000000000002000000000000000
def k_ptpOffset : Nat := 0x28000000000000000000000000000000000000000000000601800000000000000000000400030000000000000042000000000000000
def k_execPtpMessageRx : Nat := 0x28000000000000000000000000000000000000000000000609800000000000000000000400030000000000000042400000058000000
def k_execPtpSyncTx : Nat := 0x208000000000000000000000000000000000000000040400000058000000
def k_execPtpDelayRequest : Nat := 0x8000000000000000000000000000000000000000040400000058000000
def k_ptpCtrlEff : Nat := 0x300000000000000000000000000000000000000000040000000000000000

theorem execTimeWrap_touch (s : State) : TouchX k_execTimeWrap s (execTimeWrap s) := by
  unfold execTimeWrap
  repeat' first
    | ((first | lift_lets -underBinder | skip); with_reducible intro zz; first | (refine cut_k (Touch k_execTimeWrap s zz) ?_ (fun _ => ?_); rotate_left; clear_value zz; rotate_right) | clear_value zz)
    | with_reducible exact Touch.refl
    | with_reducible assumption
    | decide
    | with_reducible refine touchX_next ?_
    | with_reducible refine ite_k ?_ ?_
    | with_reducible apply Touch.then (setNow_touch ..)
    | unfold zz; try dsimp -zeta only

theorem execEraUpdate_touch (s : State) : TouchX k_execEraUpdate s (execEraUpdate s) := by
  unfold execEraUpdate
  repeat' first
    | with_reducible exact Touch.refl
    | with_reducible assumption
    | decide
    | with_reducible exact okw_TIME_STATUS (by decide)
    | with_reducible refine touchX_next ?_
    | with_reducible refine fset_w ?_ ?_

theorem applyInc_touch (s : State) : Touch k_applyInc s (applyInc s) := by
  unfold applyInc
  simp -zeta -beta -eta only [mk_eq]
  repeat' first
    | ((first | lift_lets -underBinder | skip); with_reducible intro zz; first | ((first | (have _q : TimeSt := zz; clear _q)); dsimp -zeta only [zz]; clear zz) | (refine cut_k (Touch k_applyInc s zz) ?_ (fun _ => ?_); rotate_left; clear_value zz; rotate_right) | clear_value zz)
    | with_reducible exact Touch.refl
    | with_reducible assumption
    | decide
    | with_reducible refine ite_k ?_ ?_
    | unfold zz; try dsimp -zeta only
    | with_reducible apply Touch.then (upd_timeinc ..)

theorem becomeMaster_touch (s : State) : Touch k_becomeMaster s (becomeMaster s) := by
  unfold becomeMaster
  simp -zeta -beta -eta only [mk_eq]
  repeat' first
    | ((first | lift_lets -underBinder | skip); with_reducible intro zz; first | ((first | (have _q : TimeSt := zz; clear _q)); dsimp -zeta only [zz]; clear zz) | (refine cut_k (Touch k_becomeMaster s zz) ?_ (fun _ => ?_); rotate_left; clear_value zz; rotate_right) | clear_value zz)
    | with_reducible exact Touch.refl
    | with_reducible assumption
    | decide
    | with_reducible exact okw_TIME_STATUS (by decide)
    | with_reducible exact okw_TIME_MSERIAL (by decide)
    | with_reducible refine fset_w ?_ ?_
    | with_reducible refine wr_w ?_ ?_
    | with_reducible apply Touch.then (applyInc_touch ..)
    | unfold zz; try dsimp -zeta only
    | with_reducible apply Touch.then (upd_timemissed ..)

theorem becomeSlave_touch (r : Nat) (serial : Nat) (s : State) : Touch k_becomeSlave s (becomeSlave r serial s) := by
  unfold becomeSlave
  simp -zeta -beta -eta only [mk_eq]
  repeat' first
    | ((first | lift_lets -underBinder | skip); with_reducible intro zz; first | ((first | (have _q : TimeSt := zz; clear _q)); dsimp -zeta only [zz]; clear zz) | (refine cut_k (Touch k_becomeSlave s zz) ?_ (fun _ => ?_); rotate_left; clear_value zz; rotate_right) | clear_value zz)
    | with_reducible exact Touch.refl
    | with_reducible assumption
    | decide
    | with_reducible exact okw_TIME_STATUS (by decide)
    | with_reducible exact okw_TIME_MSERIAL (by decide)
    | with_reducible refine fput_w ?_ ?_
    | with_reducible refine fset_w ?_ ?_
    | with_reducible refine wrN_w ?_ ?_
    | unfold zz; try dsimp -zeta only
    | with_reducible apply Touch.then (upd_timefar_timeinteg_timemissed_timenear ..)

theorem execRefTx_touch (g : Bool) (dep : BitVec 10) (s : State) : TouchX k_execRefTx s (execRefTx g dep s) := by
  unfold execRefTx
  repeat' first
    | with_reducible exact Touch.refl
    | with_reducible assumption
    | decide
    | with_reducible refine touchX_next ?_
    | with_reducible refine ite_k ?_ ?_
    | with_reducible apply Touch.then (sendLine_touch ..)

theorem execListenEnd_touch (s : State) : TouchX k_execListenEnd s (execListenEnd s) := by
  unfold execListenEnd
  simp -zeta -beta -eta only [mk_eq]
  repeat' first
    | ((first | lift_lets -underBinder | skip); with_reducible intro zz; first | ((first | (have _q : SchSt := zz; clear _q) | (have _q : TimeSt := zz; clear _q)); dsimp -zeta only [zz]; clear zz) | (refine cut_k (Touch k_execListenEnd s zz) ?_ (fun _ => ?_); rotate_left; clear_value zz; rotate_right) | clear_value zz)
    | with_reducible exact Touch.refl
    | with_reducible assumption
    | decide
    | with_reducible refine touchX_next ?_
    | with_reducible refine ite_k ?_ ?_
    | with_reducible apply Touch.then (becomeMaster_touch ..)
    | with_reducible apply Touch.then (listenDone_touch ..)
    | unfold zz; try dsimp -zeta only
    | with_reducible apply Touch.then (upd_schsampled_timens ..)
    | with_reducible apply Touch.then (upd_timegrid ..)

theorem servo_touch (off : Int) (tx : Nat) (cyc : Nat) (s : State) : Touch k_servo s (servo off tx cyc s) := by
  unfold servo
  simp -zeta -beta -eta only [mk_eq]
  repeat' first
    | ((first | lift_lets -underBinder | skip); with_reducible intro zz; first | ((first | (have _q : SchSt := zz; clear _q) | (have _q : TimeSt := zz; clear _q)); dsimp -zeta only [zz]; clear zz) | (refine cut_k (okw k_servo zz) (by with_reducible first | exact okw_TIME_OFS (by decide) | exact okw_TIME_STATUS (by decide) | exact okw_TIME_ADJ (by decide)) (fun _ => ?_); clear_value zz) | (refine cut_k (Touch k_servo s zz) ?_ (fun _ => ?_); rotate_left; clear_value zz; rotate_right) | clear_value zz)
    | with_reducible exact Touch.refl
    | with_reducible assumption
    | decide
    | with_reducible exact okw_TIME_OFS (by decide)
    | with_reducible exact okw_TIME_STATUS (by decide)
    | with_reducible exact okw_TIME_ADJ (by decide)
    | with_reducible refine ite_k ?_ ?_
    | with_reducible refine w1cSet_w ?_ ?_ ?_
    | with_reducible refine fput_w ?_ ?_
    | with_reducible refine wrN_w ?_ ?_
    | with_reducible apply Touch.then (applyInc_touch ..)
    | with_reducible apply Touch.then (setCyc_touch ..)
    | unfold zz; try dsimp -zeta only
    | with_reducible apply Touch.then (upd_schsampled_timefar_timeinteg_timenear_timens_timestart ..)
    | with_reducible apply Touch.then (upd_timeinteg ..)
    | with_reducible apply Touch.then (upd_timefar_timenear ..)

theorem dropLead_touch (s : State) : Touch k_dropLead s (dropLead s) := by
  unfold dropLead
  simp -zeta -beta -eta only [mk_eq]
  repeat' first
    | ((first | lift_lets -underBinder | skip); with_reducible intro zz; first | ((first | (have _q : PairSt := zz; clear _q)); dsimp -zeta only [zz]; clear zz) | (refine cut_k (Touch k_dropLead s zz) ?_ (fun _ => ?_); rotate_left; clear_value zz; rotate_right) | clear_value zz)
    | with_reducible exact Touch.refl
    | with_reducible assumption
    | decide
    | with_reducible exact okw_PAIR_STATUS (by decide)
    | with_reducible refine ite_k ?_ ?_
    | with_reducible refine w1cSet_w ?_ ?_ ?_
    | with_reducible refine fset_w ?_ ?_
    | with_reducible apply Touch.then (stopLead_touch ..)
    | with_reducible apply Touch.then (upd_pairreq ..)

theorem judgeRank_touch (r : Nat) (serial : Nat) (s : State) : Touch2 k_judgeRank s (judgeRank r serial s) := by
  unfold judgeRank
  repeat' first
    | ((first | lift_lets -underBinder | skip); with_reducible intro zz; first | (refine cut_k (Touch k_judgeRank s zz) ?_ (fun _ => ?_); rotate_left; clear_value zz; rotate_right) | (refine cut_k (Touch2 k_judgeRank s zz) ?_ (fun _ => ?_); rotate_left; clear_value zz; rotate_right) | (refine cut_k (∀ t, Touch k_judgeRank s t → Touch k_judgeRank s (zz t)) (fun _ _ => ?_) (fun _ => ?_); rotate_left; clear_value zz; rotate_right) | (refine cut_k (∀ a t, Touch k_judgeRank s t → Touch k_judgeRank s (zz a t)) (fun _ _ _ => ?_) (fun _ => ?_); rotate_left; clear_value zz; rotate_right) | (refine cut_k (∀ a b t, Touch k_judgeRank s t → Touch k_judgeRank s (zz a b t)) (fun _ _ _ _ => ?_) (fun _ => ?_); rotate_left; clear_value zz; rotate_right) | (refine cut_k (∀ a b c d t, Touch k_judgeRank s t → Touch k_judgeRank s (zz a b c d t)) (fun _ _ _ _ _ _ => ?_) (fun _ => ?_); rotate_left; clear_value zz; rotate_right) | clear_value zz)
    | with_reducible exact Touch.refl
    | with_reducible assumption
    | decide
    | with_reducible exact okw_TIME_STATUS (by decide)
    | with_reducible refine ite_k ?_ ?_
    | with_reducible refine w1cSet_w ?_ ?_ ?_
    | with_reducible apply Touch.then (becomeSlave_touch ..)
    | with_reducible apply Touch.then (dropLead_touch ..)
    | with_reducible refine Touch.snd ?_
    | unfold zz; try dsimp -zeta only
    | with_reducible apply_assumption
    | with_reducible refine touch2_mk ?_
    | exact touch_of2 rfl ‹Touch2 _ _ (_, _)›
    | refine touch_of2 (by assumption) ?_

theorem useRef_touch (r : Rx) (s : State) : Touch k_useRef s (useRef r s) := by
  unfold useRef
  simp -zeta -beta -eta only [mk_eq]
  repeat' first
    | ((first | lift_lets -underBinder | skip); with_reducible intro zz; first | ((first | (have _q : TimeSt := zz; clear _q)); dsimp -zeta only [zz]; clear zz) | (refine cut_k (okw k_useRef zz) (by with_reducible first | exact okw_TIME_STATUS (by decide) | exact okw_TIME_MSERIAL (by decide)) (fun _ => ?_); clear_value zz) | (refine cut_k (Touch k_useRef s zz) ?_ (fun _ => ?_); rotate_left; clear_value zz; rotate_right) | clear_value zz)
    | with_reducible exact Touch.refl
    | with_reducible assumption
    | decide
    | with_reducible exact okw_TIME_STATUS (by decide)
    | with_reducible exact okw_TIME_MSERIAL (by decide)
    | with_reducible refine ite_k ?_ ?_
    | with_reducible refine fset_w ?_ ?_
    | with_reducible refine wrN_w ?_ ?_
    | with_reducible apply Touch.then (becomeMaster_touch ..)
    | with_reducible apply Touch.then (takeNext_touch ..)
    | with_reducible apply Touch.then (servo_touch ..)
    | unfold zz; try dsimp -zeta only
    | with_reducible apply Touch.then (upd_timemissed ..)

theorem execRefRx_touch (r : Rx) (s : State) : TouchX k_execRefRx s (execRefRx r s) := by
  unfold execRefRx
  repeat' first
    | ((first | lift_lets -underBinder | skip); with_reducible intro zz; first | (refine cut_k (Touch k_execRefRx s zz) ?_ (fun _ => ?_); rotate_left; clear_value zz; rotate_right) | (refine cut_k (Touch2 k_execRefRx s zz) ?_ (fun _ => ?_); rotate_left; clear_value zz; rotate_right) | clear_value zz)
    | with_reducible exact Touch.refl
    | with_reducible assumption
    | decide
    | with_reducible refine touchX_next ?_
    | with_reducible refine ite_k ?_ ?_
    | with_reducible apply Touch.then (becomeSlave_touch ..)
    | with_reducible apply Touch.then2 (selectCopy_touch ..)
    | with_reducible apply Touch.then (listenDone_touch ..)
    | with_reducible apply Touch.then2 (judgeRank_touch ..)
    | with_reducible apply Touch.then (countBad_touch ..)
    | with_reducible apply Touch.then (useRef_touch ..)
    | with_reducible refine Touch.snd ?_
    | unfold zz; try dsimp -zeta only
    | split
    | with_reducible refine touch2_mk ?_
    | exact touch_of2 rfl ‹Touch2 _ _ (_, _)›
    | refine touch_of2 (by assumption) ?_

theorem execRefWindowMiss_touch (s : State) : TouchX k_execRefWindowMiss s (execRefWindowMiss s) := by
  unfold execRefWindowMiss
  simp -zeta -beta -eta only [mk_eq]
  repeat' first
    | ((first | lift_lets -underBinder | skip); with_reducible intro zz; first | ((first | (have _q : TimeSt := zz; clear _q)); dsimp -zeta only [zz]; clear zz) | (refine cut_k (Touch k_execRefWindowMiss s zz) ?_ (fun _ => ?_); rotate_left; clear_value zz; rotate_right) | clear_value zz)
    | with_reducible exact Touch.refl
    | with_reducible assumption
    | decide
    | with_reducible exact okw_TIME_STATUS (by decide)
    | with_reducible exact okw_REF_MISS_CNT (by decide)
    | with_reducible refine touchX_next ?_
    | with_reducible refine ite_k ?_ ?_
    | with_reducible refine w1cSet_w ?_ ?_ ?_
    | with_reducible refine wrN_w ?_ ?_
    | unfold zz; try dsimp -zeta only
    | with_reducible apply Touch.then (upd_timemissed ..)

theorem execRefBackupStart_touch (s : State) : TouchX k_execRefBackupStart s (execRefBackupStart s) := by
  unfold execRefBackupStart
  repeat' first
    | ((first | lift_lets -underBinder | skip); with_reducible intro zz; first | (refine cut_k (Touch k_execRefBackupStart s zz) ?_ (fun _ => ?_); rotate_left; clear_value zz; rotate_right) | clear_value zz)
    | with_reducible exact Touch.refl
    | with_reducible assumption
    | decide
    | with_reducible exact okw_TIME_STATUS (by decide)
    | with_reducible refine touchX_next ?_
    | with_reducible refine ite_k ?_ ?_
    | with_reducible refine w1cSet_w ?_ ?_ ?_
    | with_reducible apply Touch.then (becomeMaster_touch ..)
    | unfold zz; try dsimp -zeta only

theorem setPtpState_touch (x : Nat) (s : State) : Touch k_setPtpState s (setPtpState x s) := by
  unfold setPtpState
  repeat' first
    | with_reducible exact Touch.refl
    | with_reducible assumption
    | decide
    | with_reducible exact okw_PTP_STATUS (by decide)
    | with_reducible refine fset_w ?_ ?_

theorem ptpSend_touch (m : List (BitVec 8)) (s : State) : Touch k_ptpSend s (ptpSend m s) := by
  unfold ptpSend
  simp -zeta -beta -eta only [mk_eq]
  repeat' first
    | ((first | lift_lets -underBinder | skip); with_reducible intro zz; first | ((first | (have _q : TimeSt := zz; clear _q)); dsimp -zeta only [zz]; clear zz) | (refine cut_k (Touch k_ptpSend s zz) ?_ (fun _ => ?_); rotate_left; clear_value zz; rotate_right) | clear_value zz)
    | with_reducible exact Touch.refl
    | with_reducible assumption
    | decide
    | with_reducible apply Touch.then (upd_timeptp ..)

theorem ptpDecide_touch (s : State) : Touch k_ptpDecide s (ptpDecide s) := by
  unfold ptpDecide
  repeat' first
    | with_reducible exact Touch.refl
    | with_reducible assumption
    | decide
    | with_reducible refine ite_k ?_ ?_
    | with_reducible apply Touch.then (setPtpState_touch ..)
    | split

theorem ptpSteer_touch (ofs : Int) (s : State) : Touch k_ptpSteer s (ptpSteer ofs s) := by
  unfold ptpSteer
  repeat' first
    | ((first | lift_lets -underBinder | skip); with_reducible intro zz; first | (refine cut_k (okw k_ptpSteer zz) (by with_reducible first | exact okw_PTP_STATUS (by decide) | exact okw_TIME_INC_HI (by decide) | exact okw_TIME_INC_LO (by decide)) (fun _ => ?_); clear_value zz) | (refine cut_k (Touch k_ptpSteer s zz) ?_ (fun _ => ?_); rotate_left; clear_value zz; rotate_right) | (refine cut_k (Touch2 k_ptpSteer s zz) ?_ (fun _ => ?_); rotate_left; clear_value zz; rotate_right) | clear_value zz)
    | with_reducible exact Touch.refl
    | with_reducible assumption
    | decide
    | with_reducible exact okw_PTP_STATUS (by decide)
    | with_reducible exact okw_TIME_INC_HI (by decide)
    | with_reducible exact okw_TIME_INC_LO (by decide)
    | with_reducible refine ite_k ?_ ?_
    | with_reducible refine w1cSet_w ?_ ?_ ?_
    | with_reducible refine fset_w ?_ ?_
    | with_reducible refine wrN_w ?_ ?_
    | with_reducible apply Touch.then2 (takeFree_touch ..)
    | with_reducible apply Touch.then (applyInc_touch ..)
    | with_reducible refine Touch.snd ?_
    | unfold zz; try dsimp -zeta only
    | split
    | with_reducible refine touch2_mk ?_
    | exact touch_of2 rfl ‹Touch2 _ _ (_, _)›
    | refine touch_of2 (by assumption) ?_

theorem ptpOffset_touch (t1 : Int) (t2 : Int) (s : State) : Touch k_ptpOffset s (ptpOffset t1 t2 s) := by
  unfold ptpOffset
  simp -zeta -beta -eta only [mk_eq]
  repeat' first
    | ((first | lift_lets -underBinder | skip); with_reducible intro zz; first | ((first | (have _q : TimeSt := zz; clear _q)); dsimp -zeta only [zz]; clear zz) | (refine cut_k (okw k_ptpOffset zz) (by with_reducible first | exact okw_PTP_OFS (by decide) | exact okw_PTP_STATUS (by decide)) (fun _ => ?_); clear_value zz) | (refine cut_k (Touch k_ptpOffset s zz) ?_ (fun _ => ?_); rotate_left; clear_value zz; rotate_right) | clear_value zz)
    | with_reducible exact Touch.refl
    | with_reducible assumption
    | decide
    | with_reducible exact okw_PTP_OFS (by decide)
    | with_reducible exact okw_PTP_STATUS (by decide)
    | with_reducible refine ite_k ?_ ?_
    | with_reducible refine fput_w ?_ ?_
    | with_reducible refine wrN_w ?_ ?_
    | with_reducible apply Touch.then (ptpSteer_touch ..)
    | unfold zz; try dsimp -zeta only
    | with_reducible apply Touch.then (upd_timeptp ..)

theorem execPtpMessageRx_touch (domain : BitVec 8) (m : PtpMsg) (at' : Nat) (s : State) : TouchX k_execPtpMessageRx s (execPtpMessageRx domain m at' s) := by
  unfold execPtpMessageRx
  simp -zeta -beta -eta only [mk_eq]
  repeat' first
    | ((first | lift_lets -underBinder | skip); with_reducible intro zz; first | ((first | (have _q : TimeSt := zz; clear _q)); dsimp -zeta only [zz]; clear zz) | (refine cut_k (Touch k_execPtpMessageRx s zz) ?_ (fun _ => ?_); rotate_left; clear_value zz; rotate_right) | (refine cut_k (∀ t, Touch k_execPtpMessageRx s t → Touch k_execPtpMessageRx s (zz t)) (fun _ _ => ?_) (fun _ => ?_); rotate_left; clear_value zz; rotate_right) | (refine cut_k (∀ a t, Touch k_execPtpMessageRx s t → Touch k_execPtpMessageRx s (zz a t)) (fun _ _ _ => ?_) (fun _ => ?_); rotate_left; clear_value zz; rotate_right) | (refine cut_k (∀ a b t, Touch k_execPtpMessageRx s t → Touch k_execPtpMessageRx s (zz a b t)) (fun _ _ _ _ => ?_) (fun _ => ?_); rotate_left; clear_value zz; rotate_right) | (refine cut_k (∀ a b c d t, Touch k_execPtpMessageRx s t → Touch k_execPtpMessageRx s (zz a b c d t)) (fun _ _ _ _ _ _ => ?_) (fun _ => ?_); rotate_left; clear_value zz; rotate_right) | clear_value zz)
    | with_reducible exact Touch.refl
    | with_reducible assumption
    | decide
    | with_reducible refine touchX_next ?_
    | with_reducible refine ite_k ?_ ?_
    | with_reducible apply Touch.then (setPtpState_touch ..)
    | with_reducible apply Touch.then (ptpOffset_touch ..)
    | with_reducible apply Touch.then (ptpDecide_touch ..)
    | with_reducible apply Touch.then (reachAt_touch ..)
    | with_reducible apply Touch.then (ptpSend_touch ..)
    | unfold zz; try dsimp -zeta only
    | split
    | with_reducible apply_assumption
    | with_reducible apply Touch.then (upd_timeptp ..)

theorem execPtpSyncTx_touch (at' : Nat) (s : State) : TouchX k_execPtpSyncTx s (execPtpSyncTx at' s) := by
  unfold execPtpSyncTx
  simp -zeta -beta -eta only [mk_eq]
  repeat' first
    | ((first | lift_lets -underBinder | skip); with_reducible intro zz; first | ((first | (have _q : TimeSt := zz; clear _q)); dsimp -zeta only [zz]; clear zz) | (refine cut_k (Touch k_execPtpSyncTx s zz) ?_ (fun _ => ?_); rotate_left; clear_value zz; rotate_right) | (refine cut_k (∀ t, Touch k_execPtpSyncTx s t → Touch k_execPtpSyncTx s (zz t)) (fun _ _ => ?_) (fun _ => ?_); rotate_left; clear_value zz; rotate_right) | (refine cut_k (∀ a t, Touch k_execPtpSyncTx s t → Touch k_execPtpSyncTx s (zz a t)) (fun _ _ _ => ?_) (fun _ => ?_); rotate_left; clear_value zz; rotate_right) | (refine cut_k (∀ a b t, Touch k_execPtpSyncTx s t → Touch k_execPtpSyncTx s (zz a b t)) (fun _ _ _ _ => ?_) (fun _ => ?_); rotate_left; clear_value zz; rotate_right) | (refine cut_k (∀ a b c d t, Touch k_execPtpSyncTx s t → Touch k_execPtpSyncTx s (zz a b c d t)) (fun _ _ _ _ _ _ => ?_) (fun _ => ?_); rotate_left; clear_value zz; rotate_right) | clear_value zz)
    | with_reducible exact Touch.refl
    | with_reducible assumption
    | decide
    | with_reducible refine touchX_next ?_
    | with_reducible refine ite_k ?_ ?_
    | with_reducible apply Touch.then (setPtpState_touch ..)
    | with_reducible apply Touch.then (reachAt_touch ..)
    | with_reducible apply Touch.then (ptpSend_touch ..)
    | unfold zz; try dsimp -zeta only
    | with_reducible apply_assumption
    | with_reducible apply Touch.then (upd_timeptp ..)

theorem execPtpDelayRequest_touch (at' : Nat) (s : State) : TouchX k_execPtpDelayRequest s (execPtpDelayRequest at' s) := by
  unfold execPtpDelayRequest
  simp -zeta -beta -eta only [mk_eq]
  repeat' first
    | ((first | lift_lets -underBinder | skip); with_reducible intro zz; first | ((first | (have _q : TimeSt := zz; clear _q)); dsimp -zeta only [zz]; clear zz) | (refine cut_k (Touch k_execPtpDelayRequest s zz) ?_ (fun _ => ?_); rotate_left; clear_value zz; rotate_right) | clear_value zz)
    | with_reducible exact Touch.refl
    | with_reducible assumption
    | decide
    | with_reducible refine touchX_next ?_
    | with_reducible refine ite_k ?_ ?_
    | with_reducible apply Touch.then (reachAt_touch ..)
    | with_reducible apply Touch.then (ptpSend_touch ..)
    | unfold zz; try dsimp -zeta only
    | with_reducible apply Touch.then (upd_timeptp ..)

theorem ptpCtrlEff_touch (v : Word) (s : State) : TouchO k_ptpCtrlEff s (ptpCtrlEff v s) := by
  unfold ptpCtrlEff
  simp -zeta -beta -eta only [mk_eq]
  repeat' first
    | ((first | lift_lets -underBinder | skip); with_reducible intro zz; first | ((first | (have _q : TimeSt := zz; clear _q)); dsimp -zeta only [zz]; clear zz) | (refine cut_k (Touch k_ptpCtrlEff s zz) ?_ (fun _ => ?_); rotate_left; clear_value zz; rotate_right) | (refine cut_k (TouchO k_ptpCtrlEff s zz) ?_ (fun _ => ?_); rotate_left; clear_value zz; rotate_right) | clear_value zz)
    | with_reducible exact Touch.refl
    | with_reducible assumption
    | decide
    | with_reducible exact okw_PTP_CTRL (by decide)
    | with_reducible exact okw_PTP_STATUS (by decide)
    | with_reducible exact touchO_none
    | with_reducible refine touchO_some ?_
    | with_reducible refine touchO_map ?_ (fun _ _ => ?_)
    | with_reducible refine touch_getD ?_ ?_
    | with_reducible refine ite_k ?_ ?_
    | with_reducible refine plainEff_w ?_ ?_
    | with_reducible refine fput_w ?_ ?_
    | with_reducible apply Touch.then (setPtpState_touch ..)
    | with_reducible apply Touch.then (ptpDecide_touch ..)
    | unfold zz; try dsimp -zeta only
    | split
    | exact touch_ofO rfl ‹TouchO _ _ (some _)›
    | with_reducible refine touchO_map' (fun _ => ?_)
    | refine touch_ofO (by assumption) ?_
    | with_reducible apply Touch.then (upd_timeptp ..)

end Sys2Proof.Laws
end

