-- ==== Sys2Proof/Laws/TouchSafetyZones.lean ====
section
/-! SUPPORT. What each operation of Machine/SafetyZones.lean can touch: one lemma per operation, by footprint (Laws/Touch.lean). -/

set_option linter.unusedTactic false
set_option linter.unreachableTactic false
set_option linter.unusedSimpArgs false
set_option linter.unusedVariables false

namespace Sys2Proof.Laws
open Sys2Proof Sys2Proof.Machine R

/-! Footprints. -/
def k_State_setZone : Nat := 0x1000000000000000000000000
def k_modCh : Nat := 0x1000000000000000000000000
def k_showZone : Nat := 0x10000000000000000000000000000000000000000000000000000000000000000000000000000000000000000000000000
def k_setZst : Nat := 0x20010000000000000000000000000000000000000000000000000000000000000000000000001000000000000000000000000
def k_forceZone : Nat := 0x2084000000000000000000000000000000000000000000000000000000000000000000000020000000000
def k_edmExpect : Nat := 0x1000000000000000000000000
def k_withLines : Nat := 0x20000000000000002084000200300100038000000000000000000000000000000000000000001000000000000021100000000
def k_setLine : Nat := 0x20000000000000002084000200300100038000000000000000000000000000000000000000001000000000000021100000000
def k_lineVeto : Nat := 0x20000000000000002084000200300100038000000000000000000000000000000000000000001000000000000021100000000
def k_showSafe : Nat := 0x400000000000000000000000000000000000000000000000000000000000000000000000000000000000000000000000000000
def k_safeLog : Nat := 0x30040100000000000000000000000000000000000000000000000000000800000000000e40000400000c000000000000000000000
def k_showSessions : Nat := 0x1000000000000000000000000000000000000000000000000000000000000000000000000000000000000000000000000000000
def k_logSession : Nat := 0x30000000000000000000000000000000000000000000000000000000000800000000000e40000000000c000000000000000000000
def k_dropSession : Nat := 0x34100000000000000000000000000000000000000000000000000000000800000000000e42000000000c000000000000000000000
def k_dropStaged : Nat := 0x10000000000000000000000000000000000000000000000000000000000000000000000100000000000000000000000000
def k_closeSafety : Nat := 0x34140101000000000000000000000000000000000000000000000000000800000000000e42000430000c000000000000000000000
def k_endStop : Nat := 0x20000000000000000000000000000000000000000000000000000000000000000000000000000000000000000000000000000
def k_zoneFault : Nat := 0x28000060010000000000002084000200300100038000000000000000000000000000000400030000001000000000000021100000000
def k_deviceFault : Nat := 0x2834142101000000000000208400020030010003800000000000000000000800000000040e4300043c100c000000000021100000000
def k_execDeviceFault : Nat := 0x2834142101000000000000208400020030010003800000000000000000000800000000040e4300043c100c000000000021100000000
def k_requestStops : Nat := 0x1000000000
def k_evalCh : Nat := 0x20010000000000002084000200300100038000000000000000000000000000000000000000001000000000000021100000000
def k_evalZone : Nat := 0x60010000000000002084000200300100038000000000000000000000000000000000000000001000000000000021100000000
def k_settleStop : Nat := 0x60010000000000002084000200300100038000000000000000000000000000000000000000001000000000000021100000000
def k_showDemand : Nat := 0x100000000000000000000000000000000000000000000000000000000000000000000000000000000000000000000000000000
def k_evalMask : Nat := 0x60010000000000002084000200300100038000000000000000000000000000000000000000001000000000000021100000000
def k_execSafetyInputEdge : Nat := 0x160010000000000002084000200300100038000000000000000000000000000000000000000003000000000000021100000000
def k_execDiscTimeout : Nat := 0x28000160010000000000002084000200300100038000000000000000000000000000000400030000001000000000000021100000000
def k_execAckRisingEdge : Nat := 0x1000000000000000000000000
def k_ackWidth : Nat := 0x400000000000000000000000000000000000
def k_execAckPulse : Nat := 0x28000020000000000000000000000000000000000000000000000000000000000000000400030000001000000000000000000000000
def k_execAckStuck : Nat := 0x28000020000000000000000000000000000000000000000000000000000000000000000400030000000000000000000000000000000
def k_execAckWithdraw : Nat := 0x28000020000000000000000000000000000000000000000000000000000000000000000400030000001000000000000000000000000
def k_bothFault : Nat := 0x28000060010000000000002084000200300100038000000000000000000000000000000400030000001000000000000021100000000
def k_checkEdm : Nat := 0x28000060010000000000002084000200300100038000000000000000000000000000000400030000001000000000000021100000000
def k_execEdmChange : Nat := 0x28000060010000000000002084000200300100038000000000000000000000000000000400030000001000000000000021100000000
def k_execEdmTimeout : Nat := 0x28000060010000000000002084000200300100038000000000000000000000000000000400030000001000000000000021100000000
def k_execCrossFrameTx : Nat := 0x400000000000000000000000000000000000000000000000000000000000000000000001000000000c000000000000000000000000
def k_adoptZone : Nat := 0x28000060010000000000002084000200300100038000000000000000000000000000000400030000001000000000000021100000000
def k_execCrossFrameRx : Nat := 0x2834146181000000000000208400020030010003800000000000000000000800000000040e4300043f100c000000000021100000000
def k_execCrossLinkLost : Nat := 0x2834142101000000000000208400020030010003800000000000000000000800000000040e4300043c100c000000000021100000000
def k_execXcomp : Nat := 0x28000060010000000000002084000200300100038000000000000000000000000000000400030000001000000000000021100000000
def k_goDark : Nat := 0x20000000000000002084000200300100038000000000000000000000000000000000000000001000000000000021100000000
def k_execDarkPulseStart : Nat := 0x20000000000000002084000200300100038000000000000000000000000000000000000000001000000000000021100000000
def k_execDarkPulseEnd : Nat := 0x28000060010000000000002084000200300100038000000000000000000000000000000400030000001000000000000021100000000
def k_execDarkPulseReadback : Nat := 0x28000060010000000000002084000200300100038000000000000000000000000000000400030000001000000000000021100000000
def k_execOuttestTimeout : Nat := 0x28000060010000000000002084000200300100038000000000000000000000000000000400030000001000000000000021100000000
def k_execReadbackLowWhileOn : Nat := 0x28000060010000000000002084000200300100038000000000000000000000000000000400030000001000000000000021100000000
def k_execStandstill : Nat := 0x60010000000000002084000200300100038000000000000000000000000000000000000000001000000000000021100000000
def k_execSs1Timeout : Nat := 0x60010000000000002084000200300100038000000000000000000000000000000000000000001000000000000021100000000
def k_execZoneFaultCleared : Nat := 0x20010000000000002084000200300100038000000000000000000000000000000000000000001000000000000021100000000
def k_safeWordEff : Nat := 0x10000000000000000000000000000000000000000000000000000000000000000000000100000000000000000000000000
def k_safeResult : Nat := 0x200000000000000000000000000000000000000000000000000000000000000000000000000000000000000000000000000
def k_logCmd : Nat := 0x30040100000000000000000000000000000000000000000000000000000800000000000e40000400000c000000000000000000000
def k_safeCommitDo : Nat := 0x30040124000000000000000000000000000000000000000000000000000800000000000e40000400000c000000000000000000000
def k_safeConfirmNo : Nat := 0x30040120000000000000000000000000000000000000000000000000000800000000000e40000400000c000000000000000000000
def k_safeConfirmDo : Nat := 0x30040120000000000000000000000000000000000000000000000000000900000000000e40000440000c000000000000000000000
def k_safeCmdEff : Nat := 0x34140125000000000000000000000000000000000000000000000000000900000000000e42000470000c000000000000000000000
def k_execSafeCommit : Nat := 0x2834140125000000000000000000000000000000000000000000000000000900000000060f43000470000c000000000000000000000
def k_execSafeConfirm : Nat := 0x2834140125000000000000000000000000000000000000000000000000000900000000060f43000470000c000000000000000000000
def k_execSafeDiscard : Nat := 0x2834140125000000000000000000000000000000000000000000000000000900000000060f43000470000c000000000000000000000
def k_execSafeClose : Nat := 0x2834140125000000000000000000000000000000000000000000000000000900000000060f43000470000c000000000000000000000
def k_restartZone : Nat := 0x20010000000000002084000200300100038000000000000000000000000000000000000000001000000000000021100000000
def k_clearTest : Nat := 0x100000000000000000000000000000000000000000000000000000000000000000000000000002000000000000000000000000
def k_applyConfirm : Nat := 0x80030056103000000000000208400020030010003800000000000000000000800000000000e40000610300c000000000021100000000
def k_execSessionTimeout : Nat := 0x34140101000000000000000000000000000000000000000000000000000800000000000e42000430000c000000000000000000000
def k_execLockoutEnd : Nat := 0x410000000000000000000000000000000000000000000000000000000000000000000001800000000000000000000000000

theorem State_setZone_touch (s : State) (z : Nat) (x : ZoneSt) : Touch k_State_setZone s (State.setZone s z x) := by
  unfold State.setZone
  simp -zeta -beta -eta only [mk_eq]
  repeat' first
    | ((first | lift_lets -underBinder | skip); with_reducible intro zz; first | ((first | (have _q : SafetySt := zz; clear _q)); dsimp -zeta only [zz]; clear zz) | (refine cut_k (Touch k_State_setZone s zz) ?_ (fun _ => ?_); rotate_left; clear_value zz; rotate_right) | clear_value zz)
    | with_reducible exact Touch.refl
    | with_reducible assumption
    | decide
    | with_reducible apply Touch.then (upd_safezone ..)

theorem modCh_touch (b : Bool) (z : Nat) (f : ZoneCh → ZoneCh) (s : State) : Touch k_modCh s (modCh b z f s) := by
  unfold modCh
  repeat' first
    | ((first | lift_lets -underBinder | skip); with_reducible intro zz; first | (refine cut_k (Touch k_modCh s zz) ?_ (fun _ => ?_); rotate_left; clear_value zz; rotate_right) | clear_value zz)
    | with_reducible exact Touch.refl
    | with_reducible assumption
    | decide
    | with_reducible apply Touch.then (State_setZone_touch ..)
    | unfold zz; try dsimp -zeta only

theorem showZone_touch (z : Nat) (s : State) : Touch k_showZone s (showZone z s) := by
  unfold showZone
  repeat' first
    | ((first | lift_lets -underBinder | skip); with_reducible intro zz; first | (refine cut_k (Touch k_showZone s zz) ?_ (fun _ => ?_); rotate_left; clear_value zz; rotate_right) | clear_value zz)
    | with_reducible exact Touch.refl
    | with_reducible assumption
    | decide
    | with_reducible exact okw_SAFE_STATUS (by decide)
    | with_reducible refine fput_w ?_ ?_
    | unfold zz; try dsimp -zeta only

theorem setZst_touch (b : Bool) (z : Nat) (st : Nat) (s : State) : Touch k_setZst s (setZst b z st s) := by
  unfold setZst
  repeat' first
    | ((first | lift_lets -underBinder | skip); with_reducible intro zz; first | (refine cut_k (Touch k_setZst s zz) ?_ (fun _ => ?_); rotate_left; clear_value zz; rotate_right) | clear_value zz)
    | with_reducible exact Touch.refl
    | with_reducible assumption
    | decide
    | with_reducible exact okw_SZ_STATUS (by decide)
    | with_reducible refine ite_k ?_ ?_
    | with_reducible refine fset_w ?_ ?_
    | with_reducible apply Touch.then (showZone_touch ..)
    | with_reducible apply Touch.then (modCh_touch ..)
    | unfold zz; try dsimp -zeta only

theorem forceZone_touch (z : Nat) (s : State) : Touch k_forceZone s (forceZone z s) := by
  unfold forceZone
  repeat' first
    | ((first | lift_lets -underBinder | skip); with_reducible intro zz; first | (refine cut_k (Touch k_forceZone s zz) ?_ (fun _ => ?_); rotate_left; clear_value zz; rotate_right) | clear_value zz)
    | with_reducible exact Touch.refl
    | with_reducible assumption
    | decide
    | with_reducible refine ite_k ?_ ?_
    | with_reducible apply Touch.then (forceModule_touch ..)
    | with_reducible apply Touch.then (forceOut_touch ..)
    | with_reducible refine eachN_k (fun _ _ _ => ?_) ?_
    | unfold zz; try dsimp -zeta only

theorem edmExpect_touch (z : Nat) (lvl : Bool) (s : State) : Touch k_edmExpect s (edmExpect z lvl s) := by
  unfold edmExpect
  repeat' first
    | ((first | lift_lets -underBinder | skip); with_reducible intro zz; first | (refine cut_k (Touch k_edmExpect s zz) ?_ (fun _ => ?_); rotate_left; clear_value zz; rotate_right) | clear_value zz)
    | with_reducible exact Touch.refl
    | with_reducible assumption
    | decide
    | with_reducible refine ite_k ?_ ?_
    | with_reducible apply Touch.then (State_setZone_touch ..)
    | unfold zz; try dsimp -zeta only

theorem withLines_k {m : Nat} {r : State} {z : Nat} {f : State → State} {s : State} (hm : k_withLines &&& m = k_withLines) (hf : ∀ t, Touch m r t → Touch m r (f t))
    (hs : Touch m r s) : Touch m r (withLines z f s) := by
  unfold withLines
  dsimp only
  have hr : ∀ (b : Bool) t, Touch m r t → Touch m r (if (pinOn s b z == pinOn t b z) = true then t else fput t (SZ_STATUS z) (rbFld b) (pinOn t b z)) :=
    fun b t h => ite_k h (fput_w h (okw_mono (m := k_withLines) hm (okw_SZ_STATUS (by decide))))
  have ht := hr true _ (hr false _ (hf s hs))
  repeat' first
    | with_reducible assumption
    | with_reducible refine ite_k ?_ ?_
    | exact sub_trans (b := k_withLines) (by decide) hm
    | with_reducible apply Touch.then (forceZone_touch ..)
    | with_reducible apply Touch.then (edmExpect_touch ..)
    | with_reducible apply Touch.then (enterOff_touch ..)
    | with_reducible refine eachN_k (fun _ _ _ => ?_) ?_

theorem setLine_touch (b : Bool) (z : Nat) (on : Bool) (s : State) : Touch k_setLine s (setLine b z on s) := by
  unfold setLine
  repeat' first
    | ((first | lift_lets -underBinder | skip); with_reducible intro zz; first | (refine cut_k (Touch k_setLine s zz) ?_ (fun _ => ?_); rotate_left; clear_value zz; rotate_right) | clear_value zz)
    | with_reducible exact Touch.refl
    | with_reducible assumption
    | decide
    | with_reducible exact okw_SZ_STATUS (by decide)
    | with_reducible refine ite_k ?_ ?_
    | with_reducible refine fput_w ?_ ?_
    | with_reducible refine withLines_k ?_ (fun _ _ => ?_) ?_
    | with_reducible apply Touch.then (modCh_touch ..)
    | unfold zz; try dsimp -zeta only

theorem lineVeto_touch (b : Bool) (z : Nat) (s : State) : Touch k_lineVeto s (lineVeto b z s) := by
  unfold lineVeto
  repeat' first
    | with_reducible exact Touch.refl
    | with_reducible assumption
    | decide
    | with_reducible refine withLines_k ?_ (fun _ _ => ?_) ?_
    | with_reducible apply Touch.then (setLine_touch ..)
    | with_reducible apply Touch.then (modCh_touch ..)

theorem showSafe_touch (r : SafeRec) (s : State) : Touch k_showSafe s (showSafe r s) := by
  unfold showSafe
  repeat' first
    | ((first | lift_lets -underBinder | skip); with_reducible intro zz; first | (refine cut_k (Touch k_showSafe s zz) ?_ (fun _ => ?_); rotate_left; clear_value zz; rotate_right) | clear_value zz)
    | with_reducible exact Touch.refl
    | with_reducible assumption
    | decide
    | with_reducible exact okw_SLOG (by decide)
    | with_reducible exact fun _ => okw_SLOG (by decide)
    | with_reducible refine wrAll_w ?_ ?_
    | unfold zz; try dsimp -zeta only

theorem safeLog_touch (p : Port) (sess : Nat) (obj : Nat) (old : Word) (new : Word) (result : Nat) (sigNew : Word) (s : State) : Touch k_safeLog s (safeLog p sess obj old new result sigNew s) := by
  unfold safeLog
  simp -zeta -beta -eta only [mk_eq]
  repeat' first
    | ((first | lift_lets -underBinder | skip); with_reducible intro zz; first | ((first | (have _q : SafetySt := zz; clear _q)); dsimp -zeta only [zz]; clear zz) | (refine cut_k (Touch k_safeLog s zz) ?_ (fun _ => ?_); rotate_left; clear_value zz; rotate_right) | clear_value zz)
    | with_reducible exact Touch.refl
    | with_reducible assumption
    | decide
    | with_reducible exact okw_SLOG_SEQ (by decide)
    | with_reducible refine wrN_w ?_ ?_
    | with_reducible apply Touch.then (showSafe_touch ..)
    | with_reducible apply Touch.then (logPush_touch ..)
    | unfold zz; try dsimp -zeta only
    | with_reducible apply Touch.then (upd_safelog ..)

theorem showSessions_touch (s : State) : Touch k_showSessions s (showSessions s) := by
  unfold showSessions
  repeat' first
    | ((first | lift_lets -underBinder | skip); with_reducible intro zz; first | (refine cut_k (Touch k_showSessions s zz) ?_ (fun _ => ?_); rotate_left; clear_value zz; rotate_right) | clear_value zz)
    | with_reducible exact Touch.refl
    | with_reducible assumption
    | decide
    | with_reducible exact okw_HOST_STATUS (by decide)
    | with_reducible refine fset_w ?_ ?_
    | unfold zz; try dsimp -zeta only

theorem logSession_touch (p : Port) (role : Nat) (num : Nat) (result : Nat) (s : State) : Touch k_logSession s (logSession p role num result s) := by
  unfold logSession
  repeat' first
    | with_reducible exact Touch.refl
    | with_reducible assumption
    | decide
    | with_reducible apply Touch.then (logPush_touch ..)

theorem dropSession_touch (num : Nat) (s : State) : Touch k_dropSession s (dropSession num s) := by
  unfold dropSession
  simp -zeta -beta -eta only [mk_eq]
  repeat' first
    | ((first | lift_lets -underBinder | skip); with_reducible intro zz; first | ((first | (have _q : HostSt := zz; clear _q)); dsimp -zeta only [zz]; clear zz) | (refine cut_k (okw k_dropSession zz) (by with_reducible first | exact okw_BLK_LOCK (by decide)) (fun _ => ?_); clear_value zz) | (refine cut_k (Touch k_dropSession s zz) ?_ (fun _ => ?_); rotate_left; clear_value zz; rotate_right) | clear_value zz)
    | with_reducible exact Touch.refl
    | with_reducible assumption
    | decide
    | with_reducible exact okw_BLK_LOCK (by decide)
    | with_reducible refine ite_k ?_ ?_
    | with_reducible refine wr_w ?_ ?_
    | with_reducible apply Touch.then (showSessions_touch ..)
    | with_reducible apply Touch.then (logSession_touch ..)
    | unfold zz; try dsimp -zeta only
    | split
    | with_reducible apply Touch.then (upd_hostsessions ..)

theorem dropStaged_touch (s : State) : Touch k_dropStaged s (dropStaged s) := by
  unfold dropStaged
  simp -zeta -beta -eta only [mk_eq]
  repeat' first
    | ((first | lift_lets -underBinder | skip); with_reducible intro zz; first | ((first | (have _q : SafetySt := zz; clear _q)); dsimp -zeta only [zz]; clear zz) | (refine cut_k (Touch k_dropStaged s zz) ?_ (fun _ => ?_); rotate_left; clear_value zz; rotate_right) | clear_value zz)
    | with_reducible exact Touch.refl
    | with_reducible assumption
    | decide
    | with_reducible exact okw_SAFE_STATUS (by decide)
    | with_reducible refine fput_w ?_ ?_
    | with_reducible apply Touch.then (upd_safestaged ..)

theorem closeSafety_touch (s : State) : Touch k_closeSafety s (closeSafety s) := by
  unfold closeSafety
  simp -zeta -beta -eta only [mk_eq]
  repeat' first
    | ((first | lift_lets -underBinder | skip); with_reducible intro zz; first | ((first | (have _q : SafetySt := zz; clear _q)); dsimp -zeta only [zz]; clear zz) | (refine cut_k (Touch k_closeSafety s zz) ?_ (fun _ => ?_); rotate_left; clear_value zz; rotate_right) | clear_value zz)
    | with_reducible exact Touch.refl
    | with_reducible assumption
    | decide
    | with_reducible exact okw_SAFE_STATUS (by decide)
    | with_reducible refine fput_w ?_ ?_
    | with_reducible apply Touch.then (dropSession_touch ..)
    | with_reducible apply Touch.then (dropStaged_touch ..)
    | with_reducible apply Touch.then (safeLog_touch ..)
    | unfold zz; try dsimp -zeta only
    | split
    | with_reducible apply Touch.then (upd_safesess ..)

theorem endStop_touch (z : Nat) (code : Nat) (s : State) : Touch k_endStop s (endStop z code s) := by
  unfold endStop
  repeat' first
    | with_reducible exact Touch.refl
    | with_reducible assumption
    | decide
    | with_reducible exact okw_SZ_STATUS (by decide)
    | with_reducible refine ite_k ?_ ?_
    | with_reducible refine fset_w ?_ ?_

theorem zoneFault_touch (b : Bool) (z : Nat) (code : Nat) (s : State) : Touch k_zoneFault s (zoneFault b z code s) := by
  unfold zoneFault
  repeat' first
    | ((first | lift_lets -underBinder | skip); with_reducible intro zz; first | (refine cut_k (okw k_zoneFault zz) (by with_reducible first | exact okw_SZ_STATUS (by decide) | exact okw_SZ_CNT (by decide)) (fun _ => ?_); clear_value zz) | (refine cut_k (Touch k_zoneFault s zz) ?_ (fun _ => ?_); rotate_left; clear_value zz; rotate_right) | clear_value zz)
    | with_reducible exact Touch.refl
    | with_reducible assumption
    | decide
    | with_reducible exact okw_SZ_STATUS (by decide)
    | with_reducible exact okw_SZ_CNT (by decide)
    | with_reducible refine ite_k ?_ ?_
    | with_reducible refine fincWrap_w ?_ ?_
    | with_reducible refine fset_w ?_ ?_
    | with_reducible apply Touch.then (lineVeto_touch ..)
    | with_reducible apply Touch.then (sediment_touch ..)
    | with_reducible apply Touch.then (endStop_touch ..)
    | with_reducible apply Touch.then (setZst_touch ..)
    | with_reducible apply Touch.then (modCh_touch ..)
    | unfold zz; try dsimp -zeta only

theorem deviceFault_touch (b : Bool) (code : Nat) (s : State) : Touch k_deviceFault s (deviceFault b code s) := by
  unfold deviceFault
  simp -zeta -beta -eta only [mk_eq]
  repeat' first
    | ((first | lift_lets -underBinder | skip); with_reducible intro zz; first | ((first | (have _q : SafetySt := zz; clear _q)); dsimp -zeta only [zz]; clear zz) | (refine cut_k (okw k_deviceFault zz) (by with_reducible first | exact okw_SAFE_STATUS (by decide)) (fun _ => ?_); clear_value zz) | (refine cut_k (Touch k_deviceFault s zz) ?_ (fun _ => ?_); rotate_left; clear_value zz; rotate_right) | clear_value zz)
    | with_reducible exact Touch.refl
    | with_reducible assumption
    | decide
    | with_reducible exact okw_SAFE_STATUS (by decide)
    | with_reducible refine ite_k ?_ ?_
    | with_reducible refine fput_w ?_ ?_
    | with_reducible refine fset_w ?_ ?_
    | with_reducible apply Touch.then (closeSafety_touch ..)
    | with_reducible apply Touch.then (lineVeto_touch ..)
    | with_reducible apply Touch.then (sediment_touch ..)
    | with_reducible apply Touch.then (endStop_touch ..)
    | with_reducible apply Touch.then (setZst_touch ..)
    | with_reducible refine eachN_k (fun _ _ _ => ?_) ?_
    | unfold zz; try dsimp -zeta only
    | with_reducible apply Touch.then (upd_safedevB ..)
    | with_reducible apply Touch.then (upd_safedevA ..)

theorem execDeviceFault_touch (chB : Bool) (code : BitVec 4) (s : State) : TouchX k_execDeviceFault s (execDeviceFault chB code s) := by
  unfold execDeviceFault
  repeat' first
    | with_reducible exact Touch.refl
    | with_reducible assumption
    | decide
    | with_reducible refine touchX_next ?_
    | with_reducible refine ite_k ?_ ?_
    | with_reducible apply Touch.then (deviceFault_touch ..)

theorem requestStops_touch (z : Nat) (s : State) : Touch k_requestStops s (requestStops z s) := by
  unfold requestStops
  repeat' first
    | with_reducible exact Touch.refl
    | with_reducible assumption
    | decide
    | with_reducible refine ite_k ?_ ?_
    | with_reducible apply Touch.then (State_setGen_touch ..)
    | with_reducible refine eachN_k (fun _ _ _ => ?_) ?_

theorem evalCh_touch (v : ZoneView) (b : Bool) (z : Nat) (s : State) : Touch k_evalCh s (evalCh v b z s) := by
  unfold evalCh
  repeat' first
    | ((first | lift_lets -underBinder | skip); with_reducible intro zz; first | (refine cut_k (okw k_evalCh zz) (by with_reducible first | exact okw_SZ_STATUS (by decide)) (fun _ => ?_); clear_value zz) | (refine cut_k (Touch k_evalCh s zz) ?_ (fun _ => ?_); rotate_left; clear_value zz; rotate_right) | clear_value zz)
    | with_reducible exact Touch.refl
    | with_reducible assumption
    | decide
    | with_reducible exact okw_SZ_STATUS (by decide)
    | with_reducible refine ite_k ?_ ?_
    | with_reducible refine fset_w ?_ ?_
    | with_reducible apply Touch.then (State_setZone_touch ..)
    | with_reducible apply Touch.then (requestStops_touch ..)
    | with_reducible apply Touch.then (setLine_touch ..)
    | with_reducible apply Touch.then (setZst_touch ..)
    | with_reducible apply Touch.then (modCh_touch ..)
    | unfold zz; try dsimp -zeta only
    | split

theorem evalZone_touch (z : Nat) (s : State) : Touch k_evalZone s (evalZone z s) := by
  unfold evalZone
  repeat' first
    | ((first | lift_lets -underBinder | skip); with_reducible intro zz; first | (refine cut_k (okw k_evalZone zz) (by with_reducible first | exact okw_SZ_CNT (by decide)) (fun _ => ?_); clear_value zz) | (refine cut_k (Touch k_evalZone s zz) ?_ (fun _ => ?_); rotate_left; clear_value zz; rotate_right) | clear_value zz)
    | with_reducible exact Touch.refl
    | with_reducible assumption
    | decide
    | with_reducible exact okw_SZ_CNT (by decide)
    | with_reducible refine ite_k ?_ ?_
    | with_reducible refine fincWrap_w ?_ ?_
    | with_reducible apply Touch.then (State_setZone_touch ..)
    | with_reducible apply Touch.then (evalCh_touch ..)
    | unfold zz; try dsimp -zeta only

theorem settleStop_touch (z : Nat) (s : State) : Touch k_settleStop s (settleStop z s) := by
  unfold settleStop
  repeat' first
    | ((first | lift_lets -underBinder | skip); with_reducible intro zz; first | (refine cut_k (Touch k_settleStop s zz) ?_ (fun _ => ?_); rotate_left; clear_value zz; rotate_right) | (refine cut_k (∀ t, Touch k_settleStop s t → Touch k_settleStop s (zz t)) (fun _ _ => ?_) (fun _ => ?_); rotate_left; clear_value zz; rotate_right) | (refine cut_k (∀ a t, Touch k_settleStop s t → Touch k_settleStop s (zz a t)) (fun _ _ _ => ?_) (fun _ => ?_); rotate_left; clear_value zz; rotate_right) | (refine cut_k (∀ a b t, Touch k_settleStop s t → Touch k_settleStop s (zz a b t)) (fun _ _ _ _ => ?_) (fun _ => ?_); rotate_left; clear_value zz; rotate_right) | (refine cut_k (∀ a b c d t, Touch k_settleStop s t → Touch k_settleStop s (zz a b c d t)) (fun _ _ _ _ _ _ => ?_) (fun _ => ?_); rotate_left; clear_value zz; rotate_right) | clear_value zz)
    | with_reducible exact Touch.refl
    | with_reducible assumption
    | decide
    | with_reducible refine ite_k ?_ ?_
    | with_reducible apply Touch.then (State_setZone_touch ..)
    | with_reducible apply Touch.then (evalZone_touch ..)
    | with_reducible apply Touch.then (setZst_touch ..)
    | unfold zz; try dsimp -zeta only
    | with_reducible apply_assumption

theorem showDemand_touch (k : Nat) (s : State) : Touch k_showDemand s (showDemand k s) := by
  unfold showDemand
  repeat' first
    | ((first | lift_lets -underBinder | skip); with_reducible intro zz; first | (refine cut_k (Touch k_showDemand s zz) ?_ (fun _ => ?_); rotate_left; clear_value zz; rotate_right) | clear_value zz)
    | with_reducible exact Touch.refl
    | with_reducible assumption
    | decide
    | with_reducible exact okw_SI_STATUS (by decide)
    | with_reducible refine fput_w ?_ ?_
    | unfold zz; try dsimp -zeta only

theorem evalMask_touch (k : Nat) (s : State) : Touch k_evalMask s (evalMask k s) := by
  unfold evalMask
  repeat' first
    | with_reducible exact Touch.refl
    | with_reducible assumption
    | decide
    | with_reducible apply Touch.then (evalZone_touch ..)
    | with_reducible refine eachN_k (fun _ _ _ => ?_) ?_

theorem execSafetyInputEdge_touch (k : BitVec 4) (lineB : Bool) (level : Bool) (dur : BitVec 16) (s : State) : TouchX k_execSafetyInputEdge s (execSafetyInputEdge k lineB level dur s) := by
  unfold execSafetyInputEdge
  simp -zeta -beta -eta only [mk_eq]
  repeat' first
    | ((first | lift_lets -underBinder | skip); with_reducible intro zz; first | ((first | (have _q : SafetySt := zz; clear _q)); dsimp -zeta only [zz]; clear zz) | (refine cut_k (okw k_execSafetyInputEdge zz) (by with_reducible first | exact okw_SI_STATUS (by decide)) (fun _ => ?_); clear_value zz) | (refine cut_k (Touch k_execSafetyInputEdge s zz) ?_ (fun _ => ?_); rotate_left; clear_value zz; rotate_right) | clear_value zz)
    | with_reducible exact Touch.refl
    | with_reducible assumption
    | decide
    | with_reducible exact okw_SI_STATUS (by decide)
    | with_reducible refine touchX_next ?_
    | with_reducible refine ite_k ?_ ?_
    | with_reducible refine fput_w ?_ ?_
    | with_reducible refine fset_w ?_ ?_
    | with_reducible apply Touch.then (showDemand_touch ..)
    | with_reducible apply Touch.then (evalMask_touch ..)
    | unfold zz; try dsimp -zeta only
    | with_reducible apply Touch.then (upd_safeshown ..)

theorem execDiscTimeout_touch (chB : Bool) (k : BitVec 4) (s : State) : TouchX k_execDiscTimeout s (execDiscTimeout chB k s) := by
  unfold execDiscTimeout
  repeat' first
    | ((first | lift_lets -underBinder | skip); with_reducible intro zz; first | (refine cut_k (Touch k_execDiscTimeout s zz) ?_ (fun _ => ?_); rotate_left; clear_value zz; rotate_right) | clear_value zz)
    | with_reducible exact Touch.refl
    | with_reducible assumption
    | decide
    | with_reducible exact okw_SI_STATUS (by decide)
    | with_reducible refine touchX_next ?_
    | with_reducible refine ite_k ?_ ?_
    | with_reducible refine fput_w ?_ ?_
    | with_reducible apply Touch.then (showDemand_touch ..)
    | with_reducible apply Touch.then (zoneFault_touch ..)
    | with_reducible apply Touch.then (evalZone_touch ..)
    | with_reducible refine eachN_k (fun _ _ _ => ?_) ?_
    | unfold zz; try dsimp -zeta only

theorem execAckRisingEdge_touch (n : BitVec 3) (s : State) : TouchX k_execAckRisingEdge s (execAckRisingEdge n s) := by
  unfold execAckRisingEdge
  repeat' first
    | ((first | lift_lets -underBinder | skip); with_reducible intro zz; first | (refine cut_k (Touch k_execAckRisingEdge s zz) ?_ (fun _ => ?_); rotate_left; clear_value zz; rotate_right) | (refine cut_k (∀ t, Touch k_execAckRisingEdge s t → Touch k_execAckRisingEdge s (zz t)) (fun _ _ => ?_) (fun _ => ?_); rotate_left; clear_value zz; rotate_right) | (refine cut_k (∀ a t, Touch k_execAckRisingEdge s t → Touch k_execAckRisingEdge s (zz a t)) (fun _ _ _ => ?_) (fun _ => ?_); rotate_left; clear_value zz; rotate_right) | (refine cut_k (∀ a b t, Touch k_execAckRisingEdge s t → Touch k_execAckRisingEdge s (zz a b t)) (fun _ _ _ _ => ?_) (fun _ => ?_); rotate_left; clear_value zz; rotate_right) | (refine cut_k (∀ a b c d t, Touch k_execAckRisingEdge s t → Touch k_execAckRisingEdge s (zz a b c d t)) (fun _ _ _ _ _ _ => ?_) (fun _ => ?_); rotate_left; clear_value zz; rotate_right) | clear_value zz)
    | with_reducible exact Touch.refl
    | with_reducible assumption
    | decide
    | with_reducible refine touchX_next ?_
    | with_reducible refine eachN_k (fun _ _ _ => ?_) ?_
    | with_reducible apply Touch.then (modCh_touch ..)
    | unfold zz; try dsimp -zeta only
    | with_reducible apply_assumption

theorem ackWidth_touch (ms : Nat) (s : State) : Touch2 k_ackWidth s (ackWidth ms s) := by
  unfold ackWidth
  repeat' first
    | with_reducible exact Touch.refl
    | with_reducible assumption
    | decide
    | with_reducible refine ite_k ?_ ?_
    | with_reducible apply Touch.then2 (takeFreeBool_touch ..)
    | with_reducible refine Touch.snd ?_
    | with_reducible refine touch2_mk ?_
    | exact touch_of2 rfl ‹Touch2 _ _ (_, _)›
    | refine touch_of2 (by assumption) ?_

theorem execAckPulse_touch (n : BitVec 3) (ms : Nat) (s : State) : TouchX k_execAckPulse s (execAckPulse n ms s) := by
  unfold execAckPulse
  repeat' first
    | ((first | lift_lets -underBinder | skip); with_reducible intro zz; first | (refine cut_k (Touch k_execAckPulse s zz) ?_ (fun _ => ?_); rotate_left; clear_value zz; rotate_right) | (refine cut_k (Touch2 k_execAckPulse s zz) ?_ (fun _ => ?_); rotate_left; clear_value zz; rotate_right) | (refine cut_k (∀ t, Touch k_execAckPulse s t → Touch k_execAckPulse s (zz t)) (fun _ _ => ?_) (fun _ => ?_); rotate_left; clear_value zz; rotate_right) | (refine cut_k (∀ a t, Touch k_execAckPulse s t → Touch k_execAckPulse s (zz a t)) (fun _ _ _ => ?_) (fun _ => ?_); rotate_left; clear_value zz; rotate_right) | (refine cut_k (∀ a b t, Touch k_execAckPulse s t → Touch k_execAckPulse s (zz a b t)) (fun _ _ _ _ => ?_) (fun _ => ?_); rotate_left; clear_value zz; rotate_right) | (refine cut_k (∀ a b c d t, Touch k_execAckPulse s t → Touch k_execAckPulse s (zz a b c d t)) (fun _ _ _ _ _ _ => ?_) (fun _ => ?_); rotate_left; clear_value zz; rotate_right) | clear_value zz)
    | with_reducible exact Touch.refl
    | with_reducible assumption
    | decide
    | with_reducible exact okw_SZ_STATUS (by decide)
    | with_reducible refine touchX_next ?_
    | with_reducible refine ite_k ?_ ?_
    | with_reducible refine w1cSet_w ?_ ?_ ?_
    | with_reducible apply Touch.then2 (ackWidth_touch ..)
    | with_reducible refine eachN_k (fun _ _ _ => ?_) ?_
    | with_reducible apply Touch.then (modCh_touch ..)
    | with_reducible refine Touch.snd ?_
    | unfold zz; try dsimp -zeta only
    | split
    | with_reducible apply_assumption
    | with_reducible refine touch2_mk ?_
    | exact touch_of2 rfl ‹Touch2 _ _ (_, _)›
    | refine touch_of2 (by assumption) ?_

theorem execAckStuck_touch (n : BitVec 3) (s : State) : TouchX k_execAckStuck s (execAckStuck n s) := by
  unfold execAckStuck
  repeat' first
    | with_reducible exact Touch.refl
    | with_reducible assumption
    | decide
    | with_reducible exact okw_SZ_STATUS (by decide)
    | with_reducible refine touchX_next ?_
    | with_reducible refine w1cSet_w ?_ ?_ ?_
    | with_reducible refine eachN_k (fun _ _ _ => ?_) ?_

theorem execAckWithdraw_touch (chB : Bool) (z : BitVec 3) (s : State) : TouchX k_execAckWithdraw s (execAckWithdraw chB z s) := by
  unfold execAckWithdraw
  repeat' first
    | ((first | lift_lets -underBinder | skip); with_reducible intro zz; first | (refine cut_k (Touch k_execAckWithdraw s zz) ?_ (fun _ => ?_); rotate_left; clear_value zz; rotate_right) | clear_value zz)
    | with_reducible exact Touch.refl
    | with_reducible assumption
    | decide
    | with_reducible exact okw_SZ_STATUS (by decide)
    | with_reducible refine touchX_next ?_
    | with_reducible refine ite_k ?_ ?_
    | with_reducible refine w1cSet_w ?_ ?_ ?_
    | with_reducible apply Touch.then (modCh_touch ..)
    | unfold zz; try dsimp -zeta only

theorem bothFault_touch (z : Nat) (code : Nat) (s : State) : Touch k_bothFault s (bothFault z code s) := by
  unfold bothFault
  repeat' first
    | with_reducible exact Touch.refl
    | with_reducible assumption
    | decide
    | with_reducible apply Touch.then (zoneFault_touch ..)

theorem checkEdm_touch (z : Nat) (s : State) : Touch k_checkEdm s (checkEdm z s) := by
  unfold checkEdm
  repeat' first
    | ((first | lift_lets -underBinder | skip); with_reducible intro zz; first | (refine cut_k (Touch k_checkEdm s zz) ?_ (fun _ => ?_); rotate_left; clear_value zz; rotate_right) | clear_value zz)
    | with_reducible exact Touch.refl
    | with_reducible assumption
    | decide
    | with_reducible refine ite_k ?_ ?_
    | with_reducible apply Touch.then (bothFault_touch ..)
    | unfold zz; try dsimp -zeta only

theorem execEdmChange_touch (z : BitVec 3) (level : Bool) (s : State) : TouchX k_execEdmChange s (execEdmChange z level s) := by
  unfold execEdmChange
  repeat' first
    | ((first | lift_lets -underBinder | skip); with_reducible intro zz; first | (refine cut_k (okw k_execEdmChange zz) (by with_reducible first | exact okw_SZ_STATUS (by decide)) (fun _ => ?_); clear_value zz) | (refine cut_k (Touch k_execEdmChange s zz) ?_ (fun _ => ?_); rotate_left; clear_value zz; rotate_right) | clear_value zz)
    | with_reducible exact Touch.refl
    | with_reducible assumption
    | decide
    | with_reducible exact okw_SZ_STATUS (by decide)
    | with_reducible refine touchX_next ?_
    | with_reducible refine ite_k ?_ ?_
    | with_reducible refine fput_w ?_ ?_
    | with_reducible apply Touch.then (State_setZone_touch ..)
    | with_reducible apply Touch.then (evalZone_touch ..)
    | with_reducible apply Touch.then (checkEdm_touch ..)
    | unfold zz; try dsimp -zeta only

theorem execEdmTimeout_touch (chB : Bool) (z : BitVec 3) (s : State) : TouchX k_execEdmTimeout s (execEdmTimeout chB z s) := by
  unfold execEdmTimeout
  repeat' first
    | ((first | lift_lets -underBinder | skip); with_reducible intro zz; first | (refine cut_k (Touch k_execEdmTimeout s zz) ?_ (fun _ => ?_); rotate_left; clear_value zz; rotate_right) | clear_value zz)
    | with_reducible exact Touch.refl
    | with_reducible assumption
    | decide
    | with_reducible refine touchX_next ?_
    | with_reducible refine ite_k ?_ ?_
    | with_reducible apply Touch.then (State_setZone_touch ..)
    | with_reducible apply Touch.then (zoneFault_touch ..)
    | unfold zz; try dsimp -zeta only

theorem execCrossFrameTx_touch (chB : Bool) (s : State) : TouchX k_execCrossFrameTx s (execCrossFrameTx chB s) := by
  unfold execCrossFrameTx
  simp -zeta -beta -eta only [mk_eq]
  repeat' first
    | ((first | lift_lets -underBinder | skip); with_reducible intro zz; first | ((first | (have _q : SafetySt := zz; clear _q)); dsimp -zeta only [zz]; clear zz) | (refine cut_k (Touch k_execCrossFrameTx s zz) ?_ (fun _ => ?_); rotate_left; clear_value zz; rotate_right) | (refine cut_k (Touch2 k_execCrossFrameTx s zz) ?_ (fun _ => ?_); rotate_left; clear_value zz; rotate_right) | clear_value zz)
    | with_reducible exact Touch.refl
    | with_reducible assumption
    | decide
    | with_reducible refine touchX_next ?_
    | with_reducible refine ite_k ?_ ?_
    | with_reducible apply Touch.then2 (fiHit_touch ..)
    | with_reducible refine Touch.snd ?_
    | unfold zz; try dsimp -zeta only
    | split
    | with_reducible refine touch2_mk ?_
    | exact touch_of2 rfl ‹Touch2 _ _ (_, _)›
    | refine touch_of2 (by assumption) ?_
    | with_reducible apply Touch.then (upd_safesentB ..)
    | with_reducible apply Touch.then (upd_safesentA ..)

theorem adoptZone_touch (b : Bool) (f : XFrame) (z : Nat) (s : State) : Touch k_adoptZone s (adoptZone b f z s) := by
  unfold adoptZone
  repeat' first
    | ((first | lift_lets -underBinder | skip); with_reducible intro zz; first | (refine cut_k (Touch k_adoptZone s zz) ?_ (fun _ => ?_); rotate_left; clear_value zz; rotate_right) | clear_value zz)
    | with_reducible exact Touch.refl
    | with_reducible assumption
    | decide
    | with_reducible refine ite_k ?_ ?_
    | with_reducible apply Touch.then (settleStop_touch ..)
    | with_reducible apply Touch.then (zoneFault_touch ..)
    | with_reducible apply Touch.then (setLine_touch ..)
    | with_reducible apply Touch.then (setZst_touch ..)
    | with_reducible refine eachN_k (fun _ _ _ => ?_) ?_
    | unfold zz; try dsimp -zeta only

theorem execCrossFrameRx_touch (toB : Bool) (crcOk : Bool) (s : State) : TouchX k_execCrossFrameRx s (execCrossFrameRx toB crcOk s) := by
  unfold execCrossFrameRx
  simp -zeta -beta -eta only [mk_eq]
  repeat' first
    | ((first | lift_lets -underBinder | skip); with_reducible intro zz; first | ((first | (have _q : SafetySt := zz; clear _q)); dsimp -zeta only [zz]; clear zz) | (refine cut_k (okw k_execCrossFrameRx zz) (by with_reducible first | exact okw_SAFE_XERR (by decide)) (fun _ => ?_); clear_value zz) | (refine cut_k (Touch k_execCrossFrameRx s zz) ?_ (fun _ => ?_); rotate_left; clear_value zz; rotate_right) | clear_value zz)
    | with_reducible exact Touch.refl
    | with_reducible assumption
    | decide
    | with_reducible exact okw_SAFE_XERR (by decide)
    | with_reducible refine touchX_next ?_
    | with_reducible refine ite_k ?_ ?_
    | with_reducible refine fincWrap_w ?_ ?_
    | with_reducible apply Touch.then (deviceFault_touch ..)
    | with_reducible apply Touch.then (adoptZone_touch ..)
    | with_reducible refine eachN_k (fun _ _ _ => ?_) ?_
    | unfold zz; try dsimp -zeta only
    | with_reducible apply Touch.then (upd_saferxB ..)
    | with_reducible apply Touch.then (upd_saferxA ..)

theorem execCrossLinkLost_touch (chB : Bool) (s : State) : TouchX k_execCrossLinkLost s (execCrossLinkLost chB s) := by
  unfold execCrossLinkLost
  repeat' first
    | with_reducible exact Touch.refl
    | with_reducible assumption
    | decide
    | with_reducible refine touchX_next ?_
    | with_reducible apply Touch.then (deviceFault_touch ..)

theorem execXcomp_touch (z : BitVec 3) (s : State) : TouchX k_execXcomp s (execXcomp z s) := by
  unfold execXcomp
  repeat' first
    | ((first | lift_lets -underBinder | skip); with_reducible intro zz; first | (refine cut_k (Touch k_execXcomp s zz) ?_ (fun _ => ?_); rotate_left; clear_value zz; rotate_right) | clear_value zz)
    | with_reducible exact Touch.refl
    | with_reducible assumption
    | decide
    | with_reducible refine touchX_next ?_
    | with_reducible refine ite_k ?_ ?_
    | with_reducible apply Touch.then (bothFault_touch ..)
    | unfold zz; try dsimp -zeta only

theorem goDark_touch (b : Bool) (z : Nat) (s : State) : Touch k_goDark s (goDark b z s) := by
  unfold goDark
  repeat' first
    | with_reducible exact Touch.refl
    | with_reducible assumption
    | decide
    | with_reducible refine withLines_k ?_ (fun _ _ => ?_) ?_
    | with_reducible apply Touch.then (modCh_touch ..)

theorem execDarkPulseStart_touch (chB : Bool) (z : BitVec 3) (s : State) : TouchX k_execDarkPulseStart s (execDarkPulseStart chB z s) := by
  unfold execDarkPulseStart
  repeat' first
    | ((first | lift_lets -underBinder | skip); with_reducible intro zz; first | (refine cut_k (Touch k_execDarkPulseStart s zz) ?_ (fun _ => ?_); rotate_left; clear_value zz; rotate_right) | clear_value zz)
    | with_reducible exact Touch.refl
    | with_reducible assumption
    | decide
    | with_reducible refine touchX_next ?_
    | with_reducible refine ite_k ?_ ?_
    | with_reducible apply Touch.then (goDark_touch ..)
    | with_reducible apply Touch.then (modCh_touch ..)
    | unfold zz; try dsimp -zeta only

theorem execDarkPulseEnd_touch (chB : Bool) (z : BitVec 3) (s : State) : TouchX k_execDarkPulseEnd s (execDarkPulseEnd chB z s) := by
  unfold execDarkPulseEnd
  repeat' first
    | ((first | lift_lets -underBinder | skip); with_reducible intro zz; first | (refine cut_k (Touch k_execDarkPulseEnd s zz) ?_ (fun _ => ?_); rotate_left; clear_value zz; rotate_right) | clear_value zz)
    | with_reducible exact Touch.refl
    | with_reducible assumption
    | decide
    | with_reducible refine touchX_next ?_
    | with_reducible refine ite_k ?_ ?_
    | with_reducible refine withLines_k ?_ (fun _ _ => ?_) ?_
    | with_reducible apply Touch.then (checkEdm_touch ..)
    | with_reducible apply Touch.then (goDark_touch ..)
    | with_reducible apply Touch.then (modCh_touch ..)
    | unfold zz; try dsimp -zeta only

theorem execDarkPulseReadback_touch (chB : Bool) (z : BitVec 3) (after : Bool) (level : Bool) (s : State) : TouchX k_execDarkPulseReadback s (execDarkPulseReadback chB z after level s) := by
  unfold execDarkPulseReadback
  repeat' first
    | ((first | lift_lets -underBinder | skip); with_reducible intro zz; first | (refine cut_k (okw k_execDarkPulseReadback zz) (by with_reducible first | exact okw_SZ_STATUS (by decide)) (fun _ => ?_); clear_value zz) | (refine cut_k (Touch k_execDarkPulseReadback s zz) ?_ (fun _ => ?_); rotate_left; clear_value zz; rotate_right) | clear_value zz)
    | with_reducible exact Touch.refl
    | with_reducible assumption
    | decide
    | with_reducible exact okw_SZ_STATUS (by decide)
    | with_reducible refine touchX_next ?_
    | with_reducible refine ite_k ?_ ?_
    | with_reducible refine fput_w ?_ ?_
    | with_reducible apply Touch.then (zoneFault_touch ..)
    | unfold zz; try dsimp -zeta only

theorem execOuttestTimeout_touch (chB : Bool) (z : BitVec 3) (s : State) : TouchX k_execOuttestTimeout s (execOuttestTimeout chB z s) := by
  unfold execOuttestTimeout
  repeat' first
    | ((first | lift_lets -underBinder | skip); with_reducible intro zz; first | (refine cut_k (Touch k_execOuttestTimeout s zz) ?_ (fun _ => ?_); rotate_left; clear_value zz; rotate_right) | clear_value zz)
    | with_reducible exact Touch.refl
    | with_reducible assumption
    | decide
    | with_reducible exact okw_SZ_STATUS (by decide)
    | with_reducible refine touchX_next ?_
    | with_reducible refine ite_k ?_ ?_
    | with_reducible refine fput_w ?_ ?_
    | with_reducible apply Touch.then (zoneFault_touch ..)
    | unfold zz; try dsimp -zeta only

theorem execReadbackLowWhileOn_touch (chB : Bool) (z : BitVec 3) (s : State) : TouchX k_execReadbackLowWhileOn s (execReadbackLowWhileOn chB z s) := by
  unfold execReadbackLowWhileOn
  repeat' first
    | ((first | lift_lets -underBinder | skip); with_reducible intro zz; first | (refine cut_k (Touch k_execReadbackLowWhileOn s zz) ?_ (fun _ => ?_); rotate_left; clear_value zz; rotate_right) | clear_value zz)
    | with_reducible exact Touch.refl
    | with_reducible assumption
    | decide
    | with_reducible exact okw_SZ_STATUS (by decide)
    | with_reducible refine touchX_next ?_
    | with_reducible refine ite_k ?_ ?_
    | with_reducible refine fput_w ?_ ?_
    | with_reducible apply Touch.then (zoneFault_touch ..)
    | unfold zz; try dsimp -zeta only

theorem execStandstill_touch (z : BitVec 3) (s : State) : TouchX k_execStandstill s (execStandstill z s) := by
  unfold execStandstill
  repeat' first
    | ((first | lift_lets -underBinder | skip); with_reducible intro zz; first | (refine cut_k (okw k_execStandstill zz) (by with_reducible first | exact okw_SZ_STATUS (by decide)) (fun _ => ?_); clear_value zz) | (refine cut_k (Touch k_execStandstill s zz) ?_ (fun _ => ?_); rotate_left; clear_value zz; rotate_right) | clear_value zz)
    | with_reducible exact Touch.refl
    | with_reducible assumption
    | decide
    | with_reducible exact okw_SZ_STATUS (by decide)
    | with_reducible refine touchX_next ?_
    | with_reducible refine ite_k ?_ ?_
    | with_reducible refine fset_w ?_ ?_
    | with_reducible apply Touch.then (settleStop_touch ..)
    | with_reducible apply Touch.then (setLine_touch ..)
    | with_reducible apply Touch.then (endStop_touch ..)
    | with_reducible apply Touch.then (modCh_touch ..)
    | unfold zz; try dsimp -zeta only

theorem execSs1Timeout_touch (chB : Bool) (z : BitVec 3) (s : State) : TouchX k_execSs1Timeout s (execSs1Timeout chB z s) := by
  unfold execSs1Timeout
  repeat' first
    | ((first | lift_lets -underBinder | skip); with_reducible intro zz; first | (refine cut_k (Touch k_execSs1Timeout s zz) ?_ (fun _ => ?_); rotate_left; clear_value zz; rotate_right) | clear_value zz)
    | with_reducible exact Touch.refl
    | with_reducible assumption
    | decide
    | with_reducible refine touchX_next ?_
    | with_reducible refine ite_k ?_ ?_
    | with_reducible apply Touch.then (settleStop_touch ..)
    | with_reducible apply Touch.then (endStop_touch ..)
    | with_reducible apply Touch.then (setLine_touch ..)
    | with_reducible apply Touch.then (modCh_touch ..)
    | unfold zz; try dsimp -zeta only

theorem execZoneFaultCleared_touch (z : BitVec 3) (s : State) : TouchX k_execZoneFaultCleared s (execZoneFaultCleared z s) := by
  unfold execZoneFaultCleared
  repeat' first
    | ((first | lift_lets -underBinder | skip); with_reducible intro zz; first | (refine cut_k (okw k_execZoneFaultCleared zz) (by with_reducible first | exact okw_SZ_STATUS (by decide)) (fun _ => ?_); clear_value zz) | (refine cut_k (Touch k_execZoneFaultCleared s zz) ?_ (fun _ => ?_); rotate_left; clear_value zz; rotate_right) | (refine cut_k (∀ t, Touch k_execZoneFaultCleared s t → Touch k_execZoneFaultCleared s (zz t)) (fun _ _ => ?_) (fun _ => ?_); rotate_left; clear_value zz; rotate_right) | (refine cut_k (∀ a t, Touch k_execZoneFaultCleared s t → Touch k_execZoneFaultCleared s (zz a t)) (fun _ _ _ => ?_) (fun _ => ?_); rotate_left; clear_value zz; rotate_right) | (refine cut_k (∀ a b t, Touch k_execZoneFaultCleared s t → Touch k_execZoneFaultCleared s (zz a b t)) (fun _ _ _ _ => ?_) (fun _ => ?_); rotate_left; clear_value zz; rotate_right) | (refine cut_k (∀ a b c d t, Touch k_execZoneFaultCleared s t → Touch k_execZoneFaultCleared s (zz a b c d t)) (fun _ _ _ _ _ _ => ?_) (fun _ => ?_); rotate_left; clear_value zz; rotate_right) | clear_value zz)
    | with_reducible exact Touch.refl
    | with_reducible assumption
    | decide
    | with_reducible exact okw_SZ_STATUS (by decide)
    | with_reducible refine touchX_next ?_
    | with_reducible refine ite_k ?_ ?_
    | with_reducible refine fput_w ?_ ?_
    | with_reducible refine fset_w ?_ ?_
    | with_reducible apply Touch.then (State_setZone_touch ..)
    | with_reducible refine withLines_k ?_ (fun _ _ => ?_) ?_
    | with_reducible apply Touch.then (setZst_touch ..)
    | with_reducible apply Touch.then (modCh_touch ..)
    | unfold zz; try dsimp -zeta only
    | with_reducible apply_assumption

theorem safeWordEff_touch (a : Nat) (v : Word) (s : State) : TouchO k_safeWordEff s (safeWordEff a v s) := by
  unfold safeWordEff
  simp -zeta -beta -eta only [mk_eq]
  repeat' first
    | ((first | lift_lets -underBinder | skip); with_reducible intro zz; first | ((first | (have _q : SafetySt := zz; clear _q)); dsimp -zeta only [zz]; clear zz) | (refine cut_k (Touch k_safeWordEff s zz) ?_ (fun _ => ?_); rotate_left; clear_value zz; rotate_right) | (refine cut_k (TouchO k_safeWordEff s zz) ?_ (fun _ => ?_); rotate_left; clear_value zz; rotate_right) | clear_value zz)
    | with_reducible exact Touch.refl
    | with_reducible assumption
    | decide
    | with_reducible exact okw_SAFE_STATUS (by decide)
    | with_reducible exact touchO_none
    | with_reducible refine touchO_some ?_
    | with_reducible refine touchO_map ?_ (fun _ _ => ?_)
    | with_reducible refine touch_getD ?_ ?_
    | with_reducible refine ite_k ?_ ?_
    | with_reducible refine fput_w ?_ ?_
    | unfold zz; try dsimp -zeta only
    | split
    | exact touch_ofO rfl ‹TouchO _ _ (some _)›
    | with_reducible refine touchO_map' (fun _ => ?_)
    | refine touch_ofO (by assumption) ?_
    | with_reducible apply Touch.then (upd_safestaged ..)

theorem safeResult_touch (code : Nat) (s : State) : Touch k_safeResult s (safeResult code s) := by
  unfold safeResult
  repeat' first
    | with_reducible exact Touch.refl
    | with_reducible assumption
    | decide
    | with_reducible exact okw_SAFE_RESULT (by decide)
    | with_reducible refine wrN_w ?_ ?_

theorem logCmd_touch (w : Who) (code : Nat) (sigNew : Word) (s : State) : Touch k_logCmd s (logCmd w code sigNew s) := by
  unfold logCmd
  repeat' first
    | with_reducible exact Touch.refl
    | with_reducible assumption
    | decide
    | with_reducible apply Touch.then (safeLog_touch ..)

theorem safeCommitDo_touch (w : Who) (s : State) : Touch k_safeCommitDo s (safeCommitDo w s) := by
  unfold safeCommitDo
  repeat' first
    | ((first | lift_lets -underBinder | skip); with_reducible intro zz; first | (refine cut_k (Touch k_safeCommitDo s zz) ?_ (fun _ => ?_); rotate_left; clear_value zz; rotate_right) | clear_value zz)
    | with_reducible exact Touch.refl
    | with_reducible assumption
    | decide
    | with_reducible exact okw_SAFE_SIG_NEW (by decide)
    | with_reducible refine ite_k ?_ ?_
    | with_reducible refine wr_w ?_ ?_
    | with_reducible apply Touch.then (safeResult_touch ..)
    | with_reducible apply Touch.then (logCmd_touch ..)
    | unfold zz; try dsimp -zeta only

theorem safeConfirmNo_touch (w : Who) (code : Nat) (s : State) : Touch k_safeConfirmNo s (safeConfirmNo w code s) := by
  unfold safeConfirmNo
  repeat' first
    | with_reducible exact Touch.refl
    | with_reducible assumption
    | decide
    | with_reducible apply Touch.then (safeResult_touch ..)
    | with_reducible apply Touch.then (logCmd_touch ..)

theorem safeConfirmDo_touch (w : Who) (s : State) : Touch k_safeConfirmDo s (safeConfirmDo w s) := by
  unfold safeConfirmDo
  simp -zeta -beta -eta only [mk_eq]
  repeat' first
    | ((first | lift_lets -underBinder | skip); with_reducible intro zz; first | ((first | (have _q : SafetySt := zz; clear _q)); dsimp -zeta only [zz]; clear zz) | (refine cut_k (Touch k_safeConfirmDo s zz) ?_ (fun _ => ?_); rotate_left; clear_value zz; rotate_right) | clear_value zz)
    | with_reducible exact Touch.refl
    | with_reducible assumption
    | decide
    | with_reducible refine ite_k ?_ ?_
    | with_reducible apply Touch.then (safeConfirmNo_touch ..)
    | with_reducible apply Touch.then (startJob_touch ..)
    | unfold zz; try dsimp -zeta only
    | with_reducible apply Touch.then (upd_safeconfirm ..)

theorem safeCmdEff_touch (w : Who) (v : Word) (s : State) : TouchO k_safeCmdEff s (safeCmdEff w v s) := by
  unfold safeCmdEff
  repeat' first
    | ((first | lift_lets -underBinder | skip); with_reducible intro zz; first | (refine cut_k (okw k_safeCmdEff zz) (by with_reducible first | exact okw_SAFE_RESULT (by decide)) (fun _ => ?_); clear_value zz) | (refine cut_k (Touch k_safeCmdEff s zz) ?_ (fun _ => ?_); rotate_left; clear_value zz; rotate_right) | (refine cut_k (TouchO k_safeCmdEff s zz) ?_ (fun _ => ?_); rotate_left; clear_value zz; rotate_right) | clear_value zz)
    | with_reducible exact Touch.refl
    | with_reducible assumption
    | decide
    | with_reducible exact okw_SAFE_RESULT (by decide)
    | with_reducible exact touchO_none
    | with_reducible refine touchO_some ?_
    | with_reducible refine touchO_map ?_ (fun _ _ => ?_)
    | with_reducible refine touch_getD ?_ ?_
    | with_reducible refine ite_k ?_ ?_
    | with_reducible refine fput_w ?_ ?_
    | with_reducible apply Touch.then (safeConfirmDo_touch ..)
    | with_reducible apply Touch.then (safeCommitDo_touch ..)
    | with_reducible apply Touch.then (closeSafety_touch ..)
    | with_reducible apply Touch.then (safeResult_touch ..)
    | with_reducible apply Touch.then (dropStaged_touch ..)
    | with_reducible apply Touch.then (logCmd_touch ..)
    | unfold zz; try dsimp -zeta only
    | split
    | exact touch_ofO rfl ‹TouchO _ _ (some _)›
    | with_reducible refine touchO_map' (fun _ => ?_)
    | refine touch_ofO (by assumption) ?_

theorem execSafeCommit_touch (w : Who) (s : State) : TouchX k_execSafeCommit s (execSafeCommit w s) := by
  unfold execSafeCommit
  repeat' first
    | with_reducible exact Touch.refl
    | with_reducible assumption
    | decide
    | with_reducible refine touchX_next ?_
    | with_reducible exact touchO_none
    | with_reducible refine touchO_some ?_
    | with_reducible refine touchO_map ?_ (fun _ _ => ?_)
    | with_reducible refine touch_getD ?_ ?_
    | with_reducible apply Touch.thenO (safeCmdEff_touch ..)
    | with_reducible refine gated_k ?_ ?_ ?_
    | exact touch_ofO rfl ‹TouchO _ _ (some _)›
    | with_reducible refine touchO_map' (fun _ => ?_)
    | refine touch_ofO (by assumption) ?_

theorem execSafeConfirm_touch (w : Who) (s : State) : TouchX k_execSafeConfirm s (execSafeConfirm w s) := by
  unfold execSafeConfirm
  repeat' first
    | with_reducible exact Touch.refl
    | with_reducible assumption
    | decide
    | with_reducible refine touchX_next ?_
    | with_reducible exact touchO_none
    | with_reducible refine touchO_some ?_
    | with_reducible refine touchO_map ?_ (fun _ _ => ?_)
    | with_reducible refine touch_getD ?_ ?_
    | with_reducible apply Touch.thenO (safeCmdEff_touch ..)
    | with_reducible refine gated_k ?_ ?_ ?_
    | exact touch_ofO rfl ‹TouchO _ _ (some _)›
    | with_reducible refine touchO_map' (fun _ => ?_)
    | refine touch_ofO (by assumption) ?_

theorem execSafeDiscard_touch (w : Who) (s : State) : TouchX k_execSafeDiscard s (execSafeDiscard w s) := by
  unfold execSafeDiscard
  repeat' first
    | with_reducible exact Touch.refl
    | with_reducible assumption
    | decide
    | with_reducible refine touchX_next ?_
    | with_reducible exact touchO_none
    | with_reducible refine touchO_some ?_
    | with_reducible refine touchO_map ?_ (fun _ _ => ?_)
    | with_reducible refine touch_getD ?_ ?_
    | with_reducible apply Touch.thenO (safeCmdEff_touch ..)
    | with_reducible refine gated_k ?_ ?_ ?_
    | exact touch_ofO rfl ‹TouchO _ _ (some _)›
    | with_reducible refine touchO_map' (fun _ => ?_)
    | refine touch_ofO (by assumption) ?_

theorem execSafeClose_touch (w : Who) (s : State) : TouchX k_execSafeClose s (execSafeClose w s) := by
  unfold execSafeClose
  repeat' first
    | with_reducible exact Touch.refl
    | with_reducible assumption
    | decide
    | with_reducible refine touchX_next ?_
    | with_reducible exact touchO_none
    | with_reducible refine touchO_some ?_
    | with_reducible refine touchO_map ?_ (fun _ _ => ?_)
    | with_reducible refine touch_getD ?_ ?_
    | with_reducible apply Touch.thenO (safeCmdEff_touch ..)
    | with_reducible refine gated_k ?_ ?_ ?_
    | exact touch_ofO rfl ‹TouchO _ _ (some _)›
    | with_reducible refine touchO_map' (fun _ => ?_)
    | refine touch_ofO (by assumption) ?_

theorem restartZone_touch (z : Nat) (s : State) : Touch k_restartZone s (restartZone z s) := by
  unfold restartZone
  repeat' first
    | ((first | lift_lets -underBinder | skip); with_reducible intro zz; first | (refine cut_k (okw k_restartZone zz) (by with_reducible first | exact okw_SZ_STATUS (by decide)) (fun _ => ?_); clear_value zz) | (refine cut_k (Touch k_restartZone s zz) ?_ (fun _ => ?_); rotate_left; clear_value zz; rotate_right) | (refine cut_k (∀ t, Touch k_restartZone s t → Touch k_restartZone s (zz t)) (fun _ _ => ?_) (fun _ => ?_); rotate_left; clear_value zz; rotate_right) | (refine cut_k (∀ a t, Touch k_restartZone s t → Touch k_restartZone s (zz a t)) (fun _ _ _ => ?_) (fun _ => ?_); rotate_left; clear_value zz; rotate_right) | (refine cut_k (∀ a b t, Touch k_restartZone s t → Touch k_restartZone s (zz a b t)) (fun _ _ _ _ => ?_) (fun _ => ?_); rotate_left; clear_value zz; rotate_right) | (refine cut_k (∀ a b c d t, Touch k_restartZone s t → Touch k_restartZone s (zz a b c d t)) (fun _ _ _ _ _ _ => ?_) (fun _ => ?_); rotate_left; clear_value zz; rotate_right) | clear_value zz)
    | with_reducible exact Touch.refl
    | with_reducible assumption
    | decide
    | with_reducible exact okw_SZ_STATUS (by decide)
    | with_reducible refine ite_k ?_ ?_
    | with_reducible refine fset_w ?_ ?_
    | with_reducible apply Touch.then (State_setZone_touch ..)
    | with_reducible refine withLines_k ?_ (fun _ _ => ?_) ?_
    | with_reducible apply Touch.then (setLine_touch ..)
    | with_reducible apply Touch.then (setZst_touch ..)
    | unfold zz; try dsimp -zeta only
    | with_reducible apply_assumption

theorem clearTest_touch (k : Nat) (s : State) : Touch k_clearTest s (clearTest k s) := by
  unfold clearTest
  simp -zeta -beta -eta only [mk_eq]
  repeat' first
    | ((first | lift_lets -underBinder | skip); with_reducible intro zz; first | ((first | (have _q : SafetySt := zz; clear _q)); dsimp -zeta only [zz]; clear zz) | (refine cut_k (Touch k_clearTest s zz) ?_ (fun _ => ?_); rotate_left; clear_value zz; rotate_right) | clear_value zz)
    | with_reducible exact Touch.refl
    | with_reducible assumption
    | decide
    | with_reducible exact okw_SI_STATUS (by decide)
    | with_reducible refine fput_w ?_ ?_
    | with_reducible apply Touch.then (upd_safeshown ..)

theorem applyConfirm_touch (l : List (Nat × Word)) (p : Port) (n : Nat) (s : State) : Touch k_applyConfirm s (applyConfirm l p n s) := by
  unfold applyConfirm
  simp -zeta -beta -eta only [mk_eq]
  repeat' first
    | ((first | lift_lets -underBinder | skip); with_reducible intro zz; first | ((first | (have _q : SafetySt := zz; clear _q)); dsimp -zeta only [zz]; clear zz) | (refine cut_k (Touch k_applyConfirm s zz) ?_ (fun _ => ?_); rotate_left; clear_value zz; rotate_right) | clear_value zz)
    | with_reducible exact Touch.refl
    | with_reducible assumption
    | decide
    | with_reducible exact okw_SAFE_SIG (by decide)
    | with_reducible exact okr_safe (by decide)
    | with_reducible refine foldl_k (fun _ _ _ => ?_) ?_
    | with_reducible refine wrRange_w ?_ ?_
    | with_reducible refine wr_w ?_ ?_
    | with_reducible apply Touch.then (restartZone_touch ..)
    | with_reducible apply Touch.then (dropStaged_touch ..)
    | with_reducible apply Touch.then (showDemand_touch ..)
    | with_reducible apply Touch.then (clearTest_touch ..)
    | with_reducible apply Touch.then (evalZone_touch ..)
    | with_reducible apply Touch.then (safeLog_touch ..)
    | with_reducible refine eachN_k (fun _ _ _ => ?_) ?_
    | unfold zz; try dsimp -zeta only
    | split
    | with_reducible apply Touch.then (upd_safesec ..)

theorem execSessionTimeout_touch (s : State) : TouchX k_execSessionTimeout s (execSessionTimeout s) := by
  unfold execSessionTimeout
  repeat' first
    | with_reducible exact Touch.refl
    | with_reducible assumption
    | decide
    | with_reducible refine touchX_next ?_
    | with_reducible apply Touch.then (closeSafety_touch ..)

theorem execLockoutEnd_touch (s : State) : TouchX k_execLockoutEnd s (execLockoutEnd s) := by
  unfold execLockoutEnd
  simp -zeta -beta -eta only [mk_eq]
  repeat' first
    | ((first | lift_lets -underBinder | skip); with_reducible intro zz; first | ((first | (have _q : SafetySt := zz; clear _q)); dsimp -zeta only [zz]; clear zz) | (refine cut_k (Touch k_execLockoutEnd s zz) ?_ (fun _ => ?_); rotate_left; clear_value zz; rotate_right) | clear_value zz)
    | with_reducible exact Touch.refl
    | with_reducible assumption
    | decide
    | with_reducible exact okw_SAFE_PWCNT (by decide)
    | with_reducible exact okw_SAFE_STATUS (by decide)
    | with_reducible refine touchX_next ?_
    | with_reducible refine ite_k ?_ ?_
    | with_reducible refine fput_w ?_ ?_
    | with_reducible refine fset_w ?_ ?_
    | with_reducible apply Touch.then (upd_safefails_safelockEnd ..)

end Sys2Proof.Laws
end

