-- ==== Sys2Proof/Laws/TouchPair.lean ====
section
/-! SUPPORT. What each operation of Machine/Pair.lean can touch: one lemma per operation, by footprint (Laws/Touch.lean). -/

set_option linter.unusedTactic false
set_option linter.unreachableTactic false
set_option linter.unusedSimpArgs false
set_option linter.unusedVariables false

namespace Sys2Proof.Laws
open Sys2Proof Sys2Proof.Machine R

/-! Footprints. -/
def k_setPairState : Nat := 0x28000000000020000000000000000000000000000000000000000000000000000000000400030000000000000000000000000000000
def k_State_setShadow : Nat := 0x8000000000000000000
def k_execLeadToggle : Nat := 0x20000000000000000000000000000000000000000000000000000000000000000000000000000100000000000000000
def k_execLeadStop : Nat := 0x20000000002080000000000000000000000000000000000000000000000000000000000000000000000020000000000
def k_enterDropped : Nat := 0x28000000000020000000002080000000000000000000000000000000000000000000000400030000000000000080000020000000000
def k_execLeadInEdge : Nat := 0x28000000000020000000002080000000000000000000000000000000000000000000000400030000000000000280000020000000000
def k_execPartnerQuiet : Nat := 0x28000000000020000000000000000000000000000000000000000000000000000000000400030000000000000200000000000000000
def k_execLeadWaitEnd : Nat := 0x28000000000020000000000000000000000000000000000000000000000000000000000400030000000000000480000000000000000
def k_want : Nat := 0x100000000000000000000
def k_excuse : Nat := 0x100000000000000000000000000000000000000000000000000000000000000000000000000100000000000000000000
def k_countDivergence : Nat := 0x280000000001a00000000000000000000000000000000000000000000000000000000004000300000000000a0000000000000000000
def k_diverge : Nat := 0x283000000003a000000000000000000000000000000000000000000000030800000000040e43000000000c1a0000000000000000100
def k_compared : Nat := 0x283000000003a000000000000000000000000000000000000000000000030800000000040e43000000000c1e0000000000000000100
def k_matchCmd : Nat := 0x283000000003a000000000000000000000000000000000000000000000030800000000040e43000000000c1e0000000000000000100
def k_matchAll : Nat := 0x283000000003a000000000000000000000000000000000000000000000030800000000040e43000000000c1f0000000000000000100
def k_expectCmd : Nat := 0x283000000003a000000000000000000000000000000000000000000000030800000000040e43000000000c1f0000000000000000100
def k_execDirectRx : Nat := 0x283000000003a000000000000000000000000000001fc8000800000000030800000000040e43000000000c1f000040a000058000100
def k_execTrainRx : Nat := 0x283000000003a000000000000000000000000000001fc8000800000000030800000000040e43000000000c1f000040a000058000100
def k_execCompareTimeout : Nat := 0x283000000003a000000000000000000000000000000000000000000000030800000000040e43000000000c1f0000000000000000100
def k_noteSample : Nat := 0x8000000000000000000
def k_hearPartner : Nat := 0x1800000000000000000
def k_rxFrame : Nat := 0x20001800000000000000000
def k_execMirrorDigestRx : Nat := 0x283000000003a000000000000000000000000000000000000000000000030800000000040e43000000002c1e9800000000000000100
def k_putGenRec : Nat := 0x100000000000000000000000000000000000000000000000000000000000001000000000
def k_installTile : Nat := 0x2c30000000000000000000000000020038010046800000000000000000030800000000041e43000000000e108000000009100000180
def k_execMirrorTileRx : Nat := 0x20001800000000000000000
def k_execMirrorRecordRx : Nat := 0x20001800000000000000000
def k_execMirrorKeepRx : Nat := 0x1800000000000000000
def k_loadAngle : Nat := 0x4000000000000000000000000000000000000000000000001c00
def k_mirUp : Nat := 0x28000000000020000000000000000000000000000000000000000000000000000000000400030000000102000000000000000000000
def k_execMirrorCommitRx : Nat := 0x2c30000000542000000000000000020038010046800000000000000000030800000000041e43000000037e10d800000009100000180
def k_sendMir : Nat := 0x20000000000000000000000000000000000000000800000000000000000000000
def k_execMirrorTransfer : Nat := 0x400000000000000000000000000000020000008000000000000000000000000000000000809e00000400000058000000
def k_execMirrorKeepTx : Nat := 0x20000000000000000000000000000000000000000800000000000000000000000
def k_execMirrorAckTx : Nat := 0x20000000000000000000000000000000000000000800100000000000000000000
def k_dropCovered : Nat := 0x8000000000000000000000
def k_ackRx : Nat := 0x2800000000582000000000000000000000000000000000000000000000000000000000040003000000010f207800000000000000000
def k_judgeMirror : Nat := 0x28000000000020000000000000000000000000000000000000000000000000000000000400030000000000000000000000000000000
def k_execMirrorLinkDown : Nat := 0x28000000000020000000000000000000000000000000000000000000000000000000000400030000000000000000000000000000000
def k_countTake : Nat := 0x8000000000000000000000000000000000000000000000000000000000000000000000000000000000000000000000000
def k_execTakeover : Nat := 0x2830000000802000000000000000000000000000000000002800000000000800000000040e43000000002c0128a2000000000000000
def k_pairCmdEff : Nat := 0x28000000000020000000000000000000000000000000000000000000000000000000000400030000000402000000000000000000000
def k_execSwitchover : Nat := 0x2830000000002000000000000000000000000000000000000000000000000800000000060f43000000040e000000000000000000000
def k_execSwitchoverRelease : Nat := 0x280000000080a00000000020800000000000000000000000280000000000000000000004000300000006000020bc000020000000000
def k_execResync : Nat := 0x2830000000002000000000000000000000000000000000000000000000000800000000060f43000000040e000000000000000000000
def k_execClrFault : Nat := 0x2830000000002000000000000000000000000000000000000000000000000800000000060f43000000040e000000000000000000000
def k_execResyncComplete : Nat := 0x280000000000a0000000000000000000000000000000000000000000000000000000000400030000000000000000000000000000000
def k_judgeProving : Nat := 0x28000000000020000000000000000000000000000000000000000000000000000000000400030000000000000000000000000000000
def k_execProvingComplete : Nat := 0x28000000000020000000000000000000000000000000000000000000000000000000000400030000000000000000000000000000000
def k_pairTick : Nat := 0x283000000003a000000000000000000000000000000000000000000400030800000000040e4300000001cc1f0000000000000001d00

theorem setPairState_touch (x : Nat) (s : State) : Touch k_setPairState s (setPairState x s) := by
  unfold setPairState
  repeat' first
    | ((first | lift_lets -underBinder | skip); with_reducible intro zz; first | (refine cut_k (Touch k_setPairState s zz) ?_ (fun _ => ?_); rotate_left; clear_value zz; rotate_right) | clear_value zz)
    | with_reducible exact Touch.refl
    | with_reducible assumption
    | decide
    | with_reducible exact okw_PAIR_STATUS (by decide)
    | with_reducible refine ite_k ?_ ?_
    | with_reducible refine w1cSet_w ?_ ?_ ?_
    | with_reducible refine fset_w ?_ ?_
    | unfold zz; try dsimp -zeta only

theorem State_setShadow_touch (s : State) (n : Nat) (x : Shadow) : Touch k_State_setShadow s (State.setShadow s n x) := by
  unfold State.setShadow
  simp -zeta -beta -eta only [mk_eq]
  repeat' first
    | ((first | lift_lets -underBinder | skip); with_reducible intro zz; first | ((first | (have _q : PairSt := zz; clear _q)); dsimp -zeta only [zz]; clear zz) | (refine cut_k (Touch k_State_setShadow s zz) ?_ (fun _ => ?_); rotate_left; clear_value zz; rotate_right) | clear_value zz)
    | with_reducible exact Touch.refl
    | with_reducible assumption
    | decide
    | with_reducible apply Touch.then (upd_pairshadow ..)

theorem execLeadToggle_touch (s : State) : TouchX k_execLeadToggle s (execLeadToggle s) := by
  unfold execLeadToggle
  simp -zeta -beta -eta only [mk_eq]
  repeat' first
    | ((first | lift_lets -underBinder | skip); with_reducible intro zz; first | ((first | (have _q : PairSt := zz; clear _q)); dsimp -zeta only [zz]; clear zz) | (refine cut_k (Touch k_execLeadToggle s zz) ?_ (fun _ => ?_); rotate_left; clear_value zz; rotate_right) | clear_value zz)
    | with_reducible exact Touch.refl
    | with_reducible assumption
    | decide
    | with_reducible exact okw_PAIR_STATUS (by decide)
    | with_reducible refine touchX_next ?_
    | with_reducible refine ite_k ?_ ?_
    | with_reducible refine fput_w ?_ ?_
    | with_reducible apply Touch.then (upd_pairout ..)

theorem execLeadStop_touch (noTick : Bool) (s : State) : TouchX k_execLeadStop s (execLeadStop noTick s) := by
  unfold execLeadStop
  repeat' first
    | with_reducible exact Touch.refl
    | with_reducible assumption
    | decide
    | with_reducible refine touchX_next ?_
    | with_reducible refine ite_k ?_ ?_
    | with_reducible apply Touch.then (stopLead_touch ..)

theorem enterDropped_touch (s : State) : Touch k_enterDropped s (enterDropped s) := by
  unfold enterDropped
  simp -zeta -beta -eta only [mk_eq]
  repeat' first
    | ((first | lift_lets -underBinder | skip); with_reducible intro zz; first | ((first | (have _q : PairSt := zz; clear _q)); dsimp -zeta only [zz]; clear zz) | (refine cut_k (Touch k_enterDropped s zz) ?_ (fun _ => ?_); rotate_left; clear_value zz; rotate_right) | clear_value zz)
    | with_reducible exact Touch.refl
    | with_reducible assumption
    | decide
    | with_reducible exact okw_PAIR_STATUS (by decide)
    | with_reducible refine w1cSet_w ?_ ?_ ?_
    | with_reducible apply Touch.then (setPairState_touch ..)
    | with_reducible apply Touch.then (stopLead_touch ..)
    | with_reducible apply Touch.then (upd_pairreq ..)

theorem execLeadInEdge_touch (s : State) : TouchX k_execLeadInEdge s (execLeadInEdge s) := by
  unfold execLeadInEdge
  simp -zeta -beta -eta only [mk_eq]
  repeat' first
    | ((first | lift_lets -underBinder | skip); with_reducible intro zz; first | ((first | (have _q : PairSt := zz; clear _q)); dsimp -zeta only [zz]; clear zz) | (refine cut_k (okw k_execLeadInEdge zz) (by with_reducible first | exact okw_PAIR_STATUS (by decide)) (fun _ => ?_); clear_value zz) | (refine cut_k (Touch k_execLeadInEdge s zz) ?_ (fun _ => ?_); rotate_left; clear_value zz; rotate_right) | clear_value zz)
    | with_reducible exact Touch.refl
    | with_reducible assumption
    | decide
    | with_reducible exact okw_PAIR_STATUS (by decide)
    | with_reducible refine touchX_next ?_
    | with_reducible refine ite_k ?_ ?_
    | with_reducible refine w1cSet_w ?_ ?_ ?_
    | with_reducible refine fput_w ?_ ?_
    | with_reducible apply Touch.then (enterDropped_touch ..)
    | with_reducible apply Touch.then (holdOff_touch ..)
    | unfold zz; try dsimp -zeta only
    | with_reducible apply Touch.then (upd_pairedge ..)

theorem execPartnerQuiet_touch (mir : Bool) (s : State) : TouchX k_execPartnerQuiet s (execPartnerQuiet mir s) := by
  unfold execPartnerQuiet
  simp -zeta -beta -eta only [mk_eq]
  repeat' first
    | ((first | lift_lets -underBinder | skip); with_reducible intro zz; first | ((first | (have _q : PairSt := zz; clear _q)); dsimp -zeta only [zz]; clear zz) | (refine cut_k (Touch k_execPartnerQuiet s zz) ?_ (fun _ => ?_); rotate_left; clear_value zz; rotate_right) | clear_value zz)
    | with_reducible exact Touch.refl
    | with_reducible assumption
    | decide
    | with_reducible exact okw_PAIR_STATUS (by decide)
    | with_reducible refine touchX_next ?_
    | with_reducible refine ite_k ?_ ?_
    | with_reducible refine w1cSet_w ?_ ?_ ?_
    | with_reducible refine fput_w ?_ ?_
    | unfold zz; try dsimp -zeta only
    | with_reducible apply Touch.then (upd_pairedge ..)

theorem execLeadWaitEnd_touch (s : State) : TouchX k_execLeadWaitEnd s (execLeadWaitEnd s) := by
  unfold execLeadWaitEnd
  simp -zeta -beta -eta only [mk_eq]
  repeat' first
    | ((first | lift_lets -underBinder | skip); with_reducible intro zz; first | ((first | (have _q : PairSt := zz; clear _q)); dsimp -zeta only [zz]; clear zz) | (refine cut_k (Touch k_execLeadWaitEnd s zz) ?_ (fun _ => ?_); rotate_left; clear_value zz; rotate_right) | clear_value zz)
    | with_reducible exact Touch.refl
    | with_reducible assumption
    | decide
    | with_reducible refine touchX_next ?_
    | with_reducible refine ite_k ?_ ?_
    | with_reducible apply Touch.then (setPairState_touch ..)
    | unfold zz; try dsimp -zeta only
    | with_reducible apply Touch.then (upd_pairwait ..)
    | with_reducible apply Touch.then (upd_pairreq ..)

theorem want_touch (n : Nat) (s : State) : Touch k_want s (want n s) := by
  unfold want
  simp -zeta -beta -eta only [mk_eq]
  repeat' first
    | ((first | lift_lets -underBinder | skip); with_reducible intro zz; first | ((first | (have _q : PairSt := zz; clear _q)); dsimp -zeta only [zz]; clear zz) | (refine cut_k (Touch k_want s zz) ?_ (fun _ => ?_); rotate_left; clear_value zz; rotate_right) | clear_value zz)
    | with_reducible exact Touch.refl
    | with_reducible assumption
    | decide
    | with_reducible refine ite_k ?_ ?_
    | with_reducible apply Touch.then (upd_pairwant ..)

theorem excuse_touch (n : Nat) (s : State) : Touch k_excuse s (excuse n s) := by
  unfold excuse
  repeat' first
    | with_reducible exact Touch.refl
    | with_reducible assumption
    | decide
    | with_reducible exact okw_PAIR_CNT (by decide)
    | with_reducible refine fincWrap_w ?_ ?_
    | with_reducible apply Touch.then (want_touch ..)

theorem countDivergence_touch (s : State) : Touch k_countDivergence s (countDivergence s) := by
  unfold countDivergence
  simp -zeta -beta -eta only [mk_eq]
  repeat' first
    | ((first | lift_lets -underBinder | skip); with_reducible intro zz; first | ((first | (have _q : PairSt := zz; clear _q)); dsimp -zeta only [zz]; clear zz) | (refine cut_k (Touch k_countDivergence s zz) ?_ (fun _ => ?_); rotate_left; clear_value zz; rotate_right) | clear_value zz)
    | with_reducible exact Touch.refl
    | with_reducible assumption
    | decide
    | with_reducible exact okw_PAIR_CNT (by decide)
    | with_reducible exact okw_PAIR_STATUS (by decide)
    | with_reducible exact okw_PAIR_CLEAN (by decide)
    | with_reducible refine ite_k ?_ ?_
    | with_reducible refine fincWrap_w ?_ ?_
    | with_reducible refine w1cSet_w ?_ ?_ ?_
    | with_reducible refine fset_w ?_ ?_
    | with_reducible apply Touch.then (setPairState_touch ..)
    | unfold zz; try dsimp -zeta only
    | with_reducible apply Touch.then (upd_pairdiv_pairdivWin ..)

theorem diverge_touch (n : Nat) (cyc : Nat) (s : State) : Touch k_diverge s (diverge n cyc s) := by
  unfold diverge
  repeat' first
    | ((first | lift_lets -underBinder | skip); with_reducible intro zz; first | (refine cut_k (Touch k_diverge s zz) ?_ (fun _ => ?_); rotate_left; clear_value zz; rotate_right) | clear_value zz)
    | with_reducible exact Touch.refl
    | with_reducible assumption
    | decide
    | with_reducible exact okw_PAIR_DIVAX (by decide)
    | with_reducible refine ite_k ?_ ?_
    | with_reducible refine fset_w ?_ ?_
    | with_reducible apply Touch.then (countDivergence_touch ..)
    | with_reducible apply Touch.then (setPairState_touch ..)
    | with_reducible apply Touch.then (tileError_touch ..)
    | with_reducible apply Touch.then (want_touch ..)
    | unfold zz; try dsimp -zeta only

theorem compared_touch (n : Nat) (cyc : Nat) (same : Bool) (s : State) : Touch k_compared s (compared n cyc same s) := by
  unfold compared
  simp -zeta -beta -eta only [mk_eq]
  repeat' first
    | ((first | lift_lets -underBinder | skip); with_reducible intro zz; first | ((first | (have _q : PairSt := zz; clear _q)); dsimp -zeta only [zz]; clear zz) | (refine cut_k (Touch k_compared s zz) ?_ (fun _ => ?_); rotate_left; clear_value zz; rotate_right) | clear_value zz)
    | with_reducible exact Touch.refl
    | with_reducible assumption
    | decide
    | with_reducible refine ite_k ?_ ?_
    | with_reducible apply Touch.then (diverge_touch ..)
    | unfold zz; try dsimp -zeta only
    | with_reducible apply Touch.then (upd_paircmp ..)

theorem matchCmd_touch (e : Nat × Nat × Nat × List (BitVec 8)) (s : State) : TouchO k_matchCmd s (matchCmd e s) := by
  unfold matchCmd
  repeat' first
    | ((first | lift_lets -underBinder | skip); with_reducible intro zz; first | (refine cut_k (Touch k_matchCmd s zz) ?_ (fun _ => ?_); rotate_left; clear_value zz; rotate_right) | (refine cut_k (TouchO k_matchCmd s zz) ?_ (fun _ => ?_); rotate_left; clear_value zz; rotate_right) | clear_value zz)
    | with_reducible exact Touch.refl
    | with_reducible assumption
    | decide
    | with_reducible exact touchO_none
    | with_reducible refine touchO_some ?_
    | with_reducible refine touchO_map ?_ (fun _ _ => ?_)
    | with_reducible refine touch_getD ?_ ?_
    | with_reducible refine ite_k ?_ ?_
    | with_reducible apply Touch.then (compared_touch ..)
    | unfold zz; try dsimp -zeta only
    | split
    | exact touch_ofO rfl ‹TouchO _ _ (some _)›
    | with_reducible refine touchO_map' (fun _ => ?_)
    | refine touch_ofO (by assumption) ?_

theorem matchAll_touch (s : State) : Touch k_matchAll s (matchAll s) := by
  unfold matchAll
  simp -zeta -beta -eta only [mk_eq]
  repeat' first
    | ((first | lift_lets -underBinder | skip); with_reducible intro zz; first | ((first | (have _q : PairSt := zz; clear _q)); dsimp -zeta only [zz]; clear zz) | (refine cut_k (Touch k_matchAll s zz) ?_ (fun _ => ?_); rotate_left; clear_value zz; rotate_right) | (refine cut_k (TouchO k_matchAll s zz) ?_ (fun _ => ?_); rotate_left; clear_value zz; rotate_right) | clear_value zz)
    | with_reducible exact Touch.refl
    | with_reducible assumption
    | decide
    | with_reducible exact touchO_none
    | with_reducible refine touchO_some ?_
    | with_reducible refine touchO_map ?_ (fun _ _ => ?_)
    | with_reducible refine touch_getD ?_ ?_
    | with_reducible refine foldl_k (fun _ _ _ => ?_) ?_
    | with_reducible apply Touch.thenO (matchCmd_touch ..)
    | split
    | exact touch_ofO rfl ‹TouchO _ _ (some _)›
    | with_reducible refine touchO_map' (fun _ => ?_)
    | refine touch_ofO (by assumption) ?_
    | with_reducible apply Touch.then (upd_pairexpect ..)

theorem expectCmd_touch (n : Nat) (cyc : Nat) (ctl : Nat) (body : List (BitVec 8)) (s : State) : Touch k_expectCmd s (expectCmd n cyc ctl body s) := by
  unfold expectCmd
  simp -zeta -beta -eta only [mk_eq]
  repeat' first
    | ((first | lift_lets -underBinder | skip); with_reducible intro zz; first | ((first | (have _q : PairSt := zz; clear _q)); dsimp -zeta only [zz]; clear zz) | (refine cut_k (Touch k_expectCmd s zz) ?_ (fun _ => ?_); rotate_left; clear_value zz; rotate_right) | (refine cut_k (TouchO k_expectCmd s zz) ?_ (fun _ => ?_); rotate_left; clear_value zz; rotate_right) | clear_value zz)
    | with_reducible exact Touch.refl
    | with_reducible assumption
    | decide
    | with_reducible exact touchO_none
    | with_reducible refine touchO_some ?_
    | with_reducible refine touchO_map ?_ (fun _ _ => ?_)
    | with_reducible refine touch_getD ?_ ?_
    | with_reducible apply Touch.thenO (matchCmd_touch ..)
    | unfold zz; try dsimp -zeta only
    | split
    | exact touch_ofO rfl ‹TouchO _ _ (some _)›
    | with_reducible refine touchO_map' (fun _ => ?_)
    | refine touch_ofO (by assumption) ?_
    | with_reducible apply Touch.then (upd_pairexpect ..)

theorem execDirectRx_touch (r : Rx) (s : State) : TouchX k_execDirectRx s (execDirectRx r s) := by
  unfold execDirectRx
  repeat' first
    | ((first | lift_lets -underBinder | skip); with_reducible intro zz; first | (refine cut_k (Touch k_execDirectRx s zz) ?_ (fun _ => ?_); rotate_left; clear_value zz; rotate_right) | (refine cut_k (Touch2 k_execDirectRx s zz) ?_ (fun _ => ?_); rotate_left; clear_value zz; rotate_right) | clear_value zz)
    | with_reducible exact Touch.refl
    | with_reducible assumption
    | decide
    | with_reducible refine touchX_next ?_
    | with_reducible refine ite_k ?_ ?_
    | with_reducible apply Touch.then (State_setAxn_touch ..)
    | with_reducible apply Touch.then2 (selectCopy_touch ..)
    | with_reducible apply Touch.then (expectCmd_touch ..)
    | with_reducible apply Touch.then (countBad_touch ..)
    | with_reducible apply Touch.then (reachAt_touch ..)
    | with_reducible refine Touch.snd ?_
    | unfold zz; try dsimp -zeta only
    | split
    | with_reducible refine touch2_mk ?_
    | exact touch_of2 rfl ‹Touch2 _ _ (_, _)›
    | refine touch_of2 (by assumption) ?_

theorem execTrainRx_touch (r : Rx) (s : State) : TouchX k_execTrainRx s (execTrainRx r s) := by
  unfold execTrainRx
  repeat' first
    | ((first | lift_lets -underBinder | skip); with_reducible intro zz; first | (refine cut_k (Touch k_execTrainRx s zz) ?_ (fun _ => ?_); rotate_left; clear_value zz; rotate_right) | (refine cut_k (Touch2 k_execTrainRx s zz) ?_ (fun _ => ?_); rotate_left; clear_value zz; rotate_right) | clear_value zz)
    | with_reducible exact Touch.refl
    | with_reducible assumption
    | decide
    | with_reducible refine touchX_next ?_
    | with_reducible refine foldl_k (fun _ _ _ => ?_) ?_
    | with_reducible refine ite_k ?_ ?_
    | with_reducible apply Touch.then (State_setAxn_touch ..)
    | with_reducible apply Touch.then2 (selectCopy_touch ..)
    | with_reducible apply Touch.then (expectCmd_touch ..)
    | with_reducible apply Touch.then (countBad_touch ..)
    | with_reducible apply Touch.then (reachAt_touch ..)
    | with_reducible refine Touch.snd ?_
    | unfold zz; try dsimp -zeta only
    | split
    | with_reducible refine touch2_mk ?_
    | exact touch_of2 rfl ‹Touch2 _ _ (_, _)›
    | refine touch_of2 (by assumption) ?_

theorem execCompareTimeout_touch (n : Axis) (s : State) : TouchX k_execCompareTimeout s (execCompareTimeout n s) := by
  unfold execCompareTimeout
  simp -zeta -beta -eta only [mk_eq]
  repeat' first
    | ((first | lift_lets -underBinder | skip); with_reducible intro zz; first | ((first | (have _q : PairSt := zz; clear _q)); dsimp -zeta only [zz]; clear zz) | (refine cut_k (Touch k_execCompareTimeout s zz) ?_ (fun _ => ?_); rotate_left; clear_value zz; rotate_right) | clear_value zz)
    | with_reducible exact Touch.refl
    | with_reducible assumption
    | decide
    | with_reducible refine touchX_next ?_
    | with_reducible apply Touch.then (matchAll_touch ..)
    | with_reducible apply Touch.then (excuse_touch ..)
    | with_reducible refine eachN_k (fun _ _ _ => ?_) ?_
    | unfold zz; try dsimp -zeta only
    | split
    | with_reducible apply Touch.then (upd_pairexpect ..)

theorem noteSample_touch (n : Nat) (cyc : Nat) (miss : Bool) (i : LawIn) (s : State) : Touch k_noteSample s (noteSample n cyc miss i s) := by
  unfold noteSample
  repeat' first
    | with_reducible exact Touch.refl
    | with_reducible assumption
    | decide
    | with_reducible refine ite_k ?_ ?_
    | with_reducible apply Touch.then (State_setShadow_touch ..)

theorem hearPartner_touch (h : MirHdr) (s : State) : Touch k_hearPartner s (hearPartner h s) := by
  unfold hearPartner
  simp -zeta -beta -eta only [mk_eq]
  repeat' first
    | ((first | lift_lets -underBinder | skip); with_reducible intro zz; first | ((first | (have _q : PairSt := zz; clear _q)); dsimp -zeta only [zz]; clear zz) | (refine cut_k (Touch k_hearPartner s zz) ?_ (fun _ => ?_); rotate_left; clear_value zz; rotate_right) | clear_value zz)
    | with_reducible exact Touch.refl
    | with_reducible assumption
    | decide
    | with_reducible apply Touch.then (upd_pairheard_pairpstrap ..)

theorem rxFrame_touch (h : MirHdr) (f : MirRx → MirRx) (s : State) : Touch k_rxFrame s (rxFrame h f s) := by
  unfold rxFrame
  simp -zeta -beta -eta only [mk_eq]
  repeat' first
    | ((first | lift_lets -underBinder | skip); with_reducible intro zz; first | ((first | (have _q : PairSt := zz; clear _q)); dsimp -zeta only [zz]; clear zz) | (refine cut_k (Touch k_rxFrame s zz) ?_ (fun _ => ?_); rotate_left; clear_value zz; rotate_right) | clear_value zz)
    | with_reducible exact Touch.refl
    | with_reducible assumption
    | decide
    | with_reducible refine ite_k ?_ ?_
    | with_reducible apply Touch.then (hearPartner_touch ..)
    | unfold zz; try dsimp -zeta only
    | split
    | with_reducible apply Touch.then (upd_pairrx ..)

theorem execMirrorDigestRx_touch (h : MirHdr) (es : List (BitVec 8 × BitVec 8 × Word)) (s : State) : TouchX k_execMirrorDigestRx s (execMirrorDigestRx h es s) := by
  unfold execMirrorDigestRx
  repeat' first
    | ((first | lift_lets -underBinder | skip); with_reducible intro zz; first | (refine cut_k (Touch k_execMirrorDigestRx s zz) ?_ (fun _ => ?_); rotate_left; clear_value zz; rotate_right) | clear_value zz)
    | with_reducible exact Touch.refl
    | with_reducible assumption
    | decide
    | with_reducible refine touchX_next ?_
    | with_reducible refine foldl_k (fun _ _ _ => ?_) ?_
    | with_reducible refine ite_k ?_ ?_
    | with_reducible apply Touch.then (State_setShadow_touch ..)
    | with_reducible apply Touch.then (compared_touch ..)
    | with_reducible apply Touch.then (rxFrame_touch ..)
    | with_reducible apply Touch.then (excuse_touch ..)
    | unfold zz; try dsimp -zeta only

theorem putGenRec_touch (n : Nat) (r : GenRec) (s : State) : Touch k_putGenRec s (putGenRec n r s) := by
  unfold putGenRec
  repeat' first
    | ((first | lift_lets -underBinder | skip); with_reducible intro zz; first | (refine cut_k (Touch k_putGenRec s zz) ?_ (fun _ => ?_); rotate_left; clear_value zz; rotate_right) | clear_value zz)
    | with_reducible exact Touch.refl
    | with_reducible assumption
    | decide
    | with_reducible apply Touch.then (State_setGen_touch ..)
    | with_reducible apply Touch.then (setGmode_touch ..)
    | with_reducible apply Touch.then (setQueue_touch ..)
    | unfold zz; try dsimp -zeta only

theorem installTile_touch (n : Nat) (scyc : Nat) (t : List Word) (r : GenRec) (s : State) : Touch k_installTile s (installTile n scyc t r s) := by
  unfold installTile
  simp -zeta -beta -eta only [mk_eq]
  repeat' first
    | ((first | lift_lets -underBinder | skip); with_reducible intro zz; first | ((first | (have _q : PairSt := zz; clear _q)); dsimp -zeta only [zz]; clear zz) | (refine cut_k (Touch k_installTile s zz) ?_ (fun _ => ?_); rotate_left; clear_value zz; rotate_right) | clear_value zz)
    | with_reducible exact Touch.refl
    | with_reducible assumption
    | decide
    | with_reducible exact okw_STATE_TILE (by decide)
    | with_reducible exact fun _ => okw_STATE_TILE (by decide)
    | with_reducible refine ite_k ?_ ?_
    | with_reducible refine wrAll_w ?_ ?_
    | with_reducible apply Touch.then (State_setShadow_touch ..)
    | with_reducible apply Touch.then (genSample_touch ..)
    | with_reducible apply Touch.then (putGenRec_touch ..)
    | with_reducible apply Touch.then (lawDone_touch ..)
    | with_reducible apply Touch.then (want_touch ..)
    | unfold zz; try dsimp -zeta only
    | split
    | with_reducible apply Touch.then (upd_pairgot ..)

theorem execMirrorTileRx_touch (h : MirHdr) (ax : BitVec 8) (reason : BitVec 8) (scyc : BitVec 16) (tile : List Word) (gen : GenRec) (s : State) : TouchX k_execMirrorTileRx s (execMirrorTileRx h ax reason scyc tile gen s) := by
  unfold execMirrorTileRx
  repeat' first
    | with_reducible exact Touch.refl
    | with_reducible assumption
    | decide
    | with_reducible refine touchX_next ?_
    | with_reducible refine ite_k ?_ ?_
    | with_reducible apply Touch.then (rxFrame_touch ..)

theorem execMirrorRecordRx_touch (h : MirHdr) (r : MirRec) (s : State) : TouchX k_execMirrorRecordRx s (execMirrorRecordRx h r s) := by
  unfold execMirrorRecordRx
  repeat' first
    | with_reducible exact Touch.refl
    | with_reducible assumption
    | decide
    | with_reducible refine touchX_next ?_
    | with_reducible refine ite_k ?_ ?_
    | with_reducible apply Touch.then (rxFrame_touch ..)

theorem execMirrorKeepRx_touch (h : MirHdr) (s : State) : TouchX k_execMirrorKeepRx s (execMirrorKeepRx h s) := by
  unfold execMirrorKeepRx
  repeat' first
    | with_reducible exact Touch.refl
    | with_reducible assumption
    | decide
    | with_reducible refine touchX_next ?_
    | with_reducible refine ite_k ?_ ?_
    | with_reducible apply Touch.then (hearPartner_touch ..)

theorem loadAngle_touch (b : MirAngle) (s : State) : Touch k_loadAngle s (loadAngle b s) := by
  unfold loadAngle
  simp -zeta -beta -eta only [mk_eq]
  repeat' first
    | ((first | lift_lets -underBinder | skip); with_reducible intro zz; first | ((first | (have _q : AngSt := zz; clear _q)); dsimp -zeta only [zz]; clear zz) | (refine cut_k (Touch k_loadAngle s zz) ?_ (fun _ => ?_); rotate_left; clear_value zz; rotate_right) | clear_value zz)
    | with_reducible exact Touch.refl
    | with_reducible assumption
    | decide
    | with_reducible exact okw_MA_STATUS (by decide)
    | with_reducible refine fput_w ?_ ?_
    | with_reducible apply Touch.then (setTrust_touch ..)
    | with_reducible refine eachN_k (fun _ _ _ => ?_) ?_
    | unfold zz; try dsimp -zeta only
    | with_reducible apply Touch.then (upd_angkey_angspeed_angvm ..)

theorem mirUp_touch (s : State) : Touch k_mirUp s (mirUp s) := by
  unfold mirUp
  simp -zeta -beta -eta only [mk_eq]
  repeat' first
    | ((first | lift_lets -underBinder | skip); with_reducible intro zz; first | ((first | (have _q : PairSt := zz; clear _q)); dsimp -zeta only [zz]; clear zz) | (refine cut_k (Touch k_mirUp s zz) ?_ (fun _ => ?_); rotate_left; clear_value zz; rotate_right) | clear_value zz)
    | with_reducible exact Touch.refl
    | with_reducible assumption
    | decide
    | with_reducible exact okw_PAIR_STATUS (by decide)
    | with_reducible refine ite_k ?_ ?_
    | with_reducible refine fput_w ?_ ?_
    | with_reducible apply Touch.then (setPairState_touch ..)
    | unfold zz; try dsimp -zeta only
    | with_reducible apply Touch.then (upd_pairsince ..)
    | with_reducible apply Touch.then (upd_pairgot ..)

theorem execMirrorCommitRx_touch (h : MirHdr) (nfr : BitVec 16) (crcOk : Bool) (level : BitVec 8) (key : Word) (ang : MirAngle) (s : State) : TouchX k_execMirrorCommitRx s (execMirrorCommitRx h nfr crcOk level key ang s) := by
  unfold execMirrorCommitRx
  simp -zeta -beta -eta only [mk_eq]
  repeat' first
    | ((first | lift_lets -underBinder | skip); with_reducible intro zz; first | ((first | (have _q : PairSt := zz; clear _q)); dsimp -zeta only [zz]; clear zz) | (refine cut_k (Touch k_execMirrorCommitRx s zz) ?_ (fun _ => ?_); rotate_left; clear_value zz; rotate_right) | clear_value zz)
    | with_reducible exact Touch.refl
    | with_reducible assumption
    | decide
    | with_reducible exact okw_PAIR_MSEQ (by decide)
    | with_reducible exact okw_PAIR_PLKEY (by decide)
    | with_reducible exact okw_PAIR_PSERIAL (by decide)
    | with_reducible exact okw_PAIR_STATUS (by decide)
    | with_reducible refine touchX_next ?_
    | with_reducible refine foldl_k (fun _ _ _ => ?_) ?_
    | with_reducible refine ite_k ?_ ?_
    | with_reducible refine w1cSet_w ?_ ?_ ?_
    | with_reducible refine fset_w ?_ ?_
    | with_reducible refine wr_w ?_ ?_
    | with_reducible apply Touch.then (installTile_touch ..)
    | with_reducible apply Touch.then (hearPartner_touch ..)
    | with_reducible apply Touch.then (mirUp_touch ..)
    | unfold zz; try dsimp -zeta only
    | split
    | with_reducible apply Touch.then (upd_pairrx ..)
    | with_reducible apply Touch.then (upd_pairbegan ..)
    | with_reducible apply Touch.then (upd_pairplevel ..)
    | with_reducible apply Touch.then (upd_pairheld ..)
    | with_reducible apply Touch.then (upd_pairang ..)

theorem sendMir_touch (f : MirFrame) (s : State) : Touch k_sendMir s (sendMir f s) := by
  unfold sendMir
  simp -zeta -beta -eta only [mk_eq]
  repeat' first
    | ((first | lift_lets -underBinder | skip); with_reducible intro zz; first | ((first | (have _q : PairSt := zz; clear _q)); dsimp -zeta only [zz]; clear zz) | (refine cut_k (Touch k_sendMir s zz) ?_ (fun _ => ?_); rotate_left; clear_value zz; rotate_right) | clear_value zz)
    | with_reducible exact Touch.refl
    | with_reducible assumption
    | decide
    | with_reducible exact okw_TX_FRAMES (by decide)
    | with_reducible refine ite_k ?_ ?_
    | with_reducible refine wrN_w ?_ ?_
    | unfold zz; try dsimp -zeta only
    | split
    | with_reducible apply Touch.then (upd_pairsent ..)

theorem execMirrorTransfer_touch (s : State) : TouchX k_execMirrorTransfer s (execMirrorTransfer s) := by
  unfold execMirrorTransfer
  simp -zeta -beta -eta only [mk_eq]
  repeat' first
    | ((first | lift_lets -underBinder | skip); with_reducible intro zz; first | ((first | (have _q : PairSt := zz; clear _q)); dsimp -zeta only [zz]; clear zz) | (refine cut_k (okw k_execMirrorTransfer zz) (by with_reducible first | exact okw_PAIR_MSEQ (by decide)) (fun _ => ?_); clear_value zz) | (refine cut_k (Touch k_execMirrorTransfer s zz) ?_ (fun _ => ?_); rotate_left; clear_value zz; rotate_right) | clear_value zz)
    | with_reducible exact Touch.refl
    | with_reducible assumption
    | decide
    | with_reducible exact okw_PAIR_MSEQ (by decide)
    | with_reducible refine touchX_next ?_
    | with_reducible refine foldl_k (fun _ _ _ => ?_) ?_
    | with_reducible refine ite_k ?_ ?_
    | with_reducible refine fset_w ?_ ?_
    | with_reducible apply Touch.then (sendMir_touch ..)
    | with_reducible apply Touch.then (setNow_touch ..)
    | unfold zz; try dsimp -zeta only
    | with_reducible apply Touch.then (upd_pairrecs_pairsent ..)
    | with_reducible apply Touch.then (upd_pairasked_pairchangedC_paircopy_pairrot ..)

theorem execMirrorKeepTx_touch (s : State) : TouchX k_execMirrorKeepTx s (execMirrorKeepTx s) := by
  unfold execMirrorKeepTx
  simp -zeta -beta -eta only [mk_eq]
  repeat' first
    | ((first | lift_lets -underBinder | skip); with_reducible intro zz; first | ((first | (have _q : PairSt := zz; clear _q)); dsimp -zeta only [zz]; clear zz) | (refine cut_k (Touch k_execMirrorKeepTx s zz) ?_ (fun _ => ?_); rotate_left; clear_value zz; rotate_right) | clear_value zz)
    | with_reducible exact Touch.refl
    | with_reducible assumption
    | decide
    | with_reducible refine touchX_next ?_
    | with_reducible refine ite_k ?_ ?_
    | with_reducible apply Touch.then (sendMir_touch ..)
    | with_reducible apply Touch.then (upd_pairsent ..)

theorem execMirrorAckTx_touch (s : State) : TouchX k_execMirrorAckTx s (execMirrorAckTx s) := by
  unfold execMirrorAckTx
  simp -zeta -beta -eta only [mk_eq]
  repeat' first
    | ((first | lift_lets -underBinder | skip); with_reducible intro zz; first | ((first | (have _q : PairSt := zz; clear _q)); dsimp -zeta only [zz]; clear zz) | (refine cut_k (Touch k_execMirrorAckTx s zz) ?_ (fun _ => ?_); rotate_left; clear_value zz; rotate_right) | (refine cut_k (∀ t, Touch k_execMirrorAckTx s t → Touch k_execMirrorAckTx s (zz t)) (fun _ _ => ?_) (fun _ => ?_); rotate_left; clear_value zz; rotate_right) | (refine cut_k (∀ a t, Touch k_execMirrorAckTx s t → Touch k_execMirrorAckTx s (zz a t)) (fun _ _ _ => ?_) (fun _ => ?_); rotate_left; clear_value zz; rotate_right) | (refine cut_k (∀ a b t, Touch k_execMirrorAckTx s t → Touch k_execMirrorAckTx s (zz a b t)) (fun _ _ _ _ => ?_) (fun _ => ?_); rotate_left; clear_value zz; rotate_right) | (refine cut_k (∀ a b c d t, Touch k_execMirrorAckTx s t → Touch k_execMirrorAckTx s (zz a b c d t)) (fun _ _ _ _ _ _ => ?_) (fun _ => ?_); rotate_left; clear_value zz; rotate_right) | clear_value zz)
    | with_reducible exact Touch.refl
    | with_reducible assumption
    | decide
    | with_reducible refine touchX_next ?_
    | with_reducible refine ite_k ?_ ?_
    | with_reducible apply Touch.then (sendMir_touch ..)
    | unfold zz; try dsimp -zeta only
    | with_reducible apply_assumption
    | with_reducible apply Touch.then (upd_pairsent_pairwant ..)

theorem dropCovered_touch (s : State) : Touch k_dropCovered s (dropCovered s) := by
  unfold dropCovered
  simp -zeta -beta -eta only [mk_eq]
  repeat' first
    | ((first | lift_lets -underBinder | skip); with_reducible intro zz; first | ((first | (have _q : PairSt := zz; clear _q)); dsimp -zeta only [zz]; clear zz) | (refine cut_k (Touch k_dropCovered s zz) ?_ (fun _ => ?_); rotate_left; clear_value zz; rotate_right) | clear_value zz)
    | with_reducible exact Touch.refl
    | with_reducible assumption
    | decide
    | unfold zz; try dsimp -zeta only
    | with_reducible apply Touch.then (upd_pairrecs ..)

theorem ackRx_touch (h : MirHdr) (pstate : BitVec 8) (rseq : Word) (key : Word) (level : BitVec 8) (reqs : List (BitVec 8)) (s : State) : Touch k_ackRx s (ackRx h pstate rseq key level reqs s) := by
  unfold ackRx
  simp -zeta -beta -eta only [mk_eq]
  repeat' first
    | ((first | lift_lets -underBinder | skip); with_reducible intro zz; first | ((first | (have _q : PairSt := zz; clear _q)); dsimp -zeta only [zz]; clear zz) | (refine cut_k (okw k_ackRx zz) (by with_reducible first | exact okw_PAIR_PLKEY (by decide) | exact okw_PAIR_RSEQ (by decide) | exact okw_PAIR_PSERIAL (by decide) | exact okw_PAIR_STATUS (by decide)) (fun _ => ?_); clear_value zz) | (refine cut_k (Touch k_ackRx s zz) ?_ (fun _ => ?_); rotate_left; clear_value zz; rotate_right) | clear_value zz)
    | with_reducible exact Touch.refl
    | with_reducible assumption
    | decide
    | with_reducible exact okw_PAIR_PLKEY (by decide)
    | with_reducible exact okw_PAIR_RSEQ (by decide)
    | with_reducible exact okw_PAIR_PSERIAL (by decide)
    | with_reducible exact okw_PAIR_STATUS (by decide)
    | with_reducible refine foldl_k (fun _ _ _ => ?_) ?_
    | with_reducible refine ite_k ?_ ?_
    | with_reducible refine w1cSet_w ?_ ?_ ?_
    | with_reducible refine wr_w ?_ ?_
    | with_reducible apply Touch.then (hearPartner_touch ..)
    | with_reducible apply Touch.then (dropCovered_touch ..)
    | with_reducible apply Touch.then (addRec_touch ..)
    | with_reducible apply Touch.then (mirUp_touch ..)
    | unfold zz; try dsimp -zeta only
    | with_reducible apply Touch.then (upd_pairasked_pairplevel_pairpstate ..)
    | with_reducible apply Touch.then (upd_paircopy ..)

theorem judgeMirror_touch (s : State) : Touch k_judgeMirror s (judgeMirror s) := by
  unfold judgeMirror
  repeat' first
    | with_reducible exact Touch.refl
    | with_reducible assumption
    | decide
    | with_reducible refine ite_k ?_ ?_
    | with_reducible apply Touch.then (mirDown_touch ..)

theorem execMirrorLinkDown_touch (s : State) : TouchX k_execMirrorLinkDown s (execMirrorLinkDown s) := by
  unfold execMirrorLinkDown
  repeat' first
    | with_reducible exact Touch.refl
    | with_reducible assumption
    | decide
    | with_reducible refine touchX_next ?_
    | with_reducible apply Touch.then (judgeMirror_touch ..)

theorem countTake_touch (s : State) : Touch k_countTake s (countTake s) := by
  unfold countTake
  repeat' first
    | with_reducible exact Touch.refl
    | with_reducible assumption
    | decide
    | with_reducible exact okw_PAIR_TAKE (by decide)
    | with_reducible refine fincWrap_w ?_ ?_
    | with_reducible refine fset_w ?_ ?_

theorem execTakeover_touch (s : State) : TouchX k_execTakeover s (execTakeover s) := by
  unfold execTakeover
  simp -zeta -beta -eta only [mk_eq]
  repeat' first
    | ((first | lift_lets -underBinder | skip); with_reducible intro zz; first | ((first | (have _q : PairSt := zz; clear _q)); dsimp -zeta only [zz]; clear zz) | (refine cut_k (okw k_execTakeover zz) (by with_reducible first | exact okw_PAIR_STATUS (by decide)) (fun _ => ?_); clear_value zz) | (refine cut_k (Touch k_execTakeover s zz) ?_ (fun _ => ?_); rotate_left; clear_value zz; rotate_right) | (refine cut_k (∀ t, Touch k_execTakeover s t → Touch k_execTakeover s (zz t)) (fun _ _ => ?_) (fun _ => ?_); rotate_left; clear_value zz; rotate_right) | (refine cut_k (∀ a t, Touch k_execTakeover s t → Touch k_execTakeover s (zz a t)) (fun _ _ _ => ?_) (fun _ => ?_); rotate_left; clear_value zz; rotate_right) | (refine cut_k (∀ a b t, Touch k_execTakeover s t → Touch k_execTakeover s (zz a b t)) (fun _ _ _ _ => ?_) (fun _ => ?_); rotate_left; clear_value zz; rotate_right) | (refine cut_k (∀ a b c d t, Touch k_execTakeover s t → Touch k_execTakeover s (zz a b c d t)) (fun _ _ _ _ _ _ => ?_) (fun _ => ?_); rotate_left; clear_value zz; rotate_right) | clear_value zz)
    | with_reducible exact Touch.refl
    | with_reducible assumption
    | decide
    | with_reducible exact okw_PAIR_STATUS (by decide)
    | with_reducible refine touchX_next ?_
    | with_reducible refine ite_k ?_ ?_
    | with_reducible refine w1cSet_w ?_ ?_ ?_
    | with_reducible refine fput_w ?_ ?_
    | with_reducible apply Touch.then (setPairState_touch ..)
    | with_reducible apply Touch.then (becomeMaster_touch ..)
    | with_reducible apply Touch.then (logSteward_touch ..)
    | with_reducible apply Touch.then (countTake_touch ..)
    | unfold zz; try dsimp -zeta only
    | with_reducible apply_assumption
    | with_reducible apply Touch.then (upd_pairexpect_pairheard_pairpstate_pairrecs_pairreq_pairrx ..)

theorem pairCmdEff_touch (v : Word) (s : State) : TouchO k_pairCmdEff s (pairCmdEff v s) := by
  unfold pairCmdEff
  simp -zeta -beta -eta only [mk_eq]
  repeat' first
    | ((first | lift_lets -underBinder | skip); with_reducible intro zz; first | ((first | (have _q : PairSt := zz; clear _q)); dsimp -zeta only [zz]; clear zz) | (refine cut_k (Touch k_pairCmdEff s zz) ?_ (fun _ => ?_); rotate_left; clear_value zz; rotate_right) | (refine cut_k (TouchO k_pairCmdEff s zz) ?_ (fun _ => ?_); rotate_left; clear_value zz; rotate_right) | (refine cut_k (∀ t, Touch k_pairCmdEff s t → Touch k_pairCmdEff s (zz t)) (fun _ _ => ?_) (fun _ => ?_); rotate_left; clear_value zz; rotate_right) | (refine cut_k (∀ a t, Touch k_pairCmdEff s t → Touch k_pairCmdEff s (zz a t)) (fun _ _ _ => ?_) (fun _ => ?_); rotate_left; clear_value zz; rotate_right) | (refine cut_k (∀ a b t, Touch k_pairCmdEff s t → Touch k_pairCmdEff s (zz a b t)) (fun _ _ _ _ => ?_) (fun _ => ?_); rotate_left; clear_value zz; rotate_right) | (refine cut_k (∀ a b c d t, Touch k_pairCmdEff s t → Touch k_pairCmdEff s (zz a b c d t)) (fun _ _ _ _ _ _ => ?_) (fun _ => ?_); rotate_left; clear_value zz; rotate_right) | clear_value zz)
    | with_reducible exact Touch.refl
    | with_reducible assumption
    | decide
    | with_reducible exact touchO_none
    | with_reducible refine touchO_some ?_
    | with_reducible refine touchO_map ?_ (fun _ _ => ?_)
    | with_reducible refine touch_getD ?_ ?_
    | with_reducible refine ite_k ?_ ?_
    | with_reducible apply Touch.then (setPairState_touch ..)
    | unfold zz; try dsimp -zeta only
    | with_reducible apply_assumption
    | exact touch_ofO rfl ‹TouchO _ _ (some _)›
    | with_reducible refine touchO_map' (fun _ => ?_)
    | refine touch_ofO (by assumption) ?_
    | with_reducible apply Touch.then (upd_pairswo ..)
    | with_reducible apply Touch.then (upd_pairgot ..)

theorem execSwitchover_touch (w : Who) (s : State) : TouchX k_execSwitchover s (execSwitchover w s) := by
  unfold execSwitchover
  repeat' first
    | with_reducible exact Touch.refl
    | with_reducible assumption
    | decide
    | with_reducible refine touchX_next ?_
    | with_reducible exact touchO_none
    | with_reducible refine touchO_some ?_
    | with_reducible refine touchO_map ?_ (fun _ _ => ?_)
    | with_reducible refine touch_getD ?_ ?_
    | with_reducible apply Touch.thenO (pairCmdEff_touch ..)
    | with_reducible refine gated_k ?_ ?_ ?_
    | exact touch_ofO rfl ‹TouchO _ _ (some _)›
    | with_reducible refine touchO_map' (fun _ => ?_)
    | refine touch_ofO (by assumption) ?_

theorem execSwitchoverRelease_touch (s : State) : TouchX k_execSwitchoverRelease s (execSwitchoverRelease s) := by
  unfold execSwitchoverRelease
  simp -zeta -beta -eta only [mk_eq]
  repeat' first
    | ((first | lift_lets -underBinder | skip); with_reducible intro zz; first | ((first | (have _q : PairSt := zz; clear _q)); dsimp -zeta only [zz]; clear zz) | (refine cut_k (Touch k_execSwitchoverRelease s zz) ?_ (fun _ => ?_); rotate_left; clear_value zz; rotate_right) | (refine cut_k (∀ t, Touch k_execSwitchoverRelease s t → Touch k_execSwitchoverRelease s (zz t)) (fun _ _ => ?_) (fun _ => ?_); rotate_left; clear_value zz; rotate_right) | (refine cut_k (∀ a t, Touch k_execSwitchoverRelease s t → Touch k_execSwitchoverRelease s (zz a t)) (fun _ _ _ => ?_) (fun _ => ?_); rotate_left; clear_value zz; rotate_right) | (refine cut_k (∀ a b t, Touch k_execSwitchoverRelease s t → Touch k_execSwitchoverRelease s (zz a b t)) (fun _ _ _ _ => ?_) (fun _ => ?_); rotate_left; clear_value zz; rotate_right) | (refine cut_k (∀ a b c d t, Touch k_execSwitchoverRelease s t → Touch k_execSwitchoverRelease s (zz a b c d t)) (fun _ _ _ _ _ _ => ?_) (fun _ => ?_); rotate_left; clear_value zz; rotate_right) | clear_value zz)
    | with_reducible exact Touch.refl
    | with_reducible assumption
    | decide
    | with_reducible exact okw_PAIR_STATUS (by decide)
    | with_reducible exact okw_PAIR_CLEAN (by decide)
    | with_reducible refine touchX_next ?_
    | with_reducible refine ite_k ?_ ?_
    | with_reducible refine w1cSet_w ?_ ?_ ?_
    | with_reducible refine fset_w ?_ ?_
    | with_reducible apply Touch.then (setPairState_touch ..)
    | with_reducible apply Touch.then (becomeSlave_touch ..)
    | with_reducible apply Touch.then (countTake_touch ..)
    | with_reducible apply Touch.then (stopLead_touch ..)
    | unfold zz; try dsimp -zeta only
    | with_reducible apply_assumption
    | with_reducible apply Touch.then (upd_pairbegan_pairpstate_pairreq_pairswo ..)

theorem execResync_touch (w : Who) (s : State) : TouchX k_execResync s (execResync w s) := by
  unfold execResync
  repeat' first
    | with_reducible exact Touch.refl
    | with_reducible assumption
    | decide
    | with_reducible refine touchX_next ?_
    | with_reducible exact touchO_none
    | with_reducible refine touchO_some ?_
    | with_reducible refine touchO_map ?_ (fun _ _ => ?_)
    | with_reducible refine touch_getD ?_ ?_
    | with_reducible apply Touch.thenO (pairCmdEff_touch ..)
    | with_reducible refine gated_k ?_ ?_ ?_
    | exact touch_ofO rfl ‹TouchO _ _ (some _)›
    | with_reducible refine touchO_map' (fun _ => ?_)
    | refine touch_ofO (by assumption) ?_

theorem execClrFault_touch (w : Who) (s : State) : TouchX k_execClrFault s (execClrFault w s) := by
  unfold execClrFault
  repeat' first
    | with_reducible exact Touch.refl
    | with_reducible assumption
    | decide
    | with_reducible refine touchX_next ?_
    | with_reducible exact touchO_none
    | with_reducible refine touchO_some ?_
    | with_reducible refine touchO_map ?_ (fun _ _ => ?_)
    | with_reducible refine touch_getD ?_ ?_
    | with_reducible apply Touch.thenO (pairCmdEff_touch ..)
    | with_reducible refine gated_k ?_ ?_ ?_
    | exact touch_ofO rfl ‹TouchO _ _ (some _)›
    | with_reducible refine touchO_map' (fun _ => ?_)
    | refine touch_ofO (by assumption) ?_

theorem execResyncComplete_touch (s : State) : TouchX k_execResyncComplete s (execResyncComplete s) := by
  unfold execResyncComplete
  repeat' first
    | with_reducible exact Touch.refl
    | with_reducible assumption
    | decide
    | with_reducible exact okw_PAIR_CLEAN (by decide)
    | with_reducible refine touchX_next ?_
    | with_reducible refine ite_k ?_ ?_
    | with_reducible refine fset_w ?_ ?_
    | with_reducible apply Touch.then (setPairState_touch ..)

theorem judgeProving_touch (s : State) : Touch k_judgeProving s (judgeProving s) := by
  unfold judgeProving
  repeat' first
    | with_reducible exact Touch.refl
    | with_reducible assumption
    | decide
    | with_reducible refine ite_k ?_ ?_
    | with_reducible apply Touch.then (setPairState_touch ..)

theorem execProvingComplete_touch (s : State) : TouchX k_execProvingComplete s (execProvingComplete s) := by
  unfold execProvingComplete
  repeat' first
    | with_reducible exact Touch.refl
    | with_reducible assumption
    | decide
    | with_reducible refine touchX_next ?_
    | with_reducible apply Touch.then (judgeProving_touch ..)

theorem pairTick_touch (s : State) : Touch k_pairTick s (pairTick s) := by
  unfold pairTick
  simp -zeta -beta -eta only [mk_eq]
  repeat' first
    | ((first | lift_lets -underBinder | skip); with_reducible intro zz; first | ((first | (have _q : PairSt := zz; clear _q)); dsimp -zeta only [zz]; clear zz) | (refine cut_k (okw k_pairTick zz) (by with_reducible first | exact okw_PAIR_CLEAN (by decide)) (fun _ => ?_); clear_value zz) | (refine cut_k (Touch k_pairTick s zz) ?_ (fun _ => ?_); rotate_left; clear_value zz; rotate_right) | clear_value zz)
    | with_reducible exact Touch.refl
    | with_reducible assumption
    | decide
    | with_reducible exact okw_PAIR_CLEAN (by decide)
    | with_reducible refine ite_k ?_ ?_
    | with_reducible refine fincSat_w ?_ ?_
    | with_reducible apply Touch.then (countDivergence_touch ..)
    | with_reducible apply Touch.then (judgeProving_touch ..)
    | with_reducible apply Touch.then (judgeMirror_touch ..)
    | with_reducible apply Touch.then (loadAngle_touch ..)
    | with_reducible apply Touch.then (matchAll_touch ..)
    | unfold zz; try dsimp -zeta only
    | split
    | with_reducible apply Touch.then (upd_paircmp_pairdiv_pairsince ..)
    | with_reducible apply Touch.then (upd_pairload ..)
    | with_reducible apply Touch.then (upd_pairang ..)

end Sys2Proof.Laws
end

