-- ==== Sys2Proof/Laws/TouchSystem.lean ====
section
/-! SUPPORT. What each operation of Machine/System.lean can touch: one lemma per operation, by footprint (Laws/Touch.lean). -/

set_option linter.unusedTactic false
set_option linter.unreachableTactic false
set_option linter.unusedSimpArgs false
set_option linter.unusedVariables false

namespace Sys2Proof.Laws
open Sys2Proof Sys2Proof.Machine R

/-! Footprints. -/
def k_linkPass : Nat := 0x4000000000000000000000000000000000000000000000000000000000000000000000010000000000000000000000000000000000
def k_execDataLinkKeepAlive : Nat := 0x4000000000000000000000000000000000000000000000000000000000000000000000010000000000000000000000000000000003
def k_execDataLinkTransfer : Nat := 0x4000000000000000000000000000000000000000000000000000000000000000000000010000000000000000000000000000000007
def k_execDataLinkLostS : Nat := 0x2834142101002000000000208400020030010003800000000000000000000800000000040e4300043c100c000000000021100000028
def k_execDataLinkLostC : Nat := 0x28000000000000000000002080000200300100028000000000000000000000000000000400030000000000000000000021100000010
def k_regionCtrlEff : Nat := 0x28000000000000000000000000000000000000000000000000000000000080000000000400030000000000000000000000000000000
def k_execRegionCtrlWrite : Nat := 0x2830000000000000000000000000000000000000000000000000000000008800000000060f43000000000c000000000000000000000
def k_clockSwitch : Nat := 0x100000000000000000000000000000000000000001000000
def k_execClockSwitch : Nat := 0x100000000000000000000000000000000000000001000000
def k_applyResv : Nat := 0x100000000000000000100
def k_execReservationApply : Nat := 0x100000000000000000100
def k_setVolts : Nat := 0x100000000000000000000000000000000000000000000000
def k_execThermalMeasure : Nat := 0x28000000000000000000000000000000000000000000000000000000001100000000000400030000000000000000000000000000300
def k_execQuarWindowEnd : Nat := 0x200000000000000000000000000000000000000000000000
def k_clearPage : Nat := 0x0
def k_startReload : Nat := 0x40030000000000000000000000000000000000000000000000000000000010800000000000e40000000000c000000000010001000000
def k_regionCmdEff : Nat := 0x42830000000000000000000000000000000000000000000000000000000010800000000040e43000000000c000000000010001000100
def k_execQuarantine : Nat := 0x42830000000000000000000000000000000000000000000000000000000010800000000060f43000000000c000000000010001000100
def k_execReload : Nat := 0x42830000000000000000000000000000000000000000000000000000000010800000000060f43000000000c000000000010001000100
def k_homeIn : Nat := 0x100000000000000000000000000000000000000000000040
def k_moveCams : Nat := 0x8000000000000000000000000000c800000000000000000000000000000000000000000000000000000000000000000000000000000
def k_placeTask : Nat := 0x400000000000000001c00000000000000000000000000000000000000000000000000000000000400000000000000000000000000000
def k_moveLanes : Nat := 0x400300000000000001c0000000000000000000000000000000000000000000800000000000e40040000000c000000000000000000100
def k_migrationEnd : Nat := 0x400300000000000001c0000000000000000000000000000000000000000010800000000000e40040000000c000000000010001000100
def k_leaveBehind : Nat := 0x28000000000000000000000000000200300100068000000000000000000000000000000400030000000000000000000001100000100
def k_migrateOne : Nat := 0xac30000000000000003000000000ca0030010006c00000000000000000030800000000041e43000000000c000000000001100800140
def k_execMigrateContext : Nat := 0x4ac300000000000001c3000000000ca0030010006c00000000000000000030800000000041e43040000000c000000000011101800140
def k_reinstall : Nat := 0x3000000000000000000002c000000000000000000000000000000000000000000000000000000000000000000
def k_execReloadTestDone : Nat := 0x428300000000000001c3000000000000000000002c00000000000000000030800000000040e43040000000c000000000000000000100

theorem linkPass_touch (ok : Bool) (s : State) : Touch2 k_linkPass s (linkPass ok s) := by
  unfold linkPass
  repeat' first
    | ((first | lift_lets -underBinder | skip); with_reducible intro zz; first | (refine cut_k (Touch k_linkPass s zz) ?_ (fun _ => ?_); rotate_left; clear_value zz; rotate_right) | (refine cut_k (Touch2 k_linkPass s zz) ?_ (fun _ => ?_); rotate_left; clear_value zz; rotate_right) | clear_value zz)
    | with_reducible exact Touch.refl
    | with_reducible assumption
    | decide
    | with_reducible apply Touch.then2 (fiHit_touch ..)
    | with_reducible refine Touch.snd ?_
    | unfold zz; try dsimp -zeta only
    | split
    | with_reducible refine touch2_mk ?_
    | exact touch_of2 rfl ‹Touch2 _ _ (_, _)›
    | refine touch_of2 (by assumption) ?_

theorem execDataLinkKeepAlive_touch (okS : Bool) (okC : Bool) (s : State) : TouchX k_execDataLinkKeepAlive s (execDataLinkKeepAlive okS okC s) := by
  unfold execDataLinkKeepAlive
  simp -zeta -beta -eta only [mk_eq]
  repeat' first
    | ((first | lift_lets -underBinder | skip); with_reducible intro zz; first | ((first | (have _q : CoreSt := zz; clear _q)); dsimp -zeta only [zz]; clear zz) | (refine cut_k (Touch k_execDataLinkKeepAlive s zz) ?_ (fun _ => ?_); rotate_left; clear_value zz; rotate_right) | (refine cut_k (Touch2 k_execDataLinkKeepAlive s zz) ?_ (fun _ => ?_); rotate_left; clear_value zz; rotate_right) | clear_value zz)
    | with_reducible exact Touch.refl
    | with_reducible assumption
    | decide
    | with_reducible refine touchX_next ?_
    | with_reducible refine ite_k ?_ ?_
    | with_reducible apply Touch.then2 (linkPass_touch ..)
    | with_reducible refine Touch.snd ?_
    | unfold zz; try dsimp -zeta only
    | split
    | with_reducible refine touch2_mk ?_
    | exact touch_of2 rfl ‹Touch2 _ _ (_, _)›
    | refine touch_of2 (by assumption) ?_
    | with_reducible apply Touch.then (upd_coresinceC_coresinceS ..)

theorem execDataLinkTransfer_touch (toS : Bool) (ok : Bool) (s : State) : TouchX k_execDataLinkTransfer s (execDataLinkTransfer toS ok s) := by
  unfold execDataLinkTransfer
  simp -zeta -beta -eta only [mk_eq]
  repeat' first
    | ((first | lift_lets -underBinder | skip); with_reducible intro zz; first | ((first | (have _q : CoreSt := zz; clear _q)); dsimp -zeta only [zz]; clear zz) | (refine cut_k (Touch k_execDataLinkTransfer s zz) ?_ (fun _ => ?_); rotate_left; clear_value zz; rotate_right) | (refine cut_k (Touch2 k_execDataLinkTransfer s zz) ?_ (fun _ => ?_); rotate_left; clear_value zz; rotate_right) | clear_value zz)
    | with_reducible exact Touch.refl
    | with_reducible assumption
    | decide
    | with_reducible refine touchX_next ?_
    | with_reducible refine ite_k ?_ ?_
    | with_reducible apply Touch.then2 (linkPass_touch ..)
    | with_reducible refine Touch.snd ?_
    | unfold zz; try dsimp -zeta only
    | split
    | with_reducible refine touch2_mk ?_
    | exact touch_of2 rfl ‹Touch2 _ _ (_, _)›
    | refine touch_of2 (by assumption) ?_
    | with_reducible apply Touch.then (upd_corerepeats ..)
    | with_reducible apply Touch.then (upd_coresinceS ..)
    | with_reducible apply Touch.then (upd_coresinceC ..)

theorem execDataLinkLostS_touch (s : State) : TouchX k_execDataLinkLostS s (execDataLinkLostS s) := by
  unfold execDataLinkLostS
  simp -zeta -beta -eta only [mk_eq]
  repeat' first
    | ((first | lift_lets -underBinder | skip); with_reducible intro zz; first | ((first | (have _q : CoreSt := zz; clear _q)); dsimp -zeta only [zz]; clear zz) | (refine cut_k (Touch k_execDataLinkLostS s zz) ?_ (fun _ => ?_); rotate_left; clear_value zz; rotate_right) | clear_value zz)
    | with_reducible exact Touch.refl
    | with_reducible assumption
    | decide
    | with_reducible refine touchX_next ?_
    | with_reducible refine ite_k ?_ ?_
    | with_reducible apply Touch.then (deviceFault_touch ..)
    | with_reducible apply Touch.then (stopLead_touch ..)
    | with_reducible apply Touch.then (holdOff_touch ..)
    | with_reducible apply Touch.then (upd_coreboost_corelostS ..)

theorem execDataLinkLostC_touch (s : State) : TouchX k_execDataLinkLostC s (execDataLinkLostC s) := by
  unfold execDataLinkLostC
  simp -zeta -beta -eta only [mk_eq]
  repeat' first
    | ((first | lift_lets -underBinder | skip); with_reducible intro zz; first | ((first | (have _q : CoreSt := zz; clear _q)); dsimp -zeta only [zz]; clear zz) | (refine cut_k (Touch k_execDataLinkLostC s zz) ?_ (fun _ => ?_); rotate_left; clear_value zz; rotate_right) | clear_value zz)
    | with_reducible exact Touch.refl
    | with_reducible assumption
    | decide
    | with_reducible refine touchX_next ?_
    | with_reducible refine ite_k ?_ ?_
    | with_reducible apply Touch.then (holdOff_touch ..)
    | with_reducible refine eachN_k (fun _ _ _ => ?_) ?_
    | with_reducible apply Touch.then (cause_touch ..)
    | with_reducible apply Touch.then (react_touch ..)
    | unfold zz; try dsimp -zeta only
    | with_reducible apply Touch.then (upd_corelostC ..)

theorem regionCtrlEff_touch (g : Nat) (v : Word) (s : State) : TouchO k_regionCtrlEff s (regionCtrlEff g v s) := by
  unfold regionCtrlEff
  repeat' first
    | ((first | lift_lets -underBinder | skip); with_reducible intro zz; first | (refine cut_k (okw k_regionCtrlEff zz) (by with_reducible first | exact okw_REGION_CTRL (by decide)) (fun _ => ?_); clear_value zz) | (refine cut_k (Touch k_regionCtrlEff s zz) ?_ (fun _ => ?_); rotate_left; clear_value zz; rotate_right) | (refine cut_k (TouchO k_regionCtrlEff s zz) ?_ (fun _ => ?_); rotate_left; clear_value zz; rotate_right) | clear_value zz)
    | with_reducible exact Touch.refl
    | with_reducible assumption
    | decide
    | with_reducible exact okw_REGION_CTRL (by decide)
    | with_reducible exact touchO_none
    | with_reducible refine touchO_some ?_
    | with_reducible refine touchO_map ?_ (fun _ _ => ?_)
    | with_reducible refine touch_getD ?_ ?_
    | with_reducible refine ite_k ?_ ?_
    | with_reducible refine plainEff_w ?_ ?_
    | with_reducible apply Touch.then (sedRule_touch ..)
    | unfold zz; try dsimp -zeta only
    | split
    | exact touch_ofO rfl ‹TouchO _ _ (some _)›
    | with_reducible refine touchO_map' (fun _ => ?_)
    | refine touch_ofO (by assumption) ?_

theorem execRegionCtrlWrite_touch (w : Who) (g : BitVec 2) (v : Word) (s : State) : TouchX k_execRegionCtrlWrite s (execRegionCtrlWrite w g v s) := by
  unfold execRegionCtrlWrite
  repeat' first
    | with_reducible exact Touch.refl
    | with_reducible assumption
    | decide
    | with_reducible refine touchX_next ?_
    | with_reducible exact touchO_none
    | with_reducible refine touchO_some ?_
    | with_reducible refine touchO_map ?_ (fun _ _ => ?_)
    | with_reducible refine touch_getD ?_ ?_
    | with_reducible apply Touch.thenO (regionCtrlEff_touch ..)
    | with_reducible refine gated_k ?_ ?_ ?_
    | exact touch_ofO rfl ‹TouchO _ _ (some _)›
    | with_reducible refine touchO_map' (fun _ => ?_)
    | refine touch_ofO (by assumption) ?_

theorem clockSwitch_touch (g : Nat) (s : State) : Touch k_clockSwitch s (clockSwitch g s) := by
  unfold clockSwitch
  repeat' first
    | ((first | lift_lets -underBinder | skip); with_reducible intro zz; first | (refine cut_k (Touch k_clockSwitch s zz) ?_ (fun _ => ?_); rotate_left; clear_value zz; rotate_right) | clear_value zz)
    | with_reducible exact Touch.refl
    | with_reducible assumption
    | decide
    | with_reducible exact okw_REGION_STATUS (by decide)
    | with_reducible refine ite_k ?_ ?_
    | with_reducible refine fput_w ?_ ?_
    | with_reducible apply Touch.then (State_setUnit_touch ..)
    | with_reducible refine eachN_k (fun _ _ _ => ?_) ?_
    | unfold zz; try dsimp -zeta only

theorem execClockSwitch_touch (g : BitVec 2) (s : State) : TouchX k_execClockSwitch s (execClockSwitch g s) := by
  unfold execClockSwitch
  repeat' first
    | with_reducible exact Touch.refl
    | with_reducible assumption
    | decide
    | with_reducible refine touchX_next ?_
    | with_reducible apply Touch.then (clockSwitch_touch ..)

theorem applyResv_touch (g : Nat) (hi : Bool) (s : State) : Touch k_applyResv s (applyResv g hi s) := by
  unfold applyResv
  repeat' first
    | ((first | lift_lets -underBinder | skip); with_reducible intro zz; first | (refine cut_k (Touch k_applyResv s zz) ?_ (fun _ => ?_); rotate_left; clear_value zz; rotate_right) | clear_value zz)
    | with_reducible exact Touch.refl
    | with_reducible assumption
    | decide
    | with_reducible refine ite_k ?_ ?_
    | with_reducible apply Touch.then (State_setRegion_touch ..)
    | with_reducible apply Touch.then (want_touch ..)
    | unfold zz; try dsimp -zeta only

theorem execReservationApply_touch (g : BitVec 2) (hi : Bool) (s : State) : TouchX k_execReservationApply s (execReservationApply g hi s) := by
  unfold execReservationApply
  repeat' first
    | with_reducible exact Touch.refl
    | with_reducible assumption
    | decide
    | with_reducible refine touchX_next ?_
    | with_reducible apply Touch.then (applyResv_touch ..)

theorem setVolts_touch (s : State) : Touch k_setVolts s (setVolts s) := by
  unfold setVolts
  repeat' first
    | ((first | lift_lets -underBinder | skip); with_reducible intro zz; first | (refine cut_k (okw k_setVolts zz) (by with_reducible first | exact okw_REGION_STATUS (by decide)) (fun _ => ?_); clear_value zz) | (refine cut_k (Touch k_setVolts s zz) ?_ (fun _ => ?_); rotate_left; clear_value zz; rotate_right) | (refine cut_k (∀ t, Touch k_setVolts s t → Touch k_setVolts s (zz t)) (fun _ _ => ?_) (fun _ => ?_); rotate_left; clear_value zz; rotate_right) | (refine cut_k (∀ a t, Touch k_setVolts s t → Touch k_setVolts s (zz a t)) (fun _ _ _ => ?_) (fun _ => ?_); rotate_left; clear_value zz; rotate_right) | (refine cut_k (∀ a b t, Touch k_setVolts s t → Touch k_setVolts s (zz a b t)) (fun _ _ _ _ => ?_) (fun _ => ?_); rotate_left; clear_value zz; rotate_right) | (refine cut_k (∀ a b c d t, Touch k_setVolts s t → Touch k_setVolts s (zz a b c d t)) (fun _ _ _ _ _ _ => ?_) (fun _ => ?_); rotate_left; clear_value zz; rotate_right) | clear_value zz)
    | with_reducible exact Touch.refl
    | with_reducible assumption
    | decide
    | with_reducible exact okw_REGION_STATUS (by decide)
    | with_reducible refine foldl_k (fun _ _ _ => ?_) ?_
    | with_reducible refine ite_k ?_ ?_
    | with_reducible refine fset_w ?_ ?_
    | with_reducible refine fput_w ?_ ?_
    | with_reducible refine eachN_k (fun _ _ _ => ?_) ?_
    | unfold zz; try dsimp -zeta only
    | with_reducible apply_assumption

theorem execThermalMeasure_touch (t0 : BitVec 8) (t1 : BitVec 8) (t2 : BitVec 8) (t3 : BitVec 8) (s : State) : TouchX k_execThermalMeasure s (execThermalMeasure t0 t1 t2 t3 s) := by
  unfold execThermalMeasure
  simp -zeta -beta -eta only [mk_eq]
  repeat' first
    | ((first | lift_lets -underBinder | skip); with_reducible intro zz; first | ((first | (have _q : CoreSt := zz; clear _q)); dsimp -zeta only [zz]; clear zz) | (refine cut_k (Touch k_execThermalMeasure s zz) ?_ (fun _ => ?_); rotate_left; clear_value zz; rotate_right) | clear_value zz)
    | with_reducible exact Touch.refl
    | with_reducible assumption
    | decide
    | with_reducible exact okw_REGION_STATUS (by decide)
    | with_reducible refine touchX_next ?_
    | with_reducible refine ite_k ?_ ?_
    | with_reducible refine w1cSet_w ?_ ?_ ?_
    | with_reducible refine fput_w ?_ ?_
    | with_reducible refine fset_w ?_ ?_
    | with_reducible apply Touch.then (State_setRegion_touch ..)
    | with_reducible apply Touch.then (setVolts_touch ..)
    | with_reducible apply Touch.then (setCond_touch ..)
    | with_reducible refine eachN_k (fun _ _ _ => ?_) ?_
    | unfold zz; try dsimp -zeta only
    | with_reducible apply Touch.then (upd_freeCtr ..)
    | with_reducible apply Touch.then (upd_coremeasured ..)

theorem execQuarWindowEnd_touch (s : State) : TouchX k_execQuarWindowEnd s (execQuarWindowEnd s) := by
  unfold execQuarWindowEnd
  repeat' first
    | with_reducible exact Touch.refl
    | with_reducible assumption
    | decide
    | with_reducible exact okw_REGION_TILE_ERR (by decide)
    | with_reducible refine touchX_next ?_
    | with_reducible refine ite_k ?_ ?_
    | with_reducible refine fset_w ?_ ?_
    | with_reducible refine eachN_k (fun _ _ _ => ?_) ?_



theorem startReload_touch (g : Nat) (s : State) : Touch k_startReload s (startReload g s) := by
  unfold startReload
  repeat' first
    | ((first | lift_lets -underBinder | skip); with_reducible intro zz; first | (refine cut_k (Touch k_startReload s zz) ?_ (fun _ => ?_); rotate_left; clear_value zz; rotate_right) | (refine cut_k (∀ t, Touch k_startReload s t → Touch k_startReload s (zz t)) (fun _ _ => ?_) (fun _ => ?_); rotate_left; clear_value zz; rotate_right) | (refine cut_k (∀ a t, Touch k_startReload s t → Touch k_startReload s (zz a t)) (fun _ _ _ => ?_) (fun _ => ?_); rotate_left; clear_value zz; rotate_right) | (refine cut_k (∀ a b t, Touch k_startReload s t → Touch k_startReload s (zz a b t)) (fun _ _ _ _ => ?_) (fun _ => ?_); rotate_left; clear_value zz; rotate_right) | (refine cut_k (∀ a b c d t, Touch k_startReload s t → Touch k_startReload s (zz a b c d t)) (fun _ _ _ _ _ _ => ?_) (fun _ => ?_); rotate_left; clear_value zz; rotate_right) | clear_value zz)
    | with_reducible exact Touch.refl
    | with_reducible assumption
    | decide
    | with_reducible exact okr_lane (by decide) (by decide)
    | with_reducible refine ite_k ?_ ?_
    | with_reducible refine imageRewrite_w ?_ ?_
    | with_reducible refine clearPage_w ?_ ?_
    | with_reducible apply Touch.then (State_setUnit_touch ..)
    | with_reducible apply Touch.then (State_setLan_touch ..)
    | with_reducible apply Touch.then (setRegState_touch ..)
    | with_reducible apply Touch.then (clockSwitch_touch ..)
    | with_reducible apply Touch.then (logSteward_touch ..)
    | with_reducible apply Touch.then (setVolts_touch ..)
    | with_reducible refine eachN_k (fun _ _ _ => ?_) ?_
    | unfold zz; try dsimp -zeta only
    | with_reducible apply_assumption

theorem regionCmdEff_touch (g : Nat) (v : Word) (s : State) : TouchO k_regionCmdEff s (regionCmdEff g v s) := by
  unfold regionCmdEff
  repeat' first
    | with_reducible exact Touch.refl
    | with_reducible assumption
    | decide
    | with_reducible exact touchO_none
    | with_reducible refine touchO_some ?_
    | with_reducible refine touchO_map ?_ (fun _ _ => ?_)
    | with_reducible refine touch_getD ?_ ?_
    | with_reducible refine ite_k ?_ ?_
    | with_reducible apply Touch.then (startQuarantine_touch ..)
    | with_reducible apply Touch.then (startReload_touch ..)
    | with_reducible apply Touch.then (sedRule_touch ..)
    | exact touch_ofO rfl ‹TouchO _ _ (some _)›
    | with_reducible refine touchO_map' (fun _ => ?_)
    | refine touch_ofO (by assumption) ?_

theorem execQuarantine_touch (w : Who) (g : BitVec 2) (s : State) : TouchX k_execQuarantine s (execQuarantine w g s) := by
  unfold execQuarantine
  repeat' first
    | with_reducible exact Touch.refl
    | with_reducible assumption
    | decide
    | with_reducible refine touchX_next ?_
    | with_reducible exact touchO_none
    | with_reducible refine touchO_some ?_
    | with_reducible refine touchO_map ?_ (fun _ _ => ?_)
    | with_reducible refine touch_getD ?_ ?_
    | with_reducible apply Touch.thenO (regionCmdEff_touch ..)
    | with_reducible refine gated_k ?_ ?_ ?_
    | exact touch_ofO rfl ‹TouchO _ _ (some _)›
    | with_reducible refine touchO_map' (fun _ => ?_)
    | refine touch_ofO (by assumption) ?_

theorem execReload_touch (w : Who) (g : BitVec 2) (s : State) : TouchX k_execReload s (execReload w g s) := by
  unfold execReload
  repeat' first
    | with_reducible exact Touch.refl
    | with_reducible assumption
    | decide
    | with_reducible refine touchX_next ?_
    | with_reducible exact touchO_none
    | with_reducible refine touchO_some ?_
    | with_reducible refine touchO_map ?_ (fun _ _ => ?_)
    | with_reducible refine touch_getD ?_ ?_
    | with_reducible apply Touch.thenO (regionCmdEff_touch ..)
    | with_reducible refine gated_k ?_ ?_ ?_
    | exact touch_ofO rfl ‹TouchO _ _ (some _)›
    | with_reducible refine touchO_map' (fun _ => ?_)
    | refine touch_ofO (by assumption) ?_

theorem homeIn_touch (n : Nat) (d : Nat) (s : State) : Touch k_homeIn s (homeIn n d s) := by
  unfold homeIn
  repeat' first
    | ((first | lift_lets -underBinder | skip); with_reducible intro zz; first | (refine cut_k (Touch k_homeIn s zz) ?_ (fun _ => ?_); rotate_left; clear_value zz; rotate_right) | clear_value zz)
    | with_reducible exact Touch.refl
    | with_reducible assumption
    | decide
    | with_reducible refine ite_k ?_ ?_
    | with_reducible apply Touch.then (showContexts_touch ..)
    | with_reducible apply Touch.then (State_setCtx_touch ..)
    | unfold zz; try dsimp -zeta only

theorem moveCams_touch (n : Nat) (g : Nat) (d : Nat) (s : State) : Touch k_moveCams s (moveCams n g d s) := by
  unfold moveCams
  repeat' first
    | ((first | lift_lets -underBinder | skip); with_reducible intro zz; first | (refine cut_k (Touch k_moveCams s zz) ?_ (fun _ => ?_); rotate_left; clear_value zz; rotate_right) | clear_value zz)
    | with_reducible exact Touch.refl
    | with_reducible assumption
    | decide
    | with_reducible exact okw_TILE_CRC (by decide)
    | with_reducible exact okw_camTile (by decide)
    | with_reducible exact okw_TILE_INFO (by decide)
    | with_reducible exact okw_CAM_INFO (by decide)
    | with_reducible refine foldl_k (fun _ _ _ => ?_) ?_
    | with_reducible refine wrWords_camTile ?_ (by decide)
    | with_reducible refine fset_w ?_ ?_
    | with_reducible refine wr_w ?_ ?_
    | with_reducible apply Touch.then (releaseTiles_touch ..)
    | unfold zz; try dsimp -zeta only
    | split

theorem placeTask_touch (u : Nat) (t : LaneTask) (s : State) : Touch k_placeTask s (placeTask u t s) := by
  unfold placeTask
  simp -zeta -beta -eta only [mk_eq]
  repeat' first
    | ((first | lift_lets -underBinder | skip); with_reducible intro zz; first | ((first | (have _q : BootSt := zz; clear _q)); dsimp -zeta only [zz]; clear zz) | (refine cut_k (okw k_placeTask zz) (by with_reducible first | exact okw_laneWord (by decide) | exact okw_LT_DESC_B (by decide) | exact okw_LT_DESC_A (by decide) | exact okw_LT_STAT (by decide)) (fun _ => ?_); clear_value zz) | (refine cut_k (Touch k_placeTask s zz) ?_ (fun _ => ?_); rotate_left; clear_value zz; rotate_right) | clear_value zz)
    | with_reducible exact Touch.refl
    | with_reducible assumption
    | decide
    | with_reducible exact okw_laneWord (by decide)
    | with_reducible exact okw_LT_DESC_B (by decide)
    | with_reducible exact okw_LT_DESC_A (by decide)
    | with_reducible exact okw_LT_STAT (by decide)
    | with_reducible refine foldl_k (fun _ _ _ => ?_) ?_
    | with_reducible refine ite_k ?_ ?_
    | with_reducible refine fput_w ?_ ?_
    | with_reducible refine wrN_w ?_ ?_
    | with_reducible refine wr_w ?_ ?_
    | unfold zz; try dsimp -zeta only
    | with_reducible apply Touch.then (upd_bootlanes ..)

theorem moveLanes_touch (g : Nat) (s : State) : Touch k_moveLanes s (moveLanes g s) := by
  unfold moveLanes
  simp -zeta -beta -eta only [mk_eq]
  repeat' first
    | ((first | lift_lets -underBinder | skip); with_reducible intro zz; first | ((first | (have _q : BootSt := zz; clear _q)); dsimp -zeta only [zz]; clear zz) | (refine cut_k (okw k_moveLanes zz) (by with_reducible first | exact okw_LT_DESC_A (by decide)) (fun _ => ?_); clear_value zz) | (refine cut_k (Touch k_moveLanes s zz) ?_ (fun _ => ?_); rotate_left; clear_value zz; rotate_right) | clear_value zz)
    | with_reducible exact Touch.refl
    | with_reducible assumption
    | decide
    | with_reducible exact okw_LT_DESC_A (by decide)
    | with_reducible refine foldl_k (fun _ _ _ => ?_) ?_
    | with_reducible refine ite_k ?_ ?_
    | with_reducible refine fput_w ?_ ?_
    | with_reducible apply Touch.then (State_setRegion_touch ..)
    | with_reducible apply Touch.then (logSteward_touch ..)
    | with_reducible apply Touch.then (placeTask_touch ..)
    | unfold zz; try dsimp -zeta only
    | split
    | with_reducible apply Touch.then (upd_bootlanes ..)

theorem migrationEnd_touch (g : Nat) (s : State) : Touch k_migrationEnd s (migrationEnd g s) := by
  unfold migrationEnd
  repeat' first
    | ((first | lift_lets -underBinder | skip); with_reducible intro zz; first | (refine cut_k (Touch k_migrationEnd s zz) ?_ (fun _ => ?_); rotate_left; clear_value zz; rotate_right) | (refine cut_k (∀ t, Touch k_migrationEnd s t → Touch k_migrationEnd s (zz t)) (fun _ _ => ?_) (fun _ => ?_); rotate_left; clear_value zz; rotate_right) | (refine cut_k (∀ a t, Touch k_migrationEnd s t → Touch k_migrationEnd s (zz a t)) (fun _ _ _ => ?_) (fun _ => ?_); rotate_left; clear_value zz; rotate_right) | (refine cut_k (∀ a b t, Touch k_migrationEnd s t → Touch k_migrationEnd s (zz a b t)) (fun _ _ _ _ => ?_) (fun _ => ?_); rotate_left; clear_value zz; rotate_right) | (refine cut_k (∀ a b c d t, Touch k_migrationEnd s t → Touch k_migrationEnd s (zz a b c d t)) (fun _ _ _ _ _ _ => ?_) (fun _ => ?_); rotate_left; clear_value zz; rotate_right) | clear_value zz)
    | with_reducible exact Touch.refl
    | with_reducible assumption
    | decide
    | with_reducible refine ite_k ?_ ?_
    | with_reducible apply Touch.then (State_setRegion_touch ..)
    | with_reducible apply Touch.then (setRegState_touch ..)
    | with_reducible apply Touch.then (startReload_touch ..)
    | with_reducible apply Touch.then (logSteward_touch ..)
    | with_reducible apply Touch.then (moveLanes_touch ..)
    | unfold zz; try dsimp -zeta only
    | with_reducible apply_assumption

theorem leaveBehind_touch (n : Nat) (g : Nat) (s : State) : Touch k_leaveBehind s (leaveBehind n g s) := by
  unfold leaveBehind
  repeat' first
    | ((first | lift_lets -underBinder | skip); with_reducible intro zz; first | (refine cut_k (Touch k_leaveBehind s zz) ?_ (fun _ => ?_); rotate_left; clear_value zz; rotate_right) | clear_value zz)
    | with_reducible exact Touch.refl
    | with_reducible assumption
    | decide
    | with_reducible apply Touch.then (State_setRegion_touch ..)
    | with_reducible apply Touch.then (raiseCause_touch ..)
    | unfold zz; try dsimp -zeta only

theorem migrateOne_touch (n : Nat) (g : Nat) (s : State) : Touch k_migrateOne s (migrateOne n g s) := by
  unfold migrateOne
  repeat' first
    | ((first | lift_lets -underBinder | skip); with_reducible intro zz; first | (refine cut_k (okw k_migrateOne zz) (by with_reducible first | exact okw_LAW_TILE (by decide) | exact fun _ => okw_LAW_TILE (by decide)) (fun _ => ?_); clear_value zz) | (refine cut_k (Touch k_migrateOne s zz) ?_ (fun _ => ?_); rotate_left; clear_value zz; rotate_right) | (refine cut_k (Touch2 k_migrateOne s zz) ?_ (fun _ => ?_); rotate_left; clear_value zz; rotate_right) | (refine cut_k (TouchL k_migrateOne s zz) ?_ (fun _ => ?_); rotate_left; clear_value zz; rotate_right) | clear_value zz)
    | with_reducible exact Touch.refl
    | with_reducible assumption
    | decide
    | with_reducible exact okw_LAW_TILE (by decide)
    | with_reducible exact fun _ => okw_LAW_TILE (by decide)
    | with_reducible exact touchL_refl
    | with_reducible refine ite_k ?_ ?_
    | with_reducible refine wrAll_w ?_ ?_
    | with_reducible apply Touch.then (State_setReady_touch ..)
    | with_reducible apply Touch.then (leaveBehind_touch ..)
    | with_reducible apply Touch.then (logSteward_touch ..)
    | with_reducible apply Touch.then2 (checkState_touch ..)
    | with_reducible apply Touch.then (tileError_touch ..)
    | with_reducible apply Touch.thenL (LX_store_touch ..)
    | with_reducible apply Touch.then (moveCams_touch ..)
    | with_reducible apply Touch.then (homeIn_touch ..)
    | with_reducible refine Touch.ofL ?_
    | with_reducible refine Touch.snd ?_
    | unfold zz; try dsimp -zeta only
    | split
    | with_reducible refine touch2_mk ?_
    | exact touch_of2 rfl ‹Touch2 _ _ (_, _)›
    | refine touch_of2 (by assumption) ?_

theorem execMigrateContext_touch (s : State) : TouchX k_execMigrateContext s (execMigrateContext s) := by
  unfold execMigrateContext
  repeat' first
    | ((first | lift_lets -underBinder | skip); with_reducible intro zz; first | (refine cut_k (Touch k_execMigrateContext s zz) ?_ (fun _ => ?_); rotate_left; clear_value zz; rotate_right) | clear_value zz)
    | with_reducible exact Touch.refl
    | with_reducible assumption
    | decide
    | with_reducible refine touchX_next ?_
    | with_reducible refine ite_k ?_ ?_
    | with_reducible apply Touch.then (State_setRegion_touch ..)
    | with_reducible apply Touch.then (migrationEnd_touch ..)
    | with_reducible apply Touch.then (migrateOne_touch ..)
    | unfold zz; try dsimp -zeta only
    | split

theorem reinstall_touch (n : Nat) (s : State) : Touch k_reinstall s (reinstall n s) := by
  unfold reinstall
  repeat' first
    | ((first | lift_lets -underBinder | skip); with_reducible intro zz; first | (refine cut_k (okw k_reinstall zz) (by with_reducible first | exact okw_LAW_TILE (by decide) | exact fun _ => okw_LAW_TILE (by decide)) (fun _ => ?_); clear_value zz) | (refine cut_k (Touch k_reinstall s zz) ?_ (fun _ => ?_); rotate_left; clear_value zz; rotate_right) | (refine cut_k (TouchL k_reinstall s zz) ?_ (fun _ => ?_); rotate_left; clear_value zz; rotate_right) | clear_value zz)
    | with_reducible exact Touch.refl
    | with_reducible assumption
    | decide
    | with_reducible exact okw_LAW_TILE (by decide)
    | with_reducible exact fun _ => okw_LAW_TILE (by decide)
    | with_reducible exact touchL_refl
    | with_reducible refine ite_k ?_ ?_
    | with_reducible refine wrAll_w ?_ ?_
    | with_reducible apply Touch.then (clearInit_touch ..)
    | with_reducible apply Touch.thenL (LX_store_touch ..)
    | with_reducible apply Touch.then (putState_touch ..)
    | with_reducible refine Touch.ofL ?_
    | unfold zz; try dsimp -zeta only

theorem execReloadTestDone_touch (g : BitVec 2) (bad : Option (BitVec 8)) (s : State) : TouchX k_execReloadTestDone s (execReloadTestDone g bad s) := by
  unfold execReloadTestDone
  simp -zeta -beta -eta only [mk_eq]
  repeat' first
    | ((first | lift_lets -underBinder | skip); with_reducible intro zz; first | ((first | (have _q : BootSt := zz; clear _q)); dsimp -zeta only [zz]; clear zz) | (refine cut_k (Touch k_execReloadTestDone s zz) ?_ (fun _ => ?_); rotate_left; clear_value zz; rotate_right) | (refine cut_k (∀ t, Touch k_execReloadTestDone s t → Touch k_execReloadTestDone s (zz t)) (fun _ _ => ?_) (fun _ => ?_); rotate_left; clear_value zz; rotate_right) | (refine cut_k (∀ a t, Touch k_execReloadTestDone s t → Touch k_execReloadTestDone s (zz a t)) (fun _ _ _ => ?_) (fun _ => ?_); rotate_left; clear_value zz; rotate_right) | (refine cut_k (∀ a b t, Touch k_execReloadTestDone s t → Touch k_execReloadTestDone s (zz a b t)) (fun _ _ _ _ => ?_) (fun _ => ?_); rotate_left; clear_value zz; rotate_right) | (refine cut_k (∀ a b c d t, Touch k_execReloadTestDone s t → Touch k_execReloadTestDone s (zz a b c d t)) (fun _ _ _ _ _ _ => ?_) (fun _ => ?_); rotate_left; clear_value zz; rotate_right) | clear_value zz)
    | with_reducible exact Touch.refl
    | with_reducible assumption
    | decide
    | with_reducible exact okw_REGION_TILE_ERR (by decide)
    | with_reducible refine touchX_next ?_
    | with_reducible refine foldl_k (fun _ _ _ => ?_) ?_
    | with_reducible refine ite_k ?_ ?_
    | with_reducible refine fset_w ?_ ?_
    | with_reducible apply Touch.then (State_setRegion_touch ..)
    | with_reducible apply Touch.then (setRegState_touch ..)
    | with_reducible apply Touch.then (logSteward_touch ..)
    | with_reducible apply Touch.then (placeTask_touch ..)
    | with_reducible apply Touch.then (reinstall_touch ..)
    | with_reducible apply Touch.then (setVolts_touch ..)
    | with_reducible apply Touch.then (cause_touch ..)
    | with_reducible refine eachN_k (fun _ _ _ => ?_) ?_
    | unfold zz; try dsimp -zeta only
    | split
    | with_reducible apply_assumption
    | with_reducible apply Touch.then (upd_bootlanes ..)

end Sys2Proof.Laws
end

