-- ==== Sys2Proof/Laws/TouchReset.lean ====
section
/-! SUPPORT. What each operation of Machine/Reset.lean can touch: one lemma per operation, by footprint (Laws/Touch.lean). -/

set_option linter.unusedTactic false
set_option linter.unreachableTactic false
set_option linter.unusedSimpArgs false
set_option linter.unusedVariables false

namespace Sys2Proof.Laws
open Sys2Proof Sys2Proof.Machine R

/-! Footprints. -/
def k_setSlot : Nat := 0x8000000000000000000000000000
def k_showSlots : Nat := 0x6000000000000000000000000000000000000000000000
def k_tearJob : Nat := 0x8000000000000000000000000000
def k_recordCause : Nat := 0x280000000000000000000000000000000000000000000000000000000000000c0000000400030800000000000000000000000000000
def k_setStraps : Nat := 0x1000000000020000000000000000000000000000000001000000000000000000000000000001000000000000000000000000000000
def k_blank : Nat := 0x400000000000000000000000000000000000000000000000000000000000000000000007fffffffffffffffffffffffffffffffffff
def k_powerReset : Nat := 0x690000000000200000000000000000000000000000000010000000000000000000000007fffffffffffffffffffffffffffffffffff
def k_unrecord : Nat := 0x800000000000000000000000000000
def k_warmReset : Nat := 0x690000000000200000000000000000000000000000000010000000000010080e00000007fffffffffffffffffffffffffffffffffff
def k_selfReset : Nat := 0x690000000000200000000000000000000000000000000010000000000010080e00000007fffffffffffffffffffffffffffffffffff
def k_failStart : Nat := 0x690000000000200000000000000000000000000000000010000000000010080e00000007fffffffffffffffffffffffffffffffffff
def k_minimalMode : Nat := 0x2834142101000000000000208400020030010003800000600000000000000e02000000040e4300043c100c000080000021100000000
def k_toMinimal : Nat := 0x2834142101000000000000208400020030010003800000600000000000000e0e000000040e4308043c100c000080000021100000000
def k_execPor : Nat := 0x690000000000200000000000000000000000000000000010000000000000000000000007fffffffffffffffffffffffffffffffffff
def k_execVcoreFault : Nat := 0x690000000000200000000000000000000000000000000010000000000000000000000007fffffffffffffffffffffffffffffffffff
def k_execRstN : Nat := 0x690000000000200000000000000000000000000000000010000000000010080e00000007fffffffffffffffffffffffffffffffffff
def k_holdReset : Nat := 0x4000000000000000000000000000000
def k_execThermalShutdown : Nat := 0x690000000000200000000000000000000000000000000010000000000000000000000007fffffffffffffffffffffffffffffffffff
def k_execThermalRecover : Nat := 0x690000000000200000000000000000000000000000000010000000000000000000000007fffffffffffffffffffffffffffffffffff
def k_execBootTimeout : Nat := 0x690000000000200000000000000000000000000000000010000000000010080e00000007fffffffffffffffffffffffffffffffffff
def k_sysCmdEff : Nat := 0x690000000000200000000000000000000000000000000010000000000010080e00000007fffffffffffffffffffffffffffffffffff
def k_execBootRetry : Nat := 0x693000000000200000000000000000000000000000000010000000000010080e00000007fffffffffffffffffffffffffffffffffff
def k_imgCmdEff : Nat := 0x2830000020000000000000000000000000000000000000000000000000000f00000000042e43000840000c000000000000000000000
def k_execSave : Nat := 0x2830000020000000000000000000000000000000000000000000000000000f00000000062f43000840000c000000000000000000000
def k_execAbort : Nat := 0x2830000020000000000000000000000000000000000000000000000000000f00000000062f43000840000c000000000000000000000
def k_execErase : Nat := 0x2830000020000000000000000000000000000000000000000000000000000f00000000062f43000840000c000000000000000000000
def k_finishJob : Nat := 0x30000000000000000000000000000000000000000000000000000000000f00000000000e40000800000c000000000000000000000
def k_jobDone : Nat := 0x30000000000000000000000000000000000000000000000000000000000f00000000002e40000800000c000000000000000000000
def k_execTornSlotErase : Nat := 0x30000000000000000000000000000000000000000000000000000000000f00000000000e40000800000c000000000000000000000
def k_execSafetyWriteDone : Nat := 0x80030056123000000000000208400020030010003800000000000000000000f00000000000e40000e50300c000000000021100000000
def k_execLogPersist : Nat := 0x30000000000000000000000000000000000000000000000000000000000800000000000ec0000000000c000000000000000000000
def k_setBank : Nat := 0x20000000000000000000000000000000000000000000000
def k_rcpResult : Nat := 0x30000000000000000000000000000000000000000000000000000000002800000000000e40000000000c000000000000000000000
def k_rcpCmdEff : Nat := 0x2830000000000000000000000000000000000000000000000000000000006800000000040e43018000000c000000000000000000000
def k_execLoad : Nat := 0x2830000000000000000000000000000000000000000000000000000000006800000000060f43018000000c000000000000000000000
def k_execClear : Nat := 0x2830000000000000000000000000000000000000000000000000000000006800000000060f43018000000c000000000000000000000
def k_fillBank : Nat := 0x60000000000000000080000000000000000000000000000
def k_execRecipeLoadDone : Nat := 0x30000000000000000000000000000000000000000000000000000000006800000000000e40038000000c000000000000000000000
def k_bankCovered : Nat := 0x30000000000000000000000000000000000000000000000000000000006800000000000e40028000000c000000000000000000000
def k_fiCmdEff : Nat := 0x2c000000000000000000000000000000000000000000000000000000000000000000000410030000000000000000000000000000000
def k_execFaultInject : Nat := 0x2c30000000000000000000000000000000000000000000000000000000000800000000061f43000000000c000000000000000000000
def k_stewardRestart : Nat := 0x2834100021000000000000000000000000000000000000000000000000012f0000000007ffff830870000c000000000000000100000
def k_execStewardWatchdog : Nat := 0x6934100021002000000000000000000000000000000000100000000000112f0e00000007fffffffffffffffffffffffffffffffffff

theorem setSlot_touch (b : Bool) (x : SlotImg) (s : State) : Touch k_setSlot s (setSlot b x s) := by
  unfold setSlot
  simp -zeta -beta -eta only [mk_eq]
  repeat' first
    | ((first | lift_lets -underBinder | skip); with_reducible intro zz; first | ((first | (have _q : BootSt := zz; clear _q)); dsimp -zeta only [zz]; clear zz) | (refine cut_k (Touch k_setSlot s zz) ?_ (fun _ => ?_); rotate_left; clear_value zz; rotate_right) | clear_value zz)
    | with_reducible exact Touch.refl
    | with_reducible assumption
    | decide
    | with_reducible refine ite_k ?_ ?_
    | with_reducible apply Touch.then (upd_bootflash ..)

theorem showSlots_touch (s : State) : Touch k_showSlots s (showSlots s) := by
  unfold showSlots
  repeat' first
    | ((first | lift_lets -underBinder | skip); with_reducible intro zz; first | (refine cut_k (Touch k_showSlots s zz) ?_ (fun _ => ?_); rotate_left; clear_value zz; rotate_right) | clear_value zz)
    | with_reducible exact Touch.refl
    | with_reducible assumption
    | decide
    | with_reducible exact okw_IMG_SLOTS (by decide)
    | with_reducible exact okw_IMG_FREE_IGEN (by decide)
    | with_reducible refine ite_k ?_ ?_
    | with_reducible refine fput_w ?_ ?_
    | with_reducible refine wrN_w ?_ ?_
    | unfold zz; try dsimp -zeta only

theorem tearJob_touch (s : State) : Touch k_tearJob s (tearJob s) := by
  unfold tearJob
  repeat' first
    | with_reducible exact Touch.refl
    | with_reducible assumption
    | decide
    | with_reducible refine ite_k ?_ ?_
    | with_reducible apply Touch.then (setSlot_touch ..)

theorem recordCause_touch (code : Nat) (detail : Nat) (s : State) : Touch k_recordCause s (recordCause code detail s) := by
  unfold recordCause
  simp -zeta -beta -eta only [mk_eq]
  repeat' first
    | ((first | lift_lets -underBinder | skip); with_reducible intro zz; first | ((first | (have _q : BootSt := zz; clear _q)); dsimp -zeta only [zz]; clear zz) | (refine cut_k (Touch k_recordCause s zz) ?_ (fun _ => ?_); rotate_left; clear_value zz; rotate_right) | clear_value zz)
    | with_reducible exact Touch.refl
    | with_reducible assumption
    | decide
    | with_reducible exact okw_BOOT_HIST (by decide)
    | with_reducible exact okw_BOOT_CAUSE (by decide)
    | with_reducible refine wrN_w ?_ ?_
    | with_reducible refine wr_w ?_ ?_
    | with_reducible apply Touch.then (cause_touch ..)
    | with_reducible refine eachN_k (fun _ _ _ => ?_) ?_
    | unfold zz; try dsimp -zeta only
    | with_reducible apply Touch.then (upd_bootrecorded ..)

theorem setStraps_touch (rank : Bool) (test : BitVec 2) (s : State) : Touch k_setStraps s (setStraps rank test s) := by
  unfold setStraps
  simp -zeta -beta -eta only [mk_eq]
  repeat' first
    | ((first | lift_lets -underBinder | skip); with_reducible intro zz; first | ((first | (have _q : BootSt := zz; clear _q)); dsimp -zeta only [zz]; clear zz) | (refine cut_k (Touch k_setStraps s zz) ?_ (fun _ => ?_); rotate_left; clear_value zz; rotate_right) | clear_value zz)
    | with_reducible exact Touch.refl
    | with_reducible assumption
    | decide
    | with_reducible exact okw_PAIR_STATUS (by decide)
    | with_reducible exact okw_NET_ID (by decide)
    | with_reducible exact okw_TEST_STATUS (by decide)
    | with_reducible refine fput_w ?_ ?_
    | with_reducible refine fset_w ?_ ?_
    | unfold zz; try dsimp -zeta only
    | with_reducible apply Touch.then (upd_boottest ..)

theorem blank_touch (s : State) : Touch k_blank s (blank s) where
  same p h := by cases p <;> exact absurd h (by decide)
  word a h := by
    rw [foot_of_okw (okw_any (by decide))] at h; cases h
  canon _ := rfl
  pins _ c := ⟨rfl, fun h => (nomatch h), fun h => (nomatch h)⟩
  pending := (tearJob_touch s).pending

theorem powerReset_touch (rank : Bool) (test : BitVec 2) (s : State) : Touch k_powerReset s (powerReset rank test s) := by
  unfold powerReset
  repeat' first
    | with_reducible exact Touch.refl
    | with_reducible assumption
    | decide
    | with_reducible apply Touch.then (setStraps_touch ..)
    | with_reducible apply Touch.then (cause_touch ..)
    | with_reducible apply Touch.then (blank_touch ..)

theorem unrecord_touch (s : State) : Touch k_unrecord s (unrecord s) := by
  unfold unrecord
  simp -zeta -beta -eta only [mk_eq]
  repeat' first
    | ((first | lift_lets -underBinder | skip); with_reducible intro zz; first | ((first | (have _q : BootSt := zz; clear _q)); dsimp -zeta only [zz]; clear zz) | (refine cut_k (Touch k_unrecord s zz) ?_ (fun _ => ?_); rotate_left; clear_value zz; rotate_right) | clear_value zz)
    | with_reducible exact Touch.refl
    | with_reducible assumption
    | decide
    | with_reducible apply Touch.then (upd_bootrecorded ..)

theorem warmReset_touch (code : Nat) (detail : Nat) (s : State) : Touch k_warmReset s (warmReset code detail s) := by
  unfold warmReset
  repeat' first
    | ((first | lift_lets -underBinder | skip); with_reducible intro zz; first | (refine cut_k (Touch k_warmReset s zz) ?_ (fun _ => ?_); rotate_left; clear_value zz; rotate_right) | clear_value zz)
    | with_reducible exact Touch.refl
    | with_reducible assumption
    | decide
    | with_reducible exact okw_BOOT_STATUS (by decide)
    | with_reducible exact okw_BOOT_HIST (by decide)
    | with_reducible exact okw_BOOT_CAUSE (by decide)
    | with_reducible exact okw_LOG_NVM (by decide)
    | with_reducible exact okw_TEST_STATUS (by decide)
    | with_reducible refine ite_k ?_ ?_
    | with_reducible refine fput_w ?_ ?_
    | with_reducible refine fset_w ?_ ?_
    | with_reducible refine wr_w ?_ ?_
    | with_reducible apply Touch.then (recordCause_touch ..)
    | with_reducible apply Touch.then (setStraps_touch ..)
    | with_reducible apply Touch.then (unrecord_touch ..)
    | with_reducible apply Touch.then (setCond_touch ..)
    | with_reducible apply Touch.then (blank_touch ..)
    | with_reducible refine eachN_k (fun _ _ _ => ?_) ?_
    | with_reducible apply Touch.then (cause_touch ..)
    | unfold zz; try dsimp -zeta only

theorem selfReset_touch (s : State) : Touch k_selfReset s (selfReset s) := by
  unfold selfReset
  repeat' first
    | with_reducible exact Touch.refl
    | with_reducible assumption
    | decide
    | with_reducible apply Touch.then (warmReset_touch ..)

theorem failStart_touch (code : Nat) (detail : Nat) (s : State) : Touch k_failStart s (failStart code detail s) := by
  unfold failStart
  repeat' first
    | with_reducible exact Touch.refl
    | with_reducible assumption
    | decide
    | with_reducible apply Touch.then (recordCause_touch ..)
    | with_reducible apply Touch.then (selfReset_touch ..)

theorem minimalMode_touch (s : State) : Touch k_minimalMode s (minimalMode s) := by
  unfold minimalMode
  simp -zeta -beta -eta only [mk_eq]
  repeat' first
    | ((first | lift_lets -underBinder | skip); with_reducible intro zz; first | ((first | (have _q : PairSt := zz; clear _q)); dsimp -zeta only [zz]; clear zz) | (refine cut_k (Touch k_minimalMode s zz) ?_ (fun _ => ?_); rotate_left; clear_value zz; rotate_right) | clear_value zz)
    | with_reducible exact Touch.refl
    | with_reducible assumption
    | decide
    | with_reducible exact okw_NET_STATE (by decide)
    | with_reducible exact okw_BOOT_STATUS (by decide)
    | with_reducible exact okw_NET_CFG (by decide)
    | with_reducible refine fput_w ?_ ?_
    | with_reducible refine fset_w ?_ ?_
    | with_reducible apply Touch.then (deviceFault_touch ..)
    | with_reducible apply Touch.then (showSlots_touch ..)
    | with_reducible apply Touch.then (holdOff_touch ..)
    | unfold zz; try dsimp -zeta only
    | with_reducible apply Touch.then (upd_pairreq ..)

theorem toMinimal_touch (code : Nat) (detail : Nat) (s : State) : Touch k_toMinimal s (toMinimal code detail s) := by
  unfold toMinimal
  repeat' first
    | with_reducible exact Touch.refl
    | with_reducible assumption
    | decide
    | with_reducible apply Touch.then (recordCause_touch ..)
    | with_reducible apply Touch.then (minimalMode_touch ..)

theorem execPor_touch (rank : Bool) (test : BitVec 2) (s : State) : TouchX k_execPor s (execPor rank test s) := by
  unfold execPor
  repeat' first
    | with_reducible exact Touch.refl
    | with_reducible assumption
    | decide
    | with_reducible refine touchX_next ?_
    | with_reducible apply Touch.then (powerReset_touch ..)

theorem execVcoreFault_touch (rank : Bool) (test : BitVec 2) (s : State) : TouchX k_execVcoreFault s (execVcoreFault rank test s) := by
  unfold execVcoreFault
  repeat' first
    | with_reducible exact Touch.refl
    | with_reducible assumption
    | decide
    | with_reducible refine touchX_next ?_
    | with_reducible apply Touch.then (powerReset_touch ..)

theorem execRstN_touch (ns : Nat) (s : State) : TouchX k_execRstN s (execRstN ns s) := by
  unfold execRstN
  repeat' first
    | ((first | lift_lets -underBinder | skip); with_reducible intro zz; first | (refine cut_k (Touch k_execRstN s zz) ?_ (fun _ => ?_); rotate_left; clear_value zz; rotate_right) | (refine cut_k (Touch2 k_execRstN s zz) ?_ (fun _ => ?_); rotate_left; clear_value zz; rotate_right) | clear_value zz)
    | with_reducible exact Touch.refl
    | with_reducible assumption
    | decide
    | with_reducible refine touchX_next ?_
    | with_reducible refine ite_k ?_ ?_
    | with_reducible apply Touch.then2 (takeFreeBool_touch ..)
    | with_reducible apply Touch.then (warmReset_touch ..)
    | with_reducible refine Touch.snd ?_
    | unfold zz; try dsimp -zeta only
    | split
    | with_reducible refine touch2_mk ?_
    | exact touch_of2 rfl ‹Touch2 _ _ (_, _)›
    | refine touch_of2 (by assumption) ?_

theorem holdReset_touch (s : State) : Touch k_holdReset s (holdReset s) := by
  unfold holdReset
  simp -zeta -beta -eta only [mk_eq]
  repeat' first
    | ((first | lift_lets -underBinder | skip); with_reducible intro zz; first | ((first | (have _q : BootSt := zz; clear _q)); dsimp -zeta only [zz]; clear zz) | (refine cut_k (Touch k_holdReset s zz) ?_ (fun _ => ?_); rotate_left; clear_value zz; rotate_right) | clear_value zz)
    | with_reducible exact Touch.refl
    | with_reducible assumption
    | decide
    | with_reducible apply Touch.then (upd_bootheld ..)

theorem execThermalShutdown_touch (s : State) : TouchX k_execThermalShutdown s (execThermalShutdown s) := by
  unfold execThermalShutdown
  repeat' first
    | with_reducible exact Touch.refl
    | with_reducible assumption
    | decide
    | with_reducible refine touchX_next ?_
    | with_reducible apply Touch.then (powerReset_touch ..)
    | with_reducible apply Touch.then (holdReset_touch ..)

theorem execThermalRecover_touch (rank : Bool) (test : BitVec 2) (s : State) : TouchX k_execThermalRecover s (execThermalRecover rank test s) := by
  unfold execThermalRecover
  repeat' first
    | with_reducible exact Touch.refl
    | with_reducible assumption
    | decide
    | with_reducible refine touchX_next ?_
    | with_reducible refine ite_k ?_ ?_
    | with_reducible apply Touch.then (powerReset_touch ..)

theorem execBootTimeout_touch (s : State) : TouchX k_execBootTimeout s (execBootTimeout s) := by
  unfold execBootTimeout
  repeat' first
    | with_reducible exact Touch.refl
    | with_reducible assumption
    | decide
    | with_reducible refine touchX_next ?_
    | with_reducible refine ite_k ?_ ?_
    | with_reducible apply Touch.then (failStart_touch ..)

theorem sysCmdEff_touch (v : Word) (s : State) : TouchO k_sysCmdEff s (sysCmdEff v s) := by
  unfold sysCmdEff
  repeat' first
    | with_reducible exact Touch.refl
    | with_reducible assumption
    | decide
    | with_reducible exact okw_BOOT_STATUS (by decide)
    | with_reducible exact touchO_none
    | with_reducible refine touchO_some ?_
    | with_reducible refine touchO_map ?_ (fun _ _ => ?_)
    | with_reducible refine touch_getD ?_ ?_
    | with_reducible refine ite_k ?_ ?_
    | with_reducible refine fset_w ?_ ?_
    | with_reducible apply Touch.then (selfReset_touch ..)
    | exact touch_ofO rfl ‹TouchO _ _ (some _)›
    | with_reducible refine touchO_map' (fun _ => ?_)
    | refine touch_ofO (by assumption) ?_

theorem execBootRetry_touch (w : Who) (s : State) : TouchX k_execBootRetry s (execBootRetry w s) := by
  unfold execBootRetry
  repeat' first
    | with_reducible exact Touch.refl
    | with_reducible assumption
    | decide
    | with_reducible refine touchX_next ?_
    | with_reducible exact touchO_none
    | with_reducible refine touchO_some ?_
    | with_reducible refine touchO_map ?_ (fun _ _ => ?_)
    | with_reducible refine touch_getD ?_ ?_
    | with_reducible apply Touch.thenO (sysCmdEff_touch ..)
    | with_reducible refine gated_k ?_ ?_ ?_
    | exact touch_ofO rfl ‹TouchO _ _ (some _)›
    | with_reducible refine touchO_map' (fun _ => ?_)
    | refine touch_ofO (by assumption) ?_

theorem imgCmdEff_touch (v : Word) (s : State) : TouchO k_imgCmdEff s (imgCmdEff v s) := by
  unfold imgCmdEff
  simp -zeta -beta -eta only [mk_eq]
  repeat' first
    | ((first | lift_lets -underBinder | skip); with_reducible intro zz; first | ((first | (have _q : HostSt := zz; clear _q) | (have _q : SafetySt := zz; clear _q)); dsimp -zeta only [zz]; clear zz) | (refine cut_k (okw k_imgCmdEff zz) (by with_reducible first | exact okw_IMG_JOB (by decide)) (fun _ => ?_); clear_value zz) | (refine cut_k (Touch k_imgCmdEff s zz) ?_ (fun _ => ?_); rotate_left; clear_value zz; rotate_right) | (refine cut_k (TouchO k_imgCmdEff s zz) ?_ (fun _ => ?_); rotate_left; clear_value zz; rotate_right) | (refine cut_k (∀ t, Touch k_imgCmdEff s t → Touch k_imgCmdEff s (zz t)) (fun _ _ => ?_) (fun _ => ?_); rotate_left; clear_value zz; rotate_right) | (refine cut_k (∀ a t, Touch k_imgCmdEff s t → Touch k_imgCmdEff s (zz a t)) (fun _ _ _ => ?_) (fun _ => ?_); rotate_left; clear_value zz; rotate_right) | (refine cut_k (∀ a b t, Touch k_imgCmdEff s t → Touch k_imgCmdEff s (zz a b t)) (fun _ _ _ _ => ?_) (fun _ => ?_); rotate_left; clear_value zz; rotate_right) | (refine cut_k (∀ a b c d t, Touch k_imgCmdEff s t → Touch k_imgCmdEff s (zz a b c d t)) (fun _ _ _ _ _ _ => ?_) (fun _ => ?_); rotate_left; clear_value zz; rotate_right) | clear_value zz)
    | with_reducible exact Touch.refl
    | with_reducible assumption
    | decide
    | with_reducible exact okw_IMG_JOB (by decide)
    | with_reducible exact touchO_none
    | with_reducible refine touchO_some ?_
    | with_reducible refine touchO_map ?_ (fun _ _ => ?_)
    | with_reducible refine touch_getD ?_ ?_
    | with_reducible refine ite_k ?_ ?_
    | with_reducible refine fset_w ?_ ?_
    | with_reducible apply Touch.then (logSteward_touch ..)
    | with_reducible apply Touch.then (safeResult_touch ..)
    | with_reducible apply Touch.then (showSlots_touch ..)
    | with_reducible apply Touch.then (startJob_touch ..)
    | with_reducible apply Touch.then (sedBusy_touch ..)
    | with_reducible apply Touch.then (tearJob_touch ..)
    | with_reducible apply Touch.then (endJob_touch ..)
    | unfold zz; try dsimp -zeta only
    | split
    | with_reducible apply_assumption
    | exact touch_ofO rfl ‹TouchO _ _ (some _)›
    | with_reducible refine touchO_map' (fun _ => ?_)
    | refine touch_ofO (by assumption) ?_
    | with_reducible apply Touch.then (upd_safeconfirm ..)
    | with_reducible apply Touch.then (upd_hostimg ..)

theorem execSave_touch (w : Who) (s : State) : TouchX k_execSave s (execSave w s) := by
  unfold execSave
  repeat' first
    | with_reducible exact Touch.refl
    | with_reducible assumption
    | decide
    | with_reducible refine touchX_next ?_
    | with_reducible exact touchO_none
    | with_reducible refine touchO_some ?_
    | with_reducible refine touchO_map ?_ (fun _ _ => ?_)
    | with_reducible refine touch_getD ?_ ?_
    | with_reducible apply Touch.thenO (imgCmdEff_touch ..)
    | with_reducible refine gated_k ?_ ?_ ?_
    | exact touch_ofO rfl ‹TouchO _ _ (some _)›
    | with_reducible refine touchO_map' (fun _ => ?_)
    | refine touch_ofO (by assumption) ?_

theorem execAbort_touch (w : Who) (s : State) : TouchX k_execAbort s (execAbort w s) := by
  unfold execAbort
  repeat' first
    | with_reducible exact Touch.refl
    | with_reducible assumption
    | decide
    | with_reducible refine touchX_next ?_
    | with_reducible exact touchO_none
    | with_reducible refine touchO_some ?_
    | with_reducible refine touchO_map ?_ (fun _ _ => ?_)
    | with_reducible refine touch_getD ?_ ?_
    | with_reducible apply Touch.thenO (imgCmdEff_touch ..)
    | with_reducible refine gated_k ?_ ?_ ?_
    | exact touch_ofO rfl ‹TouchO _ _ (some _)›
    | with_reducible refine touchO_map' (fun _ => ?_)
    | refine touch_ofO (by assumption) ?_

theorem execErase_touch (w : Who) (s : State) : TouchX k_execErase s (execErase w s) := by
  unfold execErase
  repeat' first
    | with_reducible exact Touch.refl
    | with_reducible assumption
    | decide
    | with_reducible refine touchX_next ?_
    | with_reducible exact touchO_none
    | with_reducible refine touchO_some ?_
    | with_reducible refine touchO_map ?_ (fun _ _ => ?_)
    | with_reducible refine touch_getD ?_ ?_
    | with_reducible apply Touch.thenO (imgCmdEff_touch ..)
    | with_reducible refine gated_k ?_ ?_ ?_
    | exact touch_ofO rfl ‹TouchO _ _ (some _)›
    | with_reducible refine touchO_map' (fun _ => ?_)
    | refine touch_ofO (by assumption) ?_

theorem finishJob_touch (result : Nat) (x : SlotImg) (s : State) : Touch k_finishJob s (finishJob result x s) := by
  unfold finishJob
  repeat' first
    | ((first | lift_lets -underBinder | skip); with_reducible intro zz; first | (refine cut_k (Touch k_finishJob s zz) ?_ (fun _ => ?_); rotate_left; clear_value zz; rotate_right) | clear_value zz)
    | with_reducible exact Touch.refl
    | with_reducible assumption
    | decide
    | with_reducible apply Touch.then (logSteward_touch ..)
    | with_reducible apply Touch.then (showSlots_touch ..)
    | with_reducible apply Touch.then (setSlot_touch ..)
    | with_reducible apply Touch.then (endJob_touch ..)
    | unfold zz; try dsimp -zeta only

theorem jobDone_touch (nvmOk : Bool) (img : SlotImg) (s : State) : Touch k_jobDone s (jobDone nvmOk img s) := by
  unfold jobDone
  simp -zeta -beta -eta only [mk_eq]
  repeat' first
    | ((first | lift_lets -underBinder | skip); with_reducible intro zz; first | ((first | (have _q : HostSt := zz; clear _q)); dsimp -zeta only [zz]; clear zz) | (refine cut_k (Touch k_jobDone s zz) ?_ (fun _ => ?_); rotate_left; clear_value zz; rotate_right) | clear_value zz)
    | with_reducible exact Touch.refl
    | with_reducible assumption
    | decide
    | with_reducible refine ite_k ?_ ?_
    | with_reducible apply Touch.then (finishJob_touch ..)
    | unfold zz; try dsimp -zeta only
    | split
    | with_reducible apply Touch.then (upd_hostimg ..)

theorem execTornSlotErase_touch (s : State) : TouchX k_execTornSlotErase s (execTornSlotErase s) := by
  unfold execTornSlotErase
  repeat' first
    | ((first | lift_lets -underBinder | skip); with_reducible intro zz; first | (refine cut_k (Touch k_execTornSlotErase s zz) ?_ (fun _ => ?_); rotate_left; clear_value zz; rotate_right) | (refine cut_k (∀ t, Touch k_execTornSlotErase s t → Touch k_execTornSlotErase s (zz t)) (fun _ _ => ?_) (fun _ => ?_); rotate_left; clear_value zz; rotate_right) | (refine cut_k (∀ a t, Touch k_execTornSlotErase s t → Touch k_execTornSlotErase s (zz a t)) (fun _ _ _ => ?_) (fun _ => ?_); rotate_left; clear_value zz; rotate_right) | (refine cut_k (∀ a b t, Touch k_execTornSlotErase s t → Touch k_execTornSlotErase s (zz a b t)) (fun _ _ _ _ => ?_) (fun _ => ?_); rotate_left; clear_value zz; rotate_right) | (refine cut_k (∀ a b c d t, Touch k_execTornSlotErase s t → Touch k_execTornSlotErase s (zz a b c d t)) (fun _ _ _ _ _ _ => ?_) (fun _ => ?_); rotate_left; clear_value zz; rotate_right) | clear_value zz)
    | with_reducible exact Touch.refl
    | with_reducible assumption
    | decide
    | with_reducible refine touchX_next ?_
    | with_reducible refine ite_k ?_ ?_
    | with_reducible apply Touch.then (logSteward_touch ..)
    | with_reducible apply Touch.then (showSlots_touch ..)
    | with_reducible apply Touch.then (setSlot_touch ..)
    | with_reducible apply Touch.then (endJob_touch ..)
    | unfold zz; try dsimp -zeta only
    | with_reducible apply_assumption

theorem execSafetyWriteDone_touch (ok : Bool) (s : State) : TouchX k_execSafetyWriteDone s (execSafetyWriteDone ok s) := by
  unfold execSafetyWriteDone
  simp -zeta -beta -eta only [mk_eq]
  repeat' first
    | ((first | lift_lets -underBinder | skip); with_reducible intro zz; first | ((first | (have _q : SafetySt := zz; clear _q)); dsimp -zeta only [zz]; clear zz) | (refine cut_k (Touch k_execSafetyWriteDone s zz) ?_ (fun _ => ?_); rotate_left; clear_value zz; rotate_right) | clear_value zz)
    | with_reducible exact Touch.refl
    | with_reducible assumption
    | decide
    | with_reducible refine touchX_next ?_
    | with_reducible refine ite_k ?_ ?_
    | with_reducible apply Touch.then (applyConfirm_touch ..)
    | with_reducible apply Touch.then (safeResult_touch ..)
    | with_reducible apply Touch.then (finishJob_touch ..)
    | with_reducible apply Touch.then (safeLog_touch ..)
    | unfold zz; try dsimp -zeta only
    | split
    | with_reducible apply Touch.then (upd_safeconfirm ..)

theorem execLogPersist_touch (s : State) : TouchX k_execLogPersist s (execLogPersist s) := by
  unfold execLogPersist
  simp -zeta -beta -eta only [mk_eq]
  repeat' first
    | ((first | lift_lets -underBinder | skip); with_reducible intro zz; first | ((first | (have _q : HostSt := zz; clear _q)); dsimp -zeta only [zz]; clear zz) | (refine cut_k (okw k_execLogPersist zz) (by with_reducible first | exact okw_LOG_NVM (by decide)) (fun _ => ?_); clear_value zz) | (refine cut_k (Touch k_execLogPersist s zz) ?_ (fun _ => ?_); rotate_left; clear_value zz; rotate_right) | clear_value zz)
    | with_reducible exact Touch.refl
    | with_reducible assumption
    | decide
    | with_reducible exact okw_LOG_NVM (by decide)
    | with_reducible refine touchX_next ?_
    | with_reducible refine ite_k ?_ ?_
    | with_reducible refine fset_w ?_ ?_
    | with_reducible apply Touch.then (logSteward_touch ..)
    | unfold zz; try dsimp -zeta only
    | split
    | with_reducible apply Touch.then (upd_hostnvm ..)
    | with_reducible apply Touch.then (upd_hostlost ..)

theorem setBank_touch (b : Nat) (x : Nat) (s : State) : Touch k_setBank s (setBank b x s) := by
  unfold setBank
  repeat' first
    | with_reducible exact Touch.refl
    | with_reducible assumption
    | decide
    | with_reducible exact okw_RCP_STATUS (by decide)
    | with_reducible refine fset_w ?_ ?_

theorem rcpResult_touch (r : Nat) (b : Nat) (s : State) : Touch k_rcpResult s (rcpResult r b s) := by
  unfold rcpResult
  repeat' first
    | with_reducible exact Touch.refl
    | with_reducible assumption
    | decide
    | with_reducible exact okw_RCP_STATUS (by decide)
    | with_reducible refine fset_w ?_ ?_
    | with_reducible refine fput_w ?_ ?_
    | with_reducible apply Touch.then (logSteward_touch ..)

theorem rcpCmdEff_touch (v : Word) (s : State) : TouchO k_rcpCmdEff s (rcpCmdEff v s) := by
  unfold rcpCmdEff
  simp -zeta -beta -eta only [mk_eq]
  repeat' first
    | ((first | lift_lets -underBinder | skip); with_reducible intro zz; first | ((first | (have _q : BootSt := zz; clear _q)); dsimp -zeta only [zz]; clear zz) | (refine cut_k (Touch k_rcpCmdEff s zz) ?_ (fun _ => ?_); rotate_left; clear_value zz; rotate_right) | (refine cut_k (TouchO k_rcpCmdEff s zz) ?_ (fun _ => ?_); rotate_left; clear_value zz; rotate_right) | clear_value zz)
    | with_reducible exact Touch.refl
    | with_reducible assumption
    | decide
    | with_reducible exact okw_RCP_STATUS (by decide)
    | with_reducible exact okw_RCP_BANK (by decide)
    | with_reducible exact touchO_none
    | with_reducible refine touchO_some ?_
    | with_reducible refine touchO_map ?_ (fun _ _ => ?_)
    | with_reducible refine touch_getD ?_ ?_
    | with_reducible refine ite_k ?_ ?_
    | with_reducible refine fput_w ?_ ?_
    | with_reducible refine wr_w ?_ ?_
    | with_reducible apply Touch.then (rcpResult_touch ..)
    | with_reducible apply Touch.then (setBank_touch ..)
    | with_reducible apply Touch.then (sedBusy_touch ..)
    | unfold zz; try dsimp -zeta only
    | split
    | exact touch_ofO rfl ‹TouchO _ _ (some _)›
    | with_reducible refine touchO_map' (fun _ => ?_)
    | refine touch_ofO (by assumption) ?_
    | with_reducible apply Touch.then (upd_bootbank_bootload ..)
    | with_reducible apply Touch.then (upd_bootbank ..)

theorem execLoad_touch (w : Who) (bank : BitVec 3) (sec : BitVec 4) (s : State) : TouchX k_execLoad s (execLoad w bank sec s) := by
  unfold execLoad
  repeat' first
    | ((first | lift_lets -underBinder | skip); with_reducible intro zz; first | (refine cut_k (Touch k_execLoad s zz) ?_ (fun _ => ?_); rotate_left; clear_value zz; rotate_right) | (refine cut_k (TouchO k_execLoad s zz) ?_ (fun _ => ?_); rotate_left; clear_value zz; rotate_right) | clear_value zz)
    | with_reducible exact Touch.refl
    | with_reducible assumption
    | decide
    | with_reducible refine touchX_next ?_
    | with_reducible exact touchO_none
    | with_reducible refine touchO_some ?_
    | with_reducible refine touchO_map ?_ (fun _ _ => ?_)
    | with_reducible refine touch_getD ?_ ?_
    | with_reducible apply Touch.thenO (rcpCmdEff_touch ..)
    | with_reducible refine gated_k ?_ ?_ ?_
    | unfold zz; try dsimp -zeta only
    | exact touch_ofO rfl ‹TouchO _ _ (some _)›
    | with_reducible refine touchO_map' (fun _ => ?_)
    | refine touch_ofO (by assumption) ?_

theorem execClear_touch (w : Who) (bank : BitVec 3) (s : State) : TouchX k_execClear s (execClear w bank s) := by
  unfold execClear
  repeat' first
    | ((first | lift_lets -underBinder | skip); with_reducible intro zz; first | (refine cut_k (Touch k_execClear s zz) ?_ (fun _ => ?_); rotate_left; clear_value zz; rotate_right) | (refine cut_k (TouchO k_execClear s zz) ?_ (fun _ => ?_); rotate_left; clear_value zz; rotate_right) | clear_value zz)
    | with_reducible exact Touch.refl
    | with_reducible assumption
    | decide
    | with_reducible refine touchX_next ?_
    | with_reducible exact touchO_none
    | with_reducible refine touchO_some ?_
    | with_reducible refine touchO_map ?_ (fun _ _ => ?_)
    | with_reducible refine touch_getD ?_ ?_
    | with_reducible apply Touch.thenO (rcpCmdEff_touch ..)
    | with_reducible refine gated_k ?_ ?_ ?_
    | unfold zz; try dsimp -zeta only
    | exact touch_ofO rfl ‹TouchO _ _ (some _)›
    | with_reducible refine touchO_map' (fun _ => ?_)
    | refine touch_ofO (by assumption) ?_

theorem fillBank_touch (b : Nat) (k : Nat) (r : Recipe) (len : Nat) (s : State) : Touch k_fillBank s (fillBank b k r len s) := by
  unfold fillBank
  simp -zeta -beta -eta only [mk_eq]
  repeat' first
    | ((first | lift_lets -underBinder | skip); with_reducible intro zz; first | ((first | (have _q : BootSt := zz; clear _q)); dsimp -zeta only [zz]; clear zz) | (refine cut_k (Touch k_fillBank s zz) ?_ (fun _ => ?_); rotate_left; clear_value zz; rotate_right) | clear_value zz)
    | with_reducible exact Touch.refl
    | with_reducible assumption
    | decide
    | with_reducible exact okw_RCP_BANK (by decide)
    | with_reducible refine wrN_w ?_ ?_
    | with_reducible apply Touch.then (setBank_touch ..)
    | with_reducible apply Touch.then (upd_bootbank ..)

theorem execRecipeLoadDone_touch (s : State) : TouchX k_execRecipeLoadDone s (execRecipeLoadDone s) := by
  unfold execRecipeLoadDone
  simp -zeta -beta -eta only [mk_eq]
  repeat' first
    | ((first | lift_lets -underBinder | skip); with_reducible intro zz; first | ((first | (have _q : BootSt := zz; clear _q)); dsimp -zeta only [zz]; clear zz) | (refine cut_k (Touch k_execRecipeLoadDone s zz) ?_ (fun _ => ?_); rotate_left; clear_value zz; rotate_right) | clear_value zz)
    | with_reducible exact Touch.refl
    | with_reducible assumption
    | decide
    | with_reducible refine touchX_next ?_
    | with_reducible refine ite_k ?_ ?_
    | with_reducible apply Touch.then (rcpResult_touch ..)
    | with_reducible apply Touch.then (fillBank_touch ..)
    | with_reducible apply Touch.then (setBank_touch ..)
    | with_reducible apply Touch.then (addRec_touch ..)
    | unfold zz; try dsimp -zeta only
    | split
    | with_reducible apply Touch.then (upd_bootload ..)
    | with_reducible apply Touch.then (upd_boottravel ..)

theorem bankCovered_touch (rseq : Nat) (s : State) : Touch k_bankCovered s (bankCovered rseq s) := by
  unfold bankCovered
  simp -zeta -beta -eta only [mk_eq]
  repeat' first
    | ((first | lift_lets -underBinder | skip); with_reducible intro zz; first | ((first | (have _q : BootSt := zz; clear _q)); dsimp -zeta only [zz]; clear zz) | (refine cut_k (Touch k_bankCovered s zz) ?_ (fun _ => ?_); rotate_left; clear_value zz; rotate_right) | clear_value zz)
    | with_reducible exact Touch.refl
    | with_reducible assumption
    | decide
    | with_reducible refine ite_k ?_ ?_
    | with_reducible apply Touch.then (rcpResult_touch ..)
    | with_reducible apply Touch.then (fillBank_touch ..)
    | split
    | with_reducible apply Touch.then (upd_boottravel ..)

theorem fiCmdEff_touch (v : Word) (s : State) : TouchO k_fiCmdEff s (fiCmdEff v s) := by
  unfold fiCmdEff
  simp -zeta -beta -eta only [mk_eq]
  repeat' first
    | ((first | lift_lets -underBinder | skip); with_reducible intro zz; first | ((first | (have _q : HostSt := zz; clear _q)); dsimp -zeta only [zz]; clear zz) | (refine cut_k (Touch k_fiCmdEff s zz) ?_ (fun _ => ?_); rotate_left; clear_value zz; rotate_right) | (refine cut_k (TouchO k_fiCmdEff s zz) ?_ (fun _ => ?_); rotate_left; clear_value zz; rotate_right) | clear_value zz)
    | with_reducible exact Touch.refl
    | with_reducible assumption
    | decide
    | with_reducible exact okw_FI_STATUS (by decide)
    | with_reducible exact touchO_none
    | with_reducible refine touchO_some ?_
    | with_reducible refine touchO_map ?_ (fun _ _ => ?_)
    | with_reducible refine touch_getD ?_ ?_
    | with_reducible refine ite_k ?_ ?_
    | with_reducible refine fput_w ?_ ?_
    | with_reducible apply Touch.then (sedRule_touch ..)
    | unfold zz; try dsimp -zeta only
    | exact touch_ofO rfl ‹TouchO _ _ (some _)›
    | with_reducible refine touchO_map' (fun _ => ?_)
    | refine touch_ofO (by assumption) ?_
    | with_reducible apply Touch.then (upd_hostfi ..)

theorem execFaultInject_touch (w : Who) (v : Word) (s : State) : TouchX k_execFaultInject s (execFaultInject w v s) := by
  unfold execFaultInject
  repeat' first
    | with_reducible exact Touch.refl
    | with_reducible assumption
    | decide
    | with_reducible refine touchX_next ?_
    | with_reducible exact touchO_none
    | with_reducible refine touchO_some ?_
    | with_reducible refine touchO_map ?_ (fun _ _ => ?_)
    | with_reducible refine touch_getD ?_ ?_
    | with_reducible apply Touch.thenO (fiCmdEff_touch ..)
    | with_reducible refine gated_k ?_ ?_ ?_
    | exact touch_ofO rfl ‹TouchO _ _ (some _)›
    | with_reducible refine touchO_map' (fun _ => ?_)
    | refine touch_ofO (by assumption) ?_

theorem stewardRestart_touch (pc : Nat) (s : State) : Touch k_stewardRestart s (stewardRestart pc s) := by
  unfold stewardRestart
  simp -zeta -beta -eta only [mk_eq]
  repeat' first
    | ((first | lift_lets -underBinder | skip); with_reducible intro zz; first | ((first | (have _q : BootSt := zz; clear _q) | (have _q : HostSt := zz; clear _q) | (have _q : SafetySt := zz; clear _q) | (have _q : SchSt := zz; clear _q)); dsimp -zeta only [zz]; clear zz) | (refine cut_k (okw k_stewardRestart zz) (by with_reducible first | exact okw_SAFE_STATUS (by decide) | exact okw_LOG_NVM (by decide) | exact okw_HOST_STATUS (by decide) | exact okw_BLK_LOCK (by decide)) (fun _ => ?_); clear_value zz) | (refine cut_k (Touch k_stewardRestart s zz) ?_ (fun _ => ?_); rotate_left; clear_value zz; rotate_right) | (refine cut_k (∀ t, Touch k_stewardRestart s t → Touch k_stewardRestart s (zz t)) (fun _ _ => ?_) (fun _ => ?_); rotate_left; clear_value zz; rotate_right) | (refine cut_k (∀ a t, Touch k_stewardRestart s t → Touch k_stewardRestart s (zz a t)) (fun _ _ _ => ?_) (fun _ => ?_); rotate_left; clear_value zz; rotate_right) | (refine cut_k (∀ a b t, Touch k_stewardRestart s t → Touch k_stewardRestart s (zz a b t)) (fun _ _ _ _ => ?_) (fun _ => ?_); rotate_left; clear_value zz; rotate_right) | (refine cut_k (∀ a b c d t, Touch k_stewardRestart s t → Touch k_stewardRestart s (zz a b c d t)) (fun _ _ _ _ _ _ => ?_) (fun _ => ?_); rotate_left; clear_value zz; rotate_right) | clear_value zz)
    | with_reducible exact Touch.refl
    | with_reducible assumption
    | decide
    | with_reducible exact okw_SAFE_STATUS (by decide)
    | with_reducible exact okw_LOG_NVM (by decide)
    | with_reducible exact okw_HOST_STATUS (by decide)
    | with_reducible exact okw_BLK_LOCK (by decide)
    | with_reducible refine ite_k ?_ ?_
    | with_reducible refine fput_w ?_ ?_
    | with_reducible refine fset_w ?_ ?_
    | with_reducible refine wr_w ?_ ?_
    | with_reducible apply Touch.then (startTornErase_touch ..)
    | with_reducible apply Touch.then (setRegState_touch ..)
    | with_reducible apply Touch.then (dropStaged_touch ..)
    | with_reducible apply Touch.then (logSteward_touch ..)
    | with_reducible apply Touch.then (safeResult_touch ..)
    | with_reducible apply Touch.then (showSlots_touch ..)
    | with_reducible apply Touch.then (setBank_touch ..)
    | with_reducible apply Touch.then (tearJob_touch ..)
    | with_reducible apply Touch.then (endJob_touch ..)
    | with_reducible refine eachN_k (fun _ _ _ => ?_) ?_
    | with_reducible apply Touch.then (cause_touch ..)
    | unfold zz; try dsimp -zeta only
    | split
    | with_reducible apply_assumption
    | with_reducible apply Touch.then (upd_safeconfirm ..)
    | with_reducible apply Touch.then (upd_safesess ..)
    | with_reducible apply Touch.then (upd_bootended_bootload_boottravel_host_schins ..)

theorem execStewardWatchdog_touch (pc : BitVec 16) (s : State) : TouchX k_execStewardWatchdog s (execStewardWatchdog pc s) := by
  unfold execStewardWatchdog
  repeat' first
    | with_reducible exact Touch.refl
    | with_reducible assumption
    | decide
    | with_reducible refine touchX_next ?_
    | with_reducible refine ite_k ?_ ?_
    | with_reducible apply Touch.then (stewardRestart_touch ..)
    | with_reducible apply Touch.then (failStart_touch ..)

end Sys2Proof.Laws
end

