-- ==== Sys2Proof/Laws/TouchHostWrite.lean ====
section
/-! SUPPORT. What each operation of Machine/HostWrite.lean can touch: one lemma per operation, by footprint (Laws/Touch.lean). -/

set_option linter.unusedTactic false
set_option linter.unreachableTactic false
set_option linter.unusedSimpArgs false
set_option linter.unusedVariables false

namespace Sys2Proof.Laws
open Sys2Proof Sys2Proof.Machine R

/-! Footprints. -/
def k_pairEff : Nat := 0x40000000000000000000000000000000000000000000000000000000000000000000000000100000000000000000000000000000000
def k_limitEff : Nat := 0x40000000000000000000000000000000000000000000000000000000000000000000000000100000000000000000000001000000000
def k_pfCtrlEff : Nat := 0x80000000000000000000000000000000000000000000000000000000000000000000000
def k_motionEff : Nat := 0x6800000000000000000000200010c00094c180008000000000000000001000000000000400130000000000000000000005100680080
def k_angleEff : Nat := 0x68000000000000000000000000000000000000000000000000000004000000000000000400130000000000000000000000000022000
def k_schEff : Nat := 0x68000000000000000000000000000000000000000000000000000000000000000000000400230000000000000000000000000100000
def k_timeEff : Nat := 0x40000000000000000000000000000000000000000000000300000000000000000000000000100000000000000042000000000000000
def k_netEff : Nat := 0x680000000000200000000000000000000000000000000c6000000000000000000000000400030000000000000480203000000000000
def k_axisEff : Nat := 0x36830000000000000000000000000020030010c13c00000000000000000000800000000040e43000000000c000000000001d06000080
def k_judgeModule : Nat := 0x84000000000000000000000000000000000000000000000000000000000000000000000020000000000
def k_judgeOut : Nat := 0x2000000000000000000000000000000000000000000000000000000000000000000000000000000000000
def k_bridgeEff : Nat := 0x400000000000000000000000b4c000000000000000000000000000000000000000000000000000000000000000000000e0000000000
def k_outEff : Nat := 0x68000000000000000000002200000000000000000000000000000000001000000000000400030000000000000000000200000680000
def k_encEff : Nat := 0x40000000000000000000440000000000000000000000000000000000000000000000000000000000000000000000000400000000000
def k_laneEff : Nat := 0x68000000000000001040000000000000000000000000000000000000000000000000000400030000000000000000000000000800000
def k_safetyEff : Nat := 0x4034140125000000000000000000000000000000000000000000000000000900000000000e42000470000c000000000000000000000
def k_blkLockEff : Nat := 0x40000000000000000000000000000000000000000000000000000000000000000000000000000000000000000000000000000000
def k_hostEff : Nat := 0x6c040000000000000000000000000000000000000000000000000000000000000000000410030000000000000000000000000000000
def k_sysEff : Nat := 0x4693000002000200000000000000000000000000000000010000000000011ef0e00000007fffffffffffffffffffffffffffffffffff
def k_winEff : Nat := 0x40000000000000000000000000000000000000000000000000000000000000000000000000000000000000000000000000000000000
def k_effectOf : Nat := 0x76d3414012500200010404422b4d0c200b4c18c13c0000c73000000040011ef0e00000007fffffffffffffffffffffffffffffffffff
def k_writeReg : Nat := 0x76d3414012500200010404422b4d0c200b4c18c13c0000c73000000040011ef0e00000007fffffffffffffffffffffffffffffffffff
def k_clearRc : Nat := 0x40000000000000000000000000000000000000000000000000000000000000000000000000000000000000000000000000000000000
def k_winRead : Nat := 0x400000000000000000000000000000000000
def k_readWord : Nat := 0x40000000000000000000000000000000000000000000000000000000000000000000000400080000000000000000000000000000000
def k_readReg : Nat := 0x40000000000000000000000000000000000000000000000000000000000000000000000600080000000000000000000000000000000
def k_execRegisterWrite : Nat := 0x76d3414012500200010404422b4d0c200b4c18c13c0000c73000000040011ef0e00000007fffffffffffffffffffffffffffffffffff
def k_execStagedWrite : Nat := 0x76d3414012500200010404422b4d0c200b4c18c13c0000c73000000040011ef0e00000007fffffffffffffffffffffffffffffffffff
def k_execReadClear : Nat := 0x40000000000000000000000000000000000000000000000000000000000000000000000600080000000000000000000000000000000
def k_execLatchedRead : Nat := 0x40000000000000000000000000000000000000000000000000000000000000000000000600080000000000000000000000000000000
def k_execBlkLockWrite : Nat := 0x2834000000000000000000000000000000000000000000000000000000000800000000060f43000000000c000000000000000000000
def k_logMirrored : Nat := 0x100000000000000000000000000000000000000000000000000000000008000000000006400000000000000000000000000000000
def k_applyRec : Nat := 0x76d3414012500200010404422b4d0c200b4c18c13c0000c73000000040011ef0e00000007fffffffffffffffffffffffffffffffffff
def k_applyDue : Nat := 0x76d3414012500200010404422b4d0c200b4c18c13c0000c73000000040011ef0e00000007fffffffffffffffffffffffffffffffffff
def k_execRecordApply : Nat := 0x76d3414012500200010404422b4d0c200b4c18c13c0000c73000000040011ef0e00000007fffffffffffffffffffffffffffffffffff

theorem pairEff_touch (p : Nat) (a : Nat) (v : Word) (s : State) : TouchO k_pairEff s (pairEff p a v s) := by
  unfold pairEff
  repeat' first
    | with_reducible exact Touch.refl
    | with_reducible assumption
    | decide
    | with_reducible exact okw_any (by decide)
    | with_reducible exact fun _ => okw_any (by decide)
    | with_reducible exact fun _ _ _ => okw_any (by decide)
    | with_reducible exact touchO_none
    | with_reducible refine touchO_some ?_
    | with_reducible refine touchO_map ?_ (fun _ _ => ?_)
    | with_reducible refine touch_getD ?_ ?_
    | with_reducible refine plainEff_w ?_ ?_
    | with_reducible apply Touch.then (setStaged_touch ..)
    | split
    | exact touch_ofO rfl ‹TouchO _ _ (some _)›
    | with_reducible refine touchO_map' (fun _ => ?_)
    | refine touch_ofO (by assumption) ?_

theorem limitEff_touch (p : Nat) (n : Nat) (a : Nat) (v : Word) (s : State) : TouchO k_limitEff s (limitEff p n a v s) := by
  unfold limitEff
  repeat' first
    | with_reducible exact Touch.refl
    | with_reducible assumption
    | decide
    | with_reducible exact touchO_none
    | with_reducible refine touchO_some ?_
    | with_reducible refine touchO_map ?_ (fun _ _ => ?_)
    | with_reducible refine touch_getD ?_ ?_
    | with_reducible apply Touch.thenO (pairEff_touch ..)
    | with_reducible apply Touch.then (modGen_touch ..)
    | exact touch_ofO rfl ‹TouchO _ _ (some _)›
    | with_reducible refine touchO_map' (fun _ => ?_)
    | refine touch_ofO (by assumption) ?_

theorem pfCtrlEff_touch (n : Nat) (v : Word) (s : State) : TouchO k_pfCtrlEff s (pfCtrlEff n v s) := by
  unfold pfCtrlEff
  repeat' first
    | with_reducible exact Touch.refl
    | with_reducible assumption
    | decide
    | with_reducible exact okw_PF_CTRL (by decide)
    | with_reducible exact touchO_none
    | with_reducible refine touchO_some ?_
    | with_reducible refine touchO_map ?_ (fun _ _ => ?_)
    | with_reducible refine touch_getD ?_ ?_
    | with_reducible refine ite_k ?_ ?_
    | with_reducible refine plainEff_w ?_ ?_
    | exact touch_ofO rfl ‹TouchO _ _ (some _)›
    | with_reducible refine touchO_map' (fun _ => ?_)
    | refine touch_ofO (by assumption) ?_

theorem motionEff_touch (p : Nat) (a : Nat) (v : Word) (s : State) : TouchO k_motionEff s (motionEff p a v s) := by
  unfold motionEff
  refine TouchE.out ?_
  repeat' first
    | ((first | lift_lets -underBinder | skip); with_reducible intro zz; first | (refine cut_k (Touch k_motionEff s zz) ?_ (fun _ => ?_); rotate_left; clear_value zz; rotate_right) | (refine cut_k (TouchO k_motionEff s zz) ?_ (fun _ => ?_); rotate_left; clear_value zz; rotate_right) | clear_value zz)
    | with_reducible exact Touch.refl
    | with_reducible assumption
    | decide
    | with_reducible exact okw_any (by decide)
    | with_reducible exact fun _ => okw_any (by decide)
    | with_reducible exact fun _ _ _ => okw_any (by decide)
    | with_reducible exact touchO_none
    | with_reducible refine touchO_some ?_
    | with_reducible refine touchO_map ?_ (fun _ _ => ?_)
    | with_reducible refine touch_getD ?_ ?_
    | with_reducible refine ite_k ?_ ?_
    | with_reducible refine plainEff_w ?_ ?_
    | with_reducible apply Touch.thenO (virtualLimitEff_touch ..)
    | with_reducible apply Touch.thenO (gearDenEff_touch ..)
    | with_reducible apply Touch.thenO (pfCtrlEff_touch ..)
    | with_reducible apply Touch.thenO (coCtrlEff_touch ..)
    | with_reducible apply Touch.then (setStaged_touch ..)
    | with_reducible apply Touch.thenO (pfCmdEff_touch ..)
    | with_reducible apply Touch.thenO (shiftEff_touch ..)
    | with_reducible apply Touch.thenO (mvCmdEff_touch ..)
    | with_reducible apply Touch.thenO (limitEff_touch ..)
    | with_reducible apply Touch.thenO (pairEff_touch ..)
    | unfold zz; try dsimp -zeta only
    | split
    | with_reducible refine touchE_of ?_
    | exact touch_ofO rfl ‹TouchO _ _ (some _)›
    | with_reducible refine touchO_map' (fun _ => ?_)
    | refine touch_ofO (by assumption) ?_

theorem angleEff_touch (p : Nat) (a : Nat) (v : Word) (s : State) : TouchO k_angleEff s (angleEff p a v s) := by
  unfold angleEff
  refine TouchE.out ?_
  repeat' first
    | ((first | lift_lets -underBinder | skip); with_reducible intro zz; first | (refine cut_k (Touch k_angleEff s zz) ?_ (fun _ => ?_); rotate_left; clear_value zz; rotate_right) | (refine cut_k (TouchO k_angleEff s zz) ?_ (fun _ => ?_); rotate_left; clear_value zz; rotate_right) | clear_value zz)
    | with_reducible exact Touch.refl
    | with_reducible assumption
    | decide
    | with_reducible exact okw_any (by decide)
    | with_reducible exact fun _ => okw_any (by decide)
    | with_reducible exact fun _ _ _ => okw_any (by decide)
    | with_reducible exact touchO_none
    | with_reducible refine touchO_some ?_
    | with_reducible refine touchO_map ?_ (fun _ _ => ?_)
    | with_reducible refine touch_getD ?_ ?_
    | with_reducible refine ite_k ?_ ?_
    | with_reducible refine plainEff_w ?_ ?_
    | with_reducible apply Touch.then (State_setSrc_touch ..)
    | with_reducible apply Touch.then (setStaged_touch ..)
    | with_reducible apply Touch.thenO (maCmdEff_touch ..)
    | with_reducible apply Touch.thenO (pairEff_touch ..)
    | unfold zz; try dsimp -zeta only
    | split
    | with_reducible refine touchE_of ?_
    | exact touch_ofO rfl ‹TouchO _ _ (some _)›
    | with_reducible refine touchO_map' (fun _ => ?_)
    | refine touch_ofO (by assumption) ?_

theorem schEff_touch (p : Nat) (a : Nat) (v : Word) (s : State) : TouchO k_schEff s (schEff p a v s) := by
  unfold schEff
  refine TouchE.out ?_
  repeat' first
    | with_reducible exact Touch.refl
    | with_reducible assumption
    | decide
    | with_reducible exact okw_any (by decide)
    | with_reducible exact fun _ => okw_any (by decide)
    | with_reducible exact fun _ _ _ => okw_any (by decide)
    | with_reducible exact touchO_none
    | with_reducible refine touchO_some ?_
    | with_reducible refine touchO_map ?_ (fun _ _ => ?_)
    | with_reducible refine touch_getD ?_ ?_
    | with_reducible refine ite_k ?_ ?_
    | with_reducible refine plainEff_w ?_ ?_
    | with_reducible apply Touch.then (setInsReg_touch ..)
    | with_reducible apply Touch.thenO (insCmdEff_touch ..)
    | exact touch_ofO rfl ‹TouchO _ _ (some _)›
    | with_reducible refine touchO_map' (fun _ => ?_)
    | refine touch_ofO (by assumption) ?_
    | split
    | with_reducible refine touchE_of ?_

theorem timeEff_touch (p : Nat) (a : Nat) (v : Word) (s : State) : TouchO k_timeEff s (timeEff p a v s) := by
  unfold timeEff
  refine TouchE.out ?_
  repeat' first
    | with_reducible exact Touch.refl
    | with_reducible assumption
    | decide
    | with_reducible exact okw_any (by decide)
    | with_reducible exact fun _ => okw_any (by decide)
    | with_reducible exact fun _ _ _ => okw_any (by decide)
    | with_reducible exact touchO_none
    | with_reducible refine touchO_some ?_
    | with_reducible refine touchO_map ?_ (fun _ _ => ?_)
    | with_reducible refine touch_getD ?_ ?_
    | with_reducible refine ite_k ?_ ?_
    | with_reducible refine plainEff_w ?_ ?_
    | with_reducible apply Touch.thenO (ptpCtrlEff_touch ..)
    | with_reducible apply Touch.then (setStaged_touch ..)
    | with_reducible apply Touch.then (applyInc_touch ..)
    | with_reducible apply Touch.thenO (pairEff_touch ..)
    | exact touch_ofO rfl ‹TouchO _ _ (some _)›
    | with_reducible refine touchO_map' (fun _ => ?_)
    | refine touch_ofO (by assumption) ?_
    | split
    | with_reducible refine touchE_of ?_

theorem netEff_touch (a : Nat) (v : Word) (s : State) : TouchO k_netEff s (netEff a v s) := by
  unfold netEff
  refine TouchE.out ?_
  repeat' first
    | with_reducible exact Touch.refl
    | with_reducible assumption
    | decide
    | with_reducible exact okw_any (by decide)
    | with_reducible exact fun _ => okw_any (by decide)
    | with_reducible exact fun _ _ _ => okw_any (by decide)
    | with_reducible exact touchO_none
    | with_reducible refine touchO_some ?_
    | with_reducible refine touchO_map ?_ (fun _ _ => ?_)
    | with_reducible refine touch_getD ?_ ?_
    | with_reducible refine ite_k ?_ ?_
    | with_reducible refine plainEff_w ?_ ?_
    | with_reducible apply Touch.thenO (portCtrlEff_touch ..)
    | with_reducible apply Touch.thenO (portCmdEff_touch ..)
    | with_reducible apply Touch.thenO (netCfgEff_touch ..)
    | with_reducible apply Touch.thenO (netCmdEff_touch ..)
    | exact touch_ofO rfl ‹TouchO _ _ (some _)›
    | with_reducible refine touchO_map' (fun _ => ?_)
    | refine touch_ofO (by assumption) ?_
    | split
    | with_reducible refine touchE_of ?_

theorem axisEff_touch (w : Who) (a : Nat) (v : Word) (s : State) : TouchO k_axisEff s (axisEff w a v s) := by
  unfold axisEff
  refine TouchE.out ?_
  repeat' first
    | ((first | lift_lets -underBinder | skip); with_reducible intro zz; first | (refine cut_k (Touch k_axisEff s zz) ?_ (fun _ => ?_); rotate_left; clear_value zz; rotate_right) | (refine cut_k (TouchO k_axisEff s zz) ?_ (fun _ => ?_); rotate_left; clear_value zz; rotate_right) | clear_value zz)
    | with_reducible exact Touch.refl
    | with_reducible assumption
    | decide
    | with_reducible exact okw_any (by decide)
    | with_reducible exact fun _ => okw_any (by decide)
    | with_reducible exact fun _ _ _ => okw_any (by decide)
    | with_reducible exact touchO_none
    | with_reducible refine touchO_some ?_
    | with_reducible refine touchO_map ?_ (fun _ _ => ?_)
    | with_reducible refine touch_getD ?_ ?_
    | with_reducible refine ite_k ?_ ?_
    | with_reducible refine plainEff_w ?_ ?_
    | with_reducible apply Touch.thenO (axCtrlEff_touch ..)
    | with_reducible apply Touch.thenO (tubCmdEff_touch ..)
    | with_reducible apply Touch.thenO (axCmdEff_touch ..)
    | with_reducible apply Touch.then (sedBusy_touch ..)
    | unfold zz; try dsimp -zeta only
    | exact touch_ofO rfl ‹TouchO _ _ (some _)›
    | with_reducible refine touchO_map' (fun _ => ?_)
    | refine touch_ofO (by assumption) ?_
    | split
    | with_reducible refine touchE_of ?_

theorem judgeModule_touch (m : Nat) (s : State) : Touch k_judgeModule s (judgeModule m s) := by
  unfold judgeModule
  repeat' first
    | ((first | lift_lets -underBinder | skip); with_reducible intro zz; first | (refine cut_k (Touch k_judgeModule s zz) ?_ (fun _ => ?_); rotate_left; clear_value zz; rotate_right) | clear_value zz)
    | with_reducible exact Touch.refl
    | with_reducible assumption
    | decide
    | with_reducible refine ite_k ?_ ?_
    | with_reducible apply Touch.then (forceModule_touch ..)
    | unfold zz; try dsimp -zeta only

theorem judgeOut_touch (k : Nat) (s : State) : Touch k_judgeOut s (judgeOut k s) := by
  unfold judgeOut
  repeat' first
    | ((first | lift_lets -underBinder | skip); with_reducible intro zz; first | (refine cut_k (Touch k_judgeOut s zz) ?_ (fun _ => ?_); rotate_left; clear_value zz; rotate_right) | clear_value zz)
    | with_reducible exact Touch.refl
    | with_reducible assumption
    | decide
    | with_reducible refine ite_k ?_ ?_
    | with_reducible apply Touch.then (forceOut_touch ..)
    | unfold zz; try dsimp -zeta only

theorem bridgeEff_touch (w : Who) (a : Nat) (v : Word) (s : State) : TouchO k_bridgeEff s (bridgeEff w a v s) := by
  unfold bridgeEff
  refine TouchE.out ?_
  repeat' first
    | ((first | lift_lets -underBinder | skip); with_reducible intro zz; first | (refine cut_k (Touch k_bridgeEff s zz) ?_ (fun _ => ?_); rotate_left; clear_value zz; rotate_right) | (refine cut_k (TouchO k_bridgeEff s zz) ?_ (fun _ => ?_); rotate_left; clear_value zz; rotate_right) | clear_value zz)
    | with_reducible exact Touch.refl
    | with_reducible assumption
    | decide
    | with_reducible exact okw_any (by decide)
    | with_reducible exact fun _ => okw_any (by decide)
    | with_reducible exact fun _ _ _ => okw_any (by decide)
    | with_reducible exact touchO_none
    | with_reducible refine touchO_some ?_
    | with_reducible refine touchO_map ?_ (fun _ _ => ?_)
    | with_reducible refine touch_getD ?_ ?_
    | with_reducible refine ite_k ?_ ?_
    | with_reducible refine plainEff_w ?_ ?_
    | with_reducible apply Touch.then (judgeModule_touch ..)
    | with_reducible apply Touch.thenO (commitEff_touch ..)
    | with_reducible apply Touch.thenO (brCtrlEff_touch ..)
    | with_reducible apply Touch.thenO (shadowEff_touch ..)
    | with_reducible apply Touch.thenO (chEff_touch ..)
    | unfold zz; try dsimp -zeta only
    | split
    | with_reducible refine touchE_of ?_
    | exact touch_ofO rfl ‹TouchO _ _ (some _)›
    | with_reducible refine touchO_map' (fun _ => ?_)
    | refine touch_ofO (by assumption) ?_

theorem outEff_touch (a : Nat) (v : Word) (s : State) : TouchO k_outEff s (outEff a v s) := by
  unfold outEff
  refine TouchE.out ?_
  repeat' first
    | ((first | lift_lets -underBinder | skip); with_reducible intro zz; first | (refine cut_k (Touch k_outEff s zz) ?_ (fun _ => ?_); rotate_left; clear_value zz; rotate_right) | (refine cut_k (TouchO k_outEff s zz) ?_ (fun _ => ?_); rotate_left; clear_value zz; rotate_right) | clear_value zz)
    | with_reducible exact Touch.refl
    | with_reducible assumption
    | decide
    | with_reducible exact okw_any (by decide)
    | with_reducible exact fun _ => okw_any (by decide)
    | with_reducible exact fun _ _ _ => okw_any (by decide)
    | with_reducible exact touchO_none
    | with_reducible refine touchO_some ?_
    | with_reducible refine touchO_map ?_ (fun _ _ => ?_)
    | with_reducible refine touch_getD ?_ ?_
    | with_reducible refine ite_k ?_ ?_
    | with_reducible refine plainEff_w ?_ ?_
    | with_reducible apply Touch.thenO (toCfgEff_touch ..)
    | with_reducible apply Touch.then (judgeOut_touch ..)
    | with_reducible apply Touch.thenO (toCmdEff_touch ..)
    | unfold zz; try dsimp -zeta only
    | exact touch_ofO rfl ‹TouchO _ _ (some _)›
    | with_reducible refine touchO_map' (fun _ => ?_)
    | refine touch_ofO (by assumption) ?_
    | split
    | with_reducible refine touchE_of ?_

theorem encEff_touch (a : Nat) (v : Word) (s : State) : TouchO k_encEff s (encEff a v s) := by
  unfold encEff
  refine TouchE.out ?_
  repeat' first
    | with_reducible exact Touch.refl
    | with_reducible assumption
    | decide
    | with_reducible exact okw_any (by decide)
    | with_reducible exact fun _ => okw_any (by decide)
    | with_reducible exact fun _ _ _ => okw_any (by decide)
    | with_reducible exact touchO_none
    | with_reducible refine touchO_some ?_
    | with_reducible refine touchO_map ?_ (fun _ _ => ?_)
    | with_reducible refine touch_getD ?_ ?_
    | with_reducible refine ite_k ?_ ?_
    | with_reducible refine plainEff_w ?_ ?_
    | with_reducible apply Touch.thenO (encStatusEff_touch ..)
    | with_reducible apply Touch.thenO (encCtrlEff_touch ..)
    | exact touch_ofO rfl ‹TouchO _ _ (some _)›
    | with_reducible refine touchO_map' (fun _ => ?_)
    | refine touch_ofO (by assumption) ?_
    | split
    | with_reducible refine touchE_of ?_

theorem laneEff_touch (a : Nat) (v : Word) (s : State) : TouchO k_laneEff s (laneEff a v s) := by
  unfold laneEff
  refine TouchE.out ?_
  repeat' first
    | ((first | lift_lets -underBinder | skip); with_reducible intro zz; first | (refine cut_k (Touch k_laneEff s zz) ?_ (fun _ => ?_); rotate_left; clear_value zz; rotate_right) | (refine cut_k (TouchO k_laneEff s zz) ?_ (fun _ => ?_); rotate_left; clear_value zz; rotate_right) | clear_value zz)
    | with_reducible exact Touch.refl
    | with_reducible assumption
    | decide
    | with_reducible exact okw_any (by decide)
    | with_reducible exact fun _ => okw_any (by decide)
    | with_reducible exact fun _ _ _ => okw_any (by decide)
    | with_reducible exact touchO_none
    | with_reducible refine touchO_some ?_
    | with_reducible refine touchO_map ?_ (fun _ _ => ?_)
    | with_reducible refine touch_getD ?_ ?_
    | with_reducible refine ite_k ?_ ?_
    | with_reducible refine plainEff_w ?_ ?_
    | with_reducible refine wr_w ?_ ?_
    | with_reducible apply Touch.thenO (laneCtrlEff_touch ..)
    | with_reducible apply Touch.thenO (ltCmdEff_touch ..)
    | unfold zz; try dsimp -zeta only
    | exact touch_ofO rfl ‹TouchO _ _ (some _)›
    | with_reducible refine touchO_map' (fun _ => ?_)
    | refine touch_ofO (by assumption) ?_
    | split
    | with_reducible refine touchE_of ?_

theorem safetyEff_touch (w : Who) (a : Nat) (v : Word) (s : State) : TouchO k_safetyEff s (safetyEff w a v s) := by
  unfold safetyEff
  refine TouchE.out ?_
  repeat' first
    | with_reducible exact Touch.refl
    | with_reducible assumption
    | decide
    | with_reducible exact okw_any (by decide)
    | with_reducible exact fun _ => okw_any (by decide)
    | with_reducible exact fun _ _ _ => okw_any (by decide)
    | with_reducible exact touchO_none
    | with_reducible refine touchO_some ?_
    | with_reducible refine touchO_map ?_ (fun _ _ => ?_)
    | with_reducible refine touch_getD ?_ ?_
    | with_reducible refine ite_k ?_ ?_
    | with_reducible refine plainEff_w ?_ ?_
    | with_reducible apply Touch.thenO (safeWordEff_touch ..)
    | with_reducible apply Touch.thenO (safeCmdEff_touch ..)
    | exact touch_ofO rfl ‹TouchO _ _ (some _)›
    | with_reducible refine touchO_map' (fun _ => ?_)
    | refine touch_ofO (by assumption) ?_
    | split
    | with_reducible refine touchE_of ?_

theorem blkLockEff_touch (w : Who) (v : Word) (s : State) : TouchO k_blkLockEff s (blkLockEff w v s) := by
  unfold blkLockEff
  repeat' first
    | ((first | lift_lets -underBinder | skip); with_reducible intro zz; first | (refine cut_k (Touch k_blkLockEff s zz) ?_ (fun _ => ?_); rotate_left; clear_value zz; rotate_right) | (refine cut_k (TouchO k_blkLockEff s zz) ?_ (fun _ => ?_); rotate_left; clear_value zz; rotate_right) | clear_value zz)
    | with_reducible exact Touch.refl
    | with_reducible assumption
    | decide
    | with_reducible exact okw_BLK_LOCK (by decide)
    | with_reducible exact touchO_none
    | with_reducible refine touchO_some ?_
    | with_reducible refine touchO_map ?_ (fun _ _ => ?_)
    | with_reducible refine touch_getD ?_ ?_
    | with_reducible refine ite_k ?_ ?_
    | with_reducible refine wrN_w ?_ ?_
    | unfold zz; try dsimp -zeta only
    | exact touch_ofO rfl ‹TouchO _ _ (some _)›
    | with_reducible refine touchO_map' (fun _ => ?_)
    | refine touch_ofO (by assumption) ?_

theorem hostEff_touch (w : Who) (a : Nat) (v : Word) (s : State) : TouchO k_hostEff s (hostEff w a v s) := by
  unfold hostEff
  refine TouchE.out ?_
  repeat' first
    | with_reducible exact Touch.refl
    | with_reducible assumption
    | decide
    | with_reducible exact okw_any (by decide)
    | with_reducible exact fun _ => okw_any (by decide)
    | with_reducible exact fun _ _ _ => okw_any (by decide)
    | with_reducible exact touchO_none
    | with_reducible refine touchO_some ?_
    | with_reducible refine touchO_map ?_ (fun _ _ => ?_)
    | with_reducible refine touch_getD ?_ ?_
    | with_reducible refine ite_k ?_ ?_
    | with_reducible refine plainEff_w ?_ ?_
    | with_reducible apply Touch.thenO (blkLockEff_touch ..)
    | with_reducible apply Touch.thenO (fiCmdEff_touch ..)
    | with_reducible refine withLine_k ?_ (fun _ _ => ?_) ?_
    | exact touch_ofO rfl ‹TouchO _ _ (some _)›
    | with_reducible refine touchO_map' (fun _ => ?_)
    | refine touch_ofO (by assumption) ?_
    | split
    | with_reducible refine touchE_of ?_

theorem sysEff_touch (a : Nat) (v : Word) (s : State) : TouchO k_sysEff s (sysEff a v s) := by
  unfold sysEff
  refine TouchE.out ?_
  repeat' first
    | with_reducible exact Touch.refl
    | with_reducible assumption
    | decide
    | with_reducible exact okw_any (by decide)
    | with_reducible exact fun _ => okw_any (by decide)
    | with_reducible exact fun _ _ _ => okw_any (by decide)
    | with_reducible exact touchO_none
    | with_reducible refine touchO_some ?_
    | with_reducible refine touchO_map ?_ (fun _ _ => ?_)
    | with_reducible refine touch_getD ?_ ?_
    | with_reducible refine ite_k ?_ ?_
    | with_reducible refine plainEff_w ?_ ?_
    | with_reducible apply Touch.thenO (regionCtrlEff_touch ..)
    | with_reducible apply Touch.thenO (regionCmdEff_touch ..)
    | with_reducible apply Touch.thenO (imgCmdEff_touch ..)
    | with_reducible apply Touch.thenO (rcpCmdEff_touch ..)
    | with_reducible apply Touch.thenO (sysCmdEff_touch ..)
    | split
    | with_reducible refine touchE_of ?_
    | exact touch_ofO rfl ‹TouchO _ _ (some _)›
    | with_reducible refine touchO_map' (fun _ => ?_)
    | refine touch_ofO (by assumption) ?_

theorem winEff_touch (a : Nat) (v : Word) (s : State) : TouchO k_winEff s (winEff a v s) := by
  unfold winEff
  repeat' first
    | with_reducible exact Touch.refl
    | with_reducible assumption
    | decide
    | with_reducible exact okw_any (by decide)
    | with_reducible exact fun _ => okw_any (by decide)
    | with_reducible exact fun _ _ _ => okw_any (by decide)
    | with_reducible exact touchO_none
    | with_reducible refine touchO_some ?_
    | with_reducible refine touchO_map ?_ (fun _ _ => ?_)
    | with_reducible refine touch_getD ?_ ?_
    | with_reducible refine wr_w ?_ ?_
    | split
    | exact touch_ofO rfl ‹TouchO _ _ (some _)›
    | with_reducible refine touchO_map' (fun _ => ?_)
    | refine touch_ofO (by assumption) ?_

theorem effectOf_touch (w : Who) (p : Nat) (a : Nat) (v : Word) (s : State) : TouchO k_effectOf s (effectOf w p a v s) := by
  unfold effectOf
  refine TouchE.out ?_
  repeat' first
    | with_reducible exact Touch.refl
    | with_reducible assumption
    | decide
    | with_reducible exact okw_any (by decide)
    | with_reducible exact fun _ => okw_any (by decide)
    | with_reducible exact fun _ _ _ => okw_any (by decide)
    | with_reducible exact touchO_none
    | with_reducible refine touchO_some ?_
    | with_reducible refine touchO_map ?_ (fun _ _ => ?_)
    | with_reducible refine touch_getD ?_ ?_
    | with_reducible refine ite_k ?_ ?_
    | with_reducible refine plainEff_w ?_ ?_
    | with_reducible apply Touch.thenO (pairCmdEff_touch ..)
    | with_reducible apply Touch.thenO (safetyEff_touch ..)
    | with_reducible apply Touch.thenO (bridgeEff_touch ..)
    | with_reducible apply Touch.thenO (motionEff_touch ..)
    | with_reducible apply Touch.thenO (angleEff_touch ..)
    | with_reducible apply Touch.thenO (timeEff_touch ..)
    | with_reducible apply Touch.thenO (laneEff_touch ..)
    | with_reducible apply Touch.thenO (axisEff_touch ..)
    | with_reducible apply Touch.thenO (hostEff_touch ..)
    | with_reducible apply Touch.thenO (outEff_touch ..)
    | with_reducible apply Touch.thenO (schEff_touch ..)
    | with_reducible apply Touch.thenO (winEff_touch ..)
    | with_reducible apply Touch.thenO (netEff_touch ..)
    | with_reducible apply Touch.thenO (encEff_touch ..)
    | with_reducible apply Touch.thenO (sysEff_touch ..)
    | split
    | with_reducible refine touchE_of ?_
    | exact touch_ofO rfl ‹TouchO _ _ (some _)›
    | with_reducible refine touchO_map' (fun _ => ?_)
    | refine touch_ofO (by assumption) ?_

theorem writeReg_touch (w : Who) (a : Nat) (v : Word) (s : State) : Touch k_writeReg s (writeReg w a v s) := by
  unfold writeReg
  repeat' first
    | with_reducible exact Touch.refl
    | with_reducible assumption
    | decide
    | with_reducible exact touchO_none
    | with_reducible refine touchO_some ?_
    | with_reducible refine touchO_map ?_ (fun _ _ => ?_)
    | with_reducible refine touch_getD ?_ ?_
    | with_reducible refine ite_k ?_ ?_
    | with_reducible apply Touch.thenO (effectOf_touch ..)
    | with_reducible apply Touch.then (setAcc_touch ..)
    | with_reducible refine gated_k ?_ ?_ ?_
    | exact touch_ofO rfl ‹TouchO _ _ (some _)›
    | with_reducible refine touchO_map' (fun _ => ?_)
    | refine touch_ofO (by assumption) ?_

theorem clearRc_touch (a : Nat) (s : State) : Touch k_clearRc s (clearRc a s) := by
  unfold clearRc
  repeat' first
    | with_reducible exact Touch.refl
    | with_reducible assumption
    | decide
    | with_reducible exact okw_any (by decide)
    | with_reducible exact fun _ => okw_any (by decide)
    | with_reducible exact fun _ _ _ => okw_any (by decide)
    | with_reducible refine foldl_k (fun _ _ _ => ?_) ?_
    | with_reducible refine ite_k ?_ ?_
    | with_reducible refine fset_w ?_ ?_
    | split

theorem winRead_touch (a : Nat) (s : State) : Touch2 k_winRead s (winRead a s) := by
  unfold winRead
  repeat' first
    | with_reducible exact Touch.refl
    | with_reducible assumption
    | decide
    | with_reducible refine ite_k ?_ ?_
    | with_reducible apply Touch.then2 (takeFree_touch ..)
    | with_reducible refine Touch.snd ?_
    | split
    | with_reducible refine touch2_mk ?_
    | exact touch_of2 rfl ‹Touch2 _ _ (_, _)›
    | refine touch_of2 (by assumption) ?_

theorem readWord_touch (w : Who) (a : Nat) (s : State) : Touch2 k_readWord s (readWord w a s) := by
  unfold readWord
  simp -zeta -beta -eta only [mk_eq]
  repeat' first
    | ((first | lift_lets -underBinder | skip); with_reducible intro zz; first | ((first | (have _q : HostSt := zz; clear _q)); dsimp -zeta only [zz]; clear zz) | (refine cut_k (Touch k_readWord s zz) ?_ (fun _ => ?_); rotate_left; clear_value zz; rotate_right) | (refine cut_k (Touch2 k_readWord s zz) ?_ (fun _ => ?_); rotate_left; clear_value zz; rotate_right) | clear_value zz)
    | with_reducible exact Touch.refl
    | with_reducible assumption
    | decide
    | with_reducible refine foldl_k (fun _ _ _ => ?_) ?_
    | with_reducible refine ite_k ?_ ?_
    | with_reducible apply Touch.then2 (winRead_touch ..)
    | with_reducible apply Touch.then (clearRc_touch ..)
    | with_reducible refine Touch.snd ?_
    | unfold zz; try dsimp -zeta only
    | with_reducible refine touch2_mk ?_
    | exact touch_of2 rfl ‹Touch2 _ _ (_, _)›
    | refine touch_of2 (by assumption) ?_
    | with_reducible apply Touch.then (upd_hostlatch ..)

theorem readReg_touch (w : Who) (a : Nat) (s : State) : Touch k_readReg s (readReg w a s) := by
  unfold readReg
  repeat' first
    | ((first | lift_lets -underBinder | skip); with_reducible intro zz; first | (refine cut_k (Touch k_readReg s zz) ?_ (fun _ => ?_); rotate_left; clear_value zz; rotate_right) | (refine cut_k (Touch2 k_readReg s zz) ?_ (fun _ => ?_); rotate_left; clear_value zz; rotate_right) | clear_value zz)
    | with_reducible exact Touch.refl
    | with_reducible assumption
    | decide
    | with_reducible refine ite_k ?_ ?_
    | with_reducible apply Touch.then2 (readWord_touch ..)
    | with_reducible apply Touch.then (setAcc_touch ..)
    | with_reducible refine Touch.snd ?_
    | unfold zz; try dsimp -zeta only
    | split
    | with_reducible refine touch2_mk ?_
    | exact touch_of2 rfl ‹Touch2 _ _ (_, _)›
    | refine touch_of2 (by assumption) ?_

theorem execRegisterWrite_touch (w : Who) (a : Word) (v : Word) (s : State) : TouchX k_execRegisterWrite s (execRegisterWrite w a v s) := by
  unfold execRegisterWrite
  repeat' first
    | with_reducible exact Touch.refl
    | with_reducible assumption
    | decide
    | with_reducible refine touchX_next ?_
    | with_reducible apply Touch.then (writeReg_touch ..)

theorem execStagedWrite_touch (w : Who) (a : Word) (v : Word) (s : State) : TouchX k_execStagedWrite s (execStagedWrite w a v s) := by
  unfold execStagedWrite
  repeat' first
    | with_reducible exact Touch.refl
    | with_reducible assumption
    | decide
    | with_reducible refine touchX_next ?_
    | with_reducible apply Touch.then (writeReg_touch ..)

theorem execReadClear_touch (p : Port) (a : Word) (s : State) : TouchX k_execReadClear s (execReadClear p a s) := by
  unfold execReadClear
  repeat' first
    | with_reducible exact Touch.refl
    | with_reducible assumption
    | decide
    | with_reducible refine touchX_next ?_
    | with_reducible apply Touch.then (readReg_touch ..)

theorem execLatchedRead_touch (p : Port) (a : Word) (s : State) : TouchX k_execLatchedRead s (execLatchedRead p a s) := by
  unfold execLatchedRead
  repeat' first
    | with_reducible exact Touch.refl
    | with_reducible assumption
    | decide
    | with_reducible refine touchX_next ?_
    | with_reducible apply Touch.then (readReg_touch ..)

theorem execBlkLockWrite_touch (w : Who) (v : Word) (s : State) : TouchX k_execBlkLockWrite s (execBlkLockWrite w v s) := by
  unfold execBlkLockWrite
  repeat' first
    | with_reducible exact Touch.refl
    | with_reducible assumption
    | decide
    | with_reducible refine touchX_next ?_
    | with_reducible exact touchO_none
    | with_reducible refine touchO_some ?_
    | with_reducible refine touchO_map ?_ (fun _ _ => ?_)
    | with_reducible refine touch_getD ?_ ?_
    | with_reducible apply Touch.thenO (blkLockEff_touch ..)
    | with_reducible refine gated_k ?_ ?_ ?_
    | exact touch_ofO rfl ‹TouchO _ _ (some _)›
    | with_reducible refine touchO_map' (fun _ => ?_)
    | refine touch_ofO (by assumption) ?_

theorem logMirrored_touch (r : LogRec) (s : State) : Touch k_logMirrored s (logMirrored r s) := by
  unfold logMirrored
  simp -zeta -beta -eta only [mk_eq]
  repeat' first
    | ((first | lift_lets -underBinder | skip); with_reducible intro zz; first | ((first | (have _q : HostSt := zz; clear _q)); dsimp -zeta only [zz]; clear zz) | (refine cut_k (Touch k_logMirrored s zz) ?_ (fun _ => ?_); rotate_left; clear_value zz; rotate_right) | clear_value zz)
    | with_reducible exact Touch.refl
    | with_reducible assumption
    | decide
    | with_reducible exact okw_LOG_HEAD (by decide)
    | with_reducible exact okw_LOG_NVM (by decide)
    | with_reducible refine ite_k ?_ ?_
    | with_reducible refine fset_w ?_ ?_
    | with_reducible refine wrN_w ?_ ?_
    | unfold zz; try dsimp -zeta only
    | with_reducible apply Touch.then (upd_hostlog_hostseq_hostsub ..)

theorem applyRec_touch (own : Bool) (port : Port) (r : MirRec) (s : State) : Touch k_applyRec s (applyRec own port r s) := by
  unfold applyRec
  repeat' first
    | ((first | lift_lets -underBinder | skip); with_reducible intro zz; first | (refine cut_k (Touch k_applyRec s zz) ?_ (fun _ => ?_); rotate_left; clear_value zz; rotate_right) | (refine cut_k (TouchO k_applyRec s zz) ?_ (fun _ => ?_); rotate_left; clear_value zz; rotate_right) | clear_value zz)
    | with_reducible exact Touch.refl
    | with_reducible assumption
    | decide
    | with_reducible exact okw_any (by decide)
    | with_reducible exact fun _ => okw_any (by decide)
    | with_reducible exact fun _ _ _ => okw_any (by decide)
    | with_reducible exact touchO_none
    | with_reducible refine touchO_some ?_
    | with_reducible refine touchO_map ?_ (fun _ _ => ?_)
    | with_reducible refine touch_getD ?_ ?_
    | with_reducible refine ite_k ?_ ?_
    | with_reducible refine wrWords_any ?_ (by decide)
    | with_reducible apply Touch.then (logMirrored_touch ..)
    | with_reducible apply Touch.then (installLaw_touch ..)
    | with_reducible apply Touch.thenO (effectOf_touch ..)
    | unfold zz; try dsimp -zeta only
    | split
    | exact touch_ofO rfl ‹TouchO _ _ (some _)›
    | with_reducible refine touchO_map' (fun _ => ?_)
    | refine touch_ofO (by assumption) ?_

theorem applyDue_touch (s : State) : Touch k_applyDue s (applyDue s) := by
  unfold applyDue
  simp -zeta -beta -eta only [mk_eq]
  repeat' first
    | ((first | lift_lets -underBinder | skip); with_reducible intro zz; first | ((first | (have _q : PairSt := zz; clear _q)); dsimp -zeta only [zz]; clear zz) | (refine cut_k (okw k_applyDue zz) (by with_reducible first | exact okw_PAIR_STATUS (by decide)) (fun _ => ?_); clear_value zz) | (refine cut_k (Touch k_applyDue s zz) ?_ (fun _ => ?_); rotate_left; clear_value zz; rotate_right) | clear_value zz)
    | with_reducible exact Touch.refl
    | with_reducible assumption
    | decide
    | with_reducible exact okw_PAIR_STATUS (by decide)
    | with_reducible refine foldl_k (fun _ _ _ => ?_) ?_
    | with_reducible refine ite_k ?_ ?_
    | with_reducible refine w1cSet_w ?_ ?_ ?_
    | with_reducible apply Touch.then (applyRec_touch ..)
    | with_reducible refine eachN_k (fun _ _ _ => ?_) ?_
    | with_reducible apply Touch.then (want_touch ..)
    | unfold zz; try dsimp -zeta only
    | with_reducible apply Touch.then (upd_pairrecs ..)
    | with_reducible apply Touch.then (upd_pairheld ..)

theorem execRecordApply_touch (s : State) : TouchX k_execRecordApply s (execRecordApply s) := by
  unfold execRecordApply
  repeat' first
    | with_reducible exact Touch.refl
    | with_reducible assumption
    | decide
    | with_reducible refine touchX_next ?_
    | with_reducible apply Touch.then (applyDue_touch ..)

end Sys2Proof.Laws
end

