-- ==== Sys2Proof/Laws/TouchBoot.lean ====
section
/-! SUPPORT. What each operation of Machine/Boot.lean can touch: one lemma per operation, by footprint (Laws/Touch.lean). -/

set_option linter.unusedTactic false
set_option linter.unreachableTactic false
set_option linter.unusedSimpArgs false
set_option linter.unusedVariables false

namespace Sys2Proof.Laws
open Sys2Proof Sys2Proof.Machine R

/-! Footprints. -/
def k_patches : Nat := 0x30000000000000000000000000000000000000000000000000000000000800020000000e40000000000c000000000000000000000
def k_loadSafety : Nat := 0x800000020030000000000002084000200300100038000000000000000000000000000000000000002001000000000000021100000000
def k_installOne : Nat := 0x76d3414012500200010404422b4d0c200b4c18c13c0000c73000000040011ef0e00000007fffffffffffffffffffffffffffffffffff
def k_installRegs : Nat := 0x76d3414012500200010404422b4d0c200b4c18c13c0000c73000000040011ef0e00000007fffffffffffffffffffffffffffffffffff
def k_installCtxs : Nat := 0x100000000000000000000000000100000000000000000140
def k_evacuate : Nat := 0x100000000000000000000000000000000000000000000040
def k_installBanks : Nat := 0x100000000000000000000000000000000060000000000000000080000000000000000000000000000
def k_installAxis : Nat := 0x10000000000000000000000000000000000000002c000000000000000000000000000000000000000000000000000000001300000040
def k_installCams : Nat := 0x8000000000000000000000000000f800000000000000000000000000000000000000000000000000000000000000000000000000000
def k_installTune : Nat := 0x76d3414012500200010404422b4d0c200b4c18c13c0000c73000000040011ef0e00000007fffffffffffffffffffffffffffffffffff
def k_installLanes : Nat := 0x400000000000000001c00000000000000000000000000000000000000001000000000000000000400000000000000000010000000000
def k_installNet : Nat := 0x30000900000000000000000000000000000000000000000000000f0000000000000
def k_installed : Nat := 0x76d3414012500200010404422b4d0c200b4c18c13f0000d73000000040011ef0e00400007fffffffffffffffffffffffffffffffffff
def k_installRest : Nat := 0x7ed341401250020001c404422b4d0fa00b4c18c13c0000c73000000040011ef0e00000007fffffffffffffffffffffffffffffffffff
def k_enterSix : Nat := 0x20000000000000000200300100138000000000000000001001120000000000000040000000000480000001100000000
def k_phase5 : Nat := 0x7ed341401250020001c404422b4d0fa00b4c18c13f0000d73000000040011ef1e00400007fffffffffffffffffffffffffffffffffff
def k_checked : Nat := 0xfed341421270020001c404422b4d0fa00b4c18c13f0000d73000000040011ef1e02400007fffffffffffffffffffffffffffffffffff
def k_verify : Nat := 0xfed341421270020001c404422b4d0fa00b4c18c13f0000d73000000040011ef1e02400007fffffffffffffffffffffffffffffffffff
def k_phase4 : Nat := 0xfed341421270020001c404422b4d0fa00b4c18c13f0000d73000000040011ef1e02400007fffffffffffffffffffffffffffffffffff
def k_phase3 : Nat := 0xfed341421270020001c404422b4d0fa00b4c18c13f0000d73000000040011ef7e02400007fffffffffffffffffffffffffffffffffff
def k_findLogs : Nat := 0x2830040100000000000000000000000000000000000000000000000000000800000000040e43000000000c000000000000000000000
def k_phase2 : Nat := 0xfed341421270020001c404422b4d0fa00b4c18c13f0000d73000000040011ef7e02400007fffffffffffffffffffffffffffffffffff
def k_execStartUp : Nat := 0xfed341421270020001c404422b4d0fa00b4c18c13f0000d73000000040011ef7e02400007fffffffffffffffffffffffffffffffffff
def k_execJtagUnlock : Nat := 0xfed341421270020001c404422b4d0fa00b4c18c13f0000d73000000040011ef7e02400007fffffffffffffffffffffffffffffffffff
def k_execFtmWaitTimeout : Nat := 0x2834142101000000000000208400020030010003800000600000000000000e02000000040e4320043c100c000080000021100000000
def k_execNodeWaitExpiry : Nat := 0x20000000000000000000000000000000044000000000000000000000000000000000000000000480000000000000000
def k_execLinksTimeout : Nat := 0x690000000000200000000000000000000000000000000050000000000010080e00000007fffffffffffffffffffffffffffffffffff

theorem patches_touch (x : SlotImg) (s : State) : Touch2 k_patches s (patches x s) := by
  unfold patches
  repeat' first
    | with_reducible exact Touch.refl
    | with_reducible assumption
    | decide
    | with_reducible exact okw_PATCH_STATE (by decide)
    | with_reducible refine foldl_k (fun _ _ _ => ?_) ?_
    | with_reducible refine ite_k ?_ ?_
    | with_reducible refine wrN_w ?_ ?_
    | with_reducible apply Touch.then (logSteward_touch ..)
    | with_reducible refine Touch.snd ?_
    | split
    | with_reducible refine touch2_mk ?_
    | exact touch_of2 rfl ‹Touch2 _ _ (_, _)›
    | refine touch_of2 (by assumption) ?_

theorem loadSafety_touch (x : SlotImg) (s : State) : Touch k_loadSafety s (loadSafety x s) := by
  unfold loadSafety
  simp -zeta -beta -eta only [mk_eq]
  repeat' first
    | ((first | lift_lets -underBinder | skip); with_reducible intro zz; first | ((first | (have _q : SafetySt := zz; clear _q)); dsimp -zeta only [zz]; clear zz) | (refine cut_k (Touch k_loadSafety s zz) ?_ (fun _ => ?_); rotate_left; clear_value zz; rotate_right) | clear_value zz)
    | with_reducible exact Touch.refl
    | with_reducible assumption
    | decide
    | with_reducible exact okw_SAFE_SIG (by decide)
    | with_reducible exact okr_safe (by decide)
    | with_reducible exact okw_SAFE_STATUS (by decide)
    | with_reducible refine ite_k ?_ ?_
    | with_reducible refine wrRange_w ?_ ?_
    | with_reducible refine fset_w ?_ ?_
    | with_reducible refine wr_w ?_ ?_
    | with_reducible apply Touch.then (restartZone_touch ..)
    | with_reducible refine eachN_k (fun _ _ _ => ?_) ?_
    | unfold zz; try dsimp -zeta only
    | split
    | with_reducible apply Touch.then (upd_safesec ..)

theorem installOne_touch (p : List (Nat × Word) × State) (e : Nat × Word) : Touch2 k_installOne p.2 (installOne p e) := by
  unfold installOne
  split
  · rename_i t h; exact Touch.then (effectOf_touch _ _ _ _ p.2 t h) (by decide) Touch.refl
  · exact Touch.refl

theorem installRegs_touch (l : List (Nat × Word)) (s : State) : Touch2 k_installRegs s (installRegs l s) := by
  unfold installRegs
  have h : ∀ (l : List (Nat × Word)) (p : List (Nat × Word) × State), Touch2 k_installRegs s p → Touch2 k_installRegs s (l.foldl installOne p) :=
    fun l p hp => foldl_k (fun q e hq => Touch.then (installOne_touch q e) (by decide) hq) hp
  exact Touch.then (landAll_touch ..) (by decide) (h _ _ (h _ _ Touch.refl))

theorem installCtxs_touch (l : List (Nat × Ctx)) (bad : BitVec 4) (s : State) : Touch k_installCtxs s (installCtxs l bad s) := by
  unfold installCtxs
  repeat' first
    | ((first | lift_lets -underBinder | skip); with_reducible intro zz; first | (refine cut_k (Touch k_installCtxs s zz) ?_ (fun _ => ?_); rotate_left; clear_value zz; rotate_right) | (refine cut_k (∀ t, Touch k_installCtxs s t → Touch k_installCtxs s (zz t)) (fun _ _ => ?_) (fun _ => ?_); rotate_left; clear_value zz; rotate_right) | (refine cut_k (∀ a t, Touch k_installCtxs s t → Touch k_installCtxs s (zz a t)) (fun _ _ _ => ?_) (fun _ => ?_); rotate_left; clear_value zz; rotate_right) | (refine cut_k (∀ a b t, Touch k_installCtxs s t → Touch k_installCtxs s (zz a b t)) (fun _ _ _ _ => ?_) (fun _ => ?_); rotate_left; clear_value zz; rotate_right) | (refine cut_k (∀ a b c d t, Touch k_installCtxs s t → Touch k_installCtxs s (zz a b c d t)) (fun _ _ _ _ _ _ => ?_) (fun _ => ?_); rotate_left; clear_value zz; rotate_right) | clear_value zz)
    | with_reducible exact Touch.refl
    | with_reducible assumption
    | decide
    | with_reducible refine foldl_k (fun _ _ _ => ?_) ?_
    | with_reducible apply Touch.then (State_setCtx_touch ..)
    | with_reducible apply Touch.then (showContexts_touch ..)
    | with_reducible apply Touch.then (setRegState_touch ..)
    | with_reducible apply Touch.then (applyResv_touch ..)
    | with_reducible refine eachN_k (fun _ _ _ => ?_) ?_
    | unfold zz; try dsimp -zeta only
    | with_reducible apply_assumption

theorem evacuate_touch (g : Nat) (s : State) : TouchO k_evacuate s (evacuate g s) := by
  unfold evacuate
  repeat' first
    | with_reducible exact Touch.refl
    | with_reducible assumption
    | decide
    | with_reducible exact touchO_none
    | with_reducible refine touchO_some ?_
    | with_reducible refine touchO_map ?_ (fun _ _ => ?_)
    | with_reducible refine touch_getD ?_ ?_
    | with_reducible refine foldl_k (fun _ _ _ => ?_) ?_
    | with_reducible apply Touch.then (homeIn_touch ..)
    | split
    | exact touch_ofO rfl ‹TouchO _ _ (some _)›
    | with_reducible refine touchO_map' (fun _ => ?_)
    | refine touch_ofO (by assumption) ?_

theorem installBanks_touch (x : SlotImg) (banks : List (Nat × Nat)) (s : State) : Touch k_installBanks s (installBanks x banks s) := by
  unfold installBanks
  repeat' first
    | ((first | lift_lets -underBinder | skip); with_reducible intro zz; first | (refine cut_k (Touch k_installBanks s zz) ?_ (fun _ => ?_); rotate_left; clear_value zz; rotate_right) | clear_value zz)
    | with_reducible exact Touch.refl
    | with_reducible assumption
    | decide
    | with_reducible exact okw_CO_STATUS (by decide)
    | with_reducible refine foldl_k (fun _ _ _ => ?_) ?_
    | with_reducible refine ite_k ?_ ?_
    | with_reducible refine fset_w ?_ ?_
    | with_reducible apply Touch.then (fillBank_touch ..)
    | unfold zz; try dsimp -zeta only
    | split

theorem installAxis_touch (n : Nat) (s : State) : Touch k_installAxis s (installAxis n s) := by
  unfold installAxis
  repeat' first
    | ((first | lift_lets -underBinder | skip); with_reducible intro zz; first | (refine cut_k (Touch k_installAxis s zz) ?_ (fun _ => ?_); rotate_left; clear_value zz; rotate_right) | clear_value zz)
    | with_reducible exact Touch.refl
    | with_reducible assumption
    | decide
    | with_reducible exact okr_pf (by decide) (by decide)
    | with_reducible refine wrRange_w ?_ ?_
    | with_reducible apply Touch.then (State_setCtx_touch ..)
    | with_reducible apply Touch.then (installLaw_touch ..)
    | with_reducible apply Touch.then (clearInit_touch ..)
    | with_reducible apply Touch.then (putState_touch ..)
    | with_reducible apply Touch.then (modGen_touch ..)
    | unfold zz; try dsimp -zeta only
    | split

theorem installCams_touch (s : State) : Touch2 k_installCams s (installCams s) := by
  unfold installCams
  repeat' first
    | ((first | lift_lets -underBinder | skip); with_reducible intro zz; first | (refine cut_k (Touch k_installCams s zz) ?_ (fun _ => ?_); rotate_left; clear_value zz; rotate_right) | (refine cut_k (Touch2 k_installCams s zz) ?_ (fun _ => ?_); rotate_left; clear_value zz; rotate_right) | clear_value zz)
    | with_reducible exact Touch.refl
    | with_reducible assumption
    | decide
    | with_reducible refine foldl_k (fun _ _ _ => ?_) ?_
    | with_reducible refine ite_k ?_ ?_
    | with_reducible apply Touch.then (describeCam_touch ..)
    | with_reducible apply Touch.then (placeCam_touch ..)
    | with_reducible refine Touch.snd ?_
    | unfold zz; try dsimp -zeta only
    | with_reducible refine touch2_mk ?_
    | exact touch_of2 rfl ‹Touch2 _ _ (_, _)›
    | refine touch_of2 (by assumption) ?_

theorem installTune_touch (x : SlotImg) (s : State) : Touch k_installTune s (installTune x s) := by
  unfold installTune
  repeat' first
    | ((first | lift_lets -underBinder | skip); with_reducible intro zz; first | (refine cut_k (Touch k_installTune s zz) ?_ (fun _ => ?_); rotate_left; clear_value zz; rotate_right) | (refine cut_k (Touch2 k_installTune s zz) ?_ (fun _ => ?_); rotate_left; clear_value zz; rotate_right) | clear_value zz)
    | with_reducible exact Touch.refl
    | with_reducible assumption
    | decide
    | with_reducible exact okw_BOOT_STATUS (by decide)
    | with_reducible refine foldl_k (fun _ _ _ => ?_) ?_
    | with_reducible refine ite_k ?_ ?_
    | with_reducible refine fput_w ?_ ?_
    | with_reducible apply Touch.then2 (installRegs_touch ..)
    | with_reducible apply Touch.then (logSteward_touch ..)
    | with_reducible apply Touch.then (installLaw_touch ..)
    | with_reducible refine Touch.snd ?_
    | unfold zz; try dsimp -zeta only
    | split
    | with_reducible refine touch2_mk ?_
    | exact touch_of2 rfl ‹Touch2 _ _ (_, _)›
    | refine touch_of2 (by assumption) ?_

theorem installLanes_touch (x : SlotImg) (s : State) : Touch k_installLanes s (installLanes x s) := by
  unfold installLanes
  repeat' first
    | ((first | lift_lets -underBinder | skip); with_reducible intro zz; first | (refine cut_k (Touch k_installLanes s zz) ?_ (fun _ => ?_); rotate_left; clear_value zz; rotate_right) | clear_value zz)
    | with_reducible exact Touch.refl
    | with_reducible assumption
    | decide
    | with_reducible refine foldl_k (fun _ _ _ => ?_) ?_
    | with_reducible apply Touch.then (State_setLan_touch ..)
    | with_reducible apply Touch.then (condHoldoff_touch ..)
    | with_reducible apply Touch.then (placeTask_touch ..)
    | with_reducible refine eachN_k (fun _ _ _ => ?_) ?_
    | unfold zz; try dsimp -zeta only
    | split

theorem installNet_touch (x : SlotImg) (used : List Nat) (s : State) : Touch k_installNet s (installNet x used s) := by
  unfold installNet
  simp -zeta -beta -eta only [mk_eq]
  repeat' first
    | ((first | lift_lets -underBinder | skip); with_reducible intro zz; first | ((first | (have _q : NetSt := zz; clear _q)); dsimp -zeta only [zz]; clear zz) | (refine cut_k (Touch k_installNet s zz) ?_ (fun _ => ?_); rotate_left; clear_value zz; rotate_right) | clear_value zz)
    | with_reducible exact Touch.refl
    | with_reducible assumption
    | decide
    | with_reducible refine foldl_k (fun _ _ _ => ?_) ?_
    | with_reducible apply Touch.then (loadGen_touch ..)
    | unfold zz; try dsimp -zeta only
    | split
    | with_reducible apply Touch.then (upd_netnodes_netranks_netused ..)

theorem installed_touch (x : SlotImg) (y : SysSec) (bad : BitVec 4) (s : State) : Touch2 k_installed s (installed x y bad s) := by
  unfold installed
  simp -zeta -beta -eta only [mk_eq]
  repeat' first
    | ((first | lift_lets -underBinder | skip); with_reducible intro zz; first | ((first | (have _q : AngSt := zz; clear _q) | (have _q : BootSt := zz; clear _q)); dsimp -zeta only [zz]; clear zz) | (refine cut_k (Touch k_installed s zz) ?_ (fun _ => ?_); rotate_left; clear_value zz; rotate_right) | (refine cut_k (Touch2 k_installed s zz) ?_ (fun _ => ?_); rotate_left; clear_value zz; rotate_right) | clear_value zz)
    | with_reducible exact Touch.refl
    | with_reducible assumption
    | decide
    | with_reducible exact okw_BOOT_STATUS (by decide)
    | with_reducible exact okw_COMPAT (by decide)
    | with_reducible refine fset_w ?_ ?_
    | with_reducible apply Touch.then (installBanks_touch ..)
    | with_reducible apply Touch.then2 (installRegs_touch ..)
    | with_reducible apply Touch.then (installCtxs_touch ..)
    | with_reducible apply Touch.then (installNet_touch ..)
    | with_reducible refine Touch.snd ?_
    | unfold zz; try dsimp -zeta only
    | split
    | with_reducible refine touch2_mk ?_
    | exact touch_of2 rfl ‹Touch2 _ _ (_, _)›
    | refine touch_of2 (by assumption) ?_
    | with_reducible apply Touch.then (upd_ang_bootmodes ..)

theorem installRest_touch (x : SlotImg) (y : SysSec) (s : State) : Touch2 k_installRest s (installRest x y s) := by
  unfold installRest
  simp -zeta -beta -eta only [mk_eq]
  repeat' first
    | ((first | lift_lets -underBinder | skip); with_reducible intro zz; first | ((first | (have _q : BootSt := zz; clear _q)); dsimp -zeta only [zz]; clear zz) | (refine cut_k (Touch k_installRest s zz) ?_ (fun _ => ?_); rotate_left; clear_value zz; rotate_right) | (refine cut_k (Touch2 k_installRest s zz) ?_ (fun _ => ?_); rotate_left; clear_value zz; rotate_right) | clear_value zz)
    | with_reducible exact Touch.refl
    | with_reducible assumption
    | decide
    | with_reducible exact okw_BR_CTRL (by decide)
    | with_reducible refine ite_k ?_ ?_
    | with_reducible refine fput_w ?_ ?_
    | with_reducible apply Touch.then (installLanes_touch ..)
    | with_reducible apply Touch.then (installAxis_touch ..)
    | with_reducible apply Touch.then (installTune_touch ..)
    | with_reducible apply Touch.then2 (installCams_touch ..)
    | with_reducible refine eachN_k (fun _ _ _ => ?_) ?_
    | with_reducible refine Touch.snd ?_
    | unfold zz; try dsimp -zeta only
    | split
    | with_reducible refine touch2_mk ?_
    | exact touch_of2 rfl ‹Touch2 _ _ (_, _)›
    | refine touch_of2 (by assumption) ?_
    | with_reducible apply Touch.then (upd_bootimg ..)

theorem enterSix_touch (s : State) : Touch k_enterSix s (enterSix s) := by
  unfold enterSix
  repeat' first
    | ((first | lift_lets -underBinder | skip); with_reducible intro zz; first | (refine cut_k (okw k_enterSix zz) (by with_reducible first | exact okw_BOOT_STATUS (by decide) | exact okw_PAIR_STATUS (by decide) | exact okw_BOOT_TIME (by decide)) (fun _ => ?_); clear_value zz) | (refine cut_k (Touch k_enterSix s zz) ?_ (fun _ => ?_); rotate_left; clear_value zz; rotate_right) | clear_value zz)
    | with_reducible exact Touch.refl
    | with_reducible assumption
    | decide
    | with_reducible exact okw_BOOT_STATUS (by decide)
    | with_reducible exact okw_PAIR_STATUS (by decide)
    | with_reducible exact okw_BOOT_TIME (by decide)
    | with_reducible refine ite_k ?_ ?_
    | with_reducible refine fset_w ?_ ?_
    | with_reducible apply Touch.then (bootSuccess_touch ..)
    | with_reducible apply Touch.then (roleTake_touch ..)
    | with_reducible apply Touch.then (setCond_touch ..)
    | unfold zz; try dsimp -zeta only

theorem phase5_touch (x : SlotImg) (bad : BitVec 4) (s : State) : Touch k_phase5 s (phase5 x bad s) := by
  unfold phase5
  repeat' first
    | ((first | lift_lets -underBinder | skip); with_reducible intro zz; first | (refine cut_k (Touch k_phase5 s zz) ?_ (fun _ => ?_); rotate_left; clear_value zz; rotate_right) | (refine cut_k (Touch2 k_phase5 s zz) ?_ (fun _ => ?_); rotate_left; clear_value zz; rotate_right) | (refine cut_k (TouchO k_phase5 s zz) ?_ (fun _ => ?_); rotate_left; clear_value zz; rotate_right) | clear_value zz)
    | with_reducible exact Touch.refl
    | with_reducible assumption
    | decide
    | with_reducible exact touchO_none
    | with_reducible refine touchO_some ?_
    | with_reducible refine touchO_map ?_ (fun _ _ => ?_)
    | with_reducible refine touch_getD ?_ ?_
    | with_reducible refine ite_k ?_ ?_
    | with_reducible apply Touch.then2 (installRest_touch ..)
    | with_reducible apply Touch.then2 (installed_touch ..)
    | with_reducible apply Touch.then (moveLanes_touch ..)
    | with_reducible apply Touch.then (failStart_touch ..)
    | with_reducible apply Touch.thenO (evacuate_touch ..)
    | with_reducible apply Touch.then (enterSix_touch ..)
    | with_reducible apply Touch.then (cause_touch ..)
    | with_reducible refine Touch.snd ?_
    | unfold zz; try dsimp -zeta only
    | split
    | with_reducible refine touch2_mk ?_
    | exact touch_of2 rfl ‹Touch2 _ _ (_, _)›
    | refine touch_of2 (by assumption) ?_
    | exact touch_ofO rfl ‹TouchO _ _ (some _)›
    | with_reducible refine touchO_map' (fun _ => ?_)
    | refine touch_ofO (by assumption) ?_

theorem checked_touch (x : SlotImg) (bad : BitVec 4) (s : State) : Touch k_checked s (checked x bad s) := by
  unfold checked
  repeat' first
    | with_reducible exact Touch.refl
    | with_reducible assumption
    | decide
    | with_reducible apply Touch.then (loadSafety_touch ..)
    | with_reducible apply Touch.then (failStart_touch ..)
    | with_reducible apply Touch.then2 (patches_touch ..)
    | with_reducible apply Touch.then (phase5_touch ..)
    | with_reducible refine Touch.snd ?_
    | split
    | with_reducible refine touch2_mk ?_
    | exact touch_of2 rfl ‹Touch2 _ _ (_, _)›
    | refine touch_of2 (by assumption) ?_

theorem verify_touch (x : SlotImg) (bad : BitVec 4) (s : State) : Touch k_verify s (verify x bad s) := by
  unfold verify
  repeat' first
    | with_reducible exact Touch.refl
    | with_reducible assumption
    | decide
    | with_reducible exact okw_BOOT_STATUS (by decide)
    | with_reducible refine fput_w ?_ ?_
    | with_reducible apply Touch.then (failStart_touch ..)
    | with_reducible apply Touch.then (checked_touch ..)
    | split

theorem phase4_touch (bad : BitVec 4) (s : State) : Touch k_phase4 s (phase4 bad s) := by
  unfold phase4
  repeat' first
    | ((first | lift_lets -underBinder | skip); with_reducible intro zz; first | (refine cut_k (Touch k_phase4 s zz) ?_ (fun _ => ?_); rotate_left; clear_value zz; rotate_right) | clear_value zz)
    | with_reducible exact Touch.refl
    | with_reducible assumption
    | decide
    | with_reducible exact okw_BOOT_STATUS (by decide)
    | with_reducible refine fset_w ?_ ?_
    | with_reducible apply Touch.then (verify_touch ..)
    | unfold zz; try dsimp -zeta only

theorem phase3_touch (bad : BitVec 4) (s : State) : Touch k_phase3 s (phase3 bad s) := by
  unfold phase3
  repeat' first
    | ((first | lift_lets -underBinder | skip); with_reducible intro zz; first | (refine cut_k (okw k_phase3 zz) (by with_reducible first | exact okw_BOOT_STATUS (by decide) | exact okw_IMG_FMT (by decide) | exact okw_IMG_IGEN (by decide)) (fun _ => ?_); clear_value zz) | (refine cut_k (Touch k_phase3 s zz) ?_ (fun _ => ?_); rotate_left; clear_value zz; rotate_right) | clear_value zz)
    | with_reducible exact Touch.refl
    | with_reducible assumption
    | decide
    | with_reducible exact okw_BOOT_STATUS (by decide)
    | with_reducible exact okw_IMG_FMT (by decide)
    | with_reducible exact okw_IMG_IGEN (by decide)
    | with_reducible refine ite_k ?_ ?_
    | with_reducible refine fset_w ?_ ?_
    | with_reducible refine fput_w ?_ ?_
    | with_reducible refine wrN_w ?_ ?_
    | with_reducible apply Touch.then (showSlots_touch ..)
    | with_reducible apply Touch.then (toMinimal_touch ..)
    | with_reducible apply Touch.then (phase4_touch ..)
    | with_reducible refine eachN_k (fun _ _ _ => ?_) ?_
    | with_reducible apply Touch.then (cause_touch ..)
    | unfold zz; try dsimp -zeta only

theorem findLogs_touch (torn : List Nat) (s : State) : Touch k_findLogs s (findLogs torn s) := by
  unfold findLogs
  simp -zeta -beta -eta only [mk_eq]
  repeat' first
    | ((first | lift_lets -underBinder | skip); with_reducible intro zz; first | ((first | (have _q : HostSt := zz; clear _q)); dsimp -zeta only [zz]; clear zz) | (refine cut_k (Touch k_findLogs s zz) ?_ (fun _ => ?_); rotate_left; clear_value zz; rotate_right) | clear_value zz)
    | with_reducible exact Touch.refl
    | with_reducible assumption
    | decide
    | with_reducible exact okw_LOG_HEAD (by decide)
    | with_reducible exact okw_SLOG_SEQ (by decide)
    | with_reducible exact okw_LOG_NVM (by decide)
    | with_reducible refine foldl_k (fun _ _ _ => ?_) ?_
    | with_reducible refine fincSat_w ?_ ?_
    | with_reducible refine wrN_w ?_ ?_
    | with_reducible apply Touch.then (logSteward_touch ..)
    | with_reducible apply Touch.then (showSafe_touch ..)
    | with_reducible apply Touch.then (cause_touch ..)
    | unfold zz; try dsimp -zeta only
    | split
    | with_reducible apply Touch.then (upd_hostseq_hostsub ..)

theorem phase2_touch (bad : BitVec 4) (torn : List Nat) (s : State) : Touch k_phase2 s (phase2 bad torn s) := by
  unfold phase2
  repeat' first
    | ((first | lift_lets -underBinder | skip); with_reducible intro zz; first | (refine cut_k (Touch k_phase2 s zz) ?_ (fun _ => ?_); rotate_left; clear_value zz; rotate_right) | clear_value zz)
    | with_reducible exact Touch.refl
    | with_reducible assumption
    | decide
    | with_reducible exact okw_BOOT_STATUS (by decide)
    | with_reducible exact okw_PORT_CTRL (by decide)
    | with_reducible refine foldl_k (fun _ _ _ => ?_) ?_
    | with_reducible refine ite_k ?_ ?_
    | with_reducible refine fset_w ?_ ?_
    | with_reducible refine fput_w ?_ ?_
    | with_reducible apply Touch.then (toMinimal_touch ..)
    | with_reducible apply Touch.then (findLogs_touch ..)
    | with_reducible apply Touch.then (phase3_touch ..)
    | with_reducible refine eachN_k (fun _ _ _ => ?_) ?_
    | unfold zz; try dsimp -zeta only
    | split

theorem execStartUp_touch (prog : Option Flash) (bad : BitVec 4) (torn : List Nat) (s : State) : TouchX k_execStartUp s (execStartUp prog bad torn s) := by
  unfold execStartUp
  simp -zeta -beta -eta only [mk_eq]
  repeat' first
    | ((first | lift_lets -underBinder | skip); with_reducible intro zz; first | ((first | (have _q : BootSt := zz; clear _q)); dsimp -zeta only [zz]; clear zz) | (refine cut_k (Touch k_execStartUp s zz) ?_ (fun _ => ?_); rotate_left; clear_value zz; rotate_right) | clear_value zz)
    | with_reducible exact Touch.refl
    | with_reducible assumption
    | decide
    | with_reducible exact okw_BOOT_STATUS (by decide)
    | with_reducible refine touchX_next ?_
    | with_reducible refine ite_k ?_ ?_
    | with_reducible refine fincSat_w ?_ ?_
    | with_reducible refine fset_w ?_ ?_
    | with_reducible apply Touch.then (phase2_touch ..)
    | unfold zz; try dsimp -zeta only
    | split
    | with_reducible apply Touch.then (upd_bootflash ..)
    | with_reducible apply Touch.then (upd_bootftmWait ..)

theorem execJtagUnlock_touch (s : State) : TouchX k_execJtagUnlock s (execJtagUnlock s) := by
  unfold execJtagUnlock
  simp -zeta -beta -eta only [mk_eq]
  repeat' first
    | ((first | lift_lets -underBinder | skip); with_reducible intro zz; first | ((first | (have _q : BootSt := zz; clear _q)); dsimp -zeta only [zz]; clear zz) | (refine cut_k (Touch k_execJtagUnlock s zz) ?_ (fun _ => ?_); rotate_left; clear_value zz; rotate_right) | clear_value zz)
    | with_reducible exact Touch.refl
    | with_reducible assumption
    | decide
    | with_reducible exact okw_TEST_STATUS (by decide)
    | with_reducible refine touchX_next ?_
    | with_reducible refine fput_w ?_ ?_
    | with_reducible apply Touch.then (setCond_touch ..)
    | with_reducible apply Touch.then (phase2_touch ..)
    | unfold zz; try dsimp -zeta only
    | split
    | with_reducible apply Touch.then (upd_bootftmWait ..)

theorem execFtmWaitTimeout_touch (s : State) : TouchX k_execFtmWaitTimeout s (execFtmWaitTimeout s) := by
  unfold execFtmWaitTimeout
  simp -zeta -beta -eta only [mk_eq]
  repeat' first
    | ((first | lift_lets -underBinder | skip); with_reducible intro zz; first | ((first | (have _q : BootSt := zz; clear _q)); dsimp -zeta only [zz]; clear zz) | (refine cut_k (Touch k_execFtmWaitTimeout s zz) ?_ (fun _ => ?_); rotate_left; clear_value zz; rotate_right) | clear_value zz)
    | with_reducible exact Touch.refl
    | with_reducible assumption
    | decide
    | with_reducible refine touchX_next ?_
    | with_reducible refine ite_k ?_ ?_
    | with_reducible apply Touch.then (minimalMode_touch ..)
    | with_reducible apply Touch.then (upd_bootftmWait ..)

theorem execNodeWaitExpiry_touch (s : State) : TouchX k_execNodeWaitExpiry s (execNodeWaitExpiry s) := by
  unfold execNodeWaitExpiry
  repeat' first
    | with_reducible exact Touch.refl
    | with_reducible assumption
    | decide
    | with_reducible refine touchX_next ?_
    | with_reducible refine ite_k ?_ ?_
    | with_reducible apply Touch.then (startSeg_touch ..)
    | with_reducible refine eachN_k (fun _ _ _ => ?_) ?_

theorem execLinksTimeout_touch (g : Bool) (s : State) : TouchX k_execLinksTimeout s (execLinksTimeout g s) := by
  unfold execLinksTimeout
  repeat' first
    | ((first | lift_lets -underBinder | skip); with_reducible intro zz; first | (refine cut_k (Touch k_execLinksTimeout s zz) ?_ (fun _ => ?_); rotate_left; clear_value zz; rotate_right) | clear_value zz)
    | with_reducible exact Touch.refl
    | with_reducible assumption
    | decide
    | with_reducible refine touchX_next ?_
    | with_reducible refine ite_k ?_ ?_
    | with_reducible apply Touch.then (linksTimeout_touch ..)
    | with_reducible apply Touch.then (failStart_touch ..)
    | unfold zz; try dsimp -zeta only

end Sys2Proof.Laws
end

