-- ==== Sys2Proof/Laws/TouchHostPort.lean ====
section
/-! SUPPORT. What each operation of Machine/HostPort.lean can touch: one lemma per operation, by footprint (Laws/Touch.lean). -/

set_option linter.unusedTactic false
set_option linter.unreachableTactic false
set_option linter.unusedSimpArgs false
set_option linter.unusedVariables false

namespace Sys2Proof.Laws
open Sys2Proof Sys2Proof.Machine R

/-! Footprints. -/
def k_modSess : Nat := 0x20000000000000000000000000000000
def k_setExp : Nat := 0x30000000000000000000000000000000
def k_postMsg : Nat := 0x400030000000000000000000000000000000
def k_answerOnly : Nat := 0x400030000000000000000000000000000000
def k_answer : Nat := 0x400030000000000000000000000000000000
def k_discardMsg : Nat := 0x28002000000000000000000000000000000000000000000000000000000000000000000400030000000000000000000000000000000
def k_abortImg : Nat := 0x30000000000000000000000000000000000000000000000000000000000f00000000002e40000800000c000000000000000000000
def k_endSession : Nat := 0x34140101000000000000000000000000000000000000000000000000000f00000000002e42000c30000c000000000000000000000
def k_resetPort : Nat := 0x34140101000000000000000000000000000000000000000000000000000f00000000042e7b800c30000c000000000000000000000
def k_runHello : Nat := 0x1000000000000000000000000000000000000000000000000000000000000000000400030000000000000000000000000000000
def k_addSession : Nat := 0x30100000000000000000000000000000000000000000000000000000000800000000000e46000000000c000000000000000000000
def k_wrongPassword : Nat := 0x30040141000000000000000000000000000000000000000000000000000800000000000e40000580000c000000000000000000000
def k_runOpen : Nat := 0x30140141000000000000000000000000000000000000000000000000000800000000000e460005a0000c000000000000000000000
def k_readRange : Nat := 0x40000000000000000000000000000000000000000000000000000000000000000000000400080000000000000000000000000000000
def k_runRead : Nat := 0x40000000000000000000000000000000000000000000000000000000000000000000000400080000000000000000000000000000000
def k_writeRange : Nat := 0x76d3414012500200010404422b4d0c200b4c18c13c0000c73000000040011ef0e00000007fffffffffffffffffffffffffffffffffff
def k_runWrite : Nat := 0x76d3414012500200010404422b4d0c200b4c18c13c0000c73000000040011ef0e00000007fffffffffffffffffffffffffffffffffff
def k_runImgBegin : Nat := 0x7000000000020000008000000000000000000000000000
def k_runImgData : Nat := 0x1000000000020000000000000000000000000000000000
def k_runImgEnd : Nat := 0x8000000000000000000000000000000
def k_runSubscribe : Nat := 0x20000000000000000000000000000000
def k_runReq : Nat := 0x76d3414016500200010404422b4d0c200b4c18c13c0000c73000000040011ef0e00000007fffffffffffffffffffffffffffffffffff
def k_runOne : Nat := 0x76d3414016500200010404422b4d0c200b4c18c13c0000c73000000040011ef0e00000007fffffffffffffffffffffffffffffffffff
def k_drainPort : Nat := 0x76d3414016500200010404422b4d0c200b4c18c13c0000c73000000040011ef0e00000007fffffffffffffffffffffffffffffffffff
def k_releaseWait : Nat := 0x76d3414016500200010404422b4d0c200b4c18c13c0000c73000000040011ef0e00000007fffffffffffffffffffffffffffffffffff
def k_releaseEnd : Nat := 0x76d3414016500200010404422b4d0c200b4c18c13c0000c73000000040011ef0e00000007fffffffffffffffffffffffffffffffffff
def k_settlePorts : Nat := 0x76d3414016500200010404422b4d0c200b4c18c13c0000c73000000040011ef0e00000007fffffffffffffffffffffffffffffffffff
def k_takeReq : Nat := 0x76d3434016500200010404422b4d0c200b4c18c13c0000c73000000040011ef0e00000007fffffffffffffffffffffffffffffffffff
def k_hspReceive : Nat := 0x76d3474016500200010404422b4d0c200b4c18c13c0000c73000000040011ef0e00000007fffffffffffffffffffffffffffffffffff
def k_execHello : Nat := 0x76d3474016500200010404422b4d0c200b4c18c13c0000c73000000040011ef0e00000007fffffffffffffffffffffffffffffffffff
def k_execHspOpen : Nat := 0x76d3474016500200010404422b4d0c200b4c18c13c0000c73000000040011ef0e00000007fffffffffffffffffffffffffffffffffff
def k_execClose : Nat := 0x76d3474016500200010404422b4d0c200b4c18c13c0000c73000000040011ef0e00000007fffffffffffffffffffffffffffffffffff
def k_execRead : Nat := 0x76d3474016500200010404422b4d0c200b4c18c13c0000c73000000040011ef0e00000007fffffffffffffffffffffffffffffffffff
def k_execWrite : Nat := 0x76d3474016500200010404422b4d0c200b4c18c13c0000c73000000040011ef0e00000007fffffffffffffffffffffffffffffffffff
def k_execLogRead : Nat := 0x76d3474016500200010404422b4d0c200b4c18c13c0000c73000000040011ef0e00000007fffffffffffffffffffffffffffffffffff
def k_execImgBegin : Nat := 0x76d3474016500200010404422b4d0c200b4c18c13c0000c73000000040011ef0e00000007fffffffffffffffffffffffffffffffffff
def k_execImgData : Nat := 0x76d3474016500200010404422b4d0c200b4c18c13c0000c73000000040011ef0e00000007fffffffffffffffffffffffffffffffffff
def k_execImgEnd : Nat := 0x76d3474016500200010404422b4d0c200b4c18c13c0000c73000000040011ef0e00000007fffffffffffffffffffffffffffffffffff
def k_execSubscribe : Nat := 0x76d3474016500200010404422b4d0c200b4c18c13c0000c73000000040011ef0e00000007fffffffffffffffffffffffffffffffffff
def k_execImgJobDone : Nat := 0x76d3414016500200010404422b4d0c200b4c18c13c0000c73000000040011ef0e00000007fffffffffffffffffffffffffffffffffff
def k_execImgDataTimeout : Nat := 0x30000000000000000000000000000000000000000000000000000000000f00000000002e40000800000c000000000000000000000
def k_execMirrorAckRx : Nat := 0x76d3414016558200010404422b4d0c200b4c18c13c0000c73000000040011ef0e00000007fffffffffffffffffffffffffffffffffff
def k_execSpiStatus : Nat := 0x440000000000000000000000000000000000
def k_execSpiPut : Nat := 0x76d3474016500200010404422b4d0c200b4c18c13c0000c73000000040011ef0e00000007fffffffffffffffffffffffffffffffffff
def k_execSpiGet : Nat := 0x440030000000000000000000000000000000
def k_execSpiReset : Nat := 0x34140101000000000000000000000000000000000000000000000000000f00000000042e7b800c30000c000000000000000000000
def k_execHrstN : Nat := 0x34140101000000000000000000000000000000000000000000000000000f00000000042e7b800c30000c000000000000000000000
def k_execPortResetFrame : Nat := 0x34140101000000000000000000000000000000000000000000000000000f00000000042e7b800c30000c000000000000000000000
def k_execArpRequest : Nat := 0x80000000000000000000000000000000000
def k_execIcmpEcho : Nat := 0x480000000000000000000000000000000000
def k_execRgmiiInBandStatus : Nat := 0x100000000000000000000000000000000000

theorem modSess_touch (num : Nat) (f : Session → Session) (s : State) : Touch k_modSess s (modSess num f s) := by
  unfold modSess
  simp -zeta -beta -eta only [mk_eq]
  repeat' first
    | ((first | lift_lets -underBinder | skip); with_reducible intro zz; first | ((first | (have _q : HostSt := zz; clear _q)); dsimp -zeta only [zz]; clear zz) | (refine cut_k (Touch k_modSess s zz) ?_ (fun _ => ?_); rotate_left; clear_value zz; rotate_right) | clear_value zz)
    | with_reducible exact Touch.refl
    | with_reducible assumption
    | decide
    | with_reducible refine ite_k ?_ ?_
    | with_reducible apply Touch.then (upd_hostsessions ..)

theorem setExp_touch (p : Nat) (sess : Nat) (e : Nat) (s : State) : Touch k_setExp s (setExp p sess e s) := by
  unfold setExp
  repeat' first
    | with_reducible exact Touch.refl
    | with_reducible assumption
    | decide
    | with_reducible refine ite_k ?_ ?_
    | with_reducible apply Touch.then (State_setHport_touch ..)
    | with_reducible apply Touch.then (modSess_touch ..)

theorem postMsg_touch (p : Nat) (m : List (BitVec 8)) (s : State) : Touch k_postMsg s (postMsg p m s) := by
  unfold postMsg
  repeat' first
    | with_reducible exact Touch.refl
    | with_reducible assumption
    | decide
    | with_reducible refine withLine_k ?_ (fun _ _ => ?_) ?_
    | with_reducible apply Touch.then (sendMsg_touch ..)

theorem answerOnly_touch (p : Nat) (r : Req) (status : Nat) (pay : List (BitVec 8)) (s : State) : Touch k_answerOnly s (answerOnly p r status pay s) := by
  unfold answerOnly
  repeat' first
    | with_reducible exact Touch.refl
    | with_reducible assumption
    | decide
    | with_reducible apply Touch.then (postMsg_touch ..)

theorem answer_touch (p : Nat) (r : Req) (msg : List (BitVec 8)) (s : State) : Touch k_answer s (answer p r msg s) := by
  unfold answer
  repeat' first
    | ((first | lift_lets -underBinder | skip); with_reducible intro zz; first | (refine cut_k (Touch k_answer s zz) ?_ (fun _ => ?_); rotate_left; clear_value zz; rotate_right) | clear_value zz)
    | with_reducible exact Touch.refl
    | with_reducible assumption
    | decide
    | with_reducible apply Touch.then (State_setHport_touch ..)
    | with_reducible apply Touch.then (postMsg_touch ..)
    | with_reducible apply Touch.then (setExp_touch ..)
    | unfold zz; try dsimp -zeta only

theorem discardMsg_touch (p : Nat) (f : Fld) (s : State) : Touch k_discardMsg s (discardMsg p f s) := by
  unfold discardMsg
  repeat' first
    | ((first | lift_lets -underBinder | skip); with_reducible intro zz; first | (refine cut_k (Touch k_discardMsg s zz) ?_ (fun _ => ?_); rotate_left; clear_value zz; rotate_right) | (refine cut_k (Touch2 k_discardMsg s zz) ?_ (fun _ => ?_); rotate_left; clear_value zz; rotate_right) | clear_value zz)
    | with_reducible exact Touch.refl
    | with_reducible assumption
    | decide
    | with_reducible exact okw_HOST_ERR (by decide)
    | with_reducible refine fincWrap_w ?_ ?_
    | with_reducible apply Touch.then (sediment_touch ..)
    | with_reducible apply Touch.then2 (takeFree_touch ..)
    | with_reducible refine Touch.snd ?_
    | unfold zz; try dsimp -zeta only
    | split
    | with_reducible refine touch2_mk ?_
    | exact touch_of2 rfl ‹Touch2 _ _ (_, _)›
    | refine touch_of2 (by assumption) ?_

theorem abortImg_touch (s : State) : Touch k_abortImg s (abortImg s) := by
  unfold abortImg
  simp -zeta -beta -eta only [mk_eq]
  repeat' first
    | ((first | lift_lets -underBinder | skip); with_reducible intro zz; first | ((first | (have _q : HostSt := zz; clear _q)); dsimp -zeta only [zz]; clear zz) | (refine cut_k (Touch k_abortImg s zz) ?_ (fun _ => ?_); rotate_left; clear_value zz; rotate_right) | clear_value zz)
    | with_reducible exact Touch.refl
    | with_reducible assumption
    | decide
    | with_reducible refine ite_k ?_ ?_
    | with_reducible apply Touch.then (logSteward_touch ..)
    | with_reducible apply Touch.then (showSlots_touch ..)
    | with_reducible apply Touch.then (tearJob_touch ..)
    | with_reducible apply Touch.then (endJob_touch ..)
    | with_reducible apply Touch.then (upd_hostimg ..)

theorem endSession_touch (num : Nat) (s : State) : Touch k_endSession s (endSession num s) := by
  unfold endSession
  repeat' first
    | ((first | lift_lets -underBinder | skip); with_reducible intro zz; first | (refine cut_k (Touch k_endSession s zz) ?_ (fun _ => ?_); rotate_left; clear_value zz; rotate_right) | clear_value zz)
    | with_reducible exact Touch.refl
    | with_reducible assumption
    | decide
    | with_reducible refine ite_k ?_ ?_
    | with_reducible apply Touch.then (dropSession_touch ..)
    | with_reducible apply Touch.then (closeSafety_touch ..)
    | with_reducible apply Touch.then (abortImg_touch ..)
    | unfold zz; try dsimp -zeta only
    | split

theorem resetPort_touch (p : Nat) (s : State) : Touch k_resetPort s (resetPort p s) := by
  unfold resetPort
  simp -zeta -beta -eta only [mk_eq]
  repeat' first
    | ((first | lift_lets -underBinder | skip); with_reducible intro zz; first | ((first | (have _q : BootSt := zz; clear _q) | (have _q : HostSt := zz; clear _q)); dsimp -zeta only [zz]; clear zz) | (refine cut_k (okw k_resetPort zz) (by with_reducible first | exact okw_HOST_STATUS (by decide)) (fun _ => ?_); clear_value zz) | (refine cut_k (Touch k_resetPort s zz) ?_ (fun _ => ?_); rotate_left; clear_value zz; rotate_right) | clear_value zz)
    | with_reducible exact Touch.refl
    | with_reducible assumption
    | decide
    | with_reducible exact okw_HOST_STATUS (by decide)
    | with_reducible refine foldl_k (fun _ _ _ => ?_) ?_
    | with_reducible refine ite_k ?_ ?_
    | with_reducible refine fset_w ?_ ?_
    | with_reducible refine fput_w ?_ ?_
    | with_reducible apply Touch.then (State_setHport_touch ..)
    | with_reducible apply Touch.then (logSession_touch ..)
    | with_reducible apply Touch.then (endSession_touch ..)
    | with_reducible refine withLine_k ?_ (fun _ _ => ?_) ?_
    | unfold zz; try dsimp -zeta only
    | split
    | with_reducible apply Touch.then (upd_bootended ..)
    | with_reducible apply Touch.then (upd_hostinsReg_hostlatch_hoststaged ..)

theorem runHello_touch (h : HspHdr) (p : Nat) (r : Req) (s : State) : Touch k_runHello s (runHello h p r s) := by
  unfold runHello
  repeat' first
    | ((first | lift_lets -underBinder | skip); with_reducible intro zz; first | (refine cut_k (okw k_runHello zz) (by with_reducible first | exact okw_HOST_STATUS (by decide)) (fun _ => ?_); clear_value zz) | (refine cut_k (Touch k_runHello s zz) ?_ (fun _ => ?_); rotate_left; clear_value zz; rotate_right) | (refine cut_k (Touch2 k_runHello s zz) ?_ (fun _ => ?_); rotate_left; clear_value zz; rotate_right) | clear_value zz)
    | with_reducible exact Touch.refl
    | with_reducible assumption
    | decide
    | with_reducible exact okw_HOST_STATUS (by decide)
    | with_reducible refine ite_k ?_ ?_
    | with_reducible refine fset_w ?_ ?_
    | with_reducible refine fput_w ?_ ?_
    | with_reducible apply Touch.then (State_setHport_touch ..)
    | with_reducible apply Touch.then (answerOnly_touch ..)
    | with_reducible apply Touch.then2 (takeFree_touch ..)
    | with_reducible apply Touch.then (postMsg_touch ..)
    | with_reducible apply Touch.then (setExp_touch ..)
    | with_reducible refine Touch.snd ?_
    | unfold zz; try dsimp -zeta only
    | split
    | with_reducible refine touch2_mk ?_
    | exact touch_of2 rfl ‹Touch2 _ _ (_, _)›
    | refine touch_of2 (by assumption) ?_

theorem addSession_touch (p : Nat) (role : Nat) (exp : Nat) (s : State) : Touch2 k_addSession s (addSession p role exp s) := by
  unfold addSession
  simp -zeta -beta -eta only [mk_eq]
  repeat' first
    | ((first | lift_lets -underBinder | skip); with_reducible intro zz; first | ((first | (have _q : HostSt := zz; clear _q)); dsimp -zeta only [zz]; clear zz) | (refine cut_k (Touch k_addSession s zz) ?_ (fun _ => ?_); rotate_left; clear_value zz; rotate_right) | (refine cut_k (Touch2 k_addSession s zz) ?_ (fun _ => ?_); rotate_left; clear_value zz; rotate_right) | clear_value zz)
    | with_reducible exact Touch.refl
    | with_reducible assumption
    | decide
    | with_reducible apply Touch.then (showSessions_touch ..)
    | with_reducible apply Touch.then (logSession_touch ..)
    | with_reducible refine Touch.snd ?_
    | unfold zz; try dsimp -zeta only
    | with_reducible refine touch2_mk ?_
    | exact touch_of2 rfl ‹Touch2 _ _ (_, _)›
    | refine touch_of2 (by assumption) ?_
    | with_reducible apply Touch.then (upd_hostlastSess_hostsessions ..)

theorem wrongPassword_touch (p : Nat) (s : State) : Touch k_wrongPassword s (wrongPassword p s) := by
  unfold wrongPassword
  have h1 : Touch k_wrongPassword s (fincWrap (safeLog (portOf p) 0 0xFFFFFFFD 0 0 2 (rd s SAFE_SIG) s) SAFE_PWCNT SAFE_PWCNT_FAILS) :=
    fincWrap_w (Touch.then (safeLog_touch ..) (by decide) Touch.refl) (okw_SAFE_PWCNT (by decide))
  generalize fincWrap (safeLog (portOf p) 0 0xFFFFFFFD 0 0 2 (rd s SAFE_SIG) s) SAFE_PWCNT SAFE_PWCNT_FAILS = t at *
  have h2 : Touch k_wrongPassword s { t with safe.fails := t.safe.fails + 1 } := Touch.then upd_safefails (by decide) h1
  exact ite_k (fput_w (Touch.then upd_safefails_safelockEnd (by decide) h2) (okw_SAFE_STATUS (by decide))) h2

theorem runOpen_touch (p : Nat) (r : Req) (s : State) : Touch2 k_runOpen s (runOpen p r s) := by
  unfold runOpen
  simp -zeta -beta -eta only [mk_eq]
  repeat' first
    | ((first | lift_lets -underBinder | skip); with_reducible intro zz; first | ((first | (have _q : SafetySt := zz; clear _q)); dsimp -zeta only [zz]; clear zz) | (refine cut_k (Touch k_runOpen s zz) ?_ (fun _ => ?_); rotate_left; clear_value zz; rotate_right) | (refine cut_k (Touch2 k_runOpen s zz) ?_ (fun _ => ?_); rotate_left; clear_value zz; rotate_right) | clear_value zz)
    | with_reducible exact Touch.refl
    | with_reducible assumption
    | decide
    | with_reducible exact okw_SAFE_STATUS (by decide)
    | with_reducible refine ite_k ?_ ?_
    | with_reducible refine fput_w ?_ ?_
    | with_reducible apply Touch.then (wrongPassword_touch ..)
    | with_reducible apply Touch.then2 (addSession_touch ..)
    | with_reducible apply Touch.then (safeLog_touch ..)
    | with_reducible refine Touch.snd ?_
    | unfold zz; try dsimp -zeta only
    | split
    | with_reducible refine touch2_mk ?_
    | exact touch_of2 rfl ‹Touch2 _ _ (_, _)›
    | refine touch_of2 (by assumption) ?_
    | with_reducible apply Touch.then (upd_safefails_safesess ..)

theorem readRange_touch (w : Who) (b0 b1 : Nat) (b2 : State) : Touch2 k_readRange b2 (readRange w b0 b1 b2) := by
  induction b0 generalizing b1 b2 with
  | zero => exact Touch.refl
  | succ f ih => exact Touch.then (ih ..) (by decide) (Touch.then (readWord_touch ..) (by decide) Touch.refl)

theorem runRead_touch (p : Nat) (r : Req) (s : State) : Touch2 k_runRead s (runRead p r s) := by
  unfold runRead
  repeat' first
    | ((first | lift_lets -underBinder | skip); with_reducible intro zz; first | (refine cut_k (Touch k_runRead s zz) ?_ (fun _ => ?_); rotate_left; clear_value zz; rotate_right) | (refine cut_k (Touch2 k_runRead s zz) ?_ (fun _ => ?_); rotate_left; clear_value zz; rotate_right) | clear_value zz)
    | with_reducible exact Touch.refl
    | with_reducible assumption
    | decide
    | with_reducible refine ite_k ?_ ?_
    | with_reducible apply Touch.then2 (readRange_touch ..)
    | with_reducible refine Touch.snd ?_
    | unfold zz; try dsimp -zeta only
    | split
    | with_reducible refine touch2_mk ?_
    | exact touch_of2 rfl ‹Touch2 _ _ (_, _)›
    | refine touch_of2 (by assumption) ?_

theorem writeRange_touch (w : Who) (b0 : List Word) (b1 : Nat) (b2 : State) : Touch2 k_writeRange b2 (writeRange w b0 b1 b2) := by
  induction b0 generalizing b1 b2 with
  | nil => exact Touch.refl
  | cons v vs ih =>
    unfold writeRange
    dsimp only
    have h : Touch k_writeRange b2 (writeReg w b1 v b2) := Touch.then (writeReg_touch ..) (by decide) Touch.refl
    exact ite_k (P := Touch2 k_writeRange b2) h (Touch.then (ih ..) (by decide) h)

theorem runWrite_touch (p : Nat) (r : Req) (s : State) : Touch2 k_runWrite s (runWrite p r s) := by
  unfold runWrite
  repeat' first
    | ((first | lift_lets -underBinder | skip); with_reducible intro zz; first | (refine cut_k (Touch k_runWrite s zz) ?_ (fun _ => ?_); rotate_left; clear_value zz; rotate_right) | (refine cut_k (Touch2 k_runWrite s zz) ?_ (fun _ => ?_); rotate_left; clear_value zz; rotate_right) | clear_value zz)
    | with_reducible exact Touch.refl
    | with_reducible assumption
    | decide
    | with_reducible refine ite_k ?_ ?_
    | with_reducible apply Touch.then (State_setHport_touch ..)
    | with_reducible apply Touch.then2 (writeRange_touch ..)
    | with_reducible refine Touch.snd ?_
    | unfold zz; try dsimp -zeta only
    | split
    | with_reducible refine touch2_mk ?_
    | exact touch_of2 rfl ‹Touch2 _ _ (_, _)›
    | refine touch_of2 (by assumption) ?_

theorem runImgBegin_touch (p : Nat) (r : Req) (s : State) : Touch2 k_runImgBegin s (runImgBegin p r s) := by
  unfold runImgBegin
  simp -zeta -beta -eta only [mk_eq]
  repeat' first
    | ((first | lift_lets -underBinder | skip); with_reducible intro zz; first | ((first | (have _q : HostSt := zz; clear _q)); dsimp -zeta only [zz]; clear zz) | (refine cut_k (Touch k_runImgBegin s zz) ?_ (fun _ => ?_); rotate_left; clear_value zz; rotate_right) | (refine cut_k (Touch2 k_runImgBegin s zz) ?_ (fun _ => ?_); rotate_left; clear_value zz; rotate_right) | clear_value zz)
    | with_reducible exact Touch.refl
    | with_reducible assumption
    | decide
    | with_reducible exact okw_IMG_JOB (by decide)
    | with_reducible refine ite_k ?_ ?_
    | with_reducible refine fset_w ?_ ?_
    | with_reducible apply Touch.then (showSlots_touch ..)
    | with_reducible apply Touch.then (startJob_touch ..)
    | with_reducible apply Touch.then (setSlot_touch ..)
    | with_reducible refine Touch.snd ?_
    | unfold zz; try dsimp -zeta only
    | split
    | with_reducible refine touch2_mk ?_
    | exact touch_of2 rfl ‹Touch2 _ _ (_, _)›
    | refine touch_of2 (by assumption) ?_
    | with_reducible apply Touch.then (upd_hostimg ..)

theorem runImgData_touch (p : Nat) (r : Req) (s : State) : Touch2 k_runImgData s (runImgData p r s) := by
  unfold runImgData
  simp -zeta -beta -eta only [mk_eq]
  repeat' first
    | ((first | lift_lets -underBinder | skip); with_reducible intro zz; first | ((first | (have _q : HostSt := zz; clear _q)); dsimp -zeta only [zz]; clear zz) | (refine cut_k (Touch k_runImgData s zz) ?_ (fun _ => ?_); rotate_left; clear_value zz; rotate_right) | (refine cut_k (Touch2 k_runImgData s zz) ?_ (fun _ => ?_); rotate_left; clear_value zz; rotate_right) | clear_value zz)
    | with_reducible exact Touch.refl
    | with_reducible assumption
    | decide
    | with_reducible exact okw_IMG_JOB (by decide)
    | with_reducible refine ite_k ?_ ?_
    | with_reducible refine fset_w ?_ ?_
    | with_reducible refine Touch.snd ?_
    | unfold zz; try dsimp -zeta only
    | split
    | with_reducible refine touch2_mk ?_
    | exact touch_of2 rfl ‹Touch2 _ _ (_, _)›
    | refine touch_of2 (by assumption) ?_
    | with_reducible apply Touch.then (upd_hostimg ..)

theorem runImgEnd_touch (p : Nat) (r : Req) (s : State) : Touch2 k_runImgEnd s (runImgEnd p r s) := by
  unfold runImgEnd
  simp -zeta -beta -eta only [mk_eq]
  repeat' first
    | ((first | lift_lets -underBinder | skip); with_reducible intro zz; first | ((first | (have _q : BootSt := zz; clear _q)); dsimp -zeta only [zz]; clear zz) | (refine cut_k (Touch k_runImgEnd s zz) ?_ (fun _ => ?_); rotate_left; clear_value zz; rotate_right) | (refine cut_k (Touch2 k_runImgEnd s zz) ?_ (fun _ => ?_); rotate_left; clear_value zz; rotate_right) | clear_value zz)
    | with_reducible exact Touch.refl
    | with_reducible assumption
    | decide
    | with_reducible refine ite_k ?_ ?_
    | with_reducible refine Touch.snd ?_
    | split
    | with_reducible refine touch2_mk ?_
    | exact touch_of2 rfl ‹Touch2 _ _ (_, _)›
    | refine touch_of2 (by assumption) ?_
    | with_reducible apply Touch.then (upd_bootended ..)

theorem runSubscribe_touch (r : Req) (s : State) : Touch2 k_runSubscribe s (runSubscribe r s) := by
  unfold runSubscribe
  repeat' first
    | with_reducible exact Touch.refl
    | with_reducible assumption
    | decide
    | with_reducible refine ite_k ?_ ?_
    | with_reducible apply Touch.then (modSess_touch ..)
    | with_reducible refine Touch.snd ?_
    | with_reducible refine touch2_mk ?_
    | exact touch_of2 rfl ‹Touch2 _ _ (_, _)›
    | refine touch_of2 (by assumption) ?_

theorem runReq_touch (p : Nat) (r : Req) (s : State) : Touch2 k_runReq s (runReq p r s) := by
  unfold runReq
  repeat' first
    | with_reducible exact Touch.refl
    | with_reducible assumption
    | decide
    | with_reducible refine ite_k ?_ ?_
    | with_reducible apply Touch.then2 (runSubscribe_touch ..)
    | with_reducible apply Touch.then2 (runImgBegin_touch ..)
    | with_reducible apply Touch.then2 (runImgData_touch ..)
    | with_reducible apply Touch.then2 (runImgEnd_touch ..)
    | with_reducible apply Touch.then2 (runWrite_touch ..)
    | with_reducible apply Touch.then2 (runRead_touch ..)
    | with_reducible apply Touch.then2 (runOpen_touch ..)
    | with_reducible refine Touch.snd ?_
    | split
    | with_reducible refine touch2_mk ?_
    | exact touch_of2 rfl ‹Touch2 _ _ (_, _)›
    | refine touch_of2 (by assumption) ?_

theorem runOne_touch (p : Nat) (r : Req) (s : State) : Touch k_runOne s (runOne p r s) := by
  unfold runOne
  repeat' first
    | ((first | lift_lets -underBinder | skip); with_reducible intro zz; first | (refine cut_k (Touch k_runOne s zz) ?_ (fun _ => ?_); rotate_left; clear_value zz; rotate_right) | (refine cut_k (Touch2 k_runOne s zz) ?_ (fun _ => ?_); rotate_left; clear_value zz; rotate_right) | clear_value zz)
    | with_reducible exact Touch.refl
    | with_reducible assumption
    | decide
    | with_reducible refine ite_k ?_ ?_
    | with_reducible apply Touch.then (State_setHport_touch ..)
    | with_reducible apply Touch.then (answerOnly_touch ..)
    | with_reducible apply Touch.then (endSession_touch ..)
    | with_reducible apply Touch.then (answer_touch ..)
    | with_reducible apply Touch.then2 (runReq_touch ..)
    | with_reducible refine Touch.snd ?_
    | unfold zz; try dsimp -zeta only
    | split
    | with_reducible refine touch2_mk ?_
    | exact touch_of2 rfl ‹Touch2 _ _ (_, _)›
    | refine touch_of2 (by assumption) ?_

theorem drainPort_touch (p : Nat) (b0 : Nat) (b1 : State) : Touch k_drainPort b1 (drainPort p b0 b1) := by
  induction b0 generalizing b1 with
  | zero => unfold drainPort; exact Touch.refl
  | succ f ih =>
    unfold drainPort
    refine ite_k Touch.refl ?_
    dsimp only
    split
    · exact Touch.then (ih ..) (by decide) (Touch.then (runOne_touch ..) (by decide) (Touch.then (State_setHport_touch ..) (by decide) Touch.refl))
    · exact Touch.refl

theorem releaseWait_touch (p : Nat) (s : State) : Touch k_releaseWait s (releaseWait p s) := by
  unfold releaseWait
  repeat' first
    | with_reducible exact Touch.refl
    | with_reducible assumption
    | decide
    | with_reducible refine ite_k ?_ ?_
    | with_reducible apply Touch.then (State_setHport_touch ..)
    | with_reducible apply Touch.then (drainPort_touch ..)
    | with_reducible apply Touch.then (answer_touch ..)
    | split

theorem releaseEnd_touch (s : State) : Touch k_releaseEnd s (releaseEnd s) := by
  unfold releaseEnd
  simp -zeta -beta -eta only [mk_eq]
  repeat' first
    | ((first | lift_lets -underBinder | skip); with_reducible intro zz; first | ((first | (have _q : BootSt := zz; clear _q)); dsimp -zeta only [zz]; clear zz) | (refine cut_k (Touch k_releaseEnd s zz) ?_ (fun _ => ?_); rotate_left; clear_value zz; rotate_right) | clear_value zz)
    | with_reducible exact Touch.refl
    | with_reducible assumption
    | decide
    | with_reducible refine ite_k ?_ ?_
    | with_reducible apply Touch.then (drainPort_touch ..)
    | with_reducible apply Touch.then (answer_touch ..)
    | unfold zz; try dsimp -zeta only
    | split
    | with_reducible apply Touch.then (upd_bootended ..)

theorem settlePorts_touch (s : State) : Touch k_settlePorts s (settlePorts s) := by
  unfold settlePorts
  repeat' first
    | with_reducible exact Touch.refl
    | with_reducible assumption
    | decide
    | with_reducible apply Touch.then (releaseWait_touch ..)
    | with_reducible apply Touch.then (releaseEnd_touch ..)

theorem takeReq_touch (h : HspHdr) (p : Nat) (op : Nat) (pay : List (BitVec 8)) (s : State) : Touch k_takeReq s (takeReq h p op pay s) := by
  unfold takeReq
  repeat' first
    | ((first | lift_lets -underBinder | skip); with_reducible intro zz; first | (refine cut_k (Touch k_takeReq s zz) ?_ (fun _ => ?_); rotate_left; clear_value zz; rotate_right) | clear_value zz)
    | with_reducible exact Touch.refl
    | with_reducible assumption
    | decide
    | with_reducible exact okw_HOST_ERR (by decide)
    | with_reducible refine ite_k ?_ ?_
    | with_reducible refine fincWrap_w ?_ ?_
    | with_reducible apply Touch.then (State_setHport_touch ..)
    | with_reducible apply Touch.then (answerOnly_touch ..)
    | with_reducible apply Touch.then (discardMsg_touch ..)
    | with_reducible apply Touch.then (drainPort_touch ..)
    | with_reducible apply Touch.then (runHello_touch ..)
    | with_reducible apply Touch.then (postMsg_touch ..)
    | unfold zz; try dsimp -zeta only
    | split

theorem hspReceive_touch (h : HspHdr) (op : Nat) (pay : List (BitVec 8)) (s : State) : Touch k_hspReceive s (hspReceive h op pay s) := by
  unfold hspReceive
  repeat' first
    | ((first | lift_lets -underBinder | skip); with_reducible intro zz; first | (refine cut_k (Touch k_hspReceive s zz) ?_ (fun _ => ?_); rotate_left; clear_value zz; rotate_right) | clear_value zz)
    | with_reducible exact Touch.refl
    | with_reducible assumption
    | decide
    | with_reducible exact okw_HOST_FOREIGN (by decide)
    | with_reducible refine ite_k ?_ ?_
    | with_reducible refine wrN_w ?_ ?_
    | with_reducible apply Touch.then (settlePorts_touch ..)
    | with_reducible apply Touch.then (discardMsg_touch ..)
    | with_reducible apply Touch.then (takeReq_touch ..)
    | unfold zz; try dsimp -zeta only

theorem execHello_touch (h : HspHdr) (vmin : BitVec 8) (vmax : BitVec 8) (s : State) : TouchX k_execHello s (execHello h vmin vmax s) := by
  unfold execHello
  repeat' first
    | with_reducible exact Touch.refl
    | with_reducible assumption
    | decide
    | with_reducible refine touchX_next ?_
    | with_reducible apply Touch.then (hspReceive_touch ..)

theorem execHspOpen_touch (h : HspHdr) (role : BitVec 8) (pw : List (BitVec 8)) (s : State) : TouchX k_execHspOpen s (execHspOpen h role pw s) := by
  unfold execHspOpen
  repeat' first
    | with_reducible exact Touch.refl
    | with_reducible assumption
    | decide
    | with_reducible refine touchX_next ?_
    | with_reducible apply Touch.then (hspReceive_touch ..)

theorem execClose_touch (h : HspHdr) (s : State) : TouchX k_execClose s (execClose h s) := by
  unfold execClose
  repeat' first
    | with_reducible exact Touch.refl
    | with_reducible assumption
    | decide
    | with_reducible refine touchX_next ?_
    | with_reducible apply Touch.then (hspReceive_touch ..)

theorem execRead_touch (h : HspHdr) (a : Word) (count : BitVec 16) (s : State) : TouchX k_execRead s (execRead h a count s) := by
  unfold execRead
  repeat' first
    | with_reducible exact Touch.refl
    | with_reducible assumption
    | decide
    | with_reducible refine touchX_next ?_
    | with_reducible apply Touch.then (hspReceive_touch ..)

theorem execWrite_touch (h : HspHdr) (a : Word) (count : BitVec 16) (ws : List Word) (s : State) : TouchX k_execWrite s (execWrite h a count ws s) := by
  unfold execWrite
  repeat' first
    | with_reducible exact Touch.refl
    | with_reducible assumption
    | decide
    | with_reducible refine touchX_next ?_
    | with_reducible apply Touch.then (hspReceive_touch ..)

theorem execLogRead_touch (h : HspHdr) (from' : Word) (n : BitVec 8) (s : State) : TouchX k_execLogRead s (execLogRead h from' n s) := by
  unfold execLogRead
  repeat' first
    | with_reducible exact Touch.refl
    | with_reducible assumption
    | decide
    | with_reducible refine touchX_next ?_
    | with_reducible apply Touch.then (hspReceive_touch ..)

theorem execImgBegin_touch (h : HspHdr) (len : Word) (s : State) : TouchX k_execImgBegin s (execImgBegin h len s) := by
  unfold execImgBegin
  repeat' first
    | with_reducible exact Touch.refl
    | with_reducible assumption
    | decide
    | with_reducible refine touchX_next ?_
    | with_reducible apply Touch.then (hspReceive_touch ..)

theorem execImgData_touch (h : HspHdr) (ofs : Word) (data : List (BitVec 8)) (s : State) : TouchX k_execImgData s (execImgData h ofs data s) := by
  unfold execImgData
  repeat' first
    | with_reducible exact Touch.refl
    | with_reducible assumption
    | decide
    | with_reducible refine touchX_next ?_
    | with_reducible apply Touch.then (hspReceive_touch ..)

theorem execImgEnd_touch (h : HspHdr) (s : State) : TouchX k_execImgEnd s (execImgEnd h s) := by
  unfold execImgEnd
  repeat' first
    | with_reducible exact Touch.refl
    | with_reducible assumption
    | decide
    | with_reducible refine touchX_next ?_
    | with_reducible apply Touch.then (hspReceive_touch ..)

theorem execSubscribe_touch (h : HspHdr) (qmask : BitVec 8) (diag : BitVec 8) (s : State) : TouchX k_execSubscribe s (execSubscribe h qmask diag s) := by
  unfold execSubscribe
  repeat' first
    | with_reducible exact Touch.refl
    | with_reducible assumption
    | decide
    | with_reducible refine touchX_next ?_
    | with_reducible apply Touch.then (hspReceive_touch ..)

theorem execImgJobDone_touch (nvmOk : Bool) (img : SlotImg) (s : State) : TouchX k_execImgJobDone s (execImgJobDone nvmOk img s) := by
  unfold execImgJobDone
  repeat' first
    | with_reducible exact Touch.refl
    | with_reducible assumption
    | decide
    | with_reducible refine touchX_next ?_
    | with_reducible refine ite_k ?_ ?_
    | with_reducible apply Touch.then (settlePorts_touch ..)
    | with_reducible apply Touch.then (jobDone_touch ..)

theorem execImgDataTimeout_touch (s : State) : TouchX k_execImgDataTimeout s (execImgDataTimeout s) := by
  unfold execImgDataTimeout
  repeat' first
    | with_reducible exact Touch.refl
    | with_reducible assumption
    | decide
    | with_reducible refine touchX_next ?_
    | with_reducible refine ite_k ?_ ?_
    | with_reducible apply Touch.then (abortImg_touch ..)

theorem execMirrorAckRx_touch (h : MirHdr) (pstate : BitVec 8) (rseq : Word) (lkey : Word) (level : BitVec 8) (reqs : List (BitVec 8)) (s : State) : TouchX k_execMirrorAckRx s (execMirrorAckRx h pstate rseq lkey level reqs s) := by
  unfold execMirrorAckRx
  repeat' first
    | ((first | lift_lets -underBinder | skip); with_reducible intro zz; first | (refine cut_k (Touch k_execMirrorAckRx s zz) ?_ (fun _ => ?_); rotate_left; clear_value zz; rotate_right) | clear_value zz)
    | with_reducible exact Touch.refl
    | with_reducible assumption
    | decide
    | with_reducible refine touchX_next ?_
    | with_reducible refine ite_k ?_ ?_
    | with_reducible apply Touch.then (bankCovered_touch ..)
    | with_reducible apply Touch.then (settlePorts_touch ..)
    | with_reducible apply Touch.then (ackRx_touch ..)
    | unfold zz; try dsimp -zeta only

theorem execSpiStatus_touch (s : State) : TouchX k_execSpiStatus s (execSpiStatus s) := by
  unfold execSpiStatus
  simp -zeta -beta -eta only [mk_eq]
  repeat' first
    | ((first | lift_lets -underBinder | skip); with_reducible intro zz; first | ((first | (have _q : HostSt := zz; clear _q)); dsimp -zeta only [zz]; clear zz) | (refine cut_k (Touch k_execSpiStatus s zz) ?_ (fun _ => ?_); rotate_left; clear_value zz; rotate_right) | (refine cut_k (Touch2 k_execSpiStatus s zz) ?_ (fun _ => ?_); rotate_left; clear_value zz; rotate_right) | clear_value zz)
    | with_reducible exact Touch.refl
    | with_reducible assumption
    | decide
    | with_reducible refine touchX_next ?_
    | with_reducible apply Touch.then2 (takeFree_touch ..)
    | with_reducible refine Touch.snd ?_
    | unfold zz; try dsimp -zeta only
    | split
    | with_reducible refine touch2_mk ?_
    | exact touch_of2 rfl ‹Touch2 _ _ (_, _)›
    | refine touch_of2 (by assumption) ?_
    | with_reducible apply Touch.then (upd_hostspiOut ..)

theorem execSpiPut_touch (cmd : BitVec 8) (bytes : List (BitVec 8)) (s : State) : TouchX k_execSpiPut s (execSpiPut cmd bytes s) := by
  unfold execSpiPut
  simp -zeta -beta -eta only [mk_eq]
  repeat' first
    | ((first | lift_lets -underBinder | skip); with_reducible intro zz; first | ((first | (have _q : HostSt := zz; clear _q)); dsimp -zeta only [zz]; clear zz) | (refine cut_k (Touch k_execSpiPut s zz) ?_ (fun _ => ?_); rotate_left; clear_value zz; rotate_right) | clear_value zz)
    | with_reducible exact Touch.refl
    | with_reducible assumption
    | decide
    | with_reducible exact okw_HOST_ERR (by decide)
    | with_reducible refine touchX_next ?_
    | with_reducible refine ite_k ?_ ?_
    | with_reducible refine fincWrap_w ?_ ?_
    | with_reducible apply Touch.then (discardMsg_touch ..)
    | with_reducible apply Touch.then (hspReceive_touch ..)
    | unfold zz; try dsimp -zeta only
    | with_reducible apply Touch.then (upd_hostspiOut ..)

theorem execSpiGet_touch (n : Nat) (s : State) : TouchX k_execSpiGet s (execSpiGet n s) := by
  unfold execSpiGet
  simp -zeta -beta -eta only [mk_eq]
  repeat' first
    | ((first | lift_lets -underBinder | skip); with_reducible intro zz; first | ((first | (have _q : HostSt := zz; clear _q)); dsimp -zeta only [zz]; clear zz) | (refine cut_k (Touch k_execSpiGet s zz) ?_ (fun _ => ?_); rotate_left; clear_value zz; rotate_right) | clear_value zz)
    | with_reducible exact Touch.refl
    | with_reducible assumption
    | decide
    | with_reducible refine touchX_next ?_
    | with_reducible refine ite_k ?_ ?_
    | with_reducible apply Touch.then (State_setHport_touch ..)
    | with_reducible refine withLine_k ?_ (fun _ _ => ?_) ?_
    | unfold zz; try dsimp -zeta only
    | split
    | with_reducible apply Touch.then (upd_hostspiOut ..)

theorem execSpiReset_touch (b0 : BitVec 8) (b1 : BitVec 8) (b2 : BitVec 8) (s : State) : TouchX k_execSpiReset s (execSpiReset b0 b1 b2 s) := by
  unfold execSpiReset
  repeat' first
    | with_reducible exact Touch.refl
    | with_reducible assumption
    | decide
    | with_reducible refine touchX_next ?_
    | with_reducible refine ite_k ?_ ?_
    | with_reducible apply Touch.then (resetPort_touch ..)

theorem execHrstN_touch (ns : Nat) (s : State) : TouchX k_execHrstN s (execHrstN ns s) := by
  unfold execHrstN
  repeat' first
    | ((first | lift_lets -underBinder | skip); with_reducible intro zz; first | (refine cut_k (Touch k_execHrstN s zz) ?_ (fun _ => ?_); rotate_left; clear_value zz; rotate_right) | (refine cut_k (Touch2 k_execHrstN s zz) ?_ (fun _ => ?_); rotate_left; clear_value zz; rotate_right) | clear_value zz)
    | with_reducible exact Touch.refl
    | with_reducible assumption
    | decide
    | with_reducible refine touchX_next ?_
    | with_reducible refine ite_k ?_ ?_
    | with_reducible apply Touch.then2 (takeFreeBool_touch ..)
    | with_reducible apply Touch.then (resetPort_touch ..)
    | with_reducible refine Touch.snd ?_
    | unfold zz; try dsimp -zeta only
    | split
    | with_reducible refine touch2_mk ?_
    | exact touch_of2 rfl ‹Touch2 _ _ (_, _)›
    | refine touch_of2 (by assumption) ?_

theorem execPortResetFrame_touch (pay : Word) (s : State) : TouchX k_execPortResetFrame s (execPortResetFrame pay s) := by
  unfold execPortResetFrame
  repeat' first
    | with_reducible exact Touch.refl
    | with_reducible assumption
    | decide
    | with_reducible refine touchX_next ?_
    | with_reducible refine ite_k ?_ ?_
    | with_reducible apply Touch.then (resetPort_touch ..)

theorem execArpRequest_touch (mac : BitVec 48) (spa : Word) (tpa : Word) (s : State) : TouchX k_execArpRequest s (execArpRequest mac spa tpa s) := by
  unfold execArpRequest
  simp -zeta -beta -eta only [mk_eq]
  repeat' first
    | ((first | lift_lets -underBinder | skip); with_reducible intro zz; first | ((first | (have _q : HostSt := zz; clear _q)); dsimp -zeta only [zz]; clear zz) | (refine cut_k (Touch k_execArpRequest s zz) ?_ (fun _ => ?_); rotate_left; clear_value zz; rotate_right) | clear_value zz)
    | with_reducible exact Touch.refl
    | with_reducible assumption
    | decide
    | with_reducible refine touchX_next ?_
    | with_reducible refine ite_k ?_ ?_
    | with_reducible apply Touch.then (upd_hostethTx ..)

theorem execIcmpEcho_touch (e : Echo) (s : State) : TouchX k_execIcmpEcho s (execIcmpEcho e s) := by
  unfold execIcmpEcho
  simp -zeta -beta -eta only [mk_eq]
  repeat' first
    | ((first | lift_lets -underBinder | skip); with_reducible intro zz; first | ((first | (have _q : HostSt := zz; clear _q)); dsimp -zeta only [zz]; clear zz) | (refine cut_k (Touch k_execIcmpEcho s zz) ?_ (fun _ => ?_); rotate_left; clear_value zz; rotate_right) | (refine cut_k (Touch2 k_execIcmpEcho s zz) ?_ (fun _ => ?_); rotate_left; clear_value zz; rotate_right) | clear_value zz)
    | with_reducible exact Touch.refl
    | with_reducible assumption
    | decide
    | with_reducible refine touchX_next ?_
    | with_reducible apply Touch.then2 (takeFree_touch ..)
    | with_reducible refine Touch.snd ?_
    | unfold zz; try dsimp -zeta only
    | split
    | with_reducible refine touch2_mk ?_
    | exact touch_of2 rfl ‹Touch2 _ _ (_, _)›
    | refine touch_of2 (by assumption) ?_
    | with_reducible apply Touch.then (upd_hostethTx ..)

theorem execRgmiiInBandStatus_touch (up : Bool) (speed : BitVec 2) (full : Bool) (s : State) : TouchX k_execRgmiiInBandStatus s (execRgmiiInBandStatus up speed full s) := by
  unfold execRgmiiInBandStatus
  simp -zeta -beta -eta only [mk_eq]
  repeat' first
    | ((first | lift_lets -underBinder | skip); with_reducible intro zz; first | ((first | (have _q : HostSt := zz; clear _q)); dsimp -zeta only [zz]; clear zz) | (refine cut_k (Touch k_execRgmiiInBandStatus s zz) ?_ (fun _ => ?_); rotate_left; clear_value zz; rotate_right) | clear_value zz)
    | with_reducible exact Touch.refl
    | with_reducible assumption
    | decide
    | with_reducible refine touchX_next ?_
    | with_reducible apply Touch.then (upd_hostrgmii ..)

end Sys2Proof.Laws
end

