-- ==== Sys2Proof/Laws/TouchSched.lean ====
section
/-! SUPPORT. What each operation of Machine/Sched.lean can touch: one lemma per operation, by footprint (Laws/Touch.lean). -/

set_option linter.unusedTactic false
set_option linter.unreachableTactic false
set_option linter.unusedSimpArgs false
set_option linter.unusedVariables false

namespace Sys2Proof.Laws
open Sys2Proof Sys2Proof.Machine R

/-! Footprints. -/
def k_execDlOpDone : Nat := 0x12c300000000007fc138000200030f80000010002400000000800000000130800000000041e63000000000c00000040821535ff80180
def k_sampleWait : Nat := 0x20000000
def k_giveJob : Nat := 0x1000000
def k_lawInputs : Nat := 0x100000000000000000000000000000000000000000000000000000000000000000000000800000000000
def k_takeReady : Nat := 0x800000
def k_startLaw : Nat := 0x100000000000000000000000000000000000000000000000000000000000000000000000800021800000
def k_startTask : Nat := 0x1080000000000000000000000000000000000000000000000000000000000000000000000000000010021800000
def k_goOn : Nat := 0x80000000000000000000000000000000000000000000000000000000000000000000000000000000001000000
def k_startBackground : Nat := 0x1080000000000000000000000000000000000000000000000000000000000000000000000000000010021800000
def k_highPreempt : Nat := 0x2c300000000007fc138000000000000000000000000000000000000000030800000000041e43000000000c000000000010021800100
def k_dispatchUnit : Nat := 0x2c300000000007fc138000010000000000000000000000000000000000030800000000041e43000000000c000000000810021800100
def k_execDispatch : Nat := 0x12c300000000007fc138000210030f80000010002400000000800000000130800000000041e43000000000c000000408a1537fe80180
def k_calm : Nat := 0x10001000000
def k_execLaneYield : Nat := 0x12c300000000007fc538000210030f80000010002400000000800000000130800000000041e43000000000c000000408a1537fe80180
def k_afterLaw : Nat := 0x28000000000000001000000000000200300100068000000000000000004000000000000400030000000000008000008001100800000
def k_execLawTaskComplete : Nat := 0x2c30000000000000100000000000020030010046800000000800000000430800000000041e43000000000c008000408001159800100
def k_closeBusy : Nat := 0x1000000
def k_publish : Nat := 0x300000000000000000000000000000000000000000000000000001e0100800000000000f40000000000c0200000000000f9000000
def k_execStatsPublish : Nat := 0x300000000000000000000000000000000000000000000000000001e0100800000000000f40000000000c0200000000000f9000000
def k_beginCycle : Nat := 0x48000000002000000000000000000000000000000001c00000058040000
def k_cycleChanges : Nat := 0x80000000000000000000000000000000000000001100000000000400000000000000100000000010001000100
def k_segTick : Nat := 0x2000000000000
def k_releaseEnt : Nat := 0x12c300000000007fc138000200030f80000010002400000000000000000130800000000041e43000000000c000000008215307e80180
def k_evalList : Nat := 0x12c300000000007fc138000200030f80000010002400000000000000000130800000000041e43000000000c000000008215307e80180
def k_placeAll : Nat := 0x12c300000000007fc138000200030f80000010002400000000000000000130800000000041e43000000000c000000008215307e80180
def k_phaseReleases : Nat := 0x2c300000000007fc138000000000000000000002000000000000000000130800000000041e43000000000c000000008010107800180
def k_autoEntries : Nat := 0x200300100138000000000000000000000000000000000000040000000000000000001100000000
def k_reloadTick : Nat := 0x100000000000400000000000000000000000000000000000
def k_tickStart : Nat := 0x12c300000000007fc138000200030fa0038010002c000000048000001e0330800000000041f43000000000c020001c0821f3ffec0180
def k_tickWork : Nat := 0x76d3414016503a7fc13c05422b4f0fa00b4c18c13f0000d73000180040013ef0e00000007fffffffffffffffffffffffffffffffffff
def k_tick : Nat := 0x76d3414016503a7fc13c05422b4f0fa00bcc18c13f0000d7348018005e033ef0e00000007fffffffffffffffffffffffffffffffffff
def k_execSchedulerTick : Nat := 0x76d3414016503a7fc13c05422b4f0fa00bcc18c13f0000d7348018005e033ef0e00000007fffffffffffffffffffffffffffffffffff

theorem execDlOpDone_touch (p : Port) (ns : Nat) (s : State) : TouchX k_execDlOpDone s (execDlOpDone p ns s) := by
  unfold execDlOpDone
  repeat' first
    | with_reducible exact Touch.refl
    | with_reducible assumption
    | decide
    | with_reducible refine touchX_next ?_
    | with_reducible apply Touch.then (runPlaced_touch ..)
    | with_reducible apply Touch.then (reachAt_touch ..)
    | with_reducible apply Touch.then (opDone_touch ..)
    | split

theorem sampleWait_touch (c : Nat) (ns : Nat) (s : State) : Touch k_sampleWait s (sampleWait c ns s) := by
  unfold sampleWait
  simp -zeta -beta -eta only [mk_eq]
  repeat' first
    | ((first | lift_lets -underBinder | skip); with_reducible intro zz; first | ((first | (have _q : SchSt := zz; clear _q)); dsimp -zeta only [zz]; clear zz) | (refine cut_k (Touch k_sampleWait s zz) ?_ (fun _ => ?_); rotate_left; clear_value zz; rotate_right) | clear_value zz)
    | with_reducible exact Touch.refl
    | with_reducible assumption
    | decide
    | unfold zz; try dsimp -zeta only
    | with_reducible apply Touch.then (upd_schwaitStat ..)

theorem giveJob_touch (u : Nat) (j : Job) (s : State) : Touch k_giveJob s (giveJob u j s) := by
  unfold giveJob
  repeat' first
    | with_reducible exact Touch.refl
    | with_reducible assumption
    | decide
    | with_reducible apply Touch.then (State_setUnit_touch ..)
    | with_reducible refine eachN_k (fun _ _ _ => ?_) ?_

theorem lawInputs_touch (n : Nat) (rel : Nat) (s : State) : Touch2 k_lawInputs s (lawInputs n rel s) := by
  unfold lawInputs
  repeat' first
    | ((first | lift_lets -underBinder | skip); with_reducible intro zz; first | (refine cut_k (Touch k_lawInputs s zz) ?_ (fun _ => ?_); rotate_left; clear_value zz; rotate_right) | (refine cut_k (Touch2 k_lawInputs s zz) ?_ (fun _ => ?_); rotate_left; clear_value zz; rotate_right) | clear_value zz)
    | with_reducible exact Touch.refl
    | with_reducible assumption
    | decide
    | with_reducible refine ite_k ?_ ?_
    | with_reducible apply Touch.then (stillSampleSw_touch ..)
    | with_reducible refine Touch.snd ?_
    | unfold zz; try dsimp -zeta only
    | with_reducible refine touch2_mk ?_
    | exact touch_of2 rfl ‹Touch2 _ _ (_, _)›
    | refine touch_of2 (by assumption) ?_

theorem takeReady_touch (g : Nat) (c : Nat) (n : Nat) (s : State) : Touch k_takeReady s (takeReady g c n s) := by
  unfold takeReady
  repeat' first
    | with_reducible exact Touch.refl
    | with_reducible assumption
    | decide
    | with_reducible apply Touch.then (State_setReady_touch ..)

theorem startLaw_touch (u : Nat) (c : Nat) (e : REnt) (s : State) : Touch k_startLaw s (startLaw u c e s) := by
  unfold startLaw
  repeat' first
    | ((first | lift_lets -underBinder | skip); with_reducible intro zz; first | (refine cut_k (Touch k_startLaw s zz) ?_ (fun _ => ?_); rotate_left; clear_value zz; rotate_right) | (refine cut_k (Touch2 k_startLaw s zz) ?_ (fun _ => ?_); rotate_left; clear_value zz; rotate_right) | (refine cut_k (∀ t, Touch k_startLaw s t → Touch k_startLaw s (zz t)) (fun _ _ => ?_) (fun _ => ?_); rotate_left; clear_value zz; rotate_right) | (refine cut_k (∀ a t, Touch k_startLaw s t → Touch k_startLaw s (zz a t)) (fun _ _ _ => ?_) (fun _ => ?_); rotate_left; clear_value zz; rotate_right) | (refine cut_k (∀ a b t, Touch k_startLaw s t → Touch k_startLaw s (zz a b t)) (fun _ _ _ _ => ?_) (fun _ => ?_); rotate_left; clear_value zz; rotate_right) | (refine cut_k (∀ a b c d t, Touch k_startLaw s t → Touch k_startLaw s (zz a b c d t)) (fun _ _ _ _ _ _ => ?_) (fun _ => ?_); rotate_left; clear_value zz; rotate_right) | clear_value zz)
    | with_reducible exact Touch.refl
    | with_reducible assumption
    | decide
    | with_reducible refine ite_k ?_ ?_
    | with_reducible apply Touch.then (sampleWait_touch ..)
    | with_reducible apply Touch.then2 (lawInputs_touch ..)
    | with_reducible apply Touch.then (takeReady_touch ..)
    | with_reducible apply Touch.then (giveJob_touch ..)
    | with_reducible refine Touch.snd ?_
    | unfold zz; try dsimp -zeta only
    | split
    | with_reducible apply_assumption
    | with_reducible refine touch2_mk ?_
    | exact touch_of2 rfl ‹Touch2 _ _ (_, _)›
    | refine touch_of2 (by assumption) ?_

theorem startTask_touch (u : Nat) (w : Nat × REnt) (s : State) : Touch k_startTask s (startTask u w s) := by
  unfold startTask
  repeat' first
    | ((first | lift_lets -underBinder | skip); with_reducible intro zz; first | (refine cut_k (Touch k_startTask s zz) ?_ (fun _ => ?_); rotate_left; clear_value zz; rotate_right) | clear_value zz)
    | with_reducible exact Touch.refl
    | with_reducible assumption
    | decide
    | with_reducible apply Touch.then (sampleWait_touch ..)
    | with_reducible apply Touch.then (takeReady_touch ..)
    | with_reducible apply Touch.then (laneStart_touch ..)
    | with_reducible apply Touch.then (giveJob_touch ..)
    | unfold zz; try dsimp -zeta only

theorem goOn_touch (u : Nat) (s : State) : Touch k_goOn s (goOn u s) := by
  unfold goOn
  repeat' first
    | ((first | lift_lets -underBinder | skip); with_reducible intro zz; first | (refine cut_k (Touch k_goOn s zz) ?_ (fun _ => ?_); rotate_left; clear_value zz; rotate_right) | clear_value zz)
    | with_reducible exact Touch.refl
    | with_reducible assumption
    | decide
    | with_reducible exact okw_LANE_STATUS (by decide)
    | with_reducible refine fset_w ?_ ?_
    | with_reducible apply Touch.then (giveJob_touch ..)
    | with_reducible refine eachN_k (fun _ _ _ => ?_) ?_
    | unfold zz; try dsimp -zeta only
    | split

theorem startBackground_touch (u : Nat) (s : State) : Touch k_startBackground s (startBackground u s) := by
  unfold startBackground
  repeat' first
    | ((first | lift_lets -underBinder | skip); with_reducible intro zz; first | (refine cut_k (Touch k_startBackground s zz) ?_ (fun _ => ?_); rotate_left; clear_value zz; rotate_right) | (refine cut_k (∀ t, Touch k_startBackground s t → Touch k_startBackground s (zz t)) (fun _ _ => ?_) (fun _ => ?_); rotate_left; clear_value zz; rotate_right) | (refine cut_k (∀ a t, Touch k_startBackground s t → Touch k_startBackground s (zz a t)) (fun _ _ _ => ?_) (fun _ => ?_); rotate_left; clear_value zz; rotate_right) | (refine cut_k (∀ a b t, Touch k_startBackground s t → Touch k_startBackground s (zz a b t)) (fun _ _ _ _ => ?_) (fun _ => ?_); rotate_left; clear_value zz; rotate_right) | (refine cut_k (∀ a b c d t, Touch k_startBackground s t → Touch k_startBackground s (zz a b c d t)) (fun _ _ _ _ _ _ => ?_) (fun _ => ?_); rotate_left; clear_value zz; rotate_right) | clear_value zz)
    | with_reducible exact Touch.refl
    | with_reducible assumption
    | decide
    | with_reducible refine ite_k ?_ ?_
    | with_reducible apply Touch.then (shadowRestore_touch ..)
    | with_reducible apply Touch.then (laneResume_touch ..)
    | with_reducible apply Touch.then (shadowSave_touch ..)
    | with_reducible apply Touch.then (sampleWait_touch ..)
    | with_reducible apply Touch.then (startTask_touch ..)
    | with_reducible apply Touch.then (goOn_touch ..)
    | unfold zz; try dsimp -zeta only
    | split
    | with_reducible apply_assumption

theorem highPreempt_touch (u : Nat) (s : State) : Touch k_highPreempt s (highPreempt u s) := by
  unfold highPreempt
  repeat' first
    | with_reducible exact Touch.refl
    | with_reducible assumption
    | decide
    | with_reducible exact touchL_refl
    | with_reducible refine touchX_next ?_
    | with_reducible refine ite_k ?_ ?_
    | with_reducible apply Touch.then (shadowSave_touch ..)
    | with_reducible apply Touch.then (startTask_touch ..)
    | with_reducible apply Touch.then (laneFree_touch ..)
    | with_reducible refine issued_k ?_ (fun _ _ => ?_) ?_
    | with_reducible refine Touch.ofL ?_
    | split

theorem dispatchUnit_touch (u : Nat) (s : State) : Touch k_dispatchUnit s (dispatchUnit u s) := by
  unfold dispatchUnit
  repeat' first
    | with_reducible exact Touch.refl
    | with_reducible assumption
    | decide
    | with_reducible refine ite_k ?_ ?_
    | with_reducible apply Touch.then (startBackground_touch ..)
    | with_reducible apply Touch.then (highPreempt_touch ..)
    | with_reducible apply Touch.then (startLaw_touch ..)
    | split

theorem execDispatch_touch (u : UnitNo) (ns : Nat) (s : State) : TouchX k_execDispatch s (execDispatch u ns s) := by
  unfold execDispatch
  repeat' first
    | ((first | lift_lets -underBinder | skip); with_reducible intro zz; first | (refine cut_k (Touch k_execDispatch s zz) ?_ (fun _ => ?_); rotate_left; clear_value zz; rotate_right) | clear_value zz)
    | with_reducible exact Touch.refl
    | with_reducible assumption
    | decide
    | with_reducible refine touchX_next ?_
    | with_reducible apply Touch.then (dispatchUnit_touch ..)
    | with_reducible apply Touch.then (runPlaced_touch ..)
    | with_reducible apply Touch.then (reachAt_touch ..)
    | with_reducible refine eachN_k (fun _ _ _ => ?_) ?_
    | unfold zz; try dsimp -zeta only

theorem calm_touch (u : Nat) (s : State) : Touch k_calm s (calm u s) := by
  unfold calm
  repeat' first
    | with_reducible exact Touch.refl
    | with_reducible assumption
    | decide
    | with_reducible refine ite_k ?_ ?_
    | with_reducible apply Touch.then (State_setUnit_touch ..)
    | with_reducible apply Touch.then (State_setLan_touch ..)

theorem execLaneYield_touch (u : UnitNo) (ns : Nat) (s : State) : TouchX k_execLaneYield s (execLaneYield u ns s) := by
  unfold execLaneYield
  repeat' first
    | ((first | lift_lets -underBinder | skip); with_reducible intro zz; first | (refine cut_k (Touch k_execLaneYield s zz) ?_ (fun _ => ?_); rotate_left; clear_value zz; rotate_right) | clear_value zz)
    | with_reducible exact Touch.refl
    | with_reducible assumption
    | decide
    | with_reducible refine touchX_next ?_
    | with_reducible refine ite_k ?_ ?_
    | with_reducible apply Touch.then (laneSuspend_touch ..)
    | with_reducible apply Touch.then (runPlaced_touch ..)
    | with_reducible apply Touch.then (startLaw_touch ..)
    | with_reducible apply Touch.then (reachAt_touch ..)
    | with_reducible refine eachN_k (fun _ _ _ => ?_) ?_
    | with_reducible apply Touch.then (calm_touch ..)
    | unfold zz; try dsimp -zeta only
    | split

theorem afterLaw_touch (n : Nat) (rel : Nat) (now : Nat) (i : LawIn) (s : State) : Touch k_afterLaw s (afterLaw n rel now i s) := by
  unfold afterLaw
  repeat' first
    | ((first | lift_lets -underBinder | skip); with_reducible intro zz; first | (refine cut_k (Touch k_afterLaw s zz) ?_ (fun _ => ?_); rotate_left; clear_value zz; rotate_right) | clear_value zz)
    | with_reducible exact Touch.refl
    | with_reducible assumption
    | decide
    | with_reducible refine ite_k ?_ ?_
    | with_reducible apply Touch.then (showTurnaround_touch ..)
    | with_reducible apply Touch.then (releaseAxrel_touch ..)
    | with_reducible apply Touch.then (State_setAxn_touch ..)
    | with_reducible apply Touch.then (judgeCause_touch ..)
    | with_reducible apply Touch.then (noteSample_touch ..)
    | unfold zz; try dsimp -zeta only
    | split

theorem execLawTaskComplete_touch (u : UnitNo) (ns : Nat) (s : State) : TouchX k_execLawTaskComplete s (execLawTaskComplete u ns s) := by
  unfold execLawTaskComplete
  repeat' first
    | ((first | lift_lets -underBinder | skip); with_reducible intro zz; first | (refine cut_k (Touch k_execLawTaskComplete s zz) ?_ (fun _ => ?_); rotate_left; clear_value zz; rotate_right) | clear_value zz)
    | with_reducible exact Touch.refl
    | with_reducible assumption
    | decide
    | with_reducible refine touchX_next ?_
    | with_reducible apply Touch.then (State_setAxl_touch ..)
    | with_reducible apply Touch.then (freeUnit_touch ..)
    | with_reducible apply Touch.then (afterLaw_touch ..)
    | with_reducible apply Touch.then (reachAt_touch ..)
    | with_reducible apply Touch.then (lawDone_touch ..)
    | with_reducible refine eachN_k (fun _ _ _ => ?_) ?_
    | unfold zz; try dsimp -zeta only
    | split

theorem closeBusy_touch (now : Nat) (u : Nat) (s : State) : Touch k_closeBusy s (closeBusy now u s) := by
  unfold closeBusy
  repeat' first
    | ((first | lift_lets -underBinder | skip); with_reducible intro zz; first | (refine cut_k (Touch k_closeBusy s zz) ?_ (fun _ => ?_); rotate_left; clear_value zz; rotate_right) | clear_value zz)
    | with_reducible exact Touch.refl
    | with_reducible assumption
    | decide
    | with_reducible apply Touch.then (State_setUnit_touch ..)
    | unfold zz; try dsimp -zeta only
    | split

theorem publish_touch (now : Nat) (s : State) : Touch k_publish s (publish now s) := by
  unfold publish
  simp -zeta -beta -eta only [mk_eq]
  repeat' first
    | ((first | lift_lets -underBinder | skip); with_reducible intro zz; first | ((first | (have _q : PairSt := zz; clear _q) | (have _q : SchSt := zz; clear _q)); dsimp -zeta only [zz]; clear zz) | (refine cut_k (okw k_publish zz) (by with_reducible first | exact okw_WAIT (by decide) | exact okw_DL_DEPTH (by decide) | exact okw_RL_DEPTH (by decide) | exact okw_UNIT_LOAD (by decide) | exact okw_SCH_STATUS (by decide)) (fun _ => ?_); clear_value zz) | (refine cut_k (Touch k_publish s zz) ?_ (fun _ => ?_); rotate_left; clear_value zz; rotate_right) | clear_value zz)
    | with_reducible exact Touch.refl
    | with_reducible assumption
    | decide
    | with_reducible exact okw_WAIT (by decide)
    | with_reducible exact okw_DL_DEPTH (by decide)
    | with_reducible exact okw_RL_DEPTH (by decide)
    | with_reducible exact okw_UNIT_LOAD (by decide)
    | with_reducible exact okw_SCH_STATUS (by decide)
    | with_reducible refine ite_k ?_ ?_
    | with_reducible refine fincWrap_w ?_ ?_
    | with_reducible refine wrN_w ?_ ?_
    | with_reducible apply Touch.then (State_setUnit_touch ..)
    | with_reducible apply Touch.then (sampleDepths_touch ..)
    | with_reducible apply Touch.then (closeBusy_touch ..)
    | with_reducible apply Touch.then (logFlush_touch ..)
    | with_reducible refine eachN_k (fun _ _ _ => ?_) ?_
    | unfold zz; try dsimp -zeta only
    | with_reducible apply Touch.then (upd_pairdivWin_schdlStat_schpublished_schrlStat_schwaitStat ..)

theorem execStatsPublish_touch (s : State) : TouchX k_execStatsPublish s (execStatsPublish s) := by
  unfold execStatsPublish
  repeat' first
    | with_reducible exact Touch.refl
    | with_reducible assumption
    | decide
    | with_reducible refine touchX_next ?_
    | with_reducible refine ite_k ?_ ?_
    | with_reducible apply Touch.then (publish_touch ..)

theorem beginCycle_touch (s : State) : Touch k_beginCycle s (beginCycle s) := by
  unfold beginCycle
  simp -zeta -beta -eta only [mk_eq]
  repeat' first
    | ((first | lift_lets -underBinder | skip); with_reducible intro zz; first | ((first | (have _q : SchSt := zz; clear _q) | (have _q : TimeSt := zz; clear _q)); dsimp -zeta only [zz]; clear zz) | (refine cut_k (Touch k_beginCycle s zz) ?_ (fun _ => ?_); rotate_left; clear_value zz; rotate_right) | clear_value zz)
    | with_reducible exact Touch.refl
    | with_reducible assumption
    | decide
    | with_reducible exact okw_TICK_COUNT (by decide)
    | with_reducible refine ite_k ?_ ?_
    | with_reducible refine wrN_w ?_ ?_
    | with_reducible apply Touch.then (setNow_touch ..)
    | with_reducible apply Touch.then (setCyc_touch ..)
    | unfold zz; try dsimp -zeta only
    | split
    | with_reducible apply Touch.then (upd_timegrid_timestart ..)
    | with_reducible apply Touch.then (upd_schstarted ..)

theorem cycleChanges_touch (s : State) : Touch k_cycleChanges s (cycleChanges s) := by
  unfold cycleChanges
  repeat' first
    | ((first | lift_lets -underBinder | skip); with_reducible intro zz; first | (refine cut_k (Touch k_cycleChanges s zz) ?_ (fun _ => ?_); rotate_left; clear_value zz; rotate_right) | clear_value zz)
    | with_reducible exact Touch.refl
    | with_reducible assumption
    | decide
    | with_reducible apply Touch.then (clockSwitch_touch ..)
    | with_reducible apply Touch.then (holdoffAct_touch ..)
    | with_reducible apply Touch.then (applyResv_touch ..)
    | with_reducible apply Touch.then (lagoonAct_touch ..)
    | with_reducible refine eachN_k (fun _ _ _ => ?_) ?_
    | unfold zz; try dsimp -zeta only

theorem segTick_touch (s : State) : Touch k_segTick s (segTick s) := by
  unfold segTick
  repeat' first
    | ((first | lift_lets -underBinder | skip); with_reducible intro zz; first | (refine cut_k (Touch k_segTick s zz) ?_ (fun _ => ?_); rotate_left; clear_value zz; rotate_right) | clear_value zz)
    | with_reducible exact Touch.refl
    | with_reducible assumption
    | decide
    | with_reducible refine ite_k ?_ ?_
    | with_reducible apply Touch.then (State_setSeg_touch ..)
    | with_reducible refine eachN_k (fun _ _ _ => ?_) ?_
    | unfold zz; try dsimp -zeta only

theorem releaseEnt_touch (l : Nat) (e : DEnt) (s : State) : Touch k_releaseEnt s (releaseEnt l e s) := by
  unfold releaseEnt
  repeat' first
    | with_reducible exact Touch.refl
    | with_reducible assumption
    | decide
    | with_reducible exact touchO_none
    | with_reducible refine touchO_some ?_
    | with_reducible refine touchO_map ?_ (fun _ _ => ?_)
    | with_reducible refine touch_getD ?_ ?_
    | with_reducible refine ite_k ?_ ?_
    | with_reducible apply Touch.then (State_setDl_touch ..)
    | with_reducible apply Touch.thenO (entAction_touch ..)
    | split
    | exact touch_ofO rfl ‹TouchO _ _ (some _)›
    | with_reducible refine touchO_map' (fun _ => ?_)
    | refine touch_ofO (by assumption) ?_

theorem evalList_touch (l : Nat) (s : State) : Touch k_evalList s (evalList l s) := by
  unfold evalList
  repeat' first
    | ((first | lift_lets -underBinder | skip); with_reducible intro zz; first | (refine cut_k (Touch k_evalList s zz) ?_ (fun _ => ?_); rotate_left; clear_value zz; rotate_right) | clear_value zz)
    | with_reducible exact Touch.refl
    | with_reducible assumption
    | decide
    | with_reducible refine foldl_k (fun _ _ _ => ?_) ?_
    | with_reducible apply Touch.then (State_setDl_touch ..)
    | with_reducible apply Touch.then (releaseEnt_touch ..)
    | unfold zz; try dsimp -zeta only

theorem placeAll_touch (b0 : Nat) (b1 : State) : Touch k_placeAll b1 (placeAll b0 b1) := by
  induction b0 generalizing b1 with
  | zero => unfold placeAll; exact Touch.refl
  | succ f ih =>
    unfold placeAll
    exact ite_k Touch.refl (Touch.then (ih ..) (by decide) (Touch.then (runPlaced_touch ..) (by decide) Touch.refl))

theorem phaseReleases_touch (s : State) : Touch k_phaseReleases s (phaseReleases s) := by
  unfold phaseReleases
  repeat' first
    | with_reducible exact Touch.refl
    | with_reducible assumption
    | decide
    | with_reducible apply Touch.then (localInputs_touch ..)
    | with_reducible apply Touch.then (release_touch ..)
    | with_reducible refine eachN_k (fun _ _ _ => ?_) ?_

theorem autoEntries_touch (s : State) : Touch k_autoEntries s (autoEntries s) := by
  unfold autoEntries
  simp -zeta -beta -eta only [mk_eq]
  repeat' first
    | ((first | lift_lets -underBinder | skip); with_reducible intro zz; first | ((first | (have _q : BootSt := zz; clear _q)); dsimp -zeta only [zz]; clear zz) | (refine cut_k (Touch k_autoEntries s zz) ?_ (fun _ => ?_); rotate_left; clear_value zz; rotate_right) | (refine cut_k (TouchO k_autoEntries s zz) ?_ (fun _ => ?_); rotate_left; clear_value zz; rotate_right) | clear_value zz)
    | with_reducible exact Touch.refl
    | with_reducible assumption
    | decide
    | with_reducible exact touchO_none
    | with_reducible refine touchO_some ?_
    | with_reducible refine touchO_map ?_ (fun _ _ => ?_)
    | with_reducible refine touch_getD ?_ ?_
    | with_reducible apply Touch.thenO (axCtrlEff_touch ..)
    | with_reducible refine eachN_k (fun _ _ _ => ?_) ?_
    | unfold zz; try dsimp -zeta only
    | exact touch_ofO rfl ‹TouchO _ _ (some _)›
    | with_reducible refine touchO_map' (fun _ => ?_)
    | refine touch_ofO (by assumption) ?_
    | with_reducible apply Touch.then (upd_bootautoWait ..)

theorem reloadTick_touch (s : State) : Touch k_reloadTick s (reloadTick s) := by
  unfold reloadTick
  repeat' first
    | ((first | lift_lets -underBinder | skip); with_reducible intro zz; first | (refine cut_k (Touch k_reloadTick s zz) ?_ (fun _ => ?_); rotate_left; clear_value zz; rotate_right) | (refine cut_k (Touch2 k_reloadTick s zz) ?_ (fun _ => ?_); rotate_left; clear_value zz; rotate_right) | clear_value zz)
    | with_reducible exact Touch.refl
    | with_reducible assumption
    | decide
    | with_reducible refine ite_k ?_ ?_
    | with_reducible apply Touch.then2 (takeFreeBool_touch ..)
    | with_reducible apply Touch.then (setRegState_touch ..)
    | with_reducible refine eachN_k (fun _ _ _ => ?_) ?_
    | with_reducible refine Touch.snd ?_
    | unfold zz; try dsimp -zeta only
    | split
    | with_reducible refine touch2_mk ?_
    | exact touch_of2 rfl ‹Touch2 _ _ (_, _)›
    | refine touch_of2 (by assumption) ?_

theorem tickStart_touch (s : State) : Touch k_tickStart s (tickStart s) := by
  unfold tickStart
  simp -zeta -beta -eta only [mk_eq]
  repeat' first
    | ((first | lift_lets -underBinder | skip); with_reducible intro zz; first | ((first | (have _q : SchSt := zz; clear _q)); dsimp -zeta only [zz]; clear zz) | (refine cut_k (Touch k_tickStart s zz) ?_ (fun _ => ?_); rotate_left; clear_value zz; rotate_right) | clear_value zz)
    | with_reducible exact Touch.refl
    | with_reducible assumption
    | decide
    | with_reducible refine ite_k ?_ ?_
    | with_reducible apply Touch.then (computeCycle_touch ..)
    | with_reducible apply Touch.then (beginCycle_touch ..)
    | with_reducible apply Touch.then (runPlaced_touch ..)
    | with_reducible apply Touch.then (handOver_touch ..)
    | with_reducible apply Touch.then (publish_touch ..)
    | unfold zz; try dsimp -zeta only
    | with_reducible apply Touch.then (upd_schpublished ..)

theorem tickWork_touch (first : Bool) (s : State) : Touch k_tickWork s (tickWork first s) := by
  unfold tickWork
  repeat' first
    | ((first | lift_lets -underBinder | skip); with_reducible intro zz; first | (refine cut_k (Touch k_tickWork s zz) ?_ (fun _ => ?_); rotate_left; clear_value zz; rotate_right) | clear_value zz)
    | with_reducible exact Touch.refl
    | with_reducible assumption
    | decide
    | with_reducible refine ite_k ?_ ?_
    | with_reducible apply Touch.then (phaseReleases_touch ..)
    | with_reducible apply Touch.then (cycleChanges_touch ..)
    | with_reducible apply Touch.then (autoEntries_touch ..)
    | with_reducible apply Touch.then (settlePorts_touch ..)
    | with_reducible apply Touch.then (switchApply_touch ..)
    | with_reducible apply Touch.then (reloadTick_touch ..)
    | with_reducible apply Touch.then (angleTick_touch ..)
    | with_reducible apply Touch.then (toInstall_touch ..)
    | with_reducible apply Touch.then (retryHeld_touch ..)
    | with_reducible apply Touch.then (ripenAll_touch ..)
    | with_reducible apply Touch.then (evalList_touch ..)
    | with_reducible apply Touch.then (applyDue_touch ..)
    | with_reducible apply Touch.then (placeAll_touch ..)
    | with_reducible apply Touch.then (pairTick_touch ..)
    | with_reducible apply Touch.then (encTick_touch ..)
    | with_reducible apply Touch.then (segTick_touch ..)
    | with_reducible apply Touch.then (toTick_touch ..)
    | with_reducible refine eachN_k (fun _ _ _ => ?_) ?_
    | unfold zz; try dsimp -zeta only

theorem tick_touch (s : State) : Touch k_tick s (tick s) := by
  unfold tick
  repeat' first
    | with_reducible exact Touch.refl
    | with_reducible assumption
    | decide
    | with_reducible apply Touch.then (tickStart_touch ..)
    | with_reducible apply Touch.then (tickWork_touch ..)

theorem execSchedulerTick_touch (s : State) : TouchX k_execSchedulerTick s (execSchedulerTick s) := by
  unfold execSchedulerTick
  repeat' first
    | with_reducible exact Touch.refl
    | with_reducible assumption
    | decide
    | with_reducible refine touchX_next ?_
    | with_reducible refine ite_k ?_ ?_
    | with_reducible apply Touch.then (tick_touch ..)

end Sys2Proof.Laws
end

