-- ==== Sys2Proof/Laws/Frames.lean ====
section
/-! SUPPORT. From footprints to the frames the statements name, and the frame of an accepted register write. -/

namespace Sys2Proof.Laws
open Sys2Proof Sys2Proof.Machine R

/-- Every part. -/
def allParts : List Part :=
  (List.range 143).map fun k => (Part.ofNat k)

theorem Part.mem_all (p : Part) : p ∈ allParts := by cases p <;> decide +kernel

/-- The listed parts cover a footprint. -/
def covers (ps : List Part) (m : Nat) : Bool := allParts.all fun p => ps.contains p || !m.testBit p.ctorIdx

/-- A footprint leaves the listed parts. -/
def spares (ps : List Part) (m : Nat) : Bool := ps.all fun p => !m.testBit p.ctorIdx

/-- The registers a footprint names, by number. -/
def regBits (m : Nat) : List Nat := (List.range 272).filter fun k => m.testBit (160 + k)

theorem Touch.only {m : Nat} {s t : State} (h : Touch m s t) (ps : List Part) (hc : covers ps m = true) : onlyParts ps s t := by
  refine ⟨h.pending, fun p hp => h.same p ?_⟩
  have := List.all_eq_true.1 hc p (Part.mem_all p)
  simpa [List.contains_iff_mem, hp] using this

theorem Touch.keeps {m : Nat} {s t : State} (h : Touch m s t) (ps : List Part) (hc : spares ps m = true) : keepsParts ps s t :=
  ⟨h.pending, fun p hp => h.same p (by simpa using List.all_eq_true.1 hc p hp)⟩

theorem Touch.words {m : Nat} {s t : State} {P : Nat → Prop} (h : Touch m s t) (hp : ∀ k ∈ regBits m, ∀ a, inCls k a = true → P a) :
    regsOnly P s t := by
  refine fun a ha => h.word a ?_
  by_contra hf
  rw [Bool.not_eq_false] at hf
  obtain ⟨k, h1, h2⟩ := List.any_eq_true.1 hf
  rw [Bool.and_eq_true] at h2
  exact ha (hp k (List.mem_filter.2 ⟨h1, h2.1⟩) a h2.2)

/-- Each of the numbered registers lies in a set. -/
def eachCls : List Nat → (Nat → Prop) → Prop
  | [], _ => True
  | k :: l, P => (∀ a, inCls k a = true → P a) ∧ eachCls l P

theorem words_of {m : Nat} {s t : State} {P : Nat → Prop} (h : Touch m s t) {L : List Nat} (hL : regBits m = L) (hp : eachCls L P) :
    regsOnly P s t := by
  refine h.words ?_
  rw [hL]
  clear hL
  induction L with
  | nil => intro k hk; cases hk
  | cons k l ih =>
    intro j hj a ha
    rcases List.mem_cons.1 hj with rfl | hj
    · exact hp.1 a ha
    · exact ih hp.2 j hj a ha

/-- A register outside a footprint reads as before. -/
theorem Touch.rd {m : Nat} {s t : State} (h : Touch m s t) (a : Nat) (ha : (regBits m).all (fun k => !inCls k a) = true) :
    rd t a = rd s a := by
  refine h.word a ?_
  by_contra hf
  rw [Bool.not_eq_false] at hf
  obtain ⟨k, h1, h2⟩ := List.any_eq_true.1 hf
  rw [Bool.and_eq_true] at h2
  have := List.all_eq_true.1 ha k (List.mem_filter.2 ⟨h1, h2.1⟩)
  rw [h2.2] at this; cases this

/-- The block a register of the map lies in. -/
def clsBlock (k : Nat) : Nat :=
  match clsAt k with
  | some (b, _) => blockNo b
  | none => [15, 15, 7, 6, 11, 13].getD (k - 266) 15

theorem blockNo_mono {a b : Nat} (h : a ≤ b) : blockNo a ≤ blockNo b := by
  have e : ∀ x, blockNo x = blockNo (x / 0x10000 * 0x10000) := fun x => by
    unfold blockNo; rw [Nat.mul_div_cancel _ (by decide)]
  have hs : (List.range 256).all (fun p => decide (blockNo (p * 0x10000) ≤ blockNo ((p + 1) * 0x10000))) = true := by decide +kernel
  have ht : ∀ p, 256 ≤ p → blockNo (p * 0x10000) = 15 := fun p hp => by
    unfold blockNo
    rw [Nat.mul_div_cancel _ (by decide)]
    simp only [show ¬ p < 4 by omega, show ¬ p < 8 by omega, show ¬ p < 0x10 by omega, show ¬ p < 0x20 by omega, show ¬ p < 0x30 by omega,
      show ¬ p = 0x30 by omega, show ¬ p = 0x31 by omega, show ¬ p < 0x40 by omega, show ¬ p < 0x50 by omega, show ¬ p < 0x60 by omega,
      show ¬ p < 0x70 by omega, show ¬ p < 0x100 by omega, if_false]
  have hm : Monotone fun p => blockNo (p * 0x10000) := monotone_nat_of_le_succ fun n => by
    by_cases hn : n < 256
    · simpa using List.all_eq_true.1 hs n (List.mem_range.2 hn)
    · show blockNo (n * 0x10000) ≤ blockNo ((n + 1) * 0x10000)
      rw [ht n (by omega), ht (n + 1) (by omega)]
  rw [e a, e b]
  exact hm (Nat.div_le_div_right h)
/-- The offset of a register's last word. -/
def lastOfs : List (Nat × Nat) → Nat
  | [] => 0
  | (st, c) :: ds => st * (c - 1) + lastOfs ds

theorem dimsHit_le {ds : List (Nat × Nat)} {o : Nat} (h : dimsHit ds o = true) : o ≤ lastOfs ds := by
  induction ds generalizing o with
  | nil => simp [dimsHit] at h; omega
  | cons d ds ih =>
    obtain ⟨st, c⟩ := d
    simp only [dimsHit, Bool.and_eq_true, decide_eq_true_eq] at h
    have h1 := ih h.2
    have h2 : st * (o / st) ≤ st * (c - 1) := Nat.mul_le_mul_left _ (by omega)
    have h3 := Nat.div_add_mod o st
    simp only [lastOfs]; omega

theorem blocks_hold : (List.range 266).all (fun k => match clsAt k with
    | some (b, ds) => blockNo b == blockNo (b + lastOfs ds)
    | none => false) = true := by decide +kernel

/-- A register of the map lies in its block. -/
theorem block_of_inCls {k a : Nat} (hk : k < 266) (h : inCls k a = true) : blockNo a = clsBlock k := by
  have hb := List.all_eq_true.1 blocks_hold k (List.mem_range.2 hk)
  cases hc : clsAt k with
  | none => rw [hc] at hb; cases hb
  | some e =>
    obtain ⟨b, ds⟩ := e
    rw [hc] at hb
    have hB : clsBlock k = blockNo b := by unfold clsBlock; rw [hc]
    have h : (decide (b ≤ a) && dimsHit ds (a - b)) = true := by unfold inCls at h; rw [hc] at h; exact h
    rw [hB]
    simp only [Bool.and_eq_true, decide_eq_true_eq] at h
    simp only [beq_iff_eq] at hb
    have h1 := dimsHit_le h.2
    have h2 := blockNo_mono h.1
    have h3 : blockNo a ≤ blockNo (b + lastOfs ds) := blockNo_mono (by omega)
    omega

/-! ### Registers apart from a footprint -/

/-- How far an offset's residue modulo M can reach. -/
def spanM (M : Nat) : List (Nat × Nat) → Nat
  | [] => 0
  | (st, c) :: ds => (if st % M = 0 then 0 else st * (c - 1)) + spanM M ds

theorem spanM_hit {M : Nat} {ds : List (Nat × Nat)} {o : Nat} (h : dimsHit ds o = true) : ∃ e q, e ≤ spanM M ds ∧ o = e + M * q := by
  induction ds generalizing o with
  | nil => simp only [dimsHit, beq_iff_eq] at h; exact ⟨0, 0, by simp [spanM], by simp [h]⟩
  | cons d ds ih =>
    obtain ⟨st, c⟩ := d
    simp only [dimsHit, Bool.and_eq_true, decide_eq_true_eq] at h
    obtain ⟨e, q, h1, h2⟩ := ih h.2
    have h3 := Nat.div_add_mod o st
    by_cases hm : st % M = 0
    · obtain ⟨z, hz⟩ := Nat.dvd_of_mod_eq_zero hm
      refine ⟨e, q + z * (o / st), by simp [spanM, hm, h1], ?_⟩
      generalize o / st = w at *
      subst hz
      rw [← h3, h2]; ring
    · have h4 : st * (o / st) ≤ st * (c - 1) := Nat.mul_le_mul_left _ (by omega)
      refine ⟨e + st * (o / st), q, ?_, by omega⟩
      simp only [spanM, hm, if_false]; omega

/-- Two registers differ in their residues modulo M. -/
def apartMod (M : Nat) (x y : Nat × List (Nat × Nat)) : Bool :=
  decide (0 < M) && decide (x.1 % M + spanM M x.2 < M) && decide (y.1 % M + spanM M y.2 < M) &&
    (decide (x.1 % M + spanM M x.2 < y.1 % M) || decide (y.1 % M + spanM M y.2 < x.1 % M))

theorem residue {M b o e q : Nat} (ho : o = e + M * q) (h : b % M + e < M) : (b + o) % M = b % M + e := by
  have h3 := Nat.div_add_mod b M
  rw [ho, show b + (e + M * q) = b % M + e + M * (b / M + q) by rw [Nat.mul_add]; omega, Nat.add_mul_mod_self_left, Nat.mod_eq_of_lt h]

theorem apartMod_no {M a : Nat} {x y : Nat × List (Nat × Nat)} (h : apartMod M x y = true)
    (hx : (decide (x.1 ≤ a) && dimsHit x.2 (a - x.1)) = true) (hy : (decide (y.1 ≤ a) && dimsHit y.2 (a - y.1)) = true) : False := by
  simp only [apartMod, Bool.and_eq_true, Bool.or_eq_true, decide_eq_true_eq] at h
  simp only [Bool.and_eq_true, decide_eq_true_eq] at hx hy
  obtain ⟨e, q, h1, h2⟩ := spanM_hit (M := M) hx.2
  obtain ⟨f, r, h3, h4⟩ := spanM_hit (M := M) hy.2
  have h5 := residue (b := x.1) h2 (by omega)
  have h6 := residue (b := y.1) h4 (by omega)
  rw [show x.1 + (a - x.1) = a by omega] at h5
  rw [show y.1 + (a - y.1) = a by omega] at h6
  omega

/-- Two numbered registers (or ranges) share no address. -/
def apartNo (j k : Nat) : Bool :=
  (decide (j ≠ 266) && decide (k ≠ 266) && decide (j < 272) && decide (k < 272) && clsBlock j != clsBlock k) ||
  match clsAt j, clsAt k with
  | some x, some y => (2 ^ 32 :: x.2.map (·.1) ++ y.2.map (·.1)).any fun M => apartMod M x y
  | _, _ => false

theorem block_of_range {k a : Nat} (hk : k ≠ 266) (hl : k < 272) (h : inCls k a = true) : blockNo a = clsBlock k := by
  by_cases hs : k < 266
  · exact block_of_inCls hs h
  · have hc : clsAt k = none := by rcases (by omega : k = 267 ∨ k = 268 ∨ k = 269 ∨ k = 270 ∨ k = 271) with rfl | rfl | rfl | rfl | rfl <;> decide
    have hb : clsBlock k = [15, 15, 7, 6, 11, 13].getD (k - 266) 15 := by unfold clsBlock; rw [hc]
    unfold inCls at h
    rw [hc] at h
    rw [hb]
    have hp : ∀ x y n, x * 0x10000 ≤ a → a < y * 0x10000 → (List.range 256).all (fun p => !(decide (x ≤ p) && decide (p < y)) || blockNo (p * 0x10000) == n) = true →
        y ≤ 256 → blockNo a = n := by
      intro x y n h1 h2 h3 h4
      have h5 := List.all_eq_true.1 h3 (a / 0x10000) (List.mem_range.2 (by omega))
      have h6 : x ≤ a / 0x10000 ∧ a / 0x10000 < y := by omega
      simp only [h6.1, h6.2, decide_true, Bool.and_self, Bool.not_true, Bool.false_or, beq_iff_eq] at h5
      rw [← h5]; unfold blockNo; rw [Nat.mul_div_cancel _ (by decide)]
    rcases (by omega : k = 267 ∨ k = 268 ∨ k = 269 ∨ k = 270 ∨ k = 271) with rfl | rfl | rfl | rfl | rfl <;> dsimp only at h ⊢ <;>
      simp only [Nat.reduceSub, Bool.and_eq_true, decide_eq_true_eq] at h
    · have : 256 ≤ a / 0x10000 := by omega
      unfold blockNo
      generalize a / 0x10000 = p at *
      simp only [show ¬ p < 4 by omega, show ¬ p < 8 by omega, show ¬ p < 0x10 by omega, show ¬ p < 0x20 by omega, show ¬ p < 0x30 by omega,
        show ¬ p = 0x30 by omega, show ¬ p = 0x31 by omega, show ¬ p < 0x40 by omega, show ¬ p < 0x50 by omega, show ¬ p < 0x60 by omega,
        show ¬ p < 0x70 by omega, show ¬ p < 0x100 by omega, if_false]
      rfl
    · exact hp 0x20 0x21 7 h.1 h.2 (by decide +kernel) (by decide)
    · exact hp 0x12 0x13 6 (by omega) (by omega) (by decide +kernel) (by decide)
    · exact hp 0x40 0x50 11 h.1 h.2 (by decide +kernel) (by decide)
    · exact hp 0x60 0x70 13 h.1 h.2 (by decide +kernel) (by decide)

theorem Touch.blocks {m : Nat} {s t : State} (h : Touch m s t) (bs : List Nat)
    (hb : (regBits m).all (fun k => decide (k ≠ 266) && decide (k < 272) && bs.contains (clsBlock k)) = true) : regsOnly (fun a => blockNo a ∈ bs) s t := by
  refine h.words fun k hk a ha => ?_
  have := List.all_eq_true.1 hb k hk
  simp only [Bool.and_eq_true, decide_eq_true_eq] at this
  rw [block_of_range this.1.1 this.1.2 ha]
  simpa using this.2

theorem apartNo_no {j k a : Nat} (h : apartNo j k = true) (hj : inCls j a = true) (hk : inCls k a = true) : False := by
  unfold apartNo at h
  rcases Bool.or_eq_true_iff.1 h with h | h
  · simp only [Bool.and_eq_true, decide_eq_true_eq, bne_iff_ne] at h
    exact h.2 ((block_of_range h.1.1.1.1 h.1.1.2 hj).symm.trans (block_of_range h.1.1.1.2 h.1.2 hk))
  · split at h
    · rename_i x y h1 h2
      obtain ⟨M, _, hM⟩ := List.any_eq_true.1 h
      unfold inCls at hj hk
      rw [h1] at hj; rw [h2] at hk
      exact apartMod_no hM hj hk
    · cases h

/-- The registers of a footprint are apart from those of another. -/
def offCls (m c : Nat) : Bool := (regBits c).all fun j => (regBits m).all fun k => apartNo j k

/-- A register apart from a footprint reads as before, whatever its index. -/
theorem Touch.off {m c a : Nat} {s t : State} (h : Touch m s t) (ha : okw c a) (hc : offCls m c = true) : Machine.rd t a = Machine.rd s a := by
  obtain ⟨j, hj, hi⟩ := ha
  refine h.word a ?_
  by_contra hf
  rw [Bool.not_eq_false] at hf
  obtain ⟨k, h1, h2⟩ := List.any_eq_true.1 hf
  rw [Bool.and_eq_true] at h2
  have hj' : j ∈ regBits c := List.mem_filter.2 ⟨List.mem_range.2 (inCls_lt hi), hj⟩
  have hk' : k ∈ regBits m := List.mem_filter.2 ⟨h1, h2.1⟩
  exact apartNo_no (List.all_eq_true.1 (List.all_eq_true.1 hc j hj') k hk') hi h2.2

/-- A field of such a register. -/
theorem Touch.offF {m c a : Nat} {f : Fld} {s t : State} (h : Touch m s t) (ha : okw c a) (hc : offCls m c = true) : fget t a f = fget s a f :=
  fget_of_rd (h.off ha hc)

/-- What the change log of an accepted write leaves. -/
theorem logged_touch (w : Who) (a : Nat) (old new : Word) (st : Nat) (s : State) :
    Touch (k_logWrite ||| k_setAcc) s (setAcc 0 0 (logWrite w a old new st s)) :=
  Touch.then (setAcc_touch ..) (by decide) (Touch.then (logWrite_touch ..) (by decide) Touch.refl)

/-- An accepted write that takes effect at once leaves what its effect leaves, but for the change log. -/
theorem gated_logged {w : Who} {a : Nat} {v : Word} {eff : Eff} {s t : State} (h : accepted s w a v) (he : eff s = some t) :
    ∃ t', gated w a v eff s = t' ∧ Touch (k_logWrite ||| k_setAcc) t t' ∧ t'.host.acc = (0, 0) ∧ ∀ b, ¬ logAddr b → rd t' b = rd t b := by
  obtain ⟨t', e, rfl, ha, hr⟩ := gated_parts h he
  exact ⟨_, e, logged_touch .., ha, hr⟩

end Sys2Proof.Laws
end

