-- ==== Sys2Proof/Laws/Facts.lean ====
section
/-! SUPPORT. What shared operations give beside their frames: words far from the sediment queues and the change log, causes and reactions, the delay lists. -/

namespace Sys2Proof.Laws
open Sys2Proof Sys2Proof.Machine R

/-! ### Words outside the host block -/

/-- A change of hidden state leaves the words. -/
theorem rd_of_regs {s t : State} (h : t.regs = s.regs) (a : Nat) : Machine.rd t a = Machine.rd s a := by unfold Machine.rd; rw [h]
theorem fget_of_regs {s t : State} (h : t.regs = s.regs) (a : Nat) (f : Fld) : fget t a f = fget s a f := fget_of_rd (rd_of_regs h a)

theorem sedAddr_range {b a : Nat} (h : sedAddr b a = true) : 0x701000 ≤ a ∧ a < 0x702000 := by
  rcases sedAddr_iff.1 h with h | ⟨i, k, _, _, h⟩ <;> subst h
  · unfold DIAG_STATUS; omega
  · unfold SED; omega

theorem logAddr_range {a : Nat} (h : logAddr a = true) : a = 0x10060 ∨ 0x700000 ≤ a := by
  rcases logAddr_iff.1 h with h | h | h <;> subst h <;> decide

theorem rd_sediment_lo {b sev code ctx : Nat} {s : State} {a : Nat} (h : a < 0x701000) : rd (sediment b sev code ctx s) a = rd s a :=
  rd_sediment fun k => absurd (sedAddr_range k).1 (by omega)

theorem fget_sediment_lo {b sev code ctx : Nat} {s : State} {a : Nat} {f : Fld} (h : a < 0x701000) :
    fget (sediment b sev code ctx s) a f = fget s a f := fget_of_rd (rd_sediment_lo h)

theorem rd_w1cSet_lo {a obj b : Nat} {f : Fld} {s : State} (h : b ≠ a) (hb : b < 0x701000) : rd (w1cSet a f obj s) b = rd s b :=
  rd_w1cSet h fun k => absurd (sedAddr_range k).1 (by omega)

theorem fget_w1cSet_lo {a obj : Nat} {f : Fld} {s : State} (hf : f.lo = f.hi ∧ f.hi < 32) (h : a < 0x701000) :
    fget (w1cSet a f obj s) a f = 1 := fget_w1cSet hf fun k => absurd (sedAddr_range k).1 (by omega)

theorem fbit_w1cSet_lo {a obj : Nat} {f : Fld} {s : State} (hf : f.lo = f.hi ∧ f.hi < 32) (h : a < 0x701000) : fbit (w1cSet a f obj s) a f = true := by
  unfold fbit; rw [fget_w1cSet_lo hf h]; rfl

theorem fbit_w1cSet_apart_lo {a obj : Nat} {f g : Fld} {s : State} (hf : fldOk f) (hg : fldOk g) (ha : fldApart f g) (h : a < 0x701000) :
    fbit (w1cSet a f obj s) a g = fbit s a g := by
  unfold fbit; rw [show fget (w1cSet a f obj s) a g = fget s a g from fget_w1cSet_apart hf hg ha fun k => absurd (sedAddr_range k).1 (by omega)]

theorem fbit_of_rd {s t : State} {a : Nat} {f : Fld} (h : rd t a = rd s a) : fbit t a f = fbit s a f := by unfold fbit; rw [fget_of_rd h]

theorem fbit_fput_apart {s : State} {a : Nat} {f g : Fld} (h : fldOk f) (hg : fldOk g) (ha : fldApart f g) (b : Bool) :
    fbit (fput s a f b) a g = fbit s a g := by unfold fbit fput; rw [fget_fset_apart h hg ha]

theorem fbit_fput_other {s : State} {a b : Nat} {f g : Fld} (h : b ≠ a) (x : Bool) : fbit (fput s a f x) b g = fbit s b g := by
  unfold fbit fput; rw [fget_fset_other h]

theorem fget_w1cSet_apart_lo {a obj : Nat} {f g : Fld} {s : State} (hf : fldOk f) (hg : fldOk g) (ha : fldApart f g) (h : a < 0x701000) :
    fget (w1cSet a f obj s) a g = fget s a g := fget_w1cSet_apart hf hg ha fun k => absurd (sedAddr_range k).1 (by omega)

/-- Bit i of a word is its one-bit field. -/
theorem fbit_testBit {s : State} {a : Nat} {i : Nat} : fbit s a ⟨i, i⟩ = (rd s a).toNat.testBit i := by
  unfold fbit fget fieldOf
  rw [Nat.testBit_eq_decide_div_mod_eq]
  simp only [Nat.sub_self]
  rfl

/-! ### Causes and reactions -/

/-- The parts two states agree on give the accessors they agree on. -/
theorem axl_of {s t : State} (h : samePart s t .lawAx) (n : Nat) : t.axl n = s.axl n := by
  have h : t.law.ax = s.law.ax := h
  unfold State.axl; rw [h]

theorem ctx_of {s t : State} (h : samePart s t .coreCtx) (n : Nat) : t.ctx n = s.ctx n := by
  have h : t.core.ctx = s.core.ctx := h
  unfold State.ctx; rw [h]
theorem fb_of {s t : State} (h : samePart s t .coreFb) (n : Nat) : t.fb n = s.fb n := by
  have h : t.core.fb = s.core.fb := h
  unfold State.fb; rw [h]
theorem region_of {s t : State} (h : samePart s t .coreRegion) (n : Nat) : t.region n = s.region n := by
  have h : t.core.region = s.core.region := h
  unfold State.region; rw [h]
theorem src_of {s t : State} (h : samePart s t .angSrc) (n : Nat) : t.src n = s.src n := by
  have h : t.ang.src = s.ang.src := h
  unfold State.src; rw [h]
theorem dl_of {s t : State} (h : samePart s t .schDl) (n : Nat) : t.dl n = s.dl n := by
  have h : t.sch.dl = s.sch.dl := h
  unfold State.dl; rw [h]
theorem unit_of {s t : State} (h : samePart s t .schUnit) (n : Nat) : t.unit n = s.unit n := by
  have h : t.sch.unit = s.sch.unit := h
  unfold State.unit; rw [h]
theorem gen_of {s t : State} (h : samePart s t .motGen) (n : Nat) : t.gen n = s.gen n := by
  have h : t.mot.gen = s.mot.gen := h
  unfold State.gen; rw [h]
theorem co_of {s t : State} (h : samePart s t .motCo) (n : Nat) : t.co n = s.co n := by
  have h : t.mot.co = s.mot.co := h
  unfold State.co; rw [h]
theorem link_of {s t : State} (h : samePart s t .netLink) (n : Nat) : t.link n = s.link n := by
  have h : t.net.link = s.net.link := h
  unfold State.link; rw [h]
theorem seg_of {s t : State} (h : samePart s t .netSeg) (n : Nat) : t.seg n = s.seg n := by
  have h : t.net.seg = s.net.seg := h
  unfold State.seg; rw [h]
theorem node_of {s t : State} (h : samePart s t .netNode) (n : Nat) : t.node n = s.node n := by
  have h : t.net.node = s.net.node := h
  unfold State.node; rw [h]
theorem axn_of {s t : State} (h : samePart s t .netAx) (n : Nat) : t.axn n = s.axn n := by
  have h : t.net.ax = s.net.ax := h
  unfold State.axn; rw [h]
theorem hport_of {s t : State} (h : samePart s t .hostPort) (n : Nat) : t.hport n = s.hport n := by
  have h : t.host.port = s.host.port := h
  unfold State.hport; rw [h]
theorem lan_of {s t : State} (h : samePart s t .lane) (n : Nat) : t.lan n = s.lan n := by
  have h : t.lane = s.lane := h
  unfold State.lan; rw [h]
theorem chan_of {s t : State} (h : samePart s t .edgeChan) (n : Nat) : t.chan n = s.chan n := by
  have h : t.edge.chan = s.edge.chan := h
  unfold State.chan; rw [h]
theorem tout_of {s t : State} (h : samePart s t .edgeOut) (n : Nat) : t.tout n = s.tout n := by
  have h : t.edge.out = s.edge.out := h
  unfold State.tout; rw [h]
theorem encIf_of {s t : State} (h : samePart s t .edgeEnc) (n : Nat) : t.encIf n = s.encIf n := by
  have h : t.edge.enc = s.edge.enc := h
  unfold State.encIf; rw [h]
theorem zone_of {s t : State} (h : samePart s t .safeZone) (n : Nat) : t.zone n = s.zone n := by
  have h : t.safe.zone = s.safe.zone := h
  unfold State.zone; rw [h]
theorem shadow_of {s t : State} (h : samePart s t .pairShadow) (n : Nat) : t.shadow n = s.shadow n := by
  have h : t.pair.shadow = s.pair.shadow := h
  unfold State.shadow; rw [h]
theorem ready_of {s t : State} (h : samePart s t .schReady) (g c : Nat) : t.ready g c = s.ready g c := by
  have h : t.sch.ready = s.sch.ready := h
  unfold State.ready; rw [h]

theorem axl_sediment {b sev c x n : Nat} {s : State} : (sediment b sev c x s).axl n = s.axl n := axl_of ((sediment_touch ..).same .lawAx rfl) n
theorem axl_w1cSet {a o n : Nat} {f : Fld} {s : State} : (w1cSet a f o s).axl n = s.axl n := by
  unfold w1cSet; split
  · rfl
  · exact axl_sediment

@[simp] theorem axl_setGen' {m n : Nat} {x : Gen} {s : State} : (s.setGen m x).axl n = s.axl n := by unfold State.axl; rw [setGen_law]
theorem causes_outputsOff {n : Nat} {s : State} : ((outputsOff n s).axl n).causes = (s.axl n).causes := by unfold outputsOff; simp

@[simp] theorem axl_fset {a v n : Nat} {f : Fld} {s : State} : (fset s a f v).axl n = s.axl n := by unfold fset; simp
@[simp] theorem axl_showSrc {m n : Nat} {s : State} : (showSrc m s).axl n = s.axl n := axl_fset
@[simp] theorem fget_setGen {n a : Nat} {x : Gen} {f : Fld} {s : State} : fget (s.setGen n x) a f = fget s a f := by unfold fget; rw [rd_setGen]

theorem fget_showSrc {n : Nat} {s : State} {f : Fld} (h : fldOk f) (ha : fldApart AX_STATUS_SRC f) :
    fget (showSrc n s) (AX_STATUS n) f = fget s (AX_STATUS n) f := fget_fset_apart (by decide) h ha _

@[simp] theorem rd_outputsOff {n a : Nat} {s : State} : rd (outputsOff n s) a = rd s a := by unfold outputsOff; exact rd_setAxl ..
@[simp] theorem fget_outputsOff {n a : Nat} {f : Fld} {s : State} : fget (outputsOff n s) a f = fget s a f := fget_of_rd rd_outputsOff

theorem axStatus_clearInit {n : Nat} {s : State} : fget (clearInit n s) (AX_STATUS n) AX_STATUS_REACT = fget s (AX_STATUS n) AX_STATUS_REACT := by
  unfold clearInit; dsimp only; unfold fput
  rw [fget_fset_apart (by decide) (by decide) (by decide), fget_fset_apart (by decide) (by decide) (by decide)]
  exact (Touch.offF (putState_touch _ _ _) (okw_AX_STATUS (m := 0x20000000000000000000000000000000000000000000000000000000000000000000) (by decide)) (by decide +kernel))

theorem axFault_clearInit {n : Nat} {s : State} : fget (clearInit n s) (AX_STATUS n) AX_STATUS_FAULT = fget s (AX_STATUS n) AX_STATUS_FAULT := by
  unfold clearInit; dsimp only; unfold fput
  rw [fget_fset_apart (by decide) (by decide) (by decide), fget_fset_apart (by decide) (by decide) (by decide)]
  exact (Touch.offF (putState_touch _ _ _) (okw_AX_STATUS (m := 0x20000000000000000000000000000000000000000000000000000000000000000000) (by decide)) (by decide +kernel))

/-- An operation after another: the union of the footprints. -/
theorem Touch.trans {m n : Nat} {r s t : State} (h : Touch m s t) (h0 : Touch n r s) : Touch (m ||| n) r t := by
  have e1 : m &&& (m ||| n) = m := by apply Nat.eq_of_testBit_eq; intro i; rw [Nat.testBit_and, Nat.testBit_or]; cases m.testBit i <;> simp
  have e2 : n &&& (m ||| n) = n := by apply Nat.eq_of_testBit_eq; intro i; rw [Nat.testBit_and, Nat.testBit_or]; cases n.testBit i <;> simp
  exact Touch.then (m := m ||| n) ⟨fun p hp => h.same p (bit_sub e1 hp), fun a ha => h.word a (foot_sub e1 ha), h.canon, h.pins, h.pending⟩ (by
    rw [Nat.and_self]) ⟨fun p hp => h0.same p (bit_sub e2 hp), fun a ha => h0.word a (foot_sub e2 ha), h0.canon, h0.pins, h0.pending⟩

theorem fget_pfEvent_AX {n c k : Nat} {f : Option Fld} {g : Fld} {s : State} : fget (pfEvent n c f s) (AX_STATUS k) g = fget s (AX_STATUS k) g :=
  (Touch.offF (pfEvent_touch _ _ _ _) (okw_AX_STATUS (m := 0x20000000000000000000000000000000000000000000000000000000000000000000) (by decide)) (by decide +kernel))

/-- A reaction leaves the causes and the record of the last one; REACT is the more severe one, FAULT its cause (R125, R127). -/
theorem react_gives {n code r : Nat} {s : State} (hr : r ≤ 4) (hc : code < 16) :
    ((react n code r s).axl n).causes = (s.axl n).causes ∧ fget (react n code r s) (AX_FAULT n) AX_FAULT_LAST = fget s (AX_FAULT n) AX_FAULT_LAST ∧
      fget (react n code r s) (AX_STATUS n) AX_STATUS_REACT = max r (fget s (AX_STATUS n) AX_STATUS_REACT) ∧
      (fget s (AX_STATUS n) AX_STATUS_REACT < r → fget (react n code r s) (AX_STATUS n) AX_STATUS_FAULT = code) ∧
      (fget s (AX_STATUS n) AX_STATUS_REACT < 4 → r = 4 → ((react n code r s).axl n).off = true) := by
  have A : ((react n code r s).axl n).causes = (s.axl n).causes ∧
      fget (react n code r s) (AX_STATUS n) AX_STATUS_REACT = max r (fget s (AX_STATUS n) AX_STATUS_REACT) ∧
      (fget s (AX_STATUS n) AX_STATUS_REACT < r → fget (react n code r s) (AX_STATUS n) AX_STATUS_FAULT = code) ∧
      (fget s (AX_STATUS n) AX_STATUS_REACT < 4 → r = 4 → ((react n code r s).axl n).off = true) := by
    unfold react
    split
    · rename_i h; exact ⟨rfl, by omega, by omega, by omega⟩
    rename_i hlt
    dsimp only
    rw [max_eq_left (by omega)]
    generalize hu : fset (fset s (AX_STATUS n) AX_STATUS_REACT r) (AX_STATUS n) AX_STATUS_FAULT code = u
    have h1 : u.axl n = s.axl n := by rw [← hu, axl_fset, axl_fset]
    have h1r : fget u (AX_STATUS n) AX_STATUS_REACT = r := by
      rw [← hu, fget_fset_apart (by decide) (by decide) (by decide), fget_fset (by decide)]; exact Nat.mod_eq_of_lt (lt_of_le_of_lt hr (by decide))
    have h1f : fget u (AX_STATUS n) AX_STATUS_FAULT = code := by
      rw [← hu, fget_fset (by decide)]; exact Nat.mod_eq_of_lt (lt_of_lt_of_le hc (by decide))
    clear hu
    generalize hv : (if gmode u n = 5 then _ else u) = v
    have h2 : v.axl n = u.axl n := by
      rw [← hv]
      refine ite_k (P := fun v : State => v.axl n = u.axl n) ?_ rfl
      rw [axl_of ((pfEvent_touch ..).same .lawAx rfl), axl_sediment, axl_fset, axl_fset]
    have h2r : ∀ f, fget v (AX_STATUS n) f = fget u (AX_STATUS n) f := fun f => by
      rw [← hv]
      refine ite_k (P := fun v : State => fget v (AX_STATUS n) f = fget u (AX_STATUS n) f) ?_ rfl
      refine fget_pfEvent_AX.trans ?_
      rw [fget_sediment_lo (by unfold AX_STATUS; omega), fget_fset_other (by unfold AX_STATUS PF_HOME_STATUS; omega),
        fget_fset_other (by unfold AX_STATUS PF_HOME_STATUS; omega)]
    clear hv
    split
    · refine ⟨?_, ?_, fun _ => ?_, fun _ _ => ?_⟩
      · rw [axl_showSrc, axl_of ((genOff_touch ..).same .lawAx rfl), axl_of ((clearInit_touch ..).same .lawAx rfl), causes_outputsOff, h2, h1]
      · rw [fget_showSrc (by decide) (by decide), (Touch.offF (genOff_touch _ _) (okw_AX_STATUS (m := 0x20000000000000000000000000000000000000000000000000000000000000000000) (by decide)) (by decide +kernel)), axStatus_clearInit, fget_outputsOff, h2r, h1r]
      · rw [fget_showSrc (by decide) (by decide), (Touch.offF (genOff_touch _ _) (okw_AX_STATUS (m := 0x20000000000000000000000000000000000000000000000000000000000000000000) (by decide)) (by decide +kernel)), axFault_clearInit, fget_outputsOff, h2r, h1f]
      · rw [axl_showSrc, axl_of ((genOff_touch ..).same .lawAx rfl), axl_of ((clearInit_touch ..).same .lawAx rfl)]
        unfold outputsOff; simp
    · refine ⟨?_, ?_, fun _ => ?_, fun _ h => by omega⟩
      · rw [axl_showSrc, h2, h1]
      · rw [fget_showSrc (by decide) (by decide), h2r, h1r]
      · rw [fget_showSrc (by decide) (by decide), h2r, h1f]
    · rename_i h4 _
      refine ⟨?_, ?_, fun _ => ?_, fun _ h => absurd h h4⟩
      · rw [axl_showSrc, axl_setGen', h2, h1]
      · rw [fget_showSrc (by decide) (by decide), fget_setGen, h2r, h1r]
      · rw [fget_showSrc (by decide) (by decide), fget_setGen, h2r, h1f]
  exact ⟨A.1, (Touch.offF (react_touch _ _ _ _) (okw_AX_FAULT (m := 0x40000000000000000000000000000000000000000000000000000000000000000000) (by decide)) (by decide +kernel)), A.2⟩

theorem reactionOf_le {s : State} {n code : Nat} : reactionOf s n code ≤ 4 := by
  unfold reactionOf; dsimp only
  exact ite_k (P := fun x : Nat => x ≤ 4) (Nat.le_refl _) (Nat.min_le_right ..)

theorem reactionOf_of {s t : State} {n code : Nat} (hr : rd t (AX_FREACT n) = rd s (AX_FREACT n)) (hc : t.ctx n = s.ctx n) :
    reactionOf t n code = reactionOf s n code := by
  unfold reactionOf; simp only [fget_of_rd hr, hc]

/-- A cause raised anew is kept, recorded and answered by its reaction (R124, R125). -/
theorem raiseCause_gives {n code : Nat} {s : State} (hc : 1 ≤ code ∧ code < 16) (h : (s.axl n).causes.testBit (code - 1) = false) :
    ((raiseCause n code s).axl n).causes = (s.axl n).causes ||| 2 ^ (code - 1) ∧
    fget (raiseCause n code s) (AX_FAULT n) AX_FAULT_LAST = code ∧
    fget (raiseCause n code s) (AX_STATUS n) AX_STATUS_REACT = max (reactionOf s n code) (fget s (AX_STATUS n) AX_STATUS_REACT) := by
  unfold raiseCause
  simp only [h, Bool.false_eq_true, if_false]
  generalize hu : State.setAxl s n { s.axl n with causes := (s.axl n).causes ||| 2 ^ (code - 1) } = u
  have hux : (u.axl n).causes = (s.axl n).causes ||| 2 ^ (code - 1) := by rw [← hu]; simp
  have hur : u.regs = s.regs := by rw [← hu, setAxl_regs]
  have huc : u.ctx n = s.ctx n := by unfold State.ctx; rw [← hu, setAxl_core]
  clear hu
  generalize hv : w1cSet (AX_FAULT n) ⟨code - 1, code - 1⟩ n (fincSat (fset u (AX_FAULT n) AX_FAULT_LAST code) (AX_FAULT n) AX_FAULT_COUNT) = v
  generalize hcd : 0x0200 + code = cd
  have e1 : v.axl n = u.axl n := by rw [← hv, axl_w1cSet]; unfold fincSat; rw [axl_fset, axl_fset]
  have e2 : fget v (AX_FAULT n) AX_FAULT_LAST = code := by
    rw [← hv, fget_w1cSet_apart_lo ⟨by simp, by simp; omega⟩ (by decide) (by unfold fldApart AX_FAULT_LAST; simp; omega) (by unfold AX_FAULT; omega)]
    unfold fincSat; dsimp only
    rw [fget_fset_apart (by decide) (by decide) (by decide), fget_fset (by decide)]
    exact Nat.mod_eq_of_lt (by simp only [AX_FAULT_LAST]; omega)
  have e3 : reactionOf (sediment 6 sevFault cd n v) n code = reactionOf s n code := by
    refine reactionOf_of ?_ ?_
    · rw [rd_sediment_lo (by unfold AX_FREACT; omega), ← hv, rd_w1cSet_lo (by unfold AX_FREACT AX_FAULT; omega) (by unfold AX_FREACT; omega)]
      unfold fincSat; dsimp only
      rw [rd_fset_other (by unfold AX_FREACT AX_FAULT; omega), rd_fset_other (by unfold AX_FREACT AX_FAULT; omega)]
      unfold rd; rw [hur]
    · unfold State.ctx
      rw [show (sediment 6 sevFault cd n v).core.ctx = v.core.ctx from (sediment_touch ..).same .coreCtx rfl, ← hv,
        show (w1cSet (AX_FAULT n) ⟨code - 1, code - 1⟩ n (fincSat (fset u (AX_FAULT n) AX_FAULT_LAST code) (AX_FAULT n) AX_FAULT_COUNT)).core.ctx = _ from
        (w1cSet_w (by decide) Touch.refl (okw_AX_FAULT (by decide)) : Touch (k_w1cSet ||| 0x40000000000000000000000000000000000000000000000000000000000000000000) (fincSat (fset u (AX_FAULT n) AX_FAULT_LAST code) (AX_FAULT n) AX_FAULT_COUNT) _).same .coreCtx rfl]
      simp only [fincSat, fset, wr_core]
      exact huc
  have e4 : fget v (AX_STATUS n) AX_STATUS_REACT = fget s (AX_STATUS n) AX_STATUS_REACT := by
    refine fget_of_rd ?_
    rw [← hv, rd_w1cSet_lo (by unfold AX_STATUS AX_FAULT; omega) (by unfold AX_STATUS; omega)]
    unfold fincSat; dsimp only
    rw [rd_fset_other (by unfold AX_STATUS AX_FAULT; omega), rd_fset_other (by unfold AX_STATUS AX_FAULT; omega)]
    unfold rd; rw [hur]
  rw [e3]
  obtain ⟨r1, r2, r3, _⟩ := react_gives (n := n) (code := code) (s := sediment 6 sevFault cd n v) (reactionOf_le (s := s) (n := n) (code := code)) hc.2
  refine ⟨?_, ?_, ?_⟩
  · rw [r1, axl_sediment, e1, hux]
  · rw [r2, fget_sediment_lo (by unfold AX_FAULT; omega), e2]
  · rw [r3, fget_sediment_lo (by unfold AX_STATUS; omega), e4]

/-! ### Modes and tiles -/

theorem fget_setAxl {n a : Nat} {x : AxLaw} {f : Fld} {s : State} : fget (s.setAxl n x) a f = fget s a f := fget_of_rd (rd_setAxl ..)

/-- Entry into OFF: the mode, the outputs, and what stays (R116). -/
theorem enterOff_gives {n : Nat} {s : State} :
    axMode (enterOff n s) n = 0 ∧ ((enterOff n s).axl n).off = true ∧ ((enterOff n s).axl n).causes = (s.axl n).causes ∧
      fget (enterOff n s) (AX_STATUS n) AX_STATUS_REACT = fget s (AX_STATUS n) AX_STATUS_REACT ∧
      fget (enterOff n s) (AX_STATUS n) AX_STATUS_FAULT = fget s (AX_STATUS n) AX_STATUS_FAULT ∧
      fget (enterOff n s) (AX_STATUS n) AX_STATUS_SRC = 0 := by
  unfold enterOff
  have e1 : ∀ f, fget (genOff n (clearInit n (outputsOff n (fset s (AX_CTRL n) AX_CTRL_MODE 0)))) (AX_CTRL n) f = fget (fset s (AX_CTRL n) AX_CTRL_MODE 0) (AX_CTRL n) f := fun f => by
    rw [(Touch.offF (genOff_touch _ _) (okw_AX_CTRL (m := 0x10000000000000000000000000000000000000000000000000000000000000000000) (by decide)) (by decide +kernel)), (Touch.offF (clearInit_touch _ _) (okw_AX_CTRL (m := 0x10000000000000000000000000000000000000000000000000000000000000000000) (by decide)) (by decide +kernel)), fget_outputsOff]
  have e2 : axMode (genOff n (clearInit n (outputsOff n (fset s (AX_CTRL n) AX_CTRL_MODE 0)))) n = 0 := by
    unfold axMode; rw [e1, fget_fset (by decide)]; rfl
  refine ⟨?_, ?_, ?_, ?_, ?_, ?_⟩
  · unfold axMode showSrc
    rw [fget_fset_other (by unfold AX_CTRL AX_STATUS; omega)]; exact e2
  · rw [axl_showSrc, axl_of ((genOff_touch ..).same .lawAx rfl), axl_of ((clearInit_touch ..).same .lawAx rfl)]; unfold outputsOff; simp
  · rw [axl_showSrc, axl_of ((genOff_touch ..).same .lawAx rfl), axl_of ((clearInit_touch ..).same .lawAx rfl), causes_outputsOff, axl_fset]
  · rw [fget_showSrc (by decide) (by decide), (Touch.offF (genOff_touch _ _) (okw_AX_STATUS (m := 0x20000000000000000000000000000000000000000000000000000000000000000000) (by decide)) (by decide +kernel)), axStatus_clearInit, fget_outputsOff, fget_fset_other (by unfold AX_CTRL AX_STATUS; omega)]
  · rw [fget_showSrc (by decide) (by decide), (Touch.offF (genOff_touch _ _) (okw_AX_STATUS (m := 0x20000000000000000000000000000000000000000000000000000000000000000000) (by decide)) (by decide +kernel)), axFault_clearInit, fget_outputsOff, fget_fset_other (by unfold AX_CTRL AX_STATUS; omega)]
  · unfold showSrc
    rw [fget_fset (by decide)]
    unfold srcOf; rw [e2]; rfl

/-- SRC shows the source in force. -/
theorem fget_showSrc_src {n : Nat} {s : State} : fget (showSrc n s) (AX_STATUS n) AX_STATUS_SRC = srcOf (showSrc n s) n := by
  have hr : ∀ f, f = AX_STATUS_REACT → fget (showSrc n s) (AX_STATUS n) f = fget s (AX_STATUS n) f := by rintro f rfl; exact fget_showSrc (by decide) (by decide)
  have hm : axMode (showSrc n s) n = axMode s n := by unfold axMode showSrc; exact fget_fset_other (by unfold AX_CTRL AX_STATUS; omega) _
  have e : srcOf (showSrc n s) n = srcOf s n := by unfold srcOf; rw [hm, hr _ rfl, axl_showSrc]
  rw [e]
  unfold showSrc
  rw [fget_fset (by decide)]
  refine Nat.mod_eq_of_lt (lt_of_le_of_lt (b := 4) ?_ (by decide))
  unfold srcOf
  repeat' split
  all_goals decide

theorem srcOf_of {n : Nat} {s t : State} (h1 : rd t (AX_CTRL n) = rd s (AX_CTRL n)) (h2 : rd t (AX_STATUS n) = rd s (AX_STATUS n)) (h3 : t.axl n = s.axl n) :
    srcOf t n = srcOf s n := by unfold srcOf axMode; rw [fget_of_rd h1, fget_of_rd h2, h3]

/-- SRC still shows the source in force when later operations leave what it rests on. -/
theorem showSrc_later {n : Nat} {s t : State} (h1 : rd t (AX_CTRL n) = rd (showSrc n s) (AX_CTRL n))
    (h2 : rd t (AX_STATUS n) = rd (showSrc n s) (AX_STATUS n)) (h3 : t.axl n = (showSrc n s).axl n) :
    fget t (AX_STATUS n) AX_STATUS_SRC = srcOf t n := by rw [fget_of_rd h2, fget_showSrc_src, srcOf_of h1 h2 h3]

theorem not_log {a : Nat} (h : a < 0x700000 ∧ a ≠ 0x10060) : ¬ logAddr a = true := fun k => by have := logAddr_range k; omega

/-- The last field a write takes is the value written. -/
theorem applied_low {l : List Row} {old v : Word} {b : Nat} {d : List (Nat × Nat)} {k r : Nat} (hk : k < 32) :
    fieldOf (applied { base := b, dims := d, rows := l ++ [⟨k, 0, .rw, r⟩] } old v) ⟨k, 0⟩ = fieldOf v ⟨k, 0⟩ := by
  have hm : ∀ n : Nat, n &&& rowMask ⟨k, 0, .rw, r⟩ = n % 2 ^ (k + 1) := fun n => by
    have e : rowMask ⟨k, 0, .rw, r⟩ = 2 ^ (k + 1) - 1 := by unfold rowMask; simp
    rw [e, Nat.and_two_pow_sub_one_eq_mod]
  unfold fieldOf applied
  dsimp only
  rw [List.foldl_append]
  simp only [List.foldl_cons, List.foldl_nil, BitVec.toNat_ofNat, pow_zero, Nat.div_one, Nat.sub_zero, hm]
  generalize List.foldl _ _ l = n
  have hd : 2 ^ (k + 1) ∣ 2 ^ 32 := pow_dvd_pow 2 (by omega)
  rw [Nat.mod_mod_of_dvd _ hd]
  have h1 : n - n % 2 ^ (k + 1) = 2 ^ (k + 1) * (n / 2 ^ (k + 1)) := by have := Nat.div_add_mod n (2 ^ (k + 1)); omega
  rw [h1, Nat.mul_add_mod, Nat.mod_mod]

theorem gen_fset {a v n : Nat} {f : Fld} {s : State} : (fset s a f v).gen n = s.gen n := by unfold fset; simp
theorem gen_pfResult {n k c : Nat} {s : State} : (pfResult n c s).gen k = s.gen k := by unfold pfResult wrN; simp
theorem rd_pfResult {n c : Nat} {s : State} : rd (pfResult n c s) (PF_RESULT n) = BitVec.ofNat 32 (2 ^ 31 + c) := by unfold pfResult wrN; simp

/-- A queue set anew: the queue and QDEPTH, nothing else of the generator. -/
theorem setQueue_gives {n : Nat} {q : List Int} {s : State} (hq : q.length < 8) :
    (setQueue n q s).gen n = { s.gen n with queue := q } ∧ fget (setQueue n q s) (PF_STATUS n) PF_STATUS_QDEPTH = q.length := by
  unfold setQueue fput; dsimp only
  refine ⟨by rw [gen_fset, gen_fset, gen_setGen_same], ?_⟩
  rw [fget_fset_apart (by decide) (by decide) (by decide), fget_fset (by decide)]
  exact Nat.mod_eq_of_lt (lt_of_lt_of_le hq (by decide))

theorem gen_modGen {n : Nat} {f : Gen → Gen} {s : State} : (modGen n f s).gen n = f (s.gen n) := by unfold modGen; simp
theorem rd_modGen {n a : Nat} {f : Gen → Gen} {s : State} : rd (modGen n f s) a = rd s a := by unfold modGen; simp

/-- A request to the generator: accepted at once, taken at the next tick (R136). -/
theorem request_gives {n : Nat} {r : GReq} {s : State} :
    ((request n r s).gen n).req = some r ∧ ((request n r s).gen n).ripe = false ∧ rd (request n r s) (PF_RESULT n) = BitVec.ofNat 32 (2 ^ 31) := by
  unfold request
  rw [gen_pfResult, gen_modGen, rd_pfResult]
  exact ⟨rfl, rfl, rfl⟩

theorem rd_wrWords {a : Nat} {l : List Word} {s : State} {b : Nat} :
    (∀ i, i < l.length → b ≠ a + 4 * i) → rd (wrWords s a l) b = rd s b := by
  induction l generalizing a s with
  | nil => intro _; rfl
  | cons w l ih =>
    intro h
    unfold wrWords
    rw [ih (fun i hi => by have := h (i + 1) (by simpa using hi); omega), rd_wr_other _ _ (by have := h 0 (by simp); omega)]

theorem rd_wrWords_at {a : Nat} {l : List Word} {s : State} {i : Nat} (hi : i < l.length) : rd (wrWords s a l) (a + 4 * i) = l.getD i 0 := by
  induction l generalizing a s i with
  | nil => simp at hi
  | cons w l ih =>
    unfold wrWords
    cases i with
    | zero => rw [rd_wrWords (fun j hj => by omega)]; simp
    | succ i => rw [show a + 4 * (i + 1) = a + 4 + 4 * i by omega, ih (by simpa using hi)]; rfl

theorem rd_wrRange_other {a b c : Nat} {l : List (Nat × Word)} {s : State} (h : ¬ (a ≤ c ∧ c < b)) : rd (wrRange a b l s) c = rd s c := by
  unfold wrRange
  refine foldl_k (P := fun t : State => rd t c = rd s c) (fun t e ht => ?_) rfl
  split
  · rename_i hk
    rw [Bool.and_eq_true, decide_eq_true_eq, decide_eq_true_eq] at hk
    rw [rd_wr_other _ _ (by rintro rfl; exact h hk)]; exact ht
  · exact ht

theorem law_wrRange {a b : Nat} {l : List (Nat × Word)} {s : State} : (wrRange a b l s).law = s.law := by
  unfold wrRange
  refine foldl_k (P := fun t : State => t.law = s.law) (fun t e ht => ?_) rfl
  split
  · rw [wr_law]; exact ht
  · exact ht

/-- A register page set anew leaves the words outside it. -/
theorem rd_resetWords_other {a n c : Nat} {s : State} (h : ¬ (a ≤ c ∧ c < a + 4 * n)) : rd (resetWords a n s) c = rd s c := by
  unfold resetWords imageRewrite
  rw [rd_wrRange_other h]
  have : ∀ (l : List Nat) (t : State), (∀ i ∈ l, i < n) → rd t c = rd s c → rd (eachN l (fun i s => wr s (a + 4 * i) (regReset (a + 4 * i))) t) c = rd s c := by
    intro l
    induction l with
    | nil => exact fun t _ ht => ht
    | cons i l ih =>
      intro t hl ht
      have hi := hl i (List.mem_cons_self ..)
      exact ih _ (fun j hj => hl j (List.mem_cons_of_mem _ hj)) (by rw [rd_wr_other _ _ (by omega)]; exact ht)
  exact this _ _ (fun i hi => List.mem_range.1 hi) rfl

theorem law_resetWords {a n : Nat} {s : State} : (resetWords a n s).law = s.law := by
  unfold resetWords imageRewrite
  rw [law_wrRange]
  exact eachN_k (P := fun t : State => t.law = s.law) (fun i t ht => by rw [wr_law]; exact ht) rfl

theorem rd_wrAll_other {reg : Nat → Nat} {i : Nat} {l : List Word} {s : State} {a : Nat} (h : ∀ j, a ≠ reg j) : rd (wrAll reg i l s) a = rd s a := by
  induction l generalizing i s with
  | nil => rfl
  | cons w l ih => unfold wrAll; rw [ih, rd_wr_other _ _ (h i)]

theorem rd_wrAll {reg : Nat → Nat} {i n : Nat} {l : List Word} {s : State} (hi : ∀ j k, j < n → k < n → reg j = reg k → j = k) (hl : i + l.length ≤ n)
    {j : Nat} (hj : j < n) : rd (wrAll reg i l s) (reg j) = if i ≤ j ∧ j < i + l.length then l.getD (j - i) 0 else rd s (reg j) := by
  induction l generalizing i s with
  | nil => unfold wrAll; rw [if_neg (by simp)]
  | cons w l ih =>
    unfold wrAll
    rw [ih (by simp at hl ⊢; omega)]
    simp only [List.length_cons] at hl ⊢
    by_cases h : j = i
    · subst h
      rw [if_neg (by omega), rd_wr_same, if_pos (by omega)]; simp
    · by_cases h2 : i + 1 ≤ j ∧ j < i + 1 + l.length
      · rw [if_pos h2, if_pos (by omega), show j - i = (j - (i + 1)) + 1 by omega]; simp
      · rw [if_neg h2, if_neg (by omega), rd_wr_other]
        intro e; exact h (hi j i hj (by omega) e)

theorem lawTile_inj {n j k : Nat} (hj : j < 64) (hk : k < 64) (h : LAW_TILE n j = LAW_TILE n k) : j = k := by unfold LAW_TILE at h; omega

theorem rd_mem_rdWords {s : State} {a i n : Nat} (h : i < n) : (rdWords s a n).getD i 0 = rd s (a + 4 * i) := by
  unfold rdWords; simp [List.getD_eq_getElem?_getD, h]

theorem length_rdWords {s : State} {a n : Nat} : (rdWords s a n).length = n := by unfold rdWords; simp


/-! ### What the small operations leave alone, field by field -/

@[simp] theorem fset_core (s : State) (a : Nat) (f : R.Fld) (v : Nat) : (fset s a f v).core = s.core := wr_core ..
@[simp] theorem fput_core (s : State) (a : Nat) (f : R.Fld) (b : Bool) : (fput s a f b).core = s.core := wr_core ..
@[simp] theorem wrN_core (s : State) (a v : Nat) : (wrN s a v).core = s.core := wr_core ..
theorem storeEntry_core (b v c x : Nat) (s : State) : (storeEntry b v c x s).core = s.core := by
  unfold storeEntry; dsimp only; split <;> simp only [fset_core, wrN_core]
@[simp] theorem fset_ang (s : State) (a : Nat) (f : R.Fld) (v : Nat) : (fset s a f v).ang = s.ang := wr_ang ..
@[simp] theorem fput_ang (s : State) (a : Nat) (f : R.Fld) (b : Bool) : (fput s a f b).ang = s.ang := wr_ang ..
@[simp] theorem wrN_ang (s : State) (a v : Nat) : (wrN s a v).ang = s.ang := wr_ang ..
theorem storeEntry_ang (b v c x : Nat) (s : State) : (storeEntry b v c x s).ang = s.ang := by
  unfold storeEntry; dsimp only; split <;> simp only [fset_ang, wrN_ang]
@[simp] theorem fset_sch (s : State) (a : Nat) (f : R.Fld) (v : Nat) : (fset s a f v).sch = s.sch := wr_sch ..
@[simp] theorem fput_sch (s : State) (a : Nat) (f : R.Fld) (b : Bool) : (fput s a f b).sch = s.sch := wr_sch ..
@[simp] theorem wrN_sch (s : State) (a v : Nat) : (wrN s a v).sch = s.sch := wr_sch ..
theorem storeEntry_sch (b v c x : Nat) (s : State) : (storeEntry b v c x s).sch = s.sch := by
  unfold storeEntry; dsimp only; split <;> simp only [fset_sch, wrN_sch]
@[simp] theorem fset_law (s : State) (a : Nat) (f : R.Fld) (v : Nat) : (fset s a f v).law = s.law := wr_law ..
@[simp] theorem fput_law (s : State) (a : Nat) (f : R.Fld) (b : Bool) : (fput s a f b).law = s.law := wr_law ..
@[simp] theorem wrN_law (s : State) (a v : Nat) : (wrN s a v).law = s.law := wr_law ..
theorem storeEntry_law (b v c x : Nat) (s : State) : (storeEntry b v c x s).law = s.law := by
  unfold storeEntry; dsimp only; split <;> simp only [fset_law, wrN_law]
@[simp] theorem fset_mot (s : State) (a : Nat) (f : R.Fld) (v : Nat) : (fset s a f v).mot = s.mot := wr_mot ..
@[simp] theorem fput_mot (s : State) (a : Nat) (f : R.Fld) (b : Bool) : (fput s a f b).mot = s.mot := wr_mot ..
@[simp] theorem wrN_mot (s : State) (a v : Nat) : (wrN s a v).mot = s.mot := wr_mot ..
theorem storeEntry_mot (b v c x : Nat) (s : State) : (storeEntry b v c x s).mot = s.mot := by
  unfold storeEntry; dsimp only; split <;> simp only [fset_mot, wrN_mot]
@[simp] theorem fset_lane (s : State) (a : Nat) (f : R.Fld) (v : Nat) : (fset s a f v).lane = s.lane := wr_lane ..
@[simp] theorem fput_lane (s : State) (a : Nat) (f : R.Fld) (b : Bool) : (fput s a f b).lane = s.lane := wr_lane ..
@[simp] theorem wrN_lane (s : State) (a v : Nat) : (wrN s a v).lane = s.lane := wr_lane ..
theorem storeEntry_lane (b v c x : Nat) (s : State) : (storeEntry b v c x s).lane = s.lane := by
  unfold storeEntry; dsimp only; split <;> simp only [fset_lane, wrN_lane]
@[simp] theorem fset_edge (s : State) (a : Nat) (f : R.Fld) (v : Nat) : (fset s a f v).edge = s.edge := wr_edge ..
@[simp] theorem fput_edge (s : State) (a : Nat) (f : R.Fld) (b : Bool) : (fput s a f b).edge = s.edge := wr_edge ..
@[simp] theorem wrN_edge (s : State) (a v : Nat) : (wrN s a v).edge = s.edge := wr_edge ..
theorem storeEntry_edge (b v c x : Nat) (s : State) : (storeEntry b v c x s).edge = s.edge := by
  unfold storeEntry; dsimp only; split <;> simp only [fset_edge, wrN_edge]
@[simp] theorem fset_net (s : State) (a : Nat) (f : R.Fld) (v : Nat) : (fset s a f v).net = s.net := wr_net ..
@[simp] theorem fput_net (s : State) (a : Nat) (f : R.Fld) (b : Bool) : (fput s a f b).net = s.net := wr_net ..
@[simp] theorem wrN_net (s : State) (a v : Nat) : (wrN s a v).net = s.net := wr_net ..
theorem storeEntry_net (b v c x : Nat) (s : State) : (storeEntry b v c x s).net = s.net := by
  unfold storeEntry; dsimp only; split <;> simp only [fset_net, wrN_net]
@[simp] theorem fset_time (s : State) (a : Nat) (f : R.Fld) (v : Nat) : (fset s a f v).time = s.time := wr_time ..
@[simp] theorem fput_time (s : State) (a : Nat) (f : R.Fld) (b : Bool) : (fput s a f b).time = s.time := wr_time ..
@[simp] theorem wrN_time (s : State) (a v : Nat) : (wrN s a v).time = s.time := wr_time ..
theorem storeEntry_time (b v c x : Nat) (s : State) : (storeEntry b v c x s).time = s.time := by
  unfold storeEntry; dsimp only; split <;> simp only [fset_time, wrN_time]
@[simp] theorem fset_pair (s : State) (a : Nat) (f : R.Fld) (v : Nat) : (fset s a f v).pair = s.pair := wr_pair ..
@[simp] theorem fput_pair (s : State) (a : Nat) (f : R.Fld) (b : Bool) : (fput s a f b).pair = s.pair := wr_pair ..
@[simp] theorem wrN_pair (s : State) (a v : Nat) : (wrN s a v).pair = s.pair := wr_pair ..
theorem storeEntry_pair (b v c x : Nat) (s : State) : (storeEntry b v c x s).pair = s.pair := by
  unfold storeEntry; dsimp only; split <;> simp only [fset_pair, wrN_pair]
@[simp] theorem fset_safe (s : State) (a : Nat) (f : R.Fld) (v : Nat) : (fset s a f v).safe = s.safe := wr_safe ..
@[simp] theorem fput_safe (s : State) (a : Nat) (f : R.Fld) (b : Bool) : (fput s a f b).safe = s.safe := wr_safe ..
@[simp] theorem wrN_safe (s : State) (a v : Nat) : (wrN s a v).safe = s.safe := wr_safe ..
theorem storeEntry_safe (b v c x : Nat) (s : State) : (storeEntry b v c x s).safe = s.safe := by
  unfold storeEntry; dsimp only; split <;> simp only [fset_safe, wrN_safe]
@[simp] theorem fset_boot (s : State) (a : Nat) (f : R.Fld) (v : Nat) : (fset s a f v).boot = s.boot := wr_boot ..
@[simp] theorem fput_boot (s : State) (a : Nat) (f : R.Fld) (b : Bool) : (fput s a f b).boot = s.boot := wr_boot ..
@[simp] theorem wrN_boot (s : State) (a v : Nat) : (wrN s a v).boot = s.boot := wr_boot ..
theorem storeEntry_boot (b v c x : Nat) (s : State) : (storeEntry b v c x s).boot = s.boot := by
  unfold storeEntry; dsimp only; split <;> simp only [fset_boot, wrN_boot]
theorem sendLineEvent_rest (s : State) : ∃ h c, sendLineEvent s = { s with host := h, freeCtr := c } := by
  unfold sendLineEvent
  split
  · unfold sendEvent
    dsimp only
    refine foldl_k (P := fun t : State => ∃ h c, t = { s with host := h, freeCtr := c }) ?_ ⟨_, _, rfl⟩
    rintro t x ⟨h, c, rfl⟩
    dsimp only
    split
    · exact ⟨_, _, rfl⟩
    · exact ⟨_, _, rfl⟩
  · exact ⟨s.host, s.freeCtr, rfl⟩
@[simp] theorem sediment_core (b v c x : Nat) (s : State) : (sediment b v c x s).core = s.core := by
  unfold sediment withLine; dsimp only
  split
  · exact storeEntry_core ..
  · obtain ⟨h, c, e⟩ := sendLineEvent_rest (storeEntry _ _ _ _ s)
    rw [e]; exact storeEntry_core ..
@[simp] theorem w1cSet_core (a o : Nat) (g : R.Fld) (s : State) : (w1cSet a g o s).core = s.core := by
  unfold w1cSet; split
  · rfl
  · simp only [sediment_core, fset_core]
@[simp] theorem sedRule_core (a : Nat) (s : State) : (sedRule a s).core = s.core := sediment_core ..
@[simp] theorem sedBusy_core (a : Nat) (s : State) : (sedBusy a s).core = s.core := sediment_core ..
@[simp] theorem sediment_ang (b v c x : Nat) (s : State) : (sediment b v c x s).ang = s.ang := by
  unfold sediment withLine; dsimp only
  split
  · exact storeEntry_ang ..
  · obtain ⟨h, c, e⟩ := sendLineEvent_rest (storeEntry _ _ _ _ s)
    rw [e]; exact storeEntry_ang ..
@[simp] theorem w1cSet_ang (a o : Nat) (g : R.Fld) (s : State) : (w1cSet a g o s).ang = s.ang := by
  unfold w1cSet; split
  · rfl
  · simp only [sediment_ang, fset_ang]
@[simp] theorem sedRule_ang (a : Nat) (s : State) : (sedRule a s).ang = s.ang := sediment_ang ..
@[simp] theorem sedBusy_ang (a : Nat) (s : State) : (sedBusy a s).ang = s.ang := sediment_ang ..
@[simp] theorem sediment_sch (b v c x : Nat) (s : State) : (sediment b v c x s).sch = s.sch := by
  unfold sediment withLine; dsimp only
  split
  · exact storeEntry_sch ..
  · obtain ⟨h, c, e⟩ := sendLineEvent_rest (storeEntry _ _ _ _ s)
    rw [e]; exact storeEntry_sch ..
@[simp] theorem w1cSet_sch (a o : Nat) (g : R.Fld) (s : State) : (w1cSet a g o s).sch = s.sch := by
  unfold w1cSet; split
  · rfl
  · simp only [sediment_sch, fset_sch]
@[simp] theorem sedRule_sch (a : Nat) (s : State) : (sedRule a s).sch = s.sch := sediment_sch ..
@[simp] theorem sedBusy_sch (a : Nat) (s : State) : (sedBusy a s).sch = s.sch := sediment_sch ..
@[simp] theorem sediment_law (b v c x : Nat) (s : State) : (sediment b v c x s).law = s.law := by
  unfold sediment withLine; dsimp only
  split
  · exact storeEntry_law ..
  · obtain ⟨h, c, e⟩ := sendLineEvent_rest (storeEntry _ _ _ _ s)
    rw [e]; exact storeEntry_law ..
@[simp] theorem w1cSet_law (a o : Nat) (g : R.Fld) (s : State) : (w1cSet a g o s).law = s.law := by
  unfold w1cSet; split
  · rfl
  · simp only [sediment_law, fset_law]
@[simp] theorem sedRule_law (a : Nat) (s : State) : (sedRule a s).law = s.law := sediment_law ..
@[simp] theorem sedBusy_law (a : Nat) (s : State) : (sedBusy a s).law = s.law := sediment_law ..
@[simp] theorem sediment_mot (b v c x : Nat) (s : State) : (sediment b v c x s).mot = s.mot := by
  unfold sediment withLine; dsimp only
  split
  · exact storeEntry_mot ..
  · obtain ⟨h, c, e⟩ := sendLineEvent_rest (storeEntry _ _ _ _ s)
    rw [e]; exact storeEntry_mot ..
@[simp] theorem w1cSet_mot (a o : Nat) (g : R.Fld) (s : State) : (w1cSet a g o s).mot = s.mot := by
  unfold w1cSet; split
  · rfl
  · simp only [sediment_mot, fset_mot]
@[simp] theorem sedRule_mot (a : Nat) (s : State) : (sedRule a s).mot = s.mot := sediment_mot ..
@[simp] theorem sedBusy_mot (a : Nat) (s : State) : (sedBusy a s).mot = s.mot := sediment_mot ..
@[simp] theorem sediment_lane (b v c x : Nat) (s : State) : (sediment b v c x s).lane = s.lane := by
  unfold sediment withLine; dsimp only
  split
  · exact storeEntry_lane ..
  · obtain ⟨h, c, e⟩ := sendLineEvent_rest (storeEntry _ _ _ _ s)
    rw [e]; exact storeEntry_lane ..
@[simp] theorem w1cSet_lane (a o : Nat) (g : R.Fld) (s : State) : (w1cSet a g o s).lane = s.lane := by
  unfold w1cSet; split
  · rfl
  · simp only [sediment_lane, fset_lane]
@[simp] theorem sedRule_lane (a : Nat) (s : State) : (sedRule a s).lane = s.lane := sediment_lane ..
@[simp] theorem sedBusy_lane (a : Nat) (s : State) : (sedBusy a s).lane = s.lane := sediment_lane ..
@[simp] theorem sediment_edge (b v c x : Nat) (s : State) : (sediment b v c x s).edge = s.edge := by
  unfold sediment withLine; dsimp only
  split
  · exact storeEntry_edge ..
  · obtain ⟨h, c, e⟩ := sendLineEvent_rest (storeEntry _ _ _ _ s)
    rw [e]; exact storeEntry_edge ..
@[simp] theorem w1cSet_edge (a o : Nat) (g : R.Fld) (s : State) : (w1cSet a g o s).edge = s.edge := by
  unfold w1cSet; split
  · rfl
  · simp only [sediment_edge, fset_edge]
@[simp] theorem sedRule_edge (a : Nat) (s : State) : (sedRule a s).edge = s.edge := sediment_edge ..
@[simp] theorem sedBusy_edge (a : Nat) (s : State) : (sedBusy a s).edge = s.edge := sediment_edge ..
@[simp] theorem sediment_net (b v c x : Nat) (s : State) : (sediment b v c x s).net = s.net := by
  unfold sediment withLine; dsimp only
  split
  · exact storeEntry_net ..
  · obtain ⟨h, c, e⟩ := sendLineEvent_rest (storeEntry _ _ _ _ s)
    rw [e]; exact storeEntry_net ..
@[simp] theorem w1cSet_net (a o : Nat) (g : R.Fld) (s : State) : (w1cSet a g o s).net = s.net := by
  unfold w1cSet; split
  · rfl
  · simp only [sediment_net, fset_net]
@[simp] theorem sedRule_net (a : Nat) (s : State) : (sedRule a s).net = s.net := sediment_net ..
@[simp] theorem sedBusy_net (a : Nat) (s : State) : (sedBusy a s).net = s.net := sediment_net ..
@[simp] theorem sediment_time (b v c x : Nat) (s : State) : (sediment b v c x s).time = s.time := by
  unfold sediment withLine; dsimp only
  split
  · exact storeEntry_time ..
  · obtain ⟨h, c, e⟩ := sendLineEvent_rest (storeEntry _ _ _ _ s)
    rw [e]; exact storeEntry_time ..
@[simp] theorem w1cSet_time (a o : Nat) (g : R.Fld) (s : State) : (w1cSet a g o s).time = s.time := by
  unfold w1cSet; split
  · rfl
  · simp only [sediment_time, fset_time]
@[simp] theorem sedRule_time (a : Nat) (s : State) : (sedRule a s).time = s.time := sediment_time ..
@[simp] theorem sedBusy_time (a : Nat) (s : State) : (sedBusy a s).time = s.time := sediment_time ..
@[simp] theorem sediment_pair (b v c x : Nat) (s : State) : (sediment b v c x s).pair = s.pair := by
  unfold sediment withLine; dsimp only
  split
  · exact storeEntry_pair ..
  · obtain ⟨h, c, e⟩ := sendLineEvent_rest (storeEntry _ _ _ _ s)
    rw [e]; exact storeEntry_pair ..
@[simp] theorem w1cSet_pair (a o : Nat) (g : R.Fld) (s : State) : (w1cSet a g o s).pair = s.pair := by
  unfold w1cSet; split
  · rfl
  · simp only [sediment_pair, fset_pair]
@[simp] theorem sedRule_pair (a : Nat) (s : State) : (sedRule a s).pair = s.pair := sediment_pair ..
@[simp] theorem sedBusy_pair (a : Nat) (s : State) : (sedBusy a s).pair = s.pair := sediment_pair ..
@[simp] theorem sediment_safe (b v c x : Nat) (s : State) : (sediment b v c x s).safe = s.safe := by
  unfold sediment withLine; dsimp only
  split
  · exact storeEntry_safe ..
  · obtain ⟨h, c, e⟩ := sendLineEvent_rest (storeEntry _ _ _ _ s)
    rw [e]; exact storeEntry_safe ..
@[simp] theorem w1cSet_safe (a o : Nat) (g : R.Fld) (s : State) : (w1cSet a g o s).safe = s.safe := by
  unfold w1cSet; split
  · rfl
  · simp only [sediment_safe, fset_safe]
@[simp] theorem sedRule_safe (a : Nat) (s : State) : (sedRule a s).safe = s.safe := sediment_safe ..
@[simp] theorem sedBusy_safe (a : Nat) (s : State) : (sedBusy a s).safe = s.safe := sediment_safe ..
@[simp] theorem sediment_boot (b v c x : Nat) (s : State) : (sediment b v c x s).boot = s.boot := by
  unfold sediment withLine; dsimp only
  split
  · exact storeEntry_boot ..
  · obtain ⟨h, c, e⟩ := sendLineEvent_rest (storeEntry _ _ _ _ s)
    rw [e]; exact storeEntry_boot ..
@[simp] theorem w1cSet_boot (a o : Nat) (g : R.Fld) (s : State) : (w1cSet a g o s).boot = s.boot := by
  unfold w1cSet; split
  · rfl
  · simp only [sediment_boot, fset_boot]
@[simp] theorem sedRule_boot (a : Nat) (s : State) : (sedRule a s).boot = s.boot := sediment_boot ..
@[simp] theorem sedBusy_boot (a : Nat) (s : State) : (sedBusy a s).boot = s.boot := sediment_boot ..


/-! ### Indexed parts -/

theorem chan_set {s : State} {c d : Nat} {x : Chan} : (s.setChan c x).chan d = if d = c then x else s.chan d := by
  unfold State.chan State.setChan; dsimp only; rw [tget_tset]
theorem encIf_set {s : State} {c d : Nat} {x : EncSt} : (s.setEncIf c x).encIf d = if d = c then x else s.encIf d := by
  unfold State.encIf State.setEncIf; dsimp only; rw [tget_tset]
theorem lan_set {s : State} {u v : Nat} {l : Lane} : (s.setLan u l).lan v = if v = u then l else s.lan v := by
  unfold State.lan State.setLan; dsimp only; rw [tget_tset]

end Sys2Proof.Laws
end

