-- ==== Sys2Proof/Tests/Slice0.lean ====
section
/-! SUPPORT. Tests: ill-formed commands are refused, the statements' hypotheses can be met, and single commands on small states give what the rules say. -/

namespace Sys2Proof.Tests
open Sys2Proof Sys2Proof.Machine

/-! ### Ill-formed commands, one for each check (Sys2Proof/WellFormed.lean) -/

theorem test_wf_refuses_unaligned_address : (Instr.registerWrite ⟨.spi, 1⟩ 0x00000002 0).wf = false := by decide
theorem test_wf_refuses_address_outside_the_map : (Instr.readClear .eth 0x02000000).wf = false := by decide
theorem test_wf_refuses_unaligned_latched_read : (Instr.latchedRead .spi 0x00020009).wf = false := by decide
theorem test_wf_refuses_unaligned_staged_write : (Instr.stagedWrite ⟨.eth, 1⟩ 0x00020009 0).wf = false := by decide
theorem test_wf_refuses_time_beyond_the_longest_cycle : (Instr.dlOpDone .spi 250000).wf = false := by decide
theorem test_wf_refuses_late_dispatch : (Instr.dispatch 0 250000).wf = false := by decide
theorem test_wf_refuses_late_yield : (Instr.laneYield 0 250000).wf = false := by decide
theorem test_wf_refuses_late_task_end : (Instr.lawTaskComplete 0 250000).wf = false := by decide
theorem test_wf_refuses_switch_edge_after_its_span : (Instr.switchDebounced 0 .home true 5 4).wf = false := by decide
theorem test_wf_refuses_capture_in_an_empty_span : (Instr.laneCapture 0 0 0 0).wf = false := by decide
theorem test_wf_refuses_cam_tile_1536 : (Instr.camTileVerify 0 1536).wf = false := by decide
theorem test_wf_refuses_rebuild_of_cam_tile_1536 : (Instr.camTileRebuild 1536).wf = false := by decide
theorem test_wf_refuses_bridge_channel_24 : (Instr.bridgeEdge 24 true).wf = false := by decide
theorem test_wf_refuses_dead_time_of_channel_24 : (Instr.deadTimeEnd 24).wf = false := by decide
theorem test_wf_refuses_window_of_a_ratio_the_table_lacks : (Instr.sinc3Output 0 (List.replicate 47 true)).wf = false := by decide
theorem test_wf_refuses_empty_current_window : (Instr.localSample 0 [] [] [] 0).wf = false := by decide
theorem test_wf_refuses_frame_that_ends_before_it_begins : (Instr.refRx ⟨.seg0a, 2, 0, false, false, false, [], 8, 8⟩).wf = false := by decide
theorem test_wf_refuses_feedback_frame_that_ends_too_late :
    (Instr.feedbackRx ⟨.seg0a, 2, 0, true, false, false, [], 8, 128000000⟩).wf = false := by decide
theorem test_wf_refuses_train_frame_that_ends_before_it_begins : (Instr.trainRx ⟨.seg0a, 2, 0, false, false, false, [], 9, 8⟩).wf = false := by decide
theorem test_wf_refuses_direct_frame_that_ends_before_it_begins : (Instr.directRx ⟨.seg0a, 2, 0, false, false, false, [], 9, 8⟩).wf = false := by decide
theorem test_wf_refuses_service_frame_that_ends_before_it_begins : (Instr.svcRx ⟨.seg0a, 2, 0, false, false, false, [], 9, 8⟩).wf = false := by decide
theorem test_wf_refuses_enumeration_frame_that_ends_before_it_begins : (Instr.enumRx ⟨.seg0a, 2, 0, false, false, false, [], 9, 8⟩).wf = false := by decide
theorem test_wf_refuses_delay_answer_too_late : (Instr.delayRx .seg0a 0 0 0 0 0 0 128000000).wf = false := by decide
theorem test_wf_refuses_delay_request_too_late : (Instr.delayRequest .seg0a 128000000).wf = false := by decide
theorem test_wf_refuses_direct_frame_sent_too_late : (Instr.directTx 0 128000000).wf = false := by decide
theorem test_wf_refuses_poll_timeout_too_late : (Instr.pollTimeout false 128000000).wf = false := by decide
theorem test_wf_refuses_sync_sent_too_late : (Instr.ptpSyncTx 128000000).wf = false := by decide
theorem test_wf_refuses_message_taken_too_late : (Instr.ptpMessageRx 0 (.sync 0 false 0 0) 128000000).wf = false := by decide
theorem test_wf_refuses_delay_request_sent_too_late : (Instr.ptpDelayRequest 128000000).wf = false := by decide
theorem test_wf_refuses_tile_of_63_words :
    (Instr.mirrorTileRx ⟨0, 0, 0⟩ 0 0 0 (List.replicate 63 0) ⟨0, 0, 0, 0, 0, 0, 0, []⟩).wf = false := by decide
theorem test_wf_refuses_put_longer_than_a_message : (Instr.spiPut 0x01 (List.replicate 1473 0)).wf = false := by decide +kernel
theorem test_wf_refuses_get_longer_than_a_message : (Instr.spiGet 1473).wf = false := by decide
theorem test_wf_refuses_password_of_256_bytes :
    (Instr.hspOpen { eth := false, ver := 2, sess := 0, tag := 0 } 1 (List.replicate 256 0)).wf = false := by decide +kernel
theorem test_wf_refuses_write_with_another_count :
    (Instr.write { eth := false, ver := 2, sess := 0, tag := 0 } 0 2 [0]).wf = false := by decide
theorem test_wf_refuses_image_block_of_1025_bytes :
    (Instr.imgData { eth := false, ver := 2, sess := 0, tag := 0 } 0 (List.replicate 1025 0)).wf = false := by decide +kernel
theorem test_wf_refuses_echo_longer_than_a_frame : (Instr.icmpEcho ⟨0, 0, 0, 0, List.replicate 1473 0⟩).wf = false := by decide +kernel
theorem test_wf_takes_an_aligned_write : (Instr.registerWrite ⟨.spi, 1⟩ 0x00020040 5).wf = true := by decide

/-! ### Words spell no command (spec/opcode_table.json gives no row bits) -/

theorem test_no_word_spells_a_command : decodeTableWord 32 0 = none := by decide
theorem test_no_word_enters_the_queue : (State.reset.withFetchWord 32 0).pending = [] := by decide

end Sys2Proof.Tests
end

/-! PROOF. Register access (O41): what a refused and an accepted write leave, staged pairs, latches, RC fields, BLK_LOCK, and a RECORD_APPLY with nothing due. -/

namespace Sys2Proof.Laws
open Sys2Proof Sys2Proof.Machine R

/-! ### Frames -/

theorem sedAny_of_sedAddr {b a : Nat} (h : sedAddr b a = true) : sedAny a := by
  rcases sedAddr_iff.1 h with h | ⟨i, k, _, _, h⟩
  · exact .inl ⟨b, h⟩
  · exact .inr ⟨b, i, k, h⟩

theorem samePart_wr (s : State) (a : Nat) (v : Word) (p : Part) : samePart s (wr s a v) p := by cases p <;> rfl

/-- What differs from a state after a word is stored lies in the same parts as before it. -/
theorem onlyParts_of_wr {ps : List Part} {s t : State} {a : Nat} {v : Word} (h : onlyParts ps (wr s a v) t) : onlyParts ps s t :=
  ⟨h.1, fun p hp => samePart_trans (h.2 p hp) (samePart_wr s a v p)⟩

theorem onlyParts_mono {ps qs : List Part} {s t : State} (hs : ps ⊆ qs) (h : onlyParts ps s t) : onlyParts qs s t :=
  ⟨h.1, fun p hp => h.2 p fun hm => hp (hs hm)⟩

/-- A refused write leaves all but the sediment queues and the change log (R9). -/
theorem refuseWrite_frame (w : Who) (a : Nat) (v : Word) (code : Nat) (s : State) :
    regsOnly (fun b => sedAny b ∨ logAddr b) s (refuseWrite w a v code s) ∧
      onlyParts (sedParts ++ (logParts ++ [.hostAcc])) s (refuseWrite w a v code s) :=
  ⟨fun _ hb => rd_refuseWrite (fun k => hb (.inr k)) (fun k => hb (.inl (sedAny_of_sedAddr k))),
   (refuseWrite_touch w a v code s).only _ (by decide +kernel)⟩

@[simp] theorem acc_refuseWrite (w : Who) (a : Nat) (v : Word) (code : Nat) (s : State) : (refuseWrite w a v code s).host.acc = (2, 0) := rfl

/-- An accepted write leaves what its effect leaves, but for the change log (R9). -/
theorem gated_accepted_frame {w : Who} {a : Nat} {v : Word} {eff : Eff} {s u : State} (h : accepted s w a v) (he : eff s = some u) :
    ∃ t, gated w a v eff s = t ∧ t.host.acc = (0, 0) ∧ regsOnly (fun b => logAddr b) u t ∧ onlyParts (logParts ++ [.hostAcc]) u t := by
  obtain ⟨t, e, ht, ha, hr⟩ := gated_logged h he
  exact ⟨t, e, ha, hr, ht.only _ (by decide +kernel)⟩

theorem writeReg_of_addrOk {w : Who} {a : Nat} {v : Word} {s : State} (h : addrOk a = true) :
    writeReg w a v s = gated w a v (effectOf w (portCode w.port) a v) s := if_pos h

theorem writeReg_of_not_addrOk {w : Who} {a : Nat} {v : Word} {s : State} (h : addrOk a = false) : writeReg w a v s = setAcc 3 0 s := by
  unfold writeReg; rw [h]; rfl

theorem writeReg_refused {w : Who} {a : Nat} {v : Word} {s : State} (ha : addrOk a = true) (hj : judge s w a v = false) :
    writeReg w a v s = refuseWrite w a v 0x0001 s := (writeReg_of_addrOk ha).trans (gated_refused hj)

theorem writeReg_accepted_frame {w : Who} {a : Nat} {v : Word} {s u : State} (ha : addrOk a = true) (h : accepted s w a v)
    (he : effectOf w (portCode w.port) a v s = some u) :
    ∃ t, writeReg w a v s = t ∧ t.host.acc = (0, 0) ∧ regsOnly (fun b => logAddr b) u t ∧ onlyParts (logParts ++ [.hostAcc]) u t := by
  rw [writeReg_of_addrOk ha]; exact gated_accepted_frame h he

/-! ### The staged pair TIME_INC (R489) -/

theorem tget_setStaged (p a : Nat) (v : Option Word) (s : State) : tget none (setStaged p a v s).host.staged (stagedKey p a) = v :=
  (tget_tset ..).trans (if_pos rfl)

theorem stagedLow_of_staged {s : State} {p a : Nat} {v : Word} (h : tget none s.host.staged (stagedKey p a) = some v) : stagedLow s p a = v := by
  unfold stagedLow; rw [h]

theorem host_applyInc (s : State) : (applyInc s).host = s.host := rfl

/-- A field over the whole word takes the value written. -/
theorem applied_whole (b r : Nat) (d : List (Nat × Nat)) (old v : Word) :
    applied { base := b, dims := d, rows := [⟨31, 0, .rwl, r⟩] } old v = v := by
  have hm : ∀ x : Word, x.toNat &&& rowMask ⟨31, 0, .rwl, r⟩ = x.toNat := fun x => by
    have e : rowMask ⟨31, 0, .rwl, r⟩ = 2 ^ 32 - 1 := by simp [rowMask]
    rw [e, Nat.and_two_pow_sub_one_eq_mod, Nat.mod_eq_of_lt x.isLt]
  simp [applied, hm]

theorem effectOf_incLo (w : Who) (p : Nat) (v : Word) (s : State) : effectOf w p TIME_INC_LO v s = some (setStaged p TIME_INC_LO (some v) s) := rfl

/-- The high word puts the staged low word, or the one in force, in force and unstages it. -/
theorem effectOf_incHi (w : Who) (p : Nat) (v : Word) (s : State) :
    ∃ u, effectOf w p TIME_INC_HI v s = some u ∧ rd u TIME_INC_LO = stagedLow s p TIME_INC_LO ∧
      tget none u.host.staged (stagedKey p TIME_INC_LO) = none := by
  refine ⟨_, rfl, ?_, ?_⟩
  · show rd (wr (wr _ TIME_INC_LO _) TIME_INC_HI _) TIME_INC_LO = _
    rw [rd_wr_other _ _ (by decide), rd_wr_same]
    exact applied_whole ..
  · rw [host_applyInc, wr_host, wr_host]
    exact tget_setStaged ..

/-! ### Reads, latches and RC fields (R488, R490) -/

theorem readReg_of_addrOk {w : Who} {a : Nat} {s : State} (h : addrOk a = true) :
    readReg w a s = setAcc 0 (readWord w a s).1 (readWord w a s).2 := if_pos h

/-- A register that is no latched one shows its value; its group is latched for the port, its RC fields are cleared. -/
theorem readWord_of_not_latched {w : Who} {a : Nat} {s : State} (ha : a < 0x1000000) (hl : latchLead a = none) :
    readWord w a s = (viewReg w s a, clearRc a ((latchGroup s a).foldl (fun t e =>
      { t with host.latch := tset 0 t.host.latch (stagedKey (portCode w.port) e.1) e.2 }) s)) := by
  unfold readWord
  simp only [Nat.not_le.2 ha, hl, Option.isSome_none, if_false, Bool.false_eq_true]

/-- A latched register shows the copy of the port that reads it. -/
theorem readWord_of_latched {w : Who} {a : Nat} {s : State} (ha : a < 0x1000000) (hl : (latchLead a).isSome = true) :
    readWord w a s = (tget 0 s.host.latch (stagedKey (portCode w.port) a), s) := by
  unfold readWord
  simp only [Nat.not_le.2 ha, hl, if_false, if_true]

/-- TA_MAX is the one RC field of TA_MON (R80). -/
theorem clearRc_TA_MON (s : State) : clearRc TA_MON s = fset s TA_MON TA_MON_TA_MAX 0 := rfl

theorem readReg_TA_MON (w : Who) (s : State) : readReg w TA_MON s = setAcc 0 (rd s TA_MON) (fset s TA_MON TA_MON_TA_MAX 0) := by
  rw [readReg_of_addrOk (by decide), readWord_of_not_latched (by decide) (by decide), ← clearRc_TA_MON]
  rfl

/-- The state after a read of TIME_NS by a port: its copy of TIME_ERA is latched. -/
def latchEra (p : Port) (s : State) : State :=
  { s with host.latch := tset 0 s.host.latch (stagedKey (portCode p) TIME_ERA) (BitVec.ofNat 32 (s.time.ns / 2 ^ 32)) }

/-- TIME_NS has no RC field. -/
theorem clearRc_TIME_NS (s : State) : clearRc TIME_NS s = s := rfl

theorem readReg_TIME_NS (w : Who) (s : State) : readReg w TIME_NS s = setAcc 0 (BitVec.ofNat 32 s.time.ns) (latchEra w.port s) := by
  rw [readReg_of_addrOk (by decide), readWord_of_not_latched (by decide) (by decide), clearRc_TIME_NS]
  rfl

theorem readReg_TIME_ERA (w : Who) (s : State) :
    readReg w TIME_ERA s = setAcc 0 (tget 0 s.host.latch (stagedKey (portCode w.port) TIME_ERA)) s := by
  rw [readReg_of_addrOk (by decide), readWord_of_latched (by decide) (by decide)]

theorem portCode_injective : Function.Injective portCode := by intro p q; cases p <;> cases q <;> decide

theorem stagedKey_ne {p q : Port} (h : q ≠ p) (a : Nat) : stagedKey (portCode q) a ≠ stagedKey (portCode p) a := fun e =>
  h (portCode_injective (by unfold stagedKey at e; omega))

/-! ### BLK_LOCK (R462) -/

theorem fieldOf_openLocks {n k : Nat} (hn : n < 2 ^ 16) (hk : k < 2 ^ 16) :
    fieldOf (BitVec.ofNat 32 (n + k * 65536)) BLK_LOCK_LOCK_SESS = k ∧ fieldOf (BitVec.ofNat 32 (n + k * 65536)) BLK_LOCK_OPEN = n := by
  simp only [fieldOf, BLK_LOCK_LOCK_SESS, BLK_LOCK_OPEN, BitVec.toNat_ofNat]
  omega

/-- A session that no other keeps out opens locks in its own name. -/
theorem blkLockEff_opens {w : Who} {v : Word} {s : State} (hp : w.port ≠ .steward)
    (hm : fbit s BOOT_STATUS BOOT_STATUS_MINIMAL = false)
    (hh : fget s BLK_LOCK BLK_LOCK_LOCK_SESS = 0 ∨ fget s BLK_LOCK BLK_LOCK_LOCK_SESS = w.sess.toNat)
    (ho : v.toNat % 65536 &&& 0x1FFE ≠ 0) :
    blkLockEff w v s = some (wrN s BLK_LOCK ((v.toNat % 65536 &&& 0x1FFE) + w.sess.toNat * 65536)) := by
  have hf : ¬ (fget s BLK_LOCK BLK_LOCK_LOCK_SESS ≠ 0 ∧ fget s BLK_LOCK BLK_LOCK_LOCK_SESS ≠ w.sess.toNat) := fun ⟨h0, h1⟩ => hh.elim h0 h1
  simp only [blkLockEff, beq_iff_eq, hp, hm, ho, if_false, Bool.false_and, Bool.false_eq_true, Bool.and_eq_true, decide_eq_true_eq, hf]

/-- The locks of another session stay its own. -/
theorem blkLockEff_held {w : Who} {v : Word} {s : State} (hp : w.port ≠ .steward) (h0 : fget s BLK_LOCK BLK_LOCK_LOCK_SESS ≠ 0)
    (h1 : fget s BLK_LOCK BLK_LOCK_LOCK_SESS ≠ w.sess.toNat) : blkLockEff w v s = none := by
  simp only [blkLockEff, beq_iff_eq, hp, if_false, Bool.and_eq_true, decide_eq_true_eq, h0, h1, ne_eq, not_false_eq_true, and_self, if_true]

/-! ### Records (R377) -/

/-- With no record of its own and none due of the other head's, a head keeps its registers and what it holds. -/
theorem applyDue_nothing_due {s : State} (hr : s.pair.recs = []) (hh : ∀ r ∈ s.pair.held, later 16 r.eff.toNat (cycNow s) = true) :
    (applyDue s).regs = s.regs ∧ (applyDue s).pair.held = s.pair.held := by
  have hnow : s.pair.held.filter (fun r => !later 16 r.eff.toNat (cycNow s)) = [] :=
    List.filter_eq_nil_iff.2 fun r h => by simp [hh r h]
  have hkeep : s.pair.held.filter (fun r => !!later 16 r.eff.toNat (cycNow s)) = s.pair.held :=
    List.filter_eq_self.2 fun r h => by simp [hh r h]
  unfold applyDue
  simp only [hr, List.foldl_nil, hnow, hkeep, and_self]

/-! ### The commands -/

theorem exec_registerWrite (w : Who) (a v : Word) (s : State) : exec (.registerWrite w a v) s = .next (writeReg w a.toNat v s) := rfl
theorem exec_stagedWrite (w : Who) (a v : Word) (s : State) : exec (.stagedWrite w a v) s = .next (writeReg w a.toNat v s) := rfl
theorem exec_readClear (p : Port) (a : Word) (s : State) : exec (.readClear p a) s = .next (readReg ⟨p, 0⟩ a.toNat s) := rfl
theorem exec_latchedRead (p : Port) (a : Word) (s : State) : exec (.latchedRead p a) s = .next (readReg ⟨p, 0⟩ a.toNat s) := rfl
theorem exec_blkLockWrite (w : Who) (v : Word) (s : State) : exec (.blkLockWrite w v) s = .next (gated w BLK_LOCK v (blkLockEff w v) s) := rfl
theorem exec_recordApply (s : State) : exec .recordApply s = .next (applyDue s) := rfl

/-- Settles O41: the gate of R9 frames each write, and what the effect or the read leaves is said once per register above. -/
theorem registerAccessActs : Obligations.RegisterAccessActs := by
  unfold Obligations.RegisterAccessActs
  refine ⟨?refused, ?accepted, ?outside, ?incLo, ?incHi, ?readClear, ?latching, ?latched, ?opens, ?held, ?records⟩
  case refused =>
    intro w a v s ha hj
    obtain ⟨hr, hp⟩ := refuseWrite_frame w a.toNat v 0x0001 s
    exact ⟨_, by rw [exec_registerWrite, writeReg_refused ha hj], rfl, hr, hp⟩
  case accepted =>
    intro w a v u s ha h he
    obtain ⟨t, e, ht⟩ := writeReg_accepted_frame ha h he
    exact ⟨t, by rw [exec_registerWrite, e], ht⟩
  case outside =>
    intro w a v s ha
    exact ⟨setAcc 3 0 s, by rw [exec_registerWrite, writeReg_of_not_addrOk ha], rfl, rfl, (setAcc_touch 3 0 s).only _ (by decide +kernel)⟩
  case incLo =>
    intro w a v s ha h
    rw [ha] at h
    obtain ⟨t, e, hacc, hr, hp⟩ := writeReg_accepted_frame (by decide) h (effectOf_incLo ..)
    have hs : t.host.staged = _ := hp.2 .hostStaged (by decide)
    have hi : t.time.inc = _ := hp.2 .timeInc (by decide)
    refine ⟨t, by rw [exec_stagedWrite, ha, e], hacc, stagedLow_of_staged ?_, hr _ (by decide), hi, hr⟩
    rw [hs]; exact tget_setStaged ..
  case incHi =>
    intro w a v s ha h
    rw [ha] at h
    obtain ⟨u, he, hlo, hst⟩ := effectOf_incHi w (portCode w.port) v s
    obtain ⟨t, e, hacc, hr, hp⟩ := writeReg_accepted_frame (by decide) h he
    have hs : t.host.staged = _ := hp.2 .hostStaged (by decide)
    exact ⟨t, by rw [exec_stagedWrite, ha, e], hacc, (hr _ (by decide)).trans hlo, by rw [hs, hst]⟩
  case readClear =>
    intro p s
    refine ⟨_, (exec_readClear ..).trans (congrArg _ (readReg_TA_MON ⟨p, 0⟩ s)), rfl, ?_, ?_, fun a h => rd_fset_other h⟩
    · exact fget_fset (by decide) 0
    · exact fget_fset_apart (by decide) (by decide) (by decide) 0
  case latching =>
    intro p s
    refine ⟨_, (exec_latchedRead ..).trans (congrArg _ (readReg_TIME_NS ⟨p, 0⟩ s)), rfl, ?_, fun q hq => ?_, rfl⟩
    · exact (tget_tset ..).trans (if_pos rfl)
    · exact (tget_tset ..).trans (if_neg (stagedKey_ne hq _))
  case latched =>
    intro p s
    exact ⟨_, (exec_latchedRead ..).trans (congrArg _ (readReg_TIME_ERA ⟨p, 0⟩ s)), rfl, rfl, rfl⟩
  case opens =>
    intro w v s h hw hm hh ho
    obtain ⟨t, e, hacc, hr, hp⟩ := gated_accepted_frame h (blkLockEff_opens hw hm hh ho)
    have hl : rd t BLK_LOCK = BitVec.ofNat 32 _ := (hr _ (by decide)).trans (rd_wr_same ..)
    obtain ⟨hsess, hopen⟩ := fieldOf_openLocks (lt_of_le_of_lt Nat.and_le_right (by decide : 0x1FFE < 2 ^ 16)) w.sess.isLt
    refine ⟨t, by rw [exec_blkLockWrite, e], hacc, ?_, ?_, fun a ha => ?_, onlyParts_mono ?_ (onlyParts_of_wr hp)⟩
    · unfold fget; rw [hl, hsess]
    · unfold fget; rw [hl, hopen]
    · rw [hr a fun k => ha (.inr (.inl k)), rd_wrN_other fun k => ha (.inr (.inr k))]
    · exact List.subset_append_right ..
  case held =>
    intro w v s hj hw h0 h1
    refine ⟨_, by rw [exec_blkLockWrite, gated_ruled hj (blkLockEff_held hw h0 h1)], rfl, ?_⟩
    exact rd_refuseWrite (by decide) (fun k => absurd (sedAddr_range k).1 (by decide))
  case records =>
    intro s
    exact ⟨_, exec_recordApply s, fun hr hh => applyDue_nothing_due hr hh⟩

end Sys2Proof.Laws


/-! PROOF. Machine angle, delay lists and overruns (O9, O11 to O14): trust of a source, hold and resume, restarted slots, the insertion commands of a port, stalled producers and overruns. -/

namespace Sys2Proof.Laws
open Sys2Proof Sys2Proof.Machine R

/-! ### Footprints with sediment queues and the change log -/

/-- The registers of the sediment queues, by number. -/
theorem eachCls_sed {P : Nat → Prop} (h : ∀ a, sedAny a → P a) : eachCls [263, 265] P :=
  ⟨fun a k => h a (.inl (of_DIAG_STATUS k)), fun a k => h a (.inr (of_SED k)), trivial⟩

/-- The registers of the change log in the host block and those of the sediment queues, by number. -/
theorem eachCls_log_sed {P : Nat → Prop} (hl : ∀ a, logAddr a = true → P a) (hs : ∀ a, sedAny a → P a) : eachCls [256, 257, 263, 265] P :=
  ⟨fun a k => hl a (logAddr_iff.2 (.inr (.inr (of_LOG_HEAD k)))), fun a k => hl a (logAddr_iff.2 (.inr (.inl (of_LOG_LOST k)))), eachCls_sed hs⟩

theorem logAddr_of_nvm {a : Nat} (h : inCls 23 a = true) : logAddr a = true := logAddr_iff.2 (.inl (of_LOG_NVM h))

/-! ### TRUST of the sources (Table 2.7) -/

theorem slot_lt (k : Slot) : k.n < 3 := by cases k <;> decide
theorem slot_injective : Function.Injective Slot.n := by intro j k; cases j <;> cases k <;> decide
theorem slot_ne {k n : Slot} (h : k ≠ n) : k.n ≠ n.n := fun e => h (slot_injective e)

theorem fldOk_trust {n : Nat} (h : n < 3) : fldOk (trustFld n) := by simp only [fldOk, trustFld]; omega
theorem fldApart_trust {j k : Nat} (h : j ≠ k) : fldApart (trustFld j) (trustFld k) := by simp only [fldApart, trustFld]; omega

theorem trust_of_rd {s t : State} (h : rd t MA_STATUS = rd s MA_STATUS) (n : Nat) : trust t n = trust s n := fget_of_rd h

theorem trust_setTrust_same {n t : Nat} {s : State} (hn : n < 3) (ht : t < 4) : trust (setTrust n t s) n = t := by
  unfold trust setTrust
  rw [fget_fset (fldOk_trust hn)]
  exact Nat.mod_eq_of_lt (by simp only [trustFld, Nat.add_sub_cancel_left]; exact ht)

theorem trust_setTrust_other {n k t : Nat} {s : State} (hn : n < 3) (hk : k < 3) (h : k ≠ n) : trust (setTrust n t s) k = trust s k :=
  fget_fset_apart (fldOk_trust hn) (fldOk_trust hk) (fldApart_trust h.symm) t

theorem src_setTrust (n t k : Nat) (s : State) : (setTrust n t s).src k = s.src k := src_wr ..

/-- LOST of MA_STATUS lies apart from the trust of the sources. -/
theorem trust_lostSet {k obj : Nat} {s : State} (hk : k < 3) : trust (w1cSet MA_STATUS MA_STATUS_LOST obj s) k = trust s k :=
  fget_w1cSet_apart_lo (by decide) (fldOk_trust hk) (by simp only [fldApart, trustFld, MA_STATUS_LOST]; omega) (by decide)

/-- SUSPECT for DISC_CYCLES ticks: the source becomes DISTRUSTED (R54). -/
theorem distrust_of_due {n : Nat} {s : State} (h1 : trust s n = 1) (hd : discCycles s ≤ (s.src n).susp) : distrust n s = setTrust n 2 s :=
  if_pos (by simp only [h1, hd, decide_true, Bool.and_self])

/-- A source that becomes LOST shows it in TRUST and LOST, and takes no other source with it (R53). -/
theorem loseSrc_gives {n : Nat} {s : State} (hn : n < 3) (h : trust s n ≠ 3) :
    trust (loseSrc n s) n = 3 ∧ fbit (loseSrc n s) MA_STATUS MA_STATUS_LOST = true ∧ ∀ k, k < 3 → k ≠ n → trust (loseSrc n s) k = trust s k := by
  unfold loseSrc
  rw [if_neg h]
  refine ⟨?_, fbit_w1cSet_lo (by decide) (by decide), fun k hk hne => ?_⟩
  · rw [trust_lostSet hn, trust_setTrust_same hn (by decide)]
  · rw [trust_lostSet hk, trust_setTrust_other hn hk hne]

/-- A source is trusted again: its trust and its counts of ticks (R58). -/
def regainTrust (n : Nat) (s : State) : State := setTrust n 0 (s.setSrc n { s.src n with susp := 0, agree := 0 })

theorem regainTrust_gives {n : Nat} {s : State} (hn : n < 3) :
    trust (regainTrust n s) n = 0 ∧ (regainTrust n s).src n = { s.src n with susp := 0, agree := 0 } ∧
      ∀ k, k < 3 → k ≠ n → trust (regainTrust n s) k = trust s k := by
  refine ⟨trust_setTrust_same hn (by decide), ?_, fun k hk hne => ?_⟩
  · exact (src_setTrust ..).trans (src_setSrc_same ..)
  · exact (trust_setTrust_other hn hk hne).trans (trust_of_rd (rd_setSrc ..) k)

/-- Automatic retrust acts after 4,096 ticks of agreement. -/
theorem autoRetrustSrc_of_due {n : Nat} {s : State} (he : fbit s MA_CTRL MA_CTRL_AUTO_RETRUST = true) (ht : 2 ≤ trust s n)
    (ha : 4096 ≤ (s.src n).agree) : autoRetrustSrc n s = regainTrust n s :=
  if_pos (by simp only [he, ht, ha, decide_true, Bool.and_self])

/-- RETRUST acts on a configured source out of trust that agrees with its reference. -/
theorem retrustEff_of_agrees {n : Nat} {s : State} (ht : 2 ≤ trust s n) (hn : n < fget s MA_CTRL MA_CTRL_NSRC) (ha : candAgrees s n = true) :
    retrustEff n s = regainTrust n s :=
  if_pos (by simp only [ht, ha, decide_true, slots, List.contains_iff_mem.2 (List.mem_range.2 hn), Bool.and_self])

theorem exec_sourceDistrusted (n : Slot) (s : State) : exec (.sourceDistrusted n) s = .next (distrust n.n s) := rfl
theorem exec_autoRetrust (n : Slot) (s : State) : exec (.autoRetrust n) s = .next (autoRetrustSrc n.n s) := rfl

/-- A network source extrapolated for NET_HOLD + 1 ticks is lost. -/
theorem exec_netSourceLost_of_due {n : Slot} {s : State} (ht : srcType s n.n = 2) (hf : (s.src n.n).frame = none)
    (he : fget s MA_CTRL MA_CTRL_NET_HOLD + 1 ≤ (s.src n.n).extrap) : exec (.netSourceLost n) s = .next (loseSrc n.n s) :=
  congrArg _ (if_pos (by simp only [ht, hf, he, Option.isNone_none, decide_true, Bool.and_self]))

/-- A footprint of MA_STATUS alone. -/
theorem maStatus_words {m : Nat} {s t : State} (h : Touch m s t) (hL : regBits m = [46]) : regsOnly (fun a => a = MA_STATUS) s t :=
  words_of h hL ⟨fun _ => of_MA_STATUS, trivial⟩

/-- A footprint of MA_STATUS and the sediment queues. -/
theorem maStatus_sed_words {m : Nat} {s t : State} (h : Touch m s t) (hL : regBits m = [46, 263, 265]) :
    regsOnly (fun a => sedAny a ∨ a = MA_STATUS) s t :=
  words_of h hL ⟨fun _ k => .inr (of_MA_STATUS k), eachCls_sed fun _ => .inl⟩

/-- Settles O11: each event sets the trust of its own source, whose field lies apart from the others', and its footprint is the frame. -/
theorem sourceTrustEventsAct : Obligations.SourceTrustEventsAct := by
  unfold Obligations.SourceTrustEventsAct
  refine ⟨?distrusted, ?lost, ?retrusted⟩
  case distrusted =>
    intro n s h1 hd
    have ht := distrust_touch n.n s
    refine ⟨_, exec_sourceDistrusted n s, ?_, fun k hk => ?_, maStatus_words ht (by decide +kernel), ht.only _ (by decide +kernel)⟩
    · rw [distrust_of_due h1 hd, trust_setTrust_same (slot_lt n) (by decide)]
    · rw [distrust_of_due h1 hd, trust_setTrust_other (slot_lt n) (slot_lt k) (slot_ne hk)]
  case lost =>
    intro n s hty hf he h3
    obtain ⟨hn, hl, hk⟩ := loseSrc_gives (slot_lt n) h3
    have ht := loseSrc_touch n.n s
    exact ⟨_, exec_netSourceLost_of_due hty hf he, hn, hl, fun k h => hk k.n (slot_lt k) (slot_ne h),
      maStatus_sed_words ht (by decide +kernel), ht.only _ (by decide +kernel)⟩
  case retrusted =>
    intro n s he h2 ha
    obtain ⟨hn, hsrc, hk⟩ := regainTrust_gives (s := s) (slot_lt n)
    have ht := autoRetrustSrc_touch n.n s
    have e := autoRetrustSrc_of_due he h2 ha
    refine ⟨_, exec_autoRetrust n s, ?_, ?_, ?_, ?_, maStatus_words ht (by decide +kernel), ht.only _ (by decide +kernel)⟩
    · rw [e, hn]
    · rw [e, hsrc]
    · rw [e, hsrc]
    · rw [e]; exact fun k h => hk k.n (slot_lt k) (slot_ne h)

/-! ### Hold, RESUME and RETRUST (R56 to R58) -/

/-- The angle holds: HOLD, both speeds and the target of the virtual master at 0, the key as it was. -/
theorem holdAngle_gives {s : State} (h : fbit s MA_STATUS MA_STATUS_HOLD = false) :
    fbit (holdAngle s) MA_STATUS MA_STATUS_HOLD = true ∧ (holdAngle s).ang = { s.ang with speed := 0, vm := 0, resume := false } ∧
      rd (holdAngle s) VM_TARGET_LO = 0 ∧ rd (holdAngle s) VM_TARGET_HI = 0 := by
  have hw (u : State) : rd (wrN (wrN u VM_TARGET_LO 0) VM_TARGET_HI 0) VM_TARGET_LO = 0 := (rd_wrN_other (by decide)).trans (rd_wr_same ..)
  unfold holdAngle
  rw [h, if_neg Bool.false_ne_true]
  refine ⟨?_, ?_, ?_, ?_⟩
  · rw [fbit_of_rd (rd_sediment_lo (by decide)), fbit_fput (by decide)]
  · rw [sediment_ang, fput_ang, wrN_ang, wrN_ang]
  · rw [rd_sediment_lo (by decide)]; exact (rd_fset_other (by decide)).trans (hw _)
  · rw [rd_sediment_lo (by decide)]; exact (rd_fset_other (by decide)).trans (rd_wr_same ..)

theorem exec_angleHold_of_cond {s : State} (h : holdCond s = true) : exec .angleHold s = .next (holdAngle s) := congrArg _ (if_pos h)

/-- Bit 3 of MA_CMD alone: RESUME. -/
theorem maCmdEff_resume {s : State} (h : resumeOk s = true) : maCmdEff 8 s = some { s with ang.resume := true } := by
  have e : maCmdEff 8 s = some (resumeEff s) := rfl
  rw [e, resumeEff, if_pos h]

/-- Bit n of MA_CMD alone: RETRUST of slot n. -/
theorem maCmdEff_retrust {m : BitVec 3} {n : Slot} (h : m.toNat = 2 ^ n.n) (s : State) :
    maCmdEff (m.zeroExtend 32) s = some (retrustEff n.n s) := by
  have hm : m = BitVec.ofNat 3 (2 ^ n.n) := by rw [← h, BitVec.ofNat_toNat, BitVec.setWidth_eq]
  subst hm
  cases n <;> rfl

theorem exec_resume (w : Who) (s : State) : exec (.resume w) s = .next (gated w MA_CMD 8 (maCmdEff 8) s) := rfl
theorem exec_retrust (w : Who) (m : BitVec 3) (s : State) :
    exec (.retrust w m) s = .next (gated w MA_CMD (m.zeroExtend 32) (maCmdEff (m.zeroExtend 32)) s) := rfl

/-- The frame of a write of MA_CMD. -/
theorem maCmd_frame {s t : State} (h : Touch k_execResume s t) :
    regsOnly (fun a => sedAny a ∨ logAddr a ∨ a = MA_STATUS) s t ∧
      onlyParts ([.angSrc, .angResume, .hostAcc] ++ sedParts ++ logParts) s t :=
  ⟨words_of h (L := [23, 46, 256, 257, 263, 265]) (by decide +kernel)
    ⟨fun _ k => .inr (.inl (logAddr_of_nvm k)), fun _ k => .inr (.inr (of_MA_STATUS k)), eachCls_log_sed (fun _ k => .inr (.inl k)) fun _ => .inl⟩,
   h.only _ (by decide +kernel)⟩

/-! ### Restarted slots (R51, R532) -/

/-- A restart gives its slot a new source, without mark and remainder, and keeps the others. -/
theorem src_restartSrc (b : Bool) (n : Nat) (s : State) :
    ∃ x : Src, x.restart = false ∧ x.rem = 0 ∧ ∀ k, (restartSrc b n s).src k = if k = n then x else s.src k := by
  unfold restartSrc
  extract_lets x voted key s1 ang s2 t s3
  refine ⟨{ key := key, meas := key, cnt := srcCount s n, seen := x.seen, when := (x.frame.map (·.2)).getD x.when }, rfl, rfl, fun k => ?_⟩
  have h1 : s1.src k = if k = n then _ else s.src k := src_setSrc ..
  have h2 : s2.src k = s1.src k := ite_k (P := fun u : State => u.src k = s1.src k) rfl rfl
  have h3 : s3.src k = s2.src k := by
    refine ite_k (P := fun u : State => u.src k = s2.src k) ?_ rfl
    unfold State.src; rw [w1cSet_ang]
  rw [src_setTrust, h3, h2, h1]

/-- SOURCE_RESTART at one slot: a slot marked restart is restarted. -/
def restartMarked (n : Nat) (s : State) : State := if (s.src n).restart then restartSrc false n s else s

theorem exec_sourceRestart (s : State) : exec .sourceRestart s = .next (eachN (slots s) restartMarked s) := rfl

theorem src_restartMarked_other {n k : Nat} {s : State} (h : k ≠ n) : (restartMarked n s).src k = s.src k := by
  unfold restartMarked
  split
  · obtain ⟨x, -, -, hx⟩ := src_restartSrc false n s
    rw [hx, if_neg h]
  · rfl

theorem src_restartMarked_same {n : Nat} {s : State} (h : (s.src n).restart = true) :
    ((restartMarked n s).src n).restart = false ∧ ((restartMarked n s).src n).rem = 0 := by
  obtain ⟨x, hr, hm, hx⟩ := src_restartSrc false n s
  unfold restartMarked
  rw [if_pos h, hx, if_pos rfl]
  exact ⟨hr, hm⟩

/-- A slot without the mark keeps its source whatever slots are gone through. -/
theorem src_eachN_unmarked {l : List Nat} {n : Nat} {s : State} (h : (s.src n).restart = false) :
    (eachN l restartMarked s).src n = s.src n := by
  refine eachN_k (P := fun t : State => t.src n = s.src n) (fun m t ht => ?_) rfl
  by_cases hm : n = m
  · subst hm
    unfold restartMarked
    rw [ht, h, if_neg Bool.false_ne_true, ht]
  · rw [src_restartMarked_other hm, ht]

/-- A slot with the mark is restarted when it is among those gone through. -/
theorem src_eachN_marked {l : List Nat} {n : Nat} {s : State} (hn : n ∈ l) (h : (s.src n).restart = true) :
    ((eachN l restartMarked s).src n).restart = false ∧ ((eachN l restartMarked s).src n).rem = 0 := by
  induction l generalizing s with
  | nil => cases hn
  | cons m l ih =>
    show ((eachN l restartMarked (restartMarked m s)).src n).restart = false ∧ ((eachN l restartMarked (restartMarked m s)).src n).rem = 0
    by_cases hm : n = m
    · subst hm
      have hr := src_restartMarked_same h
      rw [src_eachN_unmarked hr.1]
      exact hr
    · refine ih ((List.mem_cons.1 hn).resolve_left hm) ?_
      rw [src_restartMarked_other hm, h]

/-- Settles O12: what a hold, a resume, a retrust and a restart leave is said once above; the footprints are the frames. -/
theorem angleHoldAndResume : Obligations.AngleHoldAndResume := by
  unfold Obligations.AngleHoldAndResume
  refine ⟨?hold, ?resume, ?retrust, ?restart⟩
  case hold =>
    intro s hc h
    obtain ⟨hh, ha, hlo, hhi⟩ := holdAngle_gives h
    have ht := holdAngle_touch s
    refine ⟨_, exec_angleHold_of_cond hc, hh, by rw [ha], by rw [ha], by rw [ha], hlo, hhi, ?_, ht.only _ (by decide +kernel)⟩
    exact words_of ht (L := [46, 59, 60, 263, 265]) (by decide +kernel)
      ⟨fun _ k => .inr (.inl (of_MA_STATUS k)), fun _ k => .inr (.inr (.inl (of_VM_TARGET_LO k))),
       fun _ k => .inr (.inr (.inr (of_VM_TARGET_HI k))), eachCls_sed fun _ => .inl⟩
  case resume =>
    intro w s ha hok
    obtain ⟨t, e, ht, hacc, -⟩ := gated_logged ha (maCmdEff_resume hok)
    have hr : t.ang.resume = true := ht.same .angResume rfl
    exact ⟨t, by rw [exec_resume, e], hr, hacc, maCmd_frame (execResume_touch w s t (by rw [← e]; rfl))⟩
  case retrust =>
    intro w m n s ha _ h2 hn hc hm
    have hw := maCmdEff_retrust hm s
    rw [retrustEff_of_agrees h2 hn hc] at hw
    obtain ⟨t, e, ht, -, hrd⟩ := gated_logged ha hw
    obtain ⟨h0, hsrc, hk⟩ := regainTrust_gives (s := s) (slot_lt n)
    have hst : rd t MA_STATUS = rd (regainTrust n.n s) MA_STATUS := hrd _ (by decide)
    refine ⟨t, by rw [exec_retrust, e], ?_, ?_, fun k h => ?_, maCmd_frame (execRetrust_touch w m s t (by rw [← e]; rfl))⟩
    · rw [trust_of_rd hst, h0]
    · rw [src_of (ht.same .angSrc rfl), hsrc]
    · rw [trust_of_rd hst, hk k.n (slot_lt k) (slot_ne h)]
  case restart =>
    intro s
    have ht := execSourceRestart_touch s _ rfl
    exact ⟨_, exec_sourceRestart s, ht.same .angKey rfl, fun n hn h => src_eachN_marked hn h, fun n h => src_eachN_unmarked h,
      maStatus_sed_words ht (by decide +kernel), ht.only _ (by decide +kernel)⟩

/-! ### The insertion commands of a port (R61, R66, R81) -/

theorem wField_insert (l : BitVec 2) :
    wField (BitVec.ofNat 32 (2 ^ 30 + l.toNat)) 31 30 = 1 ∧ wField (BitVec.ofNat 32 (2 ^ 30 + l.toNat)) 1 0 = l.toNat := by
  have := l.isLt
  simp only [wField, fieldOf, BitVec.toNat_ofNat]
  omega

theorem wField_cancel (l : BitVec 2) :
    wField (BitVec.ofNat 32 (2 ^ 31 + l.toNat)) 31 30 = 2 ∧ wField (BitVec.ofNat 32 (2 ^ 31 + l.toNat)) 1 0 = l.toNat := by
  have := l.isLt
  simp only [wField, fieldOf, BitVec.toNat_ofNat]
  omega

/-- OP of a word of INS_CMD asks for an insertion or a cancellation. -/
abbrev insOrCancel (v : Word) : Prop := wField v 31 30 = 1 ∨ wField v 31 30 = 2

/-- The operation of a port starts and its INS_RESULT is cleared. -/
def startIns (p : Nat) (o : InsOp) (s : State) : State := setInsReg p 4 0 { s with sch.ins := tset none s.sch.ins p (some o) }

theorem ins_startIns (p : Nat) (o : InsOp) (s : State) (q : Nat) :
    tget none (startIns p o s).sch.ins q = if q = p then some o else tget none s.sch.ins q := by
  show tget none (tset none s.sch.ins p (some o)) q = _
  exact tget_tset ..

theorem insCmdEff_busy {p : Nat} {v : Word} {o : InsOp} {s : State} (hv : insOrCancel v) (h : tget none s.sch.ins p = some o) :
    insCmdEff p v s = some (sedBusy INS_CMD s) := by
  unfold insCmdEff
  simp only [Bool.or_eq_true, decide_eq_true_eq, hv, if_true, h]

theorem insCmdEff_idle {p : Nat} {v : Word} {s : State} (hv : insOrCancel v) (h : tget none s.sch.ins p = none) :
    insCmdEff p v s = some (startIns p { ins := wField v 31 30 == 1, list := wField v 1 0, ent := insEnt s p } s) := by
  unfold insCmdEff
  simp only [Bool.or_eq_true, decide_eq_true_eq, hv, if_true, h]
  rfl

theorem insReg_of {s t : State} (h : samePart s t .hostInsReg) (p i : Nat) : insReg t p i = insReg s p i := by
  have h : t.host.insReg = s.host.insReg := h
  unfold insReg; rw [h]

theorem insReg_setInsReg_same (p i : Nat) (v : Word) (s : State) : insReg (setInsReg p i v s) p i = v := (tget_tset ..).trans (if_pos rfl)

/-- INS_CMD of a port whose operation runs: the operation and the registers stay, the entry is made (R81). -/
theorem insCmd_busy {w : Who} {v : Word} {o : InsOp} {s : State} (hv : insOrCancel v) (ha : accepted s w INS_CMD v)
    (h : tget none s.sch.ins (portCode w.port) = some o) :
    ∃ t, gated w INS_CMD v (insCmdEff (portCode w.port) v) s = t ∧ t.sch.ins = s.sch.ins ∧ t.host.insReg = s.host.insReg ∧
      ∀ a, ¬ logAddr a → rd t a = rd (sedBusy INS_CMD s) a := by
  obtain ⟨t, e, ht, -, hr⟩ := gated_logged ha (insCmdEff_busy hv h)
  have hs : t.sch.ins = (sedBusy INS_CMD s).sch.ins := ht.same .schIns rfl
  have hi : t.host.insReg = (sedBusy INS_CMD s).host.insReg := ht.same .hostInsReg rfl
  have hb : (sedBusy INS_CMD s).host.insReg = s.host.insReg := (sediment_touch ..).same .hostInsReg rfl
  exact ⟨t, e, by rw [hs, sedBusy_sch], hi.trans hb, hr⟩

/-- INS_CMD of a port without an operation: it starts with the port's copy of the registers, DONE is cleared (R61, R489). -/
theorem insCmd_idle {w : Who} {v : Word} {s : State} (hv : insOrCancel v) (ha : accepted s w INS_CMD v)
    (h : tget none s.sch.ins (portCode w.port) = none) :
    ∃ t, gated w INS_CMD v (insCmdEff (portCode w.port) v) s = t ∧
      tget none t.sch.ins (portCode w.port) = some { ins := wField v 31 30 == 1, list := wField v 1 0, ent := insEnt s (portCode w.port) } ∧
      insReg t (portCode w.port) 4 = 0 ∧ t.host.acc = (0, 0) ∧ ∀ q, q ≠ portCode w.port → tget none t.sch.ins q = tget none s.sch.ins q := by
  obtain ⟨t, e, ht, hacc, -⟩ := gated_logged ha (insCmdEff_idle hv h)
  have hs : t.sch.ins = (startIns (portCode w.port) _ s).sch.ins := ht.same .schIns rfl
  refine ⟨t, e, ?_, ?_, hacc, fun q hq => ?_⟩
  · rw [hs, ins_startIns, if_pos rfl]
  · rw [insReg_of (ht.same .hostInsReg rfl)]; exact insReg_setInsReg_same ..
  · rw [hs, ins_startIns, if_neg hq]

theorem exec_dlInsert (w : Who) (l : BitVec 2) (s : State) : exec (.dlInsert w l) s =
    .next (gated w INS_CMD (BitVec.ofNat 32 (2 ^ 30 + l.toNat)) (insCmdEff (portCode w.port) (BitVec.ofNat 32 (2 ^ 30 + l.toNat))) s) := rfl
theorem exec_dlCancel (w : Who) (l : BitVec 2) (s : State) : exec (.dlCancel w l) s =
    .next (gated w INS_CMD (BitVec.ofNat 32 (2 ^ 31 + l.toNat)) (insCmdEff (portCode w.port) (BitVec.ofNat 32 (2 ^ 31 + l.toNat))) s) := rfl

/-- Settles O9: with an operation under way INS_CMD has no effect but the entry in the scheduler's queue. -/
theorem insertionCommandWhileBusyIsRecorded : Obligations.InsertionCommandWhileBusyIsRecorded := by
  unfold Obligations.InsertionCommandWhileBusyIsRecorded
  refine ⟨?insert, ?cancel⟩
  case insert =>
    intro w l o s ha h
    obtain ⟨t, e, ht⟩ := insCmd_busy (.inl (wField_insert l).1) ha h
    exact ⟨t, by rw [exec_dlInsert, e], ht⟩
  case cancel =>
    intro w l o s ha h
    obtain ⟨t, e, ht⟩ := insCmd_busy (.inr (wField_cancel l).1) ha h
    exact ⟨t, by rw [exec_dlCancel, e], ht⟩

/-- The frame of a write of INS_CMD. -/
theorem insCmd_frame {s t : State} (h : Touch k_execDlInsert s t) :
    regsOnly (fun a => sedAny a ∨ logAddr a) s t ∧
      onlyParts (sedParts.append (logParts.append [.schIns, .hostInsReg, .hostAcc])) s t :=
  ⟨words_of h (L := [23, 256, 257, 263, 265]) (by decide +kernel)
    ⟨fun _ k => .inr (logAddr_of_nvm k), eachCls_log_sed (fun _ => .inr) fun _ => .inl⟩,
   h.only _ (by decide +kernel)⟩

/-! ### The end of an operation (R61, R66) -/

/-- The result of an insertion (R62, R65, R71): a refused entry, a full list, a key due too soon or past, or one that is placed or waits. -/
theorem insertEnt_result (l : Nat) (e : DEnt) (ns : Nat) (s : State) : (insertEnt l e ns s).1 =
    if insRefused s l e then insRef else if 1024 ≤ (s.dl l).length then insBusy
    else if inWindow s l e.key then (if ns + 2000 ≤ offsetOf s l e.key then insOk else insLate)
    else if precedes s l e.key then insLate else insOk := by
  unfold insertEnt
  simp only [apply_ite Prod.fst]

/-- The result of a cancellation: whether the list holds the TAG (R66). -/
theorem cancelEnt_result (l tag : Nat) (s : State) :
    (cancelEnt l tag s).1 = if ((s.dl l).find? fun e => entTag e == tag).isSome then insOk else insNotFound := by
  unfold cancelEnt
  cases (s.dl l).find? fun e => entTag e == tag <;> rfl

/-- What an operation does to its list: its result and the state. -/
def runIns (ns : Nat) (o : InsOp) (s : State) : Nat × State :=
  if o.ins then insertEnt o.list o.ent ns s else cancelEnt o.list (entTag o.ent) s

theorem opDone_of_some {p ns : Nat} {o : InsOp} {s : State} (h : tget none s.sch.ins p = some o) :
    opDone p ns s = setInsReg p 4 (BitVec.ofNat 32 (2 ^ 31 + (runIns ns o { s with sch.ins := tset none s.sch.ins p none }).1))
      (runIns ns o { s with sch.ins := tset none s.sch.ins p none }).2 := by
  unfold opDone
  rw [h]
  rfl

/-- A list's operation leaves the operations of the ports. -/
theorem runIns_ins (ns : Nat) (o : InsOp) (s : State) : (runIns ns o s).2.sch.ins = s.sch.ins := by
  unfold runIns
  split
  · exact (Touch.snd (insertEnt_touch ..)).same .schIns rfl
  · exact (Touch.snd (cancelEnt_touch ..)).same .schIns rfl

/-- The result does not rest on the operations under way. -/
theorem runIns_result_ins (ns : Nat) (o : InsOp) (x : Tbl (Option InsOp)) (s : State) :
    (runIns ns o { s with sch.ins := x }).1 =
      if o.ins then (insertEnt o.list o.ent ns s).1 else (cancelEnt o.list (entTag o.ent) s).1 := by
  unfold runIns
  split
  · rw [insertEnt_result, insertEnt_result]; rfl
  · rw [cancelEnt_result, cancelEnt_result]; rfl

/-- The operation of a port ends with DONE and its result; those of the other ports stay. -/
theorem opDone_gives {p ns : Nat} {o : InsOp} {s : State} (h : tget none s.sch.ins p = some o) :
    (opDone p ns s).sch.ins = tset none s.sch.ins p none ∧
      insReg (opDone p ns s) p 4 = BitVec.ofNat 32 (2 ^ 31 +
        (if o.ins then (insertEnt o.list o.ent ns s).1 else (cancelEnt o.list (entTag o.ent) s).1)) := by
  rw [opDone_of_some h]
  exact ⟨runIns_ins .., by rw [insReg_setInsReg_same, runIns_result_ins]⟩

theorem exec_dlOpDone_of_some {p : Port} {ns : Nat} {o : InsOp} {s : State} (h : tget none s.sch.ins (portCode p) = some o) :
    exec (.dlOpDone p ns) s = .next (runPlaced (opDone (portCode p) ns (reachAt (ns * 256) s))) := by
  show execDlOpDone p ns s = _
  unfold execDlOpDone
  rw [h]

/-- Settles O13: INS_CMD of a port by whether its operation runs, then the end of the operation; entries placed on the way leave the ports' operations. -/
theorem delayListPorts : Obligations.DelayListPorts := by
  unfold Obligations.DelayListPorts
  refine ⟨?insert, ?cancel, ?busy, ?done⟩
  case insert =>
    intro w l s ha h
    obtain ⟨hop, hl⟩ := wField_insert l
    obtain ⟨t, e, hins, hres, hacc, hq⟩ := insCmd_idle (.inl hop) ha h
    rw [hop, hl] at hins
    exact ⟨t, by rw [exec_dlInsert, e], hins, hres, hacc, hq, insCmd_frame (execDlInsert_touch w l s t (by rw [← e]; rfl))⟩
  case cancel =>
    intro w l s ha h
    obtain ⟨hop, hl⟩ := wField_cancel l
    obtain ⟨t, e, hins, hres, hacc, hq⟩ := insCmd_idle (.inr hop) ha h
    rw [hop, hl] at hins
    exact ⟨t, by rw [exec_dlCancel, e], hins, hres, hacc, hq, insCmd_frame (execDlCancel_touch w l s t (by rw [← e]; rfl))⟩
  case busy =>
    intro w l o s ha h
    obtain ⟨t, e, hs, hi, -⟩ := insCmd_busy (.inl (wField_insert l).1) ha h
    exact ⟨t, by rw [exec_dlInsert, e], hs, hi, insCmd_frame (execDlInsert_touch w l s t (by rw [← e]; rfl))⟩
  case done =>
    intro p ns o s h
    have hu : (reachAt (ns * 256) s).sch.ins = s.sch.ins := (reachAt_touch ..).same .schIns rfl
    obtain ⟨hs, hr⟩ := opDone_gives (ns := ns) (s := reachAt (ns * 256) s) (by rw [hu, h])
    have hrun := runPlaced_touch (opDone (portCode p) ns (reachAt (ns * 256) s))
    have hins : (runPlaced _).sch.ins = _ := (hrun.same .schIns rfl).trans (hs.trans (by rw [hu]))
    have hx := exec_dlOpDone_of_some (ns := ns) h
    have ht := execDlOpDone_touch p ns s _ hx
    refine ⟨_, hx, ?_, (insReg_of (hrun.same .hostInsReg rfl) ..).trans hr, fun q hq => ?_, ht.blocks _ (by decide +kernel), ht.only _ (by decide +kernel)⟩
    · rw [hins, tget_tset, if_pos rfl]
    · rw [hins, tget_tset, if_neg hq]

/-! ### Stalled producers and overruns (R70, R72, R124) -/

/-- A producer held back for more than 64 ticks: BP_STALL and an entry of its own. -/
theorem exec_bpStall_of_held {i : Nat} {h : Held} {s : State} (hi : s.sch.held[i]? = some h) (ht : 64 < h.ticks) :
    exec (.bpStall i) s =
      .next (sediment 2 sevWarn 0x0702 (prodCode h.prod * 2 ^ 24 + h.obj) (w1cSet SCH_STATUS SCH_STATUS_BP_STALL 0 s)) := by
  show execBpStall i s = _
  unfold execBpStall
  rw [hi]
  exact congrArg _ (if_pos ht)

/-- OVR_LIMIT releases in a row have counted an overrun. -/
theorem exec_overrun_of_limit {n : Axis} {s : State} (h : ovrLimit s ≤ tget 0 s.sch.ovr n.toNat) :
    exec (.overrun n) s = .next (raiseCause n.toNat 5 s) := congrArg _ (if_pos h)

/-- Settles O14: BP_STALL is set apart from STATS_SEQ, an overrun raises cause 5. -/
theorem stallAndOverrun : Obligations.StallAndOverrun := by
  unfold Obligations.StallAndOverrun
  refine ⟨?stall, ?overrun⟩
  case stall =>
    intro i h s hi ht
    have hx := exec_bpStall_of_held hi ht
    have htouch := execBpStall_touch i s _ hx
    refine ⟨_, hx, ?_, ?_, ?_, htouch.only _ (by decide +kernel)⟩
    · rw [fbit_of_rd (rd_sediment_lo (by decide)), fbit_w1cSet_lo (by decide) (by decide)]
    · rw [fget_sediment_lo (by decide), fget_w1cSet_apart_lo (by decide) (by decide) (by decide) (by decide)]
    · exact words_of htouch (L := [32, 263, 265]) (by decide +kernel) ⟨fun _ k => .inr (of_SCH_STATUS k), eachCls_sed fun _ => .inl⟩
  case overrun =>
    intro n s hl hc
    obtain ⟨hcause, hlast, hreact⟩ := raiseCause_gives (n := n.toNat) (code := 5) (by decide) hc
    have hx := exec_overrun_of_limit hl
    have htouch := execOverrun_touch n s _ hx
    refine ⟨_, hx, hcause, hlast, by rw [hreact]; exact le_max_left .., ?_, htouch.only _ (by decide +kernel)⟩
    exact words_of htouch (L := [107, 109, 110, 124, 136, 137, 149, 263, 265]) (by decide +kernel)
      ⟨fun _ k => .inr (.inl (of_STATE_TILE k)), fun _ k => .inr (.inr (.inl (of_AX_STATUS k))),
       fun _ k => .inr (.inr (.inr (.inl (of_AX_FAULT k)))), fun _ k => .inr (.inr (.inr (.inr (.inl (of_PF_STATUS k))))),
       fun _ k => .inr (.inr (.inr (.inr (.inr (.inl (of_PF_POS k)))))),
       fun _ k => .inr (.inr (.inr (.inr (.inr (.inr (.inl (of_PF_VEL k))))))),
       fun _ k => .inr (.inr (.inr (.inr (.inr (.inr (.inr (of_PF_HOME_STATUS k))))))), eachCls_sed fun _ => .inl⟩

end Sys2Proof.Laws

/-! PROOF. The law engine (O16, O17): supervised conditions, rebuilt and installed law tiles, the handover of the spring ramp, and the accepted writes of AX_CTRL and AX_CMD. -/

namespace Sys2Proof.Laws
open Sys2Proof Sys2Proof.Machine R

/-! ### Registers of an axis in a footprint -/

/-- The profile registers that show a generator gone off (R139). -/
def genOffAddr (a : Nat) : Prop := (∃ i, a = PF_STATUS i) ∨ (∃ i j, a = PF_POS i j) ∨ (∃ i j, a = PF_VEL i j) ∨ (∃ i, a = PF_HOME_STATUS i)

/-- Those registers, by number. -/
theorem eachCls_genOff {P : Nat → Prop} {L : List Nat} (h : ∀ a, genOffAddr a → P a) (hL : eachCls L P) :
    eachCls (124 :: 136 :: 137 :: 149 :: L) P :=
  ⟨fun a k => h a (.inl (of_PF_STATUS k)), fun a k => h a (.inr (.inl (of_PF_POS k))), fun a k => h a (.inr (.inr (.inl (of_PF_VEL k)))),
   fun a k => h a (.inr (.inr (.inr (of_PF_HOME_STATUS k)))), hL⟩

theorem axCtrl_ne_axStatus (n : Nat) : AX_CTRL n ≠ AX_STATUS n := by unfold AX_CTRL AX_STATUS; omega
theorem axStatus_lo (n : Nat) : AX_STATUS n < 0x701000 := by unfold AX_STATUS; omega
theorem axCtrl_lo (n : Nat) : AX_CTRL n < 0x701000 := by unfold AX_CTRL; omega
theorem axStatus_not_log (n : Nat) : ¬ logAddr (AX_STATUS n) = true := not_log (by unfold AX_STATUS; omega)
theorem axCtrl_not_log (n : Nat) : ¬ logAddr (AX_CTRL n) = true := not_log (by unfold AX_CTRL; omega)
theorem lawTile_not_log (n i : Nat) : ¬ logAddr (LAW_TILE n i) = true := not_log (by unfold LAW_TILE; omega)

theorem axMode_of_rd {n : Nat} {s t : State} (h : rd t (AX_CTRL n) = rd s (AX_CTRL n)) : axMode t n = axMode s n := fget_of_rd h

/-! ### Tiles written word by word -/

theorem law_wrAll {reg : Nat → Nat} {i : Nat} {l : List Word} {s : State} : (wrAll reg i l s).law = s.law := by
  induction l generalizing i s with
  | nil => rfl
  | cons w l ih => exact ih.trans (wr_law ..)

theorem axl_of_law {s t : State} (h : t.law = s.law) (n : Nat) : t.axl n = s.axl n := by unfold State.axl; rw [h]

/-- An indexed register of 64 words takes a tile of 64 words. -/
theorem rd_wrAll_tile {reg : Nat → Nat} {l : List Word} {s : State} (hr : ∀ j k, j < 64 → k < 64 → reg j = reg k → j = k) (hl : l.length = 64)
    {i : Nat} (hi : i < 64) : rd (wrAll reg 0 l s) (reg i) = l.getD i 0 := by
  rw [rd_wrAll hr (by omega) hi, if_pos (by omega), Nat.sub_zero]

theorem rd_wrAll_lawTile {n : Nat} {l : List Word} {s : State} (hl : l.length = 64) {i : Nat} (hi : i < 64) :
    rd (wrAll (LAW_TILE n) 0 l s) (LAW_TILE n i) = l.getD i 0 :=
  rd_wrAll_tile (fun _ _ => lawTile_inj) hl hi

theorem length_lawTile (s : State) (n : Nat) : (lawTile s n).length = 64 := length_rdWords
theorem length_stateTile (s : State) (n : Nat) : (stateTile s n).length = 64 := length_rdWords

/-- The words of a tile read from its first address are the words of the indexed register. -/
theorem getD_lawTile (s : State) (n : Nat) {i : Nat} (hi : i < 64) : (lawTile s n).getD i 0 = rd s (LAW_TILE n i) :=
  (rd_mem_rdWords hi).trans (congrArg _ (by unfold LAW_TILE; omega))
theorem getD_stateTile (s : State) (n : Nat) {i : Nat} (hi : i < 64) : (stateTile s n).getD i 0 = rd s (STATE_TILE n i) :=
  (rd_mem_rdWords hi).trans (congrArg _ (by unfold STATE_TILE; omega))
theorem getD_lawTub (s : State) {i : Nat} (hi : i < 64) : (rdWords s (LAW_TUB 0) 64).getD i 0 = rd s (LAW_TUB i) :=
  (rd_mem_rdWords hi).trans (congrArg _ (by unfold LAW_TUB; omega))

/-! ### Supervised conditions (R124, R125) -/

theorem exec_satur_of_clamped {n : Axis} {s : State} (h0 : fget s (AX_CTRL n.toNat) AX_CTRL_SAT_LIM ≠ 0)
    (hl : fget s (AX_CTRL n.toNat) AX_CTRL_SAT_LIM ≤ wField ((stateTile s n.toNat).getD 43 0) 31 16)
    (hw : wField ((stateTile s n.toNat).getD 0 0) 30 28 = 0) : exec (.satur n) s = .next (raiseCause n.toNat 7 s) :=
  congrArg _ (if_pos (by simp only [h0, hl, hw, ne_eq, not_false_eq_true, decide_true, Bool.and_self]))

theorem exec_holdTimeout_of_due {n : Axis} {s : State} (hr : fget s (AX_STATUS n.toNat) AX_STATUS_REACT = 1)
    (hd : max 1 (fget s (AX_CTRL n.toNat) AX_CTRL_HOLD_N) ≤ wField ((stateTile s n.toNat).getD 43 0) 15 8) :
    exec (.holdTimeout n) s = .next (react n.toNat (fget s (AX_STATUS n.toNat) AX_STATUS_FAULT) 4 s) :=
  congrArg _ (if_pos (by simp only [hr, hd, decide_true, Bool.and_self]))

/-! ### Law tiles rebuilt and installed (R122, R129) -/

theorem exec_lawTileRebuild_of_failing {n : Axis} {s : State} (hc : (s.axl n.toNat).causes.testBit 0 = true) (hr : lawRuns s n.toNat = false) :
    exec (.lawTileRebuild n) s = .next (rebuildLaw n.toNat s) :=
  congrArg _ (if_pos (by rw [hc, hr]; rfl))

/-- A sound tile of the recipe store takes the place of the failing one, and REBUILT and the change log record it. -/
theorem rebuildLaw_of_sound {n : Nat} {s : State} (h0 : tget [] s.law.store n ≠ [])
    (hs : tileCheck (s.ctx n).lawSet (tget [] s.law.store n) = 0) :
    rebuildLaw n s = logSteward 5 0 n 0 (w1cSet (AX_STATUS n) AX_STATUS_REBUILT n (wrAll (LAW_TILE n) 0 (tget [] s.law.store n) s)) :=
  if_pos (by simp only [h0, hs, ne_eq, not_false_eq_true, decide_true, Bool.and_self])

theorem rebuildLaw_gives {n : Nat} {s : State} (hl : (tget [] s.law.store n).length = 64)
    (hs : tileCheck (s.ctx n).lawSet (tget [] s.law.store n) = 0) :
    (∀ i, i < 64 → rd (rebuildLaw n s) (LAW_TILE n i) = (tget [] s.law.store n).getD i 0) ∧
      fbit (rebuildLaw n s) (AX_STATUS n) AX_STATUS_REBUILT = true := by
  rw [rebuildLaw_of_sound (fun h => by rw [h] at hl; exact absurd hl (by decide)) hs]
  refine ⟨fun i hi => ?_, ?_⟩
  · rw [rd_logSteward (lawTile_not_log n i), rd_w1cSet_lo (by unfold LAW_TILE AX_STATUS; omega) (by unfold LAW_TILE; omega),
      rd_wrAll_lawTile hl hi]
  · rw [fbit_of_rd (rd_logSteward (axStatus_not_log n)), fbit_w1cSet_lo (by decide) (axStatus_lo n)]

/-- A tile put in place: the live words, the recipe store and the BL of the commit. -/
theorem installLaw_gives {n : Nat} {t : List Word} {bl : Bool} {s : State} (ht : t.length = 64) :
    (∀ i, i < 64 → rd (installLaw n t bl s) (LAW_TILE n i) = t.getD i 0) ∧ (installLaw n t bl s).law.tub = s.law.tub ∧
      ((installLaw n t bl s).axl n).bl = bl ∧ tget [] (installLaw n t bl s).law.store n = t := by
  unfold installLaw
  refine ⟨fun i hi => ?_, ?_, ?_, ?_⟩
  · exact (rd_setAxl ..).trans (rd_wrAll_lawTile ht hi)
  · show (wrAll (LAW_TILE n) 0 t s).law.tub = s.law.tub
    rw [law_wrAll]
  · rw [axl_setAxl_same]
  · exact (tget_tset ..).trans (if_pos rfl)

/-- The record of an installed tile (R131) and the end of its commit leave what the installation gave. -/
theorem installTub_of_some {n : Nat} {bl : Bool} {w : Who} {s : State} (h : s.law.tub = some (n, bl, w)) (hr : lawRuns s n = false) :
    ∃ r, installTub s = wr (logPush r (installLaw n (rdWords s (LAW_TUB 0) 64) bl { s with law.tub := none })) LAW_TUB_STATUS 0 := by
  unfold installTub
  rw [h]
  dsimp only
  rw [hr, if_neg Bool.false_ne_true]
  exact ⟨_, rfl⟩

theorem exec_lawTileInstall_of_local {s : State} (h : (s.pair.recs.any fun o => o.r.kind == 2#8 && !o.applied) = false) :
    exec .lawTileInstall s = .next (installTub s) := congrArg _ (if_neg (by rw [h]; exact Bool.false_ne_true))

/-- A waiting commit is installed: the tile, its BL, the store, and LAW_TUB_STATUS at 0 (R122). -/
theorem installTub_gives {n : Nat} {bl : Bool} {w : Who} {s : State} (h : s.law.tub = some (n, bl, w)) (hr : lawRuns s n = false) :
    (∀ i, i < 64 → rd (installTub s) (LAW_TILE n i) = rd s (LAW_TUB i)) ∧ (installTub s).law.tub = none ∧ ((installTub s).axl n).bl = bl ∧
      tget [] (installTub s).law.store n = rdWords s (LAW_TUB 0) 64 ∧ rd (installTub s) LAW_TUB_STATUS = 0 := by
  obtain ⟨r, e⟩ := installTub_of_some h hr
  obtain ⟨htile, htub, hbl, hstore⟩ := installLaw_gives (n := n) (bl := bl) (s := { s with law.tub := none }) (length_rdWords (s := s) (a := LAW_TUB 0))
  generalize installLaw n (rdWords s (LAW_TUB 0) 64) bl { s with law.tub := none } = u at *
  have ht := logPush_touch r u
  have hax : (logPush r u).law.ax = u.law.ax := ht.same .lawAx rfl
  have hst : (logPush r u).law.store = u.law.store := ht.same .lawStore rfl
  have htb : (logPush r u).law.tub = u.law.tub := ht.same .lawTub rfl
  rw [e]
  refine ⟨fun i hi => ?_, ?_, ?_, ?_, rd_wr_same ..⟩
  · rw [rd_wr_other _ _ (by unfold LAW_TILE LAW_TUB_STATUS; omega), rd_logPush (lawTile_not_log n i), htile i hi, getD_lawTub s hi]
  · rw [wr_law, htb, htub]
  · rw [axl_wr, axl_of hax, hbl]
  · rw [wr_law, hst, hstore]

/-! ### Commits of the tile update buffer (R121, R122) -/

/-- The word of LAW_TUB_CMD that commits the tile of an axis: GO, BL and AXIS. -/
theorem tubWord_fields (n : Axis) (bl : Bool) :
    wbit (BitVec.ofNat 32 (2 ^ 31 + bl.toNat * 256 + n.toNat)) 31 = true ∧ wbit (BitVec.ofNat 32 (2 ^ 31 + bl.toNat * 256 + n.toNat)) 8 = bl ∧
      wField (BitVec.ofNat 32 (2 ^ 31 + bl.toNat * 256 + n.toNat)) 7 0 = n.toNat := by
  have hn := n.isLt
  simp only [wbit, wField, fieldOf, BitVec.toNat_ofNat, Nat.testBit_eq_decide_div_mod_eq]
  cases bl <;> simp only [Bool.toNat_false, Bool.toNat_true, decide_eq_true_eq, decide_eq_false_iff_not] <;> omega

theorem mirroring_of {s t : State} (hc : rd t PAIR_CTRL = rd s PAIR_CTRL) (hs : rd t PAIR_STATUS = rd s PAIR_STATUS) : mirroring t = mirroring s := by
  unfold mirroring; rw [fbit_of_rd hc, fget_of_rd hs, fbit_of_rd hs]

theorem mirroring_tubCleared (s : State) : mirroring (wr s LAW_TUB_STATUS 0) = mirroring s :=
  mirroring_of (rd_wr_other _ _ (by decide)) (rd_wr_other _ _ (by decide))

section
variable {w : Who} {n : Axis} {bl : Bool} {s : State}

/-- A sound tile outside a pair waits for the end of a sample, BUSY. -/
theorem tubCmdEff_accepts (hb : fbit s LAW_TUB_STATUS LAW_TUB_STATUS_BUSY = false) (hm : mirroring s = false)
    (hr : tubResult w n.toNat (wr s LAW_TUB_STATUS 0) = 0) :
    tubCmdEff w (BitVec.ofNat 32 (2 ^ 31 + bl.toNat * 256 + n.toNat)) s =
      some (fput { wr s LAW_TUB_STATUS 0 with law.tub := some (n.toNat, bl, w) } LAW_TUB_STATUS LAW_TUB_STATUS_BUSY true) := by
  obtain ⟨hgo, hbl, hn⟩ := tubWord_fields n bl
  unfold tubCmdEff
  simp only [hb, hgo, hbl, hn, hr, mirroring_tubCleared, hm, Bool.false_eq_true, if_false, if_true]

/-- A refused commit shows its reason in RESULT. -/
theorem tubCmdEff_refuses (hb : fbit s LAW_TUB_STATUS LAW_TUB_STATUS_BUSY = false) (hr : tubResult w n.toNat (wr s LAW_TUB_STATUS 0) ≠ 0) :
    tubCmdEff w (BitVec.ofNat 32 (2 ^ 31 + bl.toNat * 256 + n.toNat)) s =
      some (fset (wr s LAW_TUB_STATUS 0) LAW_TUB_STATUS LAW_TUB_STATUS_RESULT (tubResult w n.toNat (wr s LAW_TUB_STATUS 0))) := by
  obtain ⟨hgo, -, hn⟩ := tubWord_fields n bl
  unfold tubCmdEff
  simp only [hb, hgo, hn, hr, Bool.false_eq_true, if_false, if_true]

end

theorem exec_lawTubCommit (w : Who) (n : Axis) (bl : Bool) (s : State) : exec (.lawTubCommit w n bl) s =
    .next (gated w LAW_TUB_CMD (BitVec.ofNat 32 (2 ^ 31 + bl.toNat * 256 + n.toNat)) (tubCmdEff w (BitVec.ofNat 32 (2 ^ 31 + bl.toNat * 256 + n.toNat))) s) := rfl

/-- What a commit outside a pair leaves, by its result. -/
theorem tubCommit_gives {w : Who} {n : Axis} {bl : Bool} {s : State}
    (ha : accepted s w LAW_TUB_CMD (BitVec.ofNat 32 (2 ^ 31 + bl.toNat * 256 + n.toNat)))
    (hb : fbit s LAW_TUB_STATUS LAW_TUB_STATUS_BUSY = false) (hm : mirroring s = false) :
    ∃ t, exec (.lawTubCommit w n bl) s = .next t ∧ t.host.acc = (0, 0) ∧
      (tubResult w n.toNat (wr s LAW_TUB_STATUS 0) = 0 → t.law.tub = some (n.toNat, bl, w) ∧ fbit t LAW_TUB_STATUS LAW_TUB_STATUS_BUSY = true) ∧
      (tubResult w n.toNat (wr s LAW_TUB_STATUS 0) ≠ 0 → t.law.tub = s.law.tub ∧ fbit t LAW_TUB_STATUS LAW_TUB_STATUS_BUSY = false ∧
        fget t LAW_TUB_STATUS LAW_TUB_STATUS_RESULT = tubResult w n.toNat (wr s LAW_TUB_STATUS 0) % 8) := by
  rw [exec_lawTubCommit]
  by_cases hr : tubResult w n.toNat (wr s LAW_TUB_STATUS 0) = 0
  · obtain ⟨t, e, ht, hacc, hrd⟩ := gated_logged ha (tubCmdEff_accepts (bl := bl) hb hm hr)
    have htub : t.law.tub = some (n.toNat, bl, w) := (ht.same .lawTub rfl).trans (by rw [fput_law])
    refine ⟨t, by rw [e], hacc, fun _ => ⟨htub, ?_⟩, fun h => absurd hr h⟩
    rw [fbit_of_rd (hrd LAW_TUB_STATUS (by decide)), fbit_fput (by decide)]
  · obtain ⟨t, e, ht, hacc, hrd⟩ := gated_logged ha (tubCmdEff_refuses (bl := bl) hb hr)
    have htub : t.law.tub = s.law.tub := (ht.same .lawTub rfl).trans (by rw [fset_law, wr_law])
    have hst := hrd LAW_TUB_STATUS (by decide)
    have hclear : fbit (wr s LAW_TUB_STATUS 0) LAW_TUB_STATUS LAW_TUB_STATUS_BUSY = false := by unfold fbit fget; rw [rd_wr_same]; rfl
    refine ⟨t, by rw [e], hacc, fun h => absurd h hr, fun _ => ⟨htub, ?_, ?_⟩⟩
    · rw [fbit_of_rd hst, ← hclear]; unfold fbit; rw [fget_fset_apart (by decide) (by decide) (by decide)]
    · rw [fget_of_rd hst, fget_fset (by decide)]; rfl

/-! ### The handover of the spring ramp (R120) -/

theorem exec_springRampHandover_of_settled {n : Axis} {s : State} (ho : (s.axl n.toNat).srOn = true)
    (hr : 8 ≤ wField ((stateTile s n.toNat).getD 0 0) 7 0) : exec (.springRampHandover n) s =
      .next (showSrc n.toNat ((putState s n.toNat (noRamp (stateTile s n.toNat))).setAxl n.toNat
        { (putState s n.toNat (noRamp (stateTile s n.toNat))).axl n.toNat with srOn := false })) :=
  congrArg _ (if_pos (by rw [ho, decide_eq_true hr]; rfl))

/-- Settles O16: each command by the equation for its condition; causes and reactions by `raiseCause_gives` and `react_gives`. -/
theorem lawReactionsAct : Obligations.LawReactionsAct := by
  unfold Obligations.LawReactionsAct
  refine ⟨?satur, ?hold, ?rebuild, ?handover, ?commit, ?install⟩
  case satur =>
    intro n s h0 hl hw hc
    obtain ⟨hcause, hlast, hreact⟩ := raiseCause_gives (n := n.toNat) (code := 7) (by decide) hc
    have hx := exec_satur_of_clamped h0 hl hw
    have ht := execSatur_touch n s _ hx
    refine ⟨_, hx, hcause, hlast, hreact, ?_, ht.only _ (by decide +kernel)⟩
    exact words_of ht (L := [107, 109, 110, 124, 136, 137, 149, 263, 265]) (by decide +kernel)
      ⟨fun _ k => .inr (.inl (of_STATE_TILE k)), fun _ k => .inr (.inr (.inl (of_AX_STATUS k))), fun _ k => .inr (.inr (.inr (.inl (of_AX_FAULT k)))),
       eachCls_genOff (fun _ k => .inr (.inr (.inr (.inr k)))) (eachCls_sed fun _ => .inl)⟩
  case hold =>
    intro n s hr hd hf
    obtain ⟨hcause, -, hreact, hfault, hoff⟩ := react_gives (n := n.toNat) (s := s) (le_refl 4) hf
    have hx := exec_holdTimeout_of_due hr hd
    have ht := execHoldTimeout_touch n s _ hx
    rw [hr] at hreact hfault hoff
    refine ⟨_, hx, hreact, hfault (by decide), hoff (by decide) rfl, hcause, ?_, ht.only _ (by decide +kernel)⟩
    exact words_of ht (L := [107, 109, 124, 136, 137, 149, 263, 265]) (by decide +kernel)
      ⟨fun _ k => .inr (.inl (of_STATE_TILE k)), fun _ k => .inr (.inr (.inl (of_AX_STATUS k))),
       eachCls_genOff (fun _ k => .inr (.inr (.inr k))) (eachCls_sed fun _ => .inl)⟩
  case rebuild =>
    rintro n l s hc hr rfl hl hs
    obtain ⟨htile, hbit⟩ := rebuildLaw_gives hl hs
    have hx := exec_lawTileRebuild_of_failing hc hr
    have ht := execLawTileRebuild_touch n s _ hx
    refine ⟨_, hx, htile, hbit, ?_, ht.only _ (by decide +kernel)⟩
    exact words_of ht (L := [23, 106, 107, 108, 109, 124, 136, 137, 149, 256, 257, 263, 265]) (by decide +kernel)
      ⟨fun _ k => .inr (.inl (logAddr_of_nvm k)), fun _ k => .inr (.inr (.inl (of_LAW_TILE k))), fun _ k => .inr (.inr (.inr (.inl (of_STATE_TILE k)))),
       fun _ k => .inr (.inr (.inr (.inr (.inl (of_AX_CTRL k))))), fun _ k => .inr (.inr (.inr (.inr (.inr (.inl (of_AX_STATUS k)))))),
       eachCls_genOff (fun _ k => .inr (.inr (.inr (.inr (.inr (.inr k)))))) (eachCls_log_sed (fun _ k => .inr (.inl k)) fun _ => .inl)⟩
  case handover =>
    intro n s ho hr
    have hx := exec_springRampHandover_of_settled ho hr
    have ht := execSpringRampHandover_touch n s _ hx
    refine ⟨_, hx, ?_, fget_showSrc_src, ?_, ht.only _ (by decide +kernel)⟩
    · rw [axl_showSrc, axl_setAxl_same]
    · exact words_of ht (L := [107, 109]) (by decide +kernel) ⟨fun _ k => .inl (of_STATE_TILE k), fun _ k => .inr (of_AX_STATUS k), trivial⟩
  case commit =>
    intro w n bl s ha hb hm
    obtain ⟨t, hx, hacc, hok, hno⟩ := tubCommit_gives ha hb hm
    have ht := execLawTubCommit_touch w n bl s _ hx
    refine ⟨t, hx, hacc, hok, hno, ?_, ht.only _ (by decide +kernel)⟩
    exact words_of ht (L := [23, 118, 256, 257, 263, 265]) (by decide +kernel)
      ⟨fun _ k => .inr (.inl (logAddr_of_nvm k)), fun _ k => .inr (.inr (of_LAW_TUB_STATUS k)), eachCls_log_sed (fun _ k => .inr (.inl k)) fun _ => .inl⟩
  case install =>
    intro n bl w s h hr hp
    obtain ⟨htile, htub, hbl, hstore, hst⟩ := installTub_gives h hr
    have hx := exec_lawTileInstall_of_local hp
    have ht := execLawTileInstall_touch s _ hx
    refine ⟨_, hx, htile, htub, hbl, hstore, hst, ?_, ht.only _ (by decide +kernel)⟩
    exact words_of ht (L := [23, 106, 118, 256, 257]) (by decide +kernel)
      ⟨fun _ k => .inl (logAddr_of_nvm k), fun _ k => .inr (.inl (of_LAW_TILE k)), fun _ k => .inr (.inr (of_LAW_TUB_STATUS k)),
       fun _ k => .inl (logAddr_iff.2 (.inr (.inr (of_LOG_HEAD k)))), fun _ k => .inl (logAddr_iff.2 (.inr (.inl (of_LOG_LOST k)))), trivial⟩

/-! ### Writes of AX_CTRL (R116) -/

/-- AX_CTRL takes a write whose MODE is no reserved code. -/
def putAxCtrl (n : Nat) (v : Word) (s : State) : State :=
  wr s (AX_CTRL n) (applied { base := 0, dims := [], rows := [⟨23, 16, .rwl, 0⟩, ⟨7, 4, .rwl, 0⟩, ⟨1, 0, .rw, 0⟩] } (rd s (AX_CTRL n)) v)

theorem axMode_putAxCtrl (n : Nat) (v : Word) (s : State) : axMode (putAxCtrl n v s) n = wField v 1 0 := by
  unfold axMode putAxCtrl fget
  rw [rd_wr_same]
  exact applied_low (l := [⟨23, 16, .rwl, 0⟩, ⟨7, 4, .rwl, 0⟩]) (by decide)

theorem axl_putAxCtrl (n k : Nat) (v : Word) (s : State) : (putAxCtrl n v s).axl k = s.axl k := axl_wr ..

theorem axMode_showSrc (n : Nat) (s : State) : axMode (showSrc n s) n = axMode s n := fget_fset_other (axCtrl_ne_axStatus n) _

section
variable {n : Nat} {v : Word} {s : State}

theorem axCtrlEff_off (hm : axMode s n ≠ 0) (hv : wField v 1 0 = 0) : axCtrlEff n v s = some (enterOff n (putAxCtrl n v s)) := by
  unfold axCtrlEff
  simp only [hv, Ne.symm hm, putAxCtrl, if_false, decide_false, OfNat.zero_ne_ofNat, Bool.or_self, Bool.false_eq_true, if_true]

/-- MODE := AUTO starts afresh with the spring ramp (R117, R118). -/
theorem axCtrlEff_auto (hm : axMode s n ≠ 2) (hv : wField v 1 0 = 2) (hq : torqueOffLatched s n = false) (hu : (s.ctx n).used = true)
    (hz : zoneBlocks s n = false) : axCtrlEff n v s =
      some (showSrc n (putAxCtrl n v (s.setAxl n { s.axl n with srStart := true, fromMan := axMode s n == 1 }))) := by
  unfold axCtrlEff
  simp [hv, Ne.symm hm, hq, hu, hz, putAxCtrl]

/-- A latched TORQUE_OFF, an unused axis or a safety zone that is not ON keeps an axis in OFF (R116, R412). -/
theorem axCtrlEff_blocked (hm : axMode s n = 0) (hv : wField v 1 0 = 1 ∨ wField v 1 0 = 2)
    (hb : torqueOffLatched s n = true ∨ (s.ctx n).used = false ∨ zoneBlocks s n = true) : axCtrlEff n v s = none := by
  have hblock : (torqueOffLatched s n || !(s.ctx n).used || zoneBlocks s n) = true := by
    rcases hb with h | h | h <;> simp [h]
  unfold axCtrlEff
  rcases hv with h | h <;> simp [h, hm, hblock]

end

theorem exec_modeWrite (w : Who) (n : Axis) (v : Word) (s : State) :
    exec (.modeWrite w n v) s = .next (gated w (AX_CTRL n.toNat) v (axCtrlEff n.toNat v) s) := rfl

/-- The frame of a write of AX_CTRL. -/
theorem modeWrite_frame {w : Who} {n : Axis} {v : Word} {s t : State} (hx : exec (.modeWrite w n v) s = .next t) :
    regsOnly (fun a => sedAny a ∨ logAddr a ∨ (∃ i j, a = STATE_TILE i j) ∨ (∃ i, a = AX_CTRL i) ∨ (∃ i, a = AX_STATUS i) ∨ (∃ i, a = AX_MAN_OUT i) ∨
        genOffAddr a) s t ∧
      onlyParts (sedParts.append (logParts.append [.lawAx, .motGen, .hostAcc])) s t := by
  have ht := execModeWrite_touch w n v s t hx
  refine ⟨?_, ht.only _ (by decide +kernel)⟩
  exact words_of ht (L := [23, 107, 108, 109, 112, 124, 136, 137, 149, 256, 257, 263, 265]) (by decide +kernel)
    ⟨fun _ k => .inr (.inl (logAddr_of_nvm k)), fun _ k => .inr (.inr (.inl (of_STATE_TILE k))), fun _ k => .inr (.inr (.inr (.inl (of_AX_CTRL k)))),
     fun _ k => .inr (.inr (.inr (.inr (.inl (of_AX_STATUS k))))), fun _ k => .inr (.inr (.inr (.inr (.inr (.inl (of_AX_MAN_OUT k)))))),
     eachCls_genOff (fun _ k => .inr (.inr (.inr (.inr (.inr (.inr k)))))) (eachCls_log_sed (fun _ k => .inr (.inl k)) fun _ => .inl)⟩

/-! ### The bits of AX_CMD (Table 3.15) -/

theorem axCmdEff_fclr (n : Nat) (s : State) : axCmdEff n 1 s = some (fclrEff n s) := by simp [axCmdEff, wbit, Nat.testBit_eq_decide_div_mod_eq]
theorem axCmdEff_rst (n : Nat) (s : State) : axCmdEff n 2 s = some (rstEff n s) := by simp [axCmdEff, wbit, Nat.testBit_eq_decide_div_mod_eq]
theorem axCmdEff_sr (n : Nat) (s : State) : axCmdEff n 4 s = some (srEff n s) := by simp [axCmdEff, wbit, Nat.testBit_eq_decide_div_mod_eq]
theorem axCmdEff_snap (n : Nat) (s : State) : axCmdEff n 8 s = some (snapEff n s) := by simp [axCmdEff, wbit, Nat.testBit_eq_decide_div_mod_eq]

theorem exec_fclr (w : Who) (n : Axis) (s : State) : exec (.fclr w n) s = .next (gated w (AX_CMD n.toNat) 1 (axCmdEff n.toNat 1) s) := rfl
theorem exec_rst (w : Who) (n : Axis) (s : State) : exec (.rst w n) s = .next (gated w (AX_CMD n.toNat) 2 (axCmdEff n.toNat 2) s) := rfl
theorem exec_sr (w : Who) (n : Axis) (s : State) : exec (.sr w n) s = .next (gated w (AX_CMD n.toNat) 4 (axCmdEff n.toNat 4) s) := rfl
theorem exec_snap (w : Who) (n : Axis) (s : State) : exec (.snap w n) s = .next (gated w (AX_CMD n.toNat) 8 (axCmdEff n.toNat 8) s) := rfl

/-- FCLR with no cause and TORQUE_OFF latched: the reaction is cleared and the axis enters OFF (R128). -/
theorem fclrEff_of_torqueOff {n : Nat} {s : State} (hc : (s.axl n).causes = 0) (hq : torqueOffLatched s n = true) :
    fclrEff n s = enterOff n (fset (fset s (AX_STATUS n) AX_STATUS_REACT 0) (AX_STATUS n) AX_STATUS_FAULT 0) := by
  have hr : fget s (AX_STATUS n) AX_STATUS_REACT = 4 := beq_iff_eq.1 hq
  unfold fclrEff
  simp only [hc, hr, ne_eq, not_true_eq_false, if_false, if_true]

theorem fclrEff_gives {n : Nat} {s : State} (hc : (s.axl n).causes = 0) (hq : torqueOffLatched s n = true) :
    fget (fclrEff n s) (AX_STATUS n) AX_STATUS_REACT = 0 ∧ fget (fclrEff n s) (AX_STATUS n) AX_STATUS_FAULT = 0 ∧ axMode (fclrEff n s) n = 0 := by
  rw [fclrEff_of_torqueOff hc hq]
  obtain ⟨hmode, -, -, hreact, hfault, -⟩ := enterOff_gives (n := n) (s := fset (fset s (AX_STATUS n) AX_STATUS_REACT 0) (AX_STATUS n) AX_STATUS_FAULT 0)
  refine ⟨?_, ?_, hmode⟩
  · rw [hreact, fget_fset_apart (by decide) (by decide) (by decide), fget_fset (by decide)]; rfl
  · rw [hfault, fget_fset (by decide)]; rfl

theorem srEff_of_auto {n : Nat} {s : State} (hm : axMode s n = 2) : srEff n s = showSrc n (s.setAxl n { s.axl n with srStart := true }) := if_pos hm

/-! ### The axis reset (R113, Table 14.4) -/

/-- A rebuild keeps the causes, and an axis in OFF stays there. -/
theorem rebuildLaw_keeps {n : Nat} {s : State} (hm : axMode s n = 0) :
    axMode (rebuildLaw n s) n = 0 ∧ ((rebuildLaw n s).axl n).causes = (s.axl n).causes := by
  have hlog (k r o d : Nat) (u : State) : axMode (logSteward k r o d u) n = axMode u n ∧ (logSteward k r o d u).axl n = u.axl n :=
    ⟨axMode_of_rd (rd_logSteward (axCtrl_not_log n)), axl_of ((logSteward_touch ..).same .lawAx rfl) n⟩
  unfold rebuildLaw
  dsimp only
  split
  · obtain ⟨h1, h2⟩ := hlog 5 0 n 0 (w1cSet (AX_STATUS n) AX_STATUS_REBUILT n (wrAll (LAW_TILE n) 0 (tget [] s.law.store n) s))
    rw [h1, h2, axl_w1cSet, axl_of_law law_wrAll]
    refine ⟨(axMode_of_rd ?_).trans hm, rfl⟩
    rw [rd_w1cSet_lo (axCtrl_ne_axStatus n) (axCtrl_lo n), rd_wrAll_other fun j => by unfold AX_CTRL LAW_TILE; omega]
  · obtain ⟨h1, h2⟩ := hlog 5 2 n 0 (enterOff n s)
    obtain ⟨hmode, -, hcause, -, -, -⟩ := enterOff_gives (n := n) (s := s)
    rw [h1, h2]
    exact ⟨hmode, hcause⟩

/-- An axis in OFF without causes. -/
def offNoCauses (n : Nat) (s : State) : State := (enterOff n s).setAxl n { (enterOff n s).axl n with causes := 0 }

/-- The registers of an axis, its profile page and its count of overruns set anew. -/
def resetAxisWords (n : Nat) (s : State) : State :=
  resetWords (PF_CTRL n) 44 (resetWords (AX_STATUS n) 2
    { s with sch.ovr := tset 0 s.sch.ovr n 0, sch.ovrHere := tset false s.sch.ovrHere n false })

/-- The axis reset up to the feedback of its node. -/
def resetAxis (n : Nat) (s : State) : State := clearInit n (genOff n (resetAxisWords n (offNoCauses n s)))

/-- The feedback of a node's axis counts as not received. -/
def dropNodeFb (n : Nat) (s : State) : State := if (s.ctx n).node.isSome then s.setFb n { s.fb n with got := false } else s

theorem rstEff_eq (n : Nat) (s : State) : rstEff n s =
    if tileOk (lawTile (dropNodeFb n (resetAxis n s)) n) then dropNodeFb n (resetAxis n s) else rebuildLaw n (dropNodeFb n (resetAxis n s)) := rfl

theorem offNoCauses_gives (n : Nat) (s : State) : axMode (offNoCauses n s) n = 0 ∧ ((offNoCauses n s).axl n).causes = 0 :=
  ⟨(axMode_of_rd (rd_setAxl ..)).trans (enterOff_gives (n := n) (s := s)).1, congrArg AxLaw.causes (axl_setAxl_same ..)⟩

theorem resetAxisWords_keeps (n : Nat) (s : State) : axMode (resetAxisWords n s) n = axMode s n ∧ (resetAxisWords n s).axl n = s.axl n := by
  refine ⟨axMode_of_rd ?_, axl_of_law (law_resetWords.trans law_resetWords) n⟩
  exact (rd_resetWords_other (by unfold AX_CTRL PF_CTRL; omega)).trans (rd_resetWords_other (by unfold AX_CTRL AX_STATUS; omega))

theorem dropNodeFb_keeps (n : Nat) (s : State) : axMode (dropNodeFb n s) n = axMode s n ∧ (dropNodeFb n s).axl n = s.axl n :=
  ite_k (P := fun t : State => axMode t n = axMode s n ∧ t.axl n = s.axl n) ⟨axMode_of_rd (rd_setFb ..), axl_of_law (setFb_law ..) n⟩ ⟨rfl, rfl⟩

theorem resetAxis_gives (n : Nat) (s : State) : axMode (resetAxis n s) n = 0 ∧ ((resetAxis n s).axl n).causes = 0 := by
  obtain ⟨hm, hc⟩ := offNoCauses_gives n s
  obtain ⟨hm', hx⟩ := resetAxisWords_keeps n (offNoCauses n s)
  have ht : Touch (k_clearInit ||| k_genOff) (resetAxisWords n (offNoCauses n s)) (resetAxis n s) := (clearInit_touch ..).trans (genOff_touch ..)
  rw [axMode_of_rd (ht.off (okw_AX_CTRL (m := 0x10000000000000000000000000000000000000000000000000000000000000000000) (by decide)) (by decide +kernel)), axl_of (ht.same .lawAx rfl), hm', hx]
  exact ⟨hm, hc⟩

theorem rstEff_gives (n : Nat) (s : State) : axMode (rstEff n s) n = 0 ∧ ((rstEff n s).axl n).causes = 0 := by
  obtain ⟨hm, hc⟩ := resetAxis_gives n s
  obtain ⟨hm', hx⟩ := dropNodeFb_keeps n (resetAxis n s)
  rw [← hm'] at hm
  rw [← hx] at hc
  obtain ⟨hr, hrc⟩ := rebuildLaw_keeps hm
  rw [rstEff_eq]
  exact ite_k (P := fun t : State => axMode t n = 0 ∧ (t.axl n).causes = 0) ⟨hm, hc⟩ ⟨hr, hrc.trans hc⟩

/-- A footprint of the sediment queues, the change log and the blocks of the laws and the profiles. -/
theorem rst_words {m : Nat} {s t : State} {P : Nat → Prop} (h : Touch m s t) (hs : ∀ a, sedAny a → P a) (hl : ∀ a, logAddr a = true → P a)
    (h7 : ∀ a, blockNo a = 7 → P a) (h6 : ∀ a, blockNo a = 6 → P a)
    (hL : (regBits m).all (fun k => decide (k ∈ [23, 256, 257, 263, 265]) || decide (k ≠ 266 ∧ k < 272 ∧ clsBlock k ∈ [6, 7])) = true) :
    regsOnly P s t := by
  refine h.words fun k hk a ha => ?_
  have hk' := List.all_eq_true.1 hL k hk
  simp only [Bool.or_eq_true, decide_eq_true_eq, List.mem_cons, List.not_mem_nil, or_false] at hk'
  rcases hk' with (rfl | rfl | rfl | rfl | rfl) | ⟨h0, h1, hb | hb⟩
  · exact hl a (logAddr_of_nvm ha)
  · exact hl a (logAddr_iff.2 (.inr (.inr (of_LOG_HEAD ha))))
  · exact hl a (logAddr_iff.2 (.inr (.inl (of_LOG_LOST ha))))
  · exact hs a (.inl (of_DIAG_STATUS ha))
  · exact hs a (.inr (of_SED ha))
  · exact h6 a ((block_of_range h0 h1 ha).trans hb)
  · exact h7 a ((block_of_range h0 h1 ha).trans hb)

/-! ### Snapshots (R123, R131) -/

/-- A snapshot of an axis is done: no request, DONE and AXIS in LAW_SNAP_STATUS. -/
def snapDone (n : Nat) (s : State) : State :=
  fput (fset { s with law.snap := none } LAW_SNAP_STATUS LAW_SNAP_STATUS_AXIS n) LAW_SNAP_STATUS LAW_SNAP_STATUS_DONE true

theorem snapDone_gives {n : Nat} (hn : n < 256) (s : State) : (snapDone n s).law.snap = none ∧
    fbit (snapDone n s) LAW_SNAP_STATUS LAW_SNAP_STATUS_DONE = true ∧ fget (snapDone n s) LAW_SNAP_STATUS LAW_SNAP_STATUS_AXIS = n := by
  refine ⟨by rw [snapDone, fput_law, fset_law], fbit_fput (by decide) true, ?_⟩
  unfold snapDone fput
  rw [fget_fset_apart (by decide) (by decide) (by decide), fget_fset (by decide)]
  exact Nat.mod_eq_of_lt hn

theorem rd_snapDone {n a : Nat} {s : State} (h : a ≠ LAW_SNAP_STATUS) : rd (snapDone n s) a = rd s a := (rd_fset_other h).trans (rd_fset_other h)

theorem exec_snapCopy_of_due {n : Nat} {s : State} (h : s.law.snap = some n) (hr : lawRuns s n = false) : exec .snapCopy s =
    .next (snapDone n (wrAll LAW_SNAP_STATE 0 (stateTile s n) (wrAll LAW_SNAP_LAW 0 (lawTile s n) s))) := by
  show execSnapCopy s = _
  unfold execSnapCopy
  rw [h]
  exact congrArg _ (if_neg (by rw [hr]; exact Bool.false_ne_true))

theorem lawSnapLaw_inj {j k : Nat} (hj : j < 64) (hk : k < 64) (h : LAW_SNAP_LAW j = LAW_SNAP_LAW k) : j = k := by unfold LAW_SNAP_LAW at h; omega
theorem lawSnapState_inj {j k : Nat} (hj : j < 64) (hk : k < 64) (h : LAW_SNAP_STATE j = LAW_SNAP_STATE k) : j = k := by unfold LAW_SNAP_STATE at h; omega

/-- Both tiles of an axis stand in the snapshot buffer. -/
theorem rd_snapshot {n : Nat} {s : State} {i : Nat} (hi : i < 64) :
    rd (wrAll LAW_SNAP_STATE 0 (stateTile s n) (wrAll LAW_SNAP_LAW 0 (lawTile s n) s)) (LAW_SNAP_LAW i) = rd s (LAW_TILE n i) ∧
      rd (wrAll LAW_SNAP_STATE 0 (stateTile s n) (wrAll LAW_SNAP_LAW 0 (lawTile s n) s)) (LAW_SNAP_STATE i) = rd s (STATE_TILE n i) := by
  refine ⟨?_, ?_⟩
  · rw [rd_wrAll_other fun j => by unfold LAW_SNAP_LAW LAW_SNAP_STATE; omega, rd_wrAll_tile (fun _ _ => lawSnapLaw_inj) (length_lawTile s n) hi,
      getD_lawTile s n hi]
  · rw [rd_wrAll_tile (fun _ _ => lawSnapState_inj) (length_stateTile s n) hi, getD_stateTile s n hi]

/-- Settles O17: MODE by the branch of `axCtrlEff`, AX_CMD by its one bit; the gate adds the change log. -/
theorem axisCommandsAct : Obligations.AxisCommandsAct := by
  unfold Obligations.AxisCommandsAct
  refine ⟨?off, ?auto, ?blocked, ?snap, ?copy, ?sr, ?rst, ?fclr⟩
  case off =>
    intro w n v s ha hm hv
    obtain ⟨t, e, ht, hacc, hrd⟩ := gated_logged ha (axCtrlEff_off hm hv)
    obtain ⟨hmode, hoff, hcause, -, -, hsrc⟩ := enterOff_gives (n := n.toNat) (s := putAxCtrl n.toNat v s)
    have hax := axl_of (ht.same .lawAx rfl) n.toNat
    have hx : exec (.modeWrite w n v) s = .next t := by rw [exec_modeWrite, e]
    refine ⟨t, hx, ?_, ?_, ?_, ?_, hacc, modeWrite_frame hx⟩
    · rw [axMode_of_rd (hrd _ (axCtrl_not_log _)), hmode]
    · rw [hax, hoff]
    · rw [fget_of_rd (hrd _ (axStatus_not_log _)), hsrc]
    · rw [hax, hcause, axl_putAxCtrl]
  case auto =>
    intro w n v s ha hm hv hq hu hz
    obtain ⟨t, e, ht, hacc, hrd⟩ := gated_logged ha (axCtrlEff_auto hm hv hq hu hz)
    have hax := axl_of (ht.same .lawAx rfl) n.toNat
    have hctrl := hrd _ (axCtrl_not_log n.toNat)
    have hx : exec (.modeWrite w n v) s = .next t := by rw [exec_modeWrite, e]
    refine ⟨t, hx, ?_, ?_, showSrc_later hctrl (hrd _ (axStatus_not_log _)) hax, hacc, modeWrite_frame hx⟩
    · rw [axMode_of_rd hctrl, axMode_showSrc, axMode_putAxCtrl, hv]
    · rw [hax, axl_showSrc, axl_putAxCtrl, axl_setAxl_same]
  case blocked =>
    intro w n v s hj hm hv hb
    have hx : exec (.modeWrite w n v) s = .next (refuseWrite w (AX_CTRL n.toNat) v 0x0004 s) := by
      rw [exec_modeWrite, gated_ruled hj (axCtrlEff_blocked hm hv hb)]
    refine ⟨_, hx, acc_refuseWrite .., ?_, (refuseWrite_touch ..).same .lawAx rfl, modeWrite_frame hx⟩
    exact rd_refuseWrite (axCtrl_not_log _) fun k => absurd (sedAddr_range k).1 (by have := axCtrl_lo n.toNat; omega)
  case snap =>
    intro w n s ha
    obtain ⟨t, e, ht, hacc, hrd⟩ := gated_logged ha (axCmdEff_snap n.toNat s)
    have hall := ht.trans (snapEff_touch n.toNat s)
    have hsnap : t.law.snap = some n.toNat := (ht.same .lawSnap rfl).trans (by rw [snapEff, fput_law])
    refine ⟨t, by rw [exec_snap, e], hsnap, ?_, hacc, ?_, hall.only _ (by decide +kernel)⟩
    · rw [fbit_of_rd (hrd LAW_SNAP_STATUS (by decide))]; exact fbit_fput (by decide) false
    · exact words_of hall (L := [23, 119, 256, 257]) (by decide +kernel)
        ⟨fun _ k => .inl (logAddr_of_nvm k), fun _ k => .inr (of_LAW_SNAP_STATUS k),
         fun _ k => .inl (logAddr_iff.2 (.inr (.inr (of_LOG_HEAD k)))), fun _ k => .inl (logAddr_iff.2 (.inr (.inl (of_LOG_LOST k)))), trivial⟩
  case copy =>
    intro n s h hn hr
    have hx := exec_snapCopy_of_due h hr
    have ht := execSnapCopy_touch s _ hx
    obtain ⟨hsnap, hdone, haxis⟩ := snapDone_gives hn (wrAll LAW_SNAP_STATE 0 (stateTile s n) (wrAll LAW_SNAP_LAW 0 (lawTile s n) s))
    refine ⟨_, hx, hsnap, hdone, haxis, fun i hi => ?_, ?_, ht.only _ (by decide +kernel)⟩
    · obtain ⟨hlaw, hstate⟩ := rd_snapshot (n := n) (s := s) hi
      exact ⟨(rd_snapDone (by unfold LAW_SNAP_LAW LAW_SNAP_STATUS; omega)).trans hlaw,
        (rd_snapDone (by unfold LAW_SNAP_STATE LAW_SNAP_STATUS; omega)).trans hstate⟩
    · exact words_of ht (L := [119, 121, 122]) (by decide +kernel)
        ⟨fun _ k => .inl (of_LAW_SNAP_STATUS k), fun _ k => .inr (.inl (of_LAW_SNAP_LAW k)), fun _ k => .inr (.inr (of_LAW_SNAP_STATE k)), trivial⟩
  case sr =>
    intro w n s ha hm
    have hsr := srEff_of_auto hm
    obtain ⟨t, e, ht, hacc, hrd⟩ := gated_logged ha (axCmdEff_sr n.toNat s)
    have hall := ht.trans (srEff_touch n.toNat s)
    have hax := axl_of (ht.same .lawAx rfl) n.toNat
    rw [hsr] at hrd hax
    refine ⟨t, by rw [exec_sr, e], ?_, showSrc_later (hrd _ (axCtrl_not_log _)) (hrd _ (axStatus_not_log _)) hax, hacc, ?_, hall.only _ (by decide +kernel)⟩
    · rw [hax, axl_showSrc, axl_setAxl_same]
    · exact words_of hall (L := [23, 109, 256, 257, 263, 265]) (by decide +kernel)
        ⟨fun _ k => .inr (.inl (logAddr_of_nvm k)), fun _ k => .inr (.inr (of_AX_STATUS k)), eachCls_log_sed (fun _ k => .inr (.inl k)) fun _ => .inl⟩
  case rst =>
    intro w n s ha
    obtain ⟨t, e, ht, hacc, hrd⟩ := gated_logged ha (axCmdEff_rst n.toNat s)
    have hall := ht.trans (rstEff_touch n.toNat s)
    obtain ⟨hmode, hcause⟩ := rstEff_gives n.toNat s
    refine ⟨t, by rw [exec_rst, e], ?_, ?_, hacc, ?_, hall.only _ (by decide +kernel)⟩
    · rw [axMode_of_rd (hrd _ (axCtrl_not_log _)), hmode]
    · rw [axl_of (ht.same .lawAx rfl), hcause]
    · exact rst_words hall (fun _ => .inl) (fun _ k => .inr (.inl k)) (fun _ k => .inr (.inr (.inr (.inr (.inr (.inr (.inr (.inr (.inr (.inr (.inl k)))))))))))
        (fun _ k => .inr (.inr (.inr (.inr (.inr (.inr (.inr (.inr (.inr (.inr (.inr k))))))))))) (by decide +kernel)
  case fclr =>
    intro w n s ha hc hq
    obtain ⟨t, e, ht, hacc, hrd⟩ := gated_logged ha (axCmdEff_fclr n.toNat s)
    have hall := ht.trans (fclrEff_touch n.toNat s)
    obtain ⟨hreact, hfault, hmode⟩ := fclrEff_gives hc hq
    have hst := hrd _ (axStatus_not_log n.toNat)
    refine ⟨t, by rw [exec_fclr, e], ?_, ?_, ?_, hacc, ?_, hall.only _ (by decide +kernel)⟩
    · rw [fget_of_rd hst, hreact]
    · rw [fget_of_rd hst, hfault]
    · rw [axMode_of_rd (hrd _ (axCtrl_not_log _)), hmode]
    · exact words_of hall (L := [23, 107, 108, 109, 124, 136, 137, 149, 256, 257, 263, 265]) (by decide +kernel)
        ⟨fun _ k => .inr (.inl (logAddr_of_nvm k)), fun _ k => .inr (.inr (.inl (of_STATE_TILE k))), fun _ k => .inr (.inr (.inr (.inl (of_AX_CTRL k)))),
         fun _ k => .inr (.inr (.inr (.inr (.inl (of_AX_STATUS k))))),
         eachCls_genOff (fun _ k => .inr (.inr (.inr (.inr (.inr k))))) (eachCls_log_sed (fun _ k => .inr (.inl k)) fun _ => .inl)⟩

end Sys2Proof.Laws

/-! PROOF. Motion generation (O18 to O21): moves and the queue, the commands of a generator, limits, ratios, shifts and switches, changeover requests and cam tiles. -/

namespace Sys2Proof.Laws
open Sys2Proof Sys2Proof.Machine R

/-! ### Registers of the profile page beside others -/

theorem pfResult_not_log (n : Nat) : ¬ logAddr (PF_RESULT n) = true := not_log (by unfold PF_RESULT; omega)
theorem pfStatus_not_log (n : Nat) : ¬ logAddr (PF_STATUS n) = true := not_log (by unfold PF_STATUS; omega)
theorem pfStatus_ne_pfResult (n : Nat) : PF_STATUS n ≠ PF_RESULT n := by unfold PF_STATUS PF_RESULT; omega

theorem rd_pfResult_done (n : Nat) (s : State) : rd (pfResult n 0 s) (PF_RESULT n) = 0x80000000 := rd_pfResult.trans (by decide)
theorem rd_pfResult_mode (n : Nat) (s : State) : rd (pfResult n 3 s) (PF_RESULT n) = 0x80000003 := rd_pfResult.trans (by decide)
theorem mot_pfResult (n c : Nat) (s : State) : (pfResult n c s).mot = s.mot := wrN_mot ..
theorem fget_status_pfResult (n c : Nat) (f : Fld) (s : State) : fget (pfResult n c s) (PF_STATUS n) f = fget s (PF_STATUS n) f :=
  fget_wr_other (pfStatus_ne_pfResult n) _
theorem fbit_status_pfResult (n c : Nat) (f : Fld) (s : State) : fbit (pfResult n c s) (PF_STATUS n) f = fbit s (PF_STATUS n) f := by
  unfold fbit; rw [fget_status_pfResult]

/-! ### Moves (R141, R142) -/

/-- The target of a move: PF_MV_TGT, relative to the last target waiting or to p_gen. -/
def moveTarget (n : Nat) (rel : Bool) (s : State) : Int :=
  if rel then sx 64 (ux 64 (sx 64 (rd64 s (PF_MV_TGT n)) + (s.gen n).queue.getLast?.getD (s.gen n).p)) else sx 64 (rd64 s (PF_MV_TGT n))

theorem moveTarget_abs (n : Nat) (s : State) : moveTarget n false s = sx 64 (rd64 s (PF_MV_TGT n)) := if_neg Bool.false_ne_true
theorem moveTarget_rel (n : Nat) (s : State) :
    moveTarget n true s = sx 64 (ux 64 (sx 64 (rd64 s (PF_MV_TGT n)) + (s.gen n).queue.getLast?.getD (s.gen n).p)) := if_pos rfl

section
variable {n : Nat} {rel : Bool} {s : State}

/-- A move that passes the tests for MODE, BUSY, LIMITS and REJECT_LIM joins the queue. -/
theorem insertMove_accepts (hm : noMotion s n = false) (hg : gmode s n ≤ 1) (hq : (s.gen n).queue.length < 4)
    (hl : (limRegs s n).any (· == 0) = false) (ho : outside s n (moveTarget n rel s) = false) :
    insertMove n rel s = pfResult n 0 (setQueue n ((s.gen n).queue ++ [moveTarget n rel s]) s) := by
  unfold insertMove
  rw [if_neg (by simp only [hm, Bool.false_or, decide_eq_true_eq]; omega), if_neg (by omega), if_neg (by rw [hl]; exact Bool.false_ne_true)]
  exact if_neg (by unfold moveTarget at ho; rw [ho]; exact Bool.false_ne_true)

theorem insertMove_mode (hm : noMotion s n = true) : insertMove n rel s = pfResult n 3 s := if_pos (by rw [hm]; rfl)

theorem flushQueue_accepts (hm : noMotion s n = false) : flushQueue n s = pfResult n 0 (setQueue n ((s.gen n).queue.take 1) s) :=
  if_neg (by rw [hm]; exact Bool.false_ne_true)

/-- An accepted change of the queue: the queue, its depth and the result. -/
theorem queueDone_gives {q : List Int} (hq : q.length < 8) :
    ((pfResult n 0 (setQueue n q s)).gen n).queue = q ∧ rd (pfResult n 0 (setQueue n q s)) (PF_RESULT n) = 0x80000000 ∧
      fget (pfResult n 0 (setQueue n q s)) (PF_STATUS n) PF_STATUS_QDEPTH = q.length := by
  obtain ⟨hgen, hdepth⟩ := setQueue_gives (n := n) (s := s) hq
  exact ⟨by rw [gen_pfResult, hgen], rd_pfResult_done .., by rw [fget_status_pfResult, hdepth]⟩

end

theorem mvWord_abs : BitVec.ofNat 32 (1 * 2 ^ 30) = 0x40000000 := by decide
theorem mvWord_rel : BitVec.ofNat 32 (2 * 2 ^ 30) = 0x80000000 := by decide
theorem mvWord_flush : BitVec.ofNat 32 (3 * 2 ^ 30) = 0xC0000000 := by decide

theorem mvCmdEff_abs (n : Nat) (s : State) : mvCmdEff n 0x40000000 s = some (insertMove n false (wr s (PF_RESULT n) 0)) := rfl
theorem mvCmdEff_rel (n : Nat) (s : State) : mvCmdEff n 0x80000000 s = some (insertMove n true (wr s (PF_RESULT n) 0)) := rfl
theorem mvCmdEff_flush (n : Nat) (s : State) : mvCmdEff n 0xC0000000 s = some (flushQueue n (wr s (PF_RESULT n) 0)) := rfl

/-- An accepted write of PF_MV_CMD leaves the generators and the words its effect leaves but for the change log; its frame. -/
theorem sendMv_gives {w : Who} {n : Axis} {op : Nat} {v : Word} {s x : State} (hv : BitVec.ofNat 32 (op * 2 ^ 30) = v)
    (ha : accepted s w (PF_MV_CMD n.toNat) v) (he : mvCmdEff n.toNat v s = some x) :
    (sendMv w n op s).mot.gen = x.mot.gen ∧ (∀ a, ¬ logAddr a → rd (sendMv w n op s) a = rd x a) ∧ (sendMv w n op s).host.acc = (0, 0) ∧
      regsOnly (fun a => sedAny a ∨ logAddr a ∨ (∃ i, a = PF_STATUS i) ∨ (∃ i, a = PF_RESULT i)) s (sendMv w n op s) ∧
      onlyParts (sedParts.append (logParts.append [.motGen, .hostAcc])) s (sendMv w n op s) := by
  subst hv
  obtain ⟨t, rfl, ht, hacc, hrd⟩ := gated_logged ha he
  have hall := sendMv_touch w n op s
  refine ⟨ht.same .motGen rfl, hrd, hacc, ?_, hall.only _ (by decide +kernel)⟩
  exact words_of hall (L := [23, 124, 134, 256, 257, 263, 265]) (by decide +kernel)
    ⟨fun _ k => .inr (.inl (logAddr_of_nvm k)), fun _ k => .inr (.inr (.inl (of_PF_STATUS k))), fun _ k => .inr (.inr (.inr (of_PF_RESULT k))),
     eachCls_log_sed (fun _ k => .inr (.inl k)) fun _ => .inl⟩

/-- An accepted write of PF_MV_CMD that changes the queue. -/
theorem sendMv_queue {w : Who} {n : Axis} {op : Nat} {v : Word} {q : List Int} {s u : State} (hv : BitVec.ofNat 32 (op * 2 ^ 30) = v)
    (ha : accepted s w (PF_MV_CMD n.toNat) v) (he : mvCmdEff n.toNat v s = some (pfResult n.toNat 0 (setQueue n.toNat q u))) (hq : q.length < 8) :
    ((sendMv w n op s).gen n.toNat).queue = q ∧ rd (sendMv w n op s) (PF_RESULT n.toNat) = 0x80000000 ∧
      fget (sendMv w n op s) (PF_STATUS n.toNat) PF_STATUS_QDEPTH = q.length := by
  obtain ⟨hgen, hrd, -⟩ := sendMv_gives hv ha he
  obtain ⟨hqueue, hres, hdepth⟩ := queueDone_gives (n := n.toNat) (s := u) hq
  exact ⟨by rw [gen_of hgen, hqueue], by rw [hrd _ (pfResult_not_log _), hres], by rw [fget_of_rd (hrd _ (pfStatus_not_log _)), hdepth]⟩

/-- A move of either kind that passes its tests. -/
theorem moveInsert_gives {w : Who} {n : Axis} {op : Nat} {v : Word} {rel : Bool} {s : State} (hv : BitVec.ofNat 32 (op * 2 ^ 30) = v)
    (ha : accepted s w (PF_MV_CMD n.toNat) v) (he : mvCmdEff n.toNat v s = some (insertMove n.toNat rel (wr s (PF_RESULT n.toNat) 0)))
    (hm : noMotion (wr s (PF_RESULT n.toNat) 0) n.toNat = false) (hg : gmode (wr s (PF_RESULT n.toNat) 0) n.toNat ≤ 1)
    (hq : (s.gen n.toNat).queue.length < 4) (hl : (limRegs (wr s (PF_RESULT n.toNat) 0) n.toNat).any (· == 0) = false)
    (ho : outside (wr s (PF_RESULT n.toNat) 0) n.toNat (moveTarget n.toNat rel (wr s (PF_RESULT n.toNat) 0)) = false) :
    ((sendMv w n op s).gen n.toNat).queue = (s.gen n.toNat).queue ++ [moveTarget n.toNat rel (wr s (PF_RESULT n.toNat) 0)] ∧
      rd (sendMv w n op s) (PF_RESULT n.toNat) = 0x80000000 ∧
      fget (sendMv w n op s) (PF_STATUS n.toNat) PF_STATUS_QDEPTH = (s.gen n.toNat).queue.length + 1 := by
  have hq' : ((wr s (PF_RESULT n.toNat) 0).gen n.toNat).queue.length < 4 := by rwa [gen_wr]
  rw [insertMove_accepts hm hg hq' hl ho, gen_wr] at he
  obtain ⟨hqueue, hres, hdepth⟩ := sendMv_queue hv ha he (by rw [List.length_append, List.length_singleton]; omega)
  exact ⟨hqueue, hres, by rw [hdepth, List.length_append, List.length_singleton]⟩

/-- Settles O18: a move and a flush by the branch that accepts them, a refused move by the first test; `sendMv_gives` frames them. -/
theorem moveCommandsAct : Obligations.MoveCommandsAct := by
  unfold Obligations.MoveCommandsAct
  refine ⟨?abs, ?rel, ?flush, ?refused⟩
  case abs =>
    rintro w n u s ha rfl hm hg hq hl ho
    rw [gen_wr] at hq
    rw [← moveTarget_abs] at ho ⊢
    have he := mvCmdEff_abs n.toNat s
    obtain ⟨hqueue, hres, hdepth⟩ := moveInsert_gives mvWord_abs ha he hm hg hq hl ho
    obtain ⟨-, -, hacc, hframe⟩ := sendMv_gives mvWord_abs ha he
    exact ⟨_, rfl, hqueue, hres, hdepth, hacc, hframe⟩
  case rel =>
    rintro w n d u s ha rfl hm hg hq hl hd ho
    rw [gen_wr] at hq
    rw [← gen_wr s (PF_RESULT n.toNat) n.toNat 0, ← moveTarget_rel] at hd
    subst hd
    have he := mvCmdEff_rel n.toNat s
    obtain ⟨hqueue, hres, hdepth⟩ := moveInsert_gives mvWord_rel ha he hm hg hq hl ho
    obtain ⟨-, -, hacc, hframe⟩ := sendMv_gives mvWord_rel ha he
    exact ⟨_, rfl, hqueue, hres, hdepth, hacc, hframe⟩
  case flush =>
    rintro w n u s ha rfl hm
    have he := mvCmdEff_flush n.toNat s
    rw [flushQueue_accepts hm, gen_wr] at he
    obtain ⟨hqueue, hres, -⟩ := sendMv_queue mvWord_flush ha he (by rw [List.length_take]; omega)
    obtain ⟨-, -, hacc, hframe⟩ := sendMv_gives mvWord_flush ha he
    exact ⟨_, rfl, hqueue, hres, hacc, hframe⟩
  case refused =>
    rintro w n u s ha rfl hm
    have he := mvCmdEff_abs n.toNat s
    rw [insertMove_mode hm] at he
    obtain ⟨hgen, hrd, hacc, hframe⟩ := sendMv_gives mvWord_abs ha he
    refine ⟨_, rfl, ?_, ?_, hacc, hframe⟩
    · rw [hgen, mot_pfResult, wr_mot]
    · rw [hrd _ (pfResult_not_log _), rd_pfResult_mode]

/-! ### Command words of PF_CMD (Table 4.14) -/

/-- The fields of a command word: OP, FLUSH and REL. -/
theorem pfCmdWord_fields {op : Nat} (hop : op < 16) (rel fl : Bool) :
    wField (pfCmdWord op rel fl) 31 28 = op ∧ wbit (pfCmdWord op rel fl) 0 = fl ∧ wbit (pfCmdWord op rel fl) 1 = rel := by
  simp only [pfCmdWord, wbit, wField, fieldOf, BitVec.toNat_ofNat, Nat.testBit_eq_decide_div_mod_eq]
  cases rel <;> cases fl <;> simp only [Bool.toNat_false, Bool.toNat_true, decide_eq_true_eq, decide_eq_false_iff_not] <;> omega

section
variable {n : Nat} {s u : State} (hu : u = wr s (PF_RESULT n) 0)
include hu

/-- A motion command of an axis that may not move is refused with MODE (R139). -/
theorem pfCmdEff_mode {op : Nat} {rel fl : Bool} (hop : 1 ≤ op ∧ op ≤ 7) (hm : noMotion u n = true) :
    pfCmdEff n (pfCmdWord op rel fl) s = some (pfResult n 3 u) := by
  obtain ⟨hw, -, -⟩ := pfCmdWord_fields (by omega : op < 16) rel fl
  subst hu
  unfold pfCmdEff
  rw [hw]
  exact (if_neg (by simp only [Bool.or_eq_true, decide_eq_true_eq]; omega)).trans (if_pos hm)

theorem pfCmdEff_stop (fl : Bool) (hm : noMotion u n = false) : pfCmdEff n (pfCmdWord 1 false fl) s = some (request n (.stop fl) u) := by
  obtain ⟨hop, hfl, -⟩ := pfCmdWord_fields (op := 1) (by decide) false fl
  unfold pfCmdEff
  simp only [← hu]
  simp [hop, hfl, hm]

theorem pfCmdEff_quick (hm : noMotion u n = false) : pfCmdEff n (pfCmdWord 2 false false) s = some (request n .quick u) := by
  obtain ⟨hop, -, -⟩ := pfCmdWord_fields (op := 2) (by decide) false false
  unfold pfCmdEff
  simp only [← hu]
  simp [hop, hm]

/-- GEAR from IDLE or MOVE with an empty queue, inside the virtual limits (R164). -/
theorem pfCmdEff_gear (hm : noMotion u n = false) (he : mayEngage u n = true) (ho : outside u n (u.gen n).p = false) :
    pfCmdEff n (pfCmdWord 3 false false) s = some (request n .gear u) := by
  obtain ⟨hop, -, -⟩ := pfCmdWord_fields (op := 3) (by decide) false false
  unfold pfCmdEff
  simp only [← hu]
  simp [hop, hm, he, ho]

/-- CAM under the same conditions, with a valid cam (R175). -/
theorem pfCmdEff_cam (rel : Bool) (hm : noMotion u n = false) (he : mayEngage u n = true) (ho : outside u n (u.gen n).p = false)
    (hc : fbit u (CAM_INFO (fget u (PF_CAM n) PF_CAM_CAM_ID)) CAM_INFO_VALID = true) :
    pfCmdEff n (pfCmdWord 4 rel false) s = some (request n (.cam rel) u) := by
  obtain ⟨hop, -, hrel⟩ := pfCmdWord_fields (op := 4) (by decide) rel false
  unfold pfCmdEff
  simp only [← hu]
  simp [hop, hrel, hm, he, ho, hc]

/-- HOME in AUTO and IDLE with an empty queue (R159). -/
theorem pfCmdEff_home (hm : noMotion u n = false) (ha : axMode u n = 2) (hg : gmode u n = 0) (hq : (u.gen n).queue = []) :
    pfCmdEff n (pfCmdWord 5 false false) s = some (request n .home u) := by
  obtain ⟨hop, -, -⟩ := pfCmdWord_fields (op := 5) (by decide) false false
  unfold pfCmdEff
  simp only [← hu]
  simp [hop, hm, ha, hg, hq]

/-- SETPOS in IDLE re-bases by the distance from p_gen to PF_HOME_POS (R160). -/
theorem pfCmdEff_setpos (hm : noMotion u n = false) (hg : gmode u n = 0) :
    pfCmdEff n (pfCmdWord 6 false false) s =
      some (pfResult n 0 (fput (rebase n (sx 64 (ux 64 (sx 64 (rd64 u (PF_HOME_POS n)) - (u.gen n).p))) u) (PF_STATUS n) PF_STATUS_POS_VALID true)) := by
  obtain ⟨hop, -, -⟩ := pfCmdWord_fields (op := 6) (by decide) false false
  unfold pfCmdEff
  simp only [← hu]
  simp [hop, hm, hg]

/-- SHCLR of a coupled axis: no shift is asked for, and a plan brings the offset to rest (R179). -/
theorem pfCmdEff_shclr (hm : noMotion u n = false) (hc : coupled u n = true) : ∃ pl : Option Plan,
    pfCmdEff n (pfCmdWord 7 false false) s = some (pfResult n 0
      (fput (modGen n (fun g => { g with shift := { (u.gen n).shift with req := 0, plan := pl } }) u) (PF_STATUS n) PF_STATUS_SH_ACT pl.isSome)) := by
  obtain ⟨hop, -, -⟩ := pfCmdWord_fields (op := 7) (by decide) false false
  unfold pfCmdEff
  simp only [← hu, hop, hm, hc, Bool.false_eq_true, if_true, if_false, lt_irrefl, decide_false, Bool.or_false, OfNat.ofNat_ne_zero]
  exact ⟨_, rfl⟩

end

/-! ### What the commands leave -/

theorem gen_setQueue (n : Nat) (q : List Int) (s : State) : (setQueue n q s).gen n = { s.gen n with queue := q } := by
  unfold setQueue fput; dsimp only
  rw [gen_fset, gen_fset, gen_setGen_same]

theorem gen_request (n : Nat) (r : GReq) (s : State) : (request n r s).gen n = { s.gen n with req := some r, ripe := false } := by
  unfold request
  rw [gen_pfResult, gen_modGen]

theorem gen_wr64 (reg : Nat → Nat) (v : Int) (k : Nat) (s : State) : (wr64 s reg v).gen k = s.gen k := by
  unfold wr64 wrN; dsimp only; rw [gen_wr, gen_wr]

/-- A change of the coupling of some axis keeps every p_gen. -/
theorem p_modCpl (m n : Nat) (f : Gen → Option Couple) (s : State) : ((modGen m (fun g => { g with cpl := f g }) s).gen n).p = (s.gen n).p := by
  unfold modGen
  rw [gen_setGen]
  split
  · next h => rw [h]
  · rfl

/-- Re-basing adds Δ to p_gen (R160). -/
theorem p_rebase (n : Nat) (δ : Int) (s : State) : ((rebase n δ s).gen n).p = sx 64 (ux 64 ((s.gen n).p + δ)) := by
  unfold rebase
  extract_lets w f s1 x s2 g s3 s4 st s5 s6
  have h2 : s2.gen n = s.gen n := gen_of (congrArg MotSt.gen ((setAxl_mot ..).trans (setFb_mot ..))) n
  have h3 : (s3.gen n).p = w g.p := congrArg Gen.p (gen_setGen_same ..)
  have h4 : (s4.gen n).p = w g.p := (congrArg Gen.p (gen_setQueue ..)).trans h3
  have h5 : (s5.gen n).p = w g.p := (congrArg Gen.p (gen_of ((putState_touch ..).same .motGen rfl) n)).trans h4
  have h6 : (s6.gen n).p = w g.p := eachN_k (P := fun t : State => (t.gen n).p = w g.p) (fun m t ht => (p_modCpl ..).trans ht) h5
  rw [gen_wr64, h6]
  exact congrArg (fun y : Gen => w y.p) h2

/-- The frame of a write of PF_CMD. -/
def pfCmdFrame (s t : State) : Prop :=
  regsOnly (fun a => sedAny a ∨ logAddr a ∨ (∃ i j, a = STATE_TILE i j) ∨ (∃ i, a = PF_STATUS i) ∨ (∃ i, a = PF_RESULT i) ∨ (∃ i j, a = PF_POS i j)) s t ∧
    onlyParts (sedParts.append (logParts.append [.coreFb, .lawAx, .motGen, .hostAcc])) s t

/-- An accepted write of PF_CMD leaves the generators and the words its effect leaves but for the change log; its frame. -/
theorem sendPf_gives {w : Who} {n : Axis} {v : Word} {s x : State} (ha : accepted s w (PF_CMD n.toNat) v) (he : pfCmdEff n.toNat v s = some x) :
    (sendPf w n v s).mot.gen = x.mot.gen ∧ (∀ a, ¬ logAddr a → rd (sendPf w n v s) a = rd x a) ∧ (sendPf w n v s).host.acc = (0, 0) ∧
      pfCmdFrame s (sendPf w n v s) := by
  obtain ⟨t, rfl, ht, hacc, hrd⟩ := gated_logged ha he
  have hall := sendPf_touch w n v s
  refine ⟨ht.same .motGen rfl, hrd, hacc, ?_, hall.only _ (by decide +kernel)⟩
  exact words_of hall (L := [23, 107, 124, 134, 136, 256, 257, 263, 265]) (by decide +kernel)
    ⟨fun _ k => .inr (.inl (logAddr_of_nvm k)), fun _ k => .inr (.inr (.inl (of_STATE_TILE k))), fun _ k => .inr (.inr (.inr (.inl (of_PF_STATUS k)))),
     fun _ k => .inr (.inr (.inr (.inr (.inl (of_PF_RESULT k))))), fun _ k => .inr (.inr (.inr (.inr (.inr (of_PF_POS k))))),
     eachCls_log_sed (fun _ k => .inr (.inl k)) fun _ => .inl⟩

/-- An accepted command that asks something of the generator: the request waits for the next tick (R136). -/
theorem sendPf_request {w : Who} {n : Axis} {v : Word} {r : GReq} {s u : State} (hu : u = wr s (PF_RESULT n.toNat) 0)
    (ha : accepted s w (PF_CMD n.toNat) v) (he : pfCmdEff n.toNat v s = some (request n.toNat r u)) :
    (sendPf w n v s).gen n.toNat = { s.gen n.toNat with req := some r, ripe := false } ∧ rd (sendPf w n v s) (PF_RESULT n.toNat) = 0x80000000 ∧
      (sendPf w n v s).host.acc = (0, 0) ∧ pfCmdFrame s (sendPf w n v s) := by
  obtain ⟨hgen, hrd, hacc, hframe⟩ := sendPf_gives ha he
  refine ⟨?_, ?_, hacc, hframe⟩
  · rw [gen_of hgen, gen_request, hu, gen_wr]
  · rw [hrd _ (pfResult_not_log _), request, rd_pfResult_done]

/-- Settles O19: the equation of each command word, then what a request, a re-base or a refusal leaves. -/
theorem generatorCommandsAct : Obligations.GeneratorCommandsAct := by
  unfold Obligations.GeneratorCommandsAct
  refine ⟨?stop, ?quick, ?gear, ?cam, ?home, ?setpos, ?shclr, ?refused⟩
  case stop =>
    rintro w n fl u s ha hu hm
    obtain ⟨hgen, hres, hacc, hframe⟩ := sendPf_request hu ha (pfCmdEff_stop hu fl hm)
    exact ⟨_, rfl, by rw [hgen], by rw [hgen], hres, by rw [hgen], hacc, hframe⟩
  case quick =>
    rintro w n u s ha hu hm
    obtain ⟨hgen, hres, hacc, hframe⟩ := sendPf_request hu ha (pfCmdEff_quick hu hm)
    exact ⟨_, rfl, by rw [hgen], by rw [hgen], hres, hacc, hframe⟩
  case gear =>
    rintro w n u s ha hu hm hmay ho
    obtain ⟨hgen, hres, hacc, hframe⟩ := sendPf_request hu ha (pfCmdEff_gear hu hm hmay ho)
    exact ⟨_, rfl, by rw [hgen], by rw [hgen], hres, hacc, hframe⟩
  case cam =>
    rintro w n rel u s ha hu hm hmay ho hc
    obtain ⟨hgen, hres, hacc, hframe⟩ := sendPf_request hu ha (pfCmdEff_cam hu rel hm hmay ho hc)
    exact ⟨_, rfl, by rw [hgen], by rw [hgen], hres, hacc, hframe⟩
  case home =>
    rintro w n u s ha hu hm hmode hg hq
    obtain ⟨hgen, hres, hacc, hframe⟩ := sendPf_request hu ha (pfCmdEff_home hu hm hmode hg hq)
    exact ⟨_, rfl, by rw [hgen], by rw [hgen], hres, hacc, hframe⟩
  case setpos =>
    rintro w n u s ha hu hm hg
    obtain ⟨hgen, hrd, hacc, hframe⟩ := sendPf_gives ha (pfCmdEff_setpos hu hm hg)
    refine ⟨_, rfl, ?_, ?_, ?_, hacc, hframe⟩
    · rw [hrd _ (pfResult_not_log _), rd_pfResult_done]
    · rw [fbit_of_rd (hrd _ (pfStatus_not_log _)), fbit_status_pfResult, fbit_fput (by decide)]
    · rw [gen_of hgen, gen_pfResult, fput, gen_fset, p_rebase, hu, gen_wr]
  case shclr =>
    rintro w n u s ha hu hm hc
    obtain ⟨pl, he⟩ := pfCmdEff_shclr hu hm hc
    obtain ⟨hgen, hrd, hacc, hframe⟩ := sendPf_gives ha he
    have hshift : ((sendPf w n (pfCmdWord 7 false false) s).gen n.toNat).shift = { (u.gen n.toNat).shift with req := 0, plan := pl } := by
      rw [gen_of hgen, gen_pfResult, fput, gen_fset, gen_modGen]
    refine ⟨_, rfl, ?_, ?_, ?_, hacc, hframe⟩
    · rw [hshift]
    · rw [hrd _ (pfResult_not_log _), rd_pfResult_done]
    · rw [fbit_of_rd (hrd _ (pfStatus_not_log _)), fbit_status_pfResult, fbit_fput (by decide), hshift]
  case refused =>
    rintro w n u s ha hu hm
    obtain ⟨hgen, hrd, hacc, hframe⟩ := sendPf_gives ha (pfCmdEff_mode hu (by decide) hm)
    refine ⟨_, rfl, ?_, ?_, hacc, hframe⟩
    · rw [hgen, mot_pfResult, hu, wr_mot]
    · rw [hrd _ (pfResult_not_log _), rd_pfResult_mode]

/-! ### Limits of an active move (R143) -/

theorem gmode_modGen (n k : Nat) (f : Gen → Gen) (s : State) : gmode (modGen n f s) k = gmode s k := fget_of_rd rd_modGen

/-- Outside MOVE a change of limits only counts as seen. -/
theorem limitChange_outside_move {n : Nat} {s : State} (h : gmode s n ≠ 1) :
    limitChange n s = modGen n (fun g => { g with limDirty := false }) s := by
  unfold limitChange
  extract_lets g t
  have hm : gmode t n ≠ 1 := by unfold t; rwa [gmode_modGen]
  split
  · next h1 _ => exact absurd h1 hm
  · exact Eq.refl t

theorem exec_limitChange_of_ripe {n : Axis} {s : State} (hd : (s.gen n.toNat).limDirty = true) (hr : (s.gen n.toNat).ripe = true) :
    exec (.limitChange n) s = .next (limitChange n.toNat s) := congrArg _ (if_pos (by rw [hd, hr]; rfl))

/-! ### The gear ratio (R165) -/

theorem gearDen_not_log (n : Nat) : ¬ logAddr (PF_GEAR_DEN n) = true := not_log (by unfold PF_GEAR_DEN; omega)

theorem gearDenEff_zero (n : Nat) (s : State) : gearDenEff n 0 s = some s := if_pos rfl

/-- The pair written waits as the ratio in force from the next tick. -/
theorem gearDenEff_of_ne {n : Nat} {v : Word} {s : State} (h : v ≠ 0) : gearDenEff n v s = some
    (modGen n (fun g => { g with ratio := some ((rd s (PF_GEAR_NUM n)).toInt, v.toNat), ripe := false }) (wr s (PF_GEAR_DEN n) v)) := by
  have hnum : rd (wr s (PF_GEAR_DEN n) v) (PF_GEAR_NUM n) = rd s (PF_GEAR_NUM n) := rd_wr_other _ _ (by unfold PF_GEAR_NUM PF_GEAR_DEN; omega)
  unfold gearDenEff
  rw [if_neg h]
  dsimp only
  rw [hnum]

theorem exec_gearRatioWrite (w : Who) (n : Axis) (v : Word) (s : State) :
    exec (.gearRatioWrite w n v) s = .next (gated w (PF_GEAR_DEN n.toNat) v (gearDenEff n.toNat v) s) := rfl

/-- The frame of a write of PF_GEAR_DEN. -/
theorem gearRatioWrite_frame {w : Who} {n : Axis} {v : Word} {s t : State} (hx : exec (.gearRatioWrite w n v) s = .next t) :
    regsOnly (fun a => sedAny a ∨ logAddr a ∨ (∃ i, a = PF_GEAR_DEN i)) s t ∧
      onlyParts (sedParts.append (logParts.append [.motGen, .hostAcc])) s t := by
  have ht := execGearRatioWrite_touch w n v s t hx
  refine ⟨?_, ht.only _ (by decide +kernel)⟩
  exact words_of ht (L := [23, 139, 256, 257, 263, 265]) (by decide +kernel)
    ⟨fun _ k => .inr (.inl (logAddr_of_nvm k)), fun _ k => .inr (.inr (of_PF_GEAR_DEN k)), eachCls_log_sed (fun _ k => .inr (.inl k)) fun _ => .inl⟩

/-! ### The virtual limits (R153) -/

theorem pfMin_not_log (n j : Nat) : ¬ logAddr (PF_MIN n j) = true := not_log (by unfold PF_MIN; omega)
theorem pfMax_not_log (n j : Nat) : ¬ logAddr (PF_MAX n j) = true := not_log (by unfold PF_MAX; omega)
theorem pfMin_lo (n j : Nat) : PF_MIN n j < 0x701000 := by unfold PF_MIN; omega
theorem pfMax_lo (n j : Nat) : PF_MAX n j < 0x701000 := by unfold PF_MAX; omega

theorem rd_setStaged (p a b : Nat) (v : Option Word) (s : State) : rd (setStaged p a v s) b = rd s b := rfl

/-- Both virtual limits of an axis take their words. -/
def putLimits (n : Nat) (mn0 mn1 mx0 mx1 : Word) (s : State) : State :=
  wr (wr (wr (wr s (PF_MIN n 0) mn0) (PF_MIN n 1) mn1) (PF_MAX n 0) mx0) (PF_MAX n 1) mx1

theorem rd_putLimits (n : Nat) (mn0 mn1 mx0 mx1 : Word) (s : State) :
    rd (putLimits n mn0 mn1 mx0 mx1 s) (PF_MIN n 0) = mn0 ∧ rd (putLimits n mn0 mn1 mx0 mx1 s) (PF_MIN n 1) = mn1 ∧
      rd (putLimits n mn0 mn1 mx0 mx1 s) (PF_MAX n 0) = mx0 ∧ rd (putLimits n mn0 mn1 mx0 mx1 s) (PF_MAX n 1) = mx1 := by
  have hmin : PF_MIN n 0 ≠ PF_MIN n 1 := by unfold PF_MIN; omega
  have hmax : PF_MAX n 0 ≠ PF_MAX n 1 := by unfold PF_MAX; omega
  have hboth (i j : Nat) : PF_MIN n i ≠ PF_MAX n j := by unfold PF_MIN PF_MAX; omega
  unfold putLimits
  refine ⟨?_, ?_, ?_, rd_wr_same ..⟩
  · rw [rd_wr_other _ _ (hboth 0 1), rd_wr_other _ _ (hboth 0 0), rd_wr_other _ _ hmin, rd_wr_same]
  · rw [rd_wr_other _ _ (hboth 1 1), rd_wr_other _ _ (hboth 1 0), rd_wr_same]
  · rw [rd_wr_other _ _ hmax, rd_wr_same]

section
variable {p n : Nat} {v : Word} {s : State}

/-- The limit a sender has staged in PF_MIN. -/
def stagedMin (p n : Nat) (s : State) : Int := sx 64 ((stagedLow s p (PF_MIN n 0)).toNat + (stagedLow s p (PF_MIN n 1)).toNat * 2 ^ 32)

/-- The limit that PF_MAX gets by its high word. -/
def stagedMax (p n : Nat) (v : Word) (s : State) : Int := sx 64 ((stagedLow s p (PF_MAX n 0)).toNat + v.toNat * 2 ^ 32)

theorem virtualLimitEff_takes (h : stagedMin p n s < stagedMax p n v s) : virtualLimitEff p n v s =
    some (setStaged p (PF_MIN n 0) none (setStaged p (PF_MIN n 1) none (setStaged p (PF_MAX n 0) none
      (putLimits n (stagedLow s p (PF_MIN n 0)) (stagedLow s p (PF_MIN n 1)) (stagedLow s p (PF_MAX n 0)) v s)))) := by
  unfold virtualLimitEff
  exact if_neg (not_le.2 h)

theorem virtualLimitEff_refuses (h : stagedMax p n v s ≤ stagedMin p n s) : virtualLimitEff p n v s = none := by
  unfold virtualLimitEff
  exact if_pos h

end

theorem exec_virtualLimitWrite (w : Who) (n : Axis) (v : Word) (s : State) :
    exec (.virtualLimitWrite w n v) s = .next (gated w (PF_MAX n.toNat 1) v (virtualLimitEff (portCode w.port) n.toNat v) s) := rfl

/-- The frame of a write of the high word of PF_MAX. -/
theorem virtualLimitWrite_frame {w : Who} {n : Axis} {v : Word} {s t : State} (hx : exec (.virtualLimitWrite w n v) s = .next t) :
    regsOnly (fun a => sedAny a ∨ logAddr a ∨ (∃ i j, a = PF_MIN i j) ∨ (∃ i j, a = PF_MAX i j)) s t ∧
      onlyParts (sedParts.append (logParts.append [.hostStaged, .hostAcc])) s t := by
  have ht := execVirtualLimitWrite_touch w n v s t hx
  refine ⟨?_, ht.only _ (by decide +kernel)⟩
  exact words_of ht (L := [23, 130, 131, 256, 257, 263, 265]) (by decide +kernel)
    ⟨fun _ k => .inr (.inl (logAddr_of_nvm k)), fun _ k => .inr (.inr (.inl (of_PF_MIN k))), fun _ k => .inr (.inr (.inr (of_PF_MAX k))),
     eachCls_log_sed (fun _ k => .inr (.inl k)) fun _ => .inl⟩

/-! ### Switches (R158, R162) -/

theorem homeStatus_ne_pfStatus (n : Nat) : PF_HOME_STATUS n ≠ PF_STATUS n := by unfold PF_HOME_STATUS PF_STATUS; omega
theorem homeCfg_ne_homeStatus (n : Nat) : PF_HOME_CFG n ≠ PF_HOME_STATUS n := by unfold PF_HOME_CFG PF_HOME_STATUS; omega
theorem homeCfg_ne_pfStatus (n : Nat) : PF_HOME_CFG n ≠ PF_STATUS n := by unfold PF_HOME_CFG PF_STATUS; omega
theorem homeStatus_lo (n : Nat) : PF_HOME_STATUS n < 0x701000 := by unfold PF_HOME_STATUS; omega
theorem homeCfg_lo (n : Nat) : PF_HOME_CFG n < 0x701000 := by unfold PF_HOME_CFG; omega
theorem pfStatus_lo (n : Nat) : PF_STATUS n < 0x701000 := by unfold PF_STATUS; omega

/-- An edge of the switch sought is counted. -/
def countEdge (n : Nat) (s : State) : State := fincSat s (PF_HOME_STATUS n) PF_HOME_STATUS_EDGES

/-- More edges have been counted than HOME_CHAT allows (R162). -/
def chatters (n : Nat) (s : State) : Bool :=
  decide (fget s (PF_HOME_CFG n) PF_HOME_CFG_HOME_CHAT ≠ 0) &&
    decide (fget s (PF_HOME_CFG n) PF_HOME_CFG_HOME_CHAT < fget s (PF_HOME_STATUS n) PF_HOME_STATUS_EDGES)

/-- A raw edge without STRICT: it is counted, and chatter shows in SUSPECT. -/
def rawEdge (n : Nat) (s : State) : State :=
  if chatters n (countEdge n s) then w1cSet (PF_STATUS n) PF_STATUS_SUSPECT n (countEdge n s) else countEdge n s

theorem homeCfg_countEdge (n : Nat) (s : State) : rd (countEdge n s) (PF_HOME_CFG n) = rd s (PF_HOME_CFG n) := rd_fset_other (homeCfg_ne_homeStatus n)

theorem edges_countEdge (n : Nat) (s : State) :
    fget (countEdge n s) (PF_HOME_STATUS n) PF_HOME_STATUS_EDGES = min 255 (fget s (PF_HOME_STATUS n) PF_HOME_STATUS_EDGES + 1) :=
  fget_fincSat (by decide)

theorem exec_switchEdgeRaw_of_lenient {n : Axis} {s : State} (hg : gmode s n.toNat = 5) (hk : (sought s n.toNat).isSome = true)
    (hl : fget s (PF_HOME_CFG n.toNat) PF_HOME_CFG_STRICT = 0) : exec (.switchEdgeRaw n) s = .next (rawEdge n.toNat s) := by
  have hstrict : fbit (w1cSet (PF_STATUS n.toNat) PF_STATUS_SUSPECT n.toNat (countEdge n.toNat s)) (PF_HOME_CFG n.toNat) PF_HOME_CFG_STRICT = false := by
    rw [fbit_of_rd (rd_w1cSet_lo (homeCfg_ne_pfStatus _) (homeCfg_lo _)), fbit_of_rd (homeCfg_countEdge ..), fbit, hl]; rfl
  show execSwitchEdgeRaw n s = _
  unfold execSwitchEdgeRaw
  dsimp only
  rw [if_pos (by rw [hg, hk]; rfl)]
  refine congrArg _ (if_congr Iff.rfl ?_ rfl)
  exact if_neg (by rw [← countEdge, hstrict]; exact Bool.false_ne_true)

/-- The count of edges, saturating, and SUSPECT once it passes HOME_CHAT. -/
theorem rawEdge_gives (n : Nat) (s : State) :
    fget (rawEdge n s) (PF_HOME_STATUS n) PF_HOME_STATUS_EDGES = min 255 (fget s (PF_HOME_STATUS n) PF_HOME_STATUS_EDGES + 1) ∧
      (fget s (PF_HOME_CFG n) PF_HOME_CFG_HOME_CHAT ≠ 0 →
        fget s (PF_HOME_CFG n) PF_HOME_CFG_HOME_CHAT < min 255 (fget s (PF_HOME_STATUS n) PF_HOME_STATUS_EDGES + 1) →
        fbit (rawEdge n s) (PF_STATUS n) PF_STATUS_SUSPECT = true) := by
  rw [← edges_countEdge, ← fget_of_rd (homeCfg_countEdge n s)]
  unfold rawEdge
  refine ⟨?_, fun h0 hlt => ?_⟩
  · refine ite_k (P := fun t : State => fget t (PF_HOME_STATUS n) PF_HOME_STATUS_EDGES = _) ?_ rfl
    exact fget_of_rd (rd_w1cSet_lo (homeStatus_ne_pfStatus n) (homeStatus_lo n))
  · rw [if_pos (by simp only [chatters, h0, hlt, ne_eq, not_false_eq_true, decide_true, Bool.and_self])]
    exact fbit_w1cSet_lo (by decide) (pfStatus_lo n)

/-- Outside homing a switch only changes its level. -/
theorem homeSwitch_outside_homing {n k : Nat} {act : Bool} {p : Int} {s : State} (h : gmode s n ≠ 5) : homeSwitch n k act p s = s := if_pos h

/-- The accepted level of a switch turned over. -/
def flipSwitch (n b : Nat) (s : State) : State := modGen n (fun g => { g with sw := g.sw ^^^ 2 ^ b }) s

theorem swActive_flipSwitch (n b : Nat) (s : State) : swActive (flipSwitch n b s) n b = !swActive s n b := by
  unfold swActive flipSwitch
  rw [gen_modGen]
  simp only [Nat.testBit_xor, Nat.testBit_two_pow_self, Bool.xor_true]

/-- A switch takes the level accepted. -/
def takeSwitch (n b : Nat) (act : Bool) (s : State) : State := if swActive s n b == act then s else flipSwitch n b s

theorem takeSwitch_gives (n b : Nat) (act : Bool) (s : State) :
    swActive (takeSwitch n b act s) n b = act ∧ ((takeSwitch n b act s).gen n).p = (s.gen n).p := by
  unfold takeSwitch
  split
  · next h => exact ⟨beq_iff_eq.1 h, rfl⟩
  · next h => exact ⟨by rw [swActive_flipSwitch, Bool.not_eq]; simpa using h, by rw [flipSwitch, gen_modGen]⟩

theorem exec_switchDebounced_outside_homing {n : Axis} {sw : Switch} {level : Bool} {dt span : Nat} {s : State} (h : gmode s n.toNat ≠ 5) :
    exec (.switchDebounced n sw level dt span) s = .next (takeSwitch n.toNat (swNo sw) (swAct s n.toNat (swNo sw) level) s) :=
  congrArg _ (if_congr Iff.rfl rfl (homeSwitch_outside_homing (by rwa [gmode_modGen])))

/-! ### Shifts (R177) -/

theorem coupled_setStaged (p a n : Nat) (v : Option Word) (s : State) : coupled (setStaged p a v s) n = coupled s n := rfl

theorem shiftEff_eq (p n : Nat) (v : Word) (s : State) : shiftEff p n v s =
    some (shiftRequest n (sx 64 (((tget none s.host.staged (stagedKey p (PF_SH n 0))).getD 0).toNat + v.toNat * 2 ^ 32)) (setStaged p (PF_SH n 0) none s)) := by
  unfold shiftEff
  cases tget none s.host.staged (stagedKey p (PF_SH n 0)) <;> rfl

/-- A shift of a coupled axis adds to the request. -/
theorem shiftRequest_coupled {n : Nat} {d : Int} {s : State} (h : coupled s n = true) :
    rd (shiftRequest n d s) (PF_RESULT n) = 0x80000000 ∧ ((shiftRequest n d s).gen n).shift.req = sx 64 (ux 64 ((s.gen n).shift.req + d)) := by
  unfold shiftRequest
  rw [if_pos h]
  exact ⟨rd_pfResult_done .., by rw [gen_pfResult, gen_modGen]⟩

theorem shiftRequest_uncoupled {n : Nat} {d : Int} {s : State} (h : coupled s n = false) : shiftRequest n d s = pfResult n 3 s :=
  if_neg (by rw [h]; exact Bool.false_ne_true)

theorem exec_shiftRequest (w : Who) (n : Axis) (v : Word) (s : State) :
    exec (.shiftRequest w n v) s = .next (gated w (PF_SH n.toNat 1) v (shiftEff (portCode w.port) n.toNat v) s) := rfl

/-- The frame of a write of the high word of PF_SH. -/
theorem shiftRequest_frame {w : Who} {n : Axis} {v : Word} {s t : State} (hx : exec (.shiftRequest w n v) s = .next t) :
    regsOnly (fun a => sedAny a ∨ logAddr a ∨ (∃ i, a = PF_RESULT i)) s t ∧
      onlyParts (sedParts.append (logParts.append [.motGen, .hostStaged, .hostAcc])) s t := by
  have ht := execShiftRequest_touch w n v s t hx
  refine ⟨?_, ht.only _ (by decide +kernel)⟩
  exact words_of ht (L := [23, 134, 256, 257, 263, 265]) (by decide +kernel)
    ⟨fun _ k => .inr (.inl (logAddr_of_nvm k)), fun _ k => .inr (.inr (of_PF_RESULT k)), eachCls_log_sed (fun _ k => .inr (.inl k)) fun _ => .inl⟩

/-- Settles O20: each event by the equation for its condition; an accepted write by its effect, a refused pair of limits by the gate. -/
theorem motionEventsAct : Obligations.MotionEventsAct := by
  unfold Obligations.MotionEventsAct
  refine ⟨?limit, ?ratio, ?zero, ?bounds, ?refused, ?raw, ?debounced, ?shift, ?uncoupled⟩
  case limit =>
    intro n s hd hr
    have hx := exec_limitChange_of_ripe hd hr
    have ht := execLimitChange_touch n s _ hx
    refine ⟨_, hx, fun hm => ?_, ?_, ht.only _ (by decide +kernel)⟩
    · rw [limitChange_outside_move hm]
      exact ⟨gen_modGen, setGen_regs ..⟩
    · exact words_of ht (L := [124, 263, 265]) (by decide +kernel) ⟨fun _ k => .inr (of_PF_STATUS k), eachCls_sed fun _ => .inl⟩
  case ratio =>
    intro w n v s ha hv
    obtain ⟨t, e, ht, hacc, hrd⟩ := gated_logged ha (gearDenEff_of_ne hv)
    have hx : exec (.gearRatioWrite w n v) s = .next t := by rw [exec_gearRatioWrite, e]
    have hgen := gen_of (ht.same .motGen rfl) n.toNat
    rw [gen_modGen] at hgen
    refine ⟨t, hx, ?_, by rw [hgen], by rw [hgen], hacc, gearRatioWrite_frame hx⟩
    rw [hrd _ (gearDen_not_log _), rd_modGen, rd_wr_same]
  case zero =>
    intro w n s ha
    obtain ⟨t, e, ht, hacc, hrd⟩ := gated_logged ha (gearDenEff_zero n.toNat s)
    have hx : exec (.gearRatioWrite w n 0) s = .next t := by rw [exec_gearRatioWrite, e]
    exact ⟨t, hx, hrd _ (gearDen_not_log _), ht.same .motGen rfl, hacc, gearRatioWrite_frame hx⟩
  case bounds =>
    rintro w n v lo s ha rfl hlt
    obtain ⟨t, e, -, hacc, hrd⟩ := gated_logged ha (virtualLimitEff_takes hlt)
    simp only [rd_setStaged] at hrd
    obtain ⟨hmin0, hmin1, hmax0, hmax1⟩ := rd_putLimits n.toNat (stagedLow s (portCode w.port) (PF_MIN n.toNat 0))
      (stagedLow s (portCode w.port) (PF_MIN n.toNat 1)) (stagedLow s (portCode w.port) (PF_MAX n.toNat 0)) v s
    have hx : exec (.virtualLimitWrite w n v) s = .next t := by rw [exec_virtualLimitWrite, e]
    exact ⟨t, hx, (hrd _ (pfMin_not_log _ _)).trans hmin0, (hrd _ (pfMin_not_log _ _)).trans hmin1, (hrd _ (pfMax_not_log _ _)).trans hmax0,
      (hrd _ (pfMax_not_log _ _)).trans hmax1, hacc, virtualLimitWrite_frame hx⟩
  case refused =>
    rintro w n v lo s hj rfl hle
    have hx : exec (.virtualLimitWrite w n v) s = .next (refuseWrite w (PF_MAX n.toNat 1) v 0x0004 s) := by
      rw [exec_virtualLimitWrite, gated_ruled hj (virtualLimitEff_refuses hle)]
    have hkeep {a : Nat} (hlog : ¬ logAddr a = true) (hlo : a < 0x701000) : rd (refuseWrite w (PF_MAX n.toNat 1) v 0x0004 s) a = rd s a :=
      rd_refuseWrite hlog fun k => absurd (sedAddr_range k).1 (by omega)
    exact ⟨_, hx, fun j => hkeep (pfMin_not_log _ _) (pfMin_lo ..), fun j => hkeep (pfMax_not_log _ _) (pfMax_lo ..), acc_refuseWrite ..,
      virtualLimitWrite_frame hx⟩
  case raw =>
    intro n s hg hk hl
    have hx := exec_switchEdgeRaw_of_lenient hg hk hl
    have ht := execSwitchEdgeRaw_touch n s _ hx
    obtain ⟨hedges, hsuspect⟩ := rawEdge_gives n.toNat s
    refine ⟨_, hx, hedges, hsuspect, ?_, ht.only _ (by decide +kernel)⟩
    exact words_of ht (L := [124, 135, 149, 263, 265]) (by decide +kernel)
      ⟨fun _ k => .inr (.inl (of_PF_STATUS k)), fun _ k => .inr (.inr (.inl (of_PF_STOP_POS k))), fun _ k => .inr (.inr (.inr (of_PF_HOME_STATUS k))),
       eachCls_sed fun _ => .inl⟩
  case debounced =>
    intro n sw level dt span s hg
    have hx := exec_switchDebounced_outside_homing (sw := sw) (level := level) (dt := dt) (span := span) hg
    have ht := execSwitchDebounced_touch n sw level dt span s _ hx
    obtain ⟨hact, hp⟩ := takeSwitch_gives n.toNat (swNo sw) (swAct s n.toNat (swNo sw) level) s
    refine ⟨_, hx, hact, hp, ?_, ht.only _ (by decide +kernel)⟩
    exact words_of ht (L := [107, 124, 135, 136, 149, 263, 265]) (by decide +kernel)
      ⟨fun _ k => .inr (.inl (of_STATE_TILE k)), fun _ k => .inr (.inr (.inl (of_PF_STATUS k))), fun _ k => .inr (.inr (.inr (.inl (of_PF_STOP_POS k)))),
       fun _ k => .inr (.inr (.inr (.inr (.inl (of_PF_POS k))))), fun _ k => .inr (.inr (.inr (.inr (.inr (of_PF_HOME_STATUS k))))),
       eachCls_sed fun _ => .inl⟩
  case shift =>
    rintro w n v lo s ha hc rfl
    obtain ⟨t, e, ht, hacc, hrd⟩ := gated_logged ha (shiftEff_eq (portCode w.port) n.toNat v s)
    have hx : exec (.shiftRequest w n v) s = .next t := by rw [exec_shiftRequest, e]
    obtain ⟨hres, hreq⟩ := shiftRequest_coupled (s := setStaged (portCode w.port) (PF_SH n.toNat 0) none s)
      (d := sx 64 (((tget none s.host.staged (stagedKey (portCode w.port) (PF_SH n.toNat 0))).getD 0).toNat + v.toNat * 2 ^ 32)) hc
    exact ⟨t, hx, (hrd _ (pfResult_not_log _)).trans hres, (congrArg (fun g : Gen => g.shift.req) (gen_of (ht.same .motGen rfl) _)).trans hreq, hacc,
      shiftRequest_frame hx⟩
  case uncoupled =>
    intro w n v s ha hc
    have he := shiftEff_eq (portCode w.port) n.toNat v s
    rw [shiftRequest_uncoupled ((coupled_setStaged ..).trans hc)] at he
    obtain ⟨t, e, ht, hacc, hrd⟩ := gated_logged ha he
    have hx : exec (.shiftRequest w n v) s = .next t := by rw [exec_shiftRequest, e]
    have hgen : t.mot.gen = s.mot.gen := (ht.same .motGen rfl).trans (congrArg MotSt.gen (mot_pfResult ..))
    exact ⟨t, hx, by rw [hrd _ (pfResult_not_log _), rd_pfResult_mode], hgen, hacc, shiftRequest_frame hx⟩

/-! ### The slot of a changeover -/

theorem coStatus_not_log (g : Nat) : ¬ logAddr (CO_STATUS g) = true := not_log (by unfold CO_STATUS; omega)

theorem coState_of_rd {g : Nat} {s t : State} (h : rd t (CO_STATUS g) = rd s (CO_STATUS g)) : coState t g = coState s g := fget_of_rd h

/-- STATE and RESULT of a slot set anew. -/
theorem setCoState_gives {g st r : Nat} (s : State) (hst : st < 16) (hr : r < 16) :
    coState (setCoState g st r s) g = st ∧ fget (setCoState g st r s) (CO_STATUS g) CO_STATUS_RESULT = r := by
  unfold coState setCoState
  refine ⟨?_, ?_⟩
  · rw [fget_fset_apart (by decide) (by decide) (by decide), fget_fset (by decide)]
    exact Nat.mod_eq_of_lt hst
  · rw [fget_fset (by decide)]
    exact Nat.mod_eq_of_lt hr

theorem mot_setCoState (g st r : Nat) (s : State) : (setCoState g st r s).mot = s.mot := (fset_mot ..).trans (fset_mot ..)
theorem sch_setCoState (g st r : Nat) (s : State) : (setCoState g st r s).sch = s.sch := (fset_sch ..).trans (fset_sch ..)
theorem co_setCoState (g st r k : Nat) (s : State) : (setCoState g st r s).co k = s.co k := co_of (congrArg MotSt.co (mot_setCoState ..)) k
theorem dl_setCoState (g st r l : Nat) (s : State) : (setCoState g st r s).dl l = s.dl l := dl_of (congrArg SchSt.dl (sch_setCoState ..)) l

/-! ### Requests (R181) -/

theorem coCtrlEff_request {g : Nat} {v : Word} {s : State} (h : wField v 31 30 = 1) : coCtrlEff g v s = some (coRequestEff g v s) := by
  unfold coCtrlEff; simp only [h]

/-- An accepted request fills the slot of its group, STAGING, and places the trigger. -/
theorem coRequestEff_accepts {g : Nat} {v : Word} {s : State} (h : coCheck s g (wField v 6 4) (wField v 1 0) = 0) : coRequestEff g v s =
    produce .changeover g (wField v 1 0) (coEnt (coKey s g) g) (setCoState g 1 0
      (s.setCo g { recipe := wField v 6 4, list := wField v 1 0, key := coKey s g, len := rdN s (CO_LEN g) })) := by
  unfold coRequestEff
  simp only [h]

theorem coRequestEff_refuses {g : Nat} {v : Word} {s : State} (h : coCheck s g (wField v 6 4) (wField v 1 0) ≠ 0) :
    coRequestEff g v s = fset s (CO_STATUS g) CO_STATUS_RESULT (coCheck s g (wField v 6 4) (wField v 1 0)) := by
  unfold coRequestEff
  dsimp only
  split
  · next h0 => exact absurd h0 h
  · rfl

theorem co_coRequestEff {g : Nat} {v : Word} {s : State} (h : coCheck s g (wField v 6 4) (wField v 1 0) = 0) :
    (coRequestEff g v s).co g = { recipe := wField v 6 4, list := wField v 1 0, key := coKey s g, len := rdN s (CO_LEN g) } := by
  rw [coRequestEff_accepts h, co_of ((produce_touch ..).same .motCo rfl), co_setCoState, co_setCo_same]

/-- A refused request shows its reason and leaves the slot and the lists. -/
theorem coRequestEff_refused_gives {g : Nat} {v : Word} {s : State} (h : coCheck s g (wField v 6 4) (wField v 1 0) ≠ 0) :
    fget (coRequestEff g v s) (CO_STATUS g) CO_STATUS_RESULT = coCheck s g (wField v 6 4) (wField v 1 0) % 16 ∧
      coState (coRequestEff g v s) g = coState s g ∧ (coRequestEff g v s).mot = s.mot ∧ (coRequestEff g v s).sch = s.sch := by
  rw [coRequestEff_refuses h]
  exact ⟨fget_fset (by decide) _, fget_fset_apart (by decide) (by decide) (by decide) _, fset_mot .., fset_sch ..⟩

theorem exec_coRequest (w : Who) (g : BitVec 4) (v : Word) (s : State) : exec (.coRequest w g v) s =
    .next (gated w (CO_CTRL g.toNat) (withField v CO_CTRL_OP 1) (coCtrlEff g.toNat (withField v CO_CTRL_OP 1)) s) := rfl

/-! ### Cancellations (R187) -/

/-- The trigger of a group's changeover leaves its list and the producers held back. -/
def dropTrigger (g : Nat) (s : State) : State :=
  { s.setDl (s.co g).list ((s.dl (s.co g).list).filter fun x => !(x.key == (coEnt (s.co g).key g).key && entKind x == 5 && entTarget x == g)) with
    sch.held := s.sch.held.filter fun h => !(h.prod == .changeover && h.obj == g) }

theorem dl_dropTrigger (g : Nat) (s : State) : (dropTrigger g s).dl (s.co g).list =
    (s.dl (s.co g).list).filter fun x => !(x.key == (s.co g).key && entKind x == 5 && entTarget x == g) := dl_setDl_same ..

/-- No trigger of the group with its key is left. -/
theorem not_trigger_of_mem {g : Nat} {s : State} {x : DEnt} (h : x ∈ (dropTrigger g s).dl (s.co g).list) :
    ¬ (x.key = (s.co g).key ∧ entKind x = 5 ∧ entTarget x = g) := by
  rw [dl_dropTrigger] at h
  rintro ⟨hkey, hkind, htarget⟩
  have hno := (List.mem_filter.1 h).2
  rw [hkey, hkind, htarget] at hno
  simp at hno

theorem coCtrlEff_cancel (g : Nat) (s : State) : coCtrlEff g 0x80000000 s = some (coCancelEff g s) := rfl

theorem coCancelEff_of_open {g : Nat} {s : State} (h : coState s g = 1 ∨ coState s g = 2) : coCancelEff g s =
    setCoState g 5 7 ((releaseTiles (s.co g).tiles (dropTrigger g s)).setCo g { s.co g with tiles := [] }) := by
  unfold coCancelEff
  exact if_pos (by simpa using h)

/-- A cancelled changeover: its state and result, no tiles, no trigger. -/
theorem coCancelEff_gives {g : Nat} {s : State} (h : coState s g = 1 ∨ coState s g = 2) :
    coState (coCancelEff g s) g = 5 ∧ fget (coCancelEff g s) (CO_STATUS g) CO_STATUS_RESULT = 7 ∧ ((coCancelEff g s).co g).tiles = [] ∧
      ∀ l, (coCancelEff g s).dl l = (dropTrigger g s).dl l := by
  rw [coCancelEff_of_open h]
  obtain ⟨hstate, hres⟩ := setCoState_gives (g := g) (st := 5) (r := 7)
    ((releaseTiles (s.co g).tiles (dropTrigger g s)).setCo g { s.co g with tiles := [] }) (by decide) (by decide)
  refine ⟨hstate, hres, by rw [co_setCoState, co_setCo_same], fun l => ?_⟩
  rw [dl_setCoState, dl_of (congrArg SchSt.dl (setCo_sch ..)), dl_of ((releaseTiles_touch ..).same .schDl rfl)]

theorem exec_coCancel (w : Who) (g : BitVec 4) (s : State) :
    exec (.coCancel w g) s = .next (gated w (CO_CTRL g.toNat) 0x80000000 (coCtrlEff g.toNat 0x80000000) s) := rfl

/-! ### Staging (R182) -/

/-- The steward puts a cam of the new recipe into free tiles, marked STAGED. -/
def stageCam (g : Nat) (r : Recipe) (s : State) (c : CamRec) : State :=
  let ts := (freeTiles s (tileRegion s r g c)).take (camTiles c)
  (placeCam c ts true s).setCo g { s.co g with tiles := (s.co g).tiles ++ ts }

theorem exec_coStaged_of_staging {g : BitVec 4} {s : State} (h : coState s g.toNat = 1) : exec (.coStaged g) s =
    .next (logSteward 3 0 g.toNat 0 (setCoState g.toNat 2 0
      ((groupCams s (tget {} s.boot.bank (s.co g.toNat).recipe) g.toNat).foldl (stageCam g.toNat (tget {} s.boot.bank (s.co g.toNat).recipe)) s))) :=
  congrArg _ (if_pos h)

/-! ### Cam tiles (R173, R174) -/

theorem tileCrc_not_log (k : Nat) : ¬ logAddr (TILE_CRC k) = true := not_log (by unfold TILE_CRC; omega)
theorem camTileAddr_ge (k : Nat) : 0x1000000 ≤ camTileAddr k := by unfold camTileAddr; omega
theorem sram_not_log {a : Nat} (h : 0x1000000 ≤ a) : ¬ logAddr a = true := fun k => by
  rcases logAddr_iff.1 k with e | e | e <;> subst e <;> exact absurd h (by decide)

/-- The addresses of the SRAM window in a footprint. -/
theorem of_sram {a : Nat} (h : inCls 267 a = true) : 0x1000000 ≤ a := of_decide_eq_true h

theorem fiHit_none {target idx : Nat} {s : State} (h : s.host.fi = none) : fiHit target idx s = (false, s) := by unfold fiHit; rw [h]

/-- The tile joins the window of an axis, which holds the last three (R173). -/
def holdTile (n k : Nat) (s : State) : State :=
  { s with mot.win := tset [] s.mot.win n ((k :: (tget [] s.mot.win n).filter (· != k)).take 3) }

theorem holdTile_touch (n k : Nat) (s : State) : Touch 0x8000000000 s (holdTile n k s) := upd_motwin

/-- A tile leaves every window. -/
def dropTile (k : Nat) (s : State) : State := { s with mot.win := s.mot.win.map fun e => (e.1, e.2.filter (· != k)) }

theorem win_holdTile (n k m : Nat) (s : State) : tget [] (holdTile n k s).mot.win m =
    if m = n then (k :: (tget [] s.mot.win n).filter (· != k)).take 3 else tget [] s.mot.win m := by
  unfold holdTile; dsimp only; rw [tget_tset]

theorem not_mem_dropTile {k : Nat} {s : State} {e : Nat × List Nat} (h : e ∈ (dropTile k s).mot.win) : k ∉ e.2 := by
  obtain ⟨x, -, rfl⟩ := List.mem_map.1 h
  intro hk
  simpa using (List.mem_filter.1 hk).2

section
variable {n : Axis} {k : BitVec 11} {s : State} (hk : k.toNat < 1536) (hu : tileUsed s k.toNat = true) (hf : s.host.fi = none)
include hk hu hf

/-- A tile that passes its check joins the window of its axis; one that fails counts against its region and leaves every window. -/
theorem exec_camTileVerify_of_used : exec (.camTileVerify n k) s =
    .next (if crcWords (rdWords s (camTileAddr k.toNat) 1024) = rd s (TILE_CRC k.toNat) then holdTile n.toNat k.toNat s
      else dropTile k.toNat (tileError (k.toNat / 384) s)) := by
  show execCamTileVerify n k s = _
  unfold execCamTileVerify
  dsimp only
  rw [fiHit_none hf]
  dsimp only
  rw [if_neg (by simp only [hu, Bool.not_true, Bool.or_false, decide_eq_true_eq]; omega)]
  refine congrArg _ (if_congr ?_ rfl rfl)
  rw [Bool.not_false, Bool.true_and, decide_eq_true_eq]

end

/-- The directory's cam and the recipe store give a tile its words again (R174). -/
theorem exec_camTileRebuild_of_chain {k : BitVec 11} {c : CamRec} {j : Nat} {s : State} (hk : k.toNat < 1536) (hu : tileUsed s k.toNat = true)
    (hc : (tget {} s.boot.bank (fget s (CAM_INFO (fget s (TILE_INFO k.toNat) TILE_INFO_CAM)) CAM_INFO_RECIPE)).cams.find?
      (fun c => c.id == fget s (TILE_INFO k.toNat) TILE_INFO_CAM) = some c)
    (hj : (chainOf s (fget s (TILE_INFO k.toNat) TILE_INFO_CAM)).findIdx? (· == k.toNat) = some j) : exec (.camTileRebuild k) s =
    .next (logSteward 5 0 k.toNat 0 (wr (wrWords s (camTileAddr k.toNat) (camTileWords c j)) (TILE_CRC k.toNat) (crcWords (camTileWords c j)))) := by
  show execCamTileRebuild k s = _
  unfold execCamTileRebuild
  dsimp only
  rw [if_neg (by simp only [hu, Bool.not_true, Bool.or_false, decide_eq_true_eq]; omega), hc, hj]

/-- The rebuilt tile: its words and its check word. -/
theorem tileRebuilt_gives (k : Nat) (l : List Word) (s : State) :
    (∀ i, i < l.length → rd (logSteward 5 0 k 0 (wr (wrWords s (camTileAddr k) l) (TILE_CRC k) (crcWords l))) (camTileAddr k + 4 * i) = l.getD i 0) ∧
      rd (logSteward 5 0 k 0 (wr (wrWords s (camTileAddr k) l) (TILE_CRC k) (crcWords l))) (TILE_CRC k) = crcWords l := by
  have hge := camTileAddr_ge k
  refine ⟨fun i hi => ?_, ?_⟩
  · rw [rd_logSteward (sram_not_log (by omega)), rd_wr_other _ _ (by unfold TILE_CRC; omega), rd_wrWords_at hi]
  · rw [rd_logSteward (tileCrc_not_log k), rd_wr_same]

/-- Settles O21: requests and cancellations by their effect behind the gate, staging and tiles by the equation for their condition. -/
theorem changeoverAndCamTilesAct : Obligations.ChangeoverAndCamTilesAct := by
  unfold Obligations.ChangeoverAndCamTilesAct
  refine ⟨?request, ?cancel, ?staged, ?good, ?bad, ?rebuild⟩
  case request =>
    intro w g v s ha
    have hop : wField (withField v CO_CTRL_OP 1) 31 30 = 1 := fieldOf_withField (f := CO_CTRL_OP) (by decide) 1
    obtain ⟨t, e, ht, hacc, hrd⟩ := gated_logged ha (coCtrlEff_request (g := g.toNat) hop)
    have hall := ht.trans (coRequestEff_touch ..)
    refine ⟨t, by rw [exec_coRequest, e], hacc, fun hc => ?_, fun hc => ?_, ?_, hall.only _ (by decide +kernel)⟩
    · rw [co_of (ht.same .motCo rfl), co_coRequestEff hc]
      exact ⟨rfl, rfl, rfl, rfl⟩
    · obtain ⟨hres, hstate, hmot, hsch⟩ := coRequestEff_refused_gives hc
      have hst := hrd _ (coStatus_not_log g.toNat)
      exact ⟨(fget_of_rd hst).trans hres, (coState_of_rd hst).trans hstate, (ht.same .motCo rfl).trans (congrArg MotSt.co hmot),
        (ht.same .schDl rfl).trans (congrArg SchSt.dl hsch)⟩
    · exact words_of hall (L := [23, 32, 160, 177, 256, 257, 263, 265]) (by decide +kernel)
        ⟨fun _ k => .inr (.inl (logAddr_of_nvm k)), fun _ k => .inr (.inr (.inl (of_SCH_STATUS k))), fun _ k => .inr (.inr (.inr (.inl (of_CO_STATUS k)))),
         fun _ k => .inr (.inr (.inr (.inr (of_TO_STATUS k)))), eachCls_log_sed (fun _ k => .inr (.inl k)) fun _ => .inl⟩
  case cancel =>
    intro w g s ha ho
    obtain ⟨t, e, ht, hacc, hrd⟩ := gated_logged ha (coCtrlEff_cancel g.toNat s)
    have hall := ht.trans (coCancelEff_touch ..)
    obtain ⟨hstate, hres, htiles, hdl⟩ := coCancelEff_gives ho
    have hst := hrd _ (coStatus_not_log g.toNat)
    refine ⟨t, by rw [exec_coCancel, e], (coState_of_rd hst).trans hstate, (fget_of_rd hst).trans hres, ?_, fun x hx => ?_, hacc, ?_,
      hall.only _ (by decide +kernel)⟩
    · rw [co_of (ht.same .motCo rfl), htiles]
    · rw [dl_of (ht.same .schDl rfl), hdl] at hx
      exact not_trigger_of_mem hx
    · exact words_of hall (L := [23, 154, 155, 160, 256, 257]) (by decide +kernel)
        ⟨fun _ k => .inl (logAddr_of_nvm k), fun _ k => .inr (.inl (of_TILE_CRC k)), fun _ k => .inr (.inr (.inl (of_TILE_INFO k))),
         fun _ k => .inr (.inr (.inr (of_CO_STATUS k))), fun _ k => .inl (logAddr_iff.2 (.inr (.inr (of_LOG_HEAD k)))),
         fun _ k => .inl (logAddr_iff.2 (.inr (.inl (of_LOG_LOST k)))), trivial⟩
  case staged =>
    intro g s hs
    have hx := exec_coStaged_of_staging hs
    have ht := execCoStaged_touch g s _ hx
    obtain ⟨hstate, hres⟩ := setCoState_gives (g := g.toNat) (st := 2) (r := 0) ((groupCams s (tget {} s.boot.bank (s.co g.toNat).recipe) g.toNat).foldl
      (stageCam g.toNat (tget {} s.boot.bank (s.co g.toNat).recipe)) s) (by decide) (by decide)
    refine ⟨_, hx, ?_, ?_, ?_, ht.only _ (by decide +kernel)⟩
    · rw [coState_of_rd (rd_logSteward (coStatus_not_log _)), hstate]
    · rw [fget_of_rd (rd_logSteward (coStatus_not_log _)), hres]
    · exact words_of ht (L := [23, 154, 155, 160, 256, 257, 267]) (by decide +kernel)
        ⟨fun _ k => .inl (logAddr_of_nvm k), fun _ k => .inr (.inl (of_TILE_CRC k)), fun _ k => .inr (.inr (.inl (of_TILE_INFO k))),
         fun _ k => .inr (.inr (.inr (.inl (of_CO_STATUS k)))), fun _ k => .inl (logAddr_iff.2 (.inr (.inr (of_LOG_HEAD k)))),
         fun _ k => .inl (logAddr_iff.2 (.inr (.inl (of_LOG_LOST k)))), fun _ k => .inr (.inr (.inr (.inr (of_sram k)))), trivial⟩
  case good =>
    intro n k s hk hu hf hc
    have hx : exec (.camTileVerify n k) s = .next (holdTile n.toNat k.toNat s) := by rw [exec_camTileVerify_of_used hk hu hf, if_pos hc]
    refine ⟨_, hx, ?_, ?_, fun m hm => ?_, fun a _ => rfl, (holdTile_touch ..).only _ (by decide +kernel)⟩
    · rw [win_holdTile, if_pos rfl]; rfl
    · rw [win_holdTile, if_pos rfl]; exact List.length_take_le ..
    · rw [win_holdTile, if_neg hm]
  case bad =>
    intro n k s hk hu hf hc
    have hx : exec (.camTileVerify n k) s = .next (dropTile k.toNat (tileError (k.toNat / 384) s)) := by
      rw [exec_camTileVerify_of_used hk hu hf, if_neg hc]
    have ht := execCamTileVerify_touch n k s _ hx
    refine ⟨_, hx, fun e he => not_mem_dropTile he, ?_, ht.only _ (by decide +kernel)⟩
    exact words_of ht (L := [23, 28, 29, 256, 257, 262, 263, 265]) (by decide +kernel)
      ⟨fun _ k => .inr (.inl (logAddr_of_nvm k)), fun _ k => .inr (.inr (.inl (of_REGION_STATUS k))), fun _ k => .inr (.inr (.inr (.inl (of_REGION_TILE_ERR k)))),
       fun _ k => .inr (.inl (logAddr_iff.2 (.inr (.inr (of_LOG_HEAD k))))), fun _ k => .inr (.inl (logAddr_iff.2 (.inr (.inl (of_LOG_LOST k))))),
       fun _ k => .inr (.inr (.inr (.inr (of_FI_STATUS k)))), eachCls_sed fun _ => .inl⟩
  case rebuild =>
    intro k c j s hk hu hc hj
    have hx := exec_camTileRebuild_of_chain hk hu hc hj
    have ht := execCamTileRebuild_touch k s _ hx
    obtain ⟨hwords, hcrc⟩ := tileRebuilt_gives k.toNat (camTileWords c j) s
    refine ⟨_, hx, hwords, hcrc, ?_, ht.only _ (by decide +kernel)⟩
    exact words_of ht (L := [23, 154, 256, 257, 267]) (by decide +kernel)
      ⟨fun _ k => .inl (logAddr_of_nvm k), fun _ k => .inr (.inl (of_TILE_CRC k)), fun _ k => .inl (logAddr_iff.2 (.inr (.inr (of_LOG_HEAD k)))),
       fun _ k => .inl (logAddr_iff.2 (.inr (.inl (of_LOG_LOST k)))), fun _ k => .inr (.inr (of_sram k)), trivial⟩

end Sys2Proof.Laws

/-! PROOF. Lagoon pairs and lane events (O22): requests behind the gate, pairs that join and part, REARM, the hold-off bound, and captures.

This part and those after it are elaborated one proof after another (`Elab.async false`): proofs elaborated in parallel wait for one another, each on a thread whose stack counts against the memory limit of `check.sh`. -/

namespace Sys2Proof.Laws
open Sys2Proof Sys2Proof.Machine R
set_option Elab.async false

/-! ### Requests of Lagoon mode (R217) -/

theorem laneCtrl_not_log (u : Nat) : ¬ logAddr (LANE_CTRL u) = true := not_log (by unfold LANE_CTRL; omega)
theorem laneCtrl_lo (u : Nat) : LANE_CTRL u < 0x701000 := by unfold LANE_CTRL; omega

/-- A join of unit u is refused: its partner is reserved, or a reservation of it waits (R47). -/
abbrev joinRefused (s : State) (u : Nat) (v : Word) : Prop := wbit v 0 = true ∧ (reservedUnit s (u + 1) = true ∨ resvReads s (u + 1) = true)

theorem laneCtrlEff_odd {u : Nat} {v : Word} {s : State} (h : u % 2 = 1) : laneCtrlEff u v s = some s := if_pos h

theorem laneCtrlEff_even {u : Nat} {v : Word} {s : State} (h : u % 2 = 0) : laneCtrlEff u v s =
    some (if joinRefused s u v then sedRule (LANE_CTRL u) s else fput s (LANE_CTRL u) LANE_CTRL_LAGOON (wbit v 0)) := by
  unfold laneCtrlEff joinRefused
  rw [if_neg (by omega)]
  simp only [Bool.and_eq_true, Bool.or_eq_true]
  split <;> rfl

theorem exec_lagoonRequest (w : Who) (u : UnitNo) (v : Word) (s : State) :
    exec (.lagoonRequest w u v) s = .next (gated w (LANE_CTRL u.toNat) v (laneCtrlEff u.toNat v) s) := rfl

/-- The frame of a write of LANE_CTRL. -/
theorem lagoonRequest_frame {w : Who} {u : UnitNo} {v : Word} {s t : State} (hx : exec (.lagoonRequest w u v) s = .next t) :
    regsOnly (fun a => sedAny a ∨ logAddr a ∨ (∃ i, a = R.LANE_CTRL i)) s t ∧ onlyParts (sedParts.append (logParts.append [.hostAcc])) s t := by
  have ht := execLagoonRequest_touch w u v s t hx
  refine ⟨?_, ht.only _ (by decide)⟩
  exact words_of ht (L := [23, 194, 256, 257, 263, 265]) (by decide)
    ⟨fun _ k => .inr (.inl (logAddr_of_nvm k)), fun _ k => .inr (.inr (of_LANE_CTRL k)), eachCls_log_sed (fun _ k => .inr (.inl k)) fun _ => .inl⟩

/-- The frame of a write that has no effect but its record in the change log. -/
theorem logged_frame {s t : State} (ht : Touch (k_logWrite ||| k_setAcc) s t) :
    regsOnly (fun a => logAddr a) s t ∧ onlyParts (logParts.append [.hostAcc]) s t := by
  refine ⟨?_, ht.only _ (by decide)⟩
  exact words_of ht (L := [23, 256, 257]) (by decide)
    ⟨fun _ k => logAddr_of_nvm k, fun _ k => logAddr_iff.2 (.inr (.inr (of_LOG_HEAD k))), fun _ k => logAddr_iff.2 (.inr (.inl (of_LOG_LOST k))), trivial⟩

/-! ### Pairs join and part (R217, R218) -/

theorem laneStatus_ne {u : Nat} (_ : u % 2 = 0) : LANE_STATUS u ≠ LANE_STATUS (u + 1) := by unfold LANE_STATUS; omega

/-- JOINED of both units of a pair. -/
theorem joined_putBoth {u : Nat} (h : u % 2 = 0) (b : Bool) (s : State) :
    joined (fput (fput s (LANE_STATUS u) LANE_STATUS_JOINED b) (LANE_STATUS (u + 1)) LANE_STATUS_JOINED b) u = b ∧
      joined (fput (fput s (LANE_STATUS u) LANE_STATUS_JOINED b) (LANE_STATUS (u + 1)) LANE_STATUS_JOINED b) (u + 1) = b := by
  unfold joined
  exact ⟨by rw [fbit_fput_other (laneStatus_ne h), fbit_fput (by decide)], fbit_fput (by decide) b⟩

theorem lan_fput (s : State) (a : Nat) (f : Fld) (b : Bool) (u : Nat) : (fput s a f b).lan u = s.lan u := lan_wr ..

theorem lagoonAct_idle {u : Nat} {s : State} (hi : pairIdle s u = true) (h : u % 2 = 0) (hw : fbit s (LANE_CTRL u) LANE_CTRL_LAGOON ≠ joined s u) :
    lagoonAct u s = if fbit s (LANE_CTRL u) LANE_CTRL_LAGOON then lagoonJoin u s else lagoonPart u s := by
  unfold lagoonAct
  dsimp only
  rw [if_neg]
  simp only [hi, Bool.not_true, Bool.or_false, Bool.or_eq_true, decide_eq_true_eq, beq_iff_eq, hw, or_false]
  omega

theorem lagoonAct_waits {u : Nat} {s : State} (h : pairIdle s u = false ∨ fbit s (LANE_CTRL u) LANE_CTRL_LAGOON = joined s u) : lagoonAct u s = s := by
  unfold lagoonAct
  dsimp only
  rw [if_pos]
  rcases h with h | h <;> simp [h]

theorem exec_lagoonApply (u : UnitNo) (s : State) : exec (.lagoonApply u) s = .next (lagoonAct u.toNat s) := rfl

theorem lagoonApply_frame {u : UnitNo} {s t : State} (hx : exec (.lagoonApply u) s = .next t) :
    regsOnly (fun a => (∃ i, a = R.LANE_STATUS i)) s t ∧ onlyParts [.lane, .free] s t := by
  have ht := execLagoonApply_touch u s t hx
  exact ⟨words_of ht (L := [195]) (by decide) ⟨fun _ k => of_LANE_STATUS k, trivial⟩, ht.only _ (by decide +kernel)⟩

/-- A pair that joins: W of the even unit holds both halves, the other lanes stay. -/
theorem lagoonJoin_gives {u : Nat} (h : u % 2 = 0) (s : State) :
    joined (lagoonJoin u s) u = true ∧ joined (lagoonJoin u s) (u + 1) = true ∧
      ((lagoonJoin u s).lan u).r.d = List.zipWith (fun a b => a % 2 ^ 16 + b % 2 ^ 16 * 2 ^ 16) (s.lan u).r.d (s.lan (u + 1)).r.d ∧
      ∀ v, v ≠ u → (lagoonJoin u s).lan v = s.lan v := by
  unfold lagoonJoin
  dsimp only
  obtain ⟨h0, h1⟩ := joined_putBoth h true (s.setLan u { s.lan u with r := { (s.lan u).r with
    d := List.zipWith (fun a b => a % 2 ^ 16 + b % 2 ^ 16 * 2 ^ 16) (s.lan u).r.d (s.lan (u + 1)).r.d } })
  refine ⟨h0, h1, ?_, fun v hv => ?_⟩
  · rw [lan_fput, lan_fput, lan_setLan_same]
  · rw [lan_fput, lan_fput, lan_setLan, if_neg hv]

/-- A pair that parts: each unit keeps its half. -/
theorem lagoonPart_gives {u : Nat} (h : u % 2 = 0) (s : State) :
    joined (lagoonPart u s) u = false ∧ joined (lagoonPart u s) (u + 1) = false ∧
      ((lagoonPart u s).lan u).r.d = (s.lan u).r.d.map (· % 2 ^ 16) ∧ ((lagoonPart u s).lan (u + 1)).r.d = (s.lan u).r.d.map (· / 2 ^ 16) := by
  unfold lagoonPart
  dsimp only
  obtain ⟨h0, h1⟩ := joined_putBoth h false (State.setLan (State.setLan (takeFree s).2 u _) (u + 1) _)
  refine ⟨h0, h1, ?_, ?_⟩
  · rw [lan_fput, lan_fput, lan_setLan, if_neg (by omega), lan_setLan_same]
  · rw [lan_fput, lan_fput, lan_setLan_same]

/-! ### REARM (R238) -/

theorem rearm_word (k : BitVec 3) :
    wbit (BitVec.ofNat 32 (2 ^ 31 + k.toNat)) 31 = true ∧ wField (BitVec.ofNat 32 (2 ^ 31 + k.toNat)) 2 0 = k.toNat := by
  have := k.isLt
  simp only [wbit, wField, fieldOf, Nat.testBit_eq_decide_div_mod_eq, BitVec.toNat_ofNat, decide_eq_true_eq]
  omega

theorem setReady_regs (s : State) (g c : Nat) (l : List REnt) : (s.setReady g c l).regs = s.regs := rfl

theorem ready_setReady (s : State) (g c : Nat) (l : List REnt) : (s.setReady g c l).ready g c = l := by
  unfold State.setReady State.ready
  exact (tget_tset ..).trans (if_pos rfl)

/-- A task's status with FAILED and PENDING cleared. -/
def unfailed (u k : Nat) (s : State) : State := fput (fput s (LT_STAT u k) LT_STAT_FAILED false) (LT_STAT u k) LT_STAT_PENDING false

/-- A task armed again: neither FAILED nor PENDING, and no release of it waits. -/
def rearmed (u k : Nat) (s : State) : State :=
  (unfailed u k s).setReady (u / 8) 3 (((unfailed u k s).ready (u / 8) 3).filter fun e => e.id != taskNo s u k)

theorem ltCmdEff_of_bit31 {u : Nat} {v : Word} {s : State} (h : wbit v 31 = true) : ltCmdEff u v s = some (rearmed u (wField v 2 0) s) := by
  unfold ltCmdEff rearmed unfailed
  dsimp only
  rw [if_pos h]

theorem ltCmdEff_rearm (u : Nat) (k : BitVec 3) (s : State) : ltCmdEff u (BitVec.ofNat 32 (2 ^ 31 + k.toNat)) s = some (rearmed u k.toNat s) := by
  obtain ⟨hbit, htask⟩ := rearm_word k
  rw [ltCmdEff_of_bit31 hbit, htask]

theorem rearmed_gives (u k : Nat) (s : State) : fbit (rearmed u k s) (LT_STAT u k) LT_STAT_FAILED = false ∧
    fbit (rearmed u k s) (LT_STAT u k) LT_STAT_PENDING = false ∧ ∀ e ∈ (rearmed u k s).ready (u / 8) 3, e.id ≠ taskNo s u k := by
  refine ⟨?_, ?_, fun e he => ?_⟩
  · unfold rearmed unfailed
    rw [fbit_of_rd (rd_of_regs (setReady_regs ..) _), fbit_fput_apart (by decide) (by decide) (by decide), fbit_fput (by decide)]
  · unfold rearmed unfailed
    rw [fbit_of_rd (rd_of_regs (setReady_regs ..) _), fbit_fput (by decide)]
  · unfold rearmed at he
    rw [ready_setReady] at he
    exact bne_iff_ne.1 (List.mem_filter.1 he).2

theorem ltStat_not_log (u k : Nat) : ¬ logAddr (LT_STAT u k) = true := not_log (by unfold LT_STAT; omega)
theorem ltStat_lo (u k : Nat) : LT_STAT u k < 0x701000 := by unfold LT_STAT; omega

theorem exec_rearm (w : Who) (u : UnitNo) (k : BitVec 3) (s : State) : exec (.rearm w u k) s =
    .next (gated w (LT_CMD u.toNat) (BitVec.ofNat 32 (2 ^ 31 + k.toNat)) (ltCmdEff u.toNat (BitVec.ofNat 32 (2 ^ 31 + k.toNat))) s) := rfl

/-! ### HOLDOFF_MAX (R243) -/

/-- A new hold-off bound is the lane's; its registers stay. -/
theorem holdoffAct_gives (u : Nat) (s : State) :
    ((holdoffAct u s).lan u).holdoff = max 8 (fget s (HOLDOFF_MAX u) HOLDOFF_MAX_BOUND) ∧ ((holdoffAct u s).lan u).r = (s.lan u).r := by
  unfold holdoffAct
  dsimp only
  split
  · next h => exact ⟨h, rfl⟩
  · rw [lan_of ((condHoldoff_touch _).same .lane rfl), lan_setLan_same]
    exact ⟨rfl, rfl⟩

/-! ### Captures (R237) -/

/-- A lane with position p at the end of capture queue k. -/
def captured (l : Lane) (k p : Nat) : Lane := { l with cap := tset [] l.cap k (tget [] l.cap k ++ [p]) }

theorem captured_queue (l : Lane) (k p : Nat) : tget [] (captured l k p).cap k = tget [] l.cap k ++ [p] :=
  (tget_tset ..).trans (if_pos rfl)

theorem captured_regs (l : Lane) (k p : Nat) : (captured l k p).r = l.r := rfl

section
variable {u : UnitNo} {k : BitVec 3} {dt span : Nat} {s : State} (hv : fbit s (LT_DESC_A u.toNat k.toNat) LT_DESC_A_VALID = true)
  (hc : fbit s (LT_DESC_B u.toNat k.toNat) LT_DESC_B_CAPV = true)
include hv hc

/-- A capture with room in its queue: the position between the two samples joins it. -/
theorem exec_laneCapture_room {n : Nat} (hl : (tget [] (s.lan u.toNat).cap k.toNat).length < 8) (hax : taskAxis s u.toNat k.toNat = some n) :
    exec (.laneCapture u k dt span) s = .next (s.setLan u.toNat (captured (s.lan u.toNat) k.toNat
      (ux 32 ((s.fb n).posPrev + rhu (sx 64 (ux 64 ((s.fb n).pos - (s.fb n).posPrev)) * dt) (max 1 span))))) := by
  show execLaneCapture u k dt span s = _
  unfold execLaneCapture
  dsimp only
  rw [if_pos (by rw [hv, hc]; rfl), if_neg (by omega), hax]
  rfl

/-- A capture with its queue full: lost, with CAPOVF. -/
theorem exec_laneCapture_full (hl : 8 ≤ (tget [] (s.lan u.toNat).cap k.toNat).length) :
    exec (.laneCapture u k dt span) s = .next (w1cSet (LT_STAT u.toNat k.toNat) LT_STAT_CAPOVF u.toNat s) := by
  show execLaneCapture u k dt span s = _
  unfold execLaneCapture
  dsimp only
  rw [if_pos (by rw [hv, hc]; rfl), if_pos hl]

end

theorem laneCapture_frame {u : UnitNo} {k : BitVec 3} {dt span : Nat} {s t : State} (hx : exec (.laneCapture u k dt span) s = .next t) :
    regsOnly (fun a => sedAny a ∨ (∃ i j, a = R.LT_STAT i j)) s t ∧ onlyParts (sedParts.append [.lane]) s t := by
  have ht := execLaneCapture_touch u k dt span s t hx
  exact ⟨words_of ht (L := [200, 263, 265]) (by decide) ⟨fun _ k => .inr (of_LT_STAT k), eachCls_sed fun _ => .inl⟩, ht.only _ (by decide +kernel)⟩

/-- Settles O22: LANE_CTRL and LT_CMD by their effect behind the gate, the events by the equation for their condition. -/
theorem lagoonAndLaneEventsAct : Obligations.LagoonAndLaneEventsAct := by
  unfold Obligations.LagoonAndLaneEventsAct
  refine ⟨?request, ?odd, ?refused, ?join, ?part, ?waits, ?rearm, ?holdoff, ?capture, ?full⟩
  case request =>
    intro w u v s ha hu hn
    obtain ⟨t, e, ht, hacc, hrd⟩ := gated_logged ha ((laneCtrlEff_even hu).trans (congrArg some (if_neg hn)))
    have hx : exec (.lagoonRequest w u v) s = .next t := by rw [exec_lagoonRequest, e]
    refine ⟨t, hx, ?_, (ht.same .lane rfl).trans (fput_lane ..), hacc, lagoonRequest_frame hx⟩
    rw [fbit_of_rd (hrd _ (laneCtrl_not_log _)), fbit_fput (by decide)]
  case odd =>
    intro w u v s ha hu
    obtain ⟨t, e, ht, hacc, hrd⟩ := gated_logged ha (laneCtrlEff_odd hu)
    exact ⟨t, by rw [exec_lagoonRequest, e], hrd _ (laneCtrl_not_log _), hacc, logged_frame ht⟩
  case refused =>
    intro w u v s ha hu hv hr
    obtain ⟨t, e, ht, hacc, hrd⟩ := gated_logged ha ((laneCtrlEff_even hu).trans (congrArg some (if_pos ⟨hv, hr⟩)))
    have hx : exec (.lagoonRequest w u v) s = .next t := by rw [exec_lagoonRequest, e]
    refine ⟨t, hx, ?_, (ht.same .lane rfl).trans (sedRule_lane ..), lagoonRequest_frame hx⟩
    rw [hrd _ (laneCtrl_not_log _)]
    exact rd_sediment_lo (laneCtrl_lo _)
  case join =>
    intro u s hu hw hj hi
    have hx : exec (.lagoonApply u) s = .next (lagoonJoin u.toNat s) := by
      rw [exec_lagoonApply, lagoonAct_idle hi hu (by rw [hw, hj]; decide), if_pos hw]
    obtain ⟨h0, h1, hd, hother⟩ := lagoonJoin_gives hu s
    exact ⟨_, hx, h0, h1, hd, hother, lagoonApply_frame hx⟩
  case part =>
    intro u s hu hw hj hi
    have hx : exec (.lagoonApply u) s = .next (lagoonPart u.toNat s) := by
      rw [exec_lagoonApply, lagoonAct_idle hi hu (by rw [hw, hj]; decide), if_neg (by rw [hw]; decide)]
    obtain ⟨h0, h1, hd, hd'⟩ := lagoonPart_gives hu s
    exact ⟨_, hx, h0, h1, hd, hd', lagoonApply_frame hx⟩
  case waits => exact fun u s h => by rw [exec_lagoonApply, lagoonAct_waits h]
  case rearm =>
    intro w u k s ha
    obtain ⟨t, e, ht, hacc, hrd⟩ := gated_logged ha (ltCmdEff_rearm u.toNat k s)
    have hx : exec (.rearm w u k) s = .next t := by rw [exec_rearm, e]
    have htouch := execRearm_touch w u k s t hx
    obtain ⟨hfailed, hpending, hready⟩ := rearmed_gives u.toNat k.toNat s
    have hst := hrd _ (ltStat_not_log u.toNat k.toNat)
    refine ⟨t, hx, by rw [fbit_of_rd hst, hfailed], by rw [fbit_of_rd hst, hpending], ?_, hacc, ?_, htouch.only _ (by decide)⟩
    · rw [ready_of (ht.same .schReady rfl)]
      exact hready
    · exact words_of htouch (L := [23, 200, 256, 257, 263, 265]) (by decide)
        ⟨fun _ k => .inr (.inl (logAddr_of_nvm k)), fun _ k => .inr (.inr (of_LT_STAT k)), eachCls_log_sed (fun _ k => .inr (.inl k)) fun _ => .inl⟩
  case holdoff =>
    intro u s
    have htouch := execHoldoffMaxApply_touch u s _ rfl
    obtain ⟨hbound, hregs⟩ := holdoffAct_gives u.toNat s
    exact ⟨_, rfl, hbound, hregs, words_of htouch (L := [32]) (by decide) ⟨fun _ k => of_SCH_STATUS k, trivial⟩, htouch.only _ (by decide +kernel)⟩
  case capture =>
    intro u k dt span n s hv hc hl hax
    have hx := exec_laneCapture_room (dt := dt) (span := span) hv hc hl hax
    refine ⟨_, hx, ?_, ?_, laneCapture_frame hx⟩
    · rw [lan_setLan_same, captured_queue]
    · rw [lan_setLan_same, captured_regs]
  case full =>
    intro u k dt span s hv hc hl
    have hx := exec_laneCapture_full (dt := dt) (span := span) hv hc hl
    exact ⟨_, hx, fbit_w1cSet_lo (by decide) (ltStat_lo _ _), w1cSet_lane .., laneCapture_frame hx⟩

end Sys2Proof.Laws

/-! PROOF. Lane instructions (O23 to O25): what an issue in straight line does for every instruction, then arithmetic, logic, moves, loads and stores. -/

namespace Sys2Proof.Laws
open Sys2Proof Sys2Proof.Machine R
set_option Elab.async false

/-! ### The issue of an instruction in straight line (R224 to R226) -/

/-- A bit of LSTAT put back as it stands. -/
theorem stPut_stBit (w : BitVec 16) (i : Nat) : stPut w i (stBit w i) = w := by
  unfold stPut stBit
  refine BitVec.eq_of_getLsbD_eq fun j hj => ?_
  by_cases hij : j = i
  · subst hij
    cases hw : w.getLsbD j <;> simp [hj]
  · have hne : (1#16 <<< i).getLsbD j = false := by
      rw [← BitVec.twoPow_eq, BitVec.getLsbD_twoPow, decide_eq_false (Ne.symm hij), Bool.and_false]
    split
    · rw [BitVec.getLsbD_or, hne, Bool.or_false]
    · rw [BitVec.getLsbD_and, BitVec.getLsbD_not, hne]; simp [hj]

/-- Settings of V40 and G that set neither change nothing. -/
theorem stCommit_of_none {l : List (Bool × Bool)} (h : ∀ p ∈ l, p = (false, false)) (w : BitVec 16) : stCommit l w = w := by
  unfold stCommit
  induction l with
  | nil => rfl
  | cons p l ih =>
    rw [List.foldl_cons, h p (List.mem_cons_self ..), Bool.or_false, Bool.or_false, stPut_stBit, stPut_stBit]
    exact ih fun q hq => h q (List.mem_cons_of_mem _ hq)

/-- With no repetition, delay slot or loop under way the next address follows. -/
theorem advancePc_straight {v : Lane} (hr : v.rpt = none) (hs : v.slots = none) (h0 : v.r.act0 = false) (h1 : v.r.act1 = false) :
    advancePc v = ({ v with again := false, rpt := none, slots := none }, .jump (v.r.pc + 1)) := by
  unfold advancePc loopTest
  simp only [hr, hs, h0, h1, Bool.false_and, Bool.and_false, Bool.false_eq_true, if_false]

/-- The instruction that unit u's lane issues in straight line, as its effect finds it. -/
def laneX (s : State) (u : Nat) : LX :=
  { u := u, wide := joined s u, word := progWord (joined s u) u (s.lan u).r.pc s,
    v := { s.lan u with stick := (s.lan u).stick.take 2 },
    l := { s.lan u with stick := (false, false) :: (s.lan u).stick.take 2, issued := (s.lan u).issued + 1, again := false,
                        rpt := none, slots := none, late := none, mts := none },
    s := s }

/-- The lane l as an issue that read v leaves it, to go on at p. -/
def laneGone (v l : Lane) (p : Nat) : Lane := { l with hist := (histOf v :: v.hist).take 3, r := { l.r with pc := p } }

/-- The state after an issue that continues at p. -/
def laneLeft (v : Lane) (u p : Nat) (x : LX) : State := x.s.setLan u (laneGone v x.l p)

section
variable {s : State} {u mask val : Nat} (h : laneAt s u mask val)
include h

theorem issueFault_at : issueFault (joined s u) (s.lan u) (progWord (joined s u) u (s.lan u).r.pc s) = none := by
  obtain ⟨-, -, hrpt, hslots, -, -, -, h0, h1, -, hill, -⟩ := h
  unfold issueFault loopOf
  simp [hrpt, hslots, h0, h1, hill]

/-- In straight line the effect of the instruction decides all: it continues at p, in place of the next address or there. -/
theorem laneIssue_at {fx : LX → LX} {p : Nat} (hf : (fx (laneX s u)).fault = none) (hg : (fx (laneX s u)).goto.getD ((s.lan u).r.pc + 1) = p)
    (hp : p < progSize (joined s u)) : laneIssue u mask val fx s = laneLeft (laneX s u).v u p (fx (laneX s u)) := by
  have hfault := issueFault_at h
  obtain ⟨hrun, hfi, hrpt, hslots, -, -, hstick, h0, h1, -, -, hval⟩ := h
  have hst : stCommit ((s.lan u).stick.drop 2) (s.lan u).r.stat = (s.lan u).r.stat :=
    stCommit_of_none (fun q hq => hstick q (List.mem_of_mem_drop hq)) _
  have hadv := advancePc_straight (v := (laneX s u).v) hrpt hslots h0 h1
  show (if (!laneRuns s u) = true then s else _) = _
  rw [if_neg (by rw [hrun]; decide)]
  show (match issueFault (joined s u) (s.lan u) (progWord (joined s u) u (s.lan u).r.pc s) with | some c => _ | none => _) = _
  rw [hfault]
  show (if _ ≠ val then s else _) = _
  rw [if_neg (by simpa using hval), fiHit_none hfi]
  show (if false = true then _ else _) = _
  rw [if_neg Bool.false_ne_true, hst]
  extract_lets r v
  generalize hA : advancePc v = A
  obtain rfl := hA.symm.trans hadv
  show (match (fx (laneX s u)).fault with | some c => _ | none => _) = _
  rw [hf]
  show (match (match (fx (laneX s u)).goto with | some p => After.jump p | none => After.jump ((s.lan u).r.pc + 1)) with | .fin => _ | .jump p => _) = _
  have hjump : (match (fx (laneX s u)).goto with | some p => After.jump p | none => After.jump ((s.lan u).r.pc + 1)) = After.jump p := by
    rw [← hg]
    cases (fx (laneX s u)).goto <;> rfl
  rw [hjump]
  exact if_pos hp

theorem pc_at : (s.lan u).r.pc + 1 < progSize (joined s u) := by
  obtain ⟨-, -, -, -, -, -, -, -, -, hpc, -⟩ := h
  exact hpc

/-- The same of a command, with no address put in place of the next. -/
theorem laneIssue_next {fx : LX → LX} (hf : (fx (laneX s u)).fault = none) (hg : (fx (laneX s u)).goto = none) :
    laneIssue u mask val fx s = laneLeft (laneX s u).v u ((s.lan u).r.pc + 1) (fx (laneX s u)) :=
  laneIssue_at h hf (by rw [hg]; rfl) (pc_at h)

end

/-! ### What an issue leaves -/

theorem lan_laneLeft (v : Lane) (u p : Nat) (x : LX) : (laneLeft v u p x).lan u = laneGone v x.l p := lan_setLan_same ..
theorem lan_laneLeft_other {v : Lane} {u p k : Nat} {x : LX} (hk : k ≠ u) : (laneLeft v u p x).lan k = x.s.lan k := by
  unfold laneLeft; rw [lan_setLan, if_neg hk]
theorem laneLeft_regs (v : Lane) (u p : Nat) (x : LX) : (laneLeft v u p x).regs = x.s.regs := setLan_regs ..
theorem laneLeft_touch (v : Lane) (u p : Nat) (x : LX) : Touch k_State_setLan x.s (laneLeft v u p x) := State_setLan_touch ..

/-- A lane put back is a change of the lanes only. -/
theorem onlyParts_laneLeft (v : Lane) (u p : Nat) (x : LX) : onlyParts [.lane] x.s (laneLeft v u p x) :=
  (laneLeft_touch ..).only _ (by decide)

theorem issued_next (u : UnitNo) (mask val : Nat) (fx : LX → LX) (s : State) :
    issued u mask val fx s = .next (laneIssue u.toNat mask val fx s) := rfl

/-- The issue with l for the lane it writes, and g in place of the next address. -/
def laneOut (s : State) (u : Nat) (l : Lane) (g : Option Nat) : LX := { laneX s u with l := l, goto := g }

section
variable {s : State} {u : UnitNo} {mask val : Nat} (h : laneAt s u.toNat mask val)
include h

/-- An instruction that writes only its lane l: where the lane goes, and what it keeps beside the registers. -/
theorem issued_flow {fx : LX → LX} {l : Lane} {g : Option Nat} {p : Nat} (hx : fx (laneX s u.toNat) = laneOut s u.toNat l g)
    (hg : g.getD ((s.lan u.toNat).r.pc + 1) = p) (hp : p < progSize (joined s u.toNat)) :
    ∃ t, issued u mask val fx s = .next t ∧ laneFlow s t u.toNat p l.rpt l.slots l.r ∧
      t.lan u.toNat = laneGone (laneX s u.toNat).v l p := by
  have hl : laneIssue u.toNat mask val fx s = laneLeft (laneX s u.toNat).v u.toNat p (laneOut s u.toNat l g) := by
    rw [← hx]
    exact laneIssue_at h (by rw [hx]; rfl) (by rw [hx]; exact hg) hp
  have hlan := lan_laneLeft (laneX s u.toNat).v u.toNat p (laneOut s u.toNat l g)
  refine ⟨_, by rw [issued_next, hl], ⟨?_, ?_, ?_, fun _ hk => lan_laneLeft_other hk, laneLeft_regs .., onlyParts_laneLeft ..⟩, hlan⟩
  · rw [hlan]; rfl
  · rw [hlan]; rfl
  · rw [hlan]; rfl

/-- An instruction that writes only its lane l and goes on. -/
theorem issued_lane {fx : LX → LX} {l : Lane} (hx : fx (laneX s u.toNat) = laneOut s u.toNat l none) :
    ∃ t, issued u mask val fx s = .next t ∧ laneNext s t u.toNat l.r ∧
      t.lan u.toNat = laneGone (laneX s u.toNat).v l ((s.lan u.toNat).r.pc + 1) := by
  obtain ⟨t, e, ⟨hr, -, -, hother, hregs, hparts⟩, hl⟩ := issued_flow h hx rfl (pc_at h)
  exact ⟨t, e, ⟨hr, hother, hregs, hparts⟩, hl⟩

/-- An instruction that writes only the registers of its lane. -/
theorem issued_regs {fx : LX → LX} {r : LaneRegs} (hx : fx (laneX s u.toNat) = (laneX s u.toNat).mod fun _ => r) :
    ∃ t, issued u mask val fx s = .next t ∧ laneNext s t u.toNat r := by
  obtain ⟨t, e, hnext, -⟩ := issued_lane h (l := { (laneX s u.toNat).l with r := r }) hx
  exact ⟨t, e, hnext⟩

/-- An instruction that leaves the state r and its lane the registers: beside the lane the state is as it left it. -/
theorem issued_state {fx : LX → LX} {r : State} {f : LaneRegs → LaneRegs}
    (hx : fx (laneX s u.toNat) = ({ laneX s u.toNat with s := r } : LX).mod f) :
    ∃ t, issued u mask val fx s = .next t ∧ (t.lan u.toNat).r = { f (s.lan u.toNat).r with pc := (s.lan u.toNat).r.pc + 1 } ∧
      (∀ k, k ≠ u.toNat → t.lan k = r.lan k) ∧ t.regs = r.regs ∧ Touch k_State_setLan r t := by
  have hl := laneIssue_next h (fx := fx) (by rw [hx]; rfl) (by rw [hx]; rfl)
  have hstate : (fx (laneX s u.toNat)).s = r := by rw [hx]; rfl
  refine ⟨_, by rw [issued_next, hl], ?_, fun k hk => ?_, ?_, ?_⟩
  · rw [lan_laneLeft, hx]; rfl
  · rw [lan_laneLeft_other hk, hstate]
  · rw [laneLeft_regs, hstate]
  · exact hstate ▸ laneLeft_touch ..

end

/-! ### What an instruction reads (Table 6.2) -/

@[simp] theorem w_laneX (s : State) (u : Nat) : (laneX s u).w = laneW s u := rfl
@[simp] theorem wide_laneX (s : State) (u : Nat) : (laneX s u).wide = joined s u := rfl
@[simp] theorem wide_laneOut (s : State) (u : Nat) (l : Lane) (g : Option Nat) : (laneOut s u l g).wide = joined s u := rfl

section
variable {s : State} {u mask val : Nat} (h : laneAt s u mask val)
include h

/-- Dn, with no late result on its way. -/
theorem reg_laneX (n : Nat) : (laneX s u).reg n = laneD s u n := by
  obtain ⟨-, -, -, -, hlate, -⟩ := h
  show opOld (histOf (laneX s u).v) n = _
  unfold opOld
  rw [show (histOf (laneX s u).v).late = none from hlate]
  rfl

theorem sreg_laneX (n : Nat) : (laneX s u).sreg n = laneS s u n := by unfold LX.sreg; rw [reg_laneX h]; rfl

end

/-! ### Arithmetic and logic (R196, R197) -/

theorem fit_laneX (s : State) (u : Nat) (e : Int) : (laneX s u).fit e = (laneFit s u e, (satF (laneW s u) e).2) := by
  rfl

theorem flags_laneX (s : State) (u val : Nat) (c v : Bool) :
    (laneX s u).flags val c v = (laneX s u).mod fun _ => { (s.lan u).r with stat := laneFlags s u val c v } := by rfl

/-- An arithmetic result without a destination (R196). -/
theorem compare_laneX (s : State) (u : Nat) (e : Int) (c : Bool) : (laneX s u).arith none e c =
    (laneX s u).mod fun _ => { (s.lan u).r with stat := laneFlags s u (laneFit s u e) c (satF (laneW s u) e).2 } := by
  unfold LX.arith
  rw [fit_laneX, ← flags_laneX]

theorem arith_laneX (s : State) (u d : Nat) (e : Int) (c : Bool) :
    (laneX s u).arith (some d) e c = (laneX s u).mod fun _ => laneArith s u d e c := by
  unfold LX.arith
  rw [fit_laneX]
  dsimp only
  rw [flags_laneX]
  rfl

theorem logic_laneX (s : State) (u d v : Nat) : (laneX s u).logic d v = (laneX s u).mod fun _ => laneLogic s u d v := by
  unfold LX.logic
  rw [flags_laneX]
  rfl

/-- Settles O23: each result is exact, wrapped or saturated, and the flags are those of its sum. -/
theorem laneArithmeticActs : Obligations.LaneArithmeticActs := by
  unfold Obligations.LaneArithmeticActs
  refine ⟨?add, ?sub, ?addi, ?neg, ?abs, ?cmp⟩
  case add => exact fun u d a b s h => issued_regs h (by simp only [reg_laneX h, sreg_laneX h, arith_laneX, carry, w_laneX])
  case sub => exact fun u d a b s h => issued_regs h (by simp only [reg_laneX h, sreg_laneX h, arith_laneX, noBorrow])
  case addi => exact fun u d a imm s h => issued_regs h (by simp only [reg_laneX h, sreg_laneX h, arith_laneX, carry, w_laneX])
  case neg => exact fun u d a s h => issued_regs h (by simp only [reg_laneX h, sreg_laneX h, arith_laneX, noBorrow])
  case abs => exact fun u d a s h => issued_regs h (by simp only [sreg_laneX h, arith_laneX])
  case cmp => exact fun u a b s h => issued_regs h (by simp only [reg_laneX h, sreg_laneX h, compare_laneX, noBorrow])

/-- Settles O24: each result and its flags are those of the logic write. -/
theorem laneLogicActs : Obligations.LaneLogicActs := by
  unfold Obligations.LaneLogicActs
  refine ⟨?and, ?or, ?xor, ?andi, ?ori, ?xori, ?shl, ?shr, ?sra, ?not, ?min, ?max⟩
  case and => exact fun u d a b s h => issued_regs h (by simp only [reg_laneX h, logic_laneX])
  case or => exact fun u d a b s h => issued_regs h (by simp only [reg_laneX h, logic_laneX])
  case xor => exact fun u d a b s h => issued_regs h (by simp only [reg_laneX h, logic_laneX])
  case andi => exact fun u d a imm s h => issued_regs h (by simp only [reg_laneX h, logic_laneX])
  case ori => exact fun u d a imm s h => issued_regs h (by simp only [reg_laneX h, logic_laneX])
  case xori => exact fun u d a imm s h => issued_regs h (by simp only [reg_laneX h, logic_laneX])
  case shl => exact fun u d a n s h => issued_regs h (by simp only [reg_laneX h, logic_laneX, w_laneX])
  case shr => exact fun u d a n s h => issued_regs h (by simp only [reg_laneX h, logic_laneX])
  case sra => exact fun u d a n s h => issued_regs h (by simp only [sreg_laneX h, logic_laneX, w_laneX])
  case not => exact fun u d a s h => issued_regs h (by simp only [reg_laneX h, logic_laneX, w_laneX])
  case min => exact fun u d a b s h => issued_regs h (by simp only [reg_laneX h, sreg_laneX h, logic_laneX])
  case max => exact fun u d a b s h => issued_regs h (by simp only [reg_laneX h, sreg_laneX h, logic_laneX])

/-! ### Address registers and memory (R199, R200, R218) -/

/-- An effect that reads what the issue in front of unit u's lane reads. -/
def readsAs (s : State) (u : Nat) (x : LX) : Prop := x.u = u ∧ x.wide = joined s u ∧ x.v = (laneX s u).v

theorem readsAs_laneX (s : State) (u : Nat) : readsAs s u (laneX s u) := ⟨rfl, rfl, rfl⟩
theorem readsAs_mod {s : State} {u : Nat} {x : LX} (hx : readsAs s u x) (f : LaneRegs → LaneRegs) : readsAs s u (x.mod f) := hx
theorem readsAs_state {s t : State} {u : Nat} {x : LX} (hx : readsAs s u x) : readsAs s u { x with s := t } := hx

theorem setD_laneX (s : State) (u d v : Nat) : (laneX s u).setD d v = (laneX s u).mod fun _ => laneSet s u d v := by rfl

section
variable {s : State} {u mask val : Nat} (h : laneAt s u mask val) {x : LX} (hx : readsAs s u x)
include h hx

/-- A special register, with no MTS before. -/
theorem mtsOld_at (k : Nat) (now : Int) : mtsOld x.v k now = now := by
  obtain ⟨-, -, -, -, -, hmts, -⟩ := h
  rw [hx.2.2]
  unfold mtsOld
  rw [show (laneX s u).v.mts = none from hmts]

theorem aReg_at (n : Nat) : x.aReg n = laneA s u n := by unfold LX.aReg; rw [mtsOld_at h hx, hx.2.2]; rfl
theorem mReg_at (n : Nat) : x.mReg n = (s.lan u).r.m.getD n 0 := by unfold LX.mReg; rw [mtsOld_at h hx, hx.2.2]; rfl
theorem bReg_at (n : Nat) : x.bReg n = laneB s u n := by unfold LX.bReg; rw [mtsOld_at h hx, hx.2.2]; rfl
theorem lReg_at (n : Nat) : x.lReg n = (s.lan u).r.l.getD n 0 := by unfold LX.lReg; rw [mtsOld_at h hx, hx.2.2]; rfl

theorem step_at (n md : Nat) (w : Bool) : x.step n md w = laneStep s u n md w := by
  unfold LX.step laneStep
  rw [mReg_at h hx] <;> rfl

/-- The post-modify of a pointer within its circular buffer, or without one. -/
theorem postModify_at {n : Nat} (hin : laneIn s u n) (st : Int) : x.postModify n st = x.mod (lanePost s u n st) := by
  have hmts : x.v.mts = none := by obtain ⟨-, -, -, -, -, hmts, -⟩ := h; rw [hx.2.2]; exact hmts
  have hlen : (if x.wide then x.lReg n else min (x.lReg n) 2048) = laneL s u n := by rw [lReg_at h hx, hx.2.1]; rfl
  have hbank : (((laneA s u n : Int) + st) % (bankSize (joined s u) : Int)).toNat % 4096 =
      (((laneA s u n : Int) + st) % (bankSize (joined s u) : Int)).toNat := by
    have hb : (bankSize (joined s u) : Int) = 4096 ∨ (bankSize (joined s u) : Int) = 2048 := by unfold bankSize; split <;> simp
    refine Nat.mod_eq_of_lt ?_
    rcases hb with hb | hb <;> rw [hb] <;> omega
  unfold LX.postModify
  rw [hlen, aReg_at h hx, bReg_at h hx, hx.2.1]
  simp only [hmts]
  by_cases hst : st = 0
  · rw [if_pos hst]
    show x = { x with l := { x.l with r := lanePost s u n st x.l.r } }
    rw [show lanePost s u n st x.l.r = x.l.r from if_pos hst]
  · rw [if_neg hst]
    by_cases hl : laneL s u n = 0
    · rw [if_pos hl, show lanePost s u n st = fun r => { r with a := r.a.set n (((laneA s u n : Int) + st) % (bankSize (joined s u) : Int)).toNat } from
        funext fun r => (if_neg hst).trans (if_pos hl)]
      rw [hbank]
    · have hbuf := hin.resolve_left hl
      rw [if_neg hl, if_pos (by simp [hbuf.1, hbuf.2]), show lanePost s u n st = fun r =>
        { r with a := r.a.set n ((laneB s u n + (((laneA s u n : Int) - laneB s u n + st) % (laneL s u n : Int)).toNat) % 4096) } from
        funext fun r => (if_neg hst).trans (if_neg hl)]

end

theorem load_laneX (s : State) (u : Nat) (y w : Bool) (a : Nat) :
    (if w = true then (laneX s u).load y true a else ux (laneX s u).w (sx 16 ((laneX s u).load y false a))) = laneLd s u y w a := by
  cases w <;> rfl

theorem store_laneX (s : State) (u : Nat) (y w : Bool) (a v : Nat) :
    (laneX s u).store y w a v = { laneX s u with s := laneSt s u y w a v } := by
  unfold LX.store laneSt
  cases w <;> rfl

theorem onlyParts_trans {ps : List Part} {r s t : State} (h : onlyParts ps s t) (h0 : onlyParts ps r s) : onlyParts ps r t :=
  ⟨h.1.trans h0.1, fun p hp => samePart_trans (h.2 p hp) (h0.2 p hp)⟩

theorem onlyParts_lwr (j : Bool) (u : Nat) (y : Bool) (a v : Nat) (s : State) : onlyParts [.lane] s (lwr j u y a v s) :=
  (lwr_touch ..).only _ (by decide)

/-- A store changes words of the lane's memory and no hidden state. -/
theorem laneSt_keeps (s : State) (u : Nat) (y w : Bool) (a v : Nat) :
    (laneSt s u y w a v).lane = s.lane ∧ onlyParts [.lane] s (laneSt s u y w a v) := by
  cases w
  · exact ⟨wr_lane .., onlyParts_lwr ..⟩
  · exact ⟨(wr_lane ..).trans (wr_lane ..), onlyParts_trans (onlyParts_lwr ..) (onlyParts_lwr ..)⟩

/-- A store of v at an address of bank X or Y, with the post-modify f. -/
theorem issued_store {s : State} {u : UnitNo} {mask val : Nat} (h : laneAt s u.toNat mask val) {fx : LX → LX} {y w : Bool} {a v : Nat}
    {f : LaneRegs → LaneRegs} (hx : fx (laneX s u.toNat) = ({ laneX s u.toNat with s := laneSt s u.toNat y w a v } : LX).mod f) :
    ∃ t, issued u mask val fx s = .next t ∧ laneStored s t u.toNat (f (s.lan u.toNat).r) y w a v := by
  obtain ⟨hlane, hparts⟩ := laneSt_keeps s u.toNat y w a v
  obtain ⟨t, e, hr, hother, hregs, ht⟩ := issued_state h hx
  exact ⟨t, e, hr, fun k hk => (hother k hk).trans (lan_of hlane k), hregs, onlyParts_trans (ht.only _ (by decide)) hparts⟩

/-- The half word of bank X or Y lies within its word. -/
theorem dataAt_half (j : Bool) (u : Nat) (y : Bool) (a : Nat) : (dataAt j u y a).2 < 2 := by
  unfold dataAt
  exact Nat.mod_lt _ (by decide)

/-- A 16-bit word stored reads back, and the other half of its register word stays. -/
theorem lrd_lwr (j y : Bool) (u a v : Nat) (s : State) : lrd j u y a (lwr j u y a v s) = v % 2 ^ 16 := by
  have hh := dataAt_half j u y a
  have hf := fieldOf_withField (w := rd s (dataAt j u y a).1) (f := ⟨16 * (dataAt j u y a).2 + 15, 16 * (dataAt j u y a).2⟩)
    ⟨by simp, by simp only; omega⟩ v
  unfold fieldOf at hf
  dsimp only at hf
  rw [show 16 * (dataAt j u y a).2 + 15 - 16 * (dataAt j u y a).2 + 1 = 16 by omega] at hf
  show (rd (wr s (dataAt j u y a).1 (withField (rd s (dataAt j u y a).1) ⟨_, _⟩ v)) (dataAt j u y a).1).toNat / _ % _ = _
  rw [rd_wr_same]
  exact hf

/-- Settles O25: registers by the issue law, pointers by their post-modify, stores by the words of the bank they name. -/
theorem laneMovesAct : Obligations.LaneMovesAct := by
  unfold Obligations.LaneMovesAct
  refine ⟨?nop, ?ldi, ?ldih, ?mov, ?ldAbs, ?ldInd, ?stAbs, ?stInd, ?memory⟩
  case nop => exact fun u s h => issued_regs h rfl
  case ldi => exact fun u d imm s h => issued_regs h (by simp only [setD_laneX, w_laneX])
  case ldih => exact fun u d imm s h => issued_regs h (by simp only [reg_laneX h, setD_laneX])
  case mov => exact fun u d a s h => issued_regs h (by simp only [reg_laneX h, setD_laneX])
  case ldAbs => exact fun u d y w a s h => issued_regs h (by simp only [load_laneX, setD_laneX])
  case ldInd =>
    intro u d y w n m s h hin
    have hr := readsAs_laneX s u.toNat
    refine issued_regs h ?_
    simp only [load_laneX, setD_laneX, aReg_at h hr, step_at h hr]
    rw [postModify_at h (readsAs_mod hr _) hin]
    rfl
  case stAbs =>
    intro u a y w p s h
    refine issued_store h (f := id) ?_
    simp only [reg_laneX h, store_laneX]
    rfl
  case stInd =>
    intro u a y w n m s h hin
    have hr := readsAs_laneX s u.toNat
    refine issued_store h ?_
    simp only [reg_laneX h, store_laneX, aReg_at h hr, step_at h hr]
    rw [postModify_at h (readsAs_state hr) hin]
  case memory =>
    exact fun j y u a v s => ⟨lrd_lwr .., fun p hp => rd_wr_other _ _ hp, rd_wr_same ..⟩

end Sys2Proof.Laws

/-! PROOF. The lane's accumulator (O26, O27): products, parallel fetches, late results, and reads once earlier results have settled. -/

namespace Sys2Proof.Laws
open Sys2Proof Sys2Proof.Machine R
set_option Elab.async false

/-! ### The accumulator and the multiplier (R194, R195, R203) -/

theorem mod_mod (x : LX) (f g : LaneRegs → LaneRegs) : (x.mod f).mod g = x.mod fun r => g (f r) := rfl

@[simp] theorem vr_laneX (s : State) (u : Nat) : (laneX s u).v.r = (s.lan u).r := rfl

/-- The lane with e written to the accumulator and the sticky settings of the write. -/
def laneAccL (s : State) (u : Nat) (e : Int) : Lane :=
  { (laneX s u).l with r := laneAcc s u e,
                       stick := ((satF (laneAccW s u) e).2, (satF (laneAccW s u - 8) (laneAccV s u e)).2) :: (s.lan u).stick.take 2 }

theorem accWrite_laneX (s : State) (u : Nat) (e : Int) : (laneX s u).accWrite e = laneOut s u (laneAccL s u e) none := by
  rfl

/-- A write of the accumulator, and further writes f of registers. -/
theorem issued_acc {s : State} {u : UnitNo} {mask val : Nat} (h : laneAt s u.toNat mask val) {fx : LX → LX} {e : Int} {f : LaneRegs → LaneRegs}
    (hx : fx (laneX s u.toNat) = ((laneX s u.toNat).accWrite e).mod f) :
    ∃ t, issued u mask val fx s = .next t ∧ laneNext s t u.toNat (f (laneAcc s u.toNat e)) ∧ laneSticky s t u.toNat e := by
  obtain ⟨t, he, hnext, hl⟩ := issued_lane h (l := { laneAccL s u.toNat e with r := f (laneAcc s u.toNat e) }) (hx.trans (by rw [accWrite_laneX]; rfl))
  exact ⟨t, he, hnext, by unfold laneSticky; rw [hl]; rfl⟩

section
variable {s : State} {u mask val : Nat} (h : laneAt s u mask val)
include h

theorem product_laneX (a b : Nat) (ua ub hb : Bool) : (laneX s u).product a b ua ub hb = laneProd s u a b ua ub hb := by
  unfold LX.product laneProd
  simp only [reg_laneX h, sreg_laneX h]
  rfl

/-- The parallel fetch of a word through a pointer within its circular buffer, or without one. -/
theorem fetchTo_at {x : LX} (hx : readsAs s u x) (hs : x.s = s) {on y : Bool} {n md d : Nat} (hin : on = true → laneIn s u n) :
    x.fetchTo on y n md d = x.mod (laneFetch s u on y n md d) := by
  cases on
  · rfl
  · have hload : x.load y x.wide (x.aReg n) = laneWord s u y (laneA s u n) := by
      unfold LX.load laneWord
      rw [aReg_at h hx, hs, hx.1, hx.2.1]
    have hw : x.w = laneW s u := by unfold LX.w laneW; rw [hx.2.1]
    show ((x.setD d (x.load y x.wide (x.aReg n))).postModify n (x.step n md x.wide)) = _
    rw [hload, step_at h hx, hx.2.1]
    unfold LX.setD
    rw [hw, postModify_at h (readsAs_mod hx _) (hin rfl), mod_mod]
    rfl

theorem fetches_at {x : LX} (hx : readsAs s u x) (hs : x.s = s) {f : Fetch} (hin : laneFetchIn s u f) : x.fetches f = x.mod (laneFetches s u f) := by
  unfold LX.fetches
  rw [fetchTo_at h hx hs hin.1, fetchTo_at h (readsAs_mod hx _) hs hin.2, mod_mod]
  rfl

end

/-- A product or a sum with it written to the accumulator, after it the parallel fetches. -/
theorem issued_fetches {s : State} {u : UnitNo} {mask val : Nat} (h : laneAt s u.toNat mask val) {fx : LX → LX} {e : Int} {f : Fetch}
    (hin : laneFetchIn s u.toNat f) (hx : fx (laneX s u.toNat) = ((laneX s u.toNat).accWrite e).fetches f) :
    ∃ t, issued u mask val fx s = .next t ∧ laneNext s t u.toNat (laneFetches s u.toNat f (laneAcc s u.toNat e)) ∧ laneSticky s t u.toNat e :=
  issued_acc h (hx.trans (fetches_at h (x := (laneX s u.toNat).accWrite e) (readsAs_laneX s u.toNat) rfl hin))

/-- The value before a result written late is what the next issue reads. -/
theorem setLate_at {s : State} {u : Nat} {x : LX} (hx : readsAs s u x) (d v : Nat) :
    x.setLate d v = { x.setD d v with l := { (x.setD d v).l with late := some (d, laneD s u d) } } := by
  unfold LX.setLate
  rw [hx.2.2]
  rfl

/-- Dd written late, as NRM and QSTEP do, beside the accumulator. -/
theorem issued_late {s : State} {u : UnitNo} {mask val : Nat} (h : laneAt s u.toNat mask val) {fx : LX → LX} {acc : Int} {d v : Nat}
    (hx : fx (laneX s u.toNat) = ((laneX s u.toNat).mod fun r => { r with acc := acc }).setLate d v) :
    ∃ t, issued u mask val fx s = .next t ∧ laneNext s t u.toNat { laneSet s u.toNat d v with acc := acc } ∧
      (t.lan u.toNat).late = some (d, laneD s u.toNat d) := by
  obtain ⟨t, he, hnext, hl⟩ := issued_lane h
    (l := { (laneX s u.toNat).l with r := { laneSet s u.toNat d v with acc := acc }, late := some (d, laneD s u.toNat d) })
    (hx.trans (setLate_at (readsAs_mod (readsAs_laneX ..) _) d v))
  exact ⟨t, he, hnext, by rw [hl]; rfl⟩

/-- Settles O26: each result by what the multiplier or the arithmetic writes, then the fetches. -/
theorem laneMultiplyActs : Obligations.LaneMultiplyActs := by
  unfold Obligations.LaneMultiplyActs
  refine ⟨?mac, ?msu, ?mpy, ?fetch, ?acs, ?nrmZero, ?nrm, ?qstep⟩
  case mac => exact fun u f a b ua ub hb s h hin => issued_fetches h hin (by simp only [product_laneX h]; rfl)
  case msu => exact fun u f a b ua ub hb s h hin => issued_fetches h hin (by simp only [product_laneX h]; rfl)
  case mpy => exact fun u f a b ua ub hb s h hin => issued_fetches h hin (by simp only [product_laneX h])
  case fetch => exact fun u f s h hin => issued_regs h (fetches_at h (readsAs_laneX ..) rfl hin)
  case acs =>
    intro u d a b c neg mx fx xa xm dx bm c0 c1 sel v s h hin hbm hc0 hc1 hsel hv
    refine issued_regs h ?_
    simp only [sreg_laneX h, w_laneX, flags_laneX, ← hbm, ← hc0, ← hc1, ← hsel, ← hv]
    exact fetchTo_at h (x := (((laneX s u.toNat).mod _).setD d.toNat v).mod _) (readsAs_laneX s u.toNat) rfl hin
  case nrmZero =>
    intro u d s h hacc
    obtain ⟨t, e, hnext, -⟩ : ∃ t, exec (.nrm u d) s = .next t ∧
        laneNext s t u.toNat { laneSet s u.toNat d.toNat (laneD s u.toNat d.toNat) with acc := (s.lan u.toNat).r.acc } ∧
          (t.lan u.toNat).late = some (d.toNat, laneD s u.toNat d.toNat) := issued_late h (if_pos hacc)
    exact ⟨t, e, hnext⟩
  case nrm =>
    intro u d n y s h hacc hn
    have hp : ∀ p : Int × Int, p = (n, y) → ((laneX s u.toNat).mod fun r => { r with acc := p.2 }).setLate d.toNat
        (ux (laneW s u.toNat) (sat (laneW s u.toNat) (laneS s u.toNat d.toNat - p.1))) =
          ((laneX s u.toNat).mod fun r => { r with acc := y }).setLate d.toNat
            (ux (laneW s u.toNat) (sat (laneW s u.toNat) (laneS s u.toNat d.toNat - n))) := by
      rintro _ rfl; rfl
    exact issued_late h ((if_neg hacc).trans (hp _ hn))
  case qstep =>
    rintro u d a q s h rfl
    refine issued_late h ?_
    simp only [sreg_laneX h]
    rfl

/-! ### Settled results (Table 6.2) -/

/-- Once earlier results have settled every read of the last issues finds the present values. -/
theorem ago_laneX {s : State} {u : Nat} (hs : laneSettled s u) (k : Nat) :
    ((laneX s u).ago k).acc = (s.lan u).r.acc ∧ ((laneX s u).ago k).stat = (s.lan u).r.stat := by
  cases k with
  | zero => exact ⟨rfl, rfl⟩
  | succ k =>
    show (match (s.lan u).hist with | [] => histOf (laneX s u).v | h :: t => (h :: t).getD k ((h :: t).getLastD h)).acc = _ ∧
      (match (s.lan u).hist with | [] => histOf (laneX s u).v | h :: t => (h :: t).getD k ((h :: t).getLastD h)).stat = _
    cases hh : (s.lan u).hist with
    | nil => exact ⟨rfl, rfl⟩
    | cons x t =>
      have hm : (x :: t).getD k ((x :: t).getLastD x) ∈ (s.lan u).hist := by
        rw [hh, List.getD_eq_getElem?_getD]
        cases hk : (x :: t)[k]? with
        | none => rw [Option.getD_none, List.getLastD_cons]; exact List.getLastD_mem_cons
        | some y => exact List.mem_of_getElem? hk
      obtain ⟨hacc, hstat, -⟩ := hs _ hm
      exact ⟨hacc, hstat⟩

theorem mvaHigh_eq (x : LX) (d : Nat) (e : Int) : mvaHigh x d e = x.arith (some d) e false := rfl

/-- Settles O27: the operations by the accumulator write, MVA by the settled accumulator it reads. -/
theorem laneAccumulatorActs : Obligations.LaneAccumulatorActs := by
  unfold Obligations.LaneAccumulatorActs
  refine ⟨?clra, ?adda, ?suba, ?nega, ?absa, ?shla, ?shra, ?mvaH, ?mvaT, ?mvaL⟩
  case clra => exact fun u s h => issued_regs h rfl
  case adda => exact fun u a s h => issued_acc h (f := id) (by simp only [sreg_laneX h]; rfl)
  case suba => exact fun u a s h => issued_acc h (f := id) (by simp only [sreg_laneX h]; rfl)
  case nega => exact fun u s h => issued_acc h (f := id) rfl
  case absa => exact fun u s h => issued_acc h (f := id) rfl
  case shla => exact fun u n s h => issued_acc h (f := id) rfl
  case shra => exact fun u n s h => issued_acc h (f := id) rfl
  case mvaH => exact fun u d s h hs => issued_regs h (by simp only [LX.accRead, (ago_laneX hs 2).1, mvaHigh_eq, arith_laneX])
  case mvaT => exact fun u d s h hs => issued_regs h (by simp only [LX.accRead, (ago_laneX hs 2).1, mvaHigh_eq, arith_laneX])
  case mvaL => exact fun u d s h hs => issued_regs h (by simp only [LX.accRead, (ago_laneX hs 2).1, logic_laneX])

end Sys2Proof.Laws

/-! PROOF. Lane control flow (O28): conditions, delay slots, repetitions and loops. -/

namespace Sys2Proof.Laws
open Sys2Proof Sys2Proof.Machine R
set_option Elab.async false

/-! ### Conditions and counts (R208, R210, R211) -/

section
variable {s : State} {u : Nat} (hs : laneSettled s u)
include hs

theorem accRead_laneX : (laneX s u).accRead = (s.lan u).r.acc := (ago_laneX hs 2).1

theorem cond_laneX (c : Nat) : (laneX s u).cond c = laneCond s u c := by
  unfold LX.cond laneCond
  rw [show (laneX s u).condStat = (s.lan u).r.stat from (ago_laneX hs 1).2, show (laneX s u).accCond = (s.lan u).r.acc from (ago_laneX hs 3).1] <;> rfl

theorem cnt_laneX {mask val : Nat} (h : laneAt s u mask val) (n : Nat) : (laneX s u).cnt n = laneD s u n := by
  show (match (s.lan u).hist with | h :: _ => opOld h n | [] => (laneX s u).reg n) = _
  cases hh : (s.lan u).hist with
  | nil => exact reg_laneX h n
  | cons x t =>
    obtain ⟨-, -, hd, hlate⟩ := hs x (by rw [hh]; exact List.mem_cons_self ..)
    show opOld x n = _
    unfold opOld
    rw [hlate, hd]
    rfl

end

/-- With no loop open there is no level to close. -/
theorem closeLevels_idle {l : Lane} (h0 : l.r.act0 = false) (h1 : l.r.act1 = false) (p : Nat) : closeLevels p l = l := by
  unfold closeLevels
  simp only [h0, h1, Bool.false_and, Bool.and_false, Bool.false_eq_true, if_false]

section
variable {s : State} {u : UnitNo} {mask val : Nat} (h : laneAt s u.toNat mask val)
include h

/-- A jump with the registers r: two delay slots, then `a`. -/
theorem issued_jump {fx : LX → LX} {a : After} {r : LaneRegs} (hx : fx (laneX s u.toNat) = ((laneX s u.toNat).mod fun _ => r).after2 a) :
    ∃ t, issued u mask val fx s = .next t ∧ laneFlow s t u.toNat ((s.lan u.toNat).r.pc + 1) none (some (2, a)) r := by
  obtain ⟨t, e, hf, -⟩ := issued_flow h (l := { (laneX s u.toNat).l with r := r, slots := some (2, a) }) (g := none) hx rfl (pc_at h)
  exact ⟨t, e, hf⟩

/-- A repetition of the next instruction, with the registers r. -/
theorem issued_repeat {fx : LX → LX} {n : Nat} {r : LaneRegs}
    (hx : fx (laneX s u.toNat) = laneOut s u.toNat { (laneX s u.toNat).l with r := r, rpt := some n } none) :
    ∃ t, issued u mask val fx s = .next t ∧ laneFlow s t u.toNat ((s.lan u.toNat).r.pc + 1) (some n) none r := by
  obtain ⟨t, e, hf, -⟩ := issued_flow h hx rfl (pc_at h)
  exact ⟨t, e, hf⟩

/-- An instruction that goes on at p instead of the next address. -/
theorem issued_skip {fx : LX → LX} {p : Nat} (hp : p < progSize (joined s u.toNat))
    (hx : fx (laneX s u.toNat) = laneOut s u.toNat (laneX s u.toNat).l (some p)) :
    ∃ t, issued u mask val fx s = .next t ∧ laneFlow s t u.toNat p none none (s.lan u.toNat).r := by
  obtain ⟨t, e, hf, -⟩ := issued_flow h hx rfl hp
  exact ⟨t, e, hf⟩

end

/-- RPT with a count v from a register: at most m repetitions, with RCLAMP where v is above it (R230). -/
def repeated (v m : Nat) (x : LX) : LX :=
  let y := if m < v then x.setStat lsClamp true else x
  { y with l := { y.l with rpt := some (min v m) } }

theorem repeated_laneX (s : State) (u v m : Nat) : repeated v m (laneX s u) = laneOut s u { (laneX s u).l with
    r := { (s.lan u).r with stat := if m < v then stPut (s.lan u).r.stat lsClamp true else (s.lan u).r.stat }, rpt := some (min v m) } none := by
  unfold repeated
  by_cases hlt : m < v
  · rw [if_pos hlt, if_pos hlt]; rfl
  · rw [if_neg hlt, if_neg hlt]; rfl

section
variable {s : State} {u mask val : Nat} (h : laneAt s u mask val) {n e : Nat} (hs : (s.lan u).r.pc + 1 ≤ e) (he : e < progSize (joined s u))
include h hs he

/-- The first level opens on a body that ends at e, for n passes; with no pass to make the body is left out. -/
theorem openLoop_laneX : openLoop (laneX s u) n e =
    if n = 0 then laneOut s u (laneX s u).l (some (e + 1))
    else laneOut s u { (laneX s u).l with r := { (s.lan u).r with act0 := true }, lc0 := n, ls0 := (s.lan u).r.pc + 1, le0 := e } none := by
  obtain ⟨-, -, -, -, -, -, -, h0, h1, -⟩ := h
  refine (if_neg ?_).trans (if_congr Iff.rfl rfl (if_neg ?_))
  · show ¬ ((s.lan u).r.act1 && (s.lan u).r.act0 || decide (e < (s.lan u).r.pc + 1) || decide (progSize (joined s u) ≤ e)) = true
    rw [h1, decide_eq_false (Nat.not_lt.2 hs), decide_eq_false (Nat.not_le.2 he)]
    exact Bool.false_ne_true
  · show ¬ (s.lan u).r.act0 = true
    rw [h0]
    exact Bool.false_ne_true

end

section
variable {s : State} {u : UnitNo} {mask val : Nat} (h : laneAt s u.toNat mask val) {fx : LX → LX} {n e : Nat}
  (hx : fx (laneX s u.toNat) = openLoop (laneX s u.toNat) n e) (hs : (s.lan u.toNat).r.pc + 1 ≤ e)
include h hx hs

/-- LOOP with passes to make. -/
theorem issued_loop (hn : n ≠ 0) (he : e < progSize (joined s u.toNat)) : ∃ t, issued u mask val fx s = .next t ∧
    laneFlow s t u.toNat ((s.lan u.toNat).r.pc + 1) none none { (s.lan u.toNat).r with act0 := true } ∧
      (t.lan u.toNat).lc0 = n ∧ (t.lan u.toNat).ls0 = (s.lan u.toNat).r.pc + 1 ∧ (t.lan u.toNat).le0 = e := by
  obtain ⟨t, ht, hf, hl⟩ := issued_flow h (g := none) (hx.trans ((openLoop_laneX h hs he).trans (if_neg hn))) rfl (pc_at h)
  exact ⟨t, ht, hf, by rw [hl]; rfl, by rw [hl]; rfl, by rw [hl]; rfl⟩

/-- LOOP with no pass to make. -/
theorem issued_noLoop (hn : n = 0) (he : e + 1 < progSize (joined s u.toNat)) :
    ∃ t, issued u mask val fx s = .next t ∧ laneFlow s t u.toNat (e + 1) none none (s.lan u.toNat).r :=
  issued_skip h he (hx.trans ((openLoop_laneX h hs (Nat.lt_of_succ_lt he)).trans (if_pos hn)))

end

/-- Settles O28: each instruction by the delay slots, the repetition, the loop level or the skip it leaves. -/
theorem laneControlActs : Obligations.LaneControlActs := by
  unfold Obligations.LaneControlActs
  refine ⟨?brTaken, ?br, ?callTaken, ?call, ?retTaken, ?ret, ?rptImm, ?rptZero, ?rptReg, ?loopImm, ?loopImmZero, ?loopReg, ?loopRegZero, ?fin⟩
  case brTaken =>
    intro u c q s h hs hc
    obtain ⟨-, -, -, -, -, -, -, h0, h1, -⟩ := id h
    refine issued_jump h ?_
    simp only [cond_laneX hs, hc, if_true, wide_laneX]
    rw [closeLevels_idle (l := (laneX s u.toNat).l) h0 h1]
    rfl
  case br => exact fun u c q s h hs hc => issued_jump h (by simp only [cond_laneX hs, hc, Bool.false_eq_true, if_false]; rfl)
  case callTaken =>
    intro u c q s h hs hc hlen
    refine issued_jump h ?_
    simp only [cond_laneX hs, hc, Bool.not_true, Bool.false_eq_true, if_false]
    exact if_neg (Nat.not_le.2 hlen)
  case call => exact fun u c q s h hs hc => issued_jump h (by simp only [cond_laneX hs, hc, Bool.not_false, if_true]; rfl)
  case retTaken =>
    intro u c p l s h hs hc hstk
    refine issued_jump h ?_
    simp only [cond_laneX hs, hc, Bool.not_true, Bool.false_eq_true, if_false, vr_laneX, hstk]
    rfl
  case ret => exact fun u c s h hs hc => issued_jump h (by simp only [cond_laneX hs, hc, Bool.not_false, if_true]; rfl)
  case rptImm => exact fun u c s h => issued_repeat h rfl
  case rptZero =>
    intro u d s h hs h0 hp
    refine issued_skip h hp ?_
    simp only [cnt_laneX hs h, h0, if_true]
    rfl
  case rptReg =>
    rintro u d m s h hs h0 rfl
    refine issued_repeat h ?_
    simp only [cnt_laneX hs h]
    exact (if_neg h0).trans (repeated_laneX ..)
  case loopImm => exact fun u c e s h h0 hs he => issued_loop h rfl hs h0 he
  case loopImmZero => exact fun u c e s h h0 hs he => issued_noLoop h rfl hs h0 he
  case loopReg => exact fun u d e s h hset h0 hs he => issued_loop h (by simp only [cnt_laneX hset h]) hs h0 he
  case loopRegZero => exact fun u d e s h hset h0 hs he => issued_noLoop h (by simp only [cnt_laneX hset h]) hs h0 he
  case fin => exact fun u s h => issued_jump h rfl

end Sys2Proof.Laws

/-! PROOF. Lane special registers and ports (O29). -/

namespace Sys2Proof.Laws
open Sys2Proof Sys2Proof.Machine R
set_option Elab.async false

/-! ### Special registers (Table 5.8) -/

theorem specRead_laneX {s : State} {u : Nat} (hs : laneSettled s u) (k : Nat) : specRead (laneX s u) k = laneSpec s u k := by
  unfold specRead laneSpec
  rw [accRead_laneX hs]
  rfl

/-- MTS of a register below the loop counts. -/
theorem specWrite_laneX (s : State) (u : Nat) {k : Nat} (v : Nat) (hk : k < 22) : specWrite (laneX s u) k v =
    laneOut s u { (laneX s u).l with r := laneMts s u k v, mts := (specOld (laneX s u) k).map fun o => (k, o) } none := by
  unfold specWrite laneMts
  by_cases h4 : k < 4
  · simp only [if_pos h4]; rfl
  by_cases h8 : k < 8
  · simp only [if_neg h4, if_pos h8]; rfl
  by_cases h12 : k < 12
  · simp only [if_neg h4, if_neg h8, if_pos h12]; rfl
  by_cases h16 : k < 16
  · simp only [if_neg h4, if_neg h8, if_neg h12, if_pos h16]; rfl
  · simp only [if_neg h4, if_neg h8, if_neg h12, if_neg h16]
    obtain rfl | rfl | rfl | rfl | rfl | rfl : k = 16 ∨ k = 17 ∨ k = 18 ∨ k = 19 ∨ k = 20 ∨ k = 21 := by omega
    all_goals rfl

theorem specWrite_lc0 (s : State) (u v : Nat) : specWrite (laneX s u) 22 v =
    laneOut s u { (laneX s u).l with lc0 := max 1 (v % 2 ^ 16), mts := some (22, (s.lan u).lc0) } none := by rfl

theorem specWrite_lc1 (s : State) (u v : Nat) : specWrite (laneX s u) 23 v =
    laneOut s u { (laneX s u).l with lc1 := max 1 (v % 2 ^ 16), mts := some (23, (s.lan u).lc1) } none := by rfl

/-! ### Ports (Table 6.3) -/

/-- IN of port p into Dd. -/
def portInto (d p : Nat) (x : LX) : LX :=
  let (v, x) := portRead x p
  if x.wide then
    let (h, s) := takeFree x.s
    ({ x with s := s }).setD d (h.toNat % 2 ^ 16 * 2 ^ 16 + v)
  else x.setD d v

/-- OUT of Da to port p. -/
def portOutOf (p a : Nat) (x : LX) : LX :=
  if 48 ≤ p && p < 56 then { x with s := wrN x.s (LANE_MBOX x.u (p - 48)) (x.reg a % 2 ^ 16) } else x

/-- Port 0 samples the position of the bound axis. -/
theorem portRead_zero {s : State} {u n : Nat} (h : taskAxis s u ((s.lan u).cur.getD 0) = some n) :
    portRead (laneX s u) 0 = (part (ux 64 (s.fb n).pos) 0, laneOut s u { (laneX s u).l with lat0 := ux 64 (s.fb n).pos } none) := by
  unfold portRead
  simp only [show taskAxis (laneX s u).s (laneX s u).u (laneX s u).slot = some n from h]
  rfl

/-- A port without a side effect reads as the table states. -/
theorem portRead_laneX {s : State} {u p v : Nat} (h : lanePort s u p = some v) : portRead (laneX s u) p = (v, laneX s u) := by
  unfold lanePort at h
  unfold portRead
  split at h
  · next hp =>
    cases h
    simp only [show ¬ p < 8 by omega, hp.2, if_true, if_false]
    rfl
  split at h
  · next h8 hp =>
    cases h
    simp only [show ¬ p < 8 by omega, show ¬ p < 10 by omega, show ¬ p < 13 by omega, hp.1, hp.2, decide_true, Bool.and_self, if_true, if_false]
    rfl
  split at h
  · next hp =>
    cases h; subst hp; rfl
  split at h
  · next hp =>
    cases h
    simp only [show ¬ p < 8 by omega, show ¬ p < 10 by omega, show ¬ p < 13 by omega, show ¬ p < 32 by omega, show ¬ p = 32 by omega, hp, decide_false, Bool.and_false, Bool.false_eq_true, if_true, if_false]
    rfl
  · cases h

/-- IN of such a port: 16 bits to Dd, in a Lagoon pair with a free high half. -/
theorem portInto_laneX {s : State} {u d p v : Nat} (h : lanePort s u p = some v) : portInto d p (laneX s u) =
    if joined s u then ({ laneX s u with s := (takeFree s).2 } : LX).mod fun _ => laneSet s u d ((takeFree s).1.toNat % 2 ^ 16 * 2 ^ 16 + v)
    else (laneX s u).mod fun _ => laneSet s u d v := by
  unfold portInto
  rw [portRead_laneX h]
  rfl

theorem portInto_zero {s : State} {u d n : Nat} (hj : joined s u = false) (h : taskAxis s u ((s.lan u).cur.getD 0) = some n) :
    portInto d 0 (laneX s u) = laneOut s u
      { (laneX s u).l with r := laneSet s u d (part (ux 64 (s.fb n).pos) 0), lat0 := ux 64 (s.fb n).pos } none := by
  unfold portInto
  rw [portRead_zero h]
  exact if_neg (by rw [wide_laneOut, hj]; exact Bool.false_ne_true)

/-- OUT to a mailbox of the unit. -/
theorem portOutOf_mailbox {s : State} {u mask val p : Nat} (h : laneAt s u mask val) (hp : 48 ≤ p ∧ p < 56) (a : Nat) : portOutOf p a (laneX s u) =
    ({ laneX s u with s := wrN s (LANE_MBOX u (p - 48)) (laneD s u a % 2 ^ 16) } : LX).mod id := by
  unfold portOutOf
  rw [if_pos (by simpa using hp), reg_laneX h]
  rfl

theorem onlyParts_wrN (s : State) (a v : Nat) (ps : List Part) : onlyParts ps s (wrN s a v) := ⟨wr_pending .., fun p _ => by cases p <;> rfl⟩

/-- Settles O29: special registers by their one write, ports by what each reads or writes. -/
theorem lanePortsAct : Obligations.LanePortsAct := by
  unfold Obligations.LanePortsAct
  refine ⟨?mts, ?lc0, ?lc1, ?mfs, ?inPort, ?inJoined, ?inPos, ?mailbox, ?out⟩
  case mts =>
    intro u k a s h hk
    obtain ⟨t, e, hnext, -⟩ := issued_lane h (fx := fun x => specWrite x k.toNat (x.reg a.toNat)) (by simp only [reg_laneX h]; exact specWrite_laneX s _ _ hk)
    exact ⟨t, e, hnext⟩
  case lc0 =>
    intro u a s h
    obtain ⟨t, e, hnext, hl⟩ := issued_lane h (fx := fun x => specWrite x 22 (x.reg a.toNat)) (by simp only [reg_laneX h]; exact specWrite_lc0 ..)
    exact ⟨t, e, hnext, by rw [hl]; rfl⟩
  case lc1 =>
    intro u a s h
    obtain ⟨t, e, hnext, hl⟩ := issued_lane h (fx := fun x => specWrite x 23 (x.reg a.toNat)) (by simp only [reg_laneX h]; exact specWrite_lc1 ..)
    exact ⟨t, e, hnext, by rw [hl]; rfl⟩
  case mfs => exact fun u d k s h hs => issued_regs h (by simp only [specRead_laneX hs, setD_laneX])
  case inPort => exact fun u d p v s h hj hp => issued_regs (fx := portInto d.toNat p.toNat) h (by simp only [portInto_laneX hp, hj, Bool.false_eq_true, if_false])
  case inJoined =>
    intro u d p v s h hj hp
    obtain ⟨t, e, hr, -, hregs, ht⟩ := issued_state (fx := portInto d.toNat p.toNat) h ((portInto_laneX hp).trans (if_pos hj))
    exact ⟨t, e, ⟨_, Nat.mod_lt _ (by decide), hr⟩, hregs, (ht.trans (takeFree_touch s)).only _ (by decide)⟩
  case inPos =>
    intro u d n s h hj hax
    obtain ⟨t, e, hnext, hl⟩ := issued_lane (fx := portInto d.toNat 0) h (portInto_zero hj hax)
    exact ⟨t, e, hnext, by rw [hl]; rfl⟩
  case mailbox =>
    intro u p a s h h48 h56
    obtain ⟨t, e, hr, -, hregs, ht⟩ := issued_state (fx := portOutOf p.toNat a.toNat) h (portOutOf_mailbox h ⟨h48, h56⟩ _)
    refine ⟨t, e, hr, ?_, fun x hx => ?_, onlyParts_trans (ht.only _ (by decide)) (onlyParts_wrN ..)⟩
    · rw [rd_of_regs hregs]; exact rd_wr_same ..
    · rw [rd_of_regs hregs]; exact rd_wr_other _ _ hx
  case out => exact fun u p a s h hp => issued_regs h (if_neg (by simpa using hp))

end Sys2Proof.Laws

/-! PROOF. Lane posts (O30): a post refused, a post taken, and the receiver of each. -/

namespace Sys2Proof.Laws
open Sys2Proof Sys2Proof.Machine R
set_option Elab.async false

/-! ### Posts (R214) -/

section
variable {s : State} {u : UnitNo} {mask val : Nat} (h : laneAt s u.toNat mask val)
include h

/-- Word k of a post. -/
theorem postW_laneX (k : Nat) : (laneX s u.toNat).postW k =
    BitVec.ofNat 32 (laneD s u.toNat (2 * k) % 2 ^ 16 + laneD s u.toNat (2 * k + 1) % 2 ^ 16 * 2 ^ 16) := by
  unfold LX.postW
  rw [reg_laneX h, reg_laneX h]

/-- A post refused: PB, and nothing is handed over. -/
theorem issued_postBusy {fx : LX → LX} {f : State → State} (hb : postBusy s u.toNat = true) (hx : fx (laneX s u.toNat) = (laneX s u.toNat).post f) :
    ∃ t, issued u mask val fx s = .next t ∧ laneNext s t u.toNat { (s.lan u.toNat).r with stat := stPut (s.lan u.toNat).r.stat lsPb true } :=
  issued_regs h (hx.trans (if_pos hb))

/-- A post taken: PB cleared, and f acts on the state. -/
theorem issued_post {fx : LX → LX} {f : State → State} {r : State} (hb : postBusy s u.toNat = false)
    (hx : fx (laneX s u.toNat) = (laneX s u.toNat).post f) (hr : f s = r) :
    ∃ t, issued u mask val fx s = .next t ∧
      (t.lan u.toNat).r = { (s.lan u.toNat).r with stat := stPut (s.lan u.toNat).r.stat lsPb false, pc := (s.lan u.toNat).r.pc + 1 } ∧
      t.regs = r.regs ∧ Touch k_State_setLan r t := by
  have hpost : (laneX s u.toNat).post f = ({ laneX s u.toNat with s := r } : LX).mod fun x => { x with stat := stPut x.stat lsPb false } := by
    rw [← hr]
    exact if_neg (by rw [show postBusy (laneX s u.toNat).s (laneX s u.toNat).u = false from hb]; exact Bool.false_ne_true)
  obtain ⟨t, e, hreg, -, hregs, ht⟩ := issued_state h (hx.trans hpost)
  exact ⟨t, e, hreg, hregs, ht⟩

end

theorem produce_ok {p : Prod} {obj l : Nat} {e : DEnt} {s f : State} (h : insertEnt l e (opTime s).1 (opTime s).2 = (0, f)) :
    produce p obj l e s = f := by
  show (match insertEnt l e (opTime s).1 (opTime s).2 with | (4, s) => prodRefused p obj l e s | (1, s) => _ | (2, s) => lateOut p obj s | (_, s) => s) = _
  rw [h]
  rfl

/-- A task that may run waits for its unit. -/
theorem pending_releaseLane {t v k rel : Nat} {d0 d1 : Word} {s : State} (hf : findTask s t = some (v, k))
    (hfail : fbit s (LT_STAT v k) LT_STAT_FAILED = false) (hp : fbit s (LT_STAT v k) LT_STAT_PENDING = false) :
    fbit (releaseLane t d0 d1 rel s) (LT_STAT v k) LT_STAT_PENDING = true := by
  unfold releaseLane
  rw [hf]
  dsimp only
  rw [if_neg (by rw [hfail]; exact Bool.false_ne_true), if_neg (by rw [hp]; exact Bool.false_ne_true)]
  rw [fbit_of_rd (rd_of_regs (setReady_regs ..) _)]
  exact fbit_fput (by decide) true

/-- A shift request of a lane goes to the axis bound to its task (R177). -/
def boundShift (u k : Nat) (d : Int) (s : State) : State :=
  match taskAxis s u k with
  | some n => shiftRequest n d s
  | none => s

theorem boundShift_of {u k n : Nat} {s : State} (h : taskAxis s u k = some n) (d : Int) : boundShift u k d s = shiftRequest n d s := by
  unfold boundShift; rw [h]

/-- Settles O30: a post is refused as a whole, or its receiver acts on the state and the lane goes on. -/
theorem lanePostsAct : Obligations.LanePostsAct := by
  unfold Obligations.LanePostsAct
  refine ⟨?entryBusy, ?shiftBusy, ?releaseBusy, ?entry, ?shift, ?release⟩
  case entryBusy => exact fun u l s h hb => issued_postBusy h hb rfl
  case shiftBusy => exact fun u s h hb => issued_postBusy h hb rfl
  case releaseBusy => exact fun u s h hb => issued_postBusy h hb rfl
  case entry =>
    intro u l f s h hb hf
    obtain ⟨t, e, hr, -, ht⟩ : ∃ t, exec (.postEntry u l) s = .next t ∧ _ := issued_post h hb (by simp only [postW_laneX h]; rfl) (produce_ok hf)
    have htouch := execPostEntry_touch u l s t e
    exact ⟨t, e, hr, ht.same .schDl rfl, htouch.blocks _ (by decide), htouch.only _ (by decide +kernel)⟩
  case shift =>
    intro u n s h hb hax hc
    obtain ⟨t, e, hr, -, ht⟩ : ∃ t, exec (.postShift u) s = .next t ∧ _ :=
      issued_post h hb (by simp only [postW_laneX h]; rfl) (boundShift_of hax _)
    have htouch := execPostShift_touch u s t e
    refine ⟨t, e, hr, ?_, htouch.blocks _ (by decide), htouch.only _ (by decide +kernel)⟩
    rw [gen_of (ht.same .motGen rfl), (shiftRequest_coupled hc).2]
  case release =>
    intro u v k s h hb hf hfail hp
    obtain ⟨t, e, hr, hregs, -⟩ : ∃ t, exec (.postRelease u) s = .next t ∧ _ := issued_post h hb (by simp only [postW_laneX h]; rfl) rfl
    have htouch := execPostRelease_touch u s t e
    refine ⟨t, e, hr, ?_, htouch.blocks _ (by decide), htouch.only _ (by decide +kernel)⟩
    rw [fbit_of_rd (rd_of_regs hregs _)]
    exact pending_releaseLane hf hfail hp

end Sys2Proof.Laws

/-! PROOF. The pins of the bridge channels (O6): every command stays within a footprint, and a step keeps what every footprint keeps. -/

namespace Sys2Proof.Laws
open Sys2Proof Sys2Proof.Machine R
set_option Elab.async false

/-- Every command stays within a footprint: that of its own operation. -/
theorem exec_touch (c : Instr) (s : State) : ∃ m, TouchX m s (exec c s) :=
  match c with
  | .registerWrite .. => ⟨_, execRegisterWrite_touch _ _ _ _⟩
  | .readClear .. => ⟨_, execReadClear_touch _ _ _⟩
  | .latchedRead .. => ⟨_, execLatchedRead_touch _ _ _⟩
  | .stagedWrite .. => ⟨_, execStagedWrite_touch _ _ _ _⟩
  | .dataLinkKeepAlive .. => ⟨_, execDataLinkKeepAlive_touch _ _ _⟩
  | .dataLinkTransfer .. => ⟨_, execDataLinkTransfer_touch _ _ _⟩
  | .dataLinkLostS => ⟨_, execDataLinkLostS_touch _⟩
  | .dataLinkLostC => ⟨_, execDataLinkLostC_touch _⟩
  | .stewardWatchdog .. => ⟨_, execStewardWatchdog_touch _ _⟩
  | .regionCtrlWrite .. => ⟨_, execRegionCtrlWrite_touch _ _ _ _⟩
  | .clockSwitch .. => ⟨_, execClockSwitch_touch _ _⟩
  | .reservationApply .. => ⟨_, execReservationApply_touch _ _ _⟩
  | .thermalMeasure .. => ⟨_, execThermalMeasure_touch _ _ _ _ _⟩
  | .quarWindowEnd => ⟨_, execQuarWindowEnd_touch _⟩
  | .quarantine .. => ⟨_, execQuarantine_touch _ _ _⟩
  | .migrateContext => ⟨_, execMigrateContext_touch _⟩
  | .reload .. => ⟨_, execReload_touch _ _ _⟩
  | .reloadTestDone .. => ⟨_, execReloadTestDone_touch _ _ _⟩
  | .schedulerTick => ⟨_, execSchedulerTick_touch _⟩
  | .sourceDistrusted .. => ⟨_, execSourceDistrusted_touch _ _⟩
  | .netSourceLost .. => ⟨_, execNetSourceLost_touch _ _⟩
  | .angleHold => ⟨_, execAngleHold_touch _⟩
  | .resume .. => ⟨_, execResume_touch _ _⟩
  | .retrust .. => ⟨_, execRetrust_touch _ _ _⟩
  | .autoRetrust .. => ⟨_, execAutoRetrust_touch _ _⟩
  | .sourceRestart => ⟨_, execSourceRestart_touch _⟩
  | .dlInsert .. => ⟨_, execDlInsert_touch _ _ _⟩
  | .dlCancel .. => ⟨_, execDlCancel_touch _ _ _⟩
  | .dlOpDone .. => ⟨_, execDlOpDone_touch _ _ _⟩
  | .bpStall .. => ⟨_, execBpStall_touch _ _⟩
  | .overrun .. => ⟨_, execOverrun_touch _ _⟩
  | .dispatch .. => ⟨_, execDispatch_touch _ _ _⟩
  | .laneYield .. => ⟨_, execLaneYield_touch _ _ _⟩
  | .statsPublish => ⟨_, execStatsPublish_touch _⟩
  | .lawTaskComplete .. => ⟨_, execLawTaskComplete_touch _ _ _⟩
  | .satur .. => ⟨_, execSatur_touch _ _⟩
  | .holdTimeout .. => ⟨_, execHoldTimeout_touch _ _⟩
  | .lawTileRebuild .. => ⟨_, execLawTileRebuild_touch _ _⟩
  | .modeWrite .. => ⟨_, execModeWrite_touch _ _ _ _⟩
  | .snap .. => ⟨_, execSnap_touch _ _ _⟩
  | .snapCopy => ⟨_, execSnapCopy_touch _⟩
  | .sr .. => ⟨_, execSr_touch _ _ _⟩
  | .rst .. => ⟨_, execRst_touch _ _ _⟩
  | .fclr .. => ⟨_, execFclr_touch _ _ _⟩
  | .springRampHandover .. => ⟨_, execSpringRampHandover_touch _ _⟩
  | .lawTubCommit .. => ⟨_, execLawTubCommit_touch _ _ _ _⟩
  | .lawTileInstall => ⟨_, execLawTileInstall_touch _⟩
  | .setpointCompute => ⟨_, execSetpointCompute_touch _⟩
  | .moveInsertAbs .. => ⟨_, execMoveInsertAbs_touch _ _ _⟩
  | .moveInsertRel .. => ⟨_, execMoveInsertRel_touch _ _ _⟩
  | .flush .. => ⟨_, execFlush_touch _ _ _⟩
  | .stop .. => ⟨_, execStop_touch _ _ _ _⟩
  | .qstop .. => ⟨_, execQstop_touch _ _ _⟩
  | .gear .. => ⟨_, execGear_touch _ _ _⟩
  | .cam .. => ⟨_, execCam_touch _ _ _ _⟩
  | .home .. => ⟨_, execHome_touch _ _ _⟩
  | .setpos .. => ⟨_, execSetpos_touch _ _ _⟩
  | .shclr .. => ⟨_, execShclr_touch _ _ _⟩
  | .limitChange .. => ⟨_, execLimitChange_touch _ _⟩
  | .gearRatioWrite .. => ⟨_, execGearRatioWrite_touch _ _ _ _⟩
  | .virtualLimitWrite .. => ⟨_, execVirtualLimitWrite_touch _ _ _ _⟩
  | .switchEdgeRaw .. => ⟨_, execSwitchEdgeRaw_touch _ _⟩
  | .switchDebounced .. => ⟨_, execSwitchDebounced_touch _ _ _ _ _ _⟩
  | .indexPulse .. => ⟨_, execIndexPulse_touch _ _⟩
  | .camTileVerify .. => ⟨_, execCamTileVerify_touch _ _ _⟩
  | .camTileRebuild .. => ⟨_, execCamTileRebuild_touch _ _⟩
  | .shiftRequest .. => ⟨_, execShiftRequest_touch _ _ _ _⟩
  | .coRequest .. => ⟨_, execCoRequest_touch _ _ _ _⟩
  | .coCancel .. => ⟨_, execCoCancel_touch _ _ _⟩
  | .coStaged .. => ⟨_, execCoStaged_touch _ _⟩
  | .nop .. => ⟨_, execNop_touch _ _⟩
  | .ldi .. => ⟨_, execLdi_touch _ _ _ _⟩
  | .ldih .. => ⟨_, execLdih_touch _ _ _ _⟩
  | .mov .. => ⟨_, execMov_touch _ _ _ _⟩
  | .ld .. => ⟨_, execLd_touch _ _ _ _ _ _⟩
  | .st .. => ⟨_, execSt_touch _ _ _ _ _ _⟩
  | .mts .. => ⟨_, execMts_touch _ _ _ _⟩
  | .mfs .. => ⟨_, execMfs_touch _ _ _ _⟩
  | .add .. => ⟨_, execAdd_touch _ _ _ _ _⟩
  | .sub .. => ⟨_, execSub_touch _ _ _ _ _⟩
  | .addi .. => ⟨_, execAddi_touch _ _ _ _ _⟩
  | .land .. => ⟨_, execLand_touch _ _ _ _ _⟩
  | .lor .. => ⟨_, execLor_touch _ _ _ _ _⟩
  | .lxor .. => ⟨_, execLxor_touch _ _ _ _ _⟩
  | .andi .. => ⟨_, execAndi_touch _ _ _ _ _⟩
  | .ori .. => ⟨_, execOri_touch _ _ _ _ _⟩
  | .xori .. => ⟨_, execXori_touch _ _ _ _ _⟩
  | .shl .. => ⟨_, execShl_touch _ _ _ _ _⟩
  | .shr .. => ⟨_, execShr_touch _ _ _ _ _⟩
  | .sra .. => ⟨_, execSra_touch _ _ _ _ _⟩
  | .cmp .. => ⟨_, execCmp_touch _ _ _ _⟩
  | .neg .. => ⟨_, execNeg_touch _ _ _ _⟩
  | .abs .. => ⟨_, execAbs_touch _ _ _ _⟩
  | .lnot .. => ⟨_, execLnot_touch _ _ _ _⟩
  | .min .. => ⟨_, execMin_touch _ _ _ _ _⟩
  | .max .. => ⟨_, execMax_touch _ _ _ _ _⟩
  | .nrm .. => ⟨_, execNrm_touch _ _ _⟩
  | .qstep .. => ⟨_, execQstep_touch _ _ _ _⟩
  | .mac .. => ⟨_, execMac_touch _ _ _ _ _ _ _ _⟩
  | .msu .. => ⟨_, execMsu_touch _ _ _ _ _ _ _ _⟩
  | .mpy .. => ⟨_, execMpy_touch _ _ _ _ _ _ _ _⟩
  | .fetch .. => ⟨_, execFetch_touch _ _ _⟩
  | .acs .. => ⟨_, execAcs_touch _ _ _ _ _ _ _ _ _ _ _ _⟩
  | .clra .. => ⟨_, execClra_touch _ _⟩
  | .adda .. => ⟨_, execAdda_touch _ _ _⟩
  | .suba .. => ⟨_, execSuba_touch _ _ _⟩
  | .nega .. => ⟨_, execNega_touch _ _⟩
  | .absa .. => ⟨_, execAbsa_touch _ _⟩
  | .shla .. => ⟨_, execShla_touch _ _ _⟩
  | .shra .. => ⟨_, execShra_touch _ _ _⟩
  | .mvaH .. => ⟨_, execMvaH_touch _ _ _⟩
  | .mvaT .. => ⟨_, execMvaT_touch _ _ _⟩
  | .mvaL .. => ⟨_, execMvaL_touch _ _ _⟩
  | .br .. => ⟨_, execBr_touch _ _ _ _⟩
  | .call .. => ⟨_, execCall_touch _ _ _ _⟩
  | .ret .. => ⟨_, execRet_touch _ _ _⟩
  | .rpt .. => ⟨_, execRpt_touch _ _ _⟩
  | .loop .. => ⟨_, execLoop_touch _ _ _ _⟩
  | .portIn .. => ⟨_, execPortIn_touch _ _ _ _⟩
  | .portOut .. => ⟨_, execPortOut_touch _ _ _ _⟩
  | .postEntry .. => ⟨_, execPostEntry_touch _ _ _⟩
  | .postShift .. => ⟨_, execPostShift_touch _ _⟩
  | .postRelease .. => ⟨_, execPostRelease_touch _ _⟩
  | .laneEnd .. => ⟨_, execLaneEnd_touch _ _⟩
  | .lagoonRequest .. => ⟨_, execLagoonRequest_touch _ _ _ _⟩
  | .lagoonApply .. => ⟨_, execLagoonApply_touch _ _⟩
  | .rearm .. => ⟨_, execRearm_touch _ _ _ _⟩
  | .holdoffMaxApply .. => ⟨_, execHoldoffMaxApply_touch _ _⟩
  | .laneCapture .. => ⟨_, execLaneCapture_touch _ _ _ _ _⟩
  | .bridgeReload .. => ⟨_, execBridgeReload_touch _ _⟩
  | .bridgeEdge .. => ⟨_, execBridgeEdge_touch _ _ _⟩
  | .deadTimeEnd .. => ⟨_, execDeadTimeEnd_touch _ _⟩
  | .syncPoint .. => ⟨_, execSyncPoint_touch _ _ _⟩
  | .commit .. => ⟨_, execCommit_touch _ _ _⟩
  | .shadowWriteLand => ⟨_, execShadowWriteLand_touch _⟩
  | .edgeProgrammeLand .. => ⟨_, execEdgeProgrammeLand_touch _ _⟩
  | .debugHalt => ⟨_, execDebugHalt_touch _⟩
  | .debugResume => ⟨_, execDebugResume_touch _⟩
  | .sinc3Output .. => ⟨_, execSinc3Output_touch _ _ _⟩
  | .sdFlt .. => ⟨_, execSdFlt_touch _ _⟩
  | .localSample .. => ⟨_, execLocalSample_touch _ _ _ _ _ _⟩
  | .encEdge .. => ⟨_, execEncEdge_touch _ _ _ _⟩
  | .ssiFrameEnd .. => ⟨_, execSsiFrameEnd_touch _ _ _ _ _⟩
  | .encFltClear .. => ⟨_, execEncFltClear_touch _ _ _⟩
  | .stillWaterStart .. => ⟨_, execStillWaterStart_touch _ _⟩
  | .toApply .. => ⟨_, execToApply_touch _ _ _⟩
  | .toEdge .. => ⟨_, execToEdge_touch _ _⟩
  | .stepPulse .. => ⟨_, execStepPulse_touch _ _⟩
  | .linkStart .. => ⟨_, execLinkStart_touch _ _⟩
  | .linkSync .. => ⟨_, execLinkSync_touch _ _⟩
  | .linkSyncTimeout .. => ⟨_, execLinkSyncTimeout_touch _ _⟩
  | .linkFrameTx .. => ⟨_, execLinkFrameTx_touch _ _⟩
  | .linkRx _ _ _ etype _ _ => ⟨_, execLinkRx_touch _ _ _ etype _ _ _⟩
  | .linkAdvTimeout .. => ⟨_, execLinkAdvTimeout_touch _ _⟩
  | .linkRateSwitch .. => ⟨_, execLinkRateSwitch_touch _ _⟩
  | .linkFallback .. => ⟨_, execLinkFallback_touch _ _⟩
  | .linkLost .. => ⟨_, execLinkLost_touch _ _⟩
  | .retry .. => ⟨_, execRetry_touch _ _ _⟩
  | .mirRetry => ⟨_, execMirRetry_touch _⟩
  | .frameRxInvalid .. => ⟨_, execFrameRxInvalid_touch _ _ _⟩
  | .refRx .. => ⟨_, execRefRx_touch _ _⟩
  | .feedbackRx .. => ⟨_, execFeedbackRx_touch _ _⟩
  | .trainRx .. => ⟨_, execTrainRx_touch _ _⟩
  | .directRx .. => ⟨_, execDirectRx_touch _ _⟩
  | .svcRx .. => ⟨_, execSvcRx_touch _ _⟩
  | .enumRx .. => ⟨_, execEnumRx_touch _ _⟩
  | .delayRx .. => ⟨_, execDelayRx_touch _ _ _ _ _ _ _ _ _⟩
  | .delayRequest .. => ⟨_, execDelayRequest_touch _ _ _⟩
  | .delayTimeout .. => ⟨_, execDelayTimeout_touch _ _⟩
  | .feedbackWindowEnd .. => ⟨_, execFeedbackWindowEnd_touch _ _ _⟩
  | .fbmiss .. => ⟨_, execFbmiss_touch _ _⟩
  | .refTx .. => ⟨_, execRefTx_touch _ _ _⟩
  | .trainTx .. => ⟨_, execTrainTx_touch _ _ _⟩
  | .directTx .. => ⟨_, execDirectTx_touch _ _ _⟩
  | .arbWindow .. => ⟨_, execArbWindow_touch _ _ _⟩
  | .pollTimeout .. => ⟨_, execPollTimeout_touch _ _ _⟩
  | .segmentStart .. => ⟨_, execSegmentStart_touch _ _ _⟩
  | .linksTimeout .. => ⟨_, execLinksTimeout_touch _ _⟩
  | .delayStateEnd .. => ⟨_, execDelayStateEnd_touch _ _⟩
  | .listenEnd => ⟨_, execListenEnd_touch _⟩
  | .discoverRound .. => ⟨_, execDiscoverRound_touch _ _⟩
  | .syncEnd .. => ⟨_, execSyncEnd_touch _ _⟩
  | .syncNodeTimeout .. => ⟨_, execSyncNodeTimeout_touch _ _⟩
  | .nodeLost .. => ⟨_, execNodeLost_touch _ _⟩
  | .rediscover => ⟨_, execRediscover_touch _⟩
  | .redisc .. => ⟨_, execRedisc_touch _ _⟩
  | .nodeAdopted .. => ⟨_, execNodeAdopted_touch _ _⟩
  | .switch .. => ⟨_, execSwitch_touch _ _⟩
  | .schedSwitchApply => ⟨_, execSchedSwitchApply_touch _⟩
  | .timeWrap => ⟨_, execTimeWrap_touch _⟩
  | .eraUpdate => ⟨_, execEraUpdate_touch _⟩
  | .refWindowMiss => ⟨_, execRefWindowMiss_touch _⟩
  | .refBackupStart => ⟨_, execRefBackupStart_touch _⟩
  | .ptpMessageRx .. => ⟨_, execPtpMessageRx_touch _ _ _ _⟩
  | .ptpSyncTx .. => ⟨_, execPtpSyncTx_touch _ _⟩
  | .leadToggle => ⟨_, execLeadToggle_touch _⟩
  | .leadStop .. => ⟨_, execLeadStop_touch _ _⟩
  | .leadInEdge => ⟨_, execLeadInEdge_touch _⟩
  | .partnerQuiet .. => ⟨_, execPartnerQuiet_touch _ _⟩
  | .leadWaitEnd => ⟨_, execLeadWaitEnd_touch _⟩
  | .takeover => ⟨_, execTakeover_touch _⟩
  | .mirrorTransfer => ⟨_, execMirrorTransfer_touch _⟩
  | .mirrorKeepTx => ⟨_, execMirrorKeepTx_touch _⟩
  | .mirrorAckTx => ⟨_, execMirrorAckTx_touch _⟩
  | .mirrorDigestRx .. => ⟨_, execMirrorDigestRx_touch _ _ _⟩
  | .mirrorTileRx .. => ⟨_, execMirrorTileRx_touch _ _ _ _ _ _ _⟩
  | .mirrorRecordRx .. => ⟨_, execMirrorRecordRx_touch _ _ _⟩
  | .mirrorCommitRx .. => ⟨_, execMirrorCommitRx_touch _ _ _ _ _ _ _⟩
  | .mirrorKeepRx .. => ⟨_, execMirrorKeepRx_touch _ _⟩
  | .mirrorAckRx .. => ⟨_, execMirrorAckRx_touch _ _ _ _ _ _ _⟩
  | .recordApply => ⟨_, execRecordApply_touch _⟩
  | .compareTimeout .. => ⟨_, execCompareTimeout_touch _ _⟩
  | .mirrorLinkDown => ⟨_, execMirrorLinkDown_touch _⟩
  | .switchover .. => ⟨_, execSwitchover_touch _ _⟩
  | .switchoverRelease => ⟨_, execSwitchoverRelease_touch _⟩
  | .resync .. => ⟨_, execResync_touch _ _⟩
  | .clrFault .. => ⟨_, execClrFault_touch _ _⟩
  | .resyncComplete => ⟨_, execResyncComplete_touch _⟩
  | .provingComplete => ⟨_, execProvingComplete_touch _⟩
  | .safetyInputEdge .. => ⟨_, execSafetyInputEdge_touch _ _ _ _ _⟩
  | .discTimeout .. => ⟨_, execDiscTimeout_touch _ _ _⟩
  | .ackPulse .. => ⟨_, execAckPulse_touch _ _ _⟩
  | .ackStuck .. => ⟨_, execAckStuck_touch _ _⟩
  | .ackWithdraw .. => ⟨_, execAckWithdraw_touch _ _ _⟩
  | .edmChange .. => ⟨_, execEdmChange_touch _ _ _⟩
  | .edmTimeout .. => ⟨_, execEdmTimeout_touch _ _ _⟩
  | .crossFrameTx .. => ⟨_, execCrossFrameTx_touch _ _⟩
  | .crossFrameRx .. => ⟨_, execCrossFrameRx_touch _ _ _⟩
  | .crossLinkLost .. => ⟨_, execCrossLinkLost_touch _ _⟩
  | .xcomp .. => ⟨_, execXcomp_touch _ _⟩
  | .darkPulseStart .. => ⟨_, execDarkPulseStart_touch _ _ _⟩
  | .darkPulseEnd .. => ⟨_, execDarkPulseEnd_touch _ _ _⟩
  | .darkPulseReadback .. => ⟨_, execDarkPulseReadback_touch _ _ _ _ _⟩
  | .outtestTimeout .. => ⟨_, execOuttestTimeout_touch _ _ _⟩
  | .standstill .. => ⟨_, execStandstill_touch _ _⟩
  | .ss1Timeout .. => ⟨_, execSs1Timeout_touch _ _ _⟩
  | .zoneFaultCleared .. => ⟨_, execZoneFaultCleared_touch _ _⟩
  | .deviceFault .. => ⟨_, execDeviceFault_touch _ _ _⟩
  | .safeCommit .. => ⟨_, execSafeCommit_touch _ _⟩
  | .safeConfirm .. => ⟨_, execSafeConfirm_touch _ _⟩
  | .safeDiscard .. => ⟨_, execSafeDiscard_touch _ _⟩
  | .safeClose .. => ⟨_, execSafeClose_touch _ _⟩
  | .safetyWriteDone .. => ⟨_, execSafetyWriteDone_touch _ _⟩
  | .sessionTimeout => ⟨_, execSessionTimeout_touch _⟩
  | .lockoutEnd => ⟨_, execLockoutEnd_touch _⟩
  | .por .. => ⟨_, execPor_touch _ _ _⟩
  | .vcoreFault .. => ⟨_, execVcoreFault_touch _ _ _⟩
  | .rstN .. => ⟨_, execRstN_touch _ _⟩
  | .startUp .. => ⟨_, execStartUp_touch _ _ _ _⟩
  | .nodeWaitExpiry => ⟨_, execNodeWaitExpiry_touch _⟩
  | .bootTimeout => ⟨_, execBootTimeout_touch _⟩
  | .bootRetry .. => ⟨_, execBootRetry_touch _ _⟩
  | .save .. => ⟨_, execSave_touch _ _⟩
  | .abort .. => ⟨_, execAbort_touch _ _⟩
  | .erase .. => ⟨_, execErase_touch _ _⟩
  | .imgJobDone .. => ⟨_, execImgJobDone_touch _ _ _⟩
  | .tornSlotErase => ⟨_, execTornSlotErase_touch _⟩
  | .logPersist => ⟨_, execLogPersist_touch _⟩
  | .load .. => ⟨_, execLoad_touch _ _ _ _⟩
  | .clear .. => ⟨_, execClear_touch _ _ _⟩
  | .recipeLoadDone => ⟨_, execRecipeLoadDone_touch _⟩
  | .thermalShutdown => ⟨_, execThermalShutdown_touch _⟩
  | .thermalRecover .. => ⟨_, execThermalRecover_touch _ _ _⟩
  | .spiStatus => ⟨_, execSpiStatus_touch _⟩
  | .spiPut .. => ⟨_, execSpiPut_touch _ _ _⟩
  | .spiGet .. => ⟨_, execSpiGet_touch _ _⟩
  | .spiReset .. => ⟨_, execSpiReset_touch _ _ _ _⟩
  | .hrstN .. => ⟨_, execHrstN_touch _ _⟩
  | .portResetFrame .. => ⟨_, execPortResetFrame_touch _ _⟩
  | .hello .. => ⟨_, execHello_touch _ _ _ _⟩
  | .hspOpen .. => ⟨_, execHspOpen_touch _ _ _ _⟩
  | .close .. => ⟨_, execClose_touch _ _⟩
  | .read .. => ⟨_, execRead_touch _ _ _ _⟩
  | .write .. => ⟨_, execWrite_touch _ _ _ _ _⟩
  | .logRead .. => ⟨_, execLogRead_touch _ _ _ _⟩
  | .imgBegin .. => ⟨_, execImgBegin_touch _ _ _⟩
  | .imgData .. => ⟨_, execImgData_touch _ _ _ _⟩
  | .imgEnd .. => ⟨_, execImgEnd_touch _ _⟩
  | .imgDataTimeout => ⟨_, execImgDataTimeout_touch _⟩
  | .subscribe .. => ⟨_, execSubscribe_touch _ _ _ _⟩
  | .arpRequest .. => ⟨_, execArpRequest_touch _ _ _ _⟩
  | .icmpEcho .. => ⟨_, execIcmpEcho_touch _ _⟩
  | .blkLockWrite .. => ⟨_, execBlkLockWrite_touch _ _ _⟩
  | .faultInject .. => ⟨_, execFaultInject_touch _ _ _⟩
  | .jtagUnlock => ⟨_, execJtagUnlock_touch _⟩
  | .ftmWaitTimeout => ⟨_, execFtmWaitTimeout_touch _⟩
  | .ackRisingEdge .. => ⟨_, execAckRisingEdge_touch _ _⟩
  | .readbackLowWhileOn .. => ⟨_, execReadbackLowWhileOn_touch _ _ _⟩
  | .sdFltEnd .. => ⟨_, execSdFltEnd_touch _ _⟩
  | .rgmiiInBandStatus .. => ⟨_, execRgmiiInBandStatus_touch _ _ _ _⟩
  | .ptpDelayRequest .. => ⟨_, execPtpDelayRequest_touch _ _⟩

/-- A step leaves the state as it is, or runs the front command with the rest of the queue. -/
theorem step_cases {s t : State} (h : step s = .next t) :
    t = s ∨ ∃ c rest, s.pending = c :: rest ∧ exec c { s with pending := rest } = .next t := by
  unfold step at h
  split at h
  · exact .inl (Host.Outcome.next.inj h).symm
  · next c rest hp => exact .inr ⟨c, rest, hp, h⟩

/-- No command turns both switches of a channel on (R252, R253). -/
theorem exec_keeps_pinsSafe {c : Instr} {s t : State} (h : pinsSafe s) (he : exec c s = .next t) : pinsSafe t := by
  obtain ⟨_, ht⟩ := exec_touch c s
  exact (ht t he).pins h

/-- Settles O6: the queue is no part of the pins, and every command stays within a footprint, which keeps the pins safe. -/
theorem stepKeepsThePinsSafe : Obligations.StepKeepsThePinsSafe := by
  unfold Obligations.StepKeepsThePinsSafe
  intro s t hs h
  rcases step_cases h with rfl | ⟨c, rest, _, he⟩
  · exact hs
  · exact exec_keeps_pinsSafe (s := { s with pending := rest }) hs he

end Sys2Proof.Laws

/-! PROOF. Timed outputs and set-points (O8, O33): edges of one clock, step pulses, a new table, debug halt and its end, and the set-points of a cycle. -/

namespace Sys2Proof.Laws
open Sys2Proof Sys2Proof.Machine R
set_option Elab.async false

theorem toStatus_lo (k : Nat) : TO_STATUS k < 0x701000 := by unfold TO_STATUS; omega
theorem toStatus_not_log (k : Nat) : ¬ logAddr (TO_STATUS k) = true := not_log (by unfold TO_STATUS; omega)

/-! ### Placed edges and steps (R280, R282, R284) -/

/-- With no entry placed there is none to run. -/
theorem runPlaced_of_none {s : State} (h : s.sch.placed = []) : runPlaced s = s := by
  unfold runPlaced
  rw [h, List.foldl_nil, ← h]

/-- A force rests on the registers, the data link and a debug halt, not on the edges of an output. -/
theorem toForced_setTout (s : State) (j k : Nat) (x : TOut) : toForced (s.setTout j x) k = toForced s k := rfl

section
variable {k : BitVec 5} {tm : Nat} {b : Bool} {l : List (Nat × Bool)} {s : State} (hp : s.sch.placed = []) (hf : s.edge.frozen = false)
include hp hf

/-- TO_EDGE takes the placed edges of the earliest 4 ns clock: ON only when all of them are ON edges and no force stands. -/
theorem exec_toEdge_of_placed (h : (s.tout k.toNat).placed = (tm, b) :: l) : exec (.toEdge k) s =
    .next (fput (s.setTout k.toNat { s.tout k.toNat with placed := ((tm, b) :: l).filter fun p => p.1 / 4 != tm / 4 }) (TO_STATUS k.toNat) TO_STATUS_LVL
      ((((tm, b) :: l).filter fun p => p.1 / 4 == tm / 4).all (·.2) && !toForced s k.toNat)) := by
  show execToEdge k s = _
  unfold execToEdge
  dsimp only
  rw [runPlaced_of_none hp, h]
  dsimp only
  rw [hf, if_neg Bool.false_ne_true, toForced_setTout]

/-- The level TO_EDGE leaves, and the edges of later clocks. -/
theorem toEdge_gives (h : (s.tout k.toNat).placed = (tm, b) :: l) :
    ∃ t, exec (.toEdge k) s = .next t ∧
      fbit t (TO_STATUS k.toNat) TO_STATUS_LVL = ((((tm, b) :: l).filter fun p => p.1 / 4 == tm / 4).all (·.2) && !toForced s k.toNat) ∧
      (t.tout k.toNat).placed = ((tm, b) :: l).filter fun p => p.1 / 4 != tm / 4 := by
  refine ⟨_, exec_toEdge_of_placed hp hf h, fbit_fput (by decide) _, ?_⟩
  rw [fput, fset, tout_wr, tout_setTout_same]

/-- STEP_PULSE of an output that no force holds: the next placed step begins. -/
theorem exec_stepPulse_of_steps (h : (s.tout k.toNat).steps = (tm, b) :: l) (hn : toForced s k.toNat = false) : exec (.stepPulse k) s =
    .next (s.setTout k.toNat { s.tout k.toNat with steps := l, pulse := (tm, stepWidth s k.toNat), pulses := (s.tout k.toNat).pulses + 1 }) := by
  show execStepPulse k s = _
  unfold execStepPulse
  dsimp only
  rw [runPlaced_of_none hp, h]
  dsimp only
  rw [hf, if_neg Bool.false_ne_true, hn, if_neg Bool.false_ne_true]

end

/-- An OFF edge among those of the clock keeps them from being all ON. -/
theorem clock_not_all_on {l : List (Nat × Bool)} {tm : Nat} (h : ∃ e ∈ l, e.1 / 4 = tm / 4 ∧ e.2 = false) :
    (l.filter fun p => p.1 / 4 == tm / 4).all (·.2) = false := by
  obtain ⟨e, he, ht, hoff⟩ := h
  exact List.all_eq_false.2 ⟨e, List.mem_filter.2 ⟨he, beq_iff_eq.2 ht⟩, by rw [hoff]; exact Bool.false_ne_true⟩

/-- Settles O8: the level is the conjunction of the clock's edges and the absence of a force. -/
theorem edgesOfOneClockLeaveTheOutputOff : Obligations.EdgesOfOneClockLeaveTheOutputOff := by
  unfold Obligations.EdgesOfOneClockLeaveTheOutputOff
  refine ⟨?both, ?forced⟩
  case both =>
    intro k tm b l s hp h hf hoff _
    obtain ⟨t, hx, hl, -⟩ := toEdge_gives hp hf h
    exact ⟨t, hx, by rw [hl, clock_not_all_on hoff, Bool.false_and]⟩
  case forced =>
    intro k tm l s hp h hf hforce
    obtain ⟨t, hx, hl, -⟩ := toEdge_gives hp hf h
    exact ⟨t, hx, by rw [hl, hforce, Bool.not_true, Bool.and_false]⟩

/-! ### A new table of an output (R279, R283) -/

/-- A table waits as the next one of an output, from the machine cycle after the present one. -/
def awaitTable (k : Nat) (s : State) : State :=
  fput (s.setTout k { s.tout k with next := some ((voted s / 2 ^ 32 + 1) % 2 ^ 32, shadowPairs s k) }) (TO_STATUS k) TO_STATUS_APPLY_PEND true

theorem toCmdEff_overlapping {k : Nat} {s : State} (h : overlapping (shadowPairs s k) = true) :
    toCmdEff k 1 s = some (w1cSet (TO_STATUS k) TO_STATUS_REFUSED k s) := by
  unfold toCmdEff
  rw [if_neg (by decide)]
  exact if_pos h

theorem toMode_awaitTable (k : Nat) (s : State) : toMode (awaitTable k s) k = toMode s k := by
  have hcfg (j : Nat) : fget (awaitTable k s) (TO_CFG j) TO_CFG_MODE = fget s (TO_CFG j) TO_CFG_MODE :=
    (fget_fset_other (by unfold TO_CFG TO_STATUS; omega) _).trans (fget_of_rd (rd_setTout ..))
  unfold toMode
  simp only [hcfg]

/-- Outside angle mode an output has no edges to insert again. -/
theorem toCmdEff_of_no_angle {k : Nat} {s : State} (h : overlapping (shadowPairs s k) = false) (hm : toMode s k ≠ 1) :
    toCmdEff k 1 s = some (awaitTable k s) := by
  unfold toCmdEff
  rw [if_neg (by decide)]
  dsimp only
  rw [h, if_neg Bool.false_ne_true]
  exact if_pos (by rw [← awaitTable, toMode_awaitTable]; exact hm)

theorem exec_toApply (w : Who) (k : BitVec 5) (s : State) : exec (.toApply w k) s = .next (gated w (TO_CMD k.toNat) 1 (toCmdEff k.toNat 1) s) := rfl

/-- The frame of a write of TO_CMD. -/
theorem toApply_frame {w : Who} {k : BitVec 5} {s t : State} (hx : exec (.toApply w k) s = .next t) :
    regsOnly (fun a => sedAny a ∨ logAddr a ∨ a = R.SCH_STATUS ∨ (∃ i, a = R.TO_STATUS i)) s t ∧
      onlyParts (sedParts.append (logParts.append [.schDl, .schPlaced, .schHeld, .edgeOut, .hostAcc])) s t := by
  have ht := execToApply_touch w k s t hx
  refine ⟨?_, ht.only _ (by decide +kernel)⟩
  exact words_of ht (L := [23, 32, 177, 256, 257, 263, 265]) (by decide +kernel)
    ⟨fun _ k => .inr (.inl (logAddr_of_nvm k)), fun _ k => .inr (.inr (.inl (of_SCH_STATUS k))), fun _ k => .inr (.inr (.inr (of_TO_STATUS k))),
     eachCls_log_sed (fun _ k => .inr (.inl k)) fun _ => .inl⟩

/-! ### Debug halt (R261, R359 to R361) -/

theorem toStatus_ne_brStatus (k m : Nat) : TO_STATUS k ≠ BR_STATUS m := by unfold TO_STATUS BR_STATUS; omega

/-- FROZEN shows in the status of every module; the level of the outputs and the transmit enable stay. -/
theorem showFrozen_gives (b : Bool) (s : State) :
    (showFrozen b s).edge = { s.edge with frozen := b } ∧ (∀ k, fbit (showFrozen b s) (TO_STATUS k) TO_STATUS_LVL = fbit s (TO_STATUS k) TO_STATUS_LVL) ∧
      txEnable (showFrozen b s) = txEnable s := by
  have ht := showFrozen_touch b s
  refine ⟨?_, fun k => ?_, ?_⟩
  · exact eachN_k (P := fun t : State => t.edge = { s.edge with frozen := b }) (fun m t h => by rw [fput_edge, h]) rfl
  · exact fbit_of_rd (ht.off (okw_TO_STATUS (m := 0x2000000000000000000000000000000000000000000000000000000000000000000000000000000000000) (by decide)) (by decide +kernel))
  · unfold txEnable
    rw [fbit_of_rd (ht.off (okw_PAIR_STATUS (m := 0x20000000000000000000000000000000000000000000000000000000000000000000000000000000000000000000000) (by decide)) (by decide +kernel)),
      fbit_of_rd (ht.off (okw_PAIR_STATUS (m := 0x20000000000000000000000000000000000000000000000000000000000000000000000000000000000000000000000) (by decide)) (by decide +kernel))]

/-- The state of a debug halt: the modules frozen, the condition shown, the lead stopped. -/
def halted (s : State) : State := fput (setCond SCH_STATUS_COND_DEBUG true (showFrozen true s)) PAIR_STATUS PAIR_STATUS_LEAD false

theorem edge_halted (s : State) : (halted s).edge = { s.edge with frozen := true } := by
  unfold halted setCond
  rw [fput_edge, fput_edge, fput_edge, (showFrozen_gives true s).1]

/-- A halt freezes the outputs before the lead stops, so nothing is forced off. -/
theorem exec_debugHalt (s : State) : exec .debugHalt s = .next (halted s) := by
  have hf : (halted s).edge.frozen = true := by rw [edge_halted]
  exact congrArg _ (if_pos (e := holdOff (halted s)) hf)

/-- Nothing of a halt but FROZEN, the condition and LEAD. -/
theorem halted_gives (s : State) :
    fbit (halted s) PAIR_STATUS PAIR_STATUS_LEAD = false ∧ fbit (halted s) SCH_STATUS SCH_STATUS_COND_DEBUG = true ∧
      ∀ k, fbit (halted s) (TO_STATUS k) TO_STATUS_LVL = fbit s (TO_STATUS k) TO_STATUS_LVL := by
  unfold halted setCond
  refine ⟨fbit_fput (by decide) _, ?_, fun k => ?_⟩
  · rw [fbit_fput_other (by decide), fbit_fput_apart (by decide) (by decide) (by decide), fbit_fput (by decide)]
  · rw [fbit_fput_other (by unfold TO_STATUS PAIR_STATUS; omega), fbit_fput_other (by unfold TO_STATUS SCH_STATUS; omega),
      fbit_fput_other (by unfold TO_STATUS SCH_STATUS; omega), (showFrozen_gives true s).2.1 k]

theorem exec_debugResume (s : State) :
    exec .debugResume s = .next (if txEnable (showFrozen false s) then showFrozen false s else holdOff (showFrozen false s)) := rfl

theorem eachN_cons (n : Nat) (l : List Nat) (f : Nat → State → State) (s : State) : eachN (n :: l) f s = eachN l f (f n s) := rfl

/-- What an operation at k gives, and the operations at other numbers keep, holds after those of a list with k in it. -/
theorem eachN_reaches {I P : State → Prop} {l : List Nat} {f : Nat → State → State} {k : Nat} (hI : ∀ n t, I t → I (f n t)) (hset : ∀ t, I t → P (f k t))
    (hkeep : ∀ n t, n ≠ k → P t → P (f n t)) (hk : k ∈ l) {s : State} (hs : I s) : P (eachN l f s) := by
  have hstep (n : Nat) (t : State) (h : I t ∧ P t) : I (f n t) ∧ P (f n t) := by
    refine ⟨hI n t h.1, ?_⟩
    by_cases hn : n = k
    · subst hn; exact hset t h.1
    · exact hkeep n t hn h.2
  induction l generalizing s with
  | nil => cases hk
  | cons n l ih =>
    rw [eachN_cons]
    rcases List.mem_cons.1 hk with rfl | hk
    · exact (eachN_k (P := fun t : State => I t ∧ P t) hstep ⟨hI k s hs, hset s hs⟩).2
    · exact ih hk (hI n s hs)

/-- Every output of a list shows its inactive level. -/
theorem outputs_off {l : List Nat} {k : Nat} (hk : k ∈ l) (s : State) :
    fbit (eachN l (fun k s => fput s (TO_STATUS k) TO_STATUS_LVL false) s) (TO_STATUS k) TO_STATUS_LVL = false := by
  refine eachN_reaches (I := fun _ => True) (P := fun t : State => fbit t (TO_STATUS k) TO_STATUS_LVL = false) (fun _ _ _ => trivial)
    (fun t _ => ?_) (fun n t _ h => ?_) hk trivial
  · exact fbit_fput (by decide) _
  by_cases hn : TO_STATUS k = TO_STATUS n
  · rw [hn]; exact fbit_fput (by decide) _
  · rw [fbit_fput_other hn, h]

theorem frozen_of {s t : State} (h : samePart s t .edgeFrozen) : t.edge.frozen = s.edge.frozen := h

theorem holdOff_gives {s : State} :
    (holdOff s).edge.frozen = s.edge.frozen ∧ ∀ k < 32, fbit (holdOff s) (TO_STATUS k) TO_STATUS_LVL = false := by
  refine ⟨frozen_of ((holdOff_touch s).same .edgeFrozen rfl), fun _ hk => ?_⟩
  unfold holdOff
  exact outputs_off (List.mem_range.2 hk) _

/-- The frame of DEBUG_RESUME. -/
theorem debugResume_frame {s t : State} (hx : exec .debugResume s = .next t) :
    regsOnly (fun a => (∃ i, a = R.BR_STATUS i) ∨ (∃ i j, a = R.BR_CH i j) ∨ (∃ i, a = R.TO_STATUS i)) s t ∧ onlyParts [.edgeChan, .edgeFrozen] s t := by
  have ht := execDebugResume_touch s t hx
  exact ⟨words_of ht (L := [166, 171, 177]) (by decide +kernel)
    ⟨fun _ k => .inl (of_BR_STATUS k), fun _ k => .inr (.inl (of_BR_CH k)), fun _ k => .inr (.inr (of_TO_STATUS k)), trivial⟩, ht.only _ (by decide +kernel)⟩

/-! ### Set-points (R136) -/

/-- SETPOINT_COMPUTE of a cycle whose set-points are computed has nothing to do. -/
theorem computeCycle_of_computed {s : State} (h : s.mot.computed = true) : computeCycle s = s := if_pos h

theorem setpoints_computed (s : State) : (setpoints s).mot.computed = true := by
  unfold setpoints
  rw [show (coAdvance _).mot.computed = _ from (coAdvance_touch _).same .motComputed rfl]
  exact eachN_k (P := fun t : State => t.mot.computed = true) (fun n t h => ((genSample_touch n t).same .motComputed rfl).trans h) rfl

theorem computeCycle_computes {s : State} (h : s.mot.computed = false) : (computeCycle s).mot.computed = true := by
  unfold computeCycle
  rw [h, if_neg Bool.false_ne_true]
  refine eachN_k (P := fun t : State => t.mot.computed = true) (fun k t ht => ?_) (setpoints_computed _)
  exact ite_k (P := fun u : State => u.mot.computed = true) (((stepSample_touch k t).same .motComputed rfl).trans ht) ht

theorem exec_setpointCompute (s : State) : exec .setpointCompute s = .next (computeCycle s) := rfl

/-- Settles O33: a table behind the gate, an edge and a step by the equation for what is placed, a halt and its end by what they leave. -/
theorem timedOutputsAct : Obligations.TimedOutputsAct := by
  unfold Obligations.TimedOutputsAct
  refine ⟨?refused, ?apply, ?halt, ?resume, ?resumeOff, ?edge, ?step, ?computed, ?compute⟩
  case refused =>
    intro w k s ha ho
    obtain ⟨t, e, ht, hacc, hrd⟩ := gated_logged ha (toCmdEff_overlapping ho)
    have hx : exec (.toApply w k) s = .next t := by rw [exec_toApply, e]
    refine ⟨t, hx, ?_, (ht.same .edgeOut rfl).trans (by rw [w1cSet_edge]), hacc, toApply_frame hx⟩
    rw [fbit_of_rd (hrd _ (toStatus_not_log _)), fbit_w1cSet_lo (by decide) (toStatus_lo _)]
  case apply =>
    intro w k s ha ho hm
    obtain ⟨t, e, ht, hacc, hrd⟩ := gated_logged ha (toCmdEff_of_no_angle ho hm)
    have hx : exec (.toApply w k) s = .next t := by rw [exec_toApply, e]
    have hout : t.tout k.toNat = { s.tout k.toNat with next := some ((voted s / 2 ^ 32 + 1) % 2 ^ 32, shadowPairs s k.toNat) } := by
      rw [tout_of (ht.same .edgeOut rfl), awaitTable, fput, fset, tout_wr, tout_setTout_same]
    refine ⟨t, hx, ?_, by rw [hout], by rw [hout], hacc, toApply_frame hx⟩
    rw [fbit_of_rd (hrd _ (toStatus_not_log _)), awaitTable, fbit_fput (by decide)]
  case halt =>
    intro s
    have hx := exec_debugHalt s
    have ht := execDebugHalt_touch s _ hx
    have he := edge_halted s
    obtain ⟨hlead, hcond, hlvl⟩ := halted_gives s
    refine ⟨_, hx, by rw [he], hlead, hcond, by rw [he], by rw [he], hlvl, ?_, ht.only _ (by decide +kernel)⟩
    exact words_of ht (L := [32, 166, 171, 177, 217]) (by decide +kernel)
      ⟨fun _ k => .inl (of_SCH_STATUS k), fun _ k => .inr (.inl (of_BR_STATUS k)), fun _ k => .inr (.inr (.inl (of_BR_CH k))),
       fun _ k => .inr (.inr (.inr (.inl (of_TO_STATUS k)))), fun _ k => .inr (.inr (.inr (.inr (of_PAIR_STATUS k)))), trivial⟩
  case resume =>
    intro s h
    obtain ⟨hedge, -, htx⟩ := showFrozen_gives false s
    have hx : exec .debugResume s = .next (showFrozen false s) := by rw [exec_debugResume, htx, if_pos h]
    exact ⟨_, hx, by rw [hedge], by rw [hedge], debugResume_frame hx⟩
  case resumeOff =>
    intro s h
    obtain ⟨hedge, -, htx⟩ := showFrozen_gives false s
    obtain ⟨hf, hl⟩ := holdOff_gives (s := showFrozen false s)
    have hx : exec .debugResume s = .next (holdOff (showFrozen false s)) := by rw [exec_debugResume, htx, h, if_neg Bool.false_ne_true]
    exact ⟨_, hx, by rw [hf, hedge], hl, debugResume_frame hx⟩
  case edge => exact fun k tm b l s hp h hf => toEdge_gives hp hf h
  case step =>
    intro k tm b l s hp h hf hn
    refine ⟨_, exec_stepPulse_of_steps hp hf h hn, ?_, ?_, ?_, fun j hj => ?_, fun a _ => rd_setTout ..⟩
    · rw [tout_setTout_same]
    · rw [tout_setTout_same]
    · rw [tout_setTout_same]
    · rw [tout_setTout, if_neg hj]
  case computed => exact fun s h => by rw [exec_setpointCompute, computeCycle_of_computed h]
  case compute => exact fun s h => ⟨_, exec_setpointCompute s, computeCycle_computes h⟩

end Sys2Proof.Laws

/-! PROOF. Bridge channels (O31): commanded levels and dead time, reloads and sync points, words that land, and edge programmes. -/

namespace Sys2Proof.Laws
open Sys2Proof Sys2Proof.Machine R
set_option Elab.async false

/-! ### Registers of the modules and channels -/

theorem brStatus_lo (m : Nat) : BR_STATUS m < 0x701000 := by unfold BR_STATUS; omega
theorem brStatus_not_log (m : Nat) : ¬ logAddr (BR_STATUS m) = true := not_log (by unfold BR_STATUS; omega)
theorem chReg_ne_brStatus (c m : Nat) : chReg c ≠ BR_STATUS m := by unfold chReg BR_CH BR_STATUS; omega
theorem chReg_ne_brRise (c m j : Nat) : chReg c ≠ BR_RISE m j := by unfold chReg BR_CH BR_RISE; omega
theorem chReg_ne_brFall (c m j : Nat) : chReg c ≠ BR_FALL m j := by unfold chReg BR_CH BR_FALL; omega
theorem brDt_ne_chReg (m j c : Nat) : BR_DT m j ≠ chReg c := by unfold chReg BR_CH BR_DT; omega
theorem brDt_ne_brStatus (m j k : Nat) : BR_DT m j ≠ BR_STATUS k := by unfold BR_DT BR_STATUS; omega
theorem brPeriod_ne_brStatus (m k : Nat) : BR_PERIOD m ≠ BR_STATUS k := by unfold BR_PERIOD BR_STATUS; omega
theorem brRise_ne_brStatus (m j k : Nat) : BR_RISE m j ≠ BR_STATUS k := by unfold BR_RISE BR_STATUS; omega
theorem brFall_ne_brStatus (m j k : Nat) : BR_FALL m j ≠ BR_STATUS k := by unfold BR_FALL BR_STATUS; omega
theorem brRise_ne_brPeriod (m j k : Nat) : BR_RISE m j ≠ BR_PERIOD k := by unfold BR_RISE BR_PERIOD; omega
theorem brFall_ne_brPeriod (m j k : Nat) : BR_FALL m j ≠ BR_PERIOD k := by unfold BR_FALL BR_PERIOD; omega

theorem chan_fput (s : State) (a : Nat) (f : Fld) (b : Bool) (d : Nat) : (fput s a f b).chan d = s.chan d := chan_wr ..
theorem chan_fset (s : State) (a : Nat) (f : Fld) (v d : Nat) : (fset s a f v).chan d = s.chan d := chan_wr ..
theorem fbit_setChan (s : State) (c : Nat) (x : Chan) (a : Nat) (f : Fld) : fbit (s.setChan c x) a f = fbit s a f := fbit_of_rd (rd_setChan ..)
theorem fget_setChan (s : State) (c : Nat) (x : Chan) (a : Nat) (f : Fld) : fget (s.setChan c x) a f = fget s a f := fget_of_rd (rd_setChan ..)

/-! ### The commanded level (R252, R253) -/

/-- A change of the commanded level moves the pins and the delay of its own channel. -/
theorem driveHc_eq (c : Nat) (on : Bool) (s : State) : ∃ h l d,
    driveHc c on s = (fput s (chReg c) BR_CH_HC on).setChan c { s.chan c with pinH := h, pinL := l, dead := d } := by
  unfold driveHc
  extract_lets x t
  split
  · exact ⟨_, _, _, rfl⟩
  split
  · exact ⟨_, _, _, rfl⟩
  split
  · exact ⟨x.pinH, _, _, rfl⟩
  · exact ⟨_, x.pinL, _, rfl⟩

theorem hc_driveHc (c : Nat) (on : Bool) (s : State) : fbit (driveHc c on s) (chReg c) BR_CH_HC = on := by
  obtain ⟨h, l, d, e⟩ := driveHc_eq c on s
  rw [e, fbit_setChan, fbit_fput (by decide)]

theorem chan_driveHc_other {c d : Nat} (h : d ≠ c) (on : Bool) (s : State) : (driveHc c on s).chan d = s.chan d := by
  obtain ⟨_, _, _, e⟩ := driveHc_eq c on s
  rw [e, chan_setChan, if_neg h, chan_fput]

section
variable {c : Nat} {s : State} (hh : fbit s (chReg c) BR_CH_HONLY = false)
include hh

/-- A channel with both switches goes by its dead time. -/
theorem driveHc_of_both (on : Bool) : driveHc c on s = (fput s (chReg c) BR_CH_HC on).setChan c
    (if deadTime s c = 0 then { s.chan c with pinH := on, pinL := !on, dead := none }
      else if on then { s.chan c with pinL := false, dead := if (s.chan c).pinH then none else some true }
      else { s.chan c with pinH := false, dead := if (s.chan c).pinL then none else some false }) := by
  have hd : deadTime (fput s (chReg c) BR_CH_HC on) c = deadTime s c := by
    unfold deadTime; rw [fput, fget_fset_other (brDt_ne_chReg _ _ _)]
  unfold driveHc
  dsimp only
  rw [fbit_fput_apart (by decide) (by decide) (by decide), hh, if_neg Bool.false_ne_true, hd]
  split
  · rfl
  split <;> rfl

/-- Commanded on, BRnL goes off at once and BRnH keeps its level for the dead time. -/
theorem pins_driveHc_on : ((driveHc c true s).chan c).pinL = false ∧ (0 < deadTime s c → ((driveHc c true s).chan c).pinH = (s.chan c).pinH) := by
  rw [driveHc_of_both hh, chan_setChan_same]
  split
  · next h => exact ⟨rfl, fun h' => absurd h (by omega)⟩
  · exact ⟨rfl, fun _ => rfl⟩

/-- Commanded off, BRnH goes off at once and BRnL keeps its level for the dead time. -/
theorem pins_driveHc_off : ((driveHc c false s).chan c).pinH = false ∧ (0 < deadTime s c → ((driveHc c false s).chan c).pinL = (s.chan c).pinL) := by
  rw [driveHc_of_both hh, chan_setChan_same]
  split
  · next h => exact ⟨rfl, fun h' => absurd h (by omega)⟩
  · exact ⟨rfl, fun _ => rfl⟩

end

/-! ### Reached compares (R252) -/

/-- The counter of a channel's module stands at the compare just reached. -/
def atCompare (k at' : Nat) (s : State) : State := fset s (BR_STATUS (k / 3)) BR_STATUS_COUNT (at' / 64)

theorem chan_atCompare (k v d : Nat) (s : State) : (atCompare k v s).chan d = s.chan d := chan_fset ..
theorem fbit_atCompare (k v c : Nat) (f : Fld) (s : State) : fbit (atCompare k v s) (chReg c) f = fbit s (chReg c) f :=
  fbit_of_rd (rd_fset_other (chReg_ne_brStatus _ _))
theorem deadTime_atCompare (k v c : Nat) (s : State) : deadTime (atCompare k v s) c = deadTime s c := by
  unfold deadTime; rw [atCompare, fget_fset_other (brDt_ne_brStatus _ _ _)]

section
variable {c : BitVec 5} {s : State} (hc : c.toNat < 24) (hr : running s (c.toNat / 3) = true) (ha : fbit s (chReg c.toNat) BR_CH_ACT = true)
include hc hr ha

/-- A RISE below the period turns a channel on that is off. -/
theorem exec_bridgeEdge_rise (hp : (s.chan c.toNat).rise < periodSteps s (c.toNat / 3)) (hne : (s.chan c.toNat).rise ≠ (s.chan c.toNat).fall)
    (hoff : fbit s (chReg c.toNat) BR_CH_HC = false) :
    exec (.bridgeEdge c true) s = .next (driveHc c.toNat true (atCompare c.toNat (s.chan c.toNat).rise s)) := by
  show execBridgeEdge c true s = _
  unfold execBridgeEdge
  dsimp only
  rw [if_pos rfl, hr, ha, decide_eq_true hc, decide_eq_true hp, Bool.and_self, Bool.and_self, Bool.and_self, if_pos rfl, ← atCompare, fbit_atCompare, hoff, bne_iff_ne.2 hne, Bool.true_and]
  exact congrArg _ (if_neg Bool.false_ne_true)

/-- A FALL below the period turns a channel off that is on. -/
theorem exec_bridgeEdge_fall (hp : (s.chan c.toNat).fall < periodSteps s (c.toNat / 3)) (hon : fbit s (chReg c.toNat) BR_CH_HC = true) :
    exec (.bridgeEdge c false) s = .next (driveHc c.toNat false (atCompare c.toNat (s.chan c.toNat).fall s)) := by
  show execBridgeEdge c false s = _
  unfold execBridgeEdge
  dsimp only
  rw [if_neg Bool.false_ne_true, hr, ha, decide_eq_true hc, decide_eq_true hp, Bool.and_self, Bool.and_self, Bool.and_self, if_pos rfl, ← atCompare, fbit_atCompare, hon, Bool.false_and]
  exact congrArg _ (if_neg Bool.false_ne_true)

end

/-- The frame of BRIDGE_EDGE. -/
theorem bridgeEdge_frame {c : BitVec 5} {rise : Bool} {s t : State} (hx : exec (.bridgeEdge c rise) s = .next t) :
    regsOnly (fun a => (∃ i, a = R.BR_STATUS i) ∨ (∃ i j, a = R.BR_CH i j)) s t ∧ onlyParts [.edgeChan] s t := by
  have ht := execBridgeEdge_touch c rise s t hx
  exact ⟨words_of ht (L := [166, 171]) (by decide +kernel) ⟨fun _ k => .inl (of_BR_STATUS k), fun _ k => .inr (of_BR_CH k), trivial⟩, ht.only _ (by decide +kernel)⟩

/-! ### The end of a dead time (R253) -/

theorem exec_deadTimeEnd_of_some {c : BitVec 5} {b : Bool} {s : State} (hf : s.edge.frozen = false) (hd : (s.chan c.toNat).dead = some b) :
    exec (.deadTimeEnd c) s = .next (s.setChan c.toNat
      (if b then { s.chan c.toNat with pinH := true, dead := none } else { s.chan c.toNat with pinL := true, dead := none })) := by
  show execDeadTimeEnd c s = _
  unfold execDeadTimeEnd
  dsimp only
  rw [hf, if_neg Bool.false_ne_true, hd]
  cases b <;> rfl

/-- The end of a dead time: the delayed switch turns on, the other channels stay. -/
theorem deadTimeEnd_gives {c : BitVec 5} {b : Bool} {s : State} (hf : s.edge.frozen = false) (hd : (s.chan c.toNat).dead = some b) :
    ∃ t, exec (.deadTimeEnd c) s = .next t ∧
      t.chan c.toNat = (if b then { s.chan c.toNat with pinH := true, dead := none } else { s.chan c.toNat with pinL := true, dead := none }) ∧
      (∀ d, d ≠ c.toNat → t.chan d = s.chan d) ∧ regsOnly (fun _ => False) s t ∧ onlyParts [.edgeChan] s t := by
  have hx := exec_deadTimeEnd_of_some hf hd
  refine ⟨_, hx, chan_setChan_same .., fun d h => ?_, fun a _ => rd_setChan .., (execDeadTimeEnd_touch c s _ hx).only _ (by decide +kernel)⟩
  rw [chan_setChan, if_neg h]

/-! ### Reloads (R254, R255) -/

/-- The compares of channel d are the same in two states. -/
def sameCompares (s t : State) (d : Nat) : Prop := (t.chan d).rise = (s.chan d).rise ∧ (t.chan d).fall = (s.chan d).fall

theorem sameCompares_refl (s : State) (d : Nat) : sameCompares s s d := ⟨rfl, rfl⟩

theorem sameCompares_driveHc {s t : State} {d : Nat} (c : Nat) (on : Bool) (h : sameCompares s t d) : sameCompares s (driveHc c on t) d := by
  obtain ⟨_, _, _, e⟩ := driveHc_eq c on t
  unfold sameCompares
  rw [e, chan_setChan]
  split
  · next hd => subst hd; exact h
  · exact h

/-- A channel that parks or becomes ACTIVE keeps its compares. -/
theorem sameCompares_chanReload {s t : State} {d : Nat} (c : Nat) (h : sameCompares s t d) : sameCompares s (chanReload c t) d := by
  have hact : sameCompares s (fput t (chReg c) BR_CH_ACT true) d := h
  unfold chanReload
  exact ite_k (P := fun u : State => sameCompares s u d) h (ite_k (P := fun u : State => sameCompares s u d) (sameCompares_driveHc c false hact)
    (ite_k (P := fun u : State => sameCompares s u d) (sameCompares_driveHc c false h) h))

/-- The shadow compares of a channel come into force. -/
def takeShadow (m c : Nat) (s : State) : State :=
  s.setChan c { s.chan c with rise := fget s (BR_RISE m (c % 3)) BR_RISE_RISE, fall := fget s (BR_FALL m (c % 3)) BR_FALL_FALL }

/-- The shadow period and the shadow compares of a module come into force, PEND is cleared. -/
def takePeriod (m : Nat) (s : State) : State :=
  fset (fput s (BR_STATUS m) BR_STATUS_PEND false) (BR_PERIOD m) BR_PERIOD_ACTIVE
    (max 256 (fget (fput s (BR_STATUS m) BR_STATUS_PEND false) (BR_PERIOD m) BR_PERIOD_PERIOD))
def takeShadows (m : Nat) (s : State) : State := eachN (modChans m) (takeShadow m) (takePeriod m s)

/-- The counter restarts, and each channel parks or follows its compares. -/
def restart (m : Nat) (s : State) : State := eachN (modChans m) chanReload (fset s (BR_STATUS m) BR_STATUS_COUNT 0)

theorem reload_eq (m : Nat) (s : State) :
    reload m s = restart m (if !cmode s m || fbit s (BR_STATUS m) BR_STATUS_PEND then takeShadows m s else s) := rfl

theorem chanReloads_touch (l : List Nat) (s : State) : Touch k_chanReload s (eachN l chanReload s) :=
  eachN_k (P := fun t : State => Touch k_chanReload s t) (fun c t h => Touch.then (chanReload_touch c t) (by decide) h) Touch.refl

/-- A restart leaves the registers but COUNT and the channels' own, and every compare. -/
theorem restart_gives (m : Nat) (s : State) :
    fget (restart m s) (BR_STATUS m) BR_STATUS_COUNT = 0 ∧ (∀ f, fldOk f → fldApart BR_STATUS_COUNT f → fbit (restart m s) (BR_STATUS m) f = fbit s (BR_STATUS m) f) ∧
      rd (restart m s) (BR_PERIOD m) = rd s (BR_PERIOD m) ∧ ∀ d, sameCompares s (restart m s) d := by
  have ht := chanReloads_touch (modChans m) (fset s (BR_STATUS m) BR_STATUS_COUNT 0)
  have hst : rd (restart m s) (BR_STATUS m) = rd (fset s (BR_STATUS m) BR_STATUS_COUNT 0) (BR_STATUS m) :=
    ht.off (okw_BR_STATUS (m := 0x4000000000000000000000000000000000000000000000000000000000000000000000000000000000) (by decide)) (by decide +kernel)
  refine ⟨?_, fun f hf ha => ?_, ?_, fun d => ?_⟩
  · rw [fget_of_rd hst, fget_fset (by decide)]; rfl
  · rw [fbit_of_rd hst]; unfold fbit; rw [fget_fset_apart (by decide) hf ha]
  · exact (ht.off (okw_BR_PERIOD (m := 0x800000000000000000000000000000000000000000000000000000000000000000000000000000000) (by decide)) (by decide +kernel)).trans (rd_fset_other (brPeriod_ne_brStatus _ _))
  · exact eachN_k (P := fun t : State => sameCompares s t d) (fun c t h => sameCompares_chanReload c h) (sameCompares_refl s d)

theorem takeShadow_regs (m c : Nat) (s : State) : (takeShadow m c s).regs = s.regs := setChan_regs ..

/-- Every channel gone through takes the shadows that the registers hold. -/
theorem takeShadow_each (m : Nat) {l : List Nat} {c : Nat} (hc : c ∈ l) (s : State) :
    ((eachN l (takeShadow m) s).chan c).rise = fget s (BR_RISE m (c % 3)) BR_RISE_RISE ∧
      ((eachN l (takeShadow m) s).chan c).fall = fget s (BR_FALL m (c % 3)) BR_FALL_FALL := by
  refine eachN_reaches (I := fun t : State => t.regs = s.regs)
    (P := fun t : State => (t.chan c).rise = fget s (BR_RISE m (c % 3)) BR_RISE_RISE ∧ (t.chan c).fall = fget s (BR_FALL m (c % 3)) BR_FALL_FALL)
    (fun n t h => (takeShadow_regs m n t).trans h) (fun t h => ?_) (fun n t hn h => ?_) hc rfl
  · rw [takeShadow, chan_setChan_same, fget_of_regs h, fget_of_regs h]
    exact ⟨rfl, rfl⟩
  · rw [takeShadow, chan_setChan, if_neg hn.symm]
    exact h

theorem takeShadows_regs (m : Nat) (s : State) : (takeShadows m s).regs = (takePeriod m s).regs :=
  eachN_k (P := fun t : State => t.regs = (takePeriod m s).regs) (fun c t h => (takeShadow_regs m c t).trans h) rfl

/-- The period in force, PEND and the compares of the channels once the shadows have moved. -/
theorem takeShadows_gives (m : Nat) (s : State) :
    fget (takeShadows m s) (BR_PERIOD m) BR_PERIOD_ACTIVE = max 256 (fget s (BR_PERIOD m) BR_PERIOD_PERIOD) % 65536 ∧
      fbit (takeShadows m s) (BR_STATUS m) BR_STATUS_PEND = false ∧
      ∀ c ∈ modChans m, ((takeShadows m s).chan c).rise = fget s (BR_RISE m (c % 3)) BR_RISE_RISE ∧
        ((takeShadows m s).chan c).fall = fget s (BR_FALL m (c % 3)) BR_FALL_FALL := by
  refine ⟨?_, ?_, fun c hc => ?_⟩
  · rw [fget_of_regs (takeShadows_regs m s), takePeriod, fget_fset (by decide), fput, fget_fset_other (brPeriod_ne_brStatus _ _)]
    rfl
  · rw [fbit_of_rd (rd_of_regs (takeShadows_regs m s) _), takePeriod, fbit_of_rd (rd_fset_other (brPeriod_ne_brStatus _ _).symm), fbit_fput (by decide)]
  · obtain ⟨hr, hf⟩ := takeShadow_each m hc (takePeriod m s)
    refine ⟨hr.trans ?_, hf.trans ?_⟩
    · rw [takePeriod, fget_fset_other (brRise_ne_brPeriod _ _ _), fput, fget_fset_other (brRise_ne_brStatus _ _ _)]
    · rw [takePeriod, fget_fset_other (brFall_ne_brPeriod _ _ _), fput, fget_fset_other (brFall_ne_brStatus _ _ _)]

theorem count_reload (m : Nat) (s : State) : fget (reload m s) (BR_STATUS m) BR_STATUS_COUNT = 0 := by
  rw [reload_eq]; exact (restart_gives ..).1

/-- A reload leaves the status of its module but for COUNT and PEND. -/
theorem status_reload {m : Nat} {s : State} {f : Fld} (hf : fldOk f) (hc : fldApart BR_STATUS_COUNT f) (hp : fldApart BR_STATUS_PEND f) :
    fbit (reload m s) (BR_STATUS m) f = fbit s (BR_STATUS m) f := by
  rw [reload_eq, (restart_gives ..).2.1 f hf hc]
  refine ite_k (P := fun t : State => fbit t (BR_STATUS m) f = fbit s (BR_STATUS m) f) ?_ rfl
  rw [fbit_of_rd (rd_of_regs (takeShadows_regs m s) _), takePeriod, fbit_of_rd (rd_fset_other (brPeriod_ne_brStatus _ _).symm),
    fbit_fput_apart (by decide) hf hp]

section
variable {m : BitVec 3} {s : State} (hr : running s m.toNat = true) (hw : m.toNat ∉ s.edge.wait)
include hr hw

theorem exec_bridgeReload_of_running : exec (.bridgeReload m) s = .next (reload m.toNat s) := by
  refine congrArg _ (if_pos ?_)
  rw [hr, Bool.true_and, Bool.not_eq_true', List.contains_eq_mem, decide_eq_false hw]

end

/-- The frame of BRIDGE_RELOAD. -/
theorem bridgeReload_frame {m : BitVec 3} {s t : State} (hx : exec (.bridgeReload m) s = .next t) :
    regsOnly (fun a => (∃ i, a = R.BR_PERIOD i) ∨ (∃ i, a = R.BR_STATUS i) ∨ (∃ i j, a = R.BR_CH i j)) s t ∧ onlyParts [.edgeChan] s t := by
  have ht := execBridgeReload_touch m s t hx
  exact ⟨words_of ht (L := [163, 166, 171]) (by decide +kernel)
    ⟨fun _ k => .inl (of_BR_PERIOD k), fun _ k => .inr (.inl (of_BR_STATUS k)), fun _ k => .inr (.inr (of_BR_CH k)), trivial⟩, ht.only _ (by decide +kernel)⟩

/-! ### Sync points (R259, R260) -/

/-- A module that waited runs. -/
def started (m : Nat) (s : State) : State := fput { s with edge.wait := s.edge.wait.filter (· != m) } (BR_STATUS m) BR_STATUS_RUN true

theorem wait_of {s t : State} (h : samePart s t .edgeWait) : t.edge.wait = s.edge.wait := h

section
variable {m : BitVec 3} {count : BitVec 16} {s : State} (he : fbit s (BR_CTRL m.toNat) BR_CTRL_EN = true)
  (hs : fbit s (BR_CTRL m.toNat) BR_CTRL_SYNC_EN = true) (hf : s.edge.frozen = false)
include he hs hf

/-- A module that waits for its sync point starts at it. -/
theorem exec_syncPoint_of_waiting (hw : m.toNat ∈ s.edge.wait) : exec (.syncPoint m count) s =
    .next (reload m.toNat (started m.toNat s)) := by
  refine congrArg _ ((if_pos ?_).trans (if_pos ?_))
  · rw [he, hs, hf]; rfl
  · rw [List.contains_eq_mem, decide_eq_true hw]

/-- A running module whose counter is off by more than 8 clocks is cut, which shows in SYNC_CUT; so it is at either level of compatibility. -/
theorem exec_syncPoint_of_cut (hw : m.toNat ∉ s.edge.wait)
    (hc : fget s (BR_PERIOD m.toNat) BR_PERIOD_ACTIVE + 8 < count.toNat ∨ (0 < count.toNat ∧ count.toNat + 8 < fget s (BR_PERIOD m.toNat) BR_PERIOD_ACTIVE)) :
    exec (.syncPoint m count) s = .next (reload m.toNat (w1cSet (BR_STATUS m.toNat) BR_STATUS_SYNC_CUT m.toNat s)) := by
  have hlate : fget s (BR_PERIOD m.toNat) BR_PERIOD_ACTIVE + (if levelOne s then 4 else 8) < count.toNat ∨
      (0 < count.toNat ∧ count.toNat + 8 < fget s (BR_PERIOD m.toNat) BR_PERIOD_ACTIVE) := by
    refine hc.imp_left fun h => ?_
    split <;> omega
  refine congrArg _ ((if_pos ?_).trans ((if_neg ?_).trans (congrArg (reload m.toNat) (if_pos ?_))))
  · rw [he, hs, hf]; rfl
  · rw [List.contains_eq_mem, decide_eq_false hw]; exact Bool.false_ne_true
  · simpa only [Bool.or_eq_true, Bool.and_eq_true, decide_eq_true_eq] using hlate

end

/-- The frame of SYNC_POINT. -/
theorem syncPoint_frame {m : BitVec 3} {count : BitVec 16} {s t : State} (hx : exec (.syncPoint m count) s = .next t) :
    regsOnly (fun a => sedAny a ∨ (∃ i, a = R.BR_PERIOD i) ∨ (∃ i, a = R.BR_STATUS i) ∨ (∃ i j, a = R.BR_CH i j)) s t ∧
      onlyParts (sedParts.append [.edgeChan, .edgeWait]) s t := by
  have ht := execSyncPoint_touch m count s t hx
  exact ⟨words_of ht (L := [163, 166, 171, 263, 265]) (by decide +kernel)
    ⟨fun _ k => .inr (.inl (of_BR_PERIOD k)), fun _ k => .inr (.inr (.inl (of_BR_STATUS k))), fun _ k => .inr (.inr (.inr (of_BR_CH k))),
     eachCls_sed fun _ => .inl⟩, ht.only _ (by decide +kernel)⟩

/-! ### Words that land (R254, R255) -/

/-- The oldest word under way has left the data link. -/
def arrived (l : List (Nat × Word)) (s : State) : State := { s with edge.fly := l }

theorem landOne_period {m : Nat} {v : Word} {l : List (Nat × Word)} {s : State} (hm : m < 8) (h : s.edge.fly = (BR_PERIOD m, v) :: l) :
    landOne s = fset (arrived l s) (BR_PERIOD m) BR_PERIOD_PERIOD v.toNat := by
  have ho : BR_PERIOD m % 0x100 = 4 := by unfold BR_PERIOD; omega
  have hn : (BR_PERIOD m - 0x300000) / 0x100 = m := by unfold BR_PERIOD; omega
  unfold landOne
  rw [h]
  dsimp only
  rw [if_pos ho, hn, arrived]

theorem landOne_rise {m k : Nat} {v : Word} {l : List (Nat × Word)} {s : State} (hm : m < 8) (hk : k < 3) (h : s.edge.fly = (BR_RISE m k, v) :: l) :
    landOne s = wr (arrived l s) (BR_RISE m k) (v &&& 0x3FFFFF#32) := by
  have ho : ¬ BR_RISE m k % 0x100 = 4 := by unfold BR_RISE; omega
  have hr : ¬ BR_RISE m k % 0x10 = 4 := by unfold BR_RISE; omega
  have hn : (BR_RISE m k - 0x300000) / 0x100 = m := by unfold BR_RISE; omega
  have hc : (BR_RISE m k % 0x100 - 0x20) / 0x10 = k := by unfold BR_RISE; omega
  unfold landOne
  rw [h]
  dsimp only
  rw [if_neg ho, if_neg hr, hn, hc, arrived]

theorem landOne_fall {m k : Nat} {v : Word} {l : List (Nat × Word)} {s : State} (hm : m < 8) (hk : k < 3) (h : s.edge.fly = (BR_FALL m k, v) :: l) :
    landOne s = wr (arrived l s) (BR_FALL m k) (v &&& 0x3FFFFF#32) := by
  have ho : ¬ BR_FALL m k % 0x100 = 4 := by unfold BR_FALL; omega
  have hr : BR_FALL m k % 0x10 = 4 := by unfold BR_FALL; omega
  have hn : (BR_FALL m k - 0x300000) / 0x100 = m := by unfold BR_FALL; omega
  have hc : (BR_FALL m k % 0x100 - 0x20) / 0x10 = k := by unfold BR_FALL; omega
  unfold landOne
  rw [h]
  dsimp only
  rw [if_neg ho, if_pos hr, hn, hc, arrived]

theorem exec_shadowWriteLand (s : State) : exec .shadowWriteLand s = .next (landOne s) := rfl

/-- The frame of SHADOW_WRITE_LAND. -/
theorem landOne_frame (s : State) :
    regsOnly (fun a => (∃ i, a = R.BR_PERIOD i) ∨ (∃ i j, a = R.BR_RISE i j) ∨ (∃ i j, a = R.BR_FALL i j)) s (landOne s) ∧ onlyParts [.edgeFly] s (landOne s) := by
  have ht := landOne_touch s
  exact ⟨words_of ht (L := [163, 168, 169]) (by decide +kernel)
    ⟨fun _ k => .inl (of_BR_PERIOD k), fun _ k => .inr (.inl (of_BR_RISE k)), fun _ k => .inr (.inr (of_BR_FALL k)), trivial⟩, ht.only _ (by decide +kernel)⟩

theorem commitEff_one (m : Nat) (s : State) : commitEff m 1 s = some (fput (landAll s) (BR_STATUS m) BR_STATUS_PEND true) := if_pos (by decide)

theorem exec_commit (w : Who) (m : BitVec 3) (s : State) : exec (.commit w m) s = .next (gated w (BR_CMD m.toNat) 1 (commitEff m.toNat 1) s) := rfl

/-! ### Edge programmes (R256, R257) -/

/-- A channel commanded OFF by a programme. -/
def offChannel (c : Nat) (s : State) : State := chanOff c (fput s (chReg c) BR_CH_OFF true)

/-- The compares of channel b + j as a programme gives them, and the channel no longer OFF. -/
def landCompares (b : Nat) (es : List Nat) (j : Nat) (s : State) : State :=
  fput (wrN (wrN s (BR_RISE ((b + j) / 3) ((b + j) % 3)) (es.getD (2 * j) 0x3FFFFF)) (BR_FALL ((b + j) / 3) ((b + j) % 3)) (es.getD (2 * j + 1) 0x3FFFFF))
    (chReg (b + j)) BR_CH_OFF false

/-- The channels of an axis with a programme: three, or four of LAW_SET 4. -/
def progChans (n : Nat) (s : State) : Nat := if (s.ctx n).lawSet = 4 then 4 else 3

/-- The channels of a programme act on it. -/
def actOn (n b : Nat) (es : List Nat) (s : State) : State :=
  if es = [] then eachN ((List.range (progChans n s)).map (b + ·)) offChannel s else eachN (List.range (progChans n s)) (landCompares b es) s

theorem landProgramme_of_some {n b : Nat} {es : List Nat} {s : State} (hb : (s.ctx n).bridge = some b) (hp : (s.axl n).prog = some es) :
    landProgramme n s = eachN (((List.range (progChans n s)).map (b + ·)).map (· / 3)) (fun m s => fput s (BR_STATUS m) BR_STATUS_PEND true)
      (actOn n b es (s.setAxl n { s.axl n with prog := none })) := by
  unfold landProgramme
  rw [hb, hp]
  rfl

theorem progChans_pos (n : Nat) (s : State) : 0 < progChans n s := by unfold progChans; split <;> decide

theorem off_chanOff (c d : Nat) (s : State) : fbit (chanOff c s) (chReg d) BR_CH_OFF = fbit s (chReg d) BR_CH_OFF := by
  have hput (t : State) (f : Fld) (hf : fldOk f) (ha : fldApart f BR_CH_OFF) : fbit (fput t (chReg c) f false) (chReg d) BR_CH_OFF = fbit t (chReg d) BR_CH_OFF := by
    by_cases hd : chReg d = chReg c
    · rw [hd, fbit_fput_apart hf (by decide) ha]
    · rw [fbit_fput_other hd]
  unfold chanOff
  dsimp only
  rw [hput _ _ (by decide) (by decide), hput _ _ (by decide) (by decide), fbit_setChan]

/-- OFF of a channel after it is put, at the same or at another channel. -/
theorem off_fput {c d : Nat} {v : Bool} {s : State} (h : c = d ∨ fbit s (chReg d) BR_CH_OFF = v) : fbit (fput s (chReg c) BR_CH_OFF v) (chReg d) BR_CH_OFF = v := by
  by_cases hd : chReg d = chReg c
  · rw [hd, fbit_fput (by decide)]
  · rw [fbit_fput_other hd]
    exact h.resolve_left fun e => hd (by rw [e])

theorem off_landCompares {b j d : Nat} {es : List Nat} {s : State} (h : b + j = d ∨ fbit s (chReg d) BR_CH_OFF = false) :
    fbit (landCompares b es j s) (chReg d) BR_CH_OFF = false := by
  refine off_fput (h.imp_right fun h => ?_)
  rw [fbit_of_rd (rd_wrN_other (chReg_ne_brFall _ _ _)), fbit_of_rd (rd_wrN_other (chReg_ne_brRise _ _ _)), h]

/-- OFF of the first channel shows whether the programme is the off state. -/
theorem off_actOn {n b : Nat} {es : List Nat} {s : State} : fbit (actOn n b es s) (chReg b) BR_CH_OFF = decide (es = []) := by
  have h0 : 0 ∈ List.range (progChans n s) := List.mem_range.2 (progChans_pos n s)
  unfold actOn
  split
  · next he =>
    rw [decide_eq_true he]
    refine eachN_reaches (I := fun _ => True) (P := fun t : State => fbit t (chReg b) BR_CH_OFF = true) (k := b) (fun _ _ _ => trivial) (fun t _ => ?_)
      (fun c t _ h => ?_) (List.mem_map.2 ⟨0, h0, rfl⟩) trivial
    · rw [offChannel, off_chanOff, off_fput (.inl rfl)]
    · rw [offChannel, off_chanOff, off_fput (.inr h)]
  · next he =>
    rw [decide_eq_false he]
    exact eachN_reaches (I := fun _ => True) (P := fun t : State => fbit t (chReg b) BR_CH_OFF = false) (k := 0) (fun _ _ _ => trivial)
      (fun t _ => off_landCompares (.inl rfl)) (fun j t _ h => off_landCompares (.inr h)) h0 trivial

theorem axl_chanOff (c n : Nat) (s : State) : (chanOff c s).axl n = s.axl n := axl_of ((chanOff_touch c s).same .lawAx rfl) n

/-- Channels that act on a programme leave the law engine. -/
theorem axl_actOn (n b k : Nat) (es : List Nat) (s : State) : (actOn n b es s).axl k = s.axl k := by
  unfold actOn
  refine ite_k (P := fun t : State => t.axl k = s.axl k) ?_ ?_
  · exact eachN_k (P := fun t : State => t.axl k = s.axl k) (fun c t h => (axl_chanOff c k _).trans h) rfl
  · exact eachN_k (P := fun t : State => t.axl k = s.axl k) (fun j t h => h) rfl

/-- PEND of the modules of a programme: set at each, and no other register moves. -/
theorem pends_give {l : List Nat} {m : Nat} (hm : m ∈ l) (s : State) :
    fbit (eachN l (fun m s => fput s (BR_STATUS m) BR_STATUS_PEND true) s) (BR_STATUS m) BR_STATUS_PEND = true ∧
      (∀ c f, fbit (eachN l (fun m s => fput s (BR_STATUS m) BR_STATUS_PEND true) s) (chReg c) f = fbit s (chReg c) f) ∧
      ∀ n, (eachN l (fun m s => fput s (BR_STATUS m) BR_STATUS_PEND true) s).axl n = s.axl n := by
  refine ⟨?_, fun c f => ?_, fun n => ?_⟩
  · refine eachN_reaches (I := fun _ => True) (P := fun t : State => fbit t (BR_STATUS m) BR_STATUS_PEND = true) (fun _ _ _ => trivial)
      (fun t _ => ?_) (fun j t _ h => ?_) hm trivial
    · exact fbit_fput (by decide) _
    by_cases hj : BR_STATUS m = BR_STATUS j
    · rw [hj, fbit_fput (by decide)]
    · rw [fbit_fput_other hj, h]
  · exact eachN_k (P := fun t : State => fbit t (chReg c) f = fbit s (chReg c) f)
      (fun j t h => (fbit_fput_other (chReg_ne_brStatus _ _) _).trans h) rfl
  · exact eachN_k (P := fun t : State => t.axl n = s.axl n) (fun j t h => h) rfl

/-- A landed programme: none waits, PEND of its first module, OFF of its first channel. -/
theorem landProgramme_gives {n b : Nat} {es : List Nat} {s : State} (hb : (s.ctx n).bridge = some b) (hp : (s.axl n).prog = some es) :
    ((landProgramme n s).axl n).prog = none ∧ fbit (landProgramme n s) (BR_STATUS (b / 3)) BR_STATUS_PEND = true ∧
      fbit (landProgramme n s) (chReg b) BR_CH_OFF = decide (es = []) := by
  have hm : b / 3 ∈ ((List.range (progChans n s)).map (b + ·)).map (· / 3) :=
    List.mem_map.2 ⟨b, List.mem_map.2 ⟨0, List.mem_range.2 (progChans_pos n s), rfl⟩, rfl⟩
  obtain ⟨hpend, hch, hax⟩ := pends_give hm (actOn n b es (s.setAxl n { s.axl n with prog := none }))
  rw [landProgramme_of_some hb hp]
  refine ⟨?_, hpend, ?_⟩
  · rw [hax, axl_actOn, axl_setAxl_same]
  · rw [hch, off_actOn]

theorem exec_edgeProgrammeLand (n : Axis) (s : State) : exec (.edgeProgrammeLand n) s = .next (landProgramme n.toNat s) := rfl

/-- Settles O31: each command by the equation for its condition, then what a reload, a landed word or a landed programme leaves. -/
theorem bridgeChannelsAct : Obligations.BridgeChannelsAct := by
  unfold Obligations.BridgeChannelsAct
  refine ⟨?moves, ?stays, ?rise, ?fall, ?turnOn, ?turnOff, ?starts, ?cut, ?period, ?riseLands, ?fallLands, ?commit, ?programme⟩
  case moves =>
    intro m s hr hw hc
    have hx := exec_bridgeReload_of_running hr hw
    have hmove : (!cmode s m.toNat || fbit s (BR_STATUS m.toNat) BR_STATUS_PEND) = true := by
      rcases hc with h | h
      · rw [h]; rfl
      · rw [h, Bool.or_true]
    have hreload : reload m.toNat s = restart m.toNat (takeShadows m.toNat s) := by rw [reload_eq, hmove, if_pos rfl]
    obtain ⟨hperiod, hpend, hcomp⟩ := takeShadows_gives m.toNat s
    obtain ⟨hcount, hst, hper, hsame⟩ := restart_gives m.toNat (takeShadows m.toNat s)
    refine ⟨_, hx, count_reload .., ?_, ?_, fun c hc => ?_, bridgeReload_frame hx⟩
    · rw [hreload, hst _ (by decide) (by decide), hpend]
    · rw [hreload, fget_of_rd hper, hperiod]
    · rw [hreload, (hsame c).1, (hsame c).2]
      exact hcomp c hc
  case stays =>
    intro m s hr hw hc hp
    have hx := exec_bridgeReload_of_running hr hw
    refine ⟨_, hx, count_reload .., fun c => ?_, bridgeReload_frame hx⟩
    rw [reload_eq, hc, hp]
    exact (restart_gives m.toNat s).2.2.2 c
  case rise =>
    intro c s hc hr ha hh hp hne hoff
    have hx := exec_bridgeEdge_rise hc hr ha hp hne hoff
    obtain ⟨hl, hh'⟩ := pins_driveHc_on (s := atCompare c.toNat (s.chan c.toNat).rise s) ((fbit_atCompare ..).trans hh)
    rw [deadTime_atCompare, chan_atCompare] at hh'
    exact ⟨_, hx, hc_driveHc .., hl, hh', fun d hd => by rw [chan_driveHc_other hd, chan_atCompare], bridgeEdge_frame hx⟩
  case fall =>
    intro c s hc hr ha hh hp hon
    have hx := exec_bridgeEdge_fall hc hr ha hp hon
    obtain ⟨hl, hh'⟩ := pins_driveHc_off (s := atCompare c.toNat (s.chan c.toNat).fall s) ((fbit_atCompare ..).trans hh)
    rw [deadTime_atCompare, chan_atCompare] at hh'
    exact ⟨_, hx, hc_driveHc .., hl, hh', fun d hd => by rw [chan_driveHc_other hd, chan_atCompare], bridgeEdge_frame hx⟩
  case turnOn => exact fun c s hf hd => deadTimeEnd_gives hf hd
  case turnOff => exact fun c s hf hd => deadTimeEnd_gives hf hd
  case starts =>
    intro m count s he hs hf hw
    have hx := exec_syncPoint_of_waiting (count := count) he hs hf hw
    refine ⟨_, hx, ?_, ?_, count_reload .., syncPoint_frame hx⟩
    · rw [status_reload (by decide) (by decide) (by decide), started, fbit_fput (by decide)]
    · rw [wait_of ((reload_touch ..).same .edgeWait rfl), started, fput_edge]
      exact fun h => absurd (List.mem_filter.1 h).2 (by simp)
  case cut =>
    intro m count s he hs hf hw hc
    have hx := exec_syncPoint_of_cut he hs hf hw hc
    refine ⟨_, hx, ?_, count_reload .., syncPoint_frame hx⟩
    rw [status_reload (by decide) (by decide) (by decide), fbit_w1cSet_lo (by decide) (brStatus_lo _)]
  case period =>
    intro m v l s hm h
    have e := landOne_period hm h
    refine ⟨_, exec_shadowWriteLand s, ?_, ?_, landOne_frame s⟩
    · rw [e, fset_edge, arrived]
    · rw [e, fget_fset (by decide)]; rfl
  case riseLands =>
    intro m k v l s hm hk h
    have e := landOne_rise hm hk h
    exact ⟨_, exec_shadowWriteLand s, by rw [e, wr_edge, arrived], by rw [e, rd_wr_same], landOne_frame s⟩
  case fallLands =>
    intro m k v l s hm hk h
    have e := landOne_fall hm hk h
    exact ⟨_, exec_shadowWriteLand s, by rw [e, wr_edge, arrived], by rw [e, rd_wr_same], landOne_frame s⟩
  case commit =>
    intro w m s ha
    obtain ⟨t, e, ht, hacc, hrd⟩ := gated_logged ha (commitEff_one m.toNat s)
    have hx : exec (.commit w m) s = .next t := by rw [exec_commit, e]
    have htouch := execCommit_touch w m s t hx
    refine ⟨t, hx, ?_, htouch.same .edgeChan rfl, hacc, ?_, htouch.only _ (by decide +kernel)⟩
    · rw [fbit_of_rd (hrd _ (brStatus_not_log _)), fbit_fput (by decide)]
    · exact words_of htouch (L := [23, 163, 166, 168, 169, 256, 257, 263, 265]) (by decide +kernel)
        ⟨fun _ k => .inr (.inl (logAddr_of_nvm k)), fun _ k => .inr (.inr (.inl (of_BR_PERIOD k))), fun _ k => .inr (.inr (.inr (.inl (of_BR_STATUS k)))),
         fun _ k => .inr (.inr (.inr (.inr (.inl (of_BR_RISE k))))), fun _ k => .inr (.inr (.inr (.inr (.inr (of_BR_FALL k))))),
         eachCls_log_sed (fun _ k => .inr (.inl k)) fun _ => .inl⟩
  case programme =>
    intro n b es s hb hp
    have hx := exec_edgeProgrammeLand n s
    have ht := execEdgeProgrammeLand_touch n s _ hx
    obtain ⟨hprog, hpend, hoff⟩ := landProgramme_gives hb hp
    refine ⟨_, hx, hprog, hpend, fun h => hoff.trans (decide_eq_true h), fun h => hoff.trans (decide_eq_false h), ?_, ht.only _ (by decide +kernel)⟩
    exact words_of ht (L := [166, 168, 169, 171]) (by decide +kernel)
      ⟨fun _ k => .inl (of_BR_STATUS k), fun _ k => .inr (.inl (of_BR_RISE k)), fun _ k => .inr (.inr (.inl (of_BR_FALL k))),
       fun _ k => .inr (.inr (.inr (of_BR_CH k))), trivial⟩

end Sys2Proof.Laws

/-! PROOF. Encoders, ΣΔ channels and samples (O32): counts and faults of an encoder, SSI frames, ΣΔ outputs and faults, local samples, and the still-water ramp. -/

namespace Sys2Proof.Laws
open Sys2Proof Sys2Proof.Machine R
set_option Elab.async false

/-! ### ΣΔ channels (R270, R271) -/

theorem sdStatus_lo (j : Nat) : SD_STATUS j < 0x701000 := by unfold SD_STATUS; omega

theorem exec_sinc3Output_of_enabled {j : BitVec 4} {bits : List Bool} {s : State} (h : fbit s (SD_CTRL j.toNat) SD_CTRL_EN = true) :
    exec (.sinc3Output j bits) s = .next (wr s (SD_DATA j.toNat) (sinc3 (osr s j.toNat) bits)) := congrArg _ (if_pos h)

/-- A channel's fault: FLT while it lasts, SDFLT until it is cleared. -/
theorem exec_sdFlt_of_sound {j : BitVec 4} {s : State} (h : fbit s (SD_STATUS j.toNat) SD_STATUS_FLT = false) :
    exec (.sdFlt j) s = .next (w1cSet (SD_STATUS j.toNat) SD_STATUS_SDFLT j.toNat (fput s (SD_STATUS j.toNat) SD_STATUS_FLT true)) :=
  congrArg _ (if_neg (by rw [h]; exact Bool.false_ne_true))

theorem exec_sdFltEnd (j : BitVec 4) (s : State) : exec (.sdFltEnd j) s = .next (fput s (SD_STATUS j.toNat) SD_STATUS_FLT false) := rfl

/-! ### Faults of an encoder (R276) -/

theorem encStatus_lo (k : Nat) : ENC_STATUS k < 0x701000 := by unfold ENC_STATUS; omega
theorem encStatus_not_log (k : Nat) : ¬ logAddr (ENC_STATUS k) = true := not_log (by unfold ENC_STATUS; omega)
theorem encCtrl_ne_encStatus (j k : Nat) : ENC_CTRL j ≠ ENC_STATUS k := by unfold ENC_CTRL ENC_STATUS; omega

/-- The status of an encoder with a fault: its own bit, FLT, and no longer VALID. -/
def markFault (k : Nat) (f : Fld) (s : State) : State :=
  fput (w1cSet (ENC_STATUS k) ENC_STATUS_FLT k (w1cSet (ENC_STATUS k) f k s)) (ENC_STATUS k) ENC_STATUS_VALID false

/-- The sources of an encoder with a fault become LOST. -/
def loseEncSources (k : Nat) (s : State) : State := eachN ((slots s).filter fun n => srcType s n == 1 && srcEnc s n == k) loseSrc s

theorem encFail_eq (k : Nat) (f : Fld) (s : State) : encFail k f s =
    eachN (encAxes (loseEncSources k (markFault k f s)) k) (fun n s => raiseCause n 4 s) (loseEncSources k (markFault k f s)) := rfl

theorem markFault_gives {k : Nat} {f : Fld} (s : State) (hf : f.lo = f.hi ∧ f.hi < 32) (hflt : fldApart ENC_STATUS_FLT f) (hv : fldApart ENC_STATUS_VALID f) :
    fbit (markFault k f s) (ENC_STATUS k) f = true ∧ fbit (markFault k f s) (ENC_STATUS k) ENC_STATUS_FLT = true ∧
      fbit (markFault k f s) (ENC_STATUS k) ENC_STATUS_VALID = false := by
  have hok : fldOk f := ⟨hf.1.le, hf.2⟩
  unfold markFault
  refine ⟨?_, ?_, fbit_fput (by decide) _⟩
  · rw [fbit_fput_apart (by decide) hok hv, fbit_w1cSet_apart_lo (by decide) hok hflt (encStatus_lo k), fbit_w1cSet_lo hf (encStatus_lo k)]
  · rw [fbit_fput_apart (by decide) (by decide) (by decide), fbit_w1cSet_lo (by decide) (encStatus_lo k)]

/-- The sources and the axes of an encoder do not show in its own registers. -/
theorem rd_encFail {k a : Nat} {f : Fld} {s : State} (ha : okw k_encStatusEff a) : rd (encFail k f s) a = rd (markFault k f s) a := by
  rw [encFail_eq]
  refine eachN_k (P := fun t : State => rd t a = rd (markFault k f s) a) (fun n t h => ?_) ?_
  · exact ((raiseCause_touch n 4 t).off ha (by decide +kernel)).trans h
  · exact eachN_k (P := fun t : State => rd t a = rd (markFault k f s) a) (fun n t h => ((loseSrc_touch n t).off ha (by decide +kernel)).trans h) rfl

/-- A fault of an encoder shows in its status and leaves its counts. -/
theorem encFail_gives {k : Nat} {f : Fld} (s : State) (hf : f.lo = f.hi ∧ f.hi < 32) (hflt : fldApart ENC_STATUS_FLT f) (hv : fldApart ENC_STATUS_VALID f) :
    fbit (encFail k f s) (ENC_STATUS k) f = true ∧ fbit (encFail k f s) (ENC_STATUS k) ENC_STATUS_FLT = true ∧
      fbit (encFail k f s) (ENC_STATUS k) ENC_STATUS_VALID = false ∧ ∀ j, (encFail k f s).encIf j = s.encIf j := by
  obtain ⟨hown, hfl, hva⟩ := markFault_gives (k := k) s hf hflt hv
  have hst := rd_encFail (k := k) (f := f) (s := s) (okw_ENC_STATUS (i := k) (by decide))
  exact ⟨by rw [fbit_of_rd hst, hown], by rw [fbit_of_rd hst, hfl], by rw [fbit_of_rd hst, hva], encIf_of ((encFail_touch k f s).same .edgeEnc rfl)⟩

/-- The registers that a fault of an encoder may move: its own, those of the sources and axes it feeds, and the sediment queues. -/
def encoderAddr (a : Nat) : Prop :=
  sedAny a ∨ a = MA_STATUS ∨ (∃ i j, a = STATE_TILE i j) ∨ (∃ i, a = AX_STATUS i) ∨ (∃ i, a = AX_FAULT i) ∨ (∃ i, a = PF_STATUS i) ∨
    (∃ i j, a = PF_POS i j) ∨ (∃ i j, a = PF_VEL i j) ∨ (∃ i, a = PF_HOME_STATUS i) ∨ ∃ i, a = ENC_STATUS i

/-- The frame of an event that may fail an encoder. -/
theorem encoder_frame {m : Nat} {s t : State} (ht : Touch m s t) (hL : regBits m = [46, 107, 109, 110, 124, 136, 137, 149, 186, 263, 265])
    (hp : covers (sedParts.append [.lawAx, .motGen, .edgeEnc]) m = true) :
    regsOnly encoderAddr s t ∧
      onlyParts (sedParts.append [.lawAx, .motGen, .edgeEnc]) s t := by
  refine ⟨words_of ht hL ?_, ht.only _ hp⟩
  refine ⟨fun _ k => .inr (.inl (of_MA_STATUS k)), fun _ k => .inr (.inr (.inl (of_STATE_TILE k))), fun _ k => .inr (.inr (.inr (.inl (of_AX_STATUS k)))),
    fun _ k => .inr (.inr (.inr (.inr (.inl (of_AX_FAULT k))))), eachCls_genOff (fun a h => ?_) ⟨fun _ k => ?_, eachCls_sed fun _ => .inl⟩⟩
  · obtain h | h | h | h := h
    · exact .inr (.inr (.inr (.inr (.inr (.inl h)))))
    · exact .inr (.inr (.inr (.inr (.inr (.inr (.inl h))))))
    · exact .inr (.inr (.inr (.inr (.inr (.inr (.inr (.inl h)))))))
    · exact .inr (.inr (.inr (.inr (.inr (.inr (.inr (.inr (.inl h))))))))
  · exact .inr (.inr (.inr (.inr (.inr (.inr (.inr (.inr (.inr (of_ENC_STATUS k)))))))))

/-! ### Quadrature (R273) -/

/-- The quarters of a line between the accepted levels of A and B and the new ones. -/
abbrev quarters (e : EncSt) (a b : Bool) : Nat := (quadrant a b + 4 - quadrant e.a e.b) % 4

theorem encMode_setEncIf (s : State) (j k : Nat) (x : EncSt) : encMode (s.setEncIf j x) k = encMode s k := rfl

section
variable {k : BitVec 2} {a b : Bool} {s : State} (hm : encMode s k.toNat = 1)
include hm

/-- Half a line at once is a fault. -/
theorem exec_encEdge_of_half (hd : quarters (s.encIf k.toNat) a b = 2) :
    exec (.encEdge k a b) s = .next (encFail k.toNat ENC_STATUS_QERR (s.setEncIf k.toNat { s.encIf k.toNat with a := a, b := b })) :=
  congrArg _ ((if_neg (not_not.2 hm)).trans (if_pos hd))

/-- A quarter of a line counts by the direction set. -/
theorem exec_encEdge_of_quarter {up : Int} (h2 : quarters (s.encIf k.toNat) a b ≠ 2)
    (hu : (if quarters (s.encIf k.toNat) a b = 1 then 1 else if quarters (s.encIf k.toNat) a b = 3 then -1 else 0) = up) :
    exec (.encEdge k a b) s = .next ((s.setEncIf k.toNat { s.encIf k.toNat with a := a, b := b }).setEncIf k.toNat
      { s.encIf k.toNat with a := a, b := b, cnt := ux 32 ((s.encIf k.toNat).cnt + if fbit s (ENC_CTRL k.toNat) ENC_CTRL_DIR then -up else up) }) := by
  subst hu
  show execEncEdge k a b s = _
  unfold execEncEdge
  dsimp only
  rw [if_neg (not_not.2 hm), if_neg h2, encIf_setEncIf_same]
  rfl

theorem encEdge_counts {up : Int} (h2 : quarters (s.encIf k.toNat) a b ≠ 2)
    (hu : (if quarters (s.encIf k.toNat) a b = 1 then 1 else if quarters (s.encIf k.toNat) a b = 3 then -1 else 0) = up) :
    ∃ t, exec (.encEdge k a b) s = .next t ∧
      (t.encIf k.toNat).cnt = ux 32 ((s.encIf k.toNat).cnt + if fbit s (ENC_CTRL k.toNat) ENC_CTRL_DIR then -up else up) ∧
      (t.encIf k.toNat).a = a ∧ (t.encIf k.toNat).b = b ∧ t.regs = s.regs := by
  refine ⟨_, exec_encEdge_of_quarter hm h2 hu, ?_, ?_, ?_, ?_⟩
  · rw [encIf_setEncIf_same]
  · rw [encIf_setEncIf_same]
  · rw [encIf_setEncIf_same]
  · rw [setEncIf_regs, setEncIf_regs]

end

/-- The frame of ENC_EDGE. -/
theorem encEdge_frame {k : BitVec 2} {a b : Bool} {s t : State} (hx : exec (.encEdge k a b) s = .next t) :
    regsOnly encoderAddr s t ∧ onlyParts (sedParts.append [.lawAx, .motGen, .edgeEnc]) s t :=
  encoder_frame (execEncEdge_touch k a b s t hx) (by decide +kernel) (by decide +kernel)

/-! ### The index pulse (R158, R273) -/

/-- The count is latched and IDX shows it. -/
def latchIndex (k : Nat) (s : State) : State := w1cSet (ENC_STATUS k) ENC_STATUS_IDX k (wrN s (ENC_INDEX k) (s.encIf k).cnt)

/-- An axis that homes on the index takes the position of the latched count. -/
def indexHomes (cnt n : Nat) (s : State) : State :=
  homeIndex n (sx 64 (ux 64 (if (s.fb n).got then (s.fb n).pos + sdiff 32 cnt (s.fb n).raw * 2 ^ 24 else sx 32 cnt * 2 ^ 24 + (s.fb n).ofs))) s

theorem exec_indexPulse_of_gate {k : BitVec 2} {s : State} (hm : encMode s k.toNat = 1)
    (hz : fbit s (ENC_CTRL k.toNat) ENC_CTRL_ZGATE = true → (s.encIf k.toNat).a = true ∧ (s.encIf k.toNat).b = true) :
    exec (.indexPulse k) s = .next (eachN (encAxes (latchIndex k.toNat s) k.toNat) (indexHomes (s.encIf k.toNat).cnt) (latchIndex k.toNat s)) := by
  refine congrArg _ (if_neg ?_)
  simp only [hm, ne_eq, not_true_eq_false, decide_false, Bool.false_or, Bool.and_eq_true, Bool.not_eq_true', Bool.and_eq_false_iff]
  rintro ⟨hg, h⟩
  obtain ⟨ha, hb⟩ := hz hg
  rw [ha, hb] at h
  simp at h

/-- The registers of an encoder show the latched count and IDX, whatever its axes do with it. -/
theorem indexed_gives (k cnt : Nat) (l : List Nat) (s : State) :
    rd (eachN l (indexHomes cnt) (latchIndex k s)) (ENC_INDEX k) = BitVec.ofNat 32 (s.encIf k).cnt ∧
      fbit (eachN l (indexHomes cnt) (latchIndex k s)) (ENC_STATUS k) ENC_STATUS_IDX = true := by
  have hoff (a : Nat) (ha : okw 0x600000000000000000000000000000000000000000000000000000000000000000000000000000000000000 a) : rd (eachN l (indexHomes cnt) (latchIndex k s)) a = rd (latchIndex k s) a :=
    eachN_k (P := fun t : State => rd t a = rd (latchIndex k s) a) (fun n t h => ((homeIndex_touch n _ t).off ha (by decide +kernel)).trans h) rfl
  refine ⟨?_, ?_⟩
  · rw [hoff _ (okw_ENC_INDEX (by decide)), latchIndex, rd_w1cSet_lo (by unfold ENC_INDEX ENC_STATUS; omega) (by unfold ENC_INDEX; omega)]
    exact rd_wr_same ..
  · rw [fbit_of_rd (hoff _ (okw_ENC_STATUS (by decide))), latchIndex, fbit_w1cSet_lo (by decide) (encStatus_lo k)]

/-! ### SSI frames (R274, R275) -/

/-- The value of a frame: its bits, in binary. -/
def ssiValue (s : State) (k : Nat) (data : BitVec 40) : Nat :=
  if fbit s (ENC_CTRL k) ENC_CTRL_GRAY then fromGray (ssiBits s k) (data.toNat % 2 ^ ssiBits s k) else data.toNat % 2 ^ ssiBits s k

section
variable {k : BitVec 2} {data : BitVec 40} {s : State} (hm : encMode s k.toNat = 2) (hb : (s.encIf k.toNat).busy = true)
include hm hb

/-- The first good frame sets the count; with two good frames and no fault the interface is VALID. -/
theorem exec_ssiFrameEnd_of_first (hs : (s.encIf k.toNat).ssi = none) : exec (.ssiFrameEnd k data false false) s =
    .next (fput (s.setEncIf k.toNat { s.encIf k.toNat with
      busy := false, ssi := some (ssiValue s k.toNat data), good := min 2 ((s.encIf k.toNat).good + 1), cnt := ssiValue s k.toNat data % 2 ^ 32 })
      (ENC_STATUS k.toNat) ENC_STATUS_VALID (min 2 ((s.encIf k.toNat).good + 1) == 2 && !encFault s k.toNat)) := by
  have hjump : ¬ (2 ^ (ssiBits s k.toNat - 2) < (0 : Int)) ∧ ¬ ((0 : Int) < -2 ^ (ssiBits s k.toNat - 2)) := by
    have : (0 : Int) ≤ 2 ^ (ssiBits s k.toNat - 2) := by positivity
    omega
  show execSsiFrameEnd k data false false s = _
  unfold execSsiFrameEnd
  dsimp only
  rw [hs, hb, hm]
  dsimp only
  rw [if_neg (by decide), if_neg]
  · rfl
  · simp only [Bool.false_and, Bool.false_or, Bool.or_eq_true, decide_eq_true_eq, hjump, or_self, not_false_eq_true]

/-- A data line that is low at the start of the frame is a fault. -/
theorem exec_ssiFrameEnd_of_low (err : Bool) : exec (.ssiFrameEnd k data err true) s =
    .next (encFail k.toNat ENC_STATUS_SSIERR (s.setEncIf k.toNat { s.encIf k.toNat with busy := false, good := 0 })) := by
  refine congrArg _ ((if_neg ?_).trans (if_pos ?_))
  · rw [hb, hm]; decide
  · rfl

end

/-- The frame of SSI_FRAME_END. -/
theorem ssiFrameEnd_frame {k : BitVec 2} {data : BitVec 40} {err low : Bool} {s t : State} (hx : exec (.ssiFrameEnd k data err low) s = .next t) :
    regsOnly encoderAddr s t ∧ onlyParts (sedParts.append [.lawAx, .motGen, .edgeEnc]) s t :=
  encoder_frame (execSsiFrameEnd_touch k data err low s t hx) (by decide +kernel) (by decide +kernel)

/-! ### FLT cleared (R276) -/

/-- FLT of a quadrature interface clears at once, and the interface is VALID again. -/
theorem encStatusEff_quadrature {k : Nat} {s : State} (hm : encMode s k = 1) : encStatusEff k 1 s =
    some (fput (wr s (ENC_STATUS k) (rd s (ENC_STATUS k) &&& ~~~1#32)) (ENC_STATUS k) ENC_STATUS_VALID true) := by
  have hmode (v : Word) : encMode (wr s (ENC_STATUS k) v) k = 1 := (fget_wr_other (encCtrl_ne_encStatus _ _) v).trans hm
  have hbit : wbit (1 : Word) 0 = true := by decide
  unfold encStatusEff
  simp only [hm, hmode, hbit, Nat.reduceBEq, Bool.and_false, Bool.false_and, Bool.true_or, Bool.false_eq_true, if_false, if_true]
  rfl

theorem exec_encFltClear (w : Who) (k : BitVec 2) (s : State) :
    exec (.encFltClear w k) s = .next (gated w (ENC_STATUS k.toNat) 1 (encStatusEff k.toNat 1) s) := rfl

/-- Bit 0 masked out of a register. -/
theorem fbit_clear_bit0 (s : State) (a : Nat) (w : Word) : fbit (wr s a (w &&& ~~~1#32)) a ⟨0, 0⟩ = false := by
  rw [fbit_testBit, rd_wr_same, BitVec.testBit_toNat]
  simp

/-! ### Local samples (R271, R272) -/

/-- The last two steps of LOCAL_SAMPLE: the axis is released for the present cycle. -/
def releaseNow (k ns : Nat) (missing : Bool) (s : State) : State := release k (cycNow s) (instant s (ns * 256)) missing s

theorem fb_releaseNow (k ns : Nat) (missing : Bool) (s : State) (n : Nat) : (releaseNow k ns missing s).fb n = s.fb n :=
  fb_of ((release_touch ..).same .coreFb rfl) n

theorem fb_fbPresent_same (n : Nat) (s : State) : (fbPresent n s).fb n = { s.fb n with miss := 0 } := by
  unfold fbPresent
  rw [fb_of ((endCause_touch ..).same .coreFb rfl), fb_setFb_same]

theorem fb_fbMissing_same (n : Nat) (s : State) : (fbMissing n s).fb n = { s.fb n with miss := (s.fb n).miss + 1 } := fb_setFb_same ..

section
variable {n : Axis} {ia ib vb : List Bool} {ns ja jb : Nat} {s : State} (hu : (s.ctx n.toNat).used = true) (hc : (s.ctx n.toNat).cls = 0)
  (hb : (s.ctx n.toNat).bridge.isSome = true) (hj : (s.ctx n.toNat).sd = [ja, jb])
include hu hc hb hj

/-- A sample of sound channels takes both sinc3 outputs. -/
theorem exec_localSample_of_sound (hv : (s.ctx n.toNat).sdBus = none) (he : (s.ctx n.toNat).enc = none) (hl : levelOne s = false)
    (hfa : fbit s (SD_STATUS ja) SD_STATUS_FLT = false) (hfb : fbit s (SD_STATUS jb) SD_STATUS_FLT = false) :
    exec (.localSample n ia ib vb ns) s = .next (releaseNow n.toNat ns false (fbPresent n.toNat (s.setFb n.toNat
      { s.fb n.toNat with v1 := (sinc3 (osr s ja) ia).toInt, v2 := (sinc3 (osr s jb) ib).toInt }))) := by
  show execLocalSample n ia ib vb ns s = _
  unfold execLocalSample
  dsimp only
  rw [hu, hc, hb, hj, hv, he, hl]
  simp only [List.getD_cons_zero, List.getD_cons_succ, Option.getD_none, List.any_cons, List.any_nil, hfa, hfb, Bool.or_self, if_false, Bool.false_eq_true]
  rfl

/-- A sample of a channel at FLT is missing. -/
theorem exec_localSample_of_fault (hfa : fbit s (SD_STATUS ja) SD_STATUS_FLT = true) :
    exec (.localSample n ia ib vb ns) s = .next (releaseNow n.toNat ns true (fbMissing n.toNat s)) := by
  show execLocalSample n ia ib vb ns s = _
  unfold execLocalSample
  dsimp only
  rw [hu, hc, hb, hj]
  simp only [List.getD_cons_zero, List.any_cons, hfa, Bool.true_or, if_true]
  rfl

end

/-- The frame of LOCAL_SAMPLE. -/
theorem localSample_frame {n : Axis} {ia ib vb : List Bool} {ns : Nat} {s t : State} (hx : exec (.localSample n ia ib vb ns) s = .next t) :
    regsOnly (fun a => blockNo a ∈ [1, 2, 6, 11, 14]) s t ∧ onlyParts (sedParts.append [.coreFb, .coreRegion, .schReady, .schUnit, .schOvr, .schOvrHere, .lawAx, .lane, .netAx, .pairRseq, .pairRecs, .hostLog, .hostSeq, .hostSub, .hostLost, .hostFi]) s t := by
  have ht := execLocalSample_touch n ia ib vb ns s t hx
  exact ⟨ht.blocks _ (by decide +kernel), ht.only _ (by decide +kernel)⟩

/-! ### The still-water ramp (R278) -/

theorem exec_stillWaterStart_of_due {n : Axis} {s : State} (he : fbit s (SW_CTRL n.toNat) SW_CTRL_EN = true) (hk : (tget {} s.edge.still n.toNat).k = 0)
    (hn : 0 < (tget {} s.edge.still n.toNat).n) (hd : stillDue s n.toNat (tget {} s.edge.still n.toNat).n = true) :
    exec (.stillWaterStart n) s = .next (putStill n.toNat { tget {} s.edge.still n.toNat with armed := true } s) := by
  refine congrArg _ (if_pos ?_)
  rw [stillReg, he, hk, hd, decide_eq_true hn]
  rfl

theorem still_putStill (n : Nat) (x : Still) (s : State) : tget {} (putStill n x s).edge.still n = x := by
  rw [putStill, fput_edge]
  exact (tget_tset ..).trans (if_pos rfl)

/-- Settles O32: each event by the equation for its condition; a fault of an encoder by `encFail_gives`. -/
theorem encodersAndSamplesAct : Obligations.EncodersAndSamplesAct := by
  unfold Obligations.EncodersAndSamplesAct
  refine ⟨?output, ?fault, ?faultEnds, ?up, ?down, ?half, ?index, ?first, ?low, ?clear, ?sample, ?missing, ?still⟩
  case output =>
    intro j bits s h
    have hx := exec_sinc3Output_of_enabled (bits := bits) h
    have ht := execSinc3Output_touch j bits s _ hx
    exact ⟨_, hx, rd_wr_same .., words_of ht (L := [189]) (by decide +kernel) ⟨fun _ k => of_SD_DATA k, trivial⟩, ht.only _ (by decide +kernel)⟩
  case fault =>
    intro j s h
    have hx := exec_sdFlt_of_sound h
    have ht := execSdFlt_touch j s _ hx
    refine ⟨_, hx, ?_, fbit_w1cSet_lo (by decide) (sdStatus_lo _), ?_, ht.only _ (by decide +kernel)⟩
    · rw [fbit_w1cSet_apart_lo (by decide) (by decide) (by decide) (sdStatus_lo _), fbit_fput (by decide)]
    · exact words_of ht (L := [190, 263, 265]) (by decide +kernel) ⟨fun _ k => .inr (of_SD_STATUS k), eachCls_sed fun _ => .inl⟩
  case faultEnds =>
    intro j s
    have hx := exec_sdFltEnd j s
    have ht := execSdFltEnd_touch j s _ hx
    exact ⟨_, hx, fbit_fput (by decide) _, fbit_fput_apart (by decide) (by decide) (by decide) _,
      words_of ht (L := [190]) (by decide +kernel) ⟨fun _ k => of_SD_STATUS k, trivial⟩, ht.only _ (by decide +kernel)⟩
  case up =>
    intro k a b s hm hd
    obtain ⟨t, hx, hcnt, ha, hb, hr⟩ := encEdge_counts (k := k) (a := a) (b := b) (up := 1) hm (by rw [quarters, hd]; decide) (by rw [quarters, hd]; rfl)
    exact ⟨t, hx, hcnt, ha, hb, hr, encEdge_frame hx⟩
  case down =>
    intro k a b s hm hd
    obtain ⟨t, hx, hcnt, ha, hb, hr⟩ := encEdge_counts (k := k) (a := a) (b := b) (up := -1) hm (by rw [quarters, hd]; decide) (by rw [quarters, hd]; rfl)
    exact ⟨t, hx, by rw [hcnt, neg_neg], ha, hb, hr, encEdge_frame hx⟩
  case half =>
    intro k a b s hm hd
    have hx := exec_encEdge_of_half (a := a) (b := b) hm hd
    obtain ⟨hq, hfl, hva, hif⟩ := encFail_gives (k := k.toNat) (f := ENC_STATUS_QERR) (s.setEncIf k.toNat { s.encIf k.toNat with a := a, b := b })
      (by decide) (by decide) (by decide)
    exact ⟨_, hx, hq, hfl, hva, by rw [hif, encIf_setEncIf_same], encEdge_frame hx⟩
  case index =>
    intro k s hm hz
    have hx := exec_indexPulse_of_gate hm hz
    have ht := execIndexPulse_touch k s _ hx
    obtain ⟨hi, hs⟩ := indexed_gives k.toNat (s.encIf k.toNat).cnt (encAxes (latchIndex k.toNat s) k.toNat) s
    refine ⟨_, hx, hi, hs, ?_, ht.only _ (by decide +kernel)⟩
    exact words_of ht (L := [107, 124, 135, 136, 149, 185, 186, 263, 265]) (by decide +kernel)
      ⟨fun _ k => .inr (.inl (of_STATE_TILE k)), fun _ k => .inr (.inr (.inl (of_PF_STATUS k))), fun _ k => .inr (.inr (.inr (.inl (of_PF_STOP_POS k)))),
       fun _ k => .inr (.inr (.inr (.inr (.inl (of_PF_POS k))))), fun _ k => .inr (.inr (.inr (.inr (.inr (.inl (of_PF_HOME_STATUS k)))))),
       fun _ k => .inr (.inr (.inr (.inr (.inr (.inr (.inl (of_ENC_INDEX k))))))), fun _ k => .inr (.inr (.inr (.inr (.inr (.inr (.inr (of_ENC_STATUS k))))))),
       eachCls_sed fun _ => .inl⟩
  case first =>
    intro k data v s hm hb hs hv
    have hx := exec_ssiFrameEnd_of_first (data := data) hm hb hs
    rw [← show v = ssiValue s k.toNat data from hv] at hx
    refine ⟨_, hx, ?_, ?_, ?_, ?_, ssiFrameEnd_frame hx⟩
    all_goals rw [fput, fset, encIf_wr, encIf_setEncIf_same]
  case low =>
    intro k data err s hm hb
    have hx := exec_ssiFrameEnd_of_low (data := data) hm hb err
    obtain ⟨he, hfl, hva, hif⟩ := encFail_gives (k := k.toNat) (f := ENC_STATUS_SSIERR) (s.setEncIf k.toNat { s.encIf k.toNat with busy := false, good := 0 })
      (by decide) (by decide) (by decide)
    exact ⟨_, hx, he, hfl, hva, by rw [hif, encIf_setEncIf_same], by rw [hif, encIf_setEncIf_same], ssiFrameEnd_frame hx⟩
  case clear =>
    intro w k s ha hm
    obtain ⟨t, e, -, hacc, hrd⟩ := gated_logged ha (encStatusEff_quadrature hm)
    have hx : exec (.encFltClear w k) s = .next t := by rw [exec_encFltClear, e]
    have ht := execEncFltClear_touch w k s t hx
    have hst := hrd _ (encStatus_not_log k.toNat)
    refine ⟨t, hx, ?_, ?_, hacc, ?_, ht.only _ (by decide +kernel)⟩
    · rw [fbit_of_rd hst, fbit_fput_apart (by decide) (by decide) (by decide)]
      exact fbit_clear_bit0 ..
    · rw [fbit_of_rd hst, fbit_fput (by decide)]
    · exact words_of ht (L := [23, 186, 256, 257, 263, 265]) (by decide +kernel)
        ⟨fun _ k => .inr (.inl (logAddr_of_nvm k)), fun _ k => .inr (.inr (of_ENC_STATUS k)), eachCls_log_sed (fun _ k => .inr (.inl k)) fun _ => .inl⟩
  case sample =>
    intro n ia ib vb ns ja jb s hu hc hb hj hv he hl hfa hfb
    have hx := exec_localSample_of_sound (ia := ia) (ib := ib) (vb := vb) (ns := ns) hu hc hb hj hv he hl hfa hfb
    refine ⟨_, hx, ?_, ?_, ?_, localSample_frame hx⟩
    all_goals rw [fb_releaseNow, fb_fbPresent_same, fb_setFb_same]
  case missing =>
    intro n ia ib vb ns ja jb s hu hc hb hj hfa
    have hx := exec_localSample_of_fault (ia := ia) (ib := ib) (vb := vb) (ns := ns) hu hc hb hj hfa
    exact ⟨_, hx, by rw [fb_releaseNow, fb_fbMissing_same], localSample_frame hx⟩
  case still =>
    intro n s he hk hn hd
    have hx := exec_stillWaterStart_of_due he hk hn hd
    have ht := execStillWaterStart_touch n s _ hx
    exact ⟨_, hx, still_putStill .., words_of ht (L := [172]) (by decide +kernel) ⟨fun _ k => of_SW_CTRL k, trivial⟩, ht.only _ (by decide +kernel)⟩

end Sys2Proof.Laws

/-! PROOF. Network links (O34): the state of a port as its link starts, synchronises, falls back, is lost and is tried again. -/

namespace Sys2Proof.Laws
open Sys2Proof Sys2Proof.Machine R

/-! ### The registers of a port -/

theorem portStatus_lo (p : Nat) : PORT_STATUS p < 0x701000 := by unfold PORT_STATUS; omega
theorem portStatus_not_log (p : Nat) : ¬ logAddr (PORT_STATUS p) = true := not_log (by unfold PORT_STATUS; omega)

theorem netPort_injective : Function.Injective NetPort.n := by intro p q; cases p <;> cases q <;> decide
theorem netPort_ne_mir {p : NetPort} (h : p ≠ .mir) : p.n ≠ 4 := fun e => h (netPort_injective e)

theorem lstate_of_rd {s t : State} {p : Nat} (h : rd t (PORT_STATUS p) = rd s (PORT_STATUS p)) : lstate t p = lstate s p := fget_of_rd h

theorem lstate_setLstate {p x : Nat} (hx : x < 16) (s : State) : lstate (setLstate p x s) p = x :=
  (fget_fset (by decide) x).trans (Nat.mod_eq_of_lt hx)

theorem link_setLstate (p x q : Nat) (s : State) : (setLstate p x s).link q = s.link q := link_wr ..

/-- A field of PORT_STATUS beside STATE, VER and COMPACT. -/
abbrev portFlag (f : Fld) : Prop := fldOk f ∧ fldApart PORT_STATUS_STATE f ∧ fldApart PORT_STATUS_VER f ∧ fldApart PORT_STATUS_COMPACT f

/-- A footprint of PORT_STATUS alone. -/
theorem portStatus_words {m : Nat} {s t : State} (h : Touch m s t) (hL : regBits m = [87]) : regsOnly (fun a => ∃ i, a = PORT_STATUS i) s t :=
  words_of h hL ⟨fun _ k => of_PORT_STATUS k, trivial⟩

/-- A footprint of the links, a segment's state and the mirror link's. -/
theorem fallback_words {m : Nat} {s t : State} (h : Touch m s t) (hL : regBits m = [82, 87, 217, 263, 265]) :
    regsOnly (fun a => sedAny a ∨ a = NET_STATE ∨ (∃ i, a = PORT_STATUS i) ∨ a = PAIR_STATUS) s t :=
  words_of h hL ⟨fun _ k => .inr (.inl (of_NET_STATE k)), fun _ k => .inr (.inr (.inl (of_PORT_STATUS k))),
    fun _ k => .inr (.inr (.inr (of_PAIR_STATUS k))), eachCls_sed fun _ => .inl⟩

/-! ### STATE, VER and COMPACT set together -/

/-- A port shows a version, a state and whether its frames are compact. -/
def showLink (p ver st : Nat) (s : State) : State := showCompact p (setLstate p st (fset s (PORT_STATUS p) PORT_STATUS_VER ver))

theorem showLink_gives {p ver st : Nat} (hv : ver < 4) (hst : st < 16) (s : State) :
    lstate (showLink p ver st s) p = st ∧ fget (showLink p ver st s) (PORT_STATUS p) PORT_STATUS_VER = ver ∧
      ∀ f, portFlag f → fget (showLink p ver st s) (PORT_STATUS p) f = fget s (PORT_STATUS p) f := by
  unfold showLink showCompact fput
  refine ⟨?_, ?_, fun f ⟨hf, h1, h2, h3⟩ => ?_⟩
  · exact (fget_fset_apart (by decide) (by decide) (by decide) _).trans (lstate_setLstate hst _)
  · rw [fget_fset_apart (by decide) (by decide) (by decide), setLstate, fget_fset_apart (by decide) (by decide) (by decide), fget_fset (by decide)]
    exact Nat.mod_eq_of_lt hv
  · rw [fget_fset_apart (by decide) hf h3, setLstate, fget_fset_apart (by decide) hf h1, fget_fset_apart (by decide) hf h2]

/-! ### A port goes down (R291, R375) -/

theorem rd_mirDown (p : Nat) (s : State) : rd (mirDown s) (PORT_STATUS p) = rd s (PORT_STATUS p) :=
  (mirDown_touch s).off (okw_PORT_STATUS (m := k_setLstate) (by decide)) (by decide +kernel)

/-- What the link of a port keeps when it goes down: all but the bring-up and the delay exchange. -/
def freshLink (x : LinkSt) : LinkSt := { x with last := none, eq := 0, swRx := false, swTx := 0, dreq := none }

/-- A port down, before the head pair learns of it. -/
def downed (p : Nat) (s : State) : State :=
  showCompact p (fset (setLstate p 0 (s.setLink p (freshLink (s.link p)))) (PORT_STATUS p) PORT_STATUS_VER 0)

theorem portDown_eq (p : Nat) (s : State) : portDown p s = if p = 4 then mirDown (downed p s) else downed p s := rfl

theorem rd_portDown (p : Nat) (s : State) : rd (portDown p s) (PORT_STATUS p) = rd (downed p s) (PORT_STATUS p) := by
  rw [portDown_eq]
  split
  · exact rd_mirDown p _
  · rfl

theorem portDown_gives (p : Nat) (s : State) :
    lstate (portDown p s) p = 0 ∧ fget (portDown p s) (PORT_STATUS p) PORT_STATUS_VER = 0 ∧ (portDown p s).link p = freshLink (s.link p) ∧
      ∀ f, portFlag f → fget (portDown p s) (PORT_STATUS p) f = fget s (PORT_STATUS p) f := by
  have hrd := rd_portDown p s
  refine ⟨?_, ?_, ?_, fun f ⟨hf, h1, h2, h3⟩ => ?_⟩
  · rw [lstate_of_rd hrd, lstate, downed, showCompact, fput, fget_fset_apart (by decide) (by decide) (by decide), fget_fset_apart (by decide) (by decide) (by decide)]
    exact lstate_setLstate (by decide) _
  · rw [fget_of_rd hrd, downed, showCompact, fput, fget_fset_apart (by decide) (by decide) (by decide), fget_fset (by decide)]
    rfl
  · have hd : (downed p s).link p = freshLink (s.link p) := (link_wr ..).trans ((link_wr ..).trans ((link_wr ..).trans (link_setLink_same ..)))
    rw [portDown_eq]
    split
    · exact (link_of ((mirDown_touch _).same .netLink rfl) p).trans hd
    · exact hd
  · rw [fget_of_rd hrd, downed, showCompact, fput, fget_fset_apart (by decide) hf h3, fget_fset_apart (by decide) hf h2, setLstate,
      fget_fset_apart (by decide) hf h1]
    exact fget_of_rd (rd_setLink ..)

/-! ### A link comes up (R290, R292) -/

theorem hopOk_of_net {s t : State} (h : t.net = s.net) (p ver : Nat) : hopOk t p ver = hopOk s p ver := by unfold hopOk; rw [h]

/-- The segment of a port that has come up: in minimal mode it serves, else it may leave LINKS. -/
def segmentUp (g : Nat) (s : State) : State :=
  if fbit s BOOT_STATUS BOOT_STATUS_MINIMAL && segState s g = 0 then setSegState g 8 s else linksDone g s

theorem rd_segmentUp (p g : Nat) (s : State) : rd (segmentUp g s) (PORT_STATUS p) = rd s (PORT_STATUS p) := by
  have hok := okw_PORT_STATUS (m := k_setLstate) (i := p) (by decide)
  unfold segmentUp
  split
  · exact (setSegState_touch ..).off hok (by decide +kernel)
  · exact (linksDone_touch ..).off hok (by decide +kernel)

/-- A segment port that has come up tells its segment; MIR has none. -/
def tellSegment (p : Nat) (s : State) : State :=
  if p < 4 then segmentUp (p / 2) (s.setSeg (p / 2) { s.seg (p / 2) with linkUp := true }) else s

theorem rd_tellSegment (p : Nat) (s : State) : rd (tellSegment p s) (PORT_STATUS p) = rd s (PORT_STATUS p) := by
  unfold tellSegment
  split
  · exact (rd_segmentUp ..).trans (rd_setSeg ..)
  · rfl

theorem comeUp_of_hopOk {p ver : Nat} {s : State} (hop : hopOk s p ver = true) : comeUp p ver s = tellSegment p (showLink p ver 6 s) := by
  have e : comeUp p ver s =
      tellSegment p (showLink p ver (if hopOk (fset s (PORT_STATUS p) PORT_STATUS_VER ver) p ver then 6 else 7) s) := rfl
  rw [e, hopOk_of_net (fset_net ..), hop, if_pos rfl]

theorem comeUp_gives {p ver : Nat} {s : State} (hv : ver < 4) (hop : hopOk s p ver = true) :
    lstate (comeUp p ver s) p = 6 ∧ fget (comeUp p ver s) (PORT_STATUS p) PORT_STATUS_VER = ver ∧
      ∀ f, portFlag f → fget (comeUp p ver s) (PORT_STATUS p) f = fget s (PORT_STATUS p) f := by
  rw [comeUp_of_hopOk hop]
  have hrd := rd_tellSegment p (showLink p ver 6 s)
  obtain ⟨hst, hver, hflag⟩ := showLink_gives (p := p) hv (by decide : 6 < 16) s
  exact ⟨(lstate_of_rd hrd).trans hst, (fget_of_rd hrd).trans hver, fun f hf => (fget_of_rd hrd).trans (hflag f hf)⟩

/-- MIR is held down instead (R293). -/
theorem fallback_mir (s : State) : fallback 4 s = portDown 4 (s.setLink 4 { s.link 4 with hold := true }) := if_pos rfl

/-- A segment port falls back to HN1 and says so (R291). -/
theorem fallback_gives {p : Nat} {s : State} (hp : p ≠ 4) (hop : hopOk s p 1 = true) :
    lstate (fallback p s) p = 6 ∧ fget (fallback p s) (PORT_STATUS p) PORT_STATUS_VER = 1 ∧
      fbit (fallback p s) (PORT_STATUS p) PORT_STATUS_FALLBACK = true := by
  have e : fallback p s = comeUp p 1 (w1cSet (PORT_STATUS p) PORT_STATUS_FALLBACK p s) := if_neg hp
  obtain ⟨hst, hver, hflag⟩ := comeUp_gives (p := p) (ver := 1) (by decide) ((hopOk_of_net (w1cSet_net (PORT_STATUS p) p PORT_STATUS_FALLBACK s) p 1).trans hop)
  rw [e]
  refine ⟨hst, hver, ?_⟩
  rw [fbit, hflag _ (by decide), fget_w1cSet_lo (by decide) (portStatus_lo p)]
  rfl

/-! ### The events of a link (Table 8.2) -/

section
variable {p : NetPort} {s : State}

theorem exec_linkStart_of_enabled (h0 : lstate s p.n = 0) (he : fbit s (PORT_CTRL p.n) PORT_CTRL_EN = true) (hh : (s.link p.n).hold = false) :
    exec (.linkStart p) s = .next (setLstate p.n 1 (s.setLink p.n { s.link p.n with etype := etypeOf s })) :=
  congrArg Host.Outcome.next (if_pos (by rw [h0, he, hh]; rfl))

/-- Synchronisation at 8 ns is ADV, at 3.2 ns CONFIRM; the equal frames are counted anew. -/
theorem exec_linkSync_of_sync8 (h : lstate s p.n = 1) :
    exec (.linkSync p) s = .next (setLstate p.n 2 (s.setLink p.n { s.link p.n with last := none, eq := 0, swRx := false, swTx := 0 })) :=
  congrArg Host.Outcome.next (if_pos h)

theorem exec_linkSync_of_sync25 (h : lstate s p.n = 4) :
    exec (.linkSync p) s = .next (setLstate p.n 5 (s.setLink p.n { s.link p.n with last := none, eq := 0, swRx := false, swTx := 0 })) :=
  congrArg Host.Outcome.next ((if_neg (by omega)).trans (if_pos h))

theorem exec_linkSyncTimeout_of_sync8 (h : lstate s p.n = 1) : exec (.linkSyncTimeout p) s = .next (portDown p.n s) := congrArg Host.Outcome.next (if_pos h)

theorem exec_linkSyncTimeout_of_sync25 (h : lstate s p.n = 4) : exec (.linkSyncTimeout p) s = .next (fallback p.n s) :=
  congrArg Host.Outcome.next ((if_neg (by omega)).trans (if_pos h))

theorem exec_linkFallback_of (h : lstate s p.n = 4 ∨ lstate s p.n = 5) : exec (.linkFallback p) s = .next (fallback p.n s) :=
  congrArg Host.Outcome.next (if_pos (by simpa using h))

theorem exec_linkAdvTimeout_of_adv (h : lstate s p.n = 2) : exec (.linkAdvTimeout p) s = .next (portDown p.n s) := congrArg Host.Outcome.next (if_pos h)

theorem exec_linkRateSwitch_of_done (h : lstate s p.n = 3) (hr : (s.link p.n).swRx = true) (ht : 2 ≤ (s.link p.n).swTx) :
    exec (.linkRateSwitch p) s = .next (setLstate p.n 4 s) :=
  congrArg Host.Outcome.next (if_pos (by rw [h, switchDone, hr, decide_eq_true ht]; rfl))

theorem exec_linkLost_of_synced (h : 2 ≤ lstate s p.n) : exec (.linkLost p) s = .next (portDown p.n
    (w1cSet (PORT_STATUS p.n) PORT_STATUS_LINKDROP p.n (wrN s (DROPS p.n) (rdN s (DROPS p.n) + 1)))) :=
  congrArg Host.Outcome.next (if_neg (by omega))

end

theorem exec_mirRetry_of_held {s : State} (h0 : lstate s 4 = 0) (he : fbit s (PORT_CTRL 4) PORT_CTRL_EN = true) (hh : (s.link 4).hold = true) :
    exec .mirRetry s = .next (setLstate 4 1 (s.setLink 4 { s.link 4 with hold := false })) :=
  congrArg Host.Outcome.next (if_pos (by rw [h0, he, hh]; rfl))

/-- RETRY frees a held port and takes it down. -/
theorem portCmdEff_retry (p : Nat) (s : State) : portCmdEff p 1 s = some (portDown p (s.setLink p { s.link p with hold := false })) :=
  congrArg some (if_pos (by decide))

theorem exec_retry (w : Who) (p : NetPort) (s : State) : exec (.retry w p) s = .next (gated w (PORT_CMD p.n) 1 (portCmdEff p.n 1) s) := rfl

/-- Settles O34: each event by the equation for its condition, then what going down, coming up or falling back leaves. -/
theorem linkBringUpActs : Obligations.LinkBringUpActs := by
  unfold Obligations.LinkBringUpActs
  refine ⟨?start, ?sync8, ?sync25, ?timeout8, ?timeout25, ?falls, ?mirFalls, ?adv, ?rate, ?lost, ?retry, ?mirRetry⟩
  case start =>
    intro p s h0 he hh
    have hx := exec_linkStart_of_enabled h0 he hh
    have ht := execLinkStart_touch p s _ hx
    exact ⟨_, hx, lstate_setLstate (by decide) _, portStatus_words ht (by decide +kernel), ht.only _ (by decide +kernel)⟩
  case sync8 =>
    intro p s h
    have hx := exec_linkSync_of_sync8 h
    have ht := execLinkSync_touch p s _ hx
    exact ⟨_, hx, lstate_setLstate (by decide) _, portStatus_words ht (by decide +kernel), ht.only _ (by decide +kernel)⟩
  case sync25 =>
    intro p s h
    have hx := exec_linkSync_of_sync25 h
    have ht := execLinkSync_touch p s _ hx
    exact ⟨_, hx, lstate_setLstate (by decide) _, portStatus_words ht (by decide +kernel), ht.only _ (by decide +kernel)⟩
  case timeout8 =>
    intro p s h
    have hx := exec_linkSyncTimeout_of_sync8 h
    have ht := execLinkSyncTimeout_touch p s _ hx
    obtain ⟨hst, hver, -, -⟩ := portDown_gives p.n s
    exact ⟨_, hx, hst, hver, fallback_words ht (by decide +kernel), ht.only _ (by decide +kernel)⟩
  case timeout25 =>
    intro p s h hp hop
    have hx := exec_linkSyncTimeout_of_sync25 h
    have ht := execLinkSyncTimeout_touch p s _ hx
    obtain ⟨hst, hver, hfb⟩ := fallback_gives (netPort_ne_mir hp) hop
    exact ⟨_, hx, hst, hver, hfb, fallback_words ht (by decide +kernel), ht.only _ (by decide +kernel)⟩
  case falls =>
    intro p s h hp hop
    have hx := exec_linkFallback_of h
    have ht := execLinkFallback_touch p s _ hx
    obtain ⟨hst, hver, hfb⟩ := fallback_gives (netPort_ne_mir hp) hop
    exact ⟨_, hx, hst, hver, hfb, fallback_words ht (by decide +kernel), ht.only _ (by decide +kernel)⟩
  case mirFalls =>
    intro s h
    have hx : exec (.linkFallback .mir) s = .next (fallback 4 s) := exec_linkFallback_of h
    rw [fallback_mir] at hx
    have ht := execLinkFallback_touch .mir s _ hx
    obtain ⟨hst, -, hlink, -⟩ := portDown_gives 4 (s.setLink 4 { s.link 4 with hold := true })
    refine ⟨_, hx, hst, ?_, fallback_words ht (by decide +kernel), ht.only _ (by decide +kernel)⟩
    exact (congrArg LinkSt.hold hlink).trans (congrArg LinkSt.hold (link_setLink_same ..))
  case adv =>
    intro p s h
    have hx := exec_linkAdvTimeout_of_adv h
    have ht := execLinkAdvTimeout_touch p s _ hx
    refine ⟨_, hx, (portDown_gives p.n s).1, ?_, ht.only _ (by decide +kernel)⟩
    exact words_of ht (L := [87, 217, 263, 265]) (by decide +kernel)
      ⟨fun _ k => .inr (.inl (of_PORT_STATUS k)), fun _ k => .inr (.inr (of_PAIR_STATUS k)), eachCls_sed fun _ => .inl⟩
  case rate =>
    intro p s h hr ht
    have hx := exec_linkRateSwitch_of_done h hr ht
    have ht := execLinkRateSwitch_touch p s _ hx
    exact ⟨_, hx, lstate_setLstate (by decide) _, portStatus_words ht (by decide +kernel), ht.only _ (by decide +kernel)⟩
  case lost =>
    intro p s h
    have hx := exec_linkLost_of_synced h
    have ht := execLinkLost_touch p s _ hx
    obtain ⟨hst, -, -, hflag⟩ := portDown_gives p.n (w1cSet (PORT_STATUS p.n) PORT_STATUS_LINKDROP p.n (wrN s (DROPS p.n) (rdN s (DROPS p.n) + 1)))
    refine ⟨_, hx, hst, ?_, ?_, ht.only _ (by decide +kernel)⟩
    · rw [fbit, hflag _ (by decide), fget_w1cSet_lo (by decide) (portStatus_lo _)]
      rfl
    · exact words_of ht (L := [87, 98, 217, 263, 265]) (by decide +kernel)
        ⟨fun _ k => .inr (.inl (of_PORT_STATUS k)), fun _ k => .inr (.inr (.inl (of_DROPS k))), fun _ k => .inr (.inr (.inr (of_PAIR_STATUS k))),
         eachCls_sed fun _ => .inl⟩
  case retry =>
    intro w p s ha
    obtain ⟨t, e, hlog, hacc, hrd⟩ := gated_logged ha (portCmdEff_retry p.n s)
    have hx : exec (.retry w p) s = .next t := by rw [exec_retry, e]
    have ht := execRetry_touch w p s t hx
    obtain ⟨hst, -, hlink, -⟩ := portDown_gives p.n (s.setLink p.n { s.link p.n with hold := false })
    refine ⟨t, hx, (lstate_of_rd (hrd _ (portStatus_not_log _))).trans hst, ?_, hacc, ?_, ht.only _ (by decide +kernel)⟩
    · rw [link_of (hlog.same .netLink rfl), hlink, link_setLink_same]
      rfl
    · exact words_of ht (L := [23, 87, 217, 256, 257, 263, 265]) (by decide +kernel)
        ⟨fun _ k => .inr (.inl (logAddr_of_nvm k)), fun _ k => .inr (.inr (.inl (of_PORT_STATUS k))), fun _ k => .inr (.inr (.inr (of_PAIR_STATUS k))),
         eachCls_log_sed (fun _ k => .inr (.inl k)) fun _ => .inl⟩
  case mirRetry =>
    intro s h0 he hh
    have hx := exec_mirRetry_of_held h0 he hh
    have ht := execMirRetry_touch s _ hx
    refine ⟨_, hx, lstate_setLstate (by decide) _, ?_, portStatus_words ht (by decide +kernel), ht.only _ (by decide +kernel)⟩
    rw [link_setLstate, link_setLink_same]

end Sys2Proof.Laws

/-! PROOF. Link frames (O35): the frames a port sends and takes, bad frames, feedback windows and missing samples, trains and direct commands. -/

namespace Sys2Proof.Laws
open Sys2Proof Sys2Proof.Machine R

/-! ### Frames that leave a port (R294, R299) -/

/-- A counter that counts one more. -/
theorem rd_count (s t : State) (a : Nat) : rd (wrN t a (rdN s a + 1)) a = rd s a + 1 := by
  rw [wrN, rd_wr_same, rdN, BitVec.ofNat_add, BitVec.ofNat_toNat, BitVec.setWidth_eq]
  rfl

theorem link_sendOn_same (p : Nat) (f : TxFrame) (s : State) : (sendOn p f s).link p = { s.link p with tx := some f } :=
  (link_wr ..).trans (link_setLink_same ..)

theorem link_sendOn_other {p q : Nat} (h : q ≠ p) (f : TxFrame) (s : State) : (sendOn p f s).link q = s.link q :=
  (link_wr ..).trans ((link_setLink ..).trans (if_neg h))

/-- The LINK frame of a port (Table 8.13), with SW or without. -/
def linkFrame (p : Nat) (sw : Bool) (s : State) : TxFrame :=
  stdFrame 0xFD (haddr s) 0x88B5 (halomHdr tLINK 2 (haddr s) (linkPay s p sw).length (haddr s % 2 == 1) (p % 2 == 1)) (linkPay s p sw)

theorem sendHop_link {p : Nat} {s : State} (h : lstate s p ≠ 0) (sw : Bool) : sendHop p tLINK (linkPay s p sw) s = sendOn p (linkFrame p sw s) s :=
  if_neg h

section
variable {p : NetPort} {s : State}

theorem exec_linkFrameTx_of_adv (h : lstate s p.n = 2 ∨ lstate s p.n = 5) : exec (.linkFrameTx p) s = .next (sendOn p.n (linkFrame p.n false s) s) := by
  rw [← sendHop_link (by omega)]
  exact congrArg Host.Outcome.next (if_pos (by simpa using h))

/-- In SWITCH the frames sent with SW are counted, up to the two it asks for. -/
theorem exec_linkFrameTx_of_switch (h : lstate s p.n = 3) (hd : (s.link p.n).swRx = false ∨ (s.link p.n).swTx < 2) :
    exec (.linkFrameTx p) s = .next ((sendOn p.n (linkFrame p.n true s) s).setLink p.n
      { (sendOn p.n (linkFrame p.n true s) s).link p.n with swTx := ((sendOn p.n (linkFrame p.n true s) s).link p.n).swTx + 1 }) := by
  have hdone : switchDone s p.n = false := by
    rcases hd with h | h
    · rw [switchDone, h, Bool.false_and]
    · rw [switchDone, decide_eq_false (by omega), Bool.and_false]
  rw [← sendHop_link (by omega)]
  exact congrArg Host.Outcome.next ((if_neg (by rw [h]; decide)).trans (if_pos (by rw [h, hdone]; rfl)))

end

/-! ### LINK frames taken (R290, R303) -/

/-- A LINK frame is kept, the n-th of its kind in a row; the partner's version and serial number are shown. -/
def heard (p n : Nat) (mv fl : BitVec 8) (sn : Word) (pid : BitVec 8) (s : State) : State :=
  wr (fset (s.setLink p { s.link p with last := some (mv.toNat, sn.toNat, pid.toNat), eq := n, swRx := (s.link p).swRx || fl.getLsbD 1 })
    (PORT_STATUS p) PORT_STATUS_PMAXVER mv.toNat) (PORT_PARTNER p) sn

theorem portPartner_ne_portStatus (p q : Nat) : PORT_PARTNER p ≠ PORT_STATUS q := by unfold PORT_PARTNER PORT_STATUS; omega

theorem maxVer_of_rd {s t : State} {p : Nat} (h : rd t (PORT_CTRL p) = rd s (PORT_CTRL p)) : maxVer t p = maxVer s p := by
  unfold maxVer; rw [fget_of_rd h]

section
variable (p n : Nat) (mv fl : BitVec 8) (sn : Word) (pid : BitVec 8) (s : State)

theorem lstate_heard : lstate (heard p n mv fl sn pid s) p = lstate s p := by
  unfold lstate heard
  rw [fget_wr_other (portPartner_ne_portStatus p p).symm, fget_fset_apart (by decide) (by decide) (by decide)]
  exact fget_of_rd (rd_setLink ..)

theorem maxVer_heard : maxVer (heard p n mv fl sn pid s) p = maxVer s p := by
  refine maxVer_of_rd ?_
  rw [heard, rd_wr_other _ _ (by unfold PORT_CTRL PORT_PARTNER; omega), rd_fset_other (by unfold PORT_CTRL PORT_STATUS; omega), rd_setLink]

theorem partner_heard : rd (heard p n mv fl sn pid s) (PORT_PARTNER p) = sn := rd_wr_same ..

end

section
variable {p : NetPort} {mv fl : BitVec 8} {et : BitVec 16} {sn : Word} {pid : BitVec 8} {s : State} (h : lstate s p.n = 2)
include h

/-- Fewer than three equal frames decide nothing. -/
theorem exec_linkRx_of_early (he : (s.link p.n).eq < 2) : exec (.linkRx p mv fl et sn pid) s =
    .next (heard p.n (if (s.link p.n).last = some (mv.toNat, sn.toNat, pid.toNat) then (s.link p.n).eq + 1 else 1) mv fl sn pid s) := by
  have hn : ¬ 3 ≤ (if (s.link p.n).last = some (mv.toNat, sn.toNat, pid.toNat) then (s.link p.n).eq + 1 else 1) := by split <;> omega
  show execLinkRx p mv fl et sn pid s = _
  unfold execLinkRx
  dsimp only
  rw [h, if_neg (by decide), decide_eq_false hn]
  rfl

/-- The third equal frame decides: both ends can do HN2. -/
theorem exec_linkRx_of_third (he : (s.link p.n).eq = 2) (hl : (s.link p.n).last = some (mv.toNat, sn.toNat, pid.toNat))
    (hv : maxVer s p.n = 2) (hm : 2 ≤ mv.toNat) : exec (.linkRx p mv fl et sn pid) s = .next (setLstate p.n 3 (heard p.n 3 mv fl sn pid s)) := by
  have hmin : min (maxVer (heard p.n 3 mv fl sn pid s) p.n) mv.toNat = 2 := by rw [maxVer_heard, hv]; exact min_eq_left hm
  show execLinkRx p mv fl et sn pid s = _
  unfold execLinkRx
  dsimp only
  rw [h, if_neg (by decide), if_pos hl, he]
  exact congrArg Host.Outcome.next ((if_pos (by decide)).trans (if_pos hmin))

end

/-- The frame of LINK_RX. -/
theorem linkRx_frame {p : NetPort} {mv fl : BitVec 8} {et : BitVec 16} {sn : Word} {pid : BitVec 8} {s t : State}
    (hx : exec (.linkRx p mv fl et sn pid) s = .next t) :
    regsOnly (fun a => a = R.NET_STATE ∨ (∃ i, a = R.PORT_STATUS i) ∨ (∃ i, a = R.PORT_PARTNER i)) s t ∧ onlyParts [.netLink, .netSeg] s t := by
  have ht := execLinkRx_touch p mv fl et sn pid s t hx
  exact ⟨words_of ht (L := [82, 87, 88]) (by decide +kernel)
    ⟨fun _ k => .inl (of_NET_STATE k), fun _ k => .inr (.inl (of_PORT_STATUS k)), fun _ k => .inr (.inr (of_PORT_PARTNER k)), trivial⟩,
    ht.only _ (by decide +kernel)⟩

/-! ### Bad frames (R299) -/

theorem exec_frameRxInvalid_of_synced {p : NetPort} {f : RxFail} {s : State} (h : 2 ≤ lstate s p.n) :
    exec (.frameRxInvalid p f) s = .next (countBad p.n f s) := congrArg Host.Outcome.next (if_neg (by omega))

theorem exec_frameRxInvalid_of_unsynced {p : NetPort} {f : RxFail} {s : State} (h : lstate s p.n < 2) :
    exec (.frameRxInvalid p f) s = .next s := congrArg Host.Outcome.next (if_pos h)

/-- The frame of FRAME_RX_INVALID. -/
theorem frameRxInvalid_frame {p : NetPort} {f : RxFail} {s t : State} (hx : exec (.frameRxInvalid p f) s = .next t) :
    regsOnly (fun a => sedAny a ∨ (∃ i, a = R.PORT_STATUS i) ∨ (∃ i, a = R.RX_CRC i) ∨ (∃ i, a = R.RX_LEN i) ∨ (∃ i, a = R.RX_UNK i) ∨
      (∃ i, a = R.CODE_VIOL i)) s t ∧ onlyParts sedParts s t := by
  have ht := execFrameRxInvalid_touch p f s t hx
  exact ⟨words_of ht (L := [87, 93, 94, 95, 96, 263, 265]) (by decide +kernel)
    ⟨fun _ k => .inr (.inl (of_PORT_STATUS k)), fun _ k => .inr (.inr (.inl (of_RX_CRC k))), fun _ k => .inr (.inr (.inr (.inl (of_RX_LEN k)))),
     fun _ k => .inr (.inr (.inr (.inr (.inl (of_RX_UNK k))))), fun _ k => .inr (.inr (.inr (.inr (.inr (of_CODE_VIOL k))))), eachCls_sed fun _ => .inl⟩,
    ht.only _ (by decide +kernel)⟩

/-! ### Feedback and its window (R300, R307, R331) -/

/-- A feedback frame whose payload is too short for its records is a bad frame. -/
theorem exec_feedbackRx_of_short {r : Rx} {s : State} (ho : rxOpen s r.port = true) (hl : fbLenOk r.pay = false) :
    exec (.feedbackRx r) s = .next (countBad r.port.n .len s) :=
  congrArg Host.Outcome.next ((if_neg (by rw [ho]; decide)).trans (if_pos (by rw [hl]; rfl)))

/-- A node at the close of its window: nothing heard yet of the next slot; a slot without a frame is one more. -/
def windowClosed (x y : NodeSt) (plog : Nat) : NodeSt :=
  { y with onA := false, onB := false, used := false, bad := [], miss := if x.onA || x.onB then 0 else x.miss + 1,
           run := if x.used then x.run + 2 ^ plog else 0 }

/-- A window that closes: its missing samples, then the node, then whether the node is lost. -/
theorem windowEnd_of_active {g i : Nat} {s : State} (hk : (schedEnt s g i).kind = 4) (ha : entActive s (schedEnt s g i) = true)
    (hg : segState s g = 6 ∨ segState s g = 7) (hn : (schedEnt s g i).node < 128) :
    ∃ u : State, windowEnd g i s = judgeLost (schedEnt s g i).node (u.setNode (schedEnt s g i).node
      (windowClosed (s.node (schedEnt s g i).node) (u.node (schedEnt s g i).node) (schedEnt s g i).plog)) := by
  unfold windowEnd
  dsimp only
  rw [if_neg]
  · exact ⟨_, rfl⟩
  · rw [hk, ha, decide_eq_false (by omega : ¬ 128 ≤ (schedEnt s g i).node)]
    rcases hg with h | h <;> rw [h] <;> decide

theorem node_judgeLost (n : Nat) (s : State) (k : Nat) : (judgeLost n s).node k = s.node k := node_of ((judgeLost_touch n s).same .netNode rfl) k

theorem exec_feedbackWindowEnd (g : Bool) (i : BitVec 10) (s : State) : exec (.feedbackWindowEnd g i) s = .next (windowEnd g.toNat i.toNat s) := rfl

/-- FBM_N missing samples in a row raise cause 3. -/
theorem exec_fbmiss_of_limit {n : Axis} {s : State} (h : fbmN s ≤ (s.fb n.toNat).miss) : exec (.fbmiss n) s = .next (raiseCause n.toNat 3 s) :=
  congrArg Host.Outcome.next (if_pos h)

/-! ### Line frames and trains (R295, R302, R323) -/

theorem length_beOf (n v : Nat) : (beOf n v).length = n := by unfold beOf; simp

/-- A line frame leaves one port, in the form its channel carries. -/
def sendLineOn (typ da : Nat) (pay : List (BitVec 8)) (p : Nat) (s : State) : State :=
  if lstate s p ≠ 6 then s
  else sendOn p (if compactNow s p then compactFrame (halomHdr typ (if allHn2 s p then 2 else 1) (haddr s) pay.length (farEnd s) (p % 2 == 1)) pay
    else stdFrame da (haddr s) (s.link p).etype (halomHdr typ (if allHn2 s p then 2 else 1) (haddr s) pay.length (farEnd s) (p % 2 == 1)) pay) s

/-- The head that leads sends on channel A, then on channel B. -/
theorem sendLine_of_lead {g typ da : Nat} {pay : List (BitVec 8)} {s : State} (h : txEnable s = true) :
    sendLine g typ da pay s = sendLineOn typ da pay (2 * g + 1) (sendLineOn typ da pay (2 * g) s) := if_neg (by rw [h]; decide)

theorem link_sendLineOn_other {typ da p q : Nat} {pay : List (BitVec 8)} {s : State} (h : q ≠ p) : (sendLineOn typ da pay p s).link q = s.link q := by
  unfold sendLineOn
  split
  · rfl
  · exact link_sendOn_other h ..

/-- Channel A at HN2 that carries compact frames. -/
theorem link_sendLine_compact {g typ da : Nat} {pay : List (BitVec 8)} {s : State} (he : txEnable s = true) (hl : lstate s (2 * g) = 6)
    (hc : compactNow s (2 * g) = true) (h2 : allHn2 s (2 * g) = true) :
    ((sendLine g typ da pay s).link (2 * g)).tx = some (compactFrame (halomHdr typ 2 (haddr s) pay.length (farEnd s) false) pay) := by
  have hA : (2 * g % 2 == 1) = false := by simp
  rw [sendLine_of_lead he, link_sendLineOn_other (by omega), sendLineOn, if_neg (not_not.2 hl), if_pos hc, if_pos h2, hA, link_sendOn_same]

/-- A TRAIN slot with no axis due sends an empty train. -/
theorem exec_trainTx_of_empty {g : Bool} {i : BitVec 10} {s u : State} (hk : (schedEnt s g.toNat i.toNat).kind = 2)
    (ha : entActive s (schedEnt s g.toNat i.toNat) = true) (hg : segState s g.toNat = 7)
    (hu : setNow (s.time.start + (schedEnt s g.toNat i.toNat).start) s = u) (hn : trainAxes u g.toNat (schedEnt s g.toNat i.toNat).train = []) :
    exec (.trainTx g i) s = .next (sendLine g.toNat tTRAIN 0xFF (beOf 2 (cycNow u) ++ beOf 1 (schedEnt s g.toNat i.toNat).train ++ beOf 1 0) u) := by
  show execTrainTx g i s = _
  unfold execTrainTx
  dsimp only
  rw [if_neg (by rw [hk, ha, hg]; decide), hu, hn]
  simp only [List.foldl_nil, List.append_nil]

/-! ### Direct commands (R324) -/

/-- APPLY of the DIRECT slot of an axis. -/
def directApply (s : State) (g nd ax : Nat) : Nat := ((activeEnts s g 3).find? fun e => e.node == nd && e.ax == ax).elim 0 fun e => e.apply

/-- The descriptor of a direct command, at the instant its first bit leaves. -/
def directBody (k g nd ax at' : Nat) (s : State) : List (BitVec 8) × State :=
  descriptor k (directApply (reachAt at' s) g nd ax) (reachAt at' s)

/-- The payload of a DIRECT frame (Table 8.10). -/
def directPay (nd ax cyc ctl : Nat) (body : List (BitVec 8)) : List (BitVec 8) :=
  beOf 1 nd ++ beOf 1 (ax * 16) ++ beOf 2 cyc ++ beOf 1 ctl ++ List.replicate 3 0 ++ body

/-- The command is handed over: it answers the sample of a basic cycle, whose law task is done with. -/
def handOver (k cyc : Nat) (body : List (BitVec 8)) (s : State) : State :=
  s.setAxn k { s.axn k with done := false, unsent := false, rel := none, cmd := some { cyc := cyc, ctl := ctlOf s k, body := body } }

/-- The turnaround of a sample that was not missing is shown. -/
def turnedAround (k at' : Nat) (tm : Int) (ms : Bool) (s : State) : State := if ms then s else showTurnaround k ((instant s at' - tm) / 256).toNat s

theorem axn_turnedAround (k at' : Nat) (tm : Int) (ms : Bool) (s : State) (n : Nat) : (turnedAround k at' tm ms s).axn n = s.axn n := by
  unfold turnedAround
  split
  · rfl
  · exact axn_of ((showTurnaround_touch ..).same .netAx rfl) n

theorem axn_sendLine (g typ da : Nat) (pay : List (BitVec 8)) (s : State) (n : Nat) : (sendLine g typ da pay s).axn n = s.axn n :=
  axn_of ((sendLine_touch ..).same .netAx rfl) n

theorem exec_directTx_of_done {n : Axis} {at' g nd ax cyc : Nat} {tm : Int} {ms : Bool} {s : State} (hd : (s.axn n.toNat).done = true)
    (hc : (s.ctx n.toNat).cls = 0) (hn : (s.ctx n.toNat).node = some (g, nd, ax)) (hr : (s.axn n.toNat).rel = some (cyc, tm, ms))
    (hg : segState s g = 7) : exec (.directTx n at') s = .next (sendLine g tDIRECT nd
      (directPay nd ax cyc (ctlOf (directBody n.toNat g nd ax at' s).2 n.toNat) (directBody n.toNat g nd ax at' s).1)
      (turnedAround n.toNat at' tm ms (handOver n.toNat cyc (directBody n.toNat g nd ax at' s).1 (directBody n.toNat g nd ax at' s).2))) := by
  show execDirectTx n at' s = _
  unfold execDirectTx
  dsimp only
  rw [hn, hr]
  dsimp only
  rw [if_neg (by rw [hd, hc, hg]; decide)]
  rfl

/-- A law task that is not done has nothing to send. -/
theorem exec_directTx_of_undone {n : Axis} {at' : Nat} {s : State} (h : (s.axn n.toNat).done = false) : exec (.directTx n at') s = .next s := by
  show execDirectTx n at' s = _
  unfold execDirectTx
  dsimp only
  split
  · exact congrArg Host.Outcome.next (if_pos (by rw [h]; rfl))
  · rfl

/-- Settles O35: each event by the equation for its condition; what is counted or sent is one word or one frame of the port. -/
theorem linkFramesAct : Obligations.LinkFramesAct := by
  unfold Obligations.LinkFramesAct
  refine ⟨?adv, ?switch, ?third, ?early, ?crc, ?codeViol, ?unsynced, ?short, ?window, ?fbmiss, ?train, ?undone, ?direct⟩
  case adv =>
    intro p s h
    have hx := exec_linkFrameTx_of_adv h
    have ht := execLinkFrameTx_touch p s _ hx
    exact ⟨_, hx, congrArg LinkSt.tx (link_sendOn_same ..), rd_count .., words_of ht (L := [97]) (by decide +kernel) ⟨fun _ => of_TX_FRAMES, trivial⟩,
      ht.only _ (by decide +kernel)⟩
  case switch =>
    intro p s h hd
    have hx := exec_linkFrameTx_of_switch h hd
    have ht := execLinkFrameTx_touch p s _ hx
    refine ⟨_, hx, ?_, words_of ht (L := [97]) (by decide +kernel) ⟨fun _ => of_TX_FRAMES, trivial⟩, ht.only _ (by decide +kernel)⟩
    rw [link_setLink_same, link_sendOn_same]
  case third =>
    intro p mv fl et sn pid s h he hl hv hm
    have hx := exec_linkRx_of_third (fl := fl) (et := et) h he hl hv hm
    refine ⟨_, hx, lstate_setLstate (by decide) _, ?_, linkRx_frame hx⟩
    rw [setLstate, rd_fset_other (portPartner_ne_portStatus _ _), partner_heard]
  case early =>
    intro p mv fl et sn pid s h he
    have hx := exec_linkRx_of_early (mv := mv) (fl := fl) (et := et) (sn := sn) (pid := pid) h he
    exact ⟨_, hx, (lstate_heard ..).trans h, partner_heard .., linkRx_frame hx⟩
  case crc =>
    intro p s h
    have hx := exec_frameRxInvalid_of_synced (f := .crc) h
    exact ⟨_, hx, rd_count .., frameRxInvalid_frame hx⟩
  case codeViol =>
    intro p s h
    have hx := exec_frameRxInvalid_of_synced (f := .codeViol) h
    refine ⟨_, hx, ?_, fbit_w1cSet_lo (by decide) (portStatus_lo _), frameRxInvalid_frame hx⟩
    exact (rd_w1cSet_lo (by unfold CODE_VIOL PORT_STATUS; omega) (by unfold CODE_VIOL; omega)).trans (rd_count ..)
  case unsynced => exact fun p f s h => exec_frameRxInvalid_of_unsynced h
  case short =>
    intro r s ho hl
    exact ⟨_, exec_feedbackRx_of_short ho hl, rd_count .., funext fun _ => node_wr ..⟩
  case window =>
    intro g i s hk ha hg hn
    obtain ⟨u, hu⟩ := windowEnd_of_active hk ha hg hn
    refine ⟨_, exec_feedbackWindowEnd g i s, ?_, ?_⟩
    · rw [hu, node_judgeLost, node_setNode_same]; rfl
    · rw [hu, node_judgeLost, node_setNode_same]; rfl
  case fbmiss =>
    intro n s hl hc _ _
    have hx := exec_fbmiss_of_limit hl
    have ht := execFbmiss_touch n s _ hx
    refine ⟨_, hx, ?_, ?_, ht.only _ (by decide +kernel)⟩
    · rw [(raiseCause_gives (code := 3) (by decide) hc).1, Nat.testBit_or, Nat.testBit_two_pow_self, Bool.or_true]
    · exact words_of ht (L := [107, 109, 110, 124, 136, 137, 149, 263, 265]) (by decide +kernel)
        ⟨fun _ k => .inr (.inl (of_STATE_TILE k)), fun _ k => .inr (.inr (.inl (of_AX_STATUS k))), fun _ k => .inr (.inr (.inr (.inl (of_AX_FAULT k)))),
         eachCls_genOff (fun _ k => .inr (.inr (.inr (.inr k)))) (eachCls_sed fun _ => .inl)⟩
  case train =>
    intro g i s hk ha hg u hu hn he hl hc h2
    refine ⟨_, exec_trainTx_of_empty hk ha hg hu hn, (link_sendLine_compact he hl hc h2).trans ?_⟩
    rw [List.length_append, List.length_append, length_beOf, length_beOf, length_beOf]
  case undone => exact fun n at' s h => exec_directTx_of_undone h
  case direct =>
    intro n at' g nd ax cyc tm ms s hd hc hn hr hg
    refine ⟨_, exec_directTx_of_done hd hc hn hr hg, ?_, ?_, ctlOf (directBody n.toNat g nd ax at' s).2 n.toNat, (directBody n.toNat g nd ax at' s).1, ?_⟩
    all_goals rw [axn_sendLine, axn_turnedAround, handOver, axn_setAxn_same]

end Sys2Proof.Laws

/-! PROOF. Missing samples (O10): the count of an axis and the cause it raises. -/

namespace Sys2Proof.Laws
open Sys2Proof Sys2Proof.Machine R

/-- Fewer than FBM_N missing samples in a row raise nothing (R331). -/
theorem exec_fbmiss_of_fewer {n : Axis} {s : State} (h : (s.fb n.toNat).miss < fbmN s) : exec (.fbmiss n) s = .next s :=
  congrArg Host.Outcome.next (if_neg (by omega))

/-- Settles O10: FBMISS raises cause 3 at the limit and nothing below it; the count is one field of the axis's feedback. -/
theorem missingSamplesRaiseFbmiss : Obligations.MissingSamplesRaiseFbmiss := by
  unfold Obligations.MissingSamplesRaiseFbmiss
  refine ⟨?limit, fun n s h => exec_fbmiss_of_fewer h, fun n s => congrArg Fb.miss (fb_fbMissing_same n s),
    fun n s => congrArg Fb.miss (fb_fbPresent_same n s)⟩
  intro n s hl hc
  obtain ⟨hcauses, hlast, -⟩ := raiseCause_gives (code := 3) (by decide) hc
  exact ⟨_, exec_fbmiss_of_limit hl, hcauses, hlast⟩

end Sys2Proof.Laws

/-! PROOF. Service traffic (O36): arbitrating windows, polls and their answers, and delay exchanges. -/

namespace Sys2Proof.Laws
open Sys2Proof Sys2Proof.Machine R

/-! ### Network time goes on (R341) -/

theorem setNow_words (ns : Nat) (s : State) : regsOnly (fun a => a = TIME_STATUS) s (setNow ns s) :=
  words_of (setNow_touch ns s) (L := [71]) (by decide) ⟨fun _ => of_TIME_STATUS, trivial⟩

theorem rd_reachAt {a : Nat} (h : a ≠ TIME_STATUS) (ofs : Nat) (s : State) : rd (reachAt ofs s) a = rd s a := setNow_words _ _ _ h

theorem seg_reachAt (ofs : Nat) (s : State) (g : Nat) : (reachAt ofs s).seg g = s.seg g := seg_of ((reachAt_touch ..).same .netSeg rfl) g
theorem link_reachAt (ofs : Nat) (s : State) (p : Nat) : (reachAt ofs s).link p = s.link p := link_of ((reachAt_touch ..).same .netLink rfl) p

theorem instant_reachAt (ofs x : Nat) (s : State) : instant (reachAt ofs s) x = instant s x := by
  unfold instant
  rw [show (reachAt ofs s).time.start = s.time.start from (reachAt_touch ofs s).same .timeStart rfl]

/-! ### Windows (R326) -/

/-- The wire time of a payload rests on the loaded schedule and on the state and version of the ports. -/
theorem wireNs_of {s t : State} (hg : t.net.gen = s.net.gen) (hr : ∀ p, rd t (PORT_STATUS p) = rd s (PORT_STATUS p)) (g len : Nat) :
    wireNs t g len = wireNs s g len := by
  have hc : ∀ p, compactNow t p = compactNow s p := fun p => by unfold compactNow lstate; rw [hg, fget_of_rd (hr p), fget_of_rd (hr p)]
  unfold wireNs wireBytes byteTenths
  simp only [hc, fget_of_rd (hr _)]

theorem nextPoll_of_quiet {s : State} (h : ∀ n, (s.node n).req = false) (g j : Nat) : nextPoll s g j = none :=
  List.find?_eq_none.2 fun e _ => by simp [h]

/-- A window opens at an instant of the basic cycle and lasts until another. -/
def openWindow (g start stop : Nat) (s : State) : State :=
  setNow (s.time.start + start) (s.setSeg g { s.seg g with window := some stop })

/-- The window of a segment ends. -/
def endWindow (g : Nat) (s : State) : State := s.setSeg g { s.seg g with window := none }

section
variable (g start stop : Nat) (s : State)

theorem seg_openWindow : (openWindow g start stop s).seg g = { s.seg g with window := some stop } :=
  (seg_of ((setNow_touch ..).same .netSeg rfl) g).trans (seg_setSeg_same ..)

theorem node_openWindow (n : Nat) : (openWindow g start stop s).node n = s.node n :=
  (node_of ((setNow_touch ..).same .netNode rfl) n).trans (node_setSeg ..)

theorem wireNs_openWindow (k len : Nat) : wireNs (openWindow g start stop s) k len = wireNs s k len :=
  wireNs_of ((setNow_touch ..).same .netGen rfl)
    (fun p => (setNow_words _ _ _ (by unfold PORT_STATUS TIME_STATUS; omega)).trans (rd_setSeg ..)) k len

theorem seg_endWindow : (endWindow g s).seg g = { s.seg g with window := none } := seg_setSeg_same ..

theorem netLink_endWindow_openWindow : (endWindow g (openWindow g start stop s)).net.link = s.net.link :=
  (setNow_touch ..).same .netLink rfl

end

section
variable {g fuel now stop : Nat} {s : State} (hw : (s.seg g).window = some stop) (hp : (s.seg g).poll = none)
include hw hp

theorem serve_of_idle (ht : (s.seg g).todo = []) (hn : nextPoll s g (s.seg g).next = none) : serve g (fuel + 1) now s = endWindow g s := by
  rw [serve]
  simp only [endWindow, hw, hp, ht, hn]

theorem serve_of_long {x : Turn} {l : List Turn} (ht : (s.seg g).todo = x :: l) (hx : stop < now + wireNs s g x.pay.length) :
    serve g (fuel + 1) now s = endWindow g s := by
  rw [serve]
  simp only [endWindow, hw, hp, ht, if_pos hx]

end

/-- A slot of the loaded schedule opens a window. -/
theorem exec_arbWindow_of_slot {g : Bool} {i : BitVec 10} {s : State} (hg : segState s g.toNat = 6 ∨ segState s g.toNat = 7)
    (hk : (schedEnt s g.toNat i.toNat).kind = 5) (ha : entActive s (schedEnt s g.toNat i.toNat) = true) : ∃ fuel, exec (.arbWindow g i) s =
      .next (serve g.toNat (fuel + 1) (schedEnt s g.toNat i.toNat).start (openWindow g.toNat (schedEnt s g.toNat i.toNat).start
        ((schedEnt s g.toNat i.toNat).start + (schedEnt s g.toNat i.toNat).span) s)) := by
  refine ⟨_, congrArg Host.Outcome.next ((if_neg ?_).trans (if_pos ?_))⟩
  · rcases hg with h | h <;> rw [h] <;> decide
  · rw [hk, ha]
    rcases hg with h | h <;> rw [h] <;> decide

/-- The frame of ARB_WINDOW. -/
theorem arbWindow_frame {g : Bool} {i : BitVec 10} {s t : State} (hx : exec (.arbWindow g i) s = .next t) :
    regsOnly (fun a => a = TIME_STATUS ∨ (∃ i, a = TX_FRAMES i)) s t ∧
      onlyParts [.schDlStat, .schRlStat, .schSampled, .netLink, .netSeg, .timeNs, .free] s t := by
  have ht := execArbWindow_touch g i s t hx
  exact ⟨words_of ht (L := [71, 97]) (by decide) ⟨fun _ k => .inl (of_TIME_STATUS k), fun _ k => .inr (of_TX_FRAMES k), trivial⟩,
    ht.only _ (by decide)⟩

/-! ### Polls and answers (R327) -/

theorem nodeCnt_ne_netStatus (n : Nat) : NODE_CNT n ≠ NET_STATUS := by unfold NODE_CNT NET_STATUS; omega
theorem nodeCnt_ne_timeStatus (n : Nat) : NODE_CNT n ≠ TIME_STATUS := by unfold NODE_CNT TIME_STATUS; omega
theorem nodeCnt_lo (n : Nat) : NODE_CNT n < 0x701000 := by unfold NODE_CNT; omega

/-- A poll without an answer is shown and counted for its node. -/
def pollMissed (n : Nat) (s : State) : State := w1cSet NET_STATUS NET_STATUS_POLLTO n (fincWrap s (NODE_CNT n) NODE_CNT_POLL_TO)

theorem exec_pollTimeout_of_poll {g : Bool} {at' e n : Nat} {s : State} (h : (s.seg g.toNat).poll = some (e, n)) :
    exec (.pollTimeout g at') s = .next (pollEnd g.toNat at' (pollMissed n (reachAt at' s))) := by
  show execPollTimeout g at' s = _
  unfold execPollTimeout
  dsimp only
  rw [h]
  rfl

theorem exec_pollTimeout_of_none {g : Bool} {at' : Nat} {s : State} (h : (s.seg g.toNat).poll = none) :
    exec (.pollTimeout g at') s = .next s := by
  show execPollTimeout g at' s = _
  unfold execPollTimeout
  dsimp only
  rw [h]

/-- What the window that goes on leaves of a missed poll. -/
theorem pollEnd_pollMissed_gives (g ofs n : Nat) (s : State) :
    fbit (pollEnd g ofs (pollMissed n s)) NET_STATUS NET_STATUS_POLLTO = true ∧
      fget (pollEnd g ofs (pollMissed n s)) (NODE_CNT n) NODE_CNT_POLL_TO = (fget s (NODE_CNT n) NODE_CNT_POLL_TO + 1) % 2 ^ 8 := by
  constructor
  · rw [fbit_of_rd ((pollEnd_touch ..).rd NET_STATUS (by decide)), pollMissed, fbit_w1cSet_lo (by decide) (by decide)]
  · rw [(pollEnd_touch ..).offF (okw_NODE_CNT (m := 1 <<< 263) (by decide)) (by decide), pollMissed,
      fget_of_rd (rd_w1cSet_lo (nodeCnt_ne_netStatus n) (nodeCnt_lo n)), fget_fincWrap (by decide)]
    rfl

/-- The frame of POLL_TIMEOUT. -/
theorem pollTimeout_frame {g : Bool} {at' : Nat} {s t : State} (hx : exec (.pollTimeout g at') s = .next t) :
    regsOnly (fun a => sedAny a ∨ a = TIME_STATUS ∨ a = NET_STATUS ∨ (∃ i, a = TX_FRAMES i) ∨ (∃ i, a = NODE_CNT i)) s t ∧
      onlyParts (sedParts.append [.schDlStat, .schRlStat, .schSampled, .netLink, .netSeg, .timeNs]) s t := by
  have ht := execPollTimeout_touch g at' s t hx
  exact ⟨words_of ht (L := [71, 85, 97, 103, 263, 265]) (by decide)
    ⟨fun _ k => .inr (.inl (of_TIME_STATUS k)), fun _ k => .inr (.inr (.inl (of_NET_STATUS k))), fun _ k => .inr (.inr (.inr (.inl (of_TX_FRAMES k)))),
     fun _ k => .inr (.inr (.inr (.inr (of_NODE_CNT k)))), eachCls_sed fun _ => .inl⟩, ht.only _ (by decide)⟩

/-- The answer of the polled node, with MORE, is kept and the poll goes on. -/
theorem exec_svcRx_of_more {r : Rx} {v : State} {e : Nat} {s : State} (ho : rxOpen s r.port = true) (hl : 4 ≤ r.pay.length)
    (hc : selectCopy tSVC r (reachAt r.last s) = (true, v)) (hp : (v.seg (r.port.n / 2)).poll = some (e, r.src.toNat))
    (hw : (v.seg (r.port.n / 2)).window.isSome) (hm : (payN r.pay 2 1).testBit 6 = true) :
    exec (.svcRx r) s = .next (v.setSeg (r.port.n / 2) { v.seg (r.port.n / 2) with svc := r.pay }) := by
  have hn : ¬ ((!true || decide (r.src.toNat ≠ r.src.toNat) || (v.seg (r.port.n / 2)).window.isNone) = true) := by
    rw [Option.isNone_eq_false_iff.2 hw]; simp
  show execSvcRx r s = _
  unfold execSvcRx
  dsimp only
  rw [if_neg (by rw [ho]; decide), if_neg (by omega), hc]
  dsimp only
  rw [hp]
  dsimp only
  rw [if_neg hn, if_pos hm]

/-- An answer without a whole header is a bad frame. -/
theorem exec_svcRx_of_short {r : Rx} {s : State} (ho : rxOpen s r.port = true) (hl : r.pay.length < 4) :
    exec (.svcRx r) s = .next (countBad r.port.n .len s) :=
  congrArg Host.Outcome.next ((if_neg (by rw [ho]; decide)).trans (if_pos hl))

/-- The frame of SVC_RX. -/
theorem svcRx_frame {r : Rx} {s t : State} (hx : exec (.svcRx r) s = .next t) : regsOnly (fun a => blockNo a ∈ [4, 5, 14]) s t ∧
    onlyParts (sedParts.append [.schDlStat, .schRlStat, .schSampled, .netLink, .netSeg, .timeNs]) s t := by
  have ht := execSvcRx_touch r s t hx
  exact ⟨ht.blocks _ (by decide), ht.only _ (by decide)⟩

/-! ### Delay exchanges (R348) -/

/-- The request number q of a port leaves at an instant. -/
def askDelay (p q at' : Nat) (s : State) : State :=
  (reachAt at' s).setLink p { s.link p with dseq := q, dreq := some (q, instant s at') }

theorem instant_askDelay (p q at' x : Nat) (s : State) : instant (askDelay p q at' s) x = instant s x := instant_reachAt at' x s

theorem exec_delayRequest_of_open {p : NetPort} {at' : Nat} {s : State} (hl : 6 ≤ lstate s p.n) (hd : (s.link p.n).dreq = none)
    (ho : delayOpen s p.n = true) : exec (.delayRequest p at') s = .next (sendHop p.n tDELAY
      (delayPay 1 (((s.link p.n).dseq + 1) % 256) (instant s at' / 256).toNat 0 0) (askDelay p.n (((s.link p.n).dseq + 1) % 256) at' s)) := by
  have hn : ¬ ((decide (lstate s p.n < 6) || (s.link p.n).dreq.isSome || !delayOpen s p.n) = true) := by
    rw [hd, ho, decide_eq_false (by omega)]; decide
  show execDelayRequest p at' s = _
  unfold execDelayRequest
  dsimp only
  rw [if_neg hn, instant_reachAt, ← askDelay, instant_askDelay]

/-- A frame that leaves a port changes nothing of its delay exchange. -/
theorem delay_sendHop (p typ : Nat) (pay : List (BitVec 8)) (s : State) :
    ((sendHop p typ pay s).link p).dreq = (s.link p).dreq ∧ ((sendHop p typ pay s).link p).dseq = (s.link p).dseq := by
  unfold sendHop
  split
  · exact ⟨rfl, rfl⟩
  · rw [link_sendOn_same]
    exact ⟨rfl, rfl⟩

/-- A delay exchange ends with the mean of its last 16. -/
def endDelay (p : Nat) (ds : List Int) (s : State) : State :=
  wrN (s.setLink p { s.link p with dreq := none, dels := ds }) (PORT_DELAY p) (ux 32 (rhu ds.sum (2 * ds.length)))

theorem link_endDelay (p : Nat) (ds : List Int) (s : State) : (endDelay p ds s).link p = { s.link p with dreq := none, dels := ds } :=
  (link_wr ..).trans (link_setLink_same ..)

theorem exec_delayRx_of_answer {p : NetPort} {sq : BitVec 8} {t1 t2 t3 : BitVec 64} {at' an : Nat} {own : Int} {s : State}
    (hl : 6 ≤ lstate s p.n) (hp : p ≠ .mir) (hd : (s.link p.n).dreq = some (sq.toNat, own)) :
    exec (.delayRx p 2 sq t1 t2 t3 at' an) s = .next (endDelay p.n
      (((instant s at' - own - (delayT t3 - delayT t2)) :: (s.link p.n).dels).take 16) (reachAt at' s)) := by
  have h4 : p.n < 4 := by revert hp; cases p <;> decide
  show execDelayRx p 2 sq t1 t2 t3 at' an s = _
  unfold execDelayRx
  dsimp only
  rw [if_neg (by omega), if_neg (by decide), link_reachAt, hd]
  dsimp only
  rw [if_neg (by simp), if_pos h4, instant_reachAt, endDelay, link_reachAt]

theorem exec_delayTimeout (p : NetPort) (s : State) : exec (.delayTimeout p) s = .next (s.setLink p.n { s.link p.n with dreq := none }) := rfl

/-- Settles O36: each event by the equation for its condition, then the segment, the node's counter or the exchange it leaves. -/
theorem serviceTrafficActs : Obligations.ServiceTrafficActs := by
  unfold Obligations.ServiceTrafficActs
  refine ⟨?idle, ?long, ?missed, fun g at' s h => exec_pollTimeout_of_none h, ?kept, ?short, ?asked, ?answered, ?dropped⟩
  case idle =>
    intro g i s hg hk ha hp ht hn
    obtain ⟨fuel, hx⟩ := exec_arbWindow_of_slot hg hk ha
    have hseg := seg_openWindow g.toNat (schedEnt s g.toNat i.toNat).start
      ((schedEnt s g.toNat i.toNat).start + (schedEnt s g.toNat i.toNat).span) s
    rw [serve_of_idle (by rw [hseg]) (by rw [hseg]; exact hp) (by rw [hseg]; exact ht)
      (nextPoll_of_quiet (fun n => by rw [node_openWindow, hn]) _ _)] at hx
    exact ⟨_, hx, congrArg SegSt.window (seg_endWindow ..), netLink_endWindow_openWindow .., arbWindow_frame hx⟩
  case long =>
    intro g i x l s hg hk ha hp ht hs
    obtain ⟨fuel, hx⟩ := exec_arbWindow_of_slot hg hk ha
    have hseg := seg_openWindow g.toNat (schedEnt s g.toNat i.toNat).start
      ((schedEnt s g.toNat i.toNat).start + (schedEnt s g.toNat i.toNat).span) s
    rw [serve_of_long (by rw [hseg]) (by rw [hseg]; exact hp) (by rw [hseg]; exact ht) (by rw [wireNs_openWindow]; omega)] at hx
    refine ⟨_, hx, congrArg SegSt.window (seg_endWindow ..), ?_, netLink_endWindow_openWindow .., arbWindow_frame hx⟩
    rw [seg_endWindow, hseg]
    exact ht
  case missed =>
    intro g at' e n s h
    have hx := exec_pollTimeout_of_poll (at' := at') h
    obtain ⟨hbit, hcnt⟩ := pollEnd_pollMissed_gives g.toNat at' n (reachAt at' s)
    rw [fget_of_rd (rd_reachAt (nodeCnt_ne_timeStatus n) at' s)] at hcnt
    exact ⟨_, hx, hbit, hcnt, pollTimeout_frame hx⟩
  case kept =>
    intro r v e s ho hl hc hp hw hm
    have hx := exec_svcRx_of_more ho hl hc hp hw hm
    refine ⟨_, hx, congrArg SegSt.svc (seg_setSeg_same ..), ?_, svcRx_frame hx⟩
    rw [seg_setSeg_same]
    exact hp
  case short =>
    intro r s ho hl
    have hx := exec_svcRx_of_short ho hl
    exact ⟨_, hx, rd_count .., wrN_net .., svcRx_frame hx⟩
  case asked =>
    intro p at' s hl hd ho
    have hx := exec_delayRequest_of_open (at' := at') hl hd ho
    have ht := execDelayRequest_touch p at' s _ hx
    refine ⟨_, hx, ?_, ?_, words_of ht (L := [71, 97]) (by decide)
      ⟨fun _ k => .inl (of_TIME_STATUS k), fun _ k => .inr (of_TX_FRAMES k), trivial⟩, ht.only _ (by decide)⟩
    · rw [(delay_sendHop ..).1, askDelay, link_setLink_same]
    · rw [(delay_sendHop ..).2, askDelay, link_setLink_same]
  case answered =>
    rintro p sq t1 t2 t3 at' an own s hl hp hd ds rfl
    have hx := exec_delayRx_of_answer (t1 := t1) (t2 := t2) (t3 := t3) (at' := at') (an := an) hl hp hd
    have ht := execDelayRx_touch p 2 sq t1 t2 t3 at' an s _ hx
    refine ⟨_, hx, ?_, ?_, rd_wr_same .., words_of ht (L := [71, 97, 99]) (by decide)
      ⟨fun _ k => .inl (of_TIME_STATUS k), fun _ k => .inr (.inl (of_TX_FRAMES k)), fun _ k => .inr (.inr (of_PORT_DELAY k)), trivial⟩,
      ht.only _ (by decide)⟩
    all_goals rw [link_endDelay]
  case dropped =>
    intro p s
    have ht := execDelayTimeout_touch p s _ (exec_delayTimeout p s)
    refine ⟨_, exec_delayTimeout p s, ?_, ?_, words_of ht (L := []) (by decide) trivial, ht.only _ (by decide)⟩
    all_goals rw [link_setLink_same]

end Sys2Proof.Laws

/-! PROOF. Enumeration (O37): rounds of discovery, aliens, adopted nodes, and nodes that are lost or come too late. -/

namespace Sys2Proof.Laws
open Sys2Proof Sys2Proof.Machine R

/-! ### The state of a node (Table 9.10) -/

theorem nodeInfo_ne_netStatus (n : Nat) : NODE_INFO n ≠ NET_STATUS := by unfold NODE_INFO NET_STATUS; omega
theorem nodeInfo_lo (n : Nat) : NODE_INFO n < 0x701000 := by unfold NODE_INFO; omega

theorem nodeState_of_rd {s t : State} {n : Nat} (h : rd t (NODE_INFO n) = rd s (NODE_INFO n)) : nodeState t n = nodeState s n := fget_of_rd h

theorem nodeState_setNodeState {x : Nat} (hx : x < 8) (n : Nat) (s : State) : nodeState (setNodeState n x s) n = x :=
  (fget_fset (by decide) x).trans (Nat.mod_eq_of_lt hx)

theorem nodeState_w1cSet_netStatus (f : Fld) (o n : Nat) (s : State) : nodeState (w1cSet NET_STATUS f o s) n = nodeState s n :=
  nodeState_of_rd (rd_w1cSet_lo (nodeInfo_ne_netStatus n) (nodeInfo_lo n))

theorem rd_setNodeState_netStatus (n x : Nat) (s : State) : rd (setNodeState n x s) NET_STATUS = rd s NET_STATUS :=
  rd_fset_other (nodeInfo_ne_netStatus n).symm

theorem nodeState_axesMissing (g k n : Nat) (s : State) : nodeState (axesMissing g k s) n = nodeState s n :=
  nodeState_of_rd ((axesMissing_touch ..).off (okw_NODE_INFO (m := 1 <<< 261) (by decide)) (by decide))

theorem rd_axesMissing_netStatus (g k : Nat) (s : State) : rd (axesMissing g k s) NET_STATUS = rd s NET_STATUS :=
  (axesMissing_touch ..).rd _ (by decide)

theorem makeAbsent_gives (g n : Nat) (s : State) :
    nodeState (makeAbsent g n s) n = 1 ∧ rd (makeAbsent g n s) NET_STATUS = rd s NET_STATUS := by
  unfold makeAbsent
  dsimp only
  split
  · rw [nodeState_axesMissing, nodeState_setNodeState (by decide), rd_axesMissing_netStatus, rd_setNodeState_netStatus]
    exact ⟨rfl, rfl⟩
  · exact ⟨nodeState_setNodeState (by decide) n s, rd_setNodeState_netStatus n 1 s⟩

/-- A footprint of a node's state and of the reactions of its axes. -/
theorem nodeGone_words {m : Nat} {s t : State} (h : Touch m s t) (hL : regBits m = [85, 101, 107, 109, 110, 124, 136, 137, 149, 263, 265]) :
    regsOnly (fun a => sedAny a ∨ a = R.NET_STATUS ∨ (∃ i, a = R.NODE_INFO i) ∨ (∃ i j, a = R.STATE_TILE i j) ∨ (∃ i, a = R.AX_STATUS i) ∨
      (∃ i, a = R.AX_FAULT i) ∨ (∃ i, a = R.PF_STATUS i) ∨ (∃ i j, a = R.PF_POS i j) ∨ (∃ i j, a = R.PF_VEL i j) ∨ (∃ i, a = R.PF_HOME_STATUS i)) s t :=
  words_of h hL
    ⟨fun _ k => .inr (.inl (of_NET_STATUS k)), fun _ k => .inr (.inr (.inl (of_NODE_INFO k))), fun _ k => .inr (.inr (.inr (.inl (of_STATE_TILE k)))),
     fun _ k => .inr (.inr (.inr (.inr (.inl (of_AX_STATUS k))))), fun _ k => .inr (.inr (.inr (.inr (.inr (.inl (of_AX_FAULT k)))))),
     eachCls_genOff (fun _ k => .inr (.inr (.inr (.inr (.inr (.inr k)))))) (eachCls_sed fun _ => .inl)⟩

theorem exec_nodeAdopted_of_ready {n : BitVec 7} {s : State} (h6 : nodeState s n.toNat = 6) (ha : (s.node n.toNat).acked = true)
    (hr : 256 ≤ (s.node n.toNat).run) :
    exec (.nodeAdopted n) s = .next (w1cSet NET_STATUS NET_STATUS_ADOPT n.toNat (setNodeState n.toNat 4 s)) :=
  congrArg Host.Outcome.next (if_pos (by rw [h6, ha, decide_eq_true hr]; rfl))

theorem exec_nodeLost_of_limit {n : BitVec 7} {s : State} (h4 : nodeState s n.toNat = 4) (hm : fbmN s ≤ (s.node n.toNat).miss) :
    exec (.nodeLost n) s = .next (axesMissing (fget s (NODE_INFO n.toNat) NODE_INFO_SEG) n.toNat
      (w1cSet NET_STATUS NET_STATUS_LOST n.toNat (setNodeState n.toNat 5 s))) :=
  congrArg Host.Outcome.next (if_pos (by rw [h4, decide_eq_true hm]; rfl))

theorem exec_nodeLost_of_fewer {n : BitVec 7} {s : State} (h : (s.node n.toNat).miss < fbmN s) : exec (.nodeLost n) s = .next s :=
  congrArg Host.Outcome.next (if_neg (by rw [decide_eq_false (by omega), Bool.false_and]; decide))

theorem exec_syncNodeTimeout_of_late {n : BitVec 7} {s : State} {g : Nat} (hg : fget s (NODE_INFO n.toNat) NODE_INFO_SEG = g) (h6 : segState s g = 6)
    (h3 : nodeState s n.toNat = 3) (hs : syncLen s + 1024 ≤ (s.seg g).sync) (hr : (s.node n.toNat).run < 64) :
    exec (.syncNodeTimeout n) s = .next (makeAbsent g n.toNat (w1cSet NET_STATUS NET_STATUS_SYNC_LATE n.toNat s)) := by
  subst hg
  exact congrArg Host.Outcome.next (if_pos (by rw [h6, h3, decide_eq_true hs, decide_eq_true hr]; rfl))

/-! ### Rounds of discovery (R334, R339) -/

/-- A turn waits at the end of its segment's queue. -/
theorem seg_enqueue (g typ : Nat) (pay : List (BitVec 8)) (s : State) :
    (enqueue g typ pay s).seg g = { s.seg g with todo := (s.seg g).todo ++ [{ typ := typ, pay := pay }] } := seg_setSeg_same ..

theorem seg_enqueue_other {g k : Nat} (h : k ≠ g) (typ : Nat) (pay : List (BitVec 8)) (s : State) : (enqueue g typ pay s).seg k = s.seg k :=
  (seg_setSeg ..).trans (if_neg h)

/-- Two rounds that differ go on: the one heard is kept and another begins. -/
theorem exec_discoverRound_of_new {g : Bool} {s : State} (h4 : segState s g.toNat = 4) (hp : (s.seg g.toNat).prev ≠ some (s.seg g.toNat).disc) :
    exec (.discoverRound g) s = .next (enqueue g.toNat tENUM discoverPay
      (s.setSeg g.toNat { s.seg g.toNat with prev := some (s.seg g.toNat).disc, disc := [], linkUp := false })) :=
  congrArg Host.Outcome.next ((if_pos h4).trans (if_neg hp))

theorem seg_rediscover_other {g k : Nat} (h : k ≠ g) (s : State) : (rediscover g s).seg k = s.seg k := by
  unfold rediscover
  split
  · rw [seg_enqueue_other h, seg_setSeg, if_neg h]
  · rfl

theorem seg_rediscover {g : Nat} {s : State} (h : 4 ≤ segState s g) : (rediscover g s).seg g =
    { s.seg g with todo := (s.seg g).todo ++ [{ typ := tENUM, pay := discoverPay }], linkUp := false, disc := [] } := by
  rw [rediscover, if_pos h, seg_enqueue, seg_setSeg_same]

theorem segState_rediscover (g k : Nat) (s : State) : segState (rediscover g s) k = segState s k :=
  fget_of_rd ((rediscover_touch ..).rd _ (by decide))

theorem netCmdEff_redisc (s : State) : netCmdEff 4 s = some (rediscover 1 (rediscover 0 s)) := rfl

theorem exec_redisc (w : Who) (s : State) : exec (.redisc w) s = .next (gated w NET_CMD 4 (netCmdEff 4) s) := rfl

/-- A segment with an alien discovers again; the other may. -/
theorem exec_rediscover_of_alien {s : State} (h : (s.seg 0).alien = true) : ∃ b : Bool, exec .rediscover s =
    .next (if b then rediscover 1 (rediscover 0 s) else rediscover 0 s) := by
  show ∃ b : Bool, execRediscover s = _
  unfold execRediscover
  rw [eachN_cons, h]
  exact ⟨_, rfl⟩

/-- A footprint of NET_CMD and of the change log. -/
theorem netCmd_words {m : Nat} {s t : State} (h : Touch m s t) (hL : regBits m = [23, 82, 86, 217, 256, 257, 263, 265]) :
    regsOnly (fun a => sedAny a ∨ logAddr a ∨ a = R.NET_STATE ∨ (∃ i, a = R.PORT_CTRL i) ∨ a = R.PAIR_STATUS) s t :=
  words_of h hL
    ⟨fun _ k => .inr (.inl (logAddr_of_nvm k)), fun _ k => .inr (.inr (.inl (of_NET_STATE k))), fun _ k => .inr (.inr (.inr (.inl (of_PORT_CTRL k)))),
     fun _ k => .inr (.inr (.inr (.inr (of_PAIR_STATUS k)))), eachCls_log_sed (fun _ k => .inr (.inl k)) fun _ => .inl⟩

/-! ### Aliens (R335) -/

/-- An IDENT joins the round under way, in the order of the positions. -/
def noteIdent (g : Nat) (a : Nat × Nat × Nat × Nat) (s : State) : State :=
  if (s.seg g).disc.contains a then s
  else s.setSeg g { s.seg g with
    disc := ((s.seg g).disc.filter fun b => decide (b.1 < a.1)) ++ [a] ++ ((s.seg g).disc.filter fun b => decide (a.1 ≤ b.1)) }

theorem listed_noteIdent (g k : Nat) (a : Nat × Nat × Nat × Nat) (s : State) : listed (noteIdent g a s) k = listed s k := by
  unfold noteIdent
  split <;> rfl

/-- A segment has an alien at a position. -/
def showAlien (g pos : Nat) (s : State) : State := w1cSet NET_STATUS NET_STATUS_ALIEN pos (s.setSeg g { s.seg g with alien := true })

/-- A node without an address at a position the list does not name. -/
theorem ident_of_unlisted {g : Nat} {r : Rx} {s : State} (hs : r.src.toNat = 0xFE)
    (hf : (listed s g).find? (fun e => e.pos == payN r.pay 1 1) = none) : ident g r s = showAlien g (payN r.pay 1 1)
      (noteIdent g (payN r.pay 1 1, payN r.pay 4 4, payN r.pay 8 2, r.src.toNat) s) := by
  rw [← listed_noteIdent g g (payN r.pay 1 1, payN r.pay 4 4, payN r.pay 8 2, r.src.toNat)] at hf
  unfold noteIdent at hf
  unfold ident
  dsimp only at hf ⊢
  rw [hf]
  exact if_pos hs

theorem showAlien_gives (g pos : Nat) (s : State) :
    fbit (showAlien g pos s) NET_STATUS NET_STATUS_ALIEN = true ∧ ((showAlien g pos s).seg g).alien = true := by
  refine ⟨fbit_w1cSet_lo (by decide) (by decide), ?_⟩
  rw [showAlien, seg_of (congrArg NetSt.seg (w1cSet_net ..)), seg_setSeg_same]

theorem exec_enumRx_of_ident {r : Rx} {v s : State} (ho : rxOpen s r.port = true) (hl : 16 ≤ r.pay.length)
    (hc : selectCopy tENUM r (reachAt r.last s) = (true, v)) (hg : 4 ≤ segState v (r.port.n / 2)) (hop : payN r.pay 0 1 = eIDENT) :
    exec (.enumRx r) s = .next (ident (r.port.n / 2) r v) := by
  show execEnumRx r s = _
  unfold execEnumRx
  dsimp only
  rw [if_neg (by rw [ho]; decide), if_neg (by rw [hop]; simp; omega), hc]
  dsimp only
  rw [if_neg (by simp; omega), if_pos hop]

theorem exec_enumRx_of_closed {r : Rx} {s : State} (h : rxOpen s r.port = false) : exec (.enumRx r) s = .next s :=
  congrArg Host.Outcome.next (if_pos (by rw [h]; rfl))

/-- Settles O37: each event by the equation for its condition, then the segment or the node it leaves. -/
theorem enumerationActs : Obligations.EnumerationActs := by
  unfold Obligations.EnumerationActs
  refine ⟨?round, ?alien, fun r s h => exec_enumRx_of_closed h, ?redisc, ?rediscover, ?adopted, ?lost, fun n s h => exec_nodeLost_of_fewer h, ?late⟩
  case round =>
    intro g s h4 hp
    have hx := exec_discoverRound_of_new h4 hp
    have ht := execDiscoverRound_touch g s _ hx
    refine ⟨_, hx, ?_, ?_, ?_, ht.blocks _ (by decide), ht.only _ (by decide)⟩
    all_goals rw [seg_enqueue, seg_setSeg_same]
  case alien =>
    intro r v s ho hl hc hg hop hs hf
    have hx := exec_enumRx_of_ident ho hl hc hg hop
    rw [ident_of_unlisted hs hf] at hx
    have ht := execEnumRx_touch r s _ hx
    obtain ⟨hbit, hseg⟩ := showAlien_gives (r.port.n / 2) (payN r.pay 1 1)
      (noteIdent (r.port.n / 2) (payN r.pay 1 1, payN r.pay 4 4, payN r.pay 8 2, r.src.toNat) v)
    exact ⟨_, hx, hbit, hseg, ht.blocks _ (by decide), ht.only _ (by decide)⟩
  case redisc =>
    intro w s ha h0 h1
    obtain ⟨t, e, hlog, hacc, -⟩ := gated_logged ha (netCmdEff_redisc s)
    have hx : exec (.redisc w) s = .next t := by rw [exec_redisc, e]
    have ht := execRedisc_touch w s t hx
    refine ⟨t, hx, fun g hg => ?_, hacc, netCmd_words ht (by decide), ht.only _ (by decide)⟩
    rw [seg_of (hlog.same .netSeg rfl)]
    obtain rfl | rfl : g = 0 ∨ g = 1 := by omega
    · rw [seg_rediscover_other (by decide), seg_rediscover h0]
      exact ⟨rfl, rfl⟩
    · rw [seg_rediscover (by rw [segState_rediscover]; exact h1), seg_rediscover_other (by decide)]
      exact ⟨rfl, rfl⟩
  case rediscover =>
    intro s ha h4
    obtain ⟨b, hx⟩ := exec_rediscover_of_alien ha
    have ht := execRediscover_touch s _ hx
    refine ⟨_, hx, ?_, words_of ht (L := []) (by decide) trivial, ht.only _ (by decide)⟩
    cases b
    · rw [if_neg (by decide), seg_rediscover h4]
    · rw [if_pos rfl, seg_rediscover_other (by decide), seg_rediscover h4]
  case adopted =>
    intro n s h6 ha hr
    have hx := exec_nodeAdopted_of_ready h6 ha hr
    have ht := execNodeAdopted_touch n s _ hx
    refine ⟨_, hx, (nodeState_w1cSet_netStatus ..).trans (nodeState_setNodeState (by decide) ..), fbit_w1cSet_lo (by decide) (by decide),
      words_of ht (L := [85, 101, 263, 265]) (by decide)
        ⟨fun _ k => .inr (.inl (of_NET_STATUS k)), fun _ k => .inr (.inr (of_NODE_INFO k)), eachCls_sed fun _ => .inl⟩, ht.only _ (by decide)⟩
  case lost =>
    intro n s h4 hm
    have hx := exec_nodeLost_of_limit h4 hm
    have ht := execNodeLost_touch n s _ hx
    refine ⟨_, hx, ?_, ?_, nodeGone_words ht (by decide), ht.only _ (by decide)⟩
    · rw [nodeState_axesMissing, nodeState_w1cSet_netStatus, nodeState_setNodeState (by decide)]
    · rw [fbit_of_rd (rd_axesMissing_netStatus ..), fbit_w1cSet_lo (by decide) (by decide)]
  case late =>
    intro n s h6 h3 hs hr
    have hx := exec_syncNodeTimeout_of_late rfl h6 h3 hs hr
    have ht := execSyncNodeTimeout_touch n s _ hx
    obtain ⟨hst, hrd⟩ := makeAbsent_gives (fget s (NODE_INFO n.toNat) NODE_INFO_SEG) n.toNat
      (w1cSet NET_STATUS NET_STATUS_SYNC_LATE n.toNat s)
    exact ⟨_, hx, hst, (fbit_of_rd hrd).trans (fbit_w1cSet_lo (by decide) (by decide)), nodeGone_words ht (by decide),
      ht.only _ (by decide)⟩

end Sys2Proof.Laws

/-! PROOF. Segment states (O38): a segment starts, takes its time role, ends SYNC, and switches generation. -/

namespace Sys2Proof.Laws
open Sys2Proof Sys2Proof.Machine R

/-! ### The state of a segment (Table 9.3) -/

theorem segFld_ok (g : Nat) : fldOk (segFld g) := by unfold segFld; split <;> decide

theorem segState_of_rd {s t : State} (h : rd t NET_STATE = rd s NET_STATE) (g : Nat) : segState t g = segState s g := fget_of_rd h

theorem setSegState_of_net {x : Nat} (hx : x ≠ 8) (g : Nat) (s : State) : setSegState g x s = fset s NET_STATE (segFld g) x := if_neg hx

theorem segState_setSegState {x : Nat} (hx : x < 8) (g : Nat) (s : State) : segState (setSegState g x s) g = x := by
  have hw : (segFld g).hi - (segFld g).lo + 1 = 4 := by unfold segFld; split <;> rfl
  rw [setSegState_of_net (by omega), segState, fget_fset (segFld_ok g), hw]
  exact Nat.mod_eq_of_lt (by omega)

theorem segState_setSegState_other {g k x : Nat} (hx : x < 8) (h : fldApart (segFld g) (segFld k)) (s : State) :
    segState (setSegState g x s) k = segState s k := by
  rw [setSegState_of_net (by omega)]
  exact fget_fset_apart (segFld_ok g) (segFld_ok k) h x

/-- The state of a segment is a word of its own. -/
theorem rd_setSegState {a : Nat} (ha : a ≠ NET_STATE) (g x : Nat) (s : State) : rd (setSegState g x s) a = rd s a :=
  words_of (setSegState_touch g x s) (P := fun a => a = NET_STATE) (L := [82]) (by decide) ⟨fun _ => of_NET_STATE, trivial⟩ a ha

theorem seg_setSegState (g x : Nat) (s : State) (k : Nat) : (setSegState g x s).seg k = s.seg k :=
  seg_of ((setSegState_touch ..).same .netSeg rfl) k

theorem netCmdEff_segment (g : Bool) (s : State) : netCmdEff (if g then 2 else 1) s = some (startSeg g.toNat s) := by cases g <;> rfl

theorem exec_segmentStart (w : Who) (g : Bool) (s : State) :
    exec (.segmentStart w g) s = .next (gated w NET_CMD (if g then 2 else 1) (netCmdEff (if g then 2 else 1)) s) := rfl

/-! ### A segment starts (R333) -/

/-- Both ports of a segment are enabled. -/
def enablePorts (g : Nat) (s : State) : State :=
  fput (fput s (PORT_CTRL (2 * g)) PORT_CTRL_EN true) (PORT_CTRL (2 * g + 1)) PORT_CTRL_EN true

theorem startSeg_of_started {g : Nat} {s : State} (h : segState s g ≠ 0) : startSeg g s = s := if_pos h

/-- LINKS goes on while channel A has no link. -/
theorem startSeg_of_off {g : Nat} {s : State} (h0 : segState s g = 0) (hl : lstate s (2 * g) < 6) :
    startSeg g s = enablePorts g (setSegState g 1 (roleTake s)) := by
  have hd : lstate (enablePorts g (setSegState g 1 (roleTake s))) (2 * g) = lstate s (2 * g) := by
    refine lstate_of_rd ?_
    rw [enablePorts, fput, fput, rd_fset_other (by unfold PORT_STATUS PORT_CTRL; omega), rd_fset_other (by unfold PORT_STATUS PORT_CTRL; omega),
      rd_setSegState (by unfold PORT_STATUS NET_STATE; omega)]
    exact (roleTake_touch s).off (okw_PORT_STATUS (m := k_setLstate) (by decide)) (by decide)
  have e : startSeg g s = linksDone g (enablePorts g (setSegState g 1 (roleTake s))) := if_neg (by simpa using h0)
  rw [e]
  exact if_neg (by rw [hd, decide_eq_false (by omega : ¬ 6 ≤ lstate s (2 * g)), Bool.and_false, Bool.false_and]; decide)

theorem enablePorts_gives (g : Nat) (s : State) : segState (enablePorts g s) g = segState s g ∧
    fbit (enablePorts g s) (PORT_CTRL (2 * g)) PORT_CTRL_EN = true ∧ fbit (enablePorts g s) (PORT_CTRL (2 * g + 1)) PORT_CTRL_EN = true := by
  unfold enablePorts
  refine ⟨segState_of_rd ?_ g, ?_, fbit_fput (by decide) _⟩
  · rw [fput, fput, rd_fset_other (by unfold NET_STATE PORT_CTRL; omega), rd_fset_other (by unfold NET_STATE PORT_CTRL; omega)]
  · rw [fbit_fput_other (by unfold PORT_CTRL; omega), fbit_fput (by decide)]

theorem portCtrl_not_log (p : Nat) : ¬ logAddr (PORT_CTRL p) = true := not_log (by unfold PORT_CTRL; omega)

/-! ### The end of DELAY (R336, R354) -/

theorem role_of_rd {s t : State} (h : rd t TIME_STATUS = rd s TIME_STATUS) : role t = role s := fget_of_rd h

theorem timed_of_rd {s t : State} (h : rd t TIME_STATUS = rd s TIME_STATUS) : timed t = timed s := by
  unfold timed; rw [role_of_rd h, fbit_of_rd h]

theorem role_listenDone (s : State) : role (listenDone s) = role s := role_of_rd ((listenDone_touch s).rd _ (by decide))

/-- A segment in LISTEN goes on to ENUM. -/
def leaveListen (g : Nat) (s : State) : State := if segState s g = 3 then enterEnum g s else s

theorem listenDone_of_timed {s : State} (h : timed s = true) : listenDone s = leaveListen 1 (leaveListen 0 s) := if_pos h
theorem listenDone_of_untimed {s : State} (h : timed s = false) : listenDone s = s := if_neg (by rw [h]; decide)

theorem leaveListen_gives {g : Nat} {s : State} (h : segState s g = 3) : segState (leaveListen g s) g = 4 ∧
    ((leaveListen g s).seg g).todo = [{ typ := tENUM, pay := discoverPay }] := by
  rw [leaveListen, if_pos h, enterEnum, segState_setSegState (by decide), seg_setSegState, seg_setSeg_same]
  exact ⟨rfl, rfl⟩

theorem leaveListen_other {g k : Nat} (hk : k ≠ g) (h : fldApart (segFld g) (segFld k)) (s : State) :
    segState (leaveListen g s) k = segState s k ∧ (leaveListen g s).seg k = s.seg k := by
  unfold leaveListen
  split
  · rw [enterEnum, segState_setSegState_other (by decide) h, seg_setSegState, seg_setSeg, if_neg hk]
    exact ⟨segState_of_rd (rd_setSeg ..) k, rfl⟩
  · exact ⟨rfl, rfl⟩

/-- Whichever segment listens, it goes on to ENUM once the head has its time role. -/
theorem listenDone_gives {g : Bool} {s : State} (ht : timed s = true) (h3 : segState s g.toNat = 3) :
    segState (listenDone s) g.toNat = 4 ∧ ((listenDone s).seg g.toNat).todo = [{ typ := tENUM, pay := discoverPay }] := by
  rw [listenDone_of_timed ht]
  cases g
  · obtain ⟨hst, hseg⟩ := leaveListen_other (g := 1) (k := 0) (by decide) (by decide) (leaveListen 0 s)
    show segState _ 0 = 4 ∧ (State.seg _ 0).todo = _
    rw [hst, hseg]
    exact leaveListen_gives h3
  · exact leaveListen_gives ((leaveListen_other (by decide) (by decide) s).1.trans h3)

theorem exec_delayStateEnd_of_unknown {g : Bool} {s : State} (h2 : segState s g.toNat = 2) (hr : role s = 0) :
    exec (.delayStateEnd g) s = .next (listenDone (fset (setSegState g.toNat 3 s) TIME_STATUS TIME_STATUS_ROLE 3)) := by
  have hrole : role (setSegState g.toNat 3 s) = 0 := (role_of_rd (rd_setSegState (by decide) ..)).trans hr
  exact congrArg Host.Outcome.next ((if_neg (by simpa using h2)).trans (congrArg listenDone (if_pos hrole)))

theorem exec_delayStateEnd_of_known {g : Bool} {s : State} (h2 : segState s g.toNat = 2) (hr : role s ≠ 0) :
    exec (.delayStateEnd g) s = .next (listenDone (setSegState g.toNat 3 s)) := by
  have hrole : role (setSegState g.toNat 3 s) ≠ 0 := (role_of_rd (rd_setSegState (by decide) ..)).trans_ne hr
  exact congrArg Host.Outcome.next ((if_neg (by simpa using h2)).trans (congrArg listenDone (if_neg hrole)))

/-- The frame of DELAY_STATE_END. -/
theorem delayStateEnd_frame {g : Bool} {s t : State} (hx : exec (.delayStateEnd g) s = .next t) :
    regsOnly (fun a => a = R.TIME_STATUS ∨ a = R.NET_STATE) s t ∧ onlyParts [.netSeg] s t := by
  have ht := execDelayStateEnd_touch g s t hx
  exact ⟨words_of ht (L := [71, 82]) (by decide) ⟨fun _ k => .inl (of_TIME_STATUS k), fun _ k => .inr (of_NET_STATE k), trivial⟩,
    ht.only _ (by decide)⟩

/-! ### The end of SYNC (R337) -/

/-- Every addressed node is in service and the segment in RUN. -/
def enterRun (g : Nat) (s : State) : State := setSegState g 7 (eachN (nodesIn s g 3) (setNodeState · 4) s)

theorem exec_syncEnd_of_done {g : Bool} {s : State} (h6 : segState s g.toNat = 6) (hs : syncLen s ≤ (s.seg g.toNat).sync) (hr : roundIdx s = 0)
    (hn : ∀ n ∈ nodesIn s g.toNat 3, 64 ≤ (s.node n).run) : exec (.syncEnd g) s = .next (bootSuccess (takeModes g.toNat (enterRun g.toNat s))) := by
  have hall : (nodesIn s g.toNat 3).all (fun n => 64 ≤ (s.node n).run) = true := List.all_eq_true.2 fun n hm => decide_eq_true (hn n hm)
  exact congrArg Host.Outcome.next (if_pos (by rw [h6, hr, decide_eq_true hs, hall]; rfl))

theorem exec_syncEnd_of_not {g : Bool} {s : State} (h : segState s g.toNat ≠ 6 ∨ (s.seg g.toNat).sync < syncLen s ∨ roundIdx s ≠ 0) :
    exec (.syncEnd g) s = .next s := by
  refine congrArg Host.Outcome.next (if_neg ?_)
  rw [Bool.and_eq_true, Bool.and_eq_true, Bool.and_eq_true, decide_eq_true_eq, decide_eq_true_eq, decide_eq_true_eq]
  omega

theorem segState_bootSuccess_takeModes (g : Nat) (s : State) (k : Nat) : segState (bootSuccess (takeModes g s)) k = segState s k :=
  segState_of_rd (((bootSuccess_touch _).rd _ (by decide)).trans ((takeModes_touch ..).rd _ (by decide))) k

/-! ### The generation switch (R322) -/

theorem netCmdEff_switch {s : State} (h : switchOk s = true) : netCmdEff 0x100 s = some { s with net.armed := true } :=
  if_neg (by rw [h]; decide)

theorem exec_switch (w : Who) (s : State) : exec (.switch w) s = .next (gated w NET_CMD 0x100 (netCmdEff 0x100) s) := rfl

theorem loadGen_gives (x : SchedGen) (s : State) : (loadGen x s).net.gen = some x ∧ fget (loadGen x s) NET_SGEN NET_SGEN_ACTIVE = x.sgen % 2 ^ 16 := by
  unfold loadGen
  dsimp only
  refine eachN_k (P := fun t : State => t.net.gen = some x ∧ fget t NET_SGEN NET_SGEN_ACTIVE = x.sgen % 2 ^ 16) (fun p t ht => ?_)
    ⟨congrArg NetSt.gen (fset_net ..), fget_fset (by decide) x.sgen⟩
  exact ⟨((rejudge_touch p t).same .netGen rfl).trans ht.1, (fget_of_rd ((rejudge_touch p t).rd _ (by decide))).trans ht.2⟩

/-- The acknowledgements of the next generation become those of the present one. -/
def takeAcks (s : State) : State :=
  eachN (s.net.nodes.map (·.addr)) (fun n s => s.setNode n { s.node n with acked := (s.node n).ackNext, ackNext := false }) s

theorem takeAcks_keeps (s : State) : (takeAcks s).regs = s.regs ∧ (takeAcks s).net.gen = s.net.gen ∧ (takeAcks s).net.next = s.net.next ∧
    (takeAcks s).net.armed = s.net.armed :=
  eachN_k (P := fun t : State => t.regs = s.regs ∧ t.net.gen = s.net.gen ∧ t.net.next = s.net.next ∧ t.net.armed = s.net.armed)
    (fun _ _ ht => ht) ⟨rfl, rfl, rfl, rfl⟩

theorem takeNext_of_next {x : SchedGen} {s : State} (h : s.net.next = some x) :
    takeNext s = fset (takeAcks (loadGen x { s with net.next := none, net.armed := false })) NET_SGEN NET_SGEN_NEXT 0 := by
  unfold takeNext
  rw [h]
  rfl

theorem takeNext_gives {x : SchedGen} {s : State} (h : s.net.next = some x) : (takeNext s).net.gen = some x ∧ (takeNext s).net.next = none ∧
    (takeNext s).net.armed = false ∧ fget (takeNext s) NET_SGEN NET_SGEN_ACTIVE = x.sgen % 2 ^ 16 ∧ fget (takeNext s) NET_SGEN NET_SGEN_NEXT = 0 := by
  obtain ⟨hgen, hact⟩ := loadGen_gives x { s with net.next := none, net.armed := false }
  obtain ⟨kregs, kgen, knext, karmed⟩ := takeAcks_keeps (loadGen x { s with net.next := none, net.armed := false })
  rw [takeNext_of_next h, fset_net]
  refine ⟨kgen.trans hgen, knext.trans ((loadGen_touch ..).same .netNext rfl), karmed.trans ((loadGen_touch ..).same .netArmed rfl), ?_,
    fget_fset (by decide) 0⟩
  rw [fget_fset_apart (by decide) (by decide) (by decide), fget_of_regs kregs, hact]

theorem exec_schedSwitchApply_of_armed {s : State} (ha : s.net.armed = true) (hr : roundIdx s = 0) :
    exec .schedSwitchApply s = .next (takeNext s) := congrArg Host.Outcome.next (if_pos (by rw [ha, hr]; rfl))

theorem exec_schedSwitchApply_of_not {s : State} (h : s.net.armed = false ∨ roundIdx s ≠ 0) : exec .schedSwitchApply s = .next s := by
  refine congrArg Host.Outcome.next (if_neg ?_)
  rcases h with h | h
  · rw [h, Bool.false_and]; decide
  · rw [decide_eq_false h, Bool.and_false]; decide

/-- Settles O38: each command by the equation for its condition, then the state of the segment or the generation it leaves. -/
theorem segmentStatesAct : Obligations.SegmentStatesAct := by
  unfold Obligations.SegmentStatesAct
  refine ⟨?start, ?started, ?switch, ?listen, ?enum, ?run, fun g s h => exec_syncEnd_of_not h, ?apply, fun s h => exec_schedSwitchApply_of_not h⟩
  case start =>
    intro w g s ha h0 hl
    obtain ⟨t, e, -, hacc, hrd⟩ := gated_logged ha (netCmdEff_segment g s)
    rw [startSeg_of_off h0 hl] at hrd
    have hx : exec (.segmentStart w g) s = .next t := by rw [exec_segmentStart, e]
    have ht := execSegmentStart_touch w g s t hx
    obtain ⟨hst, hA, hB⟩ := enablePorts_gives g.toNat (setSegState g.toNat 1 (roleTake s))
    refine ⟨t, hx, ?_, (fbit_of_rd (hrd _ (portCtrl_not_log _))).trans hA, (fbit_of_rd (hrd _ (portCtrl_not_log _))).trans hB, hacc,
      netCmd_words ht (by decide), ht.only _ (by decide)⟩
    rw [segState_of_rd (hrd _ (not_log (by decide))), hst, segState_setSegState (by decide)]
  case started =>
    intro w g s ha h0
    obtain ⟨t, e, hlog, hacc, hrd⟩ := gated_logged ha (netCmdEff_segment g s)
    rw [startSeg_of_started h0] at hlog hrd
    exact ⟨t, by rw [exec_segmentStart, e], hrd, hlog.same .netSeg rfl, hacc⟩
  case switch =>
    intro w s ha hs
    obtain ⟨t, e, hlog, hacc, -⟩ := gated_logged ha (netCmdEff_switch hs)
    have hx : exec (.switch w) s = .next t := by rw [exec_switch, e]
    have ht := execSwitch_touch w s t hx
    exact ⟨t, hx, hlog.same .netArmed rfl, hacc, netCmd_words ht (by decide), ht.only _ (by decide)⟩
  case listen =>
    intro g s h2 hr
    have hx := exec_delayStateEnd_of_unknown h2 hr
    have hrole : role (fset (setSegState g.toNat 3 s) TIME_STATUS TIME_STATUS_ROLE 3) = 3 := fget_fset (by decide) 3
    rw [listenDone_of_untimed (by unfold timed; rw [hrole]; rfl)] at hx
    refine ⟨_, hx, ?_, hrole, delayStateEnd_frame hx⟩
    rw [segState_of_rd (rd_fset_other (by decide)), segState_setSegState (by decide)]
  case enum =>
    intro g s h2 hr
    have hx := exec_delayStateEnd_of_known h2 (by omega)
    have hrole : role (setSegState g.toNat 3 s) = 1 := (role_of_rd (rd_setSegState (by decide) ..)).trans hr
    obtain ⟨hst, htodo⟩ := listenDone_gives (g := g) (by unfold timed; rw [hrole]; rfl) (segState_setSegState (by decide) g.toNat s)
    exact ⟨_, hx, hst, htodo, (role_listenDone _).trans hrole, delayStateEnd_frame hx⟩
  case run =>
    intro g s h6 hs hr hn
    have hx := exec_syncEnd_of_done h6 hs hr hn
    have ht := execSyncEnd_touch g s _ hx
    refine ⟨_, hx, ?_, ht.blocks _ (by decide), ht.only _ (by decide)⟩
    rw [segState_bootSuccess_takeModes, enterRun, segState_setSegState (by decide)]
  case apply =>
    intro x s ha hr hn
    have hx := exec_schedSwitchApply_of_armed ha hr
    have ht := execSchedSwitchApply_touch s _ hx
    obtain ⟨hgen, hnext, harmed, hact, hzero⟩ := takeNext_gives hn
    exact ⟨_, hx, hgen, hnext, harmed, hact, hzero, words_of ht (L := [84, 87, 104, 105]) (by decide)
      ⟨fun _ k => .inl (of_NET_SGEN k), fun _ k => .inr (.inl (of_PORT_STATUS k)), fun _ k => .inr (.inr (.inl (of_SCHED_TABLE k))),
       fun _ k => .inr (.inr (.inr (of_POLL_TABLE k))), trivial⟩, ht.only _ (by decide)⟩

end Sys2Proof.Laws

/-! PROOF. Reference time (O39): the wrap of network time, reference messages, and the head as master and slave. -/

namespace Sys2Proof.Laws
open Sys2Proof Sys2Proof.Machine R

/-! ### The wrap of TIME_NS (R341, R342) -/

/-- Network time reaches a later instant before WRAP_PEND is full: each wrap on the way is counted. -/
theorem setNow_gives {ns : Nat} {s : State} (h : s.time.ns < ns) (hns : ns < 2 ^ 64)
    (hp : fget s TIME_STATUS TIME_STATUS_WRAP_PEND + (ns / 2 ^ 32 - s.time.ns / 2 ^ 32) < 4) :
    (setNow ns s).time.ns = ns ∧ fget (setNow ns s) TIME_STATUS TIME_STATUS_WRAP_PEND =
      fget s TIME_STATUS TIME_STATUS_WRAP_PEND + (ns / 2 ^ 32 - s.time.ns / 2 ^ 32) := by
  have hw : fget (sampleDepths ns s) TIME_STATUS TIME_STATUS_WRAP_PEND = fget s TIME_STATUS TIME_STATUS_WRAP_PEND :=
    fget_of_rd ((sampleDepths_touch ns s).rd _ (by decide))
  have ht : (sampleDepths ns s).time.ns = s.time.ns := (sampleDepths_touch ns s).same .timeNs rfl
  unfold setNow
  rw [if_neg (by omega)]
  dsimp only
  rw [hw, ht, fset_time, fget_fset (by decide)]
  constructor
  · rw [Nat.div_eq_of_lt hp, Nat.zero_mul, Nat.sub_zero]
    exact Nat.mod_eq_of_lt hns
  · exact Nat.mod_eq_of_lt hp

theorem exec_timeWrap_of_later {s : State} (h : s.time.start + tb s < (s.time.ns / 2 ^ 32 + 1) * 2 ^ 32) : exec .timeWrap s = .next s :=
  congrArg Host.Outcome.next (if_neg (by omega))

theorem exec_timeWrap_of_due {s : State} (h : (s.time.ns / 2 ^ 32 + 1) * 2 ^ 32 ≤ s.time.start + tb s) :
    exec .timeWrap s = .next (setNow ((s.time.ns / 2 ^ 32 + 1) * 2 ^ 32) s) := congrArg Host.Outcome.next (if_pos h)

theorem exec_eraUpdate (s : State) : exec .eraUpdate s = .next (fset s TIME_STATUS TIME_STATUS_WRAP_PEND 0) := rfl

/-! ### Reference messages leave (R345) -/

/-- The line frame of channel A, in the form the channel carries. -/
theorem tx_sendLine {g typ da : Nat} {pay : List (BitVec 8)} {s : State} (he : txEnable s = true) (hl : lstate s (2 * g) = 6) :
    ((sendLine g typ da pay s).link (2 * g)).tx = some (if compactNow s (2 * g)
      then compactFrame (halomHdr typ (if allHn2 s (2 * g) then 2 else 1) (haddr s) pay.length (farEnd s) false) pay
      else stdFrame da (haddr s) (s.link (2 * g)).etype (halomHdr typ (if allHn2 s (2 * g) then 2 else 1) (haddr s) pay.length (farEnd s) false) pay) := by
  have hA : (2 * g % 2 == 1) = false := by simp
  rw [sendLine_of_lead he, link_sendLineOn_other (by omega), sendLineOn, if_neg (not_not.2 hl), hA, link_sendOn_same]

theorem exec_refTx_of_master {g : Bool} {dep : BitVec 10} {s : State} (hr : role s = 1) (hg : 4 ≤ segState s g.toNat) :
    exec (.refTx g dep) s = .next (sendLine g.toNat tREF 0xFF (refPay s dep.toNat) s) :=
  congrArg Host.Outcome.next (if_pos (by rw [hr, decide_eq_true hg]; rfl))

/-! ### The role of the head (R351) -/

theorem rd_applyInc (s : State) (a : Nat) : rd (applyInc s) a = rd s a := rfl

/-- A head that leads network time shows its own serial number and applies no servo. -/
def leadTime (s : State) : State := applyInc (wr { s with time.missed := 0 } TIME_MSERIAL Config.serial)

theorem becomeMaster_eq (s : State) :
    becomeMaster s = leadTime (fset (fset s TIME_STATUS TIME_STATUS_ROLE 1) TIME_STATUS TIME_STATUS_MRANK (rank s)) := rfl

theorem rd_leadTime {a : Nat} (ha : a ≠ TIME_MSERIAL) (s : State) : rd (leadTime s) a = rd s a := (rd_applyInc ..).trans (rd_wr_other _ _ ha)

theorem becomeMaster_gives (s : State) : role (becomeMaster s) = 1 ∧ rd (becomeMaster s) TIME_MSERIAL = Config.serial := by
  rw [becomeMaster_eq]
  refine ⟨?_, (rd_applyInc ..).trans (rd_wr_same ..)⟩
  rw [role_of_rd (rd_leadTime (by decide) _), role, fget_fset_apart (by decide) (by decide) (by decide), fget_fset (by decide)]
  rfl

/-- A head that follows network time shows its master's serial number; its servo starts anew. -/
def followTime (serial : Nat) (s : State) : State :=
  wrN { s with time.missed := 0, time.near := 0, time.far := 0, time.integ := 0 } TIME_MSERIAL serial

theorem becomeSlave_eq (r serial : Nat) (s : State) : becomeSlave r serial s = followTime serial
    (fput (fset (fset s TIME_STATUS TIME_STATUS_ROLE 2) TIME_STATUS TIME_STATUS_MRANK r) TIME_STATUS TIME_STATUS_LOCK false) := rfl

theorem rd_followTime {a : Nat} (ha : a ≠ TIME_MSERIAL) (serial : Nat) (s : State) : rd (followTime serial s) a = rd s a := rd_wr_other _ _ ha

theorem rank_of_rd {s t : State} (hc : rd t PAIR_CTRL = rd s PAIR_CTRL) (hs : rd t PAIR_STATUS = rd s PAIR_STATUS) : rank t = rank s := by
  unfold rank; rw [fbit_of_rd hc, fget_of_rd hs]

/-- A head that yields is the slave of the master it heard; YIELD says so. -/
def yieldTo (r serial : Nat) (s : State) : State := becomeSlave r serial (w1cSet TIME_STATUS TIME_STATUS_YIELD 0 s)

theorem becomeSlave_gives (r serial : Nat) (s : State) : role (becomeSlave r serial s) = 2 ∧
    fget (becomeSlave r serial s) TIME_STATUS TIME_STATUS_YIELD = fget s TIME_STATUS TIME_STATUS_YIELD := by
  have hrd := rd_followTime (a := TIME_STATUS) (by decide) serial
  rw [becomeSlave_eq, role_of_rd (hrd _), fget_of_rd (hrd _), role, fput]
  constructor
  · rw [fget_fset_apart (by decide) (by decide) (by decide), fget_fset_apart (by decide) (by decide) (by decide), fget_fset (by decide)]
    rfl
  · rw [fget_fset_apart (by decide) (by decide) (by decide), fget_fset_apart (by decide) (by decide) (by decide),
      fget_fset_apart (by decide) (by decide) (by decide)]

theorem yieldTo_gives (r serial : Nat) (s : State) :
    role (yieldTo r serial s) = 2 ∧ fbit (yieldTo r serial s) TIME_STATUS TIME_STATUS_YIELD = true ∧ rank (yieldTo r serial s) = rank s := by
  obtain ⟨hrole, hyield⟩ := becomeSlave_gives r serial (w1cSet TIME_STATUS TIME_STATUS_YIELD 0 s)
  refine ⟨hrole, ?_, ?_⟩
  · rw [fbit, yieldTo, hyield, fget_w1cSet_lo (by decide) (by decide)]
    rfl
  · refine rank_of_rd ?_ ?_
    all_goals exact ((becomeSlave_touch ..).rd _ (by decide)).trans (rd_w1cSet_lo (by decide) (by decide))

/-! ### The servo (R349) -/

/-- A field of TIME_STATUS beside STEP, LOCK and MRANK. -/
abbrev timeFlag (f : Fld) : Prop := fldOk f ∧ fldApart TIME_STATUS_STEP f ∧ fldApart TIME_STATUS_LOCK f ∧ fldApart TIME_STATUS_MRANK f

/-- A field of TIME_STATUS reads as before. -/
def keepsFlag (f : Fld) (s t : State) : Prop := fget t TIME_STATUS f = fget s TIME_STATUS f

/-- A run of the servo moves STEP and LOCK of TIME_STATUS only: STEP when it steps, LOCK as it counts near and far offsets. -/
theorem timeStatus_servo {f : Fld} (hf : timeFlag f) (off : Int) (tx cyc : Nat) (s : State) : keepsFlag f s (servo off tx cyc s) := by
  obtain ⟨hok, hstep, hlock, -⟩ := hf
  have hofs : keepsFlag f s (wrN s TIME_OFS (ux 32 (sat 32 off))) := fget_wr_other (by decide) _
  have hfput : ∀ b u, fget (fput u TIME_STATUS TIME_STATUS_LOCK b) TIME_STATUS f = fget u TIME_STATUS f :=
    fun _ _ => fget_fset_apart (by decide) hok hlock _
  refine ite_k (P := keepsFlag f s) ?_ ?_
  · refine (fget_of_rd ((setCyc_touch ..).rd _ (by decide))).trans ?_
    exact (hfput _ _).trans ((fget_w1cSet_apart_lo (by decide) hok hstep (by decide)).trans hofs)
  · have hadj : ∀ (u : State) (v : Nat), u.regs = (wrN s TIME_OFS (ux 32 (sat 32 off))).regs → keepsFlag f s (wrN u TIME_ADJ v) :=
      fun u v hu => (fget_wr_other (by decide) _).trans ((fget_of_regs hu ..).trans hofs)
    refine (fget_of_rd (rd_applyInc ..)).trans (ite_k (P := keepsFlag f s) ?_ (ite_k (P := keepsFlag f s) ?_ ?_))
    · exact (hfput _ _).trans (hadj _ _ rfl)
    · exact (hfput _ _).trans (hadj _ _ rfl)
    · exact hadj _ _ rfl

/-! ### Reference messages arrive (R347, R352, R354) -/

/-- A REF copy that is used names its master. -/
def noteMaster (r serial : Nat) (s : State) : State :=
  fset (wrN { s with time.missed := 0 } TIME_MSERIAL serial) TIME_STATUS TIME_STATUS_MRANK r

/-- The generation a REF names comes into force when it is the next one. -/
def followGen (sgen : Nat) (s : State) : State := if s.net.next.any fun x => x.sgen == sgen then takeNext s else s

/-- A locked head takes the lead over a master of higher rank number. -/
def overtake (r : Nat) (s : State) : State := if fbit s TIME_STATUS TIME_STATUS_LOCK && rank s < r && txEnable s then becomeMaster s else s

theorem useRef_eq (r : Rx) (s : State) : ∃ off tx, useRef r s = overtake (payN r.pay 3 1 / 64) (followGen (payN r.pay 4 2)
    (servo off tx (payN r.pay 0 2) (noteMaster (payN r.pay 3 1 / 64) (payN r.pay 20 4) s))) := ⟨_, _, rfl⟩

theorem rd_noteMaster {a : Nat} (hm : a ≠ TIME_MSERIAL) (hs : a ≠ TIME_STATUS) (r serial : Nat) (s : State) : rd (noteMaster r serial s) a = rd s a :=
  (rd_fset_other hs).trans (rd_wr_other _ _ hm)

theorem noteMaster_gives (r serial : Nat) (s : State) : rd (noteMaster r serial s) TIME_MSERIAL = BitVec.ofNat 32 serial ∧
    ∀ f, timeFlag f → keepsFlag f s (noteMaster r serial s) :=
  ⟨(rd_fset_other (by decide)).trans (rd_wr_same ..), fun _ ⟨hok, _, _, hrank⟩ =>
    (fget_fset_apart (by decide) hok hrank _).trans (fget_wr_other (by decide) _)⟩

/-- A change of generation leaves the words of the time unit and of the head pair. -/
theorem rd_followGen {a : Nat} (ha : (regBits k_takeNext).all (fun k => !inCls k a) = true) (sgen : Nat) (s : State) : rd (followGen sgen s) a = rd s a := by
  unfold followGen
  split
  · exact (takeNext_touch s).rd a ha
  · rfl

/-- A REF that is used by a head of no lower rank number leaves it a slave of the master the REF names. -/
theorem useRef_gives {r : Rx} {s : State} (hr : payN r.pay 3 1 / 64 ≤ rank s) : role (useRef r s) = role s ∧
    fbit (useRef r s) TIME_STATUS TIME_STATUS_YIELD = fbit s TIME_STATUS TIME_STATUS_YIELD ∧
    rd (useRef r s) TIME_MSERIAL = BitVec.ofNat 32 (payN r.pay 20 4) := by
  obtain ⟨off, tx, e⟩ := useRef_eq r s
  rw [e]
  generalize hu : noteMaster (payN r.pay 3 1 / 64) (payN r.pay 20 4) s = u
  generalize hv : followGen (payN r.pay 4 2) (servo off tx (payN r.pay 0 2) u) = v
  obtain ⟨hserial, hflag⟩ := noteMaster_gives (payN r.pay 3 1 / 64) (payN r.pay 20 4) s
  have hrd : ∀ a, (regBits k_takeNext).all (fun k => !inCls k a) = true → (regBits k_servo).all (fun k => !inCls k a) = true → rd v a = rd u a :=
    fun a ht hs => by rw [← hv, rd_followGen ht, (servo_touch ..).rd a hs]
  have hfld : ∀ f, timeFlag f → keepsFlag f s v := fun f hf => by
    rw [hu] at hflag
    rw [← hv]
    exact (fget_of_rd (rd_followGen (by decide) ..)).trans ((timeStatus_servo hf ..).trans (hflag f hf))
  have hrank : rank v = rank s := by
    refine rank_of_rd ?_ ?_
    all_goals rw [hrd _ (by decide) (by decide), ← hu, rd_noteMaster (by decide) (by decide)]
  have hkeep : overtake (payN r.pay 3 1 / 64) v = v := by
    refine if_neg ?_
    rw [hrank, decide_eq_false (by omega : ¬ rank s < payN r.pay 3 1 / 64), Bool.and_false, Bool.false_and]
    decide
  rw [hkeep]
  refine ⟨hfld _ (by decide), ?_, ?_⟩
  · rw [fbit, (hfld TIME_STATUS_YIELD (by decide) : fget v _ _ = _), fbit]
  · rw [hrd _ (by decide) (by decide), ← hu, hserial]

theorem judgeRank_of_higher {r serial : Nat} {s : State} (h : rank s < r) : judgeRank r serial s = (false, s) :=
  (if_neg (by omega)).trans (if_neg (by omega))

theorem judgeRank_of_lower {r serial : Nat} {s : State} (h : r < rank s) : judgeRank r serial s = (true, yieldTo r serial s) := if_pos h

/-- A master judges the first copy of another master's REF. -/
theorem exec_refRx_of_master {r : Rx} {v s : State} (ho : rxOpen s r.port = true) (hl : 24 ≤ r.pay.length) (hc : selectCopy tREF r s = (true, v))
    (hr : role v = 1) : exec (.refRx r) s = .next (if (judgeRank (payN r.pay 3 1 / 64) (payN r.pay 20 4) v).1
      then useRef r (judgeRank (payN r.pay 3 1 / 64) (payN r.pay 20 4) v).2 else (judgeRank (payN r.pay 3 1 / 64) (payN r.pay 20 4) v).2) := by
  show execRefRx r s = _
  unfold execRefRx
  dsimp only
  rw [if_neg (by rw [ho]; decide), if_neg (by omega), hc]
  dsimp only
  rw [if_neg (by decide), hr]
  rfl

/-! ### The end of LISTEN, missing messages and backups (R353, R354) -/

/-- The start of the next basic cycle on the grid of network time. -/
def nextStart (s : State) : Nat := (s.time.ns + tb s - 1) / tb s * tb s

theorem exec_listenEnd_of_free {s : State} (hr : role s = 3) (he : txEnable s = true) (hf : fbit s PTP_CTRL PTP_CTRL_FOLLOW = false) :
    exec .listenEnd s = .next (listenDone (becomeMaster { s with time.grid := some (nextStart s, 0) })) := by
  show execListenEnd s = _
  unfold execListenEnd
  rw [if_neg (by rw [hr, he]; decide)]
  dsimp only
  rw [if_neg (by rw [hf]; simp)]
  rfl

theorem exec_listenEnd_of_not {s : State} (h : role s ≠ 3 ∨ txEnable s = false) : exec .listenEnd s = .next s := by
  refine congrArg Host.Outcome.next (if_pos ?_)
  rcases h with h | h
  · rw [decide_eq_true h, Bool.true_or]
  · rw [h]; simp

/-- A reference message has not come: counted, shown, and one more in a row. -/
def missRef (s : State) : State :=
  let u := w1cSet TIME_STATUS TIME_STATUS_REFMISS 0 (wrN s REF_MISS_CNT (rdN s REF_MISS_CNT + 1))
  { u with time.missed := u.time.missed + 1 }

theorem exec_refWindowMiss_of_slave {s : State} (h : role s = 2) : exec .refWindowMiss s = .next (missRef s) :=
  congrArg Host.Outcome.next (if_neg (by omega))

theorem missRef_gives (s : State) : rd (missRef s) REF_MISS_CNT = rd s REF_MISS_CNT + 1 ∧ fbit (missRef s) TIME_STATUS TIME_STATUS_REFMISS = true ∧
    (missRef s).time.missed = s.time.missed + 1 := by
  have hreg : ∀ a, rd (missRef s) a = rd (w1cSet TIME_STATUS TIME_STATUS_REFMISS 0 (wrN s REF_MISS_CNT (rdN s REF_MISS_CNT + 1))) a := fun _ => rfl
  refine ⟨?_, ?_, ?_⟩
  · rw [hreg, rd_w1cSet_lo (by decide) (by decide), rd_count]
  · rw [fbit_of_rd (hreg _), fbit_w1cSet_lo (by decide) (by decide)]
  · simp [missRef]

theorem exec_refBackupStart_of_due {s : State} (hr : role s = 2) (hk : 0 < ranksBetween s (fget s TIME_STATUS TIME_STATUS_MRANK) (rank s))
    (hm : 3 * ranksBetween s (fget s TIME_STATUS TIME_STATUS_MRANK) (rank s) ≤ s.time.missed) (he : txEnable s = true) :
    exec .refBackupStart s = .next (w1cSet TIME_STATUS TIME_STATUS_TAKEN 0 (becomeMaster s)) :=
  congrArg Host.Outcome.next (if_pos (by rw [hr, he, decide_eq_true hk, decide_eq_true hm]; rfl))

theorem exec_refBackupStart_of_not {s : State} (h : role s ≠ 2 ∨ txEnable s = false) : exec .refBackupStart s = .next s := by
  refine congrArg Host.Outcome.next (if_neg ?_)
  rcases h with h | h
  · rw [decide_eq_false h]; simp
  · rw [h, Bool.and_false]; decide

/-- Settles O39: each event by the equation for its condition, then the role, the count or the frame it leaves. -/
theorem referenceTimeActs : Obligations.ReferenceTimeActs := by
  unfold Obligations.ReferenceTimeActs
  refine ⟨fun s h => exec_timeWrap_of_later h, ?wrap, ?era, ?send, ?lead, fun s h => exec_listenEnd_of_not h, ?stay, ?yields, ?missed, ?backup,
    fun s h => exec_refBackupStart_of_not h⟩
  case wrap =>
    intro s hw hns hp
    have hx := exec_timeWrap_of_due hw
    have ht := execTimeWrap_touch s _ hx
    obtain ⟨hnow, hpend⟩ := setNow_gives (ns := (s.time.ns / 2 ^ 32 + 1) * 2 ^ 32) (s := s) (by omega) (by omega) (by omega)
    refine ⟨_, hx, hnow, hpend.trans ?_, words_of ht (L := [71]) (by decide) ⟨fun _ => of_TIME_STATUS, trivial⟩, ht.only _ (by decide)⟩
    omega
  case era =>
    intro s
    have ht := execEraUpdate_touch s _ (exec_eraUpdate s)
    exact ⟨_, exec_eraUpdate s, fget_fset (by decide) 0, fset_time .., words_of ht (L := [71]) (by decide) ⟨fun _ => of_TIME_STATUS, trivial⟩,
      ht.only _ (by decide)⟩
  case send =>
    intro g dep s hr hg he hl
    have hx := exec_refTx_of_master (dep := dep) hr hg
    have ht := execRefTx_touch g dep s _ hx
    refine ⟨_, hx, ?_, words_of ht (L := [97]) (by decide) ⟨fun _ => of_TX_FRAMES, trivial⟩, ht.only _ (by decide)⟩
    rintro pay rfl
    exact tx_sendLine he hl
  case lead =>
    intro s hr he hf
    have hx := exec_listenEnd_of_free hr he hf
    have ht := execListenEnd_touch s _ hx
    obtain ⟨hrole, hserial⟩ := becomeMaster_gives { s with time.grid := some (nextStart s, 0) }
    exact ⟨_, hx, (role_listenDone _).trans hrole, ((listenDone_touch _).same .timeGrid rfl).trans ((becomeMaster_touch _).same .timeGrid rfl),
      ((listenDone_touch _).rd _ (by decide)).trans hserial, words_of ht (L := [71, 73, 82]) (by decide)
      ⟨fun _ k => .inl (of_TIME_STATUS k), fun _ k => .inr (.inl (of_TIME_MSERIAL k)), fun _ k => .inr (.inr (of_NET_STATE k)), trivial⟩,
      ht.only _ (by decide)⟩
  case stay =>
    intro r v s ho hl hc hr hk
    rw [exec_refRx_of_master ho hl hc hr, judgeRank_of_higher hk]
    rfl
  case yields =>
    intro r v s ho hl hc hr hk
    have hx := exec_refRx_of_master ho hl hc hr
    rw [judgeRank_of_lower hk, if_pos rfl] at hx
    have ht := execRefRx_touch r s _ hx
    obtain ⟨hrole, hyield, hrank⟩ := yieldTo_gives (payN r.pay 3 1 / 64) (payN r.pay 20 4) v
    obtain ⟨kept, shown, hserial⟩ := useRef_gives (r := r) (s := yieldTo (payN r.pay 3 1 / 64) (payN r.pay 20 4) v) (by omega)
    exact ⟨_, hx, kept.trans hrole, shown.trans hyield, hserial, ht.blocks _ (by decide), ht.only _ (by decide)⟩
  case missed =>
    intro s hr
    have hx := exec_refWindowMiss_of_slave hr
    have ht := execRefWindowMiss_touch s _ hx
    obtain ⟨hcnt, hbit, hrow⟩ := missRef_gives s
    exact ⟨_, hx, hcnt, hbit, hrow, words_of ht (L := [71, 75, 263, 265]) (by decide)
      ⟨fun _ k => .inr (.inl (of_TIME_STATUS k)), fun _ k => .inr (.inr (of_REF_MISS_CNT k)), eachCls_sed fun _ => .inl⟩, ht.only _ (by decide)⟩
  case backup =>
    intro s hr hk hm he
    have hx := exec_refBackupStart_of_due hr hk hm he
    have ht := execRefBackupStart_touch s _ hx
    refine ⟨_, hx, ?_, fbit_w1cSet_lo (by decide) (by decide), ?_, words_of ht (L := [71, 73, 263, 265]) (by decide)
      ⟨fun _ k => .inr (.inl (of_TIME_STATUS k)), fun _ k => .inr (.inr (of_TIME_MSERIAL k)), eachCls_sed fun _ => .inl⟩, ht.only _ (by decide)⟩
    · rw [role, fget_w1cSet_apart_lo (by decide) (by decide) (by decide) (by decide)]
      exact (becomeMaster_gives s).1
    · rw [w1cSet_time]
      exact (becomeMaster_touch s).same .timeNs rfl

end Sys2Proof.Laws

/-! PROOF. Precision time (O40): Syncs and delay responses a slave takes, and the messages the port sends. -/

namespace Sys2Proof.Laws
open Sys2Proof Sys2Proof.Machine R

/-! ### The port at an instant (R355) -/

theorem ptp_reachAt (at' : Nat) (s : State) : (reachAt at' s).time.ptp = s.time.ptp := (reachAt_touch ..).same .timePtp rfl

theorem ptpState_reachAt (at' : Nat) (s : State) : ptpState (reachAt at' s) = ptpState s := fget_of_rd (rd_reachAt (by decide) ..)

/-- A message rests on DOMAIN alone. -/
theorem ptpMsg_of_rd {s t : State} (h : rd t PTP_CTRL = rd s PTP_CTRL) (typ len seq corr : Nat) (log : Int) (body : List (BitVec 8)) :
    ptpMsg t typ len seq corr log body = ptpMsg s typ len seq corr log body := by
  unfold ptpMsg ptpDomain; rw [fget_of_rd h]

theorem syncLog_of_rd {s t : State} (h : rd t PTP_CTRL = rd s PTP_CTRL) : syncLog t = syncLog s := by
  unfold syncLog; rw [fget_of_rd h]

theorem exec_ptpMessageRx_of_disabled {d : BitVec 8} {m : PtpMsg} {at' : Nat} {s : State} (h : fbit s PTP_CTRL PTP_CTRL_EN = false) :
    exec (.ptpMessageRx d m at') s = .next s := congrArg Host.Outcome.next (if_pos (by rw [h]; rfl))

theorem exec_ptpSyncTx_of_disabled {at' : Nat} {s : State} (h : fbit s PTP_CTRL PTP_CTRL_EN = false) : exec (.ptpSyncTx at') s = .next s :=
  congrArg Host.Outcome.next (if_pos (by rw [h]; rfl))

/-- The frame of PTP_MESSAGE_RX. -/
theorem ptpMessageRx_frame {d : BitVec 8} {m : PtpMsg} {at' : Nat} {s t : State} (hx : exec (.ptpMessageRx d m at') s = .next t) :
    regsOnly (fun a => sedAny a ∨ a = R.TIME_INC_LO ∨ a = R.TIME_INC_HI ∨ a = R.TIME_STATUS ∨ a = R.PTP_STATUS ∨ a = R.PTP_OFS) s t ∧
      onlyParts (sedParts.append [.schDlStat, .schRlStat, .schSampled, .timeNs, .timeInc, .timePtp]) s t := by
  have ht := execPtpMessageRx_touch d m at' s t hx
  exact ⟨words_of ht (L := [67, 68, 71, 77, 78, 263, 265]) (by decide)
    ⟨fun _ k => .inr (.inl (of_TIME_INC_LO k)), fun _ k => .inr (.inr (.inl (of_TIME_INC_HI k))), fun _ k => .inr (.inr (.inr (.inl (of_TIME_STATUS k)))),
     fun _ k => .inr (.inr (.inr (.inr (.inl (of_PTP_STATUS k))))), fun _ k => .inr (.inr (.inr (.inr (.inr (of_PTP_OFS k))))),
     eachCls_sed fun _ => .inl⟩, ht.only _ (by decide)⟩

/-! ### A slave's messages (R355, R356) -/

section
variable {d : BitVec 8} {at' : Nat} {s : State} (he : fbit s PTP_CTRL PTP_CTRL_EN = true) (hd : d.toNat = ptpDomain s) (h3 : ptpState s = 3)
include he hd h3

theorem exec_ptpMessageRx_of_sync (sq : BitVec 16) (t1 corr : BitVec 64) : exec (.ptpMessageRx d (.sync sq false t1 corr) at') s =
    .next (ptpOffset (t1.toNat * 65536 + corr.toInt) (instant s at' * 256) (reachAt at' s)) := by
  have hst : ptpState (reachAt at' s) = 3 := (ptpState_reachAt at' s).trans h3
  show execPtpMessageRx d (.sync sq false t1 corr) at' s = _
  unfold execPtpMessageRx
  dsimp only
  rw [if_neg (by rw [he, hd]; simp), if_neg (show ¬ ptpState (reachAt at' s) = 0 by omega), if_neg (not_not.2 hst), if_neg (by decide), instant_reachAt]
  rfl

/-- The delay of the last Sync and of the request a response answers. -/
theorem exec_ptpMessageRx_of_delayResp {sq : BitVec 16} {t1 t2 t3 : Int} (hr : s.time.ptp.req = some (sq.toNat, t3)) (ht : s.time.ptp.t12 = some (t1, t2))
    (t4 corr : BitVec 64) : exec (.ptpMessageRx d (.delayResp sq t4 corr) at') s = .next { reachAt at' s with
      time.ptp := { s.time.ptp with req := none, delay := ((t2 - t1) + (t4.toNat * 65536 - corr.toInt - t3)).fdiv 2 } } := by
  have hst : ptpState (reachAt at' s) = 3 := (ptpState_reachAt at' s).trans h3
  show execPtpMessageRx d (.delayResp sq t4 corr) at' s = _
  unfold execPtpMessageRx
  dsimp only
  rw [if_neg (by rw [he, hd]; simp), if_neg (show ¬ ptpState (reachAt at' s) = 0 by omega), ptp_reachAt, hr, ht]
  dsimp only
  rw [if_pos (by rw [hst]; simp)]
  rfl

end

/-- Without FOLLOW nothing steers the head's clock. -/
theorem ptpSteer_of_free {s : State} (h : fbit s PTP_CTRL PTP_CTRL_FOLLOW = false) (ofs : Int) : ptpSteer ofs s = s :=
  if_pos (by rw [h]; rfl)

/-- A Sync's offset is shown, with PLOCK. -/
def showOffset (t1 t2 : Int) (near : Nat) (s : State) : State :=
  fput (wrN { s with time.ptp := { s.time.ptp with t12 := some (t1, t2), near := near, sync := none } } PTP_OFS
    (ux 32 (sat 32 (rhu (t2 - t1 - s.time.ptp.delay) 65536)))) PTP_STATUS PTP_STATUS_PLOCK (decide (16 ≤ near))

theorem ptpOffset_eq (t1 t2 : Int) (s : State) :
    ∃ near, ptpOffset t1 t2 s = ptpSteer (rhu (t2 - t1 - s.time.ptp.delay) 65536) (showOffset t1 t2 near s) := ⟨_, rfl⟩

theorem rd_showOffset_ofs (t1 t2 : Int) (near : Nat) (s : State) :
    rd (showOffset t1 t2 near s) PTP_OFS = BitVec.ofNat 32 (ux 32 (sat 32 (rhu (t2 - t1 - s.time.ptp.delay) 65536))) :=
  (rd_fset_other (by decide)).trans (rd_wr_same ..)

theorem rd_showOffset_ctrl (t1 t2 : Int) (near : Nat) (s : State) : rd (showOffset t1 t2 near s) PTP_CTRL = rd s PTP_CTRL :=
  (rd_fset_other (by decide)).trans (rd_wr_other _ _ (by decide))

theorem rd_ptpOffset_of_free {s : State} (h : fbit s PTP_CTRL PTP_CTRL_FOLLOW = false) (t1 t2 : Int) :
    rd (ptpOffset t1 t2 s) PTP_OFS = BitVec.ofNat 32 (ux 32 (sat 32 (rhu (t2 - t1 - s.time.ptp.delay) 65536))) := by
  obtain ⟨near, e⟩ := ptpOffset_eq t1 t2 s
  rw [e, ptpSteer_of_free ((fbit_of_rd (rd_showOffset_ctrl ..)).trans h), rd_showOffset_ofs]

/-! ### Messages sent (R355) -/

/-- The port has sent its Sync of an instant. -/
def countSync (at' : Nat) (s : State) : State :=
  { reachAt at' s with time.ptp := { s.time.ptp with syncSeq := (s.time.ptp.syncSeq + 1) % 2 ^ 16 } }

theorem rd_countSync (at' : Nat) (s : State) : rd (countSync at' s) PTP_CTRL = rd s PTP_CTRL :=
  (rd_of_regs rfl _).trans (rd_reachAt (by decide) at' s)

theorem exec_ptpSyncTx_of_master {at' : Nat} {s : State} (he : fbit s PTP_CTRL PTP_CTRL_EN = true) (h2 : ptpState s = 2) :
    exec (.ptpSyncTx at') s = .next (ptpSend (ptpMsg s 0 44 s.time.ptp.syncSeq (ptpCorr (instant s at')) (syncLog s) (ptpStamp (instant s at')))
      (countSync at' s)) := by
  have hm : ¬ (decide (ptpState s ≤ 1) && decide (ptpMode s ≠ 1)) = true := by rw [h2]; simp
  rw [← ptpMsg_of_rd (rd_countSync at' s), ← syncLog_of_rd (rd_countSync at' s)]
  show execPtpSyncTx at' s = _
  unfold execPtpSyncTx
  dsimp only
  rw [if_neg (by rw [he]; decide), if_neg hm, if_neg (not_not.2 h2), ptp_reachAt, instant_reachAt]
  rfl

/-- The port has sent its delay request of an instant, and waits for the answer. -/
def awaitDelay (at' : Nat) (s : State) : State :=
  { reachAt at' s with time.ptp := { s.time.ptp with
    req := some (s.time.ptp.reqSeq, instant s at' * 256), peer := none, reqSeq := (s.time.ptp.reqSeq + 1) % 2 ^ 16 } }

theorem rd_awaitDelay (at' : Nat) (s : State) : rd (awaitDelay at' s) PTP_CTRL = rd s PTP_CTRL :=
  (rd_of_regs rfl _).trans (rd_reachAt (by decide) at' s)

theorem exec_ptpDelayRequest_of_slave {at' : Nat} {s : State} (he : fbit s PTP_CTRL PTP_CTRL_EN = true) (h3 : ptpState s = 3)
    (hp : fbit s PTP_CTRL PTP_CTRL_P2P = false) : exec (.ptpDelayRequest at') s =
      .next (ptpSend (ptpMsg s 1 44 s.time.ptp.reqSeq 0 0x7F (ptpStamp (instant s at'))) (awaitDelay at' s)) := by
  have hp' : ¬ fbit (awaitDelay at' s) PTP_CTRL PTP_CTRL_P2P = true := by rw [fbit_of_rd (rd_awaitDelay at' s), hp]; decide
  rw [← ptpMsg_of_rd (rd_awaitDelay at' s)]
  show execPtpDelayRequest at' s = _
  unfold execPtpDelayRequest
  dsimp only
  rw [if_neg (by rw [he, h3, hp]; decide), ptp_reachAt, instant_reachAt]
  exact congrArg Host.Outcome.next (if_neg hp')

/-- Settles O40: each event by the equation for its condition; what is computed or sent is one part of the port. -/
theorem precisionTimeActs : Obligations.PrecisionTimeActs := by
  unfold Obligations.PrecisionTimeActs
  refine ⟨fun d m at' s h => exec_ptpMessageRx_of_disabled h, ?offset, ?delay, ?sync, fun at' s h => exec_ptpSyncTx_of_disabled h, ?request⟩
  case offset =>
    intro d sq t1 corr at' s he hd h3 hf
    have hx := exec_ptpMessageRx_of_sync (at' := at') he hd h3 sq t1 corr
    refine ⟨_, hx, ?_, ptpMessageRx_frame hx⟩
    rw [rd_ptpOffset_of_free ((fbit_of_rd (rd_reachAt (by decide) ..)).trans hf), ptp_reachAt]
  case delay =>
    intro d sq t4 corr at' t3 t1 t2 s he hd h3 hr ht
    have hx := exec_ptpMessageRx_of_delayResp (at' := at') he hd h3 hr ht t4 corr
    exact ⟨_, hx, rfl, rfl, ptpMessageRx_frame hx⟩
  case sync =>
    intro at' s he h2
    have hx := exec_ptpSyncTx_of_master (at' := at') he h2
    have ht := execPtpSyncTx_touch at' s _ hx
    exact ⟨_, hx, rfl, rfl, words_of ht (L := [71, 77]) (by decide) ⟨fun _ k => .inl (of_TIME_STATUS k), fun _ k => .inr (of_PTP_STATUS k), trivial⟩,
      ht.only _ (by decide)⟩
  case request =>
    intro at' s he h3 hp
    have hx := exec_ptpDelayRequest_of_slave (at' := at') he h3 hp
    have ht := execPtpDelayRequest_touch at' s _ hx
    exact ⟨_, hx, rfl, rfl, rfl, words_of ht (L := [71]) (by decide) ⟨fun _ => of_TIME_STATUS, trivial⟩, ht.only _ (by decide)⟩

end Sys2Proof.Laws


/-! PROOF. The state right after power-on reset (O7): no word has been stored, every bridge channel has both its switches off. -/

namespace Sys2Proof.Laws
open Sys2Proof Sys2Proof.Machine

/-- A table in which no word has been stored is canonical, whatever the reset values of the map. -/
theorem regsCanonical_of_no_word {s : State} (h : s.regs = []) : regsCanonical s := by
  unfold regsCanonical
  rw [h]
  rfl

/-- A word that has not been stored reads as its reset value (R495, R499). -/
theorem rd_of_no_word {s : State} (h : s.regs = []) (a : Nat) : rd s a = regReset a := by
  unfold rd
  rw [h]
  rfl

/-- Channels that nothing has driven stand at their default: both switches off, no turn-on waiting. -/
theorem pinsSafe_of_no_chan {s : State} (h : s.edge.chan = []) : pinsSafe s := by
  intro c
  have hc : s.chan c = {} := by
    unfold State.chan
    rw [h]
    rfl
  rw [hc]
  exact chanSafe_default

/-- Settles O7: at reset no word is stored, no channel has been driven and no command waits. -/
theorem resetMeetsTheInvariants : Obligations.ResetMeetsTheInvariants := by
  unfold Obligations.ResetMeetsTheInvariants
  exact ⟨regsCanonical_of_no_word rfl, pinsSafe_of_no_chan rfl, rfl, rd_of_no_word rfl⟩

end Sys2Proof.Laws


/-! PROOF. The step and its queue (O1 to O5): a step takes the front command and runs it, every command answers a next state, and the register table stays canonical. -/

namespace Sys2Proof.Laws
open Sys2Proof Sys2Proof.Machine

/-! ### Every command answers -/

/-- RPT answers next for either form of its count (R210). -/
theorem execRpt_answers (u : UnitNo) (n : RptN) (s : State) : ∃ t, execRpt u n s = .next t := by
  cases n with
  | imm c => exact ⟨_, rfl⟩
  | reg d => exact ⟨_, rfl⟩

/-- LOOP answers next for either form of its count (R211). -/
theorem execLoop_answers (u : UnitNo) (n : LoopN) (e : BitVec 13) (s : State) : ∃ t, execLoop u n e s = .next t := by
  cases n with
  | imm c => exact ⟨_, rfl⟩
  | reg d => exact ⟨_, rfl⟩

/-- No command faults or is refused: a command whose condition fails answers a next state too (log entry 9). Only RPT and LOOP choose their operation by an operand; every other command is its operation outright. -/
theorem exec_answers (c : Instr) (s : State) : ∃ t, exec c s = .next t := by
  cases c with
  | rpt u n => exact execRpt_answers u n s
  | loop u n e => exact execLoop_answers u n e s
  | _ => exact ⟨_, rfl⟩

/-! ### What no command changes -/

/-- The queue is outside the footprint of every command: no command adds to it or takes from it. -/
theorem exec_keeps_pending {c : Instr} {s t : State} (he : exec c s = .next t) : t.pending = s.pending := by
  obtain ⟨_, ht⟩ := exec_touch c s
  exact (ht t he).pending

/-- Every command writes register words only in ways that keep the table canonical. -/
theorem exec_keeps_regsCanonical {c : Instr} {s t : State} (h : regsCanonical s) (he : exec c s = .next t) : regsCanonical t := by
  obtain ⟨_, ht⟩ := exec_touch c s
  exact (ht t he).canon h

/-! ### The step -/

/-- With nothing waiting a step changes nothing. -/
theorem step_of_idle {s : State} (h : s.pending = []) : step s = .next s := by
  unfold step
  rw [h]

/-- A step runs the front command with the rest of the queue behind it. -/
theorem step_of_front {c : Instr} {rest : List Instr} {s : State} (h : s.pending = c :: rest) :
    step s = exec c { s with pending := rest } := by
  unfold step
  rw [h]

/-- Settles O1: the step's own equation for a queue with a command in front. -/
theorem stepRunsTheFrontCommand : Obligations.StepRunsTheFrontCommand := by
  unfold Obligations.StepRunsTheFrontCommand
  exact fun _ _ _ => step_of_front

/-- Settles O2: the step's own equation for an empty queue. -/
theorem emptyQueueIdles : Obligations.EmptyQueueIdles := by
  unfold Obligations.EmptyQueueIdles
  exact fun _ => step_of_idle

/-- Settles O3: every command answers next, and the queue is no part of any command's footprint. -/
theorem everyCommandAnswers : Obligations.EveryCommandAnswers := by
  unfold Obligations.EveryCommandAnswers
  intro c s
  obtain ⟨t, he⟩ := exec_answers c s
  exact ⟨t, he, exec_keeps_pending he⟩

/-- Settles O4: a step with nothing waiting leaves the empty queue, and one with a command in front runs it on the rest, which no command changes. -/
theorem stepTakesOneCommand : Obligations.StepTakesOneCommand := by
  unfold Obligations.StepTakesOneCommand
  intro s t h
  cases hp : s.pending with
  | nil =>
    rw [step_of_idle hp] at h
    obtain rfl := Host.Outcome.next.inj h
    exact hp
  | cons c rest =>
    rw [step_of_front hp] at h
    exact exec_keeps_pending h

/-- Settles O5: an idle step changes nothing; else the front command runs on the same register table, which its footprint keeps canonical. -/
theorem stepKeepsRegistersCanonical : Obligations.StepKeepsRegistersCanonical := by
  unfold Obligations.StepKeepsRegistersCanonical
  intro s t hs h
  rcases step_cases h with rfl | ⟨c, rest, _, he⟩
  · exact hs
  · exact exec_keeps_regsCanonical (s := { s with pending := rest }) hs he

end Sys2Proof.Laws
